-- ==== Sys2Proof/Word.lean ====
section
/-! DEFINITION. The words of the device: 36-bit words (R4), 32-bit registers (R8), bytes. -/

namespace Sys2Proof

/-- A word: value in bits [31:0], quality Q in bits [35:32] (R4). -/
abbrev W36 := BitVec 36

/-- A register word, or the value part of a word (R8). -/
abbrev W32 := BitVec 32

/-- A byte of Mantel, a mailbox, a frame or the UART. -/
abbrev Byte := BitVec 8

end Sys2Proof
end

