-- ==== Sys2Proof/Syntax.lean ====
section
/-! DEFINITION. The commands of the block: one constructor of `Instr` per row of spec/opcode_table.json. -/

namespace Sys2Proof

/-- The cores that run Halder-36: 144 engines and the Tender (R97). -/
inductive CoreId where
  | engine (e : Fin 144)
  | tender
  deriving DecidableEq, Repr

/-- A general register number w0-w31 (R56). -/
abbrev Reg := BitVec 5

/-- Operands of format A (R66). -/
structure OpA where
  d : Reg
  a : Reg
  b : Reg
  x : BitVec 13
  deriving DecidableEq, Repr

/-- Operands of format I (R66). -/
structure OpI where
  d : Reg
  a : Reg
  imm : BitVec 18
  deriving DecidableEq, Repr

/-- Operands of format B (R66). -/
structure OpB where
  d : Reg
  base : Reg
  bit : BitVec 5
  off : BitVec 13
  deriving DecidableEq, Repr

/-- Operands of format J (R66). -/
structure OpJ where
  disp : BitVec 28
  deriving DecidableEq, Repr

/-- Operands of format L: format I followed by one literal word (R66). -/
structure OpL where
  d : Reg
  a : Reg
  imm : BitVec 18
  lit : W36
  deriving DecidableEq, Repr

/-- Who writes or reads a register (R482, R489). -/
inductive Requester where
  | host
  | uart
  | tenderSecure
  | tenderNormal
  deriving DecidableEq, Repr

/-- The conserved balances of R48. -/
inductive Ledger where
  | gateCredit (cluster : Fin 16) (link : Nat)
  | gateResponse (cluster : Fin 16) (source : Nat)
  | otherFlue (count : Nat)
  | engines (count : Nat)
  | tokens (cls : Fin 3) (tier : Nat)
  | hobTx (port : Fin 192)
  | segments (station : Nat)
  | records (cls : Fin 3)
  | retain
  deriving DecidableEq, Repr

/-- What a SECDED or page check finds (R132, R400). -/
inductive Ecc where
  | clean
  | corrected
  | uncorrectable
  deriving DecidableEq, Repr

/-- A DTLS or TLS peer address and port (R253). -/
structure Peer where
  addr : BitVec 128
  udpPort : BitVec 16
  deriving DecidableEq, Repr

/-- A received datagram (R249-R251): its port, the sender, the VLAN tag, the UDP port it is sent to, the size of its IP
packet. -/
structure Datagram where
  port : Fin 40
  peer : Peer
  vlan : Option (BitVec 12)
  udpPort : BitVec 16
  size : Nat
  deriving DecidableEq, Repr

/-- A datagram without the port it came by: the sender, the VLAN tag, the UDP port it is sent to, the size of its IP packet. -/
structure UdpHead where
  peer : Peer
  vlan : Option (BitVec 12)
  udpPort : BitVec 16
  size : Nat
  deriving DecidableEq, Repr

/-- The head of a datagram. -/
def Datagram.head (d : Datagram) : UdpHead := ⟨d.peer, d.vlan, d.udpPort, d.size⟩

/-- The datagram that came by a port. -/
def UdpHead.at (h : UdpHead) (port : Fin 40) : Datagram := ⟨port, h.peer, h.vlan, h.udpPort, h.size⟩

/-- A received witness datagram (R356): how it came and its bytes. -/
structure WitnessIn where
  dg : Datagram
  bytes : List Byte
  deriving DecidableEq, Repr

/-- A PTP event message at a port (R249, R379): its number, its VLAN tag, and whether the unit's own PTP stack sends it. -/
structure PtpMessage where
  id : Nat
  vlan : Option (BitVec 12)
  sent : Bool
  deriving DecidableEq, Repr

/-- The address that an ARP or neighbour query asks for (R249). -/
structure IpTarget where
  addr : BitVec 128
  v6 : Bool
  deriving DecidableEq, Repr

/-- A cell as it came by a lane (R329, R330). -/
structure LaneCell where
  lane : Fin 4
  words : List W36
  deriving DecidableEq, Repr

/-- What a TLS handshake amounts to (R252, R278): whether the peer offers something supported, whether its certificate is good,
and the certificate's SubjectPublicKeyInfo. -/
structure TlsOutcome where
  supported : Bool
  authentic : Bool
  spki : List Byte
  deriving DecidableEq, Repr

/-- What a received handshake message amounts to (R251, R252): `credential` is the leaf certificate's SubjectPublicKeyInfo or the
PSK identity, `chain` the number of certificates, `cid` the length of the station's connection ID in bytes. -/
structure Handshake where
  dg : Datagram
  cookieValid : Bool
  supported : Bool
  earlyData : Bool
  preShared : Bool
  authentic : Bool
  chain : Nat
  cid : Nat
  finished : Bool
  credential : List Byte
  deriving DecidableEq, Repr

/-- A received IEC 60870-5-104 information object (R281, R282), its time tag in CP56Time2a. -/
structure InfoObject where
  ioa : Nat
  typeId : Nat
  value : W32
  iv : Bool
  bl : Bool
  sb : Bool
  nt : Bool
  ov : Bool
  time : BitVec 56
  deriving DecidableEq, Repr

/-- A received APDU (R280): I-format with its length in octets and its objects, S-format, or U-format. -/
inductive Apdu where
  | iFormat (octets : Nat) (sendSeq recvSeq : Nat) (typeId : Nat) (cause : Nat) (ca : Nat) (objects : List InfoObject)
  | sFormat (recvSeq : Nat)
  | startdtCon
  | stopdtCon
  | testfrAct
  | testfrCon
  deriving DecidableEq, Repr

/-- A received CAN FD frame (R307, R309): identifier and payload bytes; `late` says that the port's sequencer is still behind
when the frame ends, so that the frame waits in the RX FIFO (R303). -/
structure CanFrame where
  ident : BitVec 11
  payload : List Byte
  late : Bool
  deriving DecidableEq, Repr

/-- Why a received bus frame is foreign (R296). -/
inductive Foreign where
  | classical
  | extendedId
  | remote
  | undefinedId
  deriving DecidableEq, Repr

/-- How a transmit attempt failed (R300). -/
inductive TxFailure where
  | arbitrationLost
  | bitErrorAfterArbitration
  | otherError
  deriving DecidableEq, Repr

/-- A partner heartbeat (R331). -/
structure Heartbeat where
  unit : Nat
  role : Nat
  held : Bool
  leaving : Bool
  claimEpoch : W32
  highest : W32
  time : Nat
  cycles : List W32
  seq : W32
  eraVersion : BitVec 16
  programId : W32
  version : W32
  layoutHash : W32
  editState : Nat
  deriving DecidableEq, Repr

/-- One DELTA entry of a cycle record (R333). -/
structure Delta where
  granule : Nat
  ret : Bool
  mask : W32
  words : List W36
  deriving DecidableEq, Repr

/-- One BLOCKS entry of a cycle record (R333). -/
structure BlockEntry where
  block : Nat
  op : Nat
  cause : Nat
  info : W32
  deriving DecidableEq, Repr

/-- A cycle record (R333). -/
structure CycleRecord where
  cls : Fin 3
  mark : Option (List W32)
  faults : Bool
  cycle : Nat
  epoch : W32
  stations : List (Nat × W32)
  events : List (W36 × W36)
  blocks : List BlockEntry
  delta : List Delta
  deriving DecidableEq, Repr

/-- The states that a Primary sends with a copy (R343): of each station its number, image state and last sequence; of each
class the entries of its event ring that are not released, and EV_HEAD, EV_START, EV_END and EV_LOST; the blocks that are
disabled or demoted; the disabled instances; the stalled classes; and the witness key that the units agree. -/
structure SyncStates where
  stations : List (Nat × Nat × W32)
  rings : List (List (W36 × W36))
  control : List (List Nat)
  blocks : List (Nat × Nat × Bool)
  instances : List (Nat × Nat)
  stalls : List Bool
  key : Nat
  deriving DecidableEq, Repr

/-- What the partner's version message says (R342, R513). -/
structure VersionMsg where
  stepping : Nat
  unit : Nat
  versions : List Nat
  partnerRanges : List (Nat × Nat)
  program : W32 × W32 × W32
  classes : List (Nat × Nat × Bool)
  timeOk : Bool
  turnspit : Bool
  editState : Nat
  stagedDigest : List W32
  held : Bool
  autoSync : Bool
  rollbackVersion : W32
  deriving DecidableEq, Repr

/-- What a full Sweep finds (R460, R462, R463): the failed engines, cluster gates, Hob ports, MACs and Hob sequencers, the
repairs made, each a macro number and its spare setting, and the number of failures of other kinds. -/
structure SweepFind where
  engines : List Nat
  gates : List Nat
  ports : List Nat
  macs : List Nat
  sequencers : List Nat
  repairs : List (Nat × Nat)
  uncovered : Nat
  deriving DecidableEq, Repr

/-- What Kindling finds in the hardware (R433-R435): what a full Sweep would find, and what is fitted. -/
structure KindlingFind where
  sweep : SweepFind
  dramChannels : Nat
  dramCapacity : Nat
  chimney : Bool
  hob : Bool
  grate : Bool
  mantel : Bool
  pufOk : Bool
  bootOk : Bool
  componentsOk : List Bool
  vbakMv : Nat
  deriving DecidableEq, Repr

/-- The guards of the Fireguard (R453). -/
inductive Guard where
  | system
  | cls (k : Fin 3)
  deriving DecidableEq, Repr

/-- What signalled a power-fail (R438). -/
inductive PfSource where
  | pin
  | monitor
  deriving DecidableEq, Repr

/-- The roles of an Ethernet port (R250, R287). -/
inductive EthRole where
  | stations
  | host
  | witness
  | ptp
  deriving DecidableEq, Repr

/-- Why an Ethernet frame is discarded (R249, R250). -/
inductive EthDiscard where
  | badFcs
  | overflow
  | fragment
  | vlan (tag : Option (BitVec 12))
  | tooLong (size : Nat)
  | wrongRole (role : EthRole)
  deriving DecidableEq, Repr

/-- A mailbox block or UART BLOCK as submitted (R486, R491). -/
structure Block where
  kind : Nat
  offset : Nat
  length : Nat
  crc : W32
  data : List Byte
  deriving DecidableEq, Repr

/-- The commands of spec/opcode_table.json, in the table's order; each constructor's row is named in LAWS.json. -/
inductive Instr where
  /-- REGISTER_WRITE (R10). -/
  | registerWrite (r : Requester) (page off : Nat) (v : W32)
  /-- HOST_UNASSIGNED_ACCESS (R12). -/
  | hostUnassignedAccess (write : Bool) (page off : Nat)
  /-- LEDGER_BREAK (R49). -/
  | ledgerBreak (l : Ledger)
  /-- ENGINE_FAILURE (R31); `credits` are those reclaimed of the link into the engine. -/
  | engineFailure (e : Fin 144) (credits : Fin 35)
  /-- FBX_ENGINE_MAPOUT (R41); `credits` as for ENGINE_FAILURE. -/
  | fbxEngineMapout (r : Requester) (e : Fin 144) (v : W32) (credits : Fin 35)
  /-- SPARE_LOAD_DONE (R33). -/
  | spareLoadDone (e : Fin 144)
  /-- FBX_CLUSTER_MAPOUT (R40). -/
  | fbxClusterMapout (r : Requester) (n : Fin 16) (v : W32)
  /-- CLUSTER_DOMAIN_FAULT (R36). -/
  | clusterDomainFault (n : Fin 16)
  /-- DRM_MAPOUT (R38). -/
  | drmMapout (r : Requester) (v : W32)
  /-- DRM_RETURN (R39). -/
  | drmReturn (r : Requester) (v : W32)
  /-- RESILVER_DONE (R39). -/
  | resilverDone (ch : Fin 2)
  /-- DRAM_CHANNEL_FAULT (R38). -/
  | dramChannelFault (ch : Fin 2)
  /-- CHM_PORT_MAPOUT (R37). -/
  | chmPortMapout (r : Requester) (x : Fin 40) (v : W32)
  /-- HOB_PORT_MAPOUT (R37). -/
  | hobPortMapout (r : Requester) (p : Fin 192) (v : W32)
  /-- NOP (R71). -/
  | nop (c : CoreId) (o : OpA)
  /-- SYS (R143). -/
  | sys (c : CoreId) (o : OpI)
  /-- SYSW (R144). -/
  | sysw (c : CoreId) (o : OpI)
  /-- SVC (R143). -/
  | svc (c : CoreId) (o : OpI)
  /-- BRK (R143). -/
  | brk (c : CoreId) (o : OpI)
  /-- RETE (R85). -/
  | rete (c : CoreId) (o : OpA)
  /-- WFI (R146). -/
  | wfi (c : CoreId) (o : OpA)
  /-- WFI_WAKE (R146). -/
  | wfiWake
  /-- FENCE (R143). -/
  | fence (c : CoreId) (o : OpA)
  /-- FENCE_DRAINED (R143). -/
  | fenceDrained (c : CoreId)
  /-- ADD (R147). -/
  | add (c : CoreId) (o : OpA)
  /-- ADDI (R147). -/
  | addi (c : CoreId) (o : OpI)
  /-- SUB (R147). -/
  | sub (c : CoreId) (o : OpA)
  /-- ADDS (R151). -/
  | adds (c : CoreId) (o : OpA)
  /-- SUBS (R151). -/
  | subs (c : CoreId) (o : OpA)
  /-- MUL (R147). -/
  | mul (c : CoreId) (o : OpA)
  /-- MULH (R147). -/
  | mulh (c : CoreId) (o : OpA)
  /-- MULHU (R147). -/
  | mulhu (c : CoreId) (o : OpA)
  /-- DIV (R175). -/
  | div (c : CoreId) (o : OpA)
  /-- DIVU (R175). -/
  | divu (c : CoreId) (o : OpA)
  /-- REM (R175). -/
  | rem (c : CoreId) (o : OpA)
  /-- REMU (R175). -/
  | remu (c : CoreId) (o : OpA)
  /-- AND (R147). -/
  | and_ (c : CoreId) (o : OpA)
  /-- OR (R147). -/
  | or_ (c : CoreId) (o : OpA)
  /-- XOR (R147). -/
  | xor_ (c : CoreId) (o : OpA)
  /-- ANDI (R147). -/
  | andi (c : CoreId) (o : OpI)
  /-- ORI (R147). -/
  | ori (c : CoreId) (o : OpI)
  /-- XORI (R147). -/
  | xori (c : CoreId) (o : OpI)
  /-- SHL (R148). -/
  | shl (c : CoreId) (o : OpA)
  /-- SHR (R148). -/
  | shr (c : CoreId) (o : OpA)
  /-- SAR (R148). -/
  | sar (c : CoreId) (o : OpA)
  /-- MIN (R147). -/
  | min (c : CoreId) (o : OpA)
  /-- MAX (R147). -/
  | max (c : CoreId) (o : OpA)
  /-- ADDP (R150). -/
  | addp (c : CoreId) (o : OpA)
  /-- SUBP (R150). -/
  | subp (c : CoreId) (o : OpA)
  /-- LIQ (R147). -/
  | liq (c : CoreId) (o : OpL)
  /-- SEL (R149). -/
  | sel (c : CoreId) (o : OpA)
  /-- MOV (R152). -/
  | mov (c : CoreId) (o : OpA)
  /-- ADDA (R152). -/
  | adda (c : CoreId) (o : OpI)
  /-- ADDAR (R152). -/
  | addar (c : CoreId) (o : OpA)
  /-- SUBA (R152). -/
  | suba (c : CoreId) (o : OpA)
  /-- LI (R152). -/
  | li (c : CoreId) (o : OpL)
  /-- MOVP (R152). -/
  | movp (c : CoreId) (o : OpA)
  /-- SHLA (R152). -/
  | shla (c : CoreId) (o : OpA)
  /-- CEQ (R153). -/
  | ceq (c : CoreId) (o : OpA)
  /-- CNE (R153). -/
  | cne (c : CoreId) (o : OpA)
  /-- CLT (R153). -/
  | clt (c : CoreId) (o : OpA)
  /-- CLE (R153). -/
  | cle (c : CoreId) (o : OpA)
  /-- CLTU (R153). -/
  | cltu (c : CoreId) (o : OpA)
  /-- CLEU (R153). -/
  | cleu (c : CoreId) (o : OpA)
  /-- CEQI (R153). -/
  | ceqi (c : CoreId) (o : OpI)
  /-- CLTI (R153). -/
  | clti (c : CoreId) (o : OpI)
  /-- CGTI (R153). -/
  | cgti (c : CoreId) (o : OpI)
  /-- FCEQ (R153). -/
  | fceq (c : CoreId) (o : OpA)
  /-- FCLT (R153). -/
  | fclt (c : CoreId) (o : OpA)
  /-- FCLE (R153). -/
  | fcle (c : CoreId) (o : OpA)
  /-- LDW (R154). -/
  | ldw (c : CoreId) (o : OpI)
  /-- STW (R154). -/
  | stw (c : CoreId) (o : OpI)
  /-- LDP (R154). -/
  | ldp (c : CoreId) (o : OpI)
  /-- STP (R154). -/
  | stp (c : CoreId) (o : OpI)
  /-- LDWX (R154). -/
  | ldwx (c : CoreId) (o : OpA)
  /-- STWX (R154). -/
  | stwx (c : CoreId) (o : OpA)
  /-- LDB (R159). -/
  | ldb (c : CoreId) (o : OpB)
  /-- LDBP (R159). -/
  | ldbp (c : CoreId) (o : OpB)
  /-- REDGE (R159). -/
  | redge (c : CoreId) (o : OpB)
  /-- FEDGE (R159). -/
  | fedge (c : CoreId) (o : OpB)
  /-- CHGB (R159). -/
  | chgb (c : CoreId) (o : OpB)
  /-- STB (R160). -/
  | stb (c : CoreId) (o : OpB)
  /-- SETB (R160). -/
  | setb (c : CoreId) (o : OpB)
  /-- CLRB (R160). -/
  | clrb (c : CoreId) (o : OpB)
  /-- LDWP (R159). -/
  | ldwp (c : CoreId) (o : OpB)
  /-- CHGW (R159). -/
  | chgw (c : CoreId) (o : OpB)
  /-- TSTB (R159). -/
  | tstb (c : CoreId) (o : OpA)
  /-- INSB (R159). -/
  | insb (c : CoreId) (o : OpA)
  /-- POPC (R159). -/
  | popc (c : CoreId) (o : OpA)
  /-- FFS (R159). -/
  | ffs (c : CoreId) (o : OpA)
  /-- FADD (R163). -/
  | fadd (c : CoreId) (o : OpA)
  /-- FSUB (R163). -/
  | fsub (c : CoreId) (o : OpA)
  /-- FMUL (R163). -/
  | fmul (c : CoreId) (o : OpA)
  /-- FDIV (R163). -/
  | fdiv (c : CoreId) (o : OpA)
  /-- FSQRT (R163). -/
  | fsqrt (c : CoreId) (o : OpA)
  /-- FMIN (R163). -/
  | fmin (c : CoreId) (o : OpA)
  /-- FMAX (R163). -/
  | fmax (c : CoreId) (o : OpA)
  /-- FABS (R163). -/
  | fabs (c : CoreId) (o : OpA)
  /-- FNEG (R163). -/
  | fneg (c : CoreId) (o : OpA)
  /-- FCVTIF (R163). -/
  | fcvtif (c : CoreId) (o : OpA)
  /-- FCVTFI (R163). -/
  | fcvtfi (c : CoreId) (o : OpA)
  /-- J (R168). -/
  | jump (c : CoreId) (o : OpJ)
  /-- CALL (R85). -/
  | call (c : CoreId) (o : OpJ)
  /-- BZ (R168). -/
  | bz (c : CoreId) (o : OpI)
  /-- BNZ (R168). -/
  | bnz (c : CoreId) (o : OpI)
  /-- JR (R168). -/
  | jr (c : CoreId) (o : OpA)
  /-- CALLR (R168). -/
  | callr (c : CoreId) (o : OpA)
  /-- RET (R85). -/
  | ret (c : CoreId) (o : OpA)
  /-- BEND (R170). -/
  | bend (c : CoreId) (o : OpA)
  /-- QGET (R171). -/
  | qget (c : CoreId) (o : OpA)
  /-- QSET (R171). -/
  | qset (c : CoreId) (o : OpA)
  /-- QSETI (R171). -/
  | qseti (c : CoreId) (o : OpI)
  /-- QORI (R171). -/
  | qori (c : CoreId) (o : OpI)
  /-- QCLRI (R171). -/
  | qclri (c : CoreId) (o : OpI)
  /-- QMRG (R171). -/
  | qmrg (c : CoreId) (o : OpA)
  /-- QVAL (R171). -/
  | qval (c : CoreId) (o : OpA)
  /-- QGOOD (R171). -/
  | qgood (c : CoreId) (o : OpA)
  /-- QSEL (R171). -/
  | qsel (c : CoreId) (o : OpA)
  /-- RDTIME (R172). -/
  | rdtime (c : CoreId) (o : OpA)
  /-- RDBOUND (R172). -/
  | rdbound (c : CoreId) (o : OpA)
  /-- RDCYC (R172). -/
  | rdcyc (c : CoreId) (o : OpA)
  /-- RDPER (R172). -/
  | rdper (c : CoreId) (o : OpA)
  /-- RDFULL (R172). -/
  | rdfull (c : CoreId) (o : OpA)
  /-- RDCNT (R172). -/
  | rdcnt (c : CoreId) (o : OpA)
  /-- LOAD_COMPLETE (R73). -/
  | loadComplete (c : CoreId) (unc : Bool)
  /-- STORE_COMPLETE (R25). -/
  | storeComplete (c : CoreId)
  /-- LOCKSTEP_MISMATCH (R94). -/
  | lockstepMismatch
  /-- INTERRUPT_ENTRY (R92). -/
  | interruptEntry (source : Fin 64)
  /-- NMI_ENTRY (R92). -/
  | nmiEntry
  /-- BUDGET_EXCEEDED (R210). -/
  | budgetExceeded (e : Fin 144)
  /-- HOST_IMAGE_READ (R137). -/
  | hostImageRead (off len : Nat)
  /-- HOST_IMAGE_WRITE (R136). -/
  | hostImageWrite (off : Nat) (data : List Byte)
  /-- SETTLE_END (R108). -/
  | settleEnd (k : Fin 3)
  /-- SCRUB_READ (R132). -/
  | scrubRead (found : Ecc)
  /-- HRT_RETAIN_CAPTURE (R138). -/
  | hrtRetainCapture (r : Requester) (v : W32)
  /-- RETAIN_CAPTURE_END (R127). -/
  | retainCaptureEnd
  /-- CLASS_BOUNDARY (R184). -/
  | classBoundary (k : Fin 3)
  /-- INTAKE_COMPLETE (R184). -/
  | intakeComplete (k : Fin 3)
  /-- TIER_OPEN (R194). -/
  | tierOpen (k : Fin 3)
  /-- TIER_TOKEN (R193). -/
  | tierToken (k : Fin 3) (l : Fin 128)
  /-- SOLVE_END (R184). -/
  | solveEnd (k : Fin 3)
  /-- OUTLAY_END (R184). -/
  | outlayEnd (k : Fin 3)
  /-- MIRROR_HANDOVER (R339). -/
  | mirrorHandover (k : Fin 3)
  /-- STALL_RESUME (R208). -/
  | stallResume (r : Requester) (k : Fin 3) (v : W32)
  /-- BLW_PERIOD_WRITE (R177). -/
  | blwPeriodWrite (r : Requester) (k : Fin 3) (v : W32)
  /-- BLW_PHASE_OFFSET_WRITE (R178). -/
  | blwPhaseOffsetWrite (r : Requester) (k : Fin 3) (v : W32)
  /-- BLW_LOCK_WRITE (R180). -/
  | blwLockWrite (r : Requester) (k : Fin 3) (v : W32)
  /-- BLOCK_ENABLE (R211). -/
  | blockEnable (r : Requester) (block : BitVec 20)
  /-- BLOCK_DISABLE (R211). -/
  | blockDisable (r : Requester) (block : BitVec 20)
  /-- ENABLE_ALL_INSTANCES (R220). -/
  | enableAllInstances (r : Requester) (block : BitVec 20)
  /-- BEGIN_LOAD (R231). -/
  | beginLoad (r : Requester)
  /-- VERIFY (R232). -/
  | verify (r : Requester)
  /-- VERIFY_DONE (R234). -/
  | verifyDone (mantelOk : Bool)
  /-- ARM (R236). -/
  | arm (r : Requester)
  /-- DISARM (R238). -/
  | disarm (r : Requester)
  /-- ROLLBACK_ARM (R245). -/
  | rollbackArm (r : Requester)
  /-- ACTIVATE_NOW (R241). -/
  | activateNow (r : Requester)
  /-- EDIT_DISCARD (R231). -/
  | editDiscard (r : Requester)
  /-- ARM_MESSAGE (R242). -/
  | armMessage (digest : List W32) (k : Fin 3) (cycle : Nat)
  /-- ARM_ACKNOWLEDGE (R242). -/
  | armAcknowledge
  /-- ARM_ACK_TIMEOUT (R242). -/
  | armAckTimeout
  /-- DISARM_MESSAGE (R242). -/
  | disarmMessage
  /-- DTLS_HANDSHAKE (R251). -/
  | dtlsHandshake (session : Nat) (h : Handshake)
  /-- DTLS_KEY_UPDATE (R251). -/
  | dtlsKeyUpdate (session : Nat)
  /-- DTLS_RECORD (R253). -/
  | dtlsRecord (session : Nat) (port : Fin 40) (head : UdpHead) (seq : Nat) (authentic : Bool) (frame : List Byte)
  /-- SESSION_IDLE_TIMEOUT (R253). -/
  | sessionIdleTimeout (session : Nat)
  /-- DRAUGHT_BIND (R261). -/
  | draughtBind (session : Nat)
  /-- DRAUGHT_INTAKE (R268). -/
  | draughtIntake (session : Nat)
  /-- DRAUGHT_ACK (R262). -/
  | draughtAck (session : Nat)
  /-- DRAUGHT_EVENT (R263). -/
  | draughtEvent (session : Nat)
  /-- OUTLAY_REPEAT (R273). -/
  | outlayRepeat (station : Nat)
  /-- HOLD_REPEAT (R274). -/
  | holdRepeat (station : Nat)
  /-- STN_SELECT (R288). -/
  | stnSelect (r : Requester) (station : BitVec 17)
  /-- CLOSE_SESSION (R288). -/
  | closeSession (r : Requester) (station : BitVec 17)
  /-- STATION_DISABLE (R271). -/
  | stationDisable (r : Requester) (station : BitVec 17)
  /-- STATION_ENABLE (R271). -/
  | stationEnable (r : Requester) (station : BitVec 17)
  /-- CLEAR_COUNTERS (R288). -/
  | clearCounters (r : Requester) (station : BitVec 17)
  /-- INTERROGATE_NOW (R288). -/
  | interrogateNow (r : Requester) (station : BitVec 17)
  /-- ARP_REQUEST (R249). -/
  | arpRequest (x : Fin 40) (vlan : Option (BitVec 12)) (target : IpTarget)
  /-- ETH_LINK_CHANGE (R287). -/
  | ethLinkChange (x : Fin 40) (up : Bool) (speed : BitVec 2)
  /-- LEGACY_CONNECT (R278). -/
  | legacyConnect (station : Nat)
  /-- LEGACY_RETRY (R278). -/
  | legacyRetry (station : Nat)
  /-- LEGACY_KEY_RENEWAL (R278). -/
  | legacyKeyRenewal (station : Nat)
  /-- LEGACY_APDU (R282). -/
  | legacyApdu (station : Nat) (apdu : Apdu)
  /-- LEGACY_ACTCON (R284). -/
  | legacyActcon (station : Nat) (ioa : Nat) (positive : Bool)
  /-- LEGACY_ACTTERM (R284). -/
  | legacyActterm (station : Nat)
  /-- LEGACY_TEST_FRAME (R283). -/
  | legacyTestFrame (station : Nat)
  /-- LEGACY_T1_TIMEOUT (R280). -/
  | legacyT1Timeout (station : Nat)
  /-- LEGACY_INTERROGATION_TIMER (R284). -/
  | legacyInterrogationTimer (station : Nat)
  /-- LEGACY_CLOCK_SYNC_TIMER (R284). -/
  | legacyClockSyncTimer (station : Nat)
  /-- LEGACY_NEG_HOLDOFF_END (R284). -/
  | legacyNegHoldoffEnd (station : Nat) (ioa : Nat)
  /-- HOB_MODE_WRITE (R295). -/
  | hobModeWrite (r : Requester) (p : Fin 192) (v : W32)
  /-- HOB_MODE_CHANGE (R293). -/
  | hobModeChange (p : Fin 192)
  /-- HOB_IMAGE_FRAME (R317). -/
  | hobImageFrame (p : Fin 192) (f : CanFrame)
  /-- HOB_ACK_FRAME (R311). -/
  | hobAckFrame (p : Fin 192) (f : CanFrame)
  /-- HOB_EVENT_FRAME (R312). -/
  | hobEventFrame (p : Fin 192) (f : CanFrame)
  /-- HOB_FOREIGN_FRAME (R296). -/
  | hobForeignFrame (p : Fin 192) (why : Foreign)
  /-- HOB_PEER_FRAME (R314). -/
  | hobPeerFrame (p : Fin 192) (f : CanFrame)
  /-- HOB_STATION_WAKE_FRAME (R320). -/
  | hobStationWakeFrame (p : Fin 192) (f : CanFrame)
  /-- HOB_SLEEP_VOTE (R319). -/
  | hobSleepVote (p : Fin 192) (f : CanFrame)
  /-- HOB_FRAME_SENT (R298). -/
  | hobFrameSent (p : Fin 192)
  /-- HOB_TX_FAILED (R300). -/
  | hobTxFailed (p : Fin 192) (how : TxFailure)
  /-- HOB_BACKOFF_END (R300). -/
  | hobBackoffEnd (p : Fin 192) (b : Fin 32)
  /-- HOB_TX_CANCEL (R301). -/
  | hobTxCancel (r : Requester) (p : Fin 192) (v : W32)
  /-- HOB_REF_GUARD (R306). -/
  | hobRefGuard (p : Fin 192)
  /-- HOB_REFERENCE_LAUNCH (R304). -/
  | hobReferenceLaunch (p : Fin 192)
  /-- HOB_REFERENCE_LOST (R306). -/
  | hobReferenceLost (p : Fin 192)
  /-- HOB_BUS_OFF (R297). -/
  | hobBusOff (p : Fin 192)
  /-- HOB_BUS_OFF_RECOVERY (R297). -/
  | hobBusOffRecovery (p : Fin 192)
  /-- HOB_SLEEP_REQUEST (R319). -/
  | hobSleepRequest (r : Requester) (p : Fin 192)
  /-- HOB_VOTE_END (R319). -/
  | hobVoteEnd (p : Fin 192)
  /-- HOB_QUIET_WINDOW_END (R319). -/
  | hobQuietWindowEnd (p : Fin 192)
  /-- HOB_SLEEP_WAKE (R322). -/
  | hobSleepWake (r : Requester) (p : Fin 192)
  /-- HOB_GROUP_WAKE (R322). -/
  | hobGroupWake (g : Fin 24)
  /-- HOB_BUS_WAKE (R322). -/
  | hobBusWake (p : Fin 192)
  /-- HOB_PORT_RESTARTED (R322). -/
  | hobPortRestarted (p : Fin 192)
  /-- HOB_SEQUENCER_FAULT (R290). -/
  | hobSequencerFault (q : Fin 12)
  /-- HEARTBEAT_TIMER (R331). -/
  | heartbeatTimer
  /-- ERAIR_HEARTBEAT (R331): the payload of a heartbeat cell. -/
  | erairHeartbeat (payload : List W36)
  /-- ERAIR_LOSS (R332). -/
  | erairLoss
  /-- ERAIR_LINK_UP (R332). -/
  | erairLinkUp (roundTripNs : Nat) (partnerTime : Nat)
  /-- LANE_FAILURE (R329). -/
  | laneFailure (l : Fin 4)
  /-- LANE_RETRAIN_DONE (R329). -/
  | laneRetrainDone (lanes : BitVec 4)
  /-- ERAIR_RECORD (R336): the payload of a record's cells. -/
  | erairRecord (words : List W36)
  /-- ERAIR_ACK (R337). -/
  | erairAck (k : Fin 3) (cycle : W32) (applied : Bool)
  /-- RECORD_RESEND_TIMEOUT (R337). -/
  | recordResendTimeout (k : Fin 3) (cycle : W32)
  /-- ACK_TIMEOUT (R341). -/
  | ackTimeout (k : Fin 3)
  /-- TIME_OK_TIMEOUT (R341). -/
  | timeOkTimeout
  /-- ERA_SYNC (R342). -/
  | eraSync (r : Requester)
  /-- ERA_DESYNC (R341). -/
  | eraDesync (r : Requester)
  /-- ERA_SWAP (R364). -/
  | eraSwap (r : Requester)
  /-- SYNC_START (R342). -/
  | syncStart
  /-- VERSION_MESSAGE (R342). -/
  | versionMessage (m : VersionMsg)
  /-- COPY_CELL (R343). -/
  | copyCell (granule : Nat) (current previous : List W36)
  /-- SYNC_DONE (R343). -/
  | syncDone (x : SyncStates)
  /-- LISTEN_TIMEOUT (R347). -/
  | listenTimeout
  /-- HANDOVER (R354). -/
  | handover
  /-- ALIVE_OUT_TOGGLE (R355). -/
  | aliveOutToggle
  /-- PARTNER_ALIVE_EDGE (R355). -/
  | partnerAliveEdge (intervalUs : Nat)
  /-- LINE_DEAD (R357). -/
  | lineDead
  /-- WITNESS_PROBE_TIMER (R356). -/
  | witnessProbeTimer
  /-- WITNESS_PROBE (R356). -/
  | witnessProbe (w : WitnessIn)
  /-- WITNESS_ANSWER (R357). -/
  | witnessAnswer (w : WitnessIn)
  /-- WITNESS_CLAIM_NOTICE (R356). -/
  | witnessClaimNotice (w : WitnessIn)
  /-- WITNESS_DEAD (R357). -/
  | witnessDead
  /-- CLAIM_NOTICE_TIMER (R358). -/
  | claimNoticeTimer
  /-- SWAP_POINT (R364). -/
  | swapPoint
  /-- SWAP_DEMOTE (R364). -/
  | swapDemote
  /-- RELEASE (R364). -/
  | release (cycles : List W32)
  /-- TSP_SAMPLE (R371). -/
  | tspSample (r : Requester) (d : Fin 2) (hi : W32)
  /-- TSP_ADJUST (R370). -/
  | tspAdjust (r : Requester) (d : Fin 2) (hi : W32)
  /-- TSP_SELECT (R375). -/
  | tspSelect (r : Requester) (v : W32)
  /-- TSP_HOLDOVER (R369). -/
  | tspHoldover (d : Fin 2)
  /-- TSP_BLEED_END (R375). -/
  | tspBleedEnd
  /-- TSP_SYS_READ (R378). -/
  | tspSysRead (r : Requester)
  /-- TSP_DOMAIN_READ (R378). -/
  | tspDomainRead (r : Requester) (d : Fin 2)
  /-- TIMED_LAUNCH (R381). -/
  | timedLaunch (port : Fin 232)
  /-- GRATE_CONFIG_WRITE (R386). -/
  | grateConfigWrite (r : Requester) (n : Fin 16) (v : W32)
  /-- GRATE_PAIR_WRITE (R394). -/
  | gratePairWrite (r : Requester) (v : W32)
  /-- GRATE_INPUT_CHANGE (R387). -/
  | grateInputChange (n : Fin 16) (on : Bool)
  /-- GRATE_OVERLOAD (R392). -/
  | grateOverload (n : Fin 16)
  /-- GRATE_THERMAL (R392). -/
  | grateThermal (n : Fin 16)
  /-- GRATE_RETRY (R392). -/
  | grateRetry (n : Fin 16)
  /-- GRATE_FAULT_CLEAR (R392). -/
  | grateFaultClear (n : Fin 16)
  /-- GRATE_SUPPLY_CHANGE (R393). -/
  | grateSupplyChange (g : Fin 2) (mv : Nat)
  /-- MANTEL_READ (R404). -/
  | mantelRead (r : Requester) (found : Ecc)
  /-- STAGE (R405). -/
  | stage (r : Requester)
  /-- COMMIT (R405). -/
  | commit (r : Requester)
  /-- COMMIT_ERASE (R405). -/
  | commitErase (r : Requester)
  /-- ERASE (R404). -/
  | erase (r : Requester)
  /-- MANTEL_DISCARD (R404). -/
  | mantelDiscard (r : Requester)
  /-- PARAM_APPEND (R412). -/
  | paramAppend (r : Requester)
  /-- RETAIN_COMMIT (R413). -/
  | retainCommit (r : Requester)
  /-- MANTEL_OP_DONE (R405). -/
  | mantelOpDone
  /-- BACKGROUND_ERASE (R412). -/
  | backgroundErase (block : Fin 2048)
  /-- PRIVILEGED_COMMIT_DONE (R418). -/
  | privilegedCommitDone
  /-- ASH_FLUSH (R418). -/
  | ashFlush (r : Requester)
  /-- ASH_FLUSH_DONE (R418). -/
  | ashFlushDone
  /-- ASH_CLEAR (R421). -/
  | ashClear (r : Requester)
  /-- ASH_CLEAR_DONE (R421). -/
  | ashClearDone
  /-- PWR_HOLD (R427). -/
  | pwrHold (r : Requester)
  /-- PWR_RUN (R427). -/
  | pwrRun (r : Requester)
  /-- PWR_BANK (R442). -/
  | pwrBank (r : Requester)
  /-- PWR_RAKE (R429). -/
  | pwrRake (r : Requester)
  /-- PWR_RAKE_OFF (R429). -/
  | pwrRakeOff (r : Requester)
  /-- PWR_WAKE (R444). -/
  | pwrWake (r : Requester)
  /-- PWR_RESET (R427). -/
  | pwrReset (r : Requester)
  /-- PD_REQUEST (R431). -/
  | pdRequest (r : Requester) (n : Fin 24) (v : W32)
  /-- PD_SWITCH_DONE (R430). -/
  | pdSwitchDone (n : Fin 24)
  /-- SEC_OWNER_WRITE (R495). -/
  | secOwnerWrite (r : Requester) (n : Fin 24) (own : Bool)
  /-- MAIN_SUPPLY_VALID (R524). -/
  | mainSupplyValid
  /-- BROWN_OUT (R441). -/
  | brownOut
  /-- RESET_PIN (R525). -/
  | resetPin
  /-- KINDLING_START (R433). -/
  | kindlingStart (f : KindlingFind)
  /-- KINDLING_END (R433). -/
  | kindlingEnd
  /-- POWER_FAIL (R438). -/
  | powerFail (src : PfSource)
  /-- PF_RECOVERED (R440). -/
  | pfRecovered
  /-- PF_COMMITS_DONE (R415). -/
  | pfCommitsDone
  /-- BANK_DEEP_STAGE (R443). -/
  | bankDeepStage
  /-- WAKE_PIN (R444). -/
  | wakePin
  /-- PERST_RISE (R502). -/
  | perstRise
  /-- RAKE_END (R429). -/
  | rakeEnd (f : SweepFind)
  /-- EMBER_ALARM (R448). -/
  | emberAlarm
  /-- EMBER_HALT (R447). -/
  | emberHalt (r : Requester) (v : W32)
  /-- EMBER_TICK_SET (R447). -/
  | emberTickSet (r : Requester) (hi : W32)
  /-- EMBER_ALARM_SET (R448). -/
  | emberAlarmSet (r : Requester) (hi : W32)
  /-- OSC_FAIL (R449). -/
  | oscFail
  /-- EMBER_POR (R449). -/
  | emberPor
  /-- VBAK_MEASURE (R449). -/
  | vbakMeasure (mv : Nat)
  /-- EMBER_UNLOCK (R445). -/
  | emberUnlock
  /-- CLOCK_LOSS (R459). -/
  | clockLoss
  /-- CLOCK_RESTORED (R459). -/
  | clockRestored
  /-- FGD_CONFIG_WRITE (R454). -/
  | fgdConfigWrite (r : Requester) (g : Guard) (v : W32)
  /-- FGD_SERVICE (R455). -/
  | fgdService (r : Requester) (v : W32)
  /-- GUARD_EXPIRY (R457). -/
  | guardExpiry (g : Guard)
  /-- HARD_TIMER_EXPIRY (R457). -/
  | hardTimerExpiry
  /-- SWEEP_REQUEST (R460). -/
  | sweepRequest (r : Requester) (v : W32)
  /-- SWEEP_TEST_DONE (R461). -/
  | sweepTestDone (pass : Bool) (signature : W32)
  /-- POKER_ID (R466). -/
  | pokerId
  /-- POKER_SELECT (R466). -/
  | pokerSelect (core : Nat)
  /-- POKER_READ (R467). -/
  | pokerRead (n : BitVec 8)
  /-- POKER_WRITE (R467). -/
  | pokerWrite (n : BitVec 8) (w : W36)
  /-- POKER_HALT (R468). -/
  | pokerHalt
  /-- CORE_HALT_TAKEN (R469). -/
  | coreHaltTaken (c : CoreId)
  /-- POKER_RESUME (R466). -/
  | pokerResume
  /-- POKER_INJECT (R470). -/
  | pokerInject (w : W36)
  /-- POKER_CHALLENGE (R471). -/
  | pokerChallenge
  /-- POKER_RESPONSE (R471). -/
  | pokerResponse (w : W36)
  /-- POKER_DEAUTH (R471). -/
  | pokerDeauth
  /-- POKER_AUTH_LOCKOUT_END (R471). -/
  | pokerAuthLockoutEnd
  /-- POKER_SANDBOX (R472). -/
  | pokerSandbox
  /-- POKER_SANDBOX_END (R466). -/
  | pokerSandboxEnd
  /-- MAILBOX_DOORBELL (R487). -/
  | mailboxDoorbell (m : Fin 16) (b : Block) (tag : W32)
  /-- MAILBOX_BLOCK_DONE (R487). -/
  | mailboxBlockDone (m : Fin 16)
  /-- MAILBOX_REPLY (R487). -/
  | mailboxReply (m : Fin 16) (data : List Byte)
  /-- MAILBOX_ACK (R487). -/
  | mailboxAck (m : Fin 16)
  /-- PCI_SW_INT (R485). -/
  | pciSwInt (r : Requester) (v : W32)
  /-- PCI_SW_CLEAR (R485). -/
  | pciSwClear (r : Requester) (v : W32)
  /-- PCIE_DL_ACTIVE (R502). -/
  | pcieDlActive (speed width : BitVec 3)
  /-- PCIE_LINK_DOWN (R506). -/
  | pcieLinkDown
  /-- IDENT (R491). -/
  | ident (tag : Byte)
  /-- REG_READ (R491). -/
  | regRead (tag : Byte) (page off : Nat)
  /-- REG_WRITE (R491). -/
  | regWrite (tag : Byte) (page off : Nat) (v : W32)
  /-- IMAGE_READ (R491). -/
  | imageRead (tag : Byte) (off count : Nat)
  /-- IMAGE_WRITE (R491). -/
  | imageWrite (tag : Byte) (off : Nat) (slots : List (BitVec 64))
  /-- UART_BLOCK (R491). -/
  | uartBlock (tag : Byte) (b : Block)
  /-- LOG_READ (R491). -/
  | logRead (tag : Byte) (off len : Nat)
  /-- OWNER_WRITE (R481). -/
  | ownerWrite (r : Requester) (page : Nat) (v : W32)
  /-- SEC_LS_SPLIT_WRITE (R493). -/
  | secLsSplitWrite (r : Requester) (v : W32)
  /-- SEC_DRAM_RANGE_WRITE (R494). -/
  | secDramRangeWrite (r : Requester) (limit : Bool) (v : W32)
  /-- TEN_ROM_EXIT (R496). -/
  | tenRomExit (r : Requester) (v : W32)
  /-- PROGRAM_OEM_SLOT (R500). -/
  | programOemSlot (r : Requester) (arg : BitVec 7)
  /-- REVOKE_OEM_SLOT (R500). -/
  | revokeOemSlot (r : Requester) (arg : BitVec 7)
  /-- BLOW_OEM_COSIGN (R500). -/
  | blowOemCosign (r : Requester)
  /-- SET_DEBUG_KEY (R500). -/
  | setDebugKey (r : Requester) (arg : BitVec 7)
  /-- ADVANCE_ANTI_ROLLBACK (R500). -/
  | advanceAntiRollback (r : Requester) (arg target : BitVec 7)
  /-- FUSE_DONE (R500). -/
  | fuseDone (programmed : Bool)
  /-- RLN_BEGIN (R511). -/
  | rlnBegin (r : Requester)
  /-- RLN_FINALIZE (R513). -/
  | rlnFinalize (r : Requester)
  /-- RLN_CHECK_DONE (R513). -/
  | rlnCheckDone
  /-- RLN_ACTIVATE (R514). -/
  | rlnActivate (r : Requester)
  /-- RLN_ABORT (R511). -/
  | rlnAbort (r : Requester)
  /-- RLN_SLOT_WRITTEN (R514). -/
  | rlnSlotWritten (match_ : Bool)
  /-- COMPONENT_STARTED (R514). -/
  | componentStarted (comp : Fin 7)
  /-- COMPONENT_START_TIMEOUT (R514). -/
  | componentStartTimeout (comp : Fin 7)
  /-- ILLEGAL_OPCODE (R71). -/
  | illegalOpcode (c : CoreId) (w : W36)
  /-- GRANULE_COPY_REQUEST (R132). -/
  | granuleCopyRequest (granule : Nat)
  /-- ERAIR_CELL_CRC_ERROR (R330). -/
  | erairCellCrcError (c : LaneCell)
  /-- HOB_BUS_ERROR (R297). -/
  | hobBusError (p : Fin 192) (inc : Nat)
  /-- PTP_EVENT_MESSAGE (R379). -/
  | ptpEventMessage (x : Fin 40) (message : PtpMessage)
  /-- ETH_FRAME_DISCARD (R250). -/
  | ethFrameDiscard (x : Fin 40) (why : EthDiscard)
  /-- HOST_ACCESS_DISCARD (R482). -/
  | hostAccessDiscard (write : Bool) (page off size : Nat)
  /-- PERST_FALL (R525). -/
  | perstFall
  /-- LEGACY_TLS_HANDSHAKE (R278). -/
  | legacyTlsHandshake (station : Nat) (tls13 : Bool) (outcome : TlsOutcome)
  /-- LEGACY_CONNECTION_LOST (R278). -/
  | legacyConnectionLost (station : Nat)
  /-- LEGACY_T0_TIMEOUT (R280). -/
  | legacyT0Timeout (station : Nat)
  /-- LEGACY_T2_TIMEOUT (R280). -/
  | legacyT2Timeout (station : Nat)
  deriving DecidableEq, Repr

end Sys2Proof
end

