-- ==== Sys2Proof/Machine/Bytes.lean ====
section
/-! DEFINITION. Byte orders, packing and checks: big-endian fields (R399), words packed in pairs (R259), 8-byte slots
(R135), CRC-32C. -/

namespace Sys2Proof.Machine

/-- `n` bytes of `v`, most significant first (R399). -/
def beBytes (n v : Nat) : List Byte :=
  match n with
  | 0 => []
  | k + 1 => BitVec.ofNat 8 (v / 256 ^ k) :: beBytes k v

/-- The number that bytes spell, most significant first. -/
def beNat (bs : List Byte) : Nat := bs.foldl (fun a b => a * 256 + b.toNat) 0

/-- `n` bytes of `v`, least significant first. -/
def leBytes (n v : Nat) : List Byte :=
  match n with
  | 0 => []
  | k + 1 => BitVec.ofNat 8 v :: leBytes k (v / 256)

/-- The number that bytes spell, least significant first. -/
def leNat (bs : List Byte) : Nat := bs.foldr (fun b a => b.toNat + 256 * a) 0

/-- Bytes `lo` to `lo + n - 1` of a byte string as a big-endian number; bytes past the end count as zero. -/
def field (bs : List Byte) (lo n : Nat) : Nat :=
  beNat ((List.range n).map fun i => bs.getD (lo + i) 0)

/-- One step of the reflected CRC-32C division (polynomial 0x1EDC6F41; PRESUMED, log 12). -/
def crcBit (c : Nat) : Nat := if c % 2 = 1 then (c / 2) ^^^ 0x82F63B78 else c / 2

/-- CRC-32C after one more byte. -/
def crcByte (c : Nat) (b : Byte) : Nat :=
  (List.range 8).foldl (fun x _ => crcBit x) (c ^^^ b.toNat)

/-- CRC-32C over bytes (PRESUMED, log 12). -/
def crc32c (bs : List Byte) : Nat := (bs.foldl crcByte 0xFFFFFFFF) ^^^ 0xFFFFFFFF

/-- Words packed in pairs into 9 bytes, first word high; an odd last word is paired with zeros (R259). -/
def packWords (ws : List W36) : List Byte :=
  match ws with
  | [] => []
  | [a] => beBytes 9 (a.toNat * 2 ^ 36)
  | a :: b :: rest => beBytes 9 (a.toNat * 2 ^ 36 + b.toNat) ++ packWords rest

/-- The first `n` words packed in the bytes (R259). -/
def unpackWords (bs : List Byte) (n : Nat) : List W36 :=
  (List.range n).map fun i =>
    let pair := field bs (9 * (i / 2)) 9
    BitVec.ofNat 36 (if i % 2 = 0 then pair / 2 ^ 36 else pair)

/-- A word as its 8-byte little-endian slot (R135). -/
def slotBytes (w : W36) : List Byte := leBytes 8 w.toNat

/-- The words of 8-byte little-endian slots, and whether bits [63:36] are zero in every slot (R135, R222). -/
def slotWords (bs : List Byte) : List W36 × Bool :=
  let n := bs.length / 8
  let raw := (List.range n).map fun i => leNat ((bs.drop (8 * i)).take 8)
  (raw.map (BitVec.ofNat 36), raw.all fun v => decide (v < 2 ^ 36))

/-- Bytes as words of 4 bytes, byte a in bits [8(a mod 4) + 7 : 8(a mod 4)], bits [35:32] zero (R403). -/
def quadWords (bs : List Byte) : List W36 :=
  (List.range ((bs.length + 3) / 4)).map fun i => BitVec.ofNat 36 (leNat ((bs.drop (4 * i)).take 4))

/-- The bytes of words of 4 bytes (R403). -/
def quadBytes (ws : List W36) : List Byte := ws.flatMap fun w => leBytes 4 (w.toNat % 2 ^ 32)

/-- Bit `i` of a number. -/
def bitOf (v i : Nat) : Bool := v.testBit i

/-- Bits [lo + n - 1 : lo] of a number. -/
def bitsOf (v lo n : Nat) : Nat := v / 2 ^ lo % 2 ^ n

/-- A number with bit `i` set or cleared. -/
def withBit (v i : Nat) (b : Bool) : Nat :=
  if b then (if v.testBit i then v else v + 2 ^ i) else (if v.testBit i then v - 2 ^ i else v)

/-- 1 for true, 0 for false. -/
def bit01 (b : Bool) : Nat := if b then 1 else 0

/-- An Int's two's complement in `n` bits. -/
def twos (n : Nat) (v : Int) : Nat := (v % (2 ^ n : Nat)).toNat

/-- The Int that an `n`-bit two's complement number spells. -/
def signed (n : Nat) (v : Nat) : Int :=
  if v % 2 ^ n < 2 ^ (n - 1) then (v % 2 ^ n : Nat) else ((v % 2 ^ n : Nat) : Int) - (2 ^ n : Nat)

/-- Serial-number order modulo 2^n: `a` is newer than `b` (R256, R348). -/
def newer (n a b : Nat) : Bool :=
  let d := (a % 2 ^ n + 2 ^ n - b % 2 ^ n) % 2 ^ n
  decide (1 ≤ d) && decide (d < 2 ^ (n - 1))

/-- A counter of `n` bits that saturates. -/
def satInc (n v : Nat) : Nat := if v + 1 < 2 ^ n then v + 1 else 2 ^ n - 1

end Sys2Proof.Machine
end

