-- ==== Sys2Proof/Machine/Quality.lean ====
section
/-! DEFINITION. Words with their quality, and what each instruction computes on values (R50-R55, R142-R153, R171, R175). -/

namespace Sys2Proof.Machine

/-- val(x): bits [31:0] of a word. -/
def val (x : W36) : Nat := x.toNat % 2 ^ 32

/-- q(x): bits [35:32] of a word. -/
def qOf (x : W36) : Nat := x.toNat / 2 ^ 32

/-- qw(v, q): the word with value `v` and quality `q`. -/
def qw (v q : Nat) : W36 := BitVec.ofNat 36 (q % 16 * 2 ^ 32 + v % 2 ^ 32)

/-- The quality of a literal and of w0 (R51). -/
def qLit : Nat := 8

/-- A literal as a quality word (R51). -/
def litQ (v : Nat) : W36 := qw v qLit

/-- V of a quality. -/
def qV (q : Nat) : Bool := q.testBit 3

/-- merge of R51 over two qualities: V ANDed, S, F and A each ORed. -/
def mergeQ (p q : Nat) : Nat := (p % 8 ||| q % 8) + (if qV p && qV q then 8 else 0)

/-- merge of R51 over the words that are read as data. -/
def mergeWs (ws : List W36) : Nat := (ws.map qOf).foldl mergeQ 8

/-- A quality with V cleared (R53). -/
def qBad (q : Nat) : Nat := q % 8

/-- imm18 sign-extended, as 32 value bits with Q = 0b1000 (R68). -/
def immQ (i : BitVec 18) : W36 := litQ (twos 32 (signed 18 i.toNat))

/-- imm18 sign-extended to 36 bits (R68). -/
def immP (i : BitVec 18) : W36 := BitVec.ofNat 36 (twos 36 (signed 18 i.toNat))

/-- s(v): the value as a signed number. -/
def sval (x : W36) : Int := signed 32 (val x)

/-- The result of an instruction on values: its value, and whether V is cleared (R53). -/
structure Computed where
  value : Nat
  bad : Bool
  deriving DecidableEq, Repr

/-- A result without an exceptional case. -/
def good (v : Nat) : Computed := ⟨v, false⟩

/-- A result with V cleared. -/
def bad (v : Nat) : Computed := ⟨v, true⟩

/-- The word of a result computed from the words in `ws` (R51, R53). -/
def Computed.word (r : Computed) (ws : List W36) : W36 :=
  qw r.value (if r.bad then qBad (mergeWs ws) else mergeWs ws)

/-- A truth value as a number (R54). -/
def truth (b : Bool) : Computed := good (bit01 b)

/-- A signed result clamped to 32 bits (R151). -/
def clamp (v : Int) : Computed :=
  if v < -(2 ^ 31 : Int) then bad 0x80000000 else if (2 ^ 31 : Int) ≤ v then bad 0x7FFFFFFF else good (twos 32 v)

/-- Bitwise operations and sums on values (R147). -/
def vAdd (a b : W36) : Computed := good (val a + val b)
/-- SUB (R147). -/
def vSub (a b : W36) : Computed := good (val a + 2 ^ 32 - val b)
/-- ADDS (R147, R151). -/
def vAdds (a b : W36) : Computed := clamp (sval a + sval b)
/-- SUBS (R147, R151). -/
def vSubs (a b : W36) : Computed := clamp (sval a - sval b)
/-- MUL (R147). -/
def vMul (a b : W36) : Computed := good (val a * val b)
/-- MULH: the high half of the signed product (R147). -/
def vMulh (a b : W36) : Computed := good (twos 64 (sval a * sval b) / 2 ^ 32)
/-- MULHU: the high half of the unsigned product (R147). -/
def vMulhu (a b : W36) : Computed := good (val a * val b / 2 ^ 32)
/-- DIV (R147, R175). -/
def vDiv (a b : W36) : Computed :=
  if val b = 0 then bad (if sval a < 0 then 0x80000000 else 0x7FFFFFFF)
  else if val a = 0x80000000 ∧ val b = 0xFFFFFFFF then bad 0x7FFFFFFF
  else good (twos 32 (Int.tdiv (sval a) (sval b)))
/-- DIVU (R147, R175). -/
def vDivu (a b : W36) : Computed := if val b = 0 then bad 0xFFFFFFFF else good (val a / val b)
/-- REM (R147, R175). -/
def vRem (a b : W36) : Computed :=
  if val b = 0 then bad (val a)
  else if val a = 0x80000000 ∧ val b = 0xFFFFFFFF then good 0
  else good (twos 32 (Int.tmod (sval a) (sval b)))
/-- REMU (R147, R175). -/
def vRemu (a b : W36) : Computed := if val b = 0 then bad (val a) else good (val a % val b)
/-- AND (R147). -/
def vAnd (a b : W36) : Computed := good (val a &&& val b)
/-- OR (R147). -/
def vOr (a b : W36) : Computed := good (val a ||| val b)
/-- XOR (R147). -/
def vXor (a b : W36) : Computed := good (val a ^^^ val b)
/-- SHL (R147): the amount is val(b)[4:0]. -/
def vShl (a b : W36) : Computed := good (val a * 2 ^ (val b % 32))
/-- SHR (R147). -/
def vShr (a b : W36) : Computed := good (val a / 2 ^ (val b % 32))
/-- SAR (R147). -/
def vSar (a b : W36) : Computed := good (twos 32 (sval a / (2 ^ (val b % 32) : Nat)))
/-- MIN (R147). -/
def vMin (a b : W36) : Computed := good (if sval a ≤ sval b then val a else val b)
/-- MAX (R147). -/
def vMax (a b : W36) : Computed := good (if sval a ≤ sval b then val b else val a)

/-- The compares of R153. -/
def vCeq (a b : W36) : Computed := truth (decide (val a = val b))
/-- CNE (R153). -/
def vCne (a b : W36) : Computed := truth (decide (val a ≠ val b))
/-- CLT (R153). -/
def vClt (a b : W36) : Computed := truth (decide (sval a < sval b))
/-- CLE (R153). -/
def vCle (a b : W36) : Computed := truth (decide (sval a ≤ sval b))
/-- CLTU (R153). -/
def vCltu (a b : W36) : Computed := truth (decide (val a < val b))
/-- CLEU (R153). -/
def vCleu (a b : W36) : Computed := truth (decide (val a ≤ val b))
/-- CGTI (R153). -/
def vCgt (a b : W36) : Computed := truth (decide (sval b < sval a))

/-- P(r): the 64-bit number of a register pair (R150). -/
def pairVal (lo hi : W36) : Nat := val hi * 2 ^ 32 + val lo

/-- The value of `x` with point `i` set to whether `v` is not zero (R160). -/
def withPoint (x i v : Nat) : Nat := withBit (x % 2 ^ 32) i (decide (v ≠ 0))

/-- The number of 1 bits of a value (R159). -/
def popCount (v : Nat) : Nat := ((List.range 32).filter fun i => v.testBit i).length

/-- The index of the lowest 1 bit of a value; 32 if none (R159). -/
def firstSet (v : Nat) : Nat := ((List.range 32).find? fun i => v.testBit i).getD 32

end Sys2Proof.Machine
end

