-- ==== Sys2Proof/Config.lean ====
section
/-! DEFINITION. What an implementation fixes and what the spec leaves open. The opaque constants have no body: no proof
can see a value of theirs, so a statement about them holds for every value (notes/assumptions/2.md). -/

namespace Sys2Proof.Config

/-- A free value: the n-th value drawn where the spec states none (log 2). -/
opaque freeNat : Nat → Nat

/-- A free bit (log 2). -/
opaque freeBool : Nat → Bool

/-- Word `a` of the Tender's mask ROM (R496), whose contents the spec does not give (log 2). -/
opaque romWord : Nat → W36

/-- The word of a header flit, of its destination, source, channel, kind and length (R18): the spec gives no layout (log 47). -/
opaque headerWord : Nat → Nat → Nat → Nat → Nat → W36

/-- The control tag of a flit, of its place in its packet (R18): the spec gives no values (log 47). -/
opaque flitTag : Nat → BitVec 4

/-- The MAC address that the fuses give Ethernet port `x` (R287), which the spec does not give (log 4). -/
opaque macAddress : Nat → BitVec 48

/-- The hash of the vendor public key held in the boot ROM (R498), which the spec does not give (log 11). -/
opaque vendorKeyHash : List W32

/-- The 4 bytes at a byte offset of the header of the image that a component was delivered with, which the spec does not give
(free, log 40). -/
opaque deliveredField : Nat → Nat → W32

/-- The device identity public key derived from the PUF (R497), word i (log 4). -/
opaque devicePub : Nat → W32

/-- The first 64 bits that identify the device to a debug key (R471), as bytes (log 11). -/
opaque deviceId : List Byte

/-- The PCIe Vendor ID in the fuses (R477, R506), which the spec does not give (log 4). -/
opaque pciVendor : BitVec 16

/-- The PCIe Subsystem ID and Subsystem Vendor ID in the fuses (R477), which the spec does not give (log 4). -/
opaque pciSubsystem : BitVec 32

/-- The clock tick of Turnspit in nanoseconds (R384). -/
def tickNs : Nat := 2

/-- The stepping code of this edition, A0 (R2, R500). -/
def stepping : Nat := 0x00

end Sys2Proof.Config
end

