-- ==== Sys2Proof/Machine/RegMap.lean ====
section
/-! DEFINITION. The register map: every field of the register tables of the spec (R40-R42, R138, R219, R220, R246,
R286-R288, R324, R325, R366, R367, R385, R396, R423, R424, R451, R452, R474-R476, R504-R506, R520) and of the common
layout (R9, R480, R481), with its page, host byte offset, lowest bit, width and reset value. -/

namespace Sys2Proof.Machine

/-- A register field: page index, host byte offset, lowest bit, width, reset value. -/
structure Fld where
  page : Nat
  off : Nat
  lo : Nat
  width : Nat
  reset : Nat
  deriving DecidableEq, Repr

/-- The field types of R10. -/
inductive FieldType where
  | ro
  | rw
  | w1c
  | wo
  | rwl
  | srw
  | sw
  deriving DecidableEq, Repr

/-- A field with its type. -/
structure RegField where
  fld : Fld
  ty : FieldType
  deriving DecidableEq, Repr

/-- Where a field's value lies in the register file: one key per field. -/
def Fld.key (f : Fld) : Nat := (f.page * 0x1000 + f.off) * 32 + f.lo

namespace Reg

/-- FBX_Knn_EVENT.CREDIT_LEDGER (R40). -/
def fbxKEventCreditLedger (n : Nat) : Fld := ⟨0x020 + n, 0x010, 0, 1, 0⟩

/-- FBX_Knn_EVENT.RESPONSE_LEDGER (R40). -/
def fbxKEventResponseLedger (n : Nat) : Fld := ⟨0x020 + n, 0x010, 1, 1, 0⟩

/-- FBX_Knn_EVENT.ENGINE_FAILED (R40). -/
def fbxKEventEngineFailed (n : Nat) : Fld := ⟨0x020 + n, 0x010, 2, 1, 0⟩

/-- FBX_Knn_EVENT.SPARE_TAKEN (R40). -/
def fbxKEventSpareTaken (n : Nat) : Fld := ⟨0x020 + n, 0x010, 3, 1, 0⟩

/-- FBX_Knn_EVENT_ENABLE.ENABLES (R40). -/
def fbxKEventEnableEnables (n : Nat) : Fld := ⟨0x020 + n, 0x014, 0, 4, 0⟩

/-- FBX_Knn_ENGINE_STATE.ENGINE_STATE (R40). -/
def fbxKEngineStateEngineState (n : Nat) : Fld := ⟨0x020 + n, 0x020, 0, 27, 0⟩

/-- FBX_Knn_SPARE_POLICY.AUTO (R40). -/
def fbxKSparePolicyAuto (n : Nat) : Fld := ⟨0x020 + n, 0x024, 0, 1, 1⟩

/-- FBX_Knn_MAPOUT.MAPOUT (R40). -/
def fbxKMapoutMapout (n : Nat) : Fld := ⟨0x020 + n, 0x028, 0, 1, 0⟩

/-- FBX_Knn_CREDIT_LOG.RECLAIMED (R40). -/
def fbxKCreditLogReclaimed (n : Nat) : Fld := ⟨0x020 + n, 0x02C, 0, 16, 0⟩

/-- FBX_Ennn_ROLE.STATE (R41). -/
def fbxERoleState (n : Nat) : Fld := ⟨0x040 + n, 0x020, 0, 3, 0⟩

/-- FBX_Ennn_ROLE.FOLDED (R41). -/
def fbxERoleFolded (n : Nat) : Fld := ⟨0x040 + n, 0x020, 3, 1, 0⟩

/-- FBX_Ennn_ROLE.LOGICAL (R41). -/
def fbxERoleLogical (n : Nat) : Fld := ⟨0x040 + n, 0x020, 4, 7, 0⟩

/-- FBX_Ennn_ROLE.FOLD_LOGICAL (R41). -/
def fbxERoleFoldLogical (n : Nat) : Fld := ⟨0x040 + n, 0x020, 11, 7, 0⟩

/-- FBX_Ennn_ROLE.CLASSES (R41). -/
def fbxERoleClasses (n : Nat) : Fld := ⟨0x040 + n, 0x020, 18, 3, 0⟩

/-- FBX_Ennn_MAPOUT.MAPOUT (R41). -/
def fbxEMapoutMapout (n : Nat) : Fld := ⟨0x040 + n, 0x024, 0, 1, 0⟩

/-- FBX_Ennn_FOLD_MAP0.MAP (R41). -/
def fbxEFoldMapMap (n : Nat) (i : Nat) : Fld := ⟨0x040 + n, 0x028 + 4 * i, 0, 32, 0⟩

/-- DRM_ERROR_CAPTURE.GRANULE (R42). -/
def drmErrorCaptureGranule : Fld := ⟨0x130, 0x018, 0, 28, 0⟩

/-- DRM_ERROR_CAPTURE.CODE (R42). -/
def drmErrorCaptureCode : Fld := ⟨0x130, 0x018, 28, 4, 0⟩

/-- DRM_CONFIG.MIRROR (R42). -/
def drmConfigMirror : Fld := ⟨0x130, 0x020, 0, 1, 0⟩

/-- DRM_CONFIG.PRESENT (R42). -/
def drmConfigPresent : Fld := ⟨0x130, 0x020, 1, 2, 0⟩

/-- DRM_CONFIG.CAPACITY (R42). -/
def drmConfigCapacity : Fld := ⟨0x130, 0x020, 3, 5, 0⟩

/-- DRM_CH_STATE.CH_STATE (R42). -/
def drmChStateChState : Fld := ⟨0x130, 0x024, 0, 4, 0⟩

/-- DRM_MAPOUT.MAPOUT (R42). -/
def drmMapoutMapout : Fld := ⟨0x130, 0x028, 0, 2, 0⟩

/-- DRM_MAPOUT.RETURN (R42). -/
def drmMapoutReturn : Fld := ⟨0x130, 0x028, 2, 2, 0⟩

/-- HRT_CONTROL.HOST_SNAPSHOT (R138). -/
def hrtControlHostSnapshot : Fld := ⟨0x014, 0x008, 0, 1, 0⟩

/-- HRT_CONTROL.SCRUB (R138). -/
def hrtControlScrub : Fld := ⟨0x014, 0x008, 1, 1, 1⟩

/-- HRT_STATUS.SETTLING (R138). -/
def hrtStatusSettling : Fld := ⟨0x014, 0x00C, 0, 3, 0⟩

/-- HRT_STATUS.CAPTURE_BUSY (R138). -/
def hrtStatusCaptureBusy : Fld := ⟨0x014, 0x00C, 3, 1, 0⟩

/-- HRT_STATUS.CAPTURE_VALID (R138). -/
def hrtStatusCaptureValid : Fld := ⟨0x014, 0x00C, 4, 1, 0⟩

/-- HRT_EVENT.CORRECTED (R138). -/
def hrtEventCorrected : Fld := ⟨0x014, 0x010, 0, 1, 0⟩

/-- HRT_EVENT.UNCORRECTABLE (R138). -/
def hrtEventUncorrectable : Fld := ⟨0x014, 0x010, 1, 1, 0⟩

/-- HRT_EVENT.HOST_DISCARD (R138). -/
def hrtEventHostDiscard : Fld := ⟨0x014, 0x010, 2, 1, 0⟩

/-- HRT_EVENT.RING_OVERFLOW (R138). -/
def hrtEventRingOverflow : Fld := ⟨0x014, 0x010, 3, 1, 0⟩

/-- HRT_EVENT.CAPTURE_DONE (R138). -/
def hrtEventCaptureDone : Fld := ⟨0x014, 0x010, 4, 1, 0⟩

/-- HRT_EVENT_ENABLE.ENABLES (R138). -/
def hrtEventEnableEnables : Fld := ⟨0x014, 0x014, 0, 5, 0⟩

/-- HRT_ERROR_CAPTURE.OFFSET (R138). -/
def hrtErrorCaptureOffset : Fld := ⟨0x014, 0x018, 0, 25, 0⟩

/-- HRT_ERROR_CAPTURE.KIND (R138). -/
def hrtErrorCaptureKind : Fld := ⟨0x014, 0x018, 25, 2, 0⟩

/-- HRT_FORCE_BASE.FORCE_BASE (R138). -/
def hrtForceBaseForceBase : Fld := ⟨0x014, 0x020, 0, 12, 0⟩

/-- HRT_SUBST_BASE.SUBST_BASE (R138). -/
def hrtSubstBaseSubstBase : Fld := ⟨0x014, 0x024, 0, 12, 0⟩

/-- HRT_ECC_COUNT.CORRECTED_COUNT (R138). -/
def hrtEccCountCorrectedCount : Fld := ⟨0x014, 0x028, 0, 16, 0⟩

/-- HRT_ECC_COUNT.UNCORR_COUNT (R138). -/
def hrtEccCountUncorrCount : Fld := ⟨0x014, 0x028, 16, 16, 0⟩

/-- HRT_INJECT.DEPTH (R138). -/
def hrtInjectDepth : Fld := ⟨0x014, 0x02C, 0, 13, 0⟩

/-- HRT_RETAIN.GRANULES (R138). -/
def hrtRetainGranules : Fld := ⟨0x014, 0x030, 0, 12, 0⟩

/-- HRT_RETAIN.RANGES (R138). -/
def hrtRetainRanges : Fld := ⟨0x014, 0x030, 12, 5, 0⟩

/-- HRT_RETAIN_CAPTURE.START (R138). -/
def hrtRetainCaptureStart : Fld := ⟨0x014, 0x034, 0, 1, 0⟩

/-- HRT_CL0_FLIP.PARITY (R138). -/
def hrtClFlipParity (i : Nat) : Fld := ⟨0x014, 0x038 + 4 * i, 0, 1, 0⟩

/-- HRT_CL0_FLIP.SETTLED (R138). -/
def hrtClFlipSettled (i : Nat) : Fld := ⟨0x014, 0x038 + 4 * i, 1, 1, 1⟩

/-- HRT_SCRUB_POS.POSITION (R138). -/
def hrtScrubPosPosition : Fld := ⟨0x014, 0x044, 0, 25, 0⟩

/-- BLW_CLn_CONTROL.LOCK (R219). -/
def blwClControlLock (n : Nat) : Fld := ⟨0x010 + n, 0x008, 0, 1, 0⟩

/-- BLW_CLn_CONTROL.STOKE_NEXT (R219). -/
def blwClControlStokeNext (n : Nat) : Fld := ⟨0x010 + n, 0x008, 1, 1, 0⟩

/-- BLW_CLn_CONTROL.RUN_ALL (R219). -/
def blwClControlRunAll (n : Nat) : Fld := ⟨0x010 + n, 0x008, 2, 1, 0⟩

/-- BLW_CLn_CONTROL.RESUME (R219). -/
def blwClControlResume (n : Nat) : Fld := ⟨0x010 + n, 0x008, 3, 1, 0⟩

/-- BLW_CLn_STATUS.STATE (R219). -/
def blwClStatusState (n : Nat) : Fld := ⟨0x010 + n, 0x00C, 0, 2, 0⟩

/-- BLW_CLn_STATUS.PHASE (R219). -/
def blwClStatusPhase (n : Nat) : Fld := ⟨0x010 + n, 0x00C, 2, 3, 0⟩

/-- BLW_CLn_STATUS.TIER (R219). -/
def blwClStatusTier (n : Nat) : Fld := ⟨0x010 + n, 0x00C, 5, 8, 0⟩

/-- BLW_CLn_STATUS.FULL (R219). -/
def blwClStatusFull (n : Nat) : Fld := ⟨0x010 + n, 0x00C, 13, 1, 0⟩

/-- BLW_CLn_STATUS.LOCKED (R219). -/
def blwClStatusLocked (n : Nat) : Fld := ⟨0x010 + n, 0x00C, 14, 1, 0⟩

/-- BLW_CLn_STATUS.RUN_OVERRUNS (R219). -/
def blwClStatusRunOverruns (n : Nat) : Fld := ⟨0x010 + n, 0x00C, 15, 4, 0⟩

/-- BLW_CLn_STATUS.ERRTASK_OFF (R219). -/
def blwClStatusErrtaskOff (n : Nat) : Fld := ⟨0x010 + n, 0x00C, 19, 1, 0⟩

/-- BLW_CLn_EVENT.OVERRUN (R219). -/
def blwClEventOverrun (n : Nat) : Fld := ⟨0x010 + n, 0x010, 0, 1, 0⟩

/-- BLW_CLn_EVENT.STALL (R219). -/
def blwClEventStall (n : Nat) : Fld := ⟨0x010 + n, 0x010, 1, 1, 0⟩

/-- BLW_CLn_EVENT.BLOCK_FAULT (R219). -/
def blwClEventBlockFault (n : Nat) : Fld := ⟨0x010 + n, 0x010, 2, 1, 0⟩

/-- BLW_CLn_EVENT.AUDIT_FAULT (R219). -/
def blwClEventAuditFault (n : Nat) : Fld := ⟨0x010 + n, 0x010, 3, 1, 0⟩

/-- BLW_CLn_EVENT.TIME_STEP (R219). -/
def blwClEventTimeStep (n : Nat) : Fld := ⟨0x010 + n, 0x010, 4, 1, 0⟩

/-- BLW_CLn_EVENT.ERRTASK_OFF (R219). -/
def blwClEventErrtaskOff (n : Nat) : Fld := ⟨0x010 + n, 0x010, 5, 1, 0⟩

/-- BLW_CLn_EVENT.ERR_LIST_LOST (R219). -/
def blwClEventErrListLost (n : Nat) : Fld := ⟨0x010 + n, 0x010, 6, 1, 0⟩

/-- BLW_CLn_EVENT_ENABLE.ENABLES (R219). -/
def blwClEventEnableEnables (n : Nat) : Fld := ⟨0x010 + n, 0x014, 0, 7, 0⟩

/-- BLW_CLn_ERROR_CAPTURE.BLOCK (R219). -/
def blwClErrorCaptureBlock (n : Nat) : Fld := ⟨0x010 + n, 0x018, 0, 20, 0⟩

/-- BLW_CLn_ERROR_CAPTURE.CAUSE (R219). -/
def blwClErrorCaptureCause (n : Nat) : Fld := ⟨0x010 + n, 0x018, 20, 8, 0⟩

/-- BLW_CLn_PERIOD.PERIOD (R219). -/
def blwClPeriodPeriod (n : Nat) : Fld := ⟨0x010 + n, 0x020, 0, 26, 0⟩

/-- BLW_CLn_PHASE_OFFSET.PHASE_OFFSET (R219). -/
def blwClPhaseOffsetPhaseOffset (n : Nat) : Fld := ⟨0x010 + n, 0x024, 0, 26, 0⟩

/-- BLW_CLn_STOKE_N.STOKE_N (R219). -/
def blwClStokeNStokeN (n : Nat) : Fld := ⟨0x010 + n, 0x028, 0, 8, 16⟩

/-- BLW_CLn_CYCLE_LO.CYCLE_LO (R219). -/
def blwClCycleLoCycleLo (n : Nat) : Fld := ⟨0x010 + n, 0x02C, 0, 32, 0⟩

/-- BLW_CLn_CYCLE_HI.CYCLE_HI (R219). -/
def blwClCycleHiCycleHi (n : Nat) : Fld := ⟨0x010 + n, 0x030, 0, 32, 0⟩

/-- BLW_CLn_BOUND_LO.BOUND_LO (R219). -/
def blwClBoundLoBoundLo (n : Nat) : Fld := ⟨0x010 + n, 0x034, 0, 32, 0⟩

/-- BLW_CLn_BOUND_HI.BOUND_HI (R219). -/
def blwClBoundHiBoundHi (n : Nat) : Fld := ⟨0x010 + n, 0x038, 0, 32, 0⟩

/-- BLW_CLn_OVERRUNS.OVERRUNS (R219). -/
def blwClOverrunsOverruns (n : Nat) : Fld := ⟨0x010 + n, 0x03C, 0, 32, 0⟩

/-- BLW_CLn_STATS_RUN.RUN (R219). -/
def blwClStatsRunRun (n : Nat) : Fld := ⟨0x010 + n, 0x040, 0, 32, 0⟩

/-- BLW_CLn_STATS_SKIP.SKIP (R219). -/
def blwClStatsSkipSkip (n : Nat) : Fld := ⟨0x010 + n, 0x044, 0, 32, 0⟩

/-- BLW_CLn_STATS_AUDIT.AUDIT (R219). -/
def blwClStatsAuditAudit (n : Nat) : Fld := ⟨0x010 + n, 0x048, 0, 32, 0⟩

/-- BLW_CLn_SOLVE_TIME.SOLVE_US (R219). -/
def blwClSolveTimeSolveUs (n : Nat) : Fld := ⟨0x010 + n, 0x04C, 0, 32, 0⟩

/-- BLW_CLn_SOLVE_MAX.SOLVE_MAX (R219). -/
def blwClSolveMaxSolveMax (n : Nat) : Fld := ⟨0x010 + n, 0x050, 0, 32, 0⟩

/-- BLW_CLn_FINISH_TIME.FINISH_US (R219). -/
def blwClFinishTimeFinishUs (n : Nat) : Fld := ⟨0x010 + n, 0x054, 0, 32, 0⟩

/-- BLW_CLn_TASK_ENGINE.TASK_ENGINE (R219). -/
def blwClTaskEngineTaskEngine (n : Nat) : Fld := ⟨0x010 + n, 0x058, 0, 7, 0⟩

/-- BLW_CLn_AUDIT_FAULTS.AUDIT_FAULTS (R219). -/
def blwClAuditFaultsAuditFaults (n : Nat) : Fld := ⟨0x010 + n, 0x05C, 0, 16, 0⟩

/-- BLW_CLn_ERR_REASON.STATION (R219). -/
def blwClErrReasonStation (n : Nat) : Fld := ⟨0x010 + n, 0x060, 0, 1, 0⟩

/-- BLW_CLn_ERR_REASON.BLOCK_FAULT (R219). -/
def blwClErrReasonBlockFault (n : Nat) : Fld := ⟨0x010 + n, 0x060, 1, 1, 0⟩

/-- BLW_CLn_ERR_REASON.ENGINE_FAIL (R219). -/
def blwClErrReasonEngineFail (n : Nat) : Fld := ⟨0x010 + n, 0x060, 2, 1, 0⟩

/-- BLW_CLn_ERR_REASON.STALL (R219). -/
def blwClErrReasonStall (n : Nat) : Fld := ⟨0x010 + n, 0x060, 3, 1, 0⟩

/-- BLW_CLn_ERR_REASON.LIST_LOST (R219). -/
def blwClErrReasonListLost (n : Nat) : Fld := ⟨0x010 + n, 0x060, 4, 1, 0⟩

/-- BLW_CLn_ERR_COUNT.COUNT (R219). -/
def blwClErrCountCount (n : Nat) : Fld := ⟨0x010 + n, 0x064, 0, 5, 0⟩

/-- BLW_CLn_START_KIND.KIND (R219). -/
def blwClStartKindKind (n : Nat) : Fld := ⟨0x010 + n, 0x068, 0, 2, 0⟩

/-- BLW_CLn_ERR_Ann.BLOCK (R219). -/
def blwClErrABlock (n : Nat) (i : Nat) : Fld := ⟨0x010 + n, 0x080 + 8 * i, 0, 20, 0⟩

/-- BLW_CLn_ERR_Ann.CAUSE (R219). -/
def blwClErrACause (n : Nat) (i : Nat) : Fld := ⟨0x010 + n, 0x080 + 8 * i, 20, 8, 0⟩

/-- BLW_CLn_ERR_Bnn.INSTANCE (R219). -/
def blwClErrBInstance (n : Nat) (i : Nat) : Fld := ⟨0x010 + n, 0x084 + 8 * i, 0, 20, 0⟩

/-- BLW_CLn_ERR_Bnn.NOINST (R219). -/
def blwClErrBNoinst (n : Nat) (i : Nat) : Fld := ⟨0x010 + n, 0x084 + 8 * i, 20, 1, 0⟩

/-- BLW_CLn_ERR_Bnn.LOGICAL (R219). -/
def blwClErrBLogical (n : Nat) (i : Nat) : Fld := ⟨0x010 + n, 0x084 + 8 * i, 21, 7, 0⟩

/-- BLW_CONTROL.AUDIT_EN (R220). -/
def blwControlAuditEn : Fld := ⟨0x013, 0x008, 0, 1, 1⟩

/-- BLW_STATUS.LOADED (R220). -/
def blwStatusLoaded : Fld := ⟨0x013, 0x00C, 0, 1, 0⟩

/-- BLW_STATUS.SHORTFALL (R220). -/
def blwStatusShortfall : Fld := ⟨0x013, 0x00C, 1, 1, 0⟩

/-- BLW_STATUS.BLAZE_ENGINES (R220). -/
def blwStatusBlazeEngines : Fld := ⟨0x013, 0x00C, 2, 7, 0⟩

/-- BLW_STATUS.BLAZE_FOLDED (R220). -/
def blwStatusBlazeFolded : Fld := ⟨0x013, 0x00C, 9, 1, 0⟩

/-- BLW_EVENT.BLAZE_RESERVATION (R220). -/
def blwEventBlazeReservation : Fld := ⟨0x013, 0x010, 0, 1, 0⟩

/-- BLW_EVENT.SHORTFALL (R220). -/
def blwEventShortfall : Fld := ⟨0x013, 0x010, 1, 1, 0⟩

/-- BLW_EVENT.LEDGER (R220). -/
def blwEventLedger : Fld := ⟨0x013, 0x010, 2, 1, 0⟩

/-- BLW_EVENT.INST_TABLE_FULL (R220). -/
def blwEventInstTableFull : Fld := ⟨0x013, 0x010, 3, 1, 0⟩

/-- BLW_EVENT.FLUE_LEDGER (R220). -/
def blwEventFlueLedger : Fld := ⟨0x013, 0x010, 4, 1, 0⟩

/-- BLW_EVENT.ENGINE_LEDGER (R220). -/
def blwEventEngineLedger : Fld := ⟨0x013, 0x010, 5, 1, 0⟩

/-- BLW_EVENT_ENABLE.ENABLES (R220). -/
def blwEventEnableEnables : Fld := ⟨0x013, 0x014, 0, 6, 0⟩

/-- BLW_ERROR_CAPTURE.BLOCK (R220). -/
def blwErrorCaptureBlock : Fld := ⟨0x013, 0x018, 0, 20, 0⟩

/-- BLW_ERROR_CAPTURE.KIND (R220). -/
def blwErrorCaptureKind : Fld := ⟨0x013, 0x018, 20, 4, 0⟩

/-- BLW_BLOCK_CTL.BLOCK (R220). -/
def blwBlockCtlBlock : Fld := ⟨0x013, 0x020, 0, 20, 0⟩

/-- BLW_BLOCK_CTL.OP (R220). -/
def blwBlockCtlOp : Fld := ⟨0x013, 0x020, 20, 2, 0⟩

/-- BLW_BLOCK_QUERY.BLOCK (R220). -/
def blwBlockQueryBlock : Fld := ⟨0x013, 0x024, 0, 20, 0⟩

/-- BLW_BLOCK_STATE.STATE (R220). -/
def blwBlockStateState : Fld := ⟨0x013, 0x028, 0, 2, 3⟩

/-- BLW_BLOCK_STATE.DEMOTED (R220). -/
def blwBlockStateDemoted : Fld := ⟨0x013, 0x028, 2, 1, 0⟩

/-- BLW_BLOCK_STATE.FIRST_RUN (R220). -/
def blwBlockStateFirstRun : Fld := ⟨0x013, 0x028, 3, 1, 0⟩

/-- BLW_BLOCK_STATE.CLASS (R220). -/
def blwBlockStateClass : Fld := ⟨0x013, 0x028, 4, 2, 0⟩

/-- BLW_BLOCK_STATE.TIER (R220). -/
def blwBlockStateTier : Fld := ⟨0x013, 0x028, 6, 8, 0⟩

/-- BLW_BLOCK_STATE.LOGICAL (R220). -/
def blwBlockStateLogical : Fld := ⟨0x013, 0x028, 14, 7, 0⟩

/-- BLW_SHORTFALL.ENGINES (R220). -/
def blwShortfallEngines : Fld := ⟨0x013, 0x02C, 0, 1, 0⟩

/-- BLW_SHORTFALL.DRAM (R220). -/
def blwShortfallDram : Fld := ⟨0x013, 0x02C, 1, 1, 0⟩

/-- BLW_SHORTFALL.HOB (R220). -/
def blwShortfallHob : Fld := ⟨0x013, 0x02C, 2, 1, 0⟩

/-- BLW_SHORTFALL.CHIMNEY (R220). -/
def blwShortfallChimney : Fld := ⟨0x013, 0x02C, 3, 1, 0⟩

/-- BLW_SHORTFALL.GRATE (R220). -/
def blwShortfallGrate : Fld := ⟨0x013, 0x02C, 4, 1, 0⟩

/-- BLW_SHORTFALL.TURNSPIT (R220). -/
def blwShortfallTurnspit : Fld := ⟨0x013, 0x02C, 5, 1, 0⟩

/-- BLW_INST_DISABLED.INST_DISABLED (R220). -/
def blwInstDisabledInstDisabled : Fld := ⟨0x013, 0x030, 0, 7, 0⟩

/-- BLW_TOKEN_QUERY.CLASS (R220). -/
def blwTokenQueryClass : Fld := ⟨0x013, 0x034, 0, 2, 0⟩

/-- BLW_TOKEN_QUERY.TIER (R220). -/
def blwTokenQueryTier : Fld := ⟨0x013, 0x034, 2, 8, 0⟩

/-- BLW_TOKEN_LEDGER.ASSIGNED (R220). -/
def blwTokenLedgerAssigned : Fld := ⟨0x013, 0x038, 0, 8, 0⟩

/-- BLW_TOKEN_LEDGER.RETURNED (R220). -/
def blwTokenLedgerReturned : Fld := ⟨0x013, 0x038, 8, 8, 0⟩

/-- BLW_TOKEN_LEDGER.OPEN (R220). -/
def blwTokenLedgerOpen : Fld := ⟨0x013, 0x038, 16, 1, 0⟩

/-- EDT_CONTROL.REQUIRE_SIG (R246). -/
def edtControlRequireSig : Fld := ⟨0x015, 0x008, 0, 1, 0⟩

/-- EDT_STATUS.STATE (R246). -/
def edtStatusState : Fld := ⟨0x015, 0x00C, 0, 3, 0⟩

/-- EDT_STATUS.ROLLBACK_AVAIL (R246). -/
def edtStatusRollbackAvail : Fld := ⟨0x015, 0x00C, 3, 1, 0⟩

/-- EDT_STATUS.SWITCHED (R246). -/
def edtStatusSwitched : Fld := ⟨0x015, 0x00C, 4, 3, 0⟩

/-- EDT_STATUS.ROLLING_BACK (R246). -/
def edtStatusRollingBack : Fld := ⟨0x015, 0x00C, 7, 1, 0⟩

/-- EDT_EVENT.STAGED (R246). -/
def edtEventStaged : Fld := ⟨0x015, 0x010, 0, 1, 0⟩

/-- EDT_EVENT.REFUSED (R246). -/
def edtEventRefused : Fld := ⟨0x015, 0x010, 1, 1, 0⟩

/-- EDT_EVENT.SWITCHED (R246). -/
def edtEventSwitched : Fld := ⟨0x015, 0x010, 2, 1, 0⟩

/-- EDT_EVENT.ROLLED_BACK (R246). -/
def edtEventRolledBack : Fld := ⟨0x015, 0x010, 3, 1, 0⟩

/-- EDT_EVENT_ENABLE.ENABLES (R246). -/
def edtEventEnableEnables : Fld := ⟨0x015, 0x014, 0, 4, 0⟩

/-- EDT_ERROR_CAPTURE.REASON (R246). -/
def edtErrorCaptureReason : Fld := ⟨0x015, 0x018, 0, 8, 0⟩

/-- EDT_ERROR_CAPTURE.SECTION (R246). -/
def edtErrorCaptureSection : Fld := ⟨0x015, 0x018, 8, 8, 0⟩

/-- EDT_COMMAND.OP (R246). -/
def edtCommandOp : Fld := ⟨0x015, 0x020, 0, 4, 0⟩

/-- EDT_ACT_CLASS.CLASS (R246). -/
def edtActClassClass : Fld := ⟨0x015, 0x024, 0, 2, 0⟩

/-- EDT_ACT_CYCLE_LO.CYCLE_LO (R246). -/
def edtActCycleLoCycleLo : Fld := ⟨0x015, 0x028, 0, 32, 0⟩

/-- EDT_ACT_CYCLE_HI.CYCLE_HI (R246). -/
def edtActCycleHiCycleHi : Fld := ⟨0x015, 0x02C, 0, 32, 0⟩

/-- EDT_FAULT_OFFSET.OFFSET (R246). -/
def edtFaultOffsetOffset : Fld := ⟨0x015, 0x030, 0, 24, 0⟩

/-- EDT_ACTIVE_VERSION.VERSION (R246). -/
def edtActiveVersionVersion : Fld := ⟨0x015, 0x034, 0, 32, 0⟩

/-- EDT_ACTIVE_LAYOUT.HASH (R246). -/
def edtActiveLayoutHash : Fld := ⟨0x015, 0x038, 0, 32, 0⟩

/-- EDT_STAGED_VERSION.VERSION (R246). -/
def edtStagedVersionVersion : Fld := ⟨0x015, 0x03C, 0, 32, 0⟩

/-- EDT_ROLLBACK_VERSION.VERSION (R246). -/
def edtRollbackVersionVersion : Fld := ⟨0x015, 0x040, 0, 32, 0⟩

/-- EDT_SWITCH_CL0.CYCLE (R246). -/
def edtSwitchClCycle (i : Nat) : Fld := ⟨0x015, 0x044 + 4 * i, 0, 32, 0⟩

/-- EDT_PACKAGE_LEN.RECEIVED (R246). -/
def edtPackageLenReceived : Fld := ⟨0x015, 0x050, 0, 24, 0⟩

/-- EDT_STAGE_BASE.STAGE_BASE (R246). -/
def edtStageBaseStageBase : Fld := ⟨0x015, 0x054, 0, 12, 0⟩

/-- EDT_PROG_BASE.PROG_BASE (R246). -/
def edtProgBaseProgBase : Fld := ⟨0x015, 0x058, 0, 11, 0⟩

/-- CHM_CONTROL.ENABLE (R286). -/
def chmControlEnable : Fld := ⟨0x100, 0x008, 0, 1, 0⟩

/-- CHM_CONTROL.ACCEPT_BIND (R286). -/
def chmControlAcceptBind : Fld := ⟨0x100, 0x008, 1, 1, 1⟩

/-- CHM_CONTROL.REQUIRE_CERT (R286). -/
def chmControlRequireCert : Fld := ⟨0x100, 0x008, 2, 1, 0⟩

/-- CHM_STATUS.CORES_UP (R286). -/
def chmStatusCoresUp : Fld := ⟨0x100, 0x00C, 0, 8, 0⟩

/-- CHM_STATUS.DRAM_BUFFERS (R286). -/
def chmStatusDramBuffers : Fld := ⟨0x100, 0x00C, 8, 1, 0⟩

/-- CHM_EVENT.HANDSHAKE_FAIL (R286). -/
def chmEventHandshakeFail : Fld := ⟨0x100, 0x010, 0, 1, 0⟩

/-- CHM_EVENT.BIND_REFUSED (R286). -/
def chmEventBindRefused : Fld := ⟨0x100, 0x010, 1, 1, 0⟩

/-- CHM_EVENT.EVQ_FULL (R286). -/
def chmEventEvqFull : Fld := ⟨0x100, 0x010, 2, 1, 0⟩

/-- CHM_EVENT.SEG_ERROR (R286). -/
def chmEventSegError : Fld := ⟨0x100, 0x010, 3, 1, 0⟩

/-- CHM_EVENT.LEGACY_NEG (R286). -/
def chmEventLegacyNeg : Fld := ⟨0x100, 0x010, 4, 1, 0⟩

/-- CHM_EVENT.LEDGER (R286). -/
def chmEventLedger : Fld := ⟨0x100, 0x010, 5, 1, 0⟩

/-- CHM_EVENT_ENABLE.ENABLES (R286). -/
def chmEventEnableEnables : Fld := ⟨0x100, 0x014, 0, 6, 0⟩

/-- CHM_ERROR_CAPTURE.STATION (R286). -/
def chmErrorCaptureStation : Fld := ⟨0x100, 0x018, 0, 17, 0⟩

/-- CHM_ERROR_CAPTURE.CODE (R286). -/
def chmErrorCaptureCode : Fld := ⟨0x100, 0x018, 17, 6, 0⟩

/-- CHM_UDP_PORT.PORT (R286). -/
def chmUdpPortPort : Fld := ⟨0x100, 0x020, 0, 16, 47231⟩

/-- CHM_SESSIONS.SESSIONS (R286). -/
def chmSessionsSessions : Fld := ⟨0x100, 0x024, 0, 17, 0⟩

/-- CHM_BOUND.BOUND (R286). -/
def chmBoundBound : Fld := ⟨0x100, 0x028, 0, 17, 0⟩

/-- CHM_HANDSHAKE_RATE.RATE (R286). -/
def chmHandshakeRateRate : Fld := ⟨0x100, 0x02C, 0, 12, 2000⟩

/-- CHM_SESSION_IDLE.SECONDS (R286). -/
def chmSessionIdleSeconds : Fld := ⟨0x100, 0x030, 0, 16, 60⟩

/-- CHM_EVQ_BASE.EVQ_BASE (R286). -/
def chmEvqBaseEvqBase : Fld := ⟨0x100, 0x034, 0, 16, 0⟩

/-- CHM_EVQ_ENTRIES.LOG2 (R286). -/
def chmEvqEntriesLog2 : Fld := ⟨0x100, 0x038, 0, 5, 12⟩

/-- CHM_EVQ_HEAD.HEAD (R286). -/
def chmEvqHeadHead : Fld := ⟨0x100, 0x03C, 0, 32, 0⟩

/-- CHM_EVQ_TAIL.TAIL (R286). -/
def chmEvqTailTail : Fld := ⟨0x100, 0x040, 0, 32, 0⟩

/-- CHM_BUF_BASE.BUF_BASE (R286). -/
def chmBufBaseBufBase : Fld := ⟨0x100, 0x044, 0, 12, 0⟩

/-- CHM_STATE_BASE.STATE_BASE (R286). -/
def chmStateBaseStateBase : Fld := ⟨0x100, 0x048, 0, 20, 0⟩

/-- CHM_DROPPED.DROPPED (R286). -/
def chmDroppedDropped : Fld := ⟨0x100, 0x04C, 0, 17, 0⟩

/-- CHM_Xnn_CONTROL.MODE (R287). -/
def chmXControlMode (n : Nat) : Fld := ⟨0x101 + n, 0x008, 0, 2, 0⟩

/-- CHM_Xnn_CONTROL.JUMBO (R287). -/
def chmXControlJumbo (n : Nat) : Fld := ⟨0x101 + n, 0x008, 2, 1, 0⟩

/-- CHM_Xnn_CONTROL.STATIONS (R287). -/
def chmXControlStations (n : Nat) : Fld := ⟨0x101 + n, 0x008, 3, 1, 0⟩

/-- CHM_Xnn_CONTROL.HOST (R287). -/
def chmXControlHost (n : Nat) : Fld := ⟨0x101 + n, 0x008, 4, 1, 0⟩

/-- CHM_Xnn_CONTROL.WITNESS (R287). -/
def chmXControlWitness (n : Nat) : Fld := ⟨0x101 + n, 0x008, 5, 1, 0⟩

/-- CHM_Xnn_CONTROL.PTP (R287). -/
def chmXControlPtp (n : Nat) : Fld := ⟨0x101 + n, 0x008, 6, 1, 0⟩

/-- CHM_Xnn_STATUS.LINK (R287). -/
def chmXStatusLink (n : Nat) : Fld := ⟨0x101 + n, 0x00C, 0, 1, 0⟩

/-- CHM_Xnn_STATUS.SPEED (R287). -/
def chmXStatusSpeed (n : Nat) : Fld := ⟨0x101 + n, 0x00C, 1, 2, 0⟩

/-- CHM_Xnn_STATUS.MAPPED_OUT (R287). -/
def chmXStatusMappedOut (n : Nat) : Fld := ⟨0x101 + n, 0x00C, 3, 1, 0⟩

/-- CHM_Xnn_STATUS.PD_OFF (R287). -/
def chmXStatusPdOff (n : Nat) : Fld := ⟨0x101 + n, 0x00C, 4, 1, 0⟩

/-- CHM_Xnn_EVENT.LINK_CHANGE (R287). -/
def chmXEventLinkChange (n : Nat) : Fld := ⟨0x101 + n, 0x010, 0, 1, 0⟩

/-- CHM_Xnn_EVENT.RX_FCS (R287). -/
def chmXEventRxFcs (n : Nat) : Fld := ⟨0x101 + n, 0x010, 1, 1, 0⟩

/-- CHM_Xnn_EVENT.RX_OVERFLOW (R287). -/
def chmXEventRxOverflow (n : Nat) : Fld := ⟨0x101 + n, 0x010, 2, 1, 0⟩

/-- CHM_Xnn_EVENT_ENABLE.ENABLES (R287). -/
def chmXEventEnableEnables (n : Nat) : Fld := ⟨0x101 + n, 0x014, 0, 3, 0⟩

/-- CHM_Xnn_ERROR_CAPTURE.FIRST (R287). -/
def chmXErrorCaptureFirst (n : Nat) : Fld := ⟨0x101 + n, 0x018, 0, 3, 0⟩

/-- CHM_Xnn_MAC_LO.MAC_LO (R287). -/
def chmXMacLoMacLo (n : Nat) : Fld := ⟨0x101 + n, 0x020, 0, 32, (Config.macAddress n).toNat % 2 ^ 32⟩

/-- CHM_Xnn_MAC_HI.MAC_HI (R287). -/
def chmXMacHiMacHi (n : Nat) : Fld := ⟨0x101 + n, 0x024, 0, 16, (Config.macAddress n).toNat / 2 ^ 32⟩

/-- CHM_Xnn_VLAN0.VID (R287). -/
def chmXVlanVid (n : Nat) (i : Nat) : Fld := ⟨0x101 + n, 0x028 + 4 * i, 0, 12, 0⟩

/-- CHM_Xnn_VLAN0.PCP (R287). -/
def chmXVlanPcp (n : Nat) (i : Nat) : Fld := ⟨0x101 + n, 0x028 + 4 * i, 12, 3, 0⟩

/-- CHM_Xnn_VLAN0.VALID (R287). -/
def chmXVlanValid (n : Nat) (i : Nat) : Fld := ⟨0x101 + n, 0x028 + 4 * i, 15, 1, 0⟩

/-- CHM_Xnn_ADDR_INDEX.INDEX (R287). -/
def chmXAddrIndexIndex (n : Nat) : Fld := ⟨0x101 + n, 0x048, 0, 4, 0⟩

/-- CHM_Xnn_ADDR_W0.W0–W3 (R287). -/
def chmXAddrWWord (n : Nat) (i : Nat) : Fld := ⟨0x101 + n, 0x04C + 4 * i, 0, 32, 0⟩

/-- CHM_Xnn_ADDR_CTL.PREFIX (R287). -/
def chmXAddrCtlPrefix (n : Nat) : Fld := ⟨0x101 + n, 0x05C, 0, 8, 0⟩

/-- CHM_Xnn_ADDR_CTL.IPV6 (R287). -/
def chmXAddrCtlIpv6 (n : Nat) : Fld := ⟨0x101 + n, 0x05C, 8, 1, 0⟩

/-- CHM_Xnn_ADDR_CTL.VLAN (R287). -/
def chmXAddrCtlVlan (n : Nat) : Fld := ⟨0x101 + n, 0x05C, 9, 3, 0⟩

/-- CHM_Xnn_ADDR_CTL.VALID (R287). -/
def chmXAddrCtlValid (n : Nat) : Fld := ⟨0x101 + n, 0x05C, 12, 1, 0⟩

/-- CHM_Xnn_RX_FRAMES.RX_FRAMES (R287). -/
def chmXRxFramesRxFrames (n : Nat) : Fld := ⟨0x101 + n, 0x060, 0, 32, 0⟩

/-- CHM_Xnn_TX_FRAMES.TX_FRAMES (R287). -/
def chmXTxFramesTxFrames (n : Nat) : Fld := ⟨0x101 + n, 0x064, 0, 32, 0⟩

/-- CHM_Xnn_RX_DROPS.RX_DROPS (R287). -/
def chmXRxDropsRxDrops (n : Nat) : Fld := ⟨0x101 + n, 0x068, 0, 32, 0⟩

/-- CHM_Xnn_MAPOUT.MAPOUT (R287). -/
def chmXMapoutMapout (n : Nat) : Fld := ⟨0x101 + n, 0x06C, 0, 1, 0⟩

/-- STN_ERROR_CAPTURE.STATION (R288). -/
def stnErrorCaptureStation : Fld := ⟨0x140, 0x018, 0, 17, 0⟩

/-- STN_ERROR_CAPTURE.OP (R288). -/
def stnErrorCaptureOp : Fld := ⟨0x140, 0x018, 17, 3, 0⟩

/-- STN_ERROR_CAPTURE.VALID (R288). -/
def stnErrorCaptureValid : Fld := ⟨0x140, 0x018, 20, 1, 0⟩

/-- STN_SELECT.STATION (R288). -/
def stnSelectStation : Fld := ⟨0x140, 0x020, 0, 17, 0⟩

/-- STN_ENTRY_INFO.TYPE (R288). -/
def stnEntryInfoType : Fld := ⟨0x140, 0x024, 0, 4, 0⟩

/-- STN_ENTRY_INFO.CLASS (R288). -/
def stnEntryInfoClass : Fld := ⟨0x140, 0x024, 4, 2, 0⟩

/-- STN_ENTRY_INFO.IMAGE_STATE (R288). -/
def stnEntryInfoImageState : Fld := ⟨0x140, 0x024, 6, 2, 0⟩

/-- STN_ENTRY_INFO.SESSION (R288). -/
def stnEntryInfoSession : Fld := ⟨0x140, 0x024, 8, 3, 0⟩

/-- STN_ENTRY_INFO.AGED (R288). -/
def stnEntryInfoAged : Fld := ⟨0x140, 0x024, 11, 1, 0⟩

/-- STN_ENTRY_INFO.PORT (R288). -/
def stnEntryInfoPort : Fld := ⟨0x140, 0x024, 12, 6, 0⟩

/-- STN_LAST_SEQ.LAST_SEQ (R288). -/
def stnLastSeqLastSeq : Fld := ⟨0x140, 0x028, 0, 32, 0⟩

/-- STN_COMPLETE_SEQ.COMPLETE_SEQ (R288). -/
def stnCompleteSeqCompleteSeq : Fld := ⟨0x140, 0x02C, 0, 32, 0⟩

/-- STN_ASSEMBLY_SEQ.ASSEMBLY_SEQ (R288). -/
def stnAssemblySeqAssemblySeq : Fld := ⟨0x140, 0x030, 0, 32, 0⟩

/-- STN_ASSEMBLY.HELD (R288). -/
def stnAssemblyHeld : Fld := ⟨0x140, 0x034, 0, 4, 0⟩

/-- STN_ASSEMBLY.COUNT (R288). -/
def stnAssemblyCount : Fld := ⟨0x140, 0x034, 4, 4, 0⟩

/-- STN_AGE.AGE_MS (R288). -/
def stnAgeAgeMs : Fld := ⟨0x140, 0x038, 0, 32, 0⟩

/-- STN_EPOCH.EPOCH (R288). -/
def stnEpochEpoch : Fld := ⟨0x140, 0x03C, 0, 32, 0⟩

/-- STN_DROPS.DROPS (R288). -/
def stnDropsDrops : Fld := ⟨0x140, 0x040, 0, 16, 0⟩

/-- STN_DROPS.RESTORES (R288). -/
def stnDropsRestores : Fld := ⟨0x140, 0x040, 16, 16, 0⟩

/-- STN_DISCARDS.STALE (R288). -/
def stnDiscardsStale : Fld := ⟨0x140, 0x044, 0, 8, 0⟩

/-- STN_DISCARDS.DUP (R288). -/
def stnDiscardsDup : Fld := ⟨0x140, 0x044, 8, 8, 0⟩

/-- STN_DISCARDS.BAD (R288). -/
def stnDiscardsBad : Fld := ⟨0x140, 0x044, 16, 8, 0⟩

/-- STN_DISCARDS.LAYOUT (R288). -/
def stnDiscardsLayout : Fld := ⟨0x140, 0x044, 24, 8, 0⟩

/-- STN_LOSSES.ABANDONED (R288). -/
def stnLossesAbandoned : Fld := ⟨0x140, 0x048, 0, 16, 0⟩

/-- STN_LOSSES.OVERTAKEN (R288). -/
def stnLossesOvertaken : Fld := ⟨0x140, 0x048, 16, 8, 0⟩

/-- STN_LOSSES.RATE (R288). -/
def stnLossesRate : Fld := ⟨0x140, 0x048, 24, 8, 0⟩

/-- STN_OUT_ACK.OUT_ACK (R288). -/
def stnOutAckOutAck : Fld := ⟨0x140, 0x04C, 0, 32, 0⟩

/-- STN_COMMAND.STATION (R288). -/
def stnCommandStation : Fld := ⟨0x140, 0x050, 0, 17, 0⟩

/-- STN_COMMAND.OP (R288). -/
def stnCommandOp : Fld := ⟨0x140, 0x050, 17, 3, 0⟩

/-- HOB_CONTROL.ENABLE (R324). -/
def hobControlEnable : Fld := ⟨0x200, 0x008, 0, 1, 0⟩

/-- HOB_STATUS.SEQ_UP (R324). -/
def hobStatusSeqUp : Fld := ⟨0x200, 0x00C, 0, 12, 0⟩

/-- HOB_STATUS.TURNSPIT (R324). -/
def hobStatusTurnspit : Fld := ⟨0x200, 0x00C, 12, 1, 0⟩

/-- HOB_EVENT.SEQ_FAULT (R324). -/
def hobEventSeqFault : Fld := ⟨0x200, 0x010, 0, 1, 0⟩

/-- HOB_EVENT.LEDGER (R324). -/
def hobEventLedger : Fld := ⟨0x200, 0x010, 1, 1, 0⟩

/-- HOB_EVENT.GROUP_WAKE (R324). -/
def hobEventGroupWake : Fld := ⟨0x200, 0x010, 2, 1, 0⟩

/-- HOB_EVENT_ENABLE.ENABLES (R324). -/
def hobEventEnableEnables : Fld := ⟨0x200, 0x014, 0, 3, 0⟩

/-- HOB_ERROR_CAPTURE.PORT (R324). -/
def hobErrorCapturePort : Fld := ⟨0x200, 0x018, 0, 8, 0⟩

/-- HOB_ERROR_CAPTURE.CODE (R324). -/
def hobErrorCaptureCode : Fld := ⟨0x200, 0x018, 8, 4, 0⟩

/-- HOB_GROUP_STANDBY.STANDBY (R324). -/
def hobGroupStandbyStandby : Fld := ⟨0x200, 0x020, 0, 24, 0⟩

/-- HOB_GROUP_WAKE.WAKE (R324). -/
def hobGroupWakeWake : Fld := ⟨0x200, 0x024, 0, 24, 0⟩

/-- HOB_Pnnn_CONTROL.MODE (R325). -/
def hobPControlMode (n : Nat) : Fld := ⟨0x201 + n, 0x008, 0, 2, 0⟩

/-- HOB_Pnnn_CONTROL.AUTO_RECOVER (R325). -/
def hobPControlAutoRecover (n : Nat) : Fld := ⟨0x201 + n, 0x008, 2, 1, 1⟩

/-- HOB_Pnnn_CONTROL.TIME_MASTER (R325). -/
def hobPControlTimeMaster (n : Nat) : Fld := ⟨0x201 + n, 0x008, 3, 1, 0⟩

/-- HOB_Pnnn_CONTROL.SLEEP_OK (R325). -/
def hobPControlSleepOk (n : Nat) : Fld := ⟨0x201 + n, 0x008, 4, 1, 0⟩

/-- HOB_Pnnn_CONTROL.REF_CLASS (R325). -/
def hobPControlRefClass (n : Nat) : Fld := ⟨0x201 + n, 0x008, 5, 2, 0⟩

/-- HOB_Pnnn_STATUS.EFFECTIVE (R325). -/
def hobPStatusEffective (n : Nat) : Fld := ⟨0x201 + n, 0x00C, 0, 3, 0⟩

/-- HOB_Pnnn_STATUS.ERR_STATE (R325). -/
def hobPStatusErrState (n : Nat) : Fld := ⟨0x201 + n, 0x00C, 3, 2, 0⟩

/-- HOB_Pnnn_STATUS.PD_OFF (R325). -/
def hobPStatusPdOff (n : Nat) : Fld := ⟨0x201 + n, 0x00C, 5, 1, 0⟩

/-- HOB_Pnnn_EVENT.BUS_OFF (R325). -/
def hobPEventBusOff (n : Nat) : Fld := ⟨0x201 + n, 0x010, 0, 1, 0⟩

/-- HOB_Pnnn_EVENT.ERR_PASSIVE (R325). -/
def hobPEventErrPassive (n : Nat) : Fld := ⟨0x201 + n, 0x010, 1, 1, 0⟩

/-- HOB_Pnnn_EVENT.RX_OVERFLOW (R325). -/
def hobPEventRxOverflow (n : Nat) : Fld := ⟨0x201 + n, 0x010, 2, 1, 0⟩

/-- HOB_Pnnn_EVENT.REF_LOST (R325). -/
def hobPEventRefLost (n : Nat) : Fld := ⟨0x201 + n, 0x010, 3, 1, 0⟩

/-- HOB_Pnnn_EVENT.SLEPT (R325). -/
def hobPEventSlept (n : Nat) : Fld := ⟨0x201 + n, 0x010, 4, 1, 0⟩

/-- HOB_Pnnn_EVENT.SLEEP_CANCELLED (R325). -/
def hobPEventSleepCancelled (n : Nat) : Fld := ⟨0x201 + n, 0x010, 5, 1, 0⟩

/-- HOB_Pnnn_EVENT.WOKE (R325). -/
def hobPEventWoke (n : Nat) : Fld := ⟨0x201 + n, 0x010, 6, 1, 0⟩

/-- HOB_Pnnn_EVENT.FOREIGN (R325). -/
def hobPEventForeign (n : Nat) : Fld := ⟨0x201 + n, 0x010, 7, 1, 0⟩

/-- HOB_Pnnn_EVENT.COLLISION (R325). -/
def hobPEventCollision (n : Nat) : Fld := ⟨0x201 + n, 0x010, 8, 1, 0⟩

/-- HOB_Pnnn_EVENT_ENABLE.ENABLES (R325). -/
def hobPEventEnableEnables (n : Nat) : Fld := ⟨0x201 + n, 0x014, 0, 9, 0⟩

/-- HOB_Pnnn_ERROR_CAPTURE.CODE (R325). -/
def hobPErrorCaptureCode (n : Nat) : Fld := ⟨0x201 + n, 0x018, 0, 4, 0⟩

/-- HOB_Pnnn_NBT.NBRP (R325). -/
def hobPNbtNbrp (n : Nat) : Fld := ⟨0x201 + n, 0x020, 0, 5, 0⟩

/-- HOB_Pnnn_NBT.NTSEG1 (R325). -/
def hobPNbtNtseg1 (n : Nat) : Fld := ⟨0x201 + n, 0x020, 5, 8, 0⟩

/-- HOB_Pnnn_NBT.NTSEG2 (R325). -/
def hobPNbtNtseg2 (n : Nat) : Fld := ⟨0x201 + n, 0x020, 13, 7, 0⟩

/-- HOB_Pnnn_NBT.NSJW (R325). -/
def hobPNbtNsjw (n : Nat) : Fld := ⟨0x201 + n, 0x020, 20, 7, 0⟩

/-- HOB_Pnnn_DBT.DBRP (R325). -/
def hobPDbtDbrp (n : Nat) : Fld := ⟨0x201 + n, 0x024, 0, 5, 0⟩

/-- HOB_Pnnn_DBT.DTSEG1 (R325). -/
def hobPDbtDtseg1 (n : Nat) : Fld := ⟨0x201 + n, 0x024, 5, 5, 0⟩

/-- HOB_Pnnn_DBT.DTSEG2 (R325). -/
def hobPDbtDtseg2 (n : Nat) : Fld := ⟨0x201 + n, 0x024, 10, 4, 0⟩

/-- HOB_Pnnn_DBT.DSJW (R325). -/
def hobPDbtDsjw (n : Nat) : Fld := ⟨0x201 + n, 0x024, 14, 4, 0⟩

/-- HOB_Pnnn_DBT.TDC (R325). -/
def hobPDbtTdc (n : Nat) : Fld := ⟨0x201 + n, 0x024, 18, 1, 0⟩

/-- HOB_Pnnn_DBT.TDCO (R325). -/
def hobPDbtTdco (n : Nat) : Fld := ⟨0x201 + n, 0x024, 19, 7, 0⟩

/-- HOB_Pnnn_TX_LEDGER.FREE (R325). -/
def hobPTxLedgerFree (n : Nat) : Fld := ⟨0x201 + n, 0x028, 0, 6, 32⟩

/-- HOB_Pnnn_TX_LEDGER.PENDING (R325). -/
def hobPTxLedgerPending (n : Nat) : Fld := ⟨0x201 + n, 0x028, 6, 6, 0⟩

/-- HOB_Pnnn_TX_LEDGER.ON_BUS (R325). -/
def hobPTxLedgerOnBus (n : Nat) : Fld := ⟨0x201 + n, 0x028, 12, 1, 0⟩

/-- HOB_Pnnn_TX_CANCEL.BUFFER (R325). -/
def hobPTxCancelBuffer (n : Nat) : Fld := ⟨0x201 + n, 0x02C, 0, 5, 0⟩

/-- HOB_Pnnn_TX_CANCEL.GO (R325). -/
def hobPTxCancelGo (n : Nat) : Fld := ⟨0x201 + n, 0x02C, 5, 1, 0⟩

/-- HOB_Pnnn_TX_RESULT.BUFFER (R325). -/
def hobPTxResultBuffer (n : Nat) : Fld := ⟨0x201 + n, 0x030, 0, 5, 0⟩

/-- HOB_Pnnn_TX_RESULT.RESULT (R325). -/
def hobPTxResultResult (n : Nat) : Fld := ⟨0x201 + n, 0x030, 5, 2, 0⟩

/-- HOB_Pnnn_TX_RESULT.DEVICE (R325). -/
def hobPTxResultDevice (n : Nat) : Fld := ⟨0x201 + n, 0x030, 7, 1, 0⟩

/-- HOB_Pnnn_ERR_COUNT.TEC (R325). -/
def hobPErrCountTec (n : Nat) : Fld := ⟨0x201 + n, 0x034, 0, 8, 0⟩

/-- HOB_Pnnn_ERR_COUNT.REC (R325). -/
def hobPErrCountRec (n : Nat) : Fld := ⟨0x201 + n, 0x034, 8, 8, 0⟩

/-- HOB_Pnnn_RX_FRAMES.RX_FRAMES (R325). -/
def hobPRxFramesRxFrames (n : Nat) : Fld := ⟨0x201 + n, 0x038, 0, 32, 0⟩

/-- HOB_Pnnn_TX_FRAMES.TX_FRAMES (R325). -/
def hobPTxFramesTxFrames (n : Nat) : Fld := ⟨0x201 + n, 0x03C, 0, 32, 0⟩

/-- HOB_Pnnn_RX_DROPS.RX_DROPS (R325). -/
def hobPRxDropsRxDrops (n : Nat) : Fld := ⟨0x201 + n, 0x040, 0, 32, 0⟩

/-- HOB_Pnnn_COUNTERS.REF_LOST_COUNT (R325). -/
def hobPCountersRefLostCount (n : Nat) : Fld := ⟨0x201 + n, 0x044, 0, 16, 0⟩

/-- HOB_Pnnn_COUNTERS.COLLISIONS (R325). -/
def hobPCountersCollisions (n : Nat) : Fld := ⟨0x201 + n, 0x044, 16, 16, 0⟩

/-- HOB_Pnnn_SLEEP.REQUEST (R325). -/
def hobPSleepRequest (n : Nat) : Fld := ⟨0x201 + n, 0x048, 0, 1, 0⟩

/-- HOB_Pnnn_SLEEP.WAKE (R325). -/
def hobPSleepWake (n : Nat) : Fld := ⟨0x201 + n, 0x048, 1, 1, 0⟩

/-- HOB_Pnnn_MAPOUT.MAPOUT (R325). -/
def hobPMapoutMapout (n : Nat) : Fld := ⟨0x201 + n, 0x04C, 0, 1, 0⟩

/-- HOB_Pnnn_REF_OFFSET.REF_OFFSET (R325). -/
def hobPRefOffsetRefOffset (n : Nat) : Fld := ⟨0x201 + n, 0x050, 0, 26, 0⟩

/-- ERA_CONTROL.ENABLE (R366). -/
def eraControlEnable : Fld := ⟨0x016, 0x008, 0, 1, 0⟩

/-- ERA_CONTROL.TAKEOVER_EN (R366). -/
def eraControlTakeoverEn : Fld := ⟨0x016, 0x008, 1, 1, 1⟩

/-- ERA_CONTROL.AUTO_SYNC (R366). -/
def eraControlAutoSync : Fld := ⟨0x016, 0x008, 2, 1, 1⟩

/-- ERA_CONTROL.MBO (R366). -/
def eraControlMbo : Fld := ⟨0x016, 0x008, 3, 2, 3⟩

/-- ERA_CONTROL.UNIT (R366). -/
def eraControlUnit : Fld := ⟨0x016, 0x008, 5, 1, 0⟩

/-- ERA_CONTROL.LINE_EN (R366). -/
def eraControlLineEn : Fld := ⟨0x016, 0x008, 6, 1, 0⟩

/-- ERA_CONTROL.WITNESS_EN (R366). -/
def eraControlWitnessEn : Fld := ⟨0x016, 0x008, 7, 1, 0⟩

/-- ERA_STATUS.LANES (R366). -/
def eraStatusLanes : Fld := ⟨0x016, 0x00C, 0, 4, 0⟩

/-- ERA_STATUS.ROLE (R366). -/
def eraStatusRole : Fld := ⟨0x016, 0x00C, 4, 3, 0⟩

/-- ERA_STATUS.PARTNER (R366). -/
def eraStatusPartner : Fld := ⟨0x016, 0x00C, 7, 1, 0⟩

/-- ERA_STATUS.TIME_OK (R366). -/
def eraStatusTimeOk : Fld := ⟨0x016, 0x00C, 8, 1, 0⟩

/-- ERA_STATUS.LINE (R366). -/
def eraStatusLine : Fld := ⟨0x016, 0x00C, 9, 2, 0⟩

/-- ERA_STATUS.WITNESS_KEY (R366). -/
def eraStatusWitnessKey : Fld := ⟨0x016, 0x00C, 11, 1, 0⟩

/-- ERA_EVENT.LINK_LOST (R366). -/
def eraEventLinkLost : Fld := ⟨0x016, 0x010, 0, 1, 0⟩

/-- ERA_EVENT.LINK_UP (R366). -/
def eraEventLinkUp : Fld := ⟨0x016, 0x010, 1, 1, 0⟩

/-- ERA_EVENT.SYNC_DONE (R366). -/
def eraEventSyncDone : Fld := ⟨0x016, 0x010, 2, 1, 0⟩

/-- ERA_EVENT.SYNC_REFUSED (R366). -/
def eraEventSyncRefused : Fld := ⟨0x016, 0x010, 3, 1, 0⟩

/-- ERA_EVENT.DESYNC (R366). -/
def eraEventDesync : Fld := ⟨0x016, 0x010, 4, 1, 0⟩

/-- ERA_EVENT.TAKEOVER (R366). -/
def eraEventTakeover : Fld := ⟨0x016, 0x010, 5, 1, 0⟩

/-- ERA_EVENT.SWAP_DONE (R366). -/
def eraEventSwapDone : Fld := ⟨0x016, 0x010, 6, 1, 0⟩

/-- ERA_EVENT.SWAP_REFUSED (R366). -/
def eraEventSwapRefused : Fld := ⟨0x016, 0x010, 7, 1, 0⟩

/-- ERA_EVENT.LANE_DEGRADED (R366). -/
def eraEventLaneDegraded : Fld := ⟨0x016, 0x010, 8, 1, 0⟩

/-- ERA_EVENT.LEDGER (R366). -/
def eraEventLedger : Fld := ⟨0x016, 0x010, 9, 1, 0⟩

/-- ERA_EVENT.UNIT_CLASH (R366). -/
def eraEventUnitClash : Fld := ⟨0x016, 0x010, 10, 1, 0⟩

/-- ERA_EVENT_ENABLE.ENABLES (R366). -/
def eraEventEnableEnables : Fld := ⟨0x016, 0x014, 0, 11, 0⟩

/-- ERA_ERROR_CAPTURE.REASON (R366). -/
def eraErrorCaptureReason : Fld := ⟨0x016, 0x018, 0, 4, 0⟩

/-- ERA_ERROR_CAPTURE.DESYNC (R366). -/
def eraErrorCaptureDesync : Fld := ⟨0x016, 0x018, 4, 4, 0⟩

/-- ERA_COMMAND.OP (R366). -/
def eraCommandOp : Fld := ⟨0x016, 0x020, 0, 2, 0⟩

/-- ERA_ACK_TIMEOUT.ACK_TIMEOUT (R366). -/
def eraAckTimeoutAckTimeout : Fld := ⟨0x016, 0x024, 0, 17, 5000⟩

/-- ERA_LEDGER.CL0 (R366). -/
def eraLedgerCl0 : Fld := ⟨0x016, 0x028, 0, 3, 0⟩

/-- ERA_LEDGER.CL1 (R366). -/
def eraLedgerCl1 : Fld := ⟨0x016, 0x028, 3, 3, 0⟩

/-- ERA_LEDGER.CL2 (R366). -/
def eraLedgerCl2 : Fld := ⟨0x016, 0x028, 6, 3, 0⟩

/-- ERA_CL0_APPLIED.CYCLE (R366). -/
def eraClAppliedCycle (i : Nat) : Fld := ⟨0x016, 0x02C + 4 * i, 0, 32, 0⟩

/-- ERA_PARTNER_STATE.ROLE (R366). -/
def eraPartnerStateRole : Fld := ⟨0x016, 0x038, 0, 3, 0⟩

/-- ERA_PARTNER_STATE.HELD (R366). -/
def eraPartnerStateHeld : Fld := ⟨0x016, 0x038, 3, 1, 0⟩

/-- ERA_PARTNER_STATE.ERA_VERSION (R366). -/
def eraPartnerStateEraVersion : Fld := ⟨0x016, 0x038, 16, 16, 0⟩

/-- ERA_PARTNER_EPOCH.EPOCH (R366). -/
def eraPartnerEpochEpoch : Fld := ⟨0x016, 0x03C, 0, 32, 0⟩

/-- ERA_PARTNER_OFFSET.OFFSET (R366). -/
def eraPartnerOffsetOffset : Fld := ⟨0x016, 0x040, 0, 32, 0⟩

/-- ERA_SYNC_PROGRESS.GRANULES (R366). -/
def eraSyncProgressGranules : Fld := ⟨0x016, 0x044, 0, 20, 0⟩

/-- ERA_COUNTERS.RESENDS (R366). -/
def eraCountersResends : Fld := ⟨0x016, 0x048, 0, 16, 0⟩

/-- ERA_COUNTERS.LINK_LOSSES (R366). -/
def eraCountersLinkLosses : Fld := ⟨0x016, 0x048, 16, 16, 0⟩

/-- ERA_WITNESS_PORT.PORT (R366). -/
def eraWitnessPortPort : Fld := ⟨0x016, 0x04C, 0, 16, 47232⟩

/-- ERA_WITNESS_W0.W0–W3 (R366). -/
def eraWitnessWWord (i : Nat) : Fld := ⟨0x016, 0x050 + 4 * i, 0, 32, 0⟩

/-- ERA_L0_ERRORS.CRC_ERRORS (R366). -/
def eraLErrorsCrcErrors (i : Nat) : Fld := ⟨0x016, 0x060 + 4 * i, 0, 16, 0⟩

/-- ERA_L0_ERRORS.UP (R366). -/
def eraLErrorsUp (i : Nat) : Fld := ⟨0x016, 0x060 + 4 * i, 16, 1, 0⟩

/-- DMP_CONTROL.STRAY_RECLAIM (R367). -/
def dmpControlStrayReclaim : Fld := ⟨0x017, 0x008, 0, 1, 1⟩

/-- DMP_STATUS.CLAIMANT (R367). -/
def dmpStatusClaimant : Fld := ⟨0x017, 0x00C, 0, 1, 0⟩

/-- DMP_STATUS.LISTENING (R367). -/
def dmpStatusListening : Fld := ⟨0x017, 0x00C, 1, 1, 0⟩

/-- DMP_STATUS.COMMIT_PENDING (R367). -/
def dmpStatusCommitPending : Fld := ⟨0x017, 0x00C, 2, 1, 0⟩

/-- DMP_EVENT.CLAIMED (R367). -/
def dmpEventClaimed : Fld := ⟨0x017, 0x010, 0, 1, 0⟩

/-- DMP_EVENT.DEMOTED (R367). -/
def dmpEventDemoted : Fld := ⟨0x017, 0x010, 1, 1, 0⟩

/-- DMP_EVENT.HIGHER_SEEN (R367). -/
def dmpEventHigherSeen : Fld := ⟨0x017, 0x010, 2, 1, 0⟩

/-- DMP_EVENT.STRAY (R367). -/
def dmpEventStray : Fld := ⟨0x017, 0x010, 3, 1, 0⟩

/-- DMP_EVENT.PERSISTED (R367). -/
def dmpEventPersisted : Fld := ⟨0x017, 0x010, 4, 1, 0⟩

/-- DMP_EVENT_ENABLE.ENABLES (R367). -/
def dmpEventEnableEnables : Fld := ⟨0x017, 0x014, 0, 5, 0⟩

/-- DMP_ERROR_CAPTURE.PATH (R367). -/
def dmpErrorCapturePath : Fld := ⟨0x017, 0x018, 0, 3, 0⟩

/-- DMP_ERROR_CAPTURE.STATION (R367). -/
def dmpErrorCaptureStation : Fld := ⟨0x017, 0x018, 3, 17, 0⟩

/-- DMP_EPOCH.EPOCH (R367). -/
def dmpEpochEpoch : Fld := ⟨0x017, 0x020, 0, 32, 0⟩

/-- DMP_HIGHEST.HIGHEST (R367). -/
def dmpHighestHighest : Fld := ⟨0x017, 0x024, 0, 32, 0⟩

/-- DMP_PERSISTED.PERSISTED (R367). -/
def dmpPersistedPersisted : Fld := ⟨0x017, 0x028, 0, 32, 0⟩

/-- DMP_LISTEN_MS.LISTEN_MS (R367). -/
def dmpListenMsListenMs : Fld := ⟨0x017, 0x02C, 0, 24, 0⟩

/-- DMP_LISTEN_EFFECTIVE.LISTEN_MS (R367). -/
def dmpListenEffectiveListenMs : Fld := ⟨0x017, 0x030, 0, 24, 0⟩

/-- DMP_COUNTS.CLAIMS (R367). -/
def dmpCountsClaims : Fld := ⟨0x017, 0x034, 0, 16, 0⟩

/-- DMP_COUNTS.DEMOTIONS (R367). -/
def dmpCountsDemotions : Fld := ⟨0x017, 0x034, 16, 16, 0⟩

/-- TSP_CONTROL.SELECT (R385). -/
def tspControlSelect : Fld := ⟨0x018, 0x008, 0, 1, 0⟩

/-- TSP_CONTROL.AUTO_SWITCH (R385). -/
def tspControlAutoSwitch : Fld := ⟨0x018, 0x008, 1, 1, 0⟩

/-- TSP_STATUS.ACTIVE (R385). -/
def tspStatusActive : Fld := ⟨0x018, 0x00C, 0, 1, 0⟩

/-- TSP_STATUS.BLEEDING (R385). -/
def tspStatusBleeding : Fld := ⟨0x018, 0x00C, 1, 1, 0⟩

/-- TSP_STATUS.A_STATE (R385). -/
def tspStatusAState : Fld := ⟨0x018, 0x00C, 2, 2, 0⟩

/-- TSP_STATUS.A_IN_LOCK (R385). -/
def tspStatusAInLock : Fld := ⟨0x018, 0x00C, 4, 1, 0⟩

/-- TSP_STATUS.B_STATE (R385). -/
def tspStatusBState : Fld := ⟨0x018, 0x00C, 5, 2, 0⟩

/-- TSP_STATUS.B_IN_LOCK (R385). -/
def tspStatusBInLock : Fld := ⟨0x018, 0x00C, 7, 1, 0⟩

/-- TSP_EVENT.STEP (R385). -/
def tspEventStep : Fld := ⟨0x018, 0x010, 0, 2, 0⟩

/-- TSP_EVENT.HOLDOVER (R385). -/
def tspEventHoldover : Fld := ⟨0x018, 0x010, 2, 2, 0⟩

/-- TSP_EVENT.SWITCHED (R385). -/
def tspEventSwitched : Fld := ⟨0x018, 0x010, 4, 1, 0⟩

/-- TSP_EVENT.SWITCH_REFUSED (R385). -/
def tspEventSwitchRefused : Fld := ⟨0x018, 0x010, 5, 1, 0⟩

/-- TSP_EVENT.LIMIT (R385). -/
def tspEventLimit : Fld := ⟨0x018, 0x010, 6, 2, 0⟩

/-- TSP_EVENT.LAUNCH_LATE (R385). -/
def tspEventLaunchLate : Fld := ⟨0x018, 0x010, 8, 1, 0⟩

/-- TSP_EVENT_ENABLE.ENABLES (R385). -/
def tspEventEnableEnables : Fld := ⟨0x018, 0x014, 0, 9, 0⟩

/-- TSP_ERROR_CAPTURE.CODE (R385). -/
def tspErrorCaptureCode : Fld := ⟨0x018, 0x018, 0, 4, 0⟩

/-- TSP_ERROR_CAPTURE.PORT (R385). -/
def tspErrorCapturePort : Fld := ⟨0x018, 0x018, 4, 8, 0⟩

/-- TSP_SYS_LO.NS_LO (R385). -/
def tspSysLoNsLo : Fld := ⟨0x018, 0x020, 0, 32, 0⟩

/-- TSP_SYS_HI.NS_HI (R385). -/
def tspSysHiNsHi : Fld := ⟨0x018, 0x024, 0, 32, 0⟩

/-- TSP_SYS_FRAC.FRAC (R385). -/
def tspSysFracFrac : Fld := ⟨0x018, 0x028, 0, 32, 0⟩

/-- TSP_OFFSET_LO.OFFSET_LO (R385). -/
def tspOffsetLoOffsetLo : Fld := ⟨0x018, 0x02C, 0, 32, 0⟩

/-- TSP_OFFSET_HI.OFFSET_HI (R385). -/
def tspOffsetHiOffsetHi : Fld := ⟨0x018, 0x030, 0, 16, 0⟩

/-- TSP_BLEED.BLEED (R385). -/
def tspBleedBleed : Fld := ⟨0x018, 0x034, 0, 17, 85899⟩

/-- TSP_UTC_OFFSET.SECONDS (R385). -/
def tspUtcOffsetSeconds : Fld := ⟨0x018, 0x038, 0, 16, 0⟩

/-- TSP_PORT_SELECT.PORT (R385). -/
def tspPortSelectPort : Fld := ⟨0x018, 0x03C, 0, 6, 0⟩

/-- TSP_PORT_DOMAIN.DOMAIN (R385). -/
def tspPortDomainDomain : Fld := ⟨0x018, 0x040, 0, 1, 0⟩

/-- TSP_PORT_RX_LAT.RX_LAT (R385). -/
def tspPortRxLatRxLat : Fld := ⟨0x018, 0x044, 0, 16, 0⟩

/-- TSP_PORT_TX_LAT.TX_LAT (R385). -/
def tspPortTxLatTxLat : Fld := ⟨0x018, 0x048, 0, 16, 0⟩

/-- TSP_LATE_COUNT.LATE_COUNT (R385). -/
def tspLateCountLateCount : Fld := ⟨0x018, 0x04C, 0, 16, 0⟩

/-- TSP_Nd_NS_LO.NS_LO (R385). -/
def tspNNsLoNsLo (i : Nat) : Fld := ⟨0x018, 0x080 + 128 * i, 0, 32, 0⟩

/-- TSP_Nd_NS_HI.NS_HI (R385). -/
def tspNNsHiNsHi (i : Nat) : Fld := ⟨0x018, 0x084 + 128 * i, 0, 32, 0⟩

/-- TSP_Nd_FRAC.FRAC (R385). -/
def tspNFracFrac (i : Nat) : Fld := ⟨0x018, 0x088 + 128 * i, 0, 32, 0⟩

/-- TSP_Nd_INC_NS.INC_NS (R385). -/
def tspNIncNsIncNs (i : Nat) : Fld := ⟨0x018, 0x08C + 128 * i, 0, 2, 2⟩

/-- TSP_Nd_INC_FRAC.INC_FRAC (R385). -/
def tspNIncFracIncFrac (i : Nat) : Fld := ⟨0x018, 0x090 + 128 * i, 0, 32, 0⟩

/-- TSP_Nd_FREQ.FREQ (R385). -/
def tspNFreqFreq (i : Nat) : Fld := ⟨0x018, 0x094 + 128 * i, 0, 32, 0⟩

/-- TSP_Nd_INTEG.INTEG (R385). -/
def tspNIntegInteg (i : Nat) : Fld := ⟨0x018, 0x098 + 128 * i, 0, 32, 0⟩

/-- TSP_Nd_FREQ_LIMIT.FREQ_LIMIT (R385). -/
def tspNFreqLimitFreqLimit (i : Nat) : Fld := ⟨0x018, 0x09C + 128 * i, 0, 23, 4294967⟩

/-- TSP_Nd_KP.KP (R385). -/
def tspNKpKp (i : Nat) : Fld := ⟨0x018, 0x0A0 + 128 * i, 0, 32, 524288⟩

/-- TSP_Nd_KI.KI (R385). -/
def tspNKiKi (i : Nat) : Fld := ⟨0x018, 0x0A4 + 128 * i, 0, 32, 16384⟩

/-- TSP_Nd_OFFSET_LO.OFFSET_LO (R385). -/
def tspNOffsetLoOffsetLo (i : Nat) : Fld := ⟨0x018, 0x0A8 + 128 * i, 0, 32, 0⟩

/-- TSP_Nd_OFFSET_HI.OFFSET_HI (R385). -/
def tspNOffsetHiOffsetHi (i : Nat) : Fld := ⟨0x018, 0x0AC + 128 * i, 0, 16, 0⟩

/-- TSP_Nd_STEP_THRESH.STEP_THRESH (R385). -/
def tspNStepThreshStepThresh (i : Nat) : Fld := ⟨0x018, 0x0B0 + 128 * i, 0, 32, 1000000⟩

/-- TSP_Nd_HOLDOVER_MS.HOLDOVER_MS (R385). -/
def tspNHoldoverMsHoldoverMs (i : Nat) : Fld := ⟨0x018, 0x0B4 + 128 * i, 0, 16, 3000⟩

/-- TSP_Nd_LOCK_THRESH.LOCK_THRESH (R385). -/
def tspNLockThreshLockThresh (i : Nat) : Fld := ⟨0x018, 0x0B8 + 128 * i, 0, 16, 100⟩

/-- TSP_Nd_ADJUST_LO.ADJUST_LO (R385). -/
def tspNAdjustLoAdjustLo (i : Nat) : Fld := ⟨0x018, 0x0C0 + 128 * i, 0, 32, 0⟩

/-- TSP_Nd_ADJUST_HI.ADJUST_HI (R385). -/
def tspNAdjustHiAdjustHi (i : Nat) : Fld := ⟨0x018, 0x0C4 + 128 * i, 0, 16, 0⟩

/-- GRT_CONTROL.ENABLE (R396). -/
def grtControlEnable : Fld := ⟨0x019, 0x008, 0, 1, 0⟩

/-- GRT_STATUS.SUPPLY_A (R396). -/
def grtStatusSupplyA : Fld := ⟨0x019, 0x00C, 0, 2, 2⟩

/-- GRT_STATUS.SUPPLY_B (R396). -/
def grtStatusSupplyB : Fld := ⟨0x019, 0x00C, 2, 2, 2⟩

/-- GRT_EVENT.SUPPLY_A (R396). -/
def grtEventSupplyA : Fld := ⟨0x019, 0x010, 0, 1, 0⟩

/-- GRT_EVENT.SUPPLY_B (R396). -/
def grtEventSupplyB : Fld := ⟨0x019, 0x010, 1, 1, 0⟩

/-- GRT_EVENT.OVERLOAD (R396). -/
def grtEventOverload : Fld := ⟨0x019, 0x010, 2, 1, 0⟩

/-- GRT_EVENT.THERMAL (R396). -/
def grtEventThermal : Fld := ⟨0x019, 0x010, 3, 1, 0⟩

/-- GRT_EVENT_ENABLE.ENABLES (R396). -/
def grtEventEnableEnables : Fld := ⟨0x019, 0x014, 0, 4, 0⟩

/-- GRT_ERROR_CAPTURE.CHANNEL (R396). -/
def grtErrorCaptureChannel : Fld := ⟨0x019, 0x018, 0, 4, 0⟩

/-- GRT_ERROR_CAPTURE.CODE (R396). -/
def grtErrorCaptureCode : Fld := ⟨0x019, 0x018, 4, 4, 0⟩

/-- GRT_PAIR.ALIVE_OUT (R396). -/
def grtPairAliveOut : Fld := ⟨0x019, 0x020, 0, 4, 0⟩

/-- GRT_PAIR.ALIVE_EN (R396). -/
def grtPairAliveEn : Fld := ⟨0x019, 0x020, 4, 1, 0⟩

/-- GRT_PAIR.PARTNER (R396). -/
def grtPairPartner : Fld := ⟨0x019, 0x020, 5, 4, 0⟩

/-- GRT_PAIR.PARTNER_EN (R396). -/
def grtPairPartnerEn : Fld := ⟨0x019, 0x020, 9, 1, 0⟩

/-- GRT_IN_STATE.IN_STATE (R396). -/
def grtInStateInState : Fld := ⟨0x019, 0x024, 0, 16, 0⟩

/-- GRT_OUT_STATE.OUT_STATE (R396). -/
def grtOutStateOutState : Fld := ⟨0x019, 0x028, 0, 16, 0⟩

/-- GRT_FAULT.FAULT (R396). -/
def grtFaultFault : Fld := ⟨0x019, 0x02C, 0, 16, 0⟩

/-- GRT_SUPPLY_A_MV.MV (R396). -/
def grtSupplyAMvMv : Fld := ⟨0x019, 0x030, 0, 16, 0⟩

/-- GRT_SUPPLY_B_MV.MV (R396). -/
def grtSupplyBMvMv : Fld := ⟨0x019, 0x034, 0, 16, 0⟩

/-- GRT_Gnn_CONFIG.MODE (R396). -/
def grtGConfigMode (i : Nat) : Fld := ⟨0x019, 0x040 + 4 * i, 0, 3, 0⟩

/-- GRT_Gnn_CONFIG.ON (R396). -/
def grtGConfigOn (i : Nat) : Fld := ⟨0x019, 0x040 + 4 * i, 3, 9, 0⟩

/-- GRT_Gnn_CONFIG.OFF (R396). -/
def grtGConfigOff (i : Nat) : Fld := ⟨0x019, 0x040 + 4 * i, 12, 9, 0⟩

/-- GRT_Gnn_CONFIG.FILTER (R396). -/
def grtGConfigFilter (i : Nat) : Fld := ⟨0x019, 0x040 + 4 * i, 21, 10, 0⟩

/-- GRT_Gnn_CONFIG.SAFE (R396). -/
def grtGConfigSafe (i : Nat) : Fld := ⟨0x019, 0x040 + 4 * i, 31, 1, 0⟩

/-- MNT_CONTROL.BG_ERASE (R423). -/
def mntControlBgErase : Fld := ⟨0x005, 0x008, 0, 1, 1⟩

/-- MNT_STATUS.BANK_BUSY (R423). -/
def mntStatusBankBusy : Fld := ⟨0x005, 0x00C, 0, 8, 0⟩

/-- MNT_STATUS.READY (R423). -/
def mntStatusReady : Fld := ⟨0x005, 0x00C, 8, 1, 0⟩

/-- MNT_STATUS.PF_ACTIVE (R423). -/
def mntStatusPfActive : Fld := ⟨0x005, 0x00C, 9, 1, 0⟩

/-- MNT_STATUS.RETAIN_PRE (R423). -/
def mntStatusRetainPre : Fld := ⟨0x005, 0x00C, 10, 4, 0⟩

/-- MNT_STATUS.RETAIN_VALID (R423). -/
def mntStatusRetainValid : Fld := ⟨0x005, 0x00C, 14, 4, 0⟩

/-- MNT_STATUS.RETAIN_COMMITTING (R423). -/
def mntStatusRetainCommitting : Fld := ⟨0x005, 0x00C, 18, 1, 0⟩

/-- MNT_EVENT.DONE (R423). -/
def mntEventDone : Fld := ⟨0x005, 0x010, 0, 1, 0⟩

/-- MNT_EVENT.REFUSED (R423). -/
def mntEventRefused : Fld := ⟨0x005, 0x010, 1, 1, 0⟩

/-- MNT_EVENT.ECC_CORRECTED (R423). -/
def mntEventEccCorrected : Fld := ⟨0x005, 0x010, 2, 1, 0⟩

/-- MNT_EVENT.ECC_FAIL (R423). -/
def mntEventEccFail : Fld := ⟨0x005, 0x010, 3, 1, 0⟩

/-- MNT_EVENT.RETAIN_COMMITTED (R423). -/
def mntEventRetainCommitted : Fld := ⟨0x005, 0x010, 4, 1, 0⟩

/-- MNT_EVENT.RETAIN_REFUSED (R423). -/
def mntEventRetainRefused : Fld := ⟨0x005, 0x010, 5, 1, 0⟩

/-- MNT_EVENT.LEDGER (R423). -/
def mntEventLedger : Fld := ⟨0x005, 0x010, 6, 1, 0⟩

/-- MNT_EVENT.PF_DONE (R423). -/
def mntEventPfDone : Fld := ⟨0x005, 0x010, 7, 1, 0⟩

/-- MNT_EVENT_ENABLE.ENABLES (R423). -/
def mntEventEnableEnables : Fld := ⟨0x005, 0x014, 0, 8, 0⟩

/-- MNT_ERROR_CAPTURE.ADDR (R423). -/
def mntErrorCaptureAddr : Fld := ⟨0x005, 0x018, 0, 27, 0⟩

/-- MNT_ERROR_CAPTURE.CODE (R423). -/
def mntErrorCaptureCode : Fld := ⟨0x005, 0x018, 27, 4, 0⟩

/-- MNT_CMD.OP (R423). -/
def mntCmdOp : Fld := ⟨0x005, 0x020, 0, 4, 0⟩

/-- MNT_ADDR.ADDR (R423). -/
def mntAddrAddr : Fld := ⟨0x005, 0x024, 0, 27, 0⟩

/-- MNT_LEN.LEN (R423). -/
def mntLenLen : Fld := ⟨0x005, 0x028, 0, 13, 0⟩

/-- MNT_BUF_LO.BUF_LO (R423). -/
def mntBufLoBufLo : Fld := ⟨0x005, 0x02C, 0, 32, 0⟩

/-- MNT_BUF_HI.BUF_HI (R423). -/
def mntBufHiBufHi : Fld := ⟨0x005, 0x030, 0, 4, 0⟩

/-- MNT_RESULT.CODE (R423). -/
def mntResultCode : Fld := ⟨0x005, 0x034, 0, 4, 0⟩

/-- MNT_RESULT.DONE (R423). -/
def mntResultDone : Fld := ⟨0x005, 0x034, 4, 1, 1⟩

/-- MNT_DIR_SEQ.SEQ (R423). -/
def mntDirSeqSeq : Fld := ⟨0x005, 0x038, 0, 32, 0⟩

/-- MNT_PARAM_SEQ.SEQ (R423). -/
def mntParamSeqSeq : Fld := ⟨0x005, 0x03C, 0, 32, 0⟩

/-- MNT_RETAIN_SEQ.SEQ (R423). -/
def mntRetainSeqSeq : Fld := ⟨0x005, 0x040, 0, 32, 0⟩

/-- MNT_WEAR.MAX_ERASES (R423). -/
def mntWearMaxErases : Fld := ⟨0x005, 0x044, 0, 17, 0⟩

/-- MNT_ECC.CORRECTED (R423). -/
def mntEccCorrected : Fld := ⟨0x005, 0x048, 0, 16, 0⟩

/-- MNT_ECC.FAILED (R423). -/
def mntEccFailed : Fld := ⟨0x005, 0x048, 16, 16, 0⟩

/-- ASH_CONTROL.NORMAL_EN (R424). -/
def ashControlNormalEn : Fld := ⟨0x006, 0x008, 0, 1, 1⟩

/-- ASH_STATUS.FULL (R424). -/
def ashStatusFull : Fld := ⟨0x006, 0x00C, 0, 1, 0⟩

/-- ASH_STATUS.CLEARING (R424). -/
def ashStatusClearing : Fld := ⟨0x006, 0x00C, 1, 1, 0⟩

/-- ASH_STATUS.FLUSHING (R424). -/
def ashStatusFlushing : Fld := ⟨0x006, 0x00C, 2, 1, 0⟩

/-- ASH_STATUS.DIRECT (R424). -/
def ashStatusDirect : Fld := ⟨0x006, 0x00C, 3, 1, 0⟩

/-- ASH_EVENT.FULL (R424). -/
def ashEventFull : Fld := ⟨0x006, 0x010, 0, 1, 0⟩

/-- ASH_EVENT.FLUSHED (R424). -/
def ashEventFlushed : Fld := ⟨0x006, 0x010, 1, 1, 0⟩

/-- ASH_EVENT.DROPPED (R424). -/
def ashEventDropped : Fld := ⟨0x006, 0x010, 2, 1, 0⟩

/-- ASH_EVENT.CLEARED (R424). -/
def ashEventCleared : Fld := ⟨0x006, 0x010, 3, 1, 0⟩

/-- ASH_EVENT.THRESHOLD (R424). -/
def ashEventThreshold : Fld := ⟨0x006, 0x010, 4, 1, 0⟩

/-- ASH_EVENT_ENABLE.ENABLES (R424). -/
def ashEventEnableEnables : Fld := ⟨0x006, 0x014, 0, 5, 0⟩

/-- ASH_ERROR_CAPTURE.SOURCE (R424). -/
def ashErrorCaptureSource : Fld := ⟨0x006, 0x018, 0, 10, 0⟩

/-- ASH_ERROR_CAPTURE.CODE (R424). -/
def ashErrorCaptureCode : Fld := ⟨0x006, 0x018, 10, 8, 0⟩

/-- ASH_COMMAND.OP (R424). -/
def ashCommandOp : Fld := ⟨0x006, 0x020, 0, 2, 0⟩

/-- ASH_BUF_BASE.BUF_BASE (R424). -/
def ashBufBaseBufBase : Fld := ⟨0x006, 0x024, 0, 22, 0⟩

/-- ASH_FILL.FILL (R424). -/
def ashFillFill : Fld := ⟨0x006, 0x028, 0, 17, 0⟩

/-- ASH_HEAD.HEAD (R424). -/
def ashHeadHead : Fld := ⟨0x006, 0x02C, 0, 24, 0⟩

/-- ASH_SEQ.SEQ (R424). -/
def ashSeqSeq : Fld := ⟨0x006, 0x030, 0, 32, 0⟩

/-- ASH_REFUSED.REFUSED (R424). -/
def ashRefusedRefused : Fld := ⟨0x006, 0x034, 0, 32, 0⟩

/-- ASH_DROPPED.DROPPED (R424). -/
def ashDroppedDropped : Fld := ⟨0x006, 0x038, 0, 32, 0⟩

/-- ASH_SECONDS.SECONDS (R424). -/
def ashSecondsSeconds : Fld := ⟨0x006, 0x03C, 0, 32, 0⟩

/-- ASH_CYCLES.CYCLES (R424). -/
def ashCyclesCycles : Fld := ⟨0x006, 0x040, 0, 24, 0⟩

/-- PWR_CONTROL.START_HELD (R451). -/
def pwrControlStartHeld : Fld := ⟨0x001, 0x008, 0, 1, 0⟩

/-- PWR_CONTROL.RESTART (R451). -/
def pwrControlRestart : Fld := ⟨0x001, 0x008, 1, 2, 0⟩

/-- PWR_STATUS.MODE (R451). -/
def pwrStatusMode : Fld := ⟨0x001, 0x00C, 0, 3, 1⟩

/-- PWR_STATUS.TRANSITION (R451). -/
def pwrStatusTransition : Fld := ⟨0x001, 0x00C, 3, 1, 0⟩

/-- PWR_STATUS.PF (R451). -/
def pwrStatusPf : Fld := ⟨0x001, 0x00C, 4, 1, 0⟩

/-- PWR_STATUS.BANK_STAGE (R451). -/
def pwrStatusBankStage : Fld := ⟨0x001, 0x00C, 5, 2, 0⟩

/-- PWR_STATUS.QUICK (R451). -/
def pwrStatusQuick : Fld := ⟨0x001, 0x00C, 7, 1, 0⟩

/-- PWR_STATUS.LAST_RESTART (R451). -/
def pwrStatusLastRestart : Fld := ⟨0x001, 0x00C, 8, 2, 0⟩

/-- PWR_EVENT.MODE_CHANGE (R451). -/
def pwrEventModeChange : Fld := ⟨0x001, 0x010, 0, 1, 0⟩

/-- PWR_EVENT.POWER_FAIL (R451). -/
def pwrEventPowerFail : Fld := ⟨0x001, 0x010, 1, 1, 0⟩

/-- PWR_EVENT.PF_RECOVERED (R451). -/
def pwrEventPfRecovered : Fld := ⟨0x001, 0x010, 2, 1, 0⟩

/-- PWR_EVENT.REFUSED (R451). -/
def pwrEventRefused : Fld := ⟨0x001, 0x010, 3, 1, 0⟩

/-- PWR_EVENT.RESTART_REFUSED (R451). -/
def pwrEventRestartRefused : Fld := ⟨0x001, 0x010, 4, 1, 0⟩

/-- PWR_EVENT.WOKE (R451). -/
def pwrEventWoke : Fld := ⟨0x001, 0x010, 5, 1, 0⟩

/-- PWR_EVENT_ENABLE.ENABLES (R451). -/
def pwrEventEnableEnables : Fld := ⟨0x001, 0x014, 0, 6, 0⟩

/-- PWR_ERROR_CAPTURE.DOMAIN (R451). -/
def pwrErrorCaptureDomain : Fld := ⟨0x001, 0x018, 0, 5, 0⟩

/-- PWR_ERROR_CAPTURE.CODE (R451). -/
def pwrErrorCaptureCode : Fld := ⟨0x001, 0x018, 5, 3, 0⟩

/-- PWR_ERROR_CAPTURE.OP (R451). -/
def pwrErrorCaptureOp : Fld := ⟨0x001, 0x018, 8, 4, 0⟩

/-- PWR_ERROR_CAPTURE.NORMAL (R451). -/
def pwrErrorCaptureNormal : Fld := ⟨0x001, 0x018, 12, 1, 0⟩

/-- PWR_COMMAND.OP (R451). -/
def pwrCommandOp : Fld := ⟨0x001, 0x020, 0, 4, 0⟩

/-- PWR_RESET_CAUSE.POWER_ON (R451). -/
def pwrResetCausePowerOn : Fld := ⟨0x001, 0x024, 0, 1, 1⟩

/-- PWR_RESET_CAUSE.RESET_N (R451). -/
def pwrResetCauseResetN : Fld := ⟨0x001, 0x024, 1, 1, 0⟩

/-- PWR_RESET_CAUSE.FIREGUARD (R451). -/
def pwrResetCauseFireguard : Fld := ⟨0x001, 0x024, 2, 1, 0⟩

/-- PWR_RESET_CAUSE.CLOCK_LOSS (R451). -/
def pwrResetCauseClockLoss : Fld := ⟨0x001, 0x024, 3, 1, 0⟩

/-- PWR_RESET_CAUSE.COMMAND (R451). -/
def pwrResetCauseCommand : Fld := ⟨0x001, 0x024, 4, 1, 0⟩

/-- PWR_RESET_CAUSE.RELINING (R451). -/
def pwrResetCauseRelining : Fld := ⟨0x001, 0x024, 5, 1, 0⟩

/-- PWR_RESET_CAUSE.RESUME (R451). -/
def pwrResetCauseResume : Fld := ⟨0x001, 0x024, 6, 1, 0⟩

/-- PWR_BANK.DEEP_MS (R451). -/
def pwrBankDeepMs : Fld := ⟨0x001, 0x028, 0, 16, 1000⟩

/-- PWR_BANK.KEEP_A (R451). -/
def pwrBankKeepA : Fld := ⟨0x001, 0x028, 16, 1, 0⟩

/-- PWR_BANK.KEEP_B (R451). -/
def pwrBankKeepB : Fld := ⟨0x001, 0x028, 17, 1, 0⟩

/-- PWR_BANK.ALARM_WAKE (R451). -/
def pwrBankAlarmWake : Fld := ⟨0x001, 0x028, 18, 1, 1⟩

/-- PWR_BANK.HOB_WAKE (R451). -/
def pwrBankHobWake : Fld := ⟨0x001, 0x028, 19, 1, 0⟩

/-- PWR_BANK.PERST_WAKE (R451). -/
def pwrBankPerstWake : Fld := ⟨0x001, 0x028, 20, 1, 1⟩

/-- PWR_GRATE_WAKE.MASK (R451). -/
def pwrGrateWakeMask : Fld := ⟨0x001, 0x02C, 0, 16, 0⟩

/-- PWR_WAKE_CAUSE.CAUSE (R451). -/
def pwrWakeCauseCause : Fld := ⟨0x001, 0x030, 0, 6, 0⟩

/-- PWR_PD_STATE.POWERED (R451). -/
def pwrPdStatePowered : Fld := ⟨0x001, 0x034, 0, 24, 0⟩

/-- PWR_PDnn_CONTROL.REQ (R451). -/
def pwrPdControlReq (i : Nat) : Fld := ⟨0x001, 0x040 + 4 * i, 0, 2, 0⟩

/-- PWR_PDnn_CONTROL.STATE (R451). -/
def pwrPdControlState (i : Nat) : Fld := ⟨0x001, 0x040 + 4 * i, 2, 2, 0⟩

/-- PWR_PDnn_CONTROL.SEC_OWNER (R451). -/
def pwrPdControlSecOwner (i : Nat) : Fld := ⟨0x001, 0x040 + 4 * i, 4, 1, (if i = 18 ∨ i = 20 ∨ i = 22 ∨ i = 23 then 1 else 0)⟩

/-- EMB_CONTROL.HALT (R452). -/
def embControlHalt : Fld := ⟨0x003, 0x008, 0, 1, 0⟩

/-- EMB_CONTROL.ALARM_EN (R452). -/
def embControlAlarmEn : Fld := ⟨0x003, 0x008, 1, 1, 0⟩

/-- EMB_CONTROL.ALARM_PWRON (R452). -/
def embControlAlarmPwron : Fld := ⟨0x003, 0x008, 2, 1, 0⟩

/-- EMB_CONTROL.WAKE_PWRON (R452). -/
def embControlWakePwron : Fld := ⟨0x003, 0x008, 3, 1, 1⟩

/-- EMB_STATUS.HALTED (R452). -/
def embStatusHalted : Fld := ⟨0x003, 0x00C, 0, 1, 0⟩

/-- EMB_STATUS.LOST (R452). -/
def embStatusLost : Fld := ⟨0x003, 0x00C, 1, 1, 1⟩

/-- EMB_STATUS.PWRON (R452). -/
def embStatusPwron : Fld := ⟨0x003, 0x00C, 2, 1, 1⟩

/-- EMB_STATUS.VBAK_LOW (R452). -/
def embStatusVbakLow : Fld := ⟨0x003, 0x00C, 3, 1, 0⟩

/-- EMB_EVENT.ALARM (R452). -/
def embEventAlarm : Fld := ⟨0x003, 0x010, 0, 1, 0⟩

/-- EMB_EVENT.BACKUP (R452). -/
def embEventBackup : Fld := ⟨0x003, 0x010, 1, 1, 0⟩

/-- EMB_EVENT.OSC_FAIL (R452). -/
def embEventOscFail : Fld := ⟨0x003, 0x010, 2, 1, 0⟩

/-- EMB_EVENT.REFUSED (R452). -/
def embEventRefused : Fld := ⟨0x003, 0x010, 3, 1, 0⟩

/-- EMB_EVENT_ENABLE.ENABLES (R452). -/
def embEventEnableEnables : Fld := ⟨0x003, 0x014, 0, 4, 0⟩

/-- EMB_ERROR_CAPTURE.CODE (R452). -/
def embErrorCaptureCode : Fld := ⟨0x003, 0x018, 0, 4, 0⟩

/-- EMB_TICK_LO.TICK_LO (R452). -/
def embTickLoTickLo : Fld := ⟨0x003, 0x020, 0, 32, 0⟩

/-- EMB_TICK_HI.TICK_HI (R452). -/
def embTickHiTickHi : Fld := ⟨0x003, 0x024, 0, 16, 0⟩

/-- EMB_TICK_SET_LO.SET_LO (R452). -/
def embTickSetLoSetLo : Fld := ⟨0x003, 0x028, 0, 32, 0⟩

/-- EMB_TICK_SET_HI.SET_HI (R452). -/
def embTickSetHiSetHi : Fld := ⟨0x003, 0x02C, 0, 16, 0⟩

/-- EMB_ALARM_LO.ALARM_LO (R452). -/
def embAlarmLoAlarmLo : Fld := ⟨0x003, 0x030, 0, 32, 0⟩

/-- EMB_ALARM_HI.ALARM_HI (R452). -/
def embAlarmHiAlarmHi : Fld := ⟨0x003, 0x034, 0, 16, 0⟩

/-- EMB_TRIM.TRIM (R452). -/
def embTrimTrim : Fld := ⟨0x003, 0x038, 0, 8, 0⟩

/-- EMB_VBAK_MV.VBAK_MV (R452). -/
def embVbakMvVbakMv : Fld := ⟨0x003, 0x03C, 0, 16, 0⟩

/-- FGD_STATUS.SYS_ON (R474). -/
def fgdStatusSysOn : Fld := ⟨0x002, 0x00C, 0, 1, 0⟩

/-- FGD_STATUS.CL_ON (R474). -/
def fgdStatusClOn : Fld := ⟨0x002, 0x00C, 1, 3, 0⟩

/-- FGD_STATUS.EXPIRED (R474). -/
def fgdStatusExpired : Fld := ⟨0x002, 0x00C, 4, 1, 0⟩

/-- FGD_STATUS.BANK_PAUSE (R474). -/
def fgdStatusBankPause : Fld := ⟨0x002, 0x00C, 5, 1, 0⟩

/-- FGD_EVENT.SYS_EXPIRED (R474). -/
def fgdEventSysExpired : Fld := ⟨0x002, 0x010, 0, 1, 0⟩

/-- FGD_EVENT.CL_EXPIRED (R474). -/
def fgdEventClExpired : Fld := ⟨0x002, 0x010, 1, 3, 0⟩

/-- FGD_EVENT.REFUSED (R474). -/
def fgdEventRefused : Fld := ⟨0x002, 0x010, 4, 1, 0⟩

/-- FGD_EVENT_ENABLE.ENABLES (R474). -/
def fgdEventEnableEnables : Fld := ⟨0x002, 0x014, 0, 5, 0⟩

/-- FGD_ERROR_CAPTURE.GUARD (R474). -/
def fgdErrorCaptureGuard : Fld := ⟨0x002, 0x018, 0, 3, 0⟩

/-- FGD_SYS_CONFIG.WMIN (R474). -/
def fgdSysConfigWmin : Fld := ⟨0x002, 0x020, 0, 16, 0⟩

/-- FGD_SYS_CONFIG.WMAX (R474). -/
def fgdSysConfigWmax : Fld := ⟨0x002, 0x020, 16, 16, 0⟩

/-- FGD_SYS_SERVICE.KEY (R474). -/
def fgdSysServiceKey : Fld := ⟨0x002, 0x024, 0, 32, 0⟩

/-- FGD_SYS_ELAPSED.ELAPSED (R474). -/
def fgdSysElapsedElapsed : Fld := ⟨0x002, 0x028, 0, 23, 0⟩

/-- FGD_CLk_CONFIG.WMIN16 (R474). -/
def fgdClConfigWmin16 (i : Nat) : Fld := ⟨0x002, 0x030 + 4 * i, 0, 4, 0⟩

/-- FGD_CLk_CONFIG.WMAXP (R474). -/
def fgdClConfigWmaxp (i : Nat) : Fld := ⟨0x002, 0x030 + 4 * i, 4, 8, 0⟩

/-- FGD_LAST.GUARD (R474). -/
def fgdLastGuard : Fld := ⟨0x002, 0x03C, 0, 3, 0⟩

/-- FGD_LAST.EARLY (R474). -/
def fgdLastEarly : Fld := ⟨0x002, 0x03C, 3, 1, 0⟩

/-- FGD_LAST.VALID (R474). -/
def fgdLastValid : Fld := ⟨0x002, 0x03C, 4, 1, 0⟩

/-- SWP_STATUS.BUSY (R475). -/
def swpStatusBusy : Fld := ⟨0x004, 0x00C, 0, 1, 0⟩

/-- SWP_STATUS.VERDICT (R475). -/
def swpStatusVerdict : Fld := ⟨0x004, 0x00C, 1, 2, 0⟩

/-- SWP_EVENT.DONE (R475). -/
def swpEventDone : Fld := ⟨0x004, 0x010, 0, 1, 0⟩

/-- SWP_EVENT.FAIL (R475). -/
def swpEventFail : Fld := ⟨0x004, 0x010, 1, 1, 0⟩

/-- SWP_EVENT.REFUSED (R475). -/
def swpEventRefused : Fld := ⟨0x004, 0x010, 2, 1, 0⟩

/-- SWP_EVENT_ENABLE.ENABLES (R475). -/
def swpEventEnableEnables : Fld := ⟨0x004, 0x014, 0, 3, 0⟩

/-- SWP_ERROR_CAPTURE.CODE (R475). -/
def swpErrorCaptureCode : Fld := ⟨0x004, 0x018, 0, 2, 0⟩

/-- SWP_REQUEST.KIND (R475). -/
def swpRequestKind : Fld := ⟨0x004, 0x020, 0, 4, 0⟩

/-- SWP_REQUEST.INDEX (R475). -/
def swpRequestIndex : Fld := ⟨0x004, 0x020, 4, 8, 0⟩

/-- SWP_REQUEST.GO (R475). -/
def swpRequestGo : Fld := ⟨0x004, 0x020, 12, 1, 0⟩

/-- SWP_RESULT.DONE (R475). -/
def swpResultDone : Fld := ⟨0x004, 0x024, 0, 1, 0⟩

/-- SWP_RESULT.PASS (R475). -/
def swpResultPass : Fld := ⟨0x004, 0x024, 1, 1, 0⟩

/-- SWP_RESULT.ABORTED (R475). -/
def swpResultAborted : Fld := ⟨0x004, 0x024, 2, 1, 0⟩

/-- SWP_RESULT.KIND (R475). -/
def swpResultKind : Fld := ⟨0x004, 0x024, 3, 4, 0⟩

/-- SWP_RESULT.INDEX (R475). -/
def swpResultIndex : Fld := ⟨0x004, 0x024, 7, 8, 0⟩

/-- SWP_SIGNATURE.SIGNATURE (R475). -/
def swpSignatureSignature : Fld := ⟨0x004, 0x028, 0, 32, 0⟩

/-- PKR_CONTROL.DISABLE (R476). -/
def pkrControlDisable : Fld := ⟨0x008, 0x008, 0, 1, 0⟩

/-- PKR_CONTROL.AUTH_ALL (R476). -/
def pkrControlAuthAll : Fld := ⟨0x008, 0x008, 1, 1, 0⟩

/-- PKR_STATUS.AUTH (R476). -/
def pkrStatusAuth : Fld := ⟨0x008, 0x00C, 0, 1, 0⟩

/-- PKR_STATUS.HALTED (R476). -/
def pkrStatusHalted : Fld := ⟨0x008, 0x00C, 1, 1, 0⟩

/-- PKR_STATUS.SANDBOX (R476). -/
def pkrStatusSandbox : Fld := ⟨0x008, 0x00C, 2, 1, 0⟩

/-- PKR_EVENT.HALT (R476). -/
def pkrEventHalt : Fld := ⟨0x008, 0x010, 0, 1, 0⟩

/-- PKR_EVENT.AUTH_FAIL (R476). -/
def pkrEventAuthFail : Fld := ⟨0x008, 0x010, 1, 1, 0⟩

/-- PKR_EVENT.SANDBOX_END (R476). -/
def pkrEventSandboxEnd : Fld := ⟨0x008, 0x010, 2, 1, 0⟩

/-- PKR_EVENT_ENABLE.ENABLES (R476). -/
def pkrEventEnableEnables : Fld := ⟨0x008, 0x014, 0, 3, 0⟩

/-- PKR_SANDBOX_BASE.SB_BASE (R476). -/
def pkrSandboxBaseSbBase : Fld := ⟨0x008, 0x020, 0, 12, 0⟩

/-- TEN_FEATURES.STEPPING (R504). -/
def tenFeaturesStepping : Fld := ⟨0x000, 0x004, 0, 8, 0⟩

/-- TEN_STATUS.WORLD (R504). -/
def tenStatusWorld : Fld := ⟨0x000, 0x00C, 0, 1, 1⟩

/-- TEN_STATUS.ROM (R504). -/
def tenStatusRom : Fld := ⟨0x000, 0x00C, 1, 1, 1⟩

/-- TEN_EVENT.LOCKSTEP (R504). -/
def tenEventLockstep : Fld := ⟨0x000, 0x010, 0, 1, 0⟩

/-- TEN_EVENT.NMI (R504). -/
def tenEventNmi : Fld := ⟨0x000, 0x010, 1, 1, 0⟩

/-- TEN_EVENT_ENABLE.ENABLES (R504). -/
def tenEventEnableEnables : Fld := ⟨0x000, 0x014, 0, 2, 0⟩

/-- TEN_IRQ_S_LO.PEND (R504). -/
def tenIrqSLoPend : Fld := ⟨0x000, 0x020, 0, 32, 0⟩

/-- TEN_IRQ_S_HI.PEND (R504). -/
def tenIrqSHiPend : Fld := ⟨0x000, 0x024, 0, 32, 0⟩

/-- TEN_IRQ_N_LO.PEND (R504). -/
def tenIrqNLoPend : Fld := ⟨0x000, 0x028, 0, 32, 0⟩

/-- TEN_IRQ_N_HI.PEND (R504). -/
def tenIrqNHiPend : Fld := ⟨0x000, 0x02C, 0, 32, 0⟩

/-- TEN_ROM_EXIT.EXIT (R504). -/
def tenRomExitExit : Fld := ⟨0x000, 0x030, 0, 1, 0⟩

/-- TEN_SVC.LEVEL (R504). -/
def tenSvcLevel : Fld := ⟨0x000, 0x034, 0, 2, 2⟩

/-- TEN_SVC.DISCARDS (R504). -/
def tenSvcDiscards : Fld := ⟨0x000, 0x034, 16, 16, 0⟩

/-- SEC_STATUS.PUF_OK (R505). -/
def secStatusPufOk : Fld := ⟨0x009, 0x00C, 0, 1, 0⟩

/-- SEC_STATUS.OEM_VALID (R505). -/
def secStatusOemValid : Fld := ⟨0x009, 0x00C, 1, 4, 0⟩

/-- SEC_STATUS.OEM_REVOKED (R505). -/
def secStatusOemRevoked : Fld := ⟨0x009, 0x00C, 5, 4, 0⟩

/-- SEC_STATUS.OEM_COSIGN (R505). -/
def secStatusOemCosign : Fld := ⟨0x009, 0x00C, 9, 1, 0⟩

/-- SEC_STATUS.DEBUG_KEY (R505). -/
def secStatusDebugKey : Fld := ⟨0x009, 0x00C, 10, 3, 7⟩

/-- SEC_STATUS.FUSE_BUSY (R505). -/
def secStatusFuseBusy : Fld := ⟨0x009, 0x00C, 13, 1, 0⟩

/-- SEC_EVENT.DENIED (R505). -/
def secEventDenied : Fld := ⟨0x009, 0x010, 0, 1, 0⟩

/-- SEC_EVENT.WORLD_FAULT (R505). -/
def secEventWorldFault : Fld := ⟨0x009, 0x010, 1, 1, 0⟩

/-- SEC_EVENT.RANGE (R505). -/
def secEventRange : Fld := ⟨0x009, 0x010, 2, 1, 0⟩

/-- SEC_EVENT.SIG_FAIL (R505). -/
def secEventSigFail : Fld := ⟨0x009, 0x010, 3, 1, 0⟩

/-- SEC_EVENT.FUSE_DONE (R505). -/
def secEventFuseDone : Fld := ⟨0x009, 0x010, 4, 1, 0⟩

/-- SEC_EVENT_ENABLE.ENABLES (R505). -/
def secEventEnableEnables : Fld := ⟨0x009, 0x014, 0, 5, 0⟩

/-- SEC_ERROR_CAPTURE.PAGE (R505). -/
def secErrorCapturePage : Fld := ⟨0x009, 0x018, 0, 10, 0⟩

/-- SEC_ERROR_CAPTURE.REQUESTER (R505). -/
def secErrorCaptureRequester : Fld := ⟨0x009, 0x018, 10, 2, 0⟩

/-- SEC_LS_SPLIT.SPLIT (R505). -/
def secLsSplitSplit : Fld := ⟨0x009, 0x020, 0, 4, 8⟩

/-- SEC_DRAM_BASE.BASE (R505). -/
def secDramBaseBase : Fld := ⟨0x009, 0x024, 0, 16, 0⟩

/-- SEC_DRAM_LIMIT.LIMIT (R505). -/
def secDramLimitLimit : Fld := ⟨0x009, 0x028, 0, 16, 0⟩

/-- SEC_ROLLBACK_SEL.COMPONENT (R505). -/
def secRollbackSelComponent : Fld := ⟨0x009, 0x02C, 0, 3, 0⟩

/-- SEC_ROLLBACK.VALUE (R505). -/
def secRollbackValue : Fld := ⟨0x009, 0x030, 0, 7, 0⟩

/-- SEC_FUSE_CMD.OP (R505). -/
def secFuseCmdOp : Fld := ⟨0x009, 0x034, 0, 4, 0⟩

/-- SEC_FUSE_CMD.ARG (R505). -/
def secFuseCmdArg : Fld := ⟨0x009, 0x034, 4, 7, 0⟩

/-- SEC_FUSE_CMD.TARGET (R505). -/
def secFuseCmdTarget : Fld := ⟨0x009, 0x034, 11, 7, 0⟩

/-- SEC_FUSE_RESULT.RESULT (R505). -/
def secFuseResultResult : Fld := ⟨0x009, 0x038, 0, 3, 0⟩

/-- SEC_DENIED_COUNT.COUNT (R505). -/
def secDeniedCountCount : Fld := ⟨0x009, 0x03C, 0, 32, 0⟩

/-- SEC_FUSE_DATA0.DATA (R505). -/
def secFuseDataData (i : Nat) : Fld := ⟨0x009, 0x040 + 4 * i, 0, 32, 0⟩

/-- SEC_DEVID_PUB0.KEY (R505). -/
def secDevidPubKey (i : Nat) : Fld := ⟨0x009, 0x080 + 4 * i, 0, 32, 0⟩

/-- PCI_STATUS.SPEED (R506). -/
def pciStatusSpeed : Fld := ⟨0x131, 0x00C, 0, 3, 0⟩

/-- PCI_STATUS.WIDTH (R506). -/
def pciStatusWidth : Fld := ⟨0x131, 0x00C, 3, 3, 0⟩

/-- PCI_STATUS.DL_ACTIVE (R506). -/
def pciStatusDlActive : Fld := ⟨0x131, 0x00C, 6, 1, 0⟩

/-- PCI_STATUS.POWER (R506). -/
def pciStatusPower : Fld := ⟨0x131, 0x00C, 7, 2, 0⟩

/-- PCI_EVENT.UNASSIGNED (R506). -/
def pciEventUnassigned : Fld := ⟨0x131, 0x010, 0, 1, 0⟩

/-- PCI_EVENT.OWNER_DISCARD (R506). -/
def pciEventOwnerDiscard : Fld := ⟨0x131, 0x010, 1, 1, 0⟩

/-- PCI_EVENT.BAD_SIZE (R506). -/
def pciEventBadSize : Fld := ⟨0x131, 0x010, 2, 1, 0⟩

/-- PCI_EVENT.LINK_DOWN (R506). -/
def pciEventLinkDown : Fld := ⟨0x131, 0x010, 3, 1, 0⟩

/-- PCI_EVENT.WAKE_REPORT (R506). -/
def pciEventWakeReport : Fld := ⟨0x131, 0x010, 4, 1, 0⟩

/-- PCI_EVENT_ENABLE.ENABLES (R506). -/
def pciEventEnableEnables : Fld := ⟨0x131, 0x014, 0, 5, 0⟩

/-- PCI_ERROR_CAPTURE.OFFSET (R506). -/
def pciErrorCaptureOffset : Fld := ⟨0x131, 0x018, 0, 22, 0⟩

/-- PCI_HOST_ROUTE_LO.ROUTE (R506). -/
def pciHostRouteLoRoute : Fld := ⟨0x131, 0x020, 0, 32, 0⟩

/-- PCI_HOST_ROUTE_HI.ROUTE (R506). -/
def pciHostRouteHiRoute : Fld := ⟨0x131, 0x024, 0, 32, 0⟩

/-- PCI_SW_INT.SOURCE (R506). -/
def pciSwIntSource : Fld := ⟨0x131, 0x028, 0, 5, 0⟩

/-- PCI_SW_CLEAR.CLEAR (R506). -/
def pciSwClearClear : Fld := ⟨0x131, 0x02C, 0, 32, 0⟩

/-- PCI_WAKE_REPORT.CAUSE (R506). -/
def pciWakeReportCause : Fld := ⟨0x131, 0x030, 0, 6, 0⟩

/-- PCI_WAKE_REPORT.DEVICE_FIRST (R506). -/
def pciWakeReportDeviceFirst : Fld := ⟨0x131, 0x030, 6, 1, 0⟩

/-- PCI_IDS.VENDOR (R506). -/
def pciIdsVendor : Fld := ⟨0x131, 0x034, 0, 16, 0⟩

/-- PCI_IDS.DEVICE (R506). -/
def pciIdsDevice : Fld := ⟨0x131, 0x034, 16, 16, 16680⟩

/-- RLN_CONTROL.ALLOW_DESYNC (R520). -/
def rlnControlAllowDesync : Fld := ⟨0x007, 0x008, 0, 1, 0⟩

/-- RLN_STATUS.STATE (R520). -/
def rlnStatusState : Fld := ⟨0x007, 0x00C, 0, 3, 0⟩

/-- RLN_STATUS.DOWN (R520). -/
def rlnStatusDown : Fld := ⟨0x007, 0x00C, 3, 7, 0⟩

/-- RLN_EVENT.READY (R520). -/
def rlnEventReady : Fld := ⟨0x007, 0x010, 0, 1, 0⟩

/-- RLN_EVENT.REFUSED (R520). -/
def rlnEventRefused : Fld := ⟨0x007, 0x010, 1, 1, 0⟩

/-- RLN_EVENT.ACTIVATED (R520). -/
def rlnEventActivated : Fld := ⟨0x007, 0x010, 2, 1, 0⟩

/-- RLN_EVENT.START_FAILED (R520). -/
def rlnEventStartFailed : Fld := ⟨0x007, 0x010, 3, 1, 0⟩

/-- RLN_EVENT.ADVANCED (R520). -/
def rlnEventAdvanced : Fld := ⟨0x007, 0x010, 4, 1, 0⟩

/-- RLN_EVENT_ENABLE.ENABLES (R520). -/
def rlnEventEnableEnables : Fld := ⟨0x007, 0x014, 0, 5, 0⟩

/-- RLN_ERROR_CAPTURE.REASON (R520). -/
def rlnErrorCaptureReason : Fld := ⟨0x007, 0x018, 0, 4, 0⟩

/-- RLN_ERROR_CAPTURE.COMPONENT (R520). -/
def rlnErrorCaptureComponent : Fld := ⟨0x007, 0x018, 4, 3, 0⟩

/-- RLN_ERROR_CAPTURE.OTHER (R520). -/
def rlnErrorCaptureOther : Fld := ⟨0x007, 0x018, 7, 3, 0⟩

/-- RLN_COMMAND.OP (R520). -/
def rlnCommandOp : Fld := ⟨0x007, 0x020, 0, 3, 0⟩

/-- RLN_COMPONENT.COMPONENT (R520). -/
def rlnComponentComponent : Fld := ⟨0x007, 0x024, 0, 3, 0⟩

/-- RLN_STAGE_BASE.STAGE_BASE (R520). -/
def rlnStageBaseStageBase : Fld := ⟨0x007, 0x028, 0, 16, 0⟩

/-- RLN_RECEIVED.RECEIVED (R520). -/
def rlnReceivedReceived : Fld := ⟨0x007, 0x02C, 0, 23, 0⟩

/-- RLN_STAGED.VERSION (R520). -/
def rlnStagedVersion : Fld := ⟨0x007, 0x030, 0, 16, 0⟩

/-- RLN_STAGED.SECVER (R520). -/
def rlnStagedSecver : Fld := ⟨0x007, 0x030, 16, 7, 0⟩

/-- RLN_VER_0.VERSION (R520). -/
def rlnVerVersion (i : Nat) : Fld := ⟨0x007, 0x034 + 4 * i, 0, 16, 0⟩

/-- RLN_VER_0.STATE (R520). -/
def rlnVerState (i : Nat) : Fld := ⟨0x007, 0x034 + 4 * i, 16, 3, 0⟩

/-- RLN_VER_0.SECVER (R520). -/
def rlnVerSecver (i : Nat) : Fld := ⟨0x007, 0x034 + 4 * i, 19, 7, 0⟩

/-- FBX_Ennn_ERROR_CAPTURE.CAUSE (R65). -/
def fbxEErrorCaptureCause (n : Nat) : Fld := ⟨0x040 + n, 0x018, 0, 8, 0⟩

/-- FBX_Ennn_ERROR_CAPTURE.PUSHED (R65). -/
def fbxEErrorCapturePushed (n : Nat) : Fld := ⟨0x040 + n, 0x018, 8, 1, 0⟩

/-- FBX_Ennn_ERROR_CAPTURE.IMPRECISE (R65). -/
def fbxEErrorCaptureImprecise (n : Nat) : Fld := ⟨0x040 + n, 0x018, 9, 1, 0⟩

/-- FBX_Ennn_ERROR_CAPTURE.LDS (R65). -/
def fbxEErrorCaptureLds (n : Nat) : Fld := ⟨0x040 + n, 0x018, 10, 1, 0⟩

end Reg

/-- The fields of a FBXK page. -/
def fbxKFields (n : Nat) : List RegField :=
  [⟨Reg.fbxKEventCreditLedger n, .w1c⟩, ⟨Reg.fbxKEventResponseLedger n, .w1c⟩, ⟨Reg.fbxKEventEngineFailed n, .w1c⟩, ⟨Reg.fbxKEventSpareTaken n, .w1c⟩, ⟨Reg.fbxKEventEnableEnables n, .rw⟩, ⟨Reg.fbxKEngineStateEngineState n, .ro⟩, ⟨Reg.fbxKSparePolicyAuto n, .rw⟩, ⟨Reg.fbxKMapoutMapout n, .wo⟩, ⟨Reg.fbxKCreditLogReclaimed n, .ro⟩]

/-- The fields of a FBXE page. -/
def fbxEFields (n : Nat) : List RegField :=
  [⟨Reg.fbxERoleState n, .ro⟩, ⟨Reg.fbxERoleFolded n, .ro⟩, ⟨Reg.fbxERoleLogical n, .ro⟩, ⟨Reg.fbxERoleFoldLogical n, .ro⟩, ⟨Reg.fbxERoleClasses n, .ro⟩, ⟨Reg.fbxEMapoutMapout n, .wo⟩, ⟨Reg.fbxEErrorCaptureCause n, .ro⟩, ⟨Reg.fbxEErrorCapturePushed n, .ro⟩, ⟨Reg.fbxEErrorCaptureImprecise n, .ro⟩, ⟨Reg.fbxEErrorCaptureLds n, .ro⟩] ++
  (List.range 4).map (fun i => ⟨Reg.fbxEFoldMapMap n i, .ro⟩)

/-- The fields of a DRM page. -/
def drmFields : List RegField :=
  [⟨Reg.drmErrorCaptureGranule, .ro⟩, ⟨Reg.drmErrorCaptureCode, .ro⟩, ⟨Reg.drmConfigMirror, .rwl⟩, ⟨Reg.drmConfigPresent, .ro⟩, ⟨Reg.drmConfigCapacity, .ro⟩, ⟨Reg.drmChStateChState, .ro⟩, ⟨Reg.drmMapoutMapout, .wo⟩, ⟨Reg.drmMapoutReturn, .wo⟩]

/-- The fields of a HRT page. -/
def hrtFields : List RegField :=
  [⟨Reg.hrtControlHostSnapshot, .rw⟩, ⟨Reg.hrtControlScrub, .rw⟩, ⟨Reg.hrtStatusSettling, .ro⟩, ⟨Reg.hrtStatusCaptureBusy, .ro⟩, ⟨Reg.hrtStatusCaptureValid, .ro⟩, ⟨Reg.hrtEventCorrected, .w1c⟩, ⟨Reg.hrtEventUncorrectable, .w1c⟩, ⟨Reg.hrtEventHostDiscard, .w1c⟩, ⟨Reg.hrtEventRingOverflow, .w1c⟩, ⟨Reg.hrtEventCaptureDone, .w1c⟩, ⟨Reg.hrtEventEnableEnables, .rw⟩, ⟨Reg.hrtErrorCaptureOffset, .ro⟩] ++
  [⟨Reg.hrtErrorCaptureKind, .ro⟩, ⟨Reg.hrtForceBaseForceBase, .rw⟩, ⟨Reg.hrtSubstBaseSubstBase, .rw⟩, ⟨Reg.hrtEccCountCorrectedCount, .rw⟩, ⟨Reg.hrtEccCountUncorrCount, .rw⟩, ⟨Reg.hrtInjectDepth, .ro⟩, ⟨Reg.hrtRetainGranules, .ro⟩, ⟨Reg.hrtRetainRanges, .ro⟩, ⟨Reg.hrtRetainCaptureStart, .wo⟩, ⟨Reg.hrtScrubPosPosition, .ro⟩] ++
  (List.range 3).map (fun i => ⟨Reg.hrtClFlipParity i, .ro⟩) ++
  (List.range 3).map (fun i => ⟨Reg.hrtClFlipSettled i, .ro⟩)

/-- The fields of a BLWC page. -/
def blwClFields (n : Nat) : List RegField :=
  [⟨Reg.blwClControlLock n, .rw⟩, ⟨Reg.blwClControlStokeNext n, .rw⟩, ⟨Reg.blwClControlRunAll n, .rw⟩, ⟨Reg.blwClControlResume n, .wo⟩, ⟨Reg.blwClStatusState n, .ro⟩, ⟨Reg.blwClStatusPhase n, .ro⟩, ⟨Reg.blwClStatusTier n, .ro⟩, ⟨Reg.blwClStatusFull n, .ro⟩, ⟨Reg.blwClStatusLocked n, .ro⟩, ⟨Reg.blwClStatusRunOverruns n, .ro⟩, ⟨Reg.blwClStatusErrtaskOff n, .ro⟩, ⟨Reg.blwClEventOverrun n, .w1c⟩] ++
  [⟨Reg.blwClEventStall n, .w1c⟩, ⟨Reg.blwClEventBlockFault n, .w1c⟩, ⟨Reg.blwClEventAuditFault n, .w1c⟩, ⟨Reg.blwClEventTimeStep n, .w1c⟩, ⟨Reg.blwClEventErrtaskOff n, .w1c⟩, ⟨Reg.blwClEventErrListLost n, .w1c⟩, ⟨Reg.blwClEventEnableEnables n, .rw⟩, ⟨Reg.blwClErrorCaptureBlock n, .ro⟩, ⟨Reg.blwClErrorCaptureCause n, .ro⟩, ⟨Reg.blwClPeriodPeriod n, .rw⟩, ⟨Reg.blwClPhaseOffsetPhaseOffset n, .rw⟩, ⟨Reg.blwClStokeNStokeN n, .rw⟩] ++
  [⟨Reg.blwClCycleLoCycleLo n, .ro⟩, ⟨Reg.blwClCycleHiCycleHi n, .ro⟩, ⟨Reg.blwClBoundLoBoundLo n, .ro⟩, ⟨Reg.blwClBoundHiBoundHi n, .ro⟩, ⟨Reg.blwClOverrunsOverruns n, .rw⟩, ⟨Reg.blwClStatsRunRun n, .ro⟩, ⟨Reg.blwClStatsSkipSkip n, .ro⟩, ⟨Reg.blwClStatsAuditAudit n, .ro⟩, ⟨Reg.blwClSolveTimeSolveUs n, .ro⟩, ⟨Reg.blwClSolveMaxSolveMax n, .rw⟩, ⟨Reg.blwClFinishTimeFinishUs n, .ro⟩, ⟨Reg.blwClTaskEngineTaskEngine n, .ro⟩] ++
  [⟨Reg.blwClAuditFaultsAuditFaults n, .rw⟩, ⟨Reg.blwClErrReasonStation n, .ro⟩, ⟨Reg.blwClErrReasonBlockFault n, .ro⟩, ⟨Reg.blwClErrReasonEngineFail n, .ro⟩, ⟨Reg.blwClErrReasonStall n, .ro⟩, ⟨Reg.blwClErrReasonListLost n, .ro⟩, ⟨Reg.blwClErrCountCount n, .ro⟩, ⟨Reg.blwClStartKindKind n, .ro⟩] ++
  (List.range 16).map (fun i => ⟨Reg.blwClErrABlock n i, .ro⟩) ++
  (List.range 16).map (fun i => ⟨Reg.blwClErrACause n i, .ro⟩) ++
  (List.range 16).map (fun i => ⟨Reg.blwClErrBInstance n i, .ro⟩) ++
  (List.range 16).map (fun i => ⟨Reg.blwClErrBNoinst n i, .ro⟩) ++
  (List.range 16).map (fun i => ⟨Reg.blwClErrBLogical n i, .ro⟩)

/-- The fields of a BLW page. -/
def blwFields : List RegField :=
  [⟨Reg.blwControlAuditEn, .rw⟩, ⟨Reg.blwStatusLoaded, .ro⟩, ⟨Reg.blwStatusShortfall, .ro⟩, ⟨Reg.blwStatusBlazeEngines, .ro⟩, ⟨Reg.blwStatusBlazeFolded, .ro⟩, ⟨Reg.blwEventBlazeReservation, .w1c⟩, ⟨Reg.blwEventShortfall, .w1c⟩, ⟨Reg.blwEventLedger, .w1c⟩, ⟨Reg.blwEventInstTableFull, .w1c⟩, ⟨Reg.blwEventFlueLedger, .w1c⟩, ⟨Reg.blwEventEngineLedger, .w1c⟩, ⟨Reg.blwEventEnableEnables, .rw⟩] ++
  [⟨Reg.blwErrorCaptureBlock, .ro⟩, ⟨Reg.blwErrorCaptureKind, .ro⟩, ⟨Reg.blwBlockCtlBlock, .wo⟩, ⟨Reg.blwBlockCtlOp, .wo⟩, ⟨Reg.blwBlockQueryBlock, .rw⟩, ⟨Reg.blwBlockStateState, .ro⟩, ⟨Reg.blwBlockStateDemoted, .ro⟩, ⟨Reg.blwBlockStateFirstRun, .ro⟩, ⟨Reg.blwBlockStateClass, .ro⟩, ⟨Reg.blwBlockStateTier, .ro⟩, ⟨Reg.blwBlockStateLogical, .ro⟩, ⟨Reg.blwShortfallEngines, .ro⟩] ++
  [⟨Reg.blwShortfallDram, .ro⟩, ⟨Reg.blwShortfallHob, .ro⟩, ⟨Reg.blwShortfallChimney, .ro⟩, ⟨Reg.blwShortfallGrate, .ro⟩, ⟨Reg.blwShortfallTurnspit, .ro⟩, ⟨Reg.blwInstDisabledInstDisabled, .ro⟩, ⟨Reg.blwTokenQueryClass, .rw⟩, ⟨Reg.blwTokenQueryTier, .rw⟩, ⟨Reg.blwTokenLedgerAssigned, .ro⟩, ⟨Reg.blwTokenLedgerReturned, .ro⟩, ⟨Reg.blwTokenLedgerOpen, .ro⟩]

/-- The fields of a EDT page. -/
def edtFields : List RegField :=
  [⟨Reg.edtControlRequireSig, .rwl⟩, ⟨Reg.edtStatusState, .ro⟩, ⟨Reg.edtStatusRollbackAvail, .ro⟩, ⟨Reg.edtStatusSwitched, .ro⟩, ⟨Reg.edtStatusRollingBack, .ro⟩, ⟨Reg.edtEventStaged, .w1c⟩, ⟨Reg.edtEventRefused, .w1c⟩, ⟨Reg.edtEventSwitched, .w1c⟩, ⟨Reg.edtEventRolledBack, .w1c⟩, ⟨Reg.edtEventEnableEnables, .rw⟩, ⟨Reg.edtErrorCaptureReason, .ro⟩, ⟨Reg.edtErrorCaptureSection, .ro⟩] ++
  [⟨Reg.edtCommandOp, .wo⟩, ⟨Reg.edtActClassClass, .rw⟩, ⟨Reg.edtActCycleLoCycleLo, .rw⟩, ⟨Reg.edtActCycleHiCycleHi, .rw⟩, ⟨Reg.edtFaultOffsetOffset, .ro⟩, ⟨Reg.edtActiveVersionVersion, .ro⟩, ⟨Reg.edtActiveLayoutHash, .ro⟩, ⟨Reg.edtStagedVersionVersion, .ro⟩, ⟨Reg.edtRollbackVersionVersion, .ro⟩, ⟨Reg.edtPackageLenReceived, .ro⟩, ⟨Reg.edtStageBaseStageBase, .rw⟩, ⟨Reg.edtProgBaseProgBase, .rw⟩] ++
  (List.range 3).map (fun i => ⟨Reg.edtSwitchClCycle i, .ro⟩)

/-- The fields of a CHM page. -/
def chmFields : List RegField :=
  [⟨Reg.chmControlEnable, .rw⟩, ⟨Reg.chmControlAcceptBind, .rw⟩, ⟨Reg.chmControlRequireCert, .rwl⟩, ⟨Reg.chmStatusCoresUp, .ro⟩, ⟨Reg.chmStatusDramBuffers, .ro⟩, ⟨Reg.chmEventHandshakeFail, .w1c⟩, ⟨Reg.chmEventBindRefused, .w1c⟩, ⟨Reg.chmEventEvqFull, .w1c⟩, ⟨Reg.chmEventSegError, .w1c⟩, ⟨Reg.chmEventLegacyNeg, .w1c⟩, ⟨Reg.chmEventLedger, .w1c⟩, ⟨Reg.chmEventEnableEnables, .rw⟩] ++
  [⟨Reg.chmErrorCaptureStation, .ro⟩, ⟨Reg.chmErrorCaptureCode, .ro⟩, ⟨Reg.chmUdpPortPort, .rw⟩, ⟨Reg.chmSessionsSessions, .ro⟩, ⟨Reg.chmBoundBound, .ro⟩, ⟨Reg.chmHandshakeRateRate, .rw⟩, ⟨Reg.chmSessionIdleSeconds, .rw⟩, ⟨Reg.chmEvqBaseEvqBase, .rw⟩, ⟨Reg.chmEvqEntriesLog2, .rw⟩, ⟨Reg.chmEvqHeadHead, .ro⟩, ⟨Reg.chmEvqTailTail, .rw⟩, ⟨Reg.chmBufBaseBufBase, .rw⟩] ++
  [⟨Reg.chmStateBaseStateBase, .rw⟩, ⟨Reg.chmDroppedDropped, .ro⟩]

/-- The fields of a CHMX page. -/
def chmXFields (n : Nat) : List RegField :=
  [⟨Reg.chmXControlMode n, .rw⟩, ⟨Reg.chmXControlJumbo n, .rw⟩, ⟨Reg.chmXControlStations n, .rw⟩, ⟨Reg.chmXControlHost n, .rw⟩, ⟨Reg.chmXControlWitness n, .rw⟩, ⟨Reg.chmXControlPtp n, .rw⟩, ⟨Reg.chmXStatusLink n, .ro⟩, ⟨Reg.chmXStatusSpeed n, .ro⟩, ⟨Reg.chmXStatusMappedOut n, .ro⟩, ⟨Reg.chmXStatusPdOff n, .ro⟩, ⟨Reg.chmXEventLinkChange n, .w1c⟩, ⟨Reg.chmXEventRxFcs n, .w1c⟩] ++
  [⟨Reg.chmXEventRxOverflow n, .w1c⟩, ⟨Reg.chmXEventEnableEnables n, .rw⟩, ⟨Reg.chmXErrorCaptureFirst n, .ro⟩, ⟨Reg.chmXMacLoMacLo n, .rw⟩, ⟨Reg.chmXMacHiMacHi n, .rw⟩, ⟨Reg.chmXAddrIndexIndex n, .rw⟩, ⟨Reg.chmXAddrCtlPrefix n, .rw⟩, ⟨Reg.chmXAddrCtlIpv6 n, .rw⟩, ⟨Reg.chmXAddrCtlVlan n, .rw⟩, ⟨Reg.chmXAddrCtlValid n, .rw⟩, ⟨Reg.chmXRxFramesRxFrames n, .ro⟩, ⟨Reg.chmXTxFramesTxFrames n, .ro⟩] ++
  [⟨Reg.chmXRxDropsRxDrops n, .rw⟩, ⟨Reg.chmXMapoutMapout n, .wo⟩] ++
  (List.range 8).map (fun i => ⟨Reg.chmXVlanVid n i, .rw⟩) ++
  (List.range 8).map (fun i => ⟨Reg.chmXVlanPcp n i, .rw⟩) ++
  (List.range 8).map (fun i => ⟨Reg.chmXVlanValid n i, .rw⟩) ++
  (List.range 4).map (fun i => ⟨Reg.chmXAddrWWord n i, .rw⟩)

/-- The fields of a STN page. -/
def stnFields : List RegField :=
  [⟨Reg.stnErrorCaptureStation, .ro⟩, ⟨Reg.stnErrorCaptureOp, .ro⟩, ⟨Reg.stnErrorCaptureValid, .ro⟩, ⟨Reg.stnSelectStation, .rw⟩, ⟨Reg.stnEntryInfoType, .ro⟩, ⟨Reg.stnEntryInfoClass, .ro⟩, ⟨Reg.stnEntryInfoImageState, .ro⟩, ⟨Reg.stnEntryInfoSession, .ro⟩, ⟨Reg.stnEntryInfoAged, .ro⟩, ⟨Reg.stnEntryInfoPort, .ro⟩, ⟨Reg.stnLastSeqLastSeq, .ro⟩, ⟨Reg.stnCompleteSeqCompleteSeq, .ro⟩] ++
  [⟨Reg.stnAssemblySeqAssemblySeq, .ro⟩, ⟨Reg.stnAssemblyHeld, .ro⟩, ⟨Reg.stnAssemblyCount, .ro⟩, ⟨Reg.stnAgeAgeMs, .ro⟩, ⟨Reg.stnEpochEpoch, .ro⟩, ⟨Reg.stnDropsDrops, .ro⟩, ⟨Reg.stnDropsRestores, .ro⟩, ⟨Reg.stnDiscardsStale, .ro⟩, ⟨Reg.stnDiscardsDup, .ro⟩, ⟨Reg.stnDiscardsBad, .ro⟩, ⟨Reg.stnDiscardsLayout, .ro⟩, ⟨Reg.stnLossesAbandoned, .ro⟩] ++
  [⟨Reg.stnLossesOvertaken, .ro⟩, ⟨Reg.stnLossesRate, .ro⟩, ⟨Reg.stnOutAckOutAck, .ro⟩, ⟨Reg.stnCommandStation, .wo⟩, ⟨Reg.stnCommandOp, .wo⟩]

/-- The fields of a HOB page. -/
def hobFields : List RegField :=
  [⟨Reg.hobControlEnable, .rw⟩, ⟨Reg.hobStatusSeqUp, .ro⟩, ⟨Reg.hobStatusTurnspit, .ro⟩, ⟨Reg.hobEventSeqFault, .w1c⟩, ⟨Reg.hobEventLedger, .w1c⟩, ⟨Reg.hobEventGroupWake, .w1c⟩, ⟨Reg.hobEventEnableEnables, .rw⟩, ⟨Reg.hobErrorCapturePort, .ro⟩, ⟨Reg.hobErrorCaptureCode, .ro⟩, ⟨Reg.hobGroupStandbyStandby, .ro⟩, ⟨Reg.hobGroupWakeWake, .w1c⟩]

/-- The fields of a HOBP page. -/
def hobPFields (n : Nat) : List RegField :=
  [⟨Reg.hobPControlMode n, .rw⟩, ⟨Reg.hobPControlAutoRecover n, .rw⟩, ⟨Reg.hobPControlTimeMaster n, .rw⟩, ⟨Reg.hobPControlSleepOk n, .rw⟩, ⟨Reg.hobPControlRefClass n, .rw⟩, ⟨Reg.hobPStatusEffective n, .ro⟩, ⟨Reg.hobPStatusErrState n, .ro⟩, ⟨Reg.hobPStatusPdOff n, .ro⟩, ⟨Reg.hobPEventBusOff n, .w1c⟩, ⟨Reg.hobPEventErrPassive n, .w1c⟩, ⟨Reg.hobPEventRxOverflow n, .w1c⟩, ⟨Reg.hobPEventRefLost n, .w1c⟩] ++
  [⟨Reg.hobPEventSlept n, .w1c⟩, ⟨Reg.hobPEventSleepCancelled n, .w1c⟩, ⟨Reg.hobPEventWoke n, .w1c⟩, ⟨Reg.hobPEventForeign n, .w1c⟩, ⟨Reg.hobPEventCollision n, .w1c⟩, ⟨Reg.hobPEventEnableEnables n, .rw⟩, ⟨Reg.hobPErrorCaptureCode n, .ro⟩, ⟨Reg.hobPNbtNbrp n, .rw⟩, ⟨Reg.hobPNbtNtseg1 n, .rw⟩, ⟨Reg.hobPNbtNtseg2 n, .rw⟩, ⟨Reg.hobPNbtNsjw n, .rw⟩, ⟨Reg.hobPDbtDbrp n, .rw⟩] ++
  [⟨Reg.hobPDbtDtseg1 n, .rw⟩, ⟨Reg.hobPDbtDtseg2 n, .rw⟩, ⟨Reg.hobPDbtDsjw n, .rw⟩, ⟨Reg.hobPDbtTdc n, .rw⟩, ⟨Reg.hobPDbtTdco n, .rw⟩, ⟨Reg.hobPTxLedgerFree n, .ro⟩, ⟨Reg.hobPTxLedgerPending n, .ro⟩, ⟨Reg.hobPTxLedgerOnBus n, .ro⟩, ⟨Reg.hobPTxCancelBuffer n, .wo⟩, ⟨Reg.hobPTxCancelGo n, .wo⟩, ⟨Reg.hobPTxResultBuffer n, .ro⟩, ⟨Reg.hobPTxResultResult n, .ro⟩] ++
  [⟨Reg.hobPTxResultDevice n, .ro⟩, ⟨Reg.hobPErrCountTec n, .ro⟩, ⟨Reg.hobPErrCountRec n, .ro⟩, ⟨Reg.hobPRxFramesRxFrames n, .ro⟩, ⟨Reg.hobPTxFramesTxFrames n, .ro⟩, ⟨Reg.hobPRxDropsRxDrops n, .rw⟩, ⟨Reg.hobPCountersRefLostCount n, .rw⟩, ⟨Reg.hobPCountersCollisions n, .rw⟩, ⟨Reg.hobPSleepRequest n, .rw⟩, ⟨Reg.hobPSleepWake n, .wo⟩, ⟨Reg.hobPMapoutMapout n, .wo⟩, ⟨Reg.hobPRefOffsetRefOffset n, .rw⟩]

/-- The fields of a ERA page. -/
def eraFields : List RegField :=
  [⟨Reg.eraControlEnable, .rw⟩, ⟨Reg.eraControlTakeoverEn, .rw⟩, ⟨Reg.eraControlAutoSync, .rw⟩, ⟨Reg.eraControlMbo, .rw⟩, ⟨Reg.eraControlUnit, .rwl⟩, ⟨Reg.eraControlLineEn, .rw⟩, ⟨Reg.eraControlWitnessEn, .rw⟩, ⟨Reg.eraStatusLanes, .ro⟩, ⟨Reg.eraStatusRole, .ro⟩, ⟨Reg.eraStatusPartner, .ro⟩, ⟨Reg.eraStatusTimeOk, .ro⟩, ⟨Reg.eraStatusLine, .ro⟩] ++
  [⟨Reg.eraStatusWitnessKey, .ro⟩, ⟨Reg.eraEventLinkLost, .w1c⟩, ⟨Reg.eraEventLinkUp, .w1c⟩, ⟨Reg.eraEventSyncDone, .w1c⟩, ⟨Reg.eraEventSyncRefused, .w1c⟩, ⟨Reg.eraEventDesync, .w1c⟩, ⟨Reg.eraEventTakeover, .w1c⟩, ⟨Reg.eraEventSwapDone, .w1c⟩, ⟨Reg.eraEventSwapRefused, .w1c⟩, ⟨Reg.eraEventLaneDegraded, .w1c⟩, ⟨Reg.eraEventLedger, .w1c⟩, ⟨Reg.eraEventUnitClash, .w1c⟩] ++
  [⟨Reg.eraEventEnableEnables, .rw⟩, ⟨Reg.eraErrorCaptureReason, .ro⟩, ⟨Reg.eraErrorCaptureDesync, .ro⟩, ⟨Reg.eraCommandOp, .wo⟩, ⟨Reg.eraAckTimeoutAckTimeout, .rw⟩, ⟨Reg.eraLedgerCl0, .ro⟩, ⟨Reg.eraLedgerCl1, .ro⟩, ⟨Reg.eraLedgerCl2, .ro⟩, ⟨Reg.eraPartnerStateRole, .ro⟩, ⟨Reg.eraPartnerStateHeld, .ro⟩, ⟨Reg.eraPartnerStateEraVersion, .ro⟩, ⟨Reg.eraPartnerEpochEpoch, .ro⟩] ++
  [⟨Reg.eraPartnerOffsetOffset, .ro⟩, ⟨Reg.eraSyncProgressGranules, .ro⟩, ⟨Reg.eraCountersResends, .rw⟩, ⟨Reg.eraCountersLinkLosses, .rw⟩, ⟨Reg.eraWitnessPortPort, .rw⟩] ++
  (List.range 3).map (fun i => ⟨Reg.eraClAppliedCycle i, .ro⟩) ++
  (List.range 4).map (fun i => ⟨Reg.eraWitnessWWord i, .rw⟩) ++
  (List.range 4).map (fun i => ⟨Reg.eraLErrorsCrcErrors i, .rw⟩) ++
  (List.range 4).map (fun i => ⟨Reg.eraLErrorsUp i, .ro⟩)

/-- The fields of a DMP page. -/
def dmpFields : List RegField :=
  [⟨Reg.dmpControlStrayReclaim, .rw⟩, ⟨Reg.dmpStatusClaimant, .ro⟩, ⟨Reg.dmpStatusListening, .ro⟩, ⟨Reg.dmpStatusCommitPending, .ro⟩, ⟨Reg.dmpEventClaimed, .w1c⟩, ⟨Reg.dmpEventDemoted, .w1c⟩, ⟨Reg.dmpEventHigherSeen, .w1c⟩, ⟨Reg.dmpEventStray, .w1c⟩, ⟨Reg.dmpEventPersisted, .w1c⟩, ⟨Reg.dmpEventEnableEnables, .rw⟩, ⟨Reg.dmpErrorCapturePath, .ro⟩, ⟨Reg.dmpErrorCaptureStation, .ro⟩] ++
  [⟨Reg.dmpEpochEpoch, .ro⟩, ⟨Reg.dmpHighestHighest, .ro⟩, ⟨Reg.dmpPersistedPersisted, .ro⟩, ⟨Reg.dmpListenMsListenMs, .rw⟩, ⟨Reg.dmpListenEffectiveListenMs, .ro⟩, ⟨Reg.dmpCountsClaims, .rw⟩, ⟨Reg.dmpCountsDemotions, .rw⟩]

/-- The fields of a TSP page. -/
def tspFields : List RegField :=
  [⟨Reg.tspControlSelect, .rw⟩, ⟨Reg.tspControlAutoSwitch, .rw⟩, ⟨Reg.tspStatusActive, .ro⟩, ⟨Reg.tspStatusBleeding, .ro⟩, ⟨Reg.tspStatusAState, .ro⟩, ⟨Reg.tspStatusAInLock, .ro⟩, ⟨Reg.tspStatusBState, .ro⟩, ⟨Reg.tspStatusBInLock, .ro⟩, ⟨Reg.tspEventStep, .w1c⟩, ⟨Reg.tspEventHoldover, .w1c⟩, ⟨Reg.tspEventSwitched, .w1c⟩, ⟨Reg.tspEventSwitchRefused, .w1c⟩] ++
  [⟨Reg.tspEventLimit, .w1c⟩, ⟨Reg.tspEventLaunchLate, .w1c⟩, ⟨Reg.tspEventEnableEnables, .rw⟩, ⟨Reg.tspErrorCaptureCode, .ro⟩, ⟨Reg.tspErrorCapturePort, .ro⟩, ⟨Reg.tspSysLoNsLo, .ro⟩, ⟨Reg.tspSysHiNsHi, .ro⟩, ⟨Reg.tspSysFracFrac, .ro⟩, ⟨Reg.tspOffsetLoOffsetLo, .ro⟩, ⟨Reg.tspOffsetHiOffsetHi, .ro⟩, ⟨Reg.tspBleedBleed, .rw⟩, ⟨Reg.tspUtcOffsetSeconds, .rw⟩] ++
  [⟨Reg.tspPortSelectPort, .rw⟩, ⟨Reg.tspPortDomainDomain, .rw⟩, ⟨Reg.tspPortRxLatRxLat, .rw⟩, ⟨Reg.tspPortTxLatTxLat, .rw⟩, ⟨Reg.tspLateCountLateCount, .rw⟩] ++
  (List.range 2).map (fun i => ⟨Reg.tspNNsLoNsLo i, .ro⟩) ++
  (List.range 2).map (fun i => ⟨Reg.tspNNsHiNsHi i, .ro⟩) ++
  (List.range 2).map (fun i => ⟨Reg.tspNFracFrac i, .ro⟩) ++
  (List.range 2).map (fun i => ⟨Reg.tspNIncNsIncNs i, .rw⟩) ++
  (List.range 2).map (fun i => ⟨Reg.tspNIncFracIncFrac i, .rw⟩) ++
  (List.range 2).map (fun i => ⟨Reg.tspNFreqFreq i, .ro⟩) ++
  (List.range 2).map (fun i => ⟨Reg.tspNIntegInteg i, .ro⟩) ++
  (List.range 2).map (fun i => ⟨Reg.tspNFreqLimitFreqLimit i, .rw⟩) ++
  (List.range 2).map (fun i => ⟨Reg.tspNKpKp i, .rw⟩) ++
  (List.range 2).map (fun i => ⟨Reg.tspNKiKi i, .rw⟩) ++
  (List.range 2).map (fun i => ⟨Reg.tspNOffsetLoOffsetLo i, .wo⟩) ++
  (List.range 2).map (fun i => ⟨Reg.tspNOffsetHiOffsetHi i, .wo⟩) ++
  (List.range 2).map (fun i => ⟨Reg.tspNStepThreshStepThresh i, .rw⟩) ++
  (List.range 2).map (fun i => ⟨Reg.tspNHoldoverMsHoldoverMs i, .rw⟩) ++
  (List.range 2).map (fun i => ⟨Reg.tspNLockThreshLockThresh i, .rw⟩) ++
  (List.range 2).map (fun i => ⟨Reg.tspNAdjustLoAdjustLo i, .wo⟩) ++
  (List.range 2).map (fun i => ⟨Reg.tspNAdjustHiAdjustHi i, .wo⟩)

/-- The fields of a GRT page. -/
def grtFields : List RegField :=
  [⟨Reg.grtControlEnable, .rw⟩, ⟨Reg.grtStatusSupplyA, .ro⟩, ⟨Reg.grtStatusSupplyB, .ro⟩, ⟨Reg.grtEventSupplyA, .w1c⟩, ⟨Reg.grtEventSupplyB, .w1c⟩, ⟨Reg.grtEventOverload, .w1c⟩, ⟨Reg.grtEventThermal, .w1c⟩, ⟨Reg.grtEventEnableEnables, .rw⟩, ⟨Reg.grtErrorCaptureChannel, .ro⟩, ⟨Reg.grtErrorCaptureCode, .ro⟩, ⟨Reg.grtPairAliveOut, .rwl⟩, ⟨Reg.grtPairAliveEn, .rwl⟩] ++
  [⟨Reg.grtPairPartner, .rwl⟩, ⟨Reg.grtPairPartnerEn, .rwl⟩, ⟨Reg.grtInStateInState, .ro⟩, ⟨Reg.grtOutStateOutState, .ro⟩, ⟨Reg.grtFaultFault, .ro⟩, ⟨Reg.grtSupplyAMvMv, .ro⟩, ⟨Reg.grtSupplyBMvMv, .ro⟩] ++
  (List.range 16).map (fun i => ⟨Reg.grtGConfigMode i, .rw⟩) ++
  (List.range 16).map (fun i => ⟨Reg.grtGConfigOn i, .rw⟩) ++
  (List.range 16).map (fun i => ⟨Reg.grtGConfigOff i, .rw⟩) ++
  (List.range 16).map (fun i => ⟨Reg.grtGConfigFilter i, .rw⟩) ++
  (List.range 16).map (fun i => ⟨Reg.grtGConfigSafe i, .rw⟩)

/-- The fields of a MNT page. -/
def mntFields : List RegField :=
  [⟨Reg.mntControlBgErase, .rw⟩, ⟨Reg.mntStatusBankBusy, .ro⟩, ⟨Reg.mntStatusReady, .ro⟩, ⟨Reg.mntStatusPfActive, .ro⟩, ⟨Reg.mntStatusRetainPre, .ro⟩, ⟨Reg.mntStatusRetainValid, .ro⟩, ⟨Reg.mntStatusRetainCommitting, .ro⟩, ⟨Reg.mntEventDone, .w1c⟩, ⟨Reg.mntEventRefused, .w1c⟩, ⟨Reg.mntEventEccCorrected, .w1c⟩, ⟨Reg.mntEventEccFail, .w1c⟩, ⟨Reg.mntEventRetainCommitted, .w1c⟩] ++
  [⟨Reg.mntEventRetainRefused, .w1c⟩, ⟨Reg.mntEventLedger, .w1c⟩, ⟨Reg.mntEventPfDone, .w1c⟩, ⟨Reg.mntEventEnableEnables, .rw⟩, ⟨Reg.mntErrorCaptureAddr, .ro⟩, ⟨Reg.mntErrorCaptureCode, .ro⟩, ⟨Reg.mntCmdOp, .wo⟩, ⟨Reg.mntAddrAddr, .rw⟩, ⟨Reg.mntLenLen, .rw⟩, ⟨Reg.mntBufLoBufLo, .rw⟩, ⟨Reg.mntBufHiBufHi, .rw⟩, ⟨Reg.mntResultCode, .ro⟩] ++
  [⟨Reg.mntResultDone, .ro⟩, ⟨Reg.mntDirSeqSeq, .ro⟩, ⟨Reg.mntParamSeqSeq, .ro⟩, ⟨Reg.mntRetainSeqSeq, .ro⟩, ⟨Reg.mntWearMaxErases, .ro⟩, ⟨Reg.mntEccCorrected, .rw⟩, ⟨Reg.mntEccFailed, .rw⟩]

/-- The fields of a ASH page. -/
def ashFields : List RegField :=
  [⟨Reg.ashControlNormalEn, .rw⟩, ⟨Reg.ashStatusFull, .ro⟩, ⟨Reg.ashStatusClearing, .ro⟩, ⟨Reg.ashStatusFlushing, .ro⟩, ⟨Reg.ashStatusDirect, .ro⟩, ⟨Reg.ashEventFull, .w1c⟩, ⟨Reg.ashEventFlushed, .w1c⟩, ⟨Reg.ashEventDropped, .w1c⟩, ⟨Reg.ashEventCleared, .w1c⟩, ⟨Reg.ashEventThreshold, .w1c⟩, ⟨Reg.ashEventEnableEnables, .rw⟩, ⟨Reg.ashErrorCaptureSource, .ro⟩] ++
  [⟨Reg.ashErrorCaptureCode, .ro⟩, ⟨Reg.ashCommandOp, .wo⟩, ⟨Reg.ashBufBaseBufBase, .rw⟩, ⟨Reg.ashFillFill, .ro⟩, ⟨Reg.ashHeadHead, .ro⟩, ⟨Reg.ashSeqSeq, .ro⟩, ⟨Reg.ashRefusedRefused, .ro⟩, ⟨Reg.ashDroppedDropped, .rw⟩, ⟨Reg.ashSecondsSeconds, .ro⟩, ⟨Reg.ashCyclesCycles, .ro⟩]

/-- The fields of a PWR page. -/
def pwrFields : List RegField :=
  [⟨Reg.pwrControlStartHeld, .rw⟩, ⟨Reg.pwrControlRestart, .rw⟩, ⟨Reg.pwrStatusMode, .ro⟩, ⟨Reg.pwrStatusTransition, .ro⟩, ⟨Reg.pwrStatusPf, .ro⟩, ⟨Reg.pwrStatusBankStage, .ro⟩, ⟨Reg.pwrStatusQuick, .ro⟩, ⟨Reg.pwrStatusLastRestart, .ro⟩, ⟨Reg.pwrEventModeChange, .w1c⟩, ⟨Reg.pwrEventPowerFail, .w1c⟩, ⟨Reg.pwrEventPfRecovered, .w1c⟩, ⟨Reg.pwrEventRefused, .w1c⟩] ++
  [⟨Reg.pwrEventRestartRefused, .w1c⟩, ⟨Reg.pwrEventWoke, .w1c⟩, ⟨Reg.pwrEventEnableEnables, .rw⟩, ⟨Reg.pwrErrorCaptureDomain, .ro⟩, ⟨Reg.pwrErrorCaptureCode, .ro⟩, ⟨Reg.pwrErrorCaptureOp, .ro⟩, ⟨Reg.pwrErrorCaptureNormal, .ro⟩, ⟨Reg.pwrCommandOp, .wo⟩, ⟨Reg.pwrResetCausePowerOn, .ro⟩, ⟨Reg.pwrResetCauseResetN, .ro⟩, ⟨Reg.pwrResetCauseFireguard, .ro⟩, ⟨Reg.pwrResetCauseClockLoss, .ro⟩] ++
  [⟨Reg.pwrResetCauseCommand, .ro⟩, ⟨Reg.pwrResetCauseRelining, .ro⟩, ⟨Reg.pwrResetCauseResume, .ro⟩, ⟨Reg.pwrBankDeepMs, .rw⟩, ⟨Reg.pwrBankKeepA, .rw⟩, ⟨Reg.pwrBankKeepB, .rw⟩, ⟨Reg.pwrBankAlarmWake, .rw⟩, ⟨Reg.pwrBankHobWake, .rw⟩, ⟨Reg.pwrBankPerstWake, .rw⟩, ⟨Reg.pwrGrateWakeMask, .rw⟩, ⟨Reg.pwrWakeCauseCause, .ro⟩, ⟨Reg.pwrPdStatePowered, .ro⟩] ++
  (List.range 24).map (fun i => ⟨Reg.pwrPdControlReq i, .rw⟩) ++
  (List.range 24).map (fun i => ⟨Reg.pwrPdControlState i, .ro⟩) ++
  (List.range 24).map (fun i => ⟨Reg.pwrPdControlSecOwner i, .srw⟩)

/-- The fields of a EMB page. -/
def embFields : List RegField :=
  [⟨Reg.embControlHalt, .rw⟩, ⟨Reg.embControlAlarmEn, .rw⟩, ⟨Reg.embControlAlarmPwron, .rw⟩, ⟨Reg.embControlWakePwron, .rw⟩, ⟨Reg.embStatusHalted, .ro⟩, ⟨Reg.embStatusLost, .ro⟩, ⟨Reg.embStatusPwron, .ro⟩, ⟨Reg.embStatusVbakLow, .ro⟩, ⟨Reg.embEventAlarm, .w1c⟩, ⟨Reg.embEventBackup, .w1c⟩, ⟨Reg.embEventOscFail, .w1c⟩, ⟨Reg.embEventRefused, .w1c⟩] ++
  [⟨Reg.embEventEnableEnables, .rw⟩, ⟨Reg.embErrorCaptureCode, .ro⟩, ⟨Reg.embTickLoTickLo, .ro⟩, ⟨Reg.embTickHiTickHi, .ro⟩, ⟨Reg.embTickSetLoSetLo, .wo⟩, ⟨Reg.embTickSetHiSetHi, .wo⟩, ⟨Reg.embAlarmLoAlarmLo, .rw⟩, ⟨Reg.embAlarmHiAlarmHi, .rw⟩, ⟨Reg.embTrimTrim, .rw⟩, ⟨Reg.embVbakMvVbakMv, .ro⟩]

/-- The fields of a FGD page. -/
def fgdFields : List RegField :=
  [⟨Reg.fgdStatusSysOn, .ro⟩, ⟨Reg.fgdStatusClOn, .ro⟩, ⟨Reg.fgdStatusExpired, .ro⟩, ⟨Reg.fgdStatusBankPause, .ro⟩, ⟨Reg.fgdEventSysExpired, .w1c⟩, ⟨Reg.fgdEventClExpired, .w1c⟩, ⟨Reg.fgdEventRefused, .w1c⟩, ⟨Reg.fgdEventEnableEnables, .rw⟩, ⟨Reg.fgdErrorCaptureGuard, .ro⟩, ⟨Reg.fgdSysConfigWmin, .rwl⟩, ⟨Reg.fgdSysConfigWmax, .rwl⟩, ⟨Reg.fgdSysServiceKey, .wo⟩] ++
  [⟨Reg.fgdSysElapsedElapsed, .ro⟩, ⟨Reg.fgdLastGuard, .ro⟩, ⟨Reg.fgdLastEarly, .ro⟩, ⟨Reg.fgdLastValid, .ro⟩] ++
  (List.range 3).map (fun i => ⟨Reg.fgdClConfigWmin16 i, .rwl⟩) ++
  (List.range 3).map (fun i => ⟨Reg.fgdClConfigWmaxp i, .rwl⟩)

/-- The fields of a SWP page. -/
def swpFields : List RegField :=
  [⟨Reg.swpStatusBusy, .ro⟩, ⟨Reg.swpStatusVerdict, .ro⟩, ⟨Reg.swpEventDone, .w1c⟩, ⟨Reg.swpEventFail, .w1c⟩, ⟨Reg.swpEventRefused, .w1c⟩, ⟨Reg.swpEventEnableEnables, .rw⟩, ⟨Reg.swpErrorCaptureCode, .ro⟩, ⟨Reg.swpRequestKind, .wo⟩, ⟨Reg.swpRequestIndex, .wo⟩, ⟨Reg.swpRequestGo, .wo⟩, ⟨Reg.swpResultDone, .ro⟩, ⟨Reg.swpResultPass, .ro⟩] ++
  [⟨Reg.swpResultAborted, .ro⟩, ⟨Reg.swpResultKind, .ro⟩, ⟨Reg.swpResultIndex, .ro⟩, ⟨Reg.swpSignatureSignature, .ro⟩]

/-- The fields of a PKR page. -/
def pkrFields : List RegField :=
  [⟨Reg.pkrControlDisable, .rwl⟩, ⟨Reg.pkrControlAuthAll, .rwl⟩, ⟨Reg.pkrStatusAuth, .ro⟩, ⟨Reg.pkrStatusHalted, .ro⟩, ⟨Reg.pkrStatusSandbox, .ro⟩, ⟨Reg.pkrEventHalt, .w1c⟩, ⟨Reg.pkrEventAuthFail, .w1c⟩, ⟨Reg.pkrEventSandboxEnd, .w1c⟩, ⟨Reg.pkrEventEnableEnables, .rw⟩, ⟨Reg.pkrSandboxBaseSbBase, .rw⟩]

/-- The fields of a TEN page. -/
def tenFields : List RegField :=
  [⟨Reg.tenFeaturesStepping, .ro⟩, ⟨Reg.tenStatusWorld, .ro⟩, ⟨Reg.tenStatusRom, .ro⟩, ⟨Reg.tenEventLockstep, .w1c⟩, ⟨Reg.tenEventNmi, .w1c⟩, ⟨Reg.tenEventEnableEnables, .rw⟩, ⟨Reg.tenIrqSLoPend, .srw⟩, ⟨Reg.tenIrqSHiPend, .srw⟩, ⟨Reg.tenIrqNLoPend, .ro⟩, ⟨Reg.tenIrqNHiPend, .ro⟩, ⟨Reg.tenRomExitExit, .wo⟩, ⟨Reg.tenSvcLevel, .rwl⟩] ++
  [⟨Reg.tenSvcDiscards, .ro⟩]

/-- The fields of a SEC page. -/
def secFields : List RegField :=
  [⟨Reg.secStatusPufOk, .ro⟩, ⟨Reg.secStatusOemValid, .ro⟩, ⟨Reg.secStatusOemRevoked, .ro⟩, ⟨Reg.secStatusOemCosign, .ro⟩, ⟨Reg.secStatusDebugKey, .ro⟩, ⟨Reg.secStatusFuseBusy, .ro⟩, ⟨Reg.secEventDenied, .w1c⟩, ⟨Reg.secEventWorldFault, .w1c⟩, ⟨Reg.secEventRange, .w1c⟩, ⟨Reg.secEventSigFail, .w1c⟩, ⟨Reg.secEventFuseDone, .w1c⟩, ⟨Reg.secEventEnableEnables, .rw⟩] ++
  [⟨Reg.secErrorCapturePage, .ro⟩, ⟨Reg.secErrorCaptureRequester, .ro⟩, ⟨Reg.secLsSplitSplit, .srw⟩, ⟨Reg.secDramBaseBase, .srw⟩, ⟨Reg.secDramLimitLimit, .srw⟩, ⟨Reg.secRollbackSelComponent, .srw⟩, ⟨Reg.secRollbackValue, .ro⟩, ⟨Reg.secFuseCmdOp, .wo⟩, ⟨Reg.secFuseCmdArg, .wo⟩, ⟨Reg.secFuseCmdTarget, .wo⟩, ⟨Reg.secFuseResultResult, .ro⟩, ⟨Reg.secDeniedCountCount, .ro⟩] ++
  (List.range 12).map (fun i => ⟨Reg.secFuseDataData i, .srw⟩) ++
  (List.range 24).map (fun i => ⟨Reg.secDevidPubKey i, .ro⟩)

/-- The fields of a PCI page. -/
def pciFields : List RegField :=
  [⟨Reg.pciStatusSpeed, .ro⟩, ⟨Reg.pciStatusWidth, .ro⟩, ⟨Reg.pciStatusDlActive, .ro⟩, ⟨Reg.pciStatusPower, .ro⟩, ⟨Reg.pciEventUnassigned, .w1c⟩, ⟨Reg.pciEventOwnerDiscard, .w1c⟩, ⟨Reg.pciEventBadSize, .w1c⟩, ⟨Reg.pciEventLinkDown, .w1c⟩, ⟨Reg.pciEventWakeReport, .w1c⟩, ⟨Reg.pciEventEnableEnables, .rw⟩, ⟨Reg.pciErrorCaptureOffset, .ro⟩, ⟨Reg.pciHostRouteLoRoute, .rw⟩] ++
  [⟨Reg.pciHostRouteHiRoute, .rw⟩, ⟨Reg.pciSwIntSource, .wo⟩, ⟨Reg.pciSwClearClear, .w1c⟩, ⟨Reg.pciWakeReportCause, .ro⟩, ⟨Reg.pciWakeReportDeviceFirst, .ro⟩, ⟨Reg.pciIdsVendor, .ro⟩, ⟨Reg.pciIdsDevice, .ro⟩]

/-- The fields of a RLN page. -/
def rlnFields : List RegField :=
  [⟨Reg.rlnControlAllowDesync, .rw⟩, ⟨Reg.rlnStatusState, .ro⟩, ⟨Reg.rlnStatusDown, .ro⟩, ⟨Reg.rlnEventReady, .w1c⟩, ⟨Reg.rlnEventRefused, .w1c⟩, ⟨Reg.rlnEventActivated, .w1c⟩, ⟨Reg.rlnEventStartFailed, .w1c⟩, ⟨Reg.rlnEventAdvanced, .w1c⟩, ⟨Reg.rlnEventEnableEnables, .rw⟩, ⟨Reg.rlnErrorCaptureReason, .ro⟩, ⟨Reg.rlnErrorCaptureComponent, .ro⟩, ⟨Reg.rlnErrorCaptureOther, .ro⟩] ++
  [⟨Reg.rlnCommandOp, .wo⟩, ⟨Reg.rlnComponentComponent, .rw⟩, ⟨Reg.rlnStageBaseStageBase, .rw⟩, ⟨Reg.rlnReceivedReceived, .ro⟩, ⟨Reg.rlnStagedVersion, .ro⟩, ⟨Reg.rlnStagedSecver, .ro⟩] ++
  (List.range 7).map (fun i => ⟨Reg.rlnVerVersion i, .ro⟩) ++
  (List.range 7).map (fun i => ⟨Reg.rlnVerState i, .ro⟩) ++
  (List.range 7).map (fun i => ⟨Reg.rlnVerSecver i, .ro⟩)

/-- The tag code and instance of an assigned page (R480); none for an unassigned one. -/
def pageTag (p : Nat) : Option (Nat × Nat) :=
  if p ≤ 0x009 then some (p + 1, 0)
  else if 0x010 ≤ p ∧ p ≤ 0x013 then some (0x00B, p - 0x010)
  else if 0x014 ≤ p ∧ p ≤ 0x019 then some (p - 0x014 + 0x00C, 0)
  else if 0x020 ≤ p ∧ p ≤ 0x02F then some (0x012, p - 0x020)
  else if 0x040 ≤ p ∧ p ≤ 0x0CF then some (0x012, 0x100 + (p - 0x040))
  else if p = 0x100 then some (0x013, 0x3FF)
  else if 0x101 ≤ p ∧ p ≤ 0x128 then some (0x013, p - 0x101)
  else if p = 0x130 then some (0x014, 0)
  else if p = 0x131 then some (0x015, 0)
  else if p = 0x140 then some (0x016, 0)
  else if p = 0x200 then some (0x017, 0x3FF)
  else if 0x201 ≤ p ∧ p ≤ 0x2C0 then some (0x017, p - 0x201)
  else none

/-- OWNER at reset (R480): WORLD, HOST_R, HOST_W. -/
def ownerReset (p : Nat) : Nat × Nat × Nat :=
  if p = 0x007 then (1, 1, 1)
  else if p = 0x000 ∨ p = 0x002 ∨ p = 0x003 ∨ p = 0x008 ∨ p = 0x009 then (1, 1, 0)
  else if p = 0x005 then (0, 0, 0)
  else (0, 1, 1)

namespace Reg

/-- OWNER.WORLD of a page (R481). -/
def ownerWorld (p : Nat) : Fld := ⟨p, 0x01C, 0, 1, (ownerReset p).1⟩

/-- OWNER.HOST_R of a page (R481). -/
def ownerHostR (p : Nat) : Fld := ⟨p, 0x01C, 1, 1, (ownerReset p).2.1⟩

/-- OWNER.HOST_W of a page (R481). -/
def ownerHostW (p : Nat) : Fld := ⟨p, 0x01C, 2, 1, (ownerReset p).2.2⟩

/-- OWNER.LOCK of a page (R481). -/
def ownerLock (p : Nat) : Fld := ⟨p, 0x01C, 3, 1, 0⟩

/-- The version field of ID (R9, R480). -/
def idVersion (p : Nat) : Fld := ⟨p, 0x000, 0, 10, 1⟩

/-- The instance field of ID (R9, R480). -/
def idInstance (p : Nat) : Fld := ⟨p, 0x000, 10, 10, ((pageTag p).getD (0, 0)).2⟩

/-- The tag field of ID (R9, R480). -/
def idTag (p : Nat) : Fld := ⟨p, 0x000, 20, 12, ((pageTag p).getD (0, 0)).1⟩

end Reg

/-- The fields every page has: ID and OWNER (R9, R480, R481). -/
def commonFields (p : Nat) : List RegField :=
  [⟨Reg.idVersion p, .ro⟩, ⟨Reg.idInstance p, .ro⟩, ⟨Reg.idTag p, .ro⟩,
   ⟨Reg.ownerWorld p, .sw⟩, ⟨Reg.ownerHostR p, .sw⟩, ⟨Reg.ownerHostW p, .sw⟩, ⟨Reg.ownerLock p, .sw⟩]

/-- The block-specific fields of a page. -/
def blockFields (p : Nat) : List RegField :=
  if p = 0x000 then tenFields
  else if p = 0x001 then pwrFields
  else if p = 0x002 then fgdFields
  else if p = 0x003 then embFields
  else if p = 0x004 then swpFields
  else if p = 0x005 then mntFields
  else if p = 0x006 then ashFields
  else if p = 0x007 then rlnFields
  else if p = 0x008 then pkrFields
  else if p = 0x009 then secFields
  else if 0x010 ≤ p ∧ p ≤ 0x012 then blwClFields (p - 0x010)
  else if p = 0x013 then blwFields
  else if p = 0x014 then hrtFields
  else if p = 0x015 then edtFields
  else if p = 0x016 then eraFields
  else if p = 0x017 then dmpFields
  else if p = 0x018 then tspFields
  else if p = 0x019 then grtFields
  else if 0x020 ≤ p ∧ p ≤ 0x02F then fbxKFields (p - 0x020)
  else if 0x040 ≤ p ∧ p ≤ 0x0CF then fbxEFields (p - 0x040)
  else if p = 0x100 then chmFields
  else if 0x101 ≤ p ∧ p ≤ 0x128 then chmXFields (p - 0x101)
  else if p = 0x130 then drmFields
  else if p = 0x131 then pciFields
  else if p = 0x140 then stnFields
  else if p = 0x200 then hobFields
  else if 0x201 ≤ p ∧ p ≤ 0x2C0 then hobPFields (p - 0x201)
  else []

/-- Every field of the register at a page and host byte offset. -/
def regFields (p off : Nat) : List RegField :=
  (commonFields p ++ blockFields p).filter (fun r => r.fld.off = off)

end Sys2Proof.Machine
end

