-- ==== Sys2Proof/Machine/Sparse.lean ====
section
/-! DEFINITION. Sparse stores: a list of key and value pairs with strictly rising keys, in which no value equals what an
unlisted key reads as. Every memory, register file and table of the device is held in this form. -/

namespace Sys2Proof.Machine

/-- A sparse store of `α` (a memory of bytes is a list of `Host.Cell`). -/
abbrev Sparse (α : Type) := List (Nat × α)

/-- What `k` reads as, where an unlisted key reads `d`. -/
def Sparse.get {α : Type} (m : Sparse α) (d : α) (k : Nat) : α :=
  match m with
  | [] => d
  | (a, v) :: rest => if a = k then v else Sparse.get rest d k

/-- The store without `k`. -/
def Sparse.erase {α : Type} (m : Sparse α) (k : Nat) : Sparse α :=
  match m with
  | [] => []
  | (a, v) :: rest => if a = k then Sparse.erase rest k else (a, v) :: Sparse.erase rest k

/-- The entry `(k, v)` put in its place among rising keys. -/
def Sparse.insert {α : Type} (m : Sparse α) (k : Nat) (v : α) : Sparse α :=
  match m with
  | [] => [(k, v)]
  | (a, u) :: rest => if k < a then (k, v) :: (a, u) :: rest else (a, u) :: Sparse.insert rest k v

/-- The store after `v` is written at `k`, where an unlisted key reads `d`. -/
def Sparse.put {α : Type} [DecidableEq α] (m : Sparse α) (d : α) (k : Nat) (v : α) : Sparse α :=
  if v = d then Sparse.erase m k else Sparse.insert (Sparse.erase m k) k v

/-- The values written at `k`, `k + 1`, … in order. -/
def Sparse.putMany {α : Type} [DecidableEq α] (m : Sparse α) (d : α) (k : Nat) (vs : List α) : Sparse α :=
  match vs with
  | [] => m
  | v :: rest => Sparse.putMany (Sparse.put m d k v) d (k + 1) rest

/-- `n` values read from `k` on. -/
def Sparse.getMany {α : Type} (m : Sparse α) (d : α) (k n : Nat) : List α :=
  (List.range n).map fun i => Sparse.get m d (k + i)

/-- The store in which every key of [`lo`, `hi`) reads as unlisted. -/
def Sparse.clear {α : Type} (m : Sparse α) (lo hi : Nat) : Sparse α :=
  m.filter fun e => !(decide (lo ≤ e.1) && decide (e.1 < hi))

/-- Every key is above `k`. -/
def Sparse.above {α : Type} (k : Nat) (m : Sparse α) : Bool := m.all fun e => decide (k < e.1)

/-- The canonical form: keys strictly rising, no entry equal to `d`. -/
def Sparse.wf {α : Type} [DecidableEq α] (d : α) (m : Sparse α) : Bool :=
  match m with
  | [] => true
  | (a, v) :: rest => Sparse.above a rest && decide (v ≠ d) && Sparse.wf d rest

/-- A byte of Mantel that nothing has programmed since its erase (R398). -/
def erasedByte : Byte := 0xFF

/-- The canonical form of the byte memory of Mantel. -/
def Memory.wf (m : List Host.Cell) : Bool := Sparse.wf erasedByte m

end Sys2Proof.Machine
end

