-- ==== Sys2Proof/Machine/Types.lean ====
section
/-! DEFINITION. The parts of the state that are no register fields: cores, Hearth, programs, classes, stations, ports,
the pair, Mantel and the rest, as plain data. -/

namespace Sys2Proof.Machine

/-- The stack pointer and stack window of one world (R83, R97). -/
structure Bank where
  w31 : W36
  stkLo : W36
  stkHi : W36
  deriving DecidableEq, Repr

/-- Whether a core issues, and what it waits for (R94, R143, R146, R170). -/
inductive Issue where
  | idle
  | running
  | fenceWait
  | wfiWait
  | bendWait
  | lockedUp
  deriving DecidableEq, Repr

/-- An outstanding load (R75): its own address, the registers it will write with their values, the address it is of and all that it
covers (for a read of both views, the previous view's too), whether
its data is uncorrectable (R132), whether it stood in a load-delay slot (R90), and how many instructions have retired since
it issued, itself the first (R88). -/
structure Load where
  pc : W36
  dests : List (Reg × W36)
  addr : W36
  covers : List Nat
  bad : Bool
  inSlot : Bool
  age : Nat
  deriving DecidableEq, Repr

/-- A posted store (R78): a whole-word store of one or two words, or a point write of R160, the world that issued it, and
the instance of an instanced block that did (R170). -/
structure Store where
  addr : W36
  vals : List W36
  point : Option (BitVec 5)
  secure : Bool
  inst : Option Nat
  deriving DecidableEq, Repr

/-! The Flue -/

/-- The four virtual channels (R19). -/
inductive Channel4 where
  | vc0
  | vc1
  | vc2
  | vc3
  deriving DecidableEq, Repr

/-- What a packet does: a request to load, store or fetch at an address, a tier token, work handed to an engine, or the response
to the request for an address. -/
inductive PacketKind where
  | load
  | store
  | token
  | fetch
  | dispatch
  | response (of : W36)
  deriving DecidableEq, Repr

/-- The data flits of a packet: 0 to 8 (R18). -/
abbrev Payload := { ws : List W36 // ws.length ≤ 8 }

/-- A header flit (R18): destination (an address, or a node's number for tokens, work and responses), source, virtual channel,
kind and length: the data flits, or the words that a request without data asks for. -/
structure Header where
  dest : W36
  src : Nat
  channel : Channel4
  kind : PacketKind
  length : Nat
  deriving DecidableEq, Repr

/-- A flit (R18): one 36-bit word, a header's or data, and a 4-bit control tag. -/
structure Flit where
  word : W36
  tag : BitVec 4
  deriving DecidableEq, Repr

/-- A packet (R18): one header flit and 0 to 8 data flits. -/
structure Packet where
  header : Header
  data : Payload
  deriving DecidableEq, Repr

/-- A packet on a link: the credits that it took from its channel's reserved pool and from the shared pool, and, once its
flits lie in the slots of the receiving end, the place of its arrival among all arrivals (R20, R21). -/
structure Sent where
  packet : Packet
  own : Nat
  shared : Nat
  arrived : Option Nat
  deriving DecidableEq, Repr

/-- A link of the Flue (R20, R21): the credits that the sender holds in each pool of R20, the packets that wait for
credits, and those whose flits are in transit or occupy slots, both in the order sent (R23). -/
structure Link where
  own0 : Nat
  own1 : Nat
  own2 : Nat
  own3 : Nat
  shared : Nat
  waiting : List Packet
  sent : List Sent
  deriving DecidableEq, Repr

/-- The Flue beyond the cores' own links (R18-R24; log 47): each arbiter's place in its round, the links by number, how many
packets have arrived at a link's end, the requests of each source that await their response, and those that wait for a
response slot. -/
structure Fabric where
  places : Sparse Nat
  links : Sparse Link
  arrivals : Nat
  awaited : Sparse Nat
  blocked : List Packet
  deriving DecidableEq, Repr

/-- Work for one engine (R193, R199): a block, or the instances of a slice that run, each with its audit decision. -/
structure Work where
  block : Nat
  logical : Nat
  cls : Nat
  tier : Nat
  insts : Option (List (Nat × Bool))
  audit : Bool
  deriving DecidableEq, Repr

/-- The block an engine runs (R112, R197): its work, the running instance, the write windows, and the instances (none for a
block without) whose stores are audited and have shown no difference yet (R204). -/
structure Running where
  work : Work
  inst : Option Nat
  windows : List (Nat × Nat)
  audits : List (Option Nat)
  sandbox : Bool
  deriving DecidableEq, Repr

/-- A core (R56-R62, R74-R78, R467). System registers are keyed by number, `dbg` by Poker register number; `lsBad` holds the
local-store words whose check fails (R31, R87), `link` the core's link into the Flue, `entryNs` the Bellows count of ns at
the entry of its block or instance (R210), on an engine that fails or loads as a spare the count at that failure (R36), and on the Tender
the ns since reset in which its clock stood (R172, R443);
`codeOf` is the logical engine whose code its local store holds (R33, R34), `brkNum` the number of the BRK that halted it
(R145). -/
structure Core where
  w : Sparse W36
  secure : Bank
  normal : Bank
  pc : W36
  psw : W36
  sys : Sparse W36
  ls : Sparse W36
  slot : List (Reg × W36)
  afterLoad : Bool
  loads : List Load
  stores : List Store
  link : Link
  lsBad : List Nat
  entryNs : Nat
  codeOf : Option Nat
  brkNum : Nat
  issue : Issue
  halted : Bool
  haltReq : Bool
  haltCause : Nat
  haltUnread : Bool
  run : Option Running
  queue : List Work
  dbg : Sparse W36
  deriving DecidableEq, Repr

/-- A stir-map plane, written-mask plane or other map with one default for every key that it does not list. -/
structure Plane where
  dflt : Nat
  map : Sparse Nat
  deriving DecidableEq, Repr

/-- What waits in the injection queue of R118: a queued write to an image word. -/
structure Inject where
  word : Nat
  val : W36
  deriving DecidableEq, Repr

/-- The Hearth (R99-R132). Image words are keyed by 32 j + i, granules by image granule index j; `held` are the host writes that
wait for room in the queue (R118), `lostControl` the class control words that read as their replacement until the next flip,
`asked` the granules that a Standby has requested and not yet been sent (R132). -/
structure Hearth where
  copyA : Sparse W36
  copyB : Sparse W36
  sel : Sparse Bool
  mask00 : Sparse Nat
  mask01 : Sparse Nat
  mask10 : Sparse Nat
  mask11 : Sparse Nat
  mask20 : Sparse Nat
  mask21 : Sparse Nat
  stir00 : Plane
  stir01 : Plane
  stir10 : Plane
  stir11 : Plane
  stir20 : Plane
  stir21 : Plane
  classMap : Sparse Nat
  hints : Sparse Nat
  rings : Sparse W32
  evHead : Sparse Nat
  evStart : Sparse Nat
  evEnd : Sparse Nat
  evLost : Sparse Nat
  retain : List (Nat × Nat)
  capture : List W36
  captureRanges : List (Nat × Nat)
  inject : List Inject
  held : List Inject
  lostControl : List Nat
  replace : List Nat
  bad : List Nat
  scrubBad : List Nat
  asked : List Nat
  deriving DecidableEq, Repr

/-- One word of a read signature (R191). -/
structure SigWord where
  gran : Nat
  len : Nat
  rel : Bool
  deriving DecidableEq, Repr

/-- A block descriptor (R188) with the signature and instance table it refers to (R191, R197). -/
structure Desc where
  id : Nat
  cls : Nat
  pure : Bool
  always : Bool
  inst : Bool
  auditExempt : Bool
  task : Nat
  entry : W36
  logical : Nat
  spread : Nat
  tier : Nat
  budget : Nat
  sigOff : Nat
  sig : List SigWord
  windows : List (Nat × Nat)
  itabOff : Nat
  itab : List (W36 × W36)
  deriving DecidableEq, Repr

/-- The CLASS section's entry of one class (R225). -/
structure ClassCfg where
  period : Nat
  phaseOffset : Nat
  stokeN : Nat
  lock : Bool
  deriving DecidableEq, Repr

/-- The ENGINE section's entry of one logical engine (R225). -/
structure EngineCfg where
  classes : Nat
  stkLo : W36
  stkHi : W36
  codeLimit : W36
  deriving DecidableEq, Repr

/-- A declared station: kind 1 Draught, 2 legacy, 4 bus (R265, R315). -/
structure StationDecl where
  kind : Nat
  num : Nat
  cls : Nat
  outMode : Bool
  resend : Bool
  events : Bool
  outAck : Bool
  ibBase : Nat
  ibCount : Nat
  iwBase : Nat
  iwCount : Nat
  obBase : Nat
  obCount : Nat
  owBase : Nat
  owCount : Nat
  layoutHash : Nat
  periodMs : Nat
  ageLimit : Nat
  ageWarn : Nat
  idHash : Nat
  ca : Nat
  orig : Nat
  points : List (Nat × Nat)
  addr : Nat
  tcpPort : Nat
  t1 : Nat
  t2 : Nat
  t3 : Nat
  k : Nat
  w : Nat
  giS : Nat
  csMin : Nat
  deriving DecidableEq, Repr

/-- A declared Hob port (R315, TYPE 0x3). -/
structure PortDecl where
  port : Nat
  nbt : Nat
  dbt : Nat
  refClass : Nat
  timeMaster : Bool
  sleepOk : Bool
  refOffset : Nat
  deriving DecidableEq, Repr

/-- A declared Grate channel (R388, TYPE 0x5). -/
structure ChanDecl where
  chan : Nat
  cls : Nat
  mode : Nat
  safe : Bool
  on : Nat
  off : Nat
  filter : Nat
  point : Nat
  deriving DecidableEq, Repr

/-- A migration entry (R226); `init` holds the INIT words that it writes. -/
structure Migration where
  op : Nat
  cls : Nat
  count : Nat
  dest : Nat
  src : Nat
  init : List W36
  deriving DecidableEq, Repr

/-- A program (R221-R226): a package resolved against the program it changes. -/
structure Program where
  id : Nat
  version : Nat
  layout : Nat
  reqEngines : Nat
  reqDram : Bool
  reqTurnspit : Bool
  reqHob : Bool
  reqChimney : Bool
  reqGrate : Bool
  dramFree : Bool
  full : Bool
  digest : List W32
  classes : List ClassCfg
  engines : List EngineCfg
  descs : List Desc
  ranges : List (Nat × Nat × Nat)
  retain : List (Nat × Nat)
  imports : List (Nat × Nat × Nat)
  stations : List StationDecl
  ports : List PortDecl
  chans : List ChanDecl
  codeLs : List (Nat × Nat × List W36)
  codeDram : List (Nat × List W36)
  migrate : List Migration
  changed : List Nat
  deriving DecidableEq, Repr

/-- One tier of a running cycle (R192, R193): engines assigned and tokens still owed. -/
structure TierRt where
  tier : Nat
  assigned : List Nat
  owed : List Nat
  isOpen : Bool
  deriving DecidableEq, Repr

/-- An error-list entry (R213). -/
structure ErrEntry where
  block : Nat
  cause : Nat
  inst : Option Nat
  logical : Nat
  deriving DecidableEq, Repr

/-- The way of a packet (R249): port, peer, the next hop's address, and the VLAN ID and priority that it is tagged with. -/
structure Route where
  port : Nat
  peer : Peer
  via : Nat
  tag : Option (Nat × Nat)
  deriving DecidableEq, Repr

/-- The head of an ASDU that the unit sends (R280): type identification, cause of transmission (bit 6 set: negative), originator
(ORIG, R265) and common address. -/
structure AsduHead where
  typeId : Nat
  cause : Nat
  orig : Nat
  ca : Nat
  deriving DecidableEq, Repr

/-- What the unit sends to the outside, in the order sent (log 7). -/
inductive Output where
  /-- A Draught frame on a session, with the way it takes (R249, R253, R256). -/
  | draught (session : Nat) (way : Route) (frame : List Byte)
  /-- A DTLS handshake answer: 1 cookie request, 2 continue, 3 finished, 4 alert, 5 KeyUpdate, 6 close (R251). -/
  | dtls (session : Nat) (port : Nat) (what : Nat)
  /-- A TCP connection opened to a legacy station (R278). -/
  | tcpOpen (station : Nat) (way : Route)
  /-- A legacy APDU: kind 2 close, 3 STARTDT act, 4 STOPDT act, 5 TESTFR act, 6 TESTFR con, 7 S-format,
  8 C_IC, 9 C_CS, 10 command (IOA, value), 11 negative answer (type, cause), 12 KeyUpdate (R279-R284); with the head of the ASDU
  that an I-format APDU carries. -/
  | legacy (station : Nat) (kind : Nat) (ioa : Nat) (value : Nat) (asdu : Option AsduHead)
  /-- A CAN FD frame that completed (R298). -/
  | can (port : Nat) (ident : Nat) (brs : Bool) (payload : List Byte)
  /-- An Erair cell on its lane: 72 bytes (R329, R330). -/
  | cell (lane : Nat) (bytes : List Byte)
  /-- A witness datagram of 40 bytes (R356). -/
  | witness (way : Route) (bytes : List Byte)
  /-- An MSI-X message of a vector: the write of its data to its address (R485). -/
  | msix (vector : Nat) (addr : Nat) (data : Nat)
  /-- A PME message (R502). -/
  | pme
  /-- A UART answer frame as it is sent (R490). -/
  | uart (frame : List Byte)
  /-- A Poker answer: ACK, data and parity (R464, R465). -/
  | poker (answer : BitVec 40)
  /-- Data of a host read (R11, R12, R135). -/
  | hostData (data : List Byte)
  /-- A mailbox message delivered to a world: 3 normal, 4 secure (R487). -/
  | mailMessage (mailbox : Nat) (kind : Nat) (data : List Byte)
  /-- A UART message delivered to a world (R491). -/
  | uartMessage (kind : Nat) (data : List Byte)
  /-- An ARP or neighbour-discovery answer (R249). -/
  | arp (port : Nat) (addr : Nat)
  /-- A PTP event message with its stamp: domain, ns and fraction (R379). -/
  | ptpStamp (port : Nat) (message : Nat) (domain : Nat) (ns : Nat) (frac : Nat)
  deriving DecidableEq, Repr

/-- What a unit tells its partner over Erair (R330): a heartbeat, a record, an acknowledgement of class, cycle and result (1 applied,
2 NAK), a message (1 HANDOVER, 2 arm, 3 arm acknowledge, 4 disarm, 5 RELEASE, 6 version, 7 desynchronize, 8 granule request, 9
synchronization request), the states that end a copy, or one image granule with both views. -/
inductive ErairItem where
  | heartbeat (h : Heartbeat)
  | record (r : CycleRecord)
  | ack (cls : Nat) (cycle : Nat) (result : Nat)
  | message (kind : Nat) (args : List Nat)
  | states (x : SyncStates)
  | copy (granule : Nat) (current previous : List W36)
  deriving DecidableEq, Repr

/-- What waits for the release of a cycle's outputs (R187, R339): an output image with its sequence, or the state of a Grate
channel. -/
inductive Held where
  | image (station : Nat) (seq : Nat) (words : List W36)
  | grate (chan : Nat) (on : Bool)
  deriving DecidableEq, Repr

/-- The runtime of a class that no register shows (R177-R214). `number` is the number of the last boundary, `jump` says
that the next one may skip numbers, `stepped` that a step of system time has passed boundaries since, and `passedTo` the time up to
which their numbers are not run (R181), `boundNs` the Bellows count of ns at the last boundary (R179), `switchDigest` the digest of
the package of the class's last switch (R243), `runAll` that the next cycle
runs every block and `allNow` that the running one does (R201), `taskDone` that the start task has had its cycle (R212),
`record` is the captured cycle record. -/
structure ClassRt where
  finished : Bool
  mirrored : Bool
  settled : Bool
  solved : Bool
  aborted : Bool
  ran : Bool
  startedAt : Nat
  lastBound : Option Nat
  boundNs : Option Nat
  number : Option Nat
  jump : Bool
  missedFull : Bool
  resume : Bool
  runAll : Bool
  allNow : Bool
  stepped : Bool
  passedTo : Nat
  taskDone : Bool
  overran : Bool
  stalledNow : Bool
  switchNow : Bool
  switchDigest : List W32
  kindTask : Nat
  errStation : Bool
  errBlock : Bool
  errEngine : Bool
  errNext : List ErrEntry
  errLost : Bool
  errDue : Bool
  errStall : Bool
  errRunning : Bool
  errFaults : Nat
  tiers : List TierRt
  inflight : List (Nat × Nat)
  dispatched : List (Nat × Nat × List Nat)
  claims : List (Nat × Nat)
  poison : List (Nat × Nat)
  faults : Bool
  blocksLog : List BlockEntry
  stationsLog : List (Nat × Nat)
  eventsLog : List (W36 × W36)
  run : Nat
  skip : Nat
  audits : Nat
  solveAt : Nat
  solveUs : Nat
  waiting : List (Nat × List Held)
  launch : List Held
  firstOut : Bool
  lastDone : Nat
  record : Option CycleRecord
  deriving DecidableEq, Repr

/-- The runtime state of a block (R204, R205, R211): 0 enabled, 1 disabled by fault, 2 disabled by software. -/
structure BlockRt where
  state : Nat
  demoted : Bool
  firstRun : Bool
  deriving DecidableEq, Repr

/-- A station image in a buffer (R267). -/
structure Image where
  seq : Nat
  words : List W36
  time : Nat
  ackReq : Bool
  deriving DecidableEq, Repr

/-- The assembly buffer of a station (R268): segments held by index. -/
structure Assembly where
  seq : Nat
  count : Nat
  held : List (Nat × List W36)
  ackReq : Bool
  deriving DecidableEq, Repr

/-- A station's runtime (R267-R274, R283, R284, R288). `legacy` is 0 none, 1 connecting, 2 connected without TLS, 3 stopped,
4 started; `out` is the image last sent, `outNew` the image last queued, `heard` when a frame or APDU last came in,
`uOut` the unconfirmed U-format, 1 STARTDT or 2 STOPDT, `waitI` the I-format APDUs that the k window holds back (R279, R280),
`completions` the latest image completions with their times (R360), `via` the port of a legacy connection (R278), and `due` what a
command leaves for the class's next Intake: 1 the word of the state array, 2 the ring entry of a drop too (R271, R272). -/
structure StationRt where
  state : Nat
  aged : Bool
  waitFrom : Option Nat
  ageFrom : Option Nat
  lastSeq : Nat
  completeSeq : Option Nat
  completeAt : Option Nat
  completions : List (Nat × Nat)
  assembly : Option Assembly
  complete : Option Image
  latched : Option Image
  out : List W36
  outSeq : Nat
  outValid : Bool
  outNew : Option (List W36)
  heard : Option Nat
  epoch : Nat
  port : Nat
  via : Nat
  due : Nat
  session : Option Nat
  drops : Nat
  restores : Nat
  stale : Nat
  dup : Nat
  bad : Nat
  layoutN : Nat
  abandoned : Nat
  overtaken : Nat
  rate : Nat
  outAck : Nat
  ageMs : Nat
  uOut : Nat
  legacy : Nat
  retryS : Nat
  tls13 : Bool
  sendSeq : Nat
  recvSeq : Nat
  unacked : Nat
  unsent : Nat
  waitI : List (Nat × Nat × Nat)
  interrogating : Bool
  testOut : Bool
  confirmed : Sparse W32
  pendingCmds : List (Nat × W32)
  negHold : List Nat
  rxWords : Sparse W36
  rxNew : Bool
  deriving DecidableEq, Repr

/-- A DTLS session (R251-R254). Its number is the 8-byte connection ID that the device has issued; `cid` is the length of the
station's. `keyedNs` and `heardNs` are the Bellows count of ns at its latest keys and its latest authenticated record; `inbox` holds
the frames to handle, each with its stamp (R379). -/
structure Session where
  port : Nat
  peer : Peer
  identity : Nat
  phase : Nat
  station : Option Nat
  top : Nat
  window : List Nat
  rx : Nat
  tx : Nat
  cid : Nat
  keyedNs : Nat
  heardNs : Nat
  inbox : List (Nat × List Byte)
  deriving DecidableEq, Repr

/-- A frame for the bus (R299). -/
structure TxFrame where
  ident : Nat
  payload : List Byte
  station : Option Nat
  cls : Nat
  image : Bool
  deriving DecidableEq, Repr

/-- A TX buffer (R298, R300, R301): 0 free, 1 pending, 2 on the bus; `cancel` is a latched cancel request, 1 by software,
2 by the sequencer. -/
structure TxBuf where
  state : Nat
  frame : TxFrame
  cancel : Nat
  backoff : Bool
  deriving DecidableEq, Repr

/-- A Hob port's state that no register shows (R293, R299-R303, R319, R320). -/
structure HobPort where
  modeReq : Option Nat
  bufs : Sparse TxBuf
  outQ : List TxFrame
  rx : List (Nat × CanFrame)
  votes : List (Nat × Bool)
  asking : Bool
  confirming : Bool
  aborting : Bool
  confirmSeen : Bool
  guard : Bool
  launchAt : Option Nat
  deriving DecidableEq, Repr

/-- An outstanding record (R337). -/
structure Outstanding where
  cls : Nat
  cycle : Nat
  record : CycleRecord
  deriving DecidableEq, Repr

/-- A planned swap (R364): its phase, 1 chosen, 2 at T_S, 3 demoted, the instant T_S with its class, and the latest instant that T_S may
have. -/
structure Swap where
  phase : Nat
  cls : Nat
  point : Nat
  latest : Nat
  deriving DecidableEq, Repr

/-- Erair and the confirmation of a loss (R329-R345, R355-R358, R364). A path result is 1 dead, 2 alive, 0 open; `roundTrip` is the
measured round trip in ns, `sent` and `acked` count the records of each class since the synchronization began, `cells` the cells that wait at the sender, `lane` the lane of the last one sent, `told` what the unit last
said of its versions, `minor` the ERA minor version that both units speak, `key` the witness key. -/
structure Erair where
  up : Bool
  cells : List (List W36)
  lane : Nat
  partner : Option Heartbeat
  hbSeq : Nat
  witSeq : Nat
  lastHb : Nat
  outstanding : List Outstanding
  sent : Sparse Nat
  acked : Sparse Nat
  roundTrip : Nat
  applied : List (Option Nat)
  copied : Sparse Nat
  syncAsked : Bool
  told : List Nat
  minor : Nat
  versions : Option VersionMsg
  refused : Option (VersionMsg × Nat)
  confirming : Bool
  lineResult : Nat
  witResult : Nat
  key : Nat
  probes : Nat
  notices : Nat
  clash : Bool
  edges : List Nat
  swap : Option Swap
  armWait : Option (List W32 × Nat × Nat)
  postSwap : Bool
  deriving DecidableEq, Repr

/-- A frame of a port's launch queue (R381) with its launch time; one that waits behind another has none. -/
structure Launch where
  time : Option Nat
  frame : TxFrame
  deriving DecidableEq, Repr

/-- Turnspit (R368-R382): 96-bit counters, last offsets, switch offset in 2^-32 ns, launch queues and port settings; `switched` is
the Bellows count of ns at the last switch, with the domain and the offset in use before it (R377). -/
structure Turnspit where
  ctrA : Nat
  ctrB : Nat
  offA : Option Int
  offB : Option Int
  offset : Int
  launches : Sparse (List Launch)
  portDomain : Sparse Nat
  rxLat : Sparse Nat
  txLat : Sparse Nat
  latchSys : Nat
  latchA : Nat
  latchB : Nat
  switched : Option (Nat × Nat × Int)
  deriving DecidableEq, Repr

/-- A Grate channel (R387-R393): `retry` says that a faulted output runs its retry. -/
structure Channel where
  latched : Bool
  declared : Bool
  outlay : Option Bool
  cmd : Bool
  retry : Bool
  deriving DecidableEq, Repr

/-- A commit buffer of a partition (R405): the open block and its staged bytes. -/
structure CommitBuf where
  block : Nat
  bytes : List Host.Cell
  deriving DecidableEq, Repr

/-- An operation that Mantel carries out (R402, R404): a software command, or a retain commit of the device's own. `data`
is what it programs, `found` the outcome of a read's page checks (0 clean, 1 corrected, 2 uncorrectable), `slot` a
retain slot (8 none yet), `waits` that it waits behind power-fail commits. -/
structure MantelOp where
  op : Nat
  addr : Nat
  len : Nat
  buf : Nat
  secure : Bool
  kind : Nat
  slot : Nat
  found : Nat
  waits : Bool
  data : List Byte
  deriving DecidableEq, Repr

/-- A privileged commit waiting for Mantel (R408, R418): 1 directory page, 2 Ashpit record, 3 Sweep result. -/
structure PrivCommit where
  kind : Nat
  addr : Nat
  bytes : List Byte
  seq : Nat
  deriving DecidableEq, Repr

/-- The directory as it stands (R409). -/
structure Directory where
  seq : Nat
  activeBank : Nat
  pfComplete : Bool
  reliningCut : Bool
  highest : Nat
  claim : Nat
  position : Nat
  deriving DecidableEq, Repr

/-- Mantel (R397-R416). `held` says what has hold of each bank (R397, R408). A retain slot is 0 pre-erased, 1 valid, 2 committing; `dev` holds the device's own retain commits,
`pf` the power-fail sequence (0 none, 1 capturing, 2 committing) and `pfAgain` the source of a
further one that is due (0 none). -/
structure Mantel where
  flash : List Host.Cell
  programmed : Sparse Bool
  wear : Sparse Nat
  bufs : Sparse CommitBuf
  op : Option MantelOp
  priv : List PrivCommit
  background : List Nat
  held : Sparse Nat
  dev : List MantelOp
  dir : Directory
  slots : Sparse Nat
  slotSeq : Sparse Nat
  paramNext : Nat
  pf : Nat
  pfAgain : Nat
  deriving DecidableEq, Repr

/-- Ashpit (R417-R421): record pages waiting for a clear's erase, the flush in progress with its log offset, whether a
further flush is due, the exact log offset behind ASH_HEAD, and the fraction of a powered second. -/
structure Ashpit where
  head : Nat
  waitPages : List (List Byte)
  flushAgain : Bool
  flushLen : Nat
  flushAt : Nat
  secondsNs : Nat
  deriving DecidableEq, Repr

/-- The edit machine's hidden state (R222, R231-R245): the armed class and cycle, whether the named class has switched,
whether ARM waits for the partner, the program before the running switch, the class whose finish ends the switch, whether
its retain capture is to be committed, whether a power-fail has stopped its write (R415), and where the next block of a load without DRAM must start. -/
structure Edit where
  armed : Option (Nat × Nat)
  fired : Bool
  partnerWait : Bool
  old : Option Program
  endDue : Option Nat
  captureDue : Bool
  cut : Bool
  nextOff : Nat
  deriving DecidableEq, Repr

/-- Bellows outside its classes (R183-R220). -/
structure Bellows where
  active : Option Program
  shadow : Option Program
  rollback : Option Program
  area : Nat
  blocks : Sparse BlockRt
  instOff : List (Nat × Nat)
  ns : Nat
  deriving DecidableEq, Repr

/-- Ember (R445-R449). -/
structure Ember where
  tick : Nat
  phase : Nat
  alarm : Nat
  locked : Bool
  onVbak : Bool
  stopped : Bool
  matched : Bool
  deriving DecidableEq, Repr

/-- The Fireguard (R453-R458): elapsed ns of the system guard, and for each class guard that counts, when its interval
began and whether a service began it; `nmi` is an NMI not yet taken, `unlogged` an expiry whose record Kindling has yet to
write. -/
structure Fireguard where
  elapsed : Nat
  since : List (Option (Nat × Bool))
  nmi : Bool
  unlogged : Bool
  deriving DecidableEq, Repr

/-- Poker (R464-R472). -/
structure Poker where
  sel : Nat
  auth : Bool
  challenge : List W32
  chalRead : Nat
  response : List W32
  failures : Nat
  lockout : Bool
  sandbox : Option (Nat × Nat × Nat)
  snapDue : Bool
  deriving DecidableEq, Repr

/-- A mailbox (R486, R487): 0 free, 1 busy, 2 done, 3 reply. -/
structure Mailbox where
  state : Nat
  result : Nat
  tag : W32
  block : Block
  deriving DecidableEq, Repr

/-- The PCIe function (R477, R478, R485, R502). An MSI-X entry is address, data and vector control; `msixEn` and `msixMask` are MSI-X
Enable and Function Mask, `command` the command register, `bars` the base addresses by their offset in the configuration space. -/
structure Pcie where
  msix : Sparse (Nat × Nat × Nat)
  pba : Nat
  msixEn : Bool
  msixMask : Bool
  command : Nat
  bars : Sparse Nat
  pmeEn : Bool
  pmeStatus : Bool
  deviceFirst : Bool
  trained : Bool
  deriving DecidableEq, Repr

/-- The fuses (R498, R500). A slot is 0 EMPTY, 1 VALID, 2 REVOKED. -/
structure Fuses where
  slots : Sparse Nat
  hashes : Sparse (List W32)
  cosign : Bool
  debugKey : Option Nat
  counters : Sparse Nat
  op : Option (Nat × Nat × Nat)
  deriving DecidableEq, Repr

/-- The Relining machine (R511-R514). -/
structure Relining where
  pages : Sparse Nat
  comp : Nat
  restarting : Option Nat
  running : Sparse Bool
  deriving DecidableEq, Repr

/-- The pins and supplies that commands move, with the Bellows count of ns at the last change of ALIVE_OUT (R289, R355, R444, R459, R502, R524, R525). -/
structure Pins where
  mainValid : Bool
  resetN : Bool
  pfailN : Bool
  refclkOk : Bool
  perstN : Bool
  wakeN : Bool
  hbWake : Nat
  aliveOut : Bool
  aliveNs : Nat
  deriving DecidableEq, Repr

/-- What Kindling found fitted (R43, R45-R47), and what Sweep found of it: failed cluster gates, Hob sequencers, Hob ports and
MACs, and the repair settings in force, each a macro number and its setting (R290, R433, R462, R463). -/
structure Fit where
  chimney : Bool
  hob : Bool
  grate : Bool
  mantel : Bool
  badGates : List Nat
  badSeqs : List Nat
  badPorts : List Nat
  badMacs : List Nat
  repairs : List (Nat × Nat)
  deriving DecidableEq, Repr

/-- Raking (R429): for RAKE_OFF or RAKE; phase 1 waits for the last acknowledgements, 2 captures, 3 sweeps, 4
waits, stopped, for the supply to fall; a power-fail stops the Sweep (R438). -/
structure Raking where
  off : Bool
  phase : Nat
  stopped : Bool
  deriving DecidableEq, Repr

/-- The form of a running Kindling (R433). -/
inductive KindlingForm where
  | none
  | full
  | resume
  deriving DecidableEq, Repr

end Sys2Proof.Machine
end

