-- ==== Sys2Proof/Machine/State.lean ====
section
/-! DEFINITION. The state of the unit as plain data, the reasons a step can stop, and the unit right after reset. -/

namespace Sys2Proof.Machine

/-- The unit. Register fields lie in `regs`, one cell per field (`Fld.key`), absent where the field holds its reset
value; every other component is what the spec gives the unit beside its registers. `dramBad` holds the DRAM words whose check
fails (R87), `flue` the Flue beyond the cores' own links (R18-R24), `owners` what SEC_OWNER was at the start of the clock for the domains written in it (R495), `uartWait` the TAG of a message BLOCK that waits for its world (R491), `handshakes` the second of the Bellows count and the handshakes begun in it (R251).
`pending` is the queue of waiting
commands, `out` what the unit has sent (log 7), `freeCtr` the number of free values drawn (log 2). -/
structure State where
  pending : List Instr
  out : List Output
  freeCtr : Nat
  regs : Sparse Nat
  rwlSet : Sparse Bool
  pins : Pins
  fit : Fit
  kindling : KindlingForm
  bankedFrom : Option Nat
  raking : Option Raking
  owners : List (Nat × Bool)
  started : Bool
  cores : Sparse Core
  loaded : Sparse (Nat × Nat)
  hearth : Hearth
  dram : Sparse W36
  dramBad : List Nat
  flue : Fabric
  bellows : Bellows
  blaze : ClassRt
  glow : ClassRt
  smoulder : ClassRt
  edit : Edit
  sessions : Sparse Session
  stations : Sparse StationRt
  addrTable : Sparse (List Nat)
  handshakes : Nat × Nat
  hob : Sparse HobPort
  erair : Erair
  turnspit : Turnspit
  grate : Sparse Channel
  mantel : Mantel
  ashpit : Ashpit
  ember : Ember
  fireguard : Fireguard
  sweepTest : Option (Nat × Nat)
  poker : Poker
  mailboxes : Sparse Mailbox
  mailOrder : List Nat
  uartWait : Option Byte
  pcie : Pcie
  fuses : Fuses
  relining : Relining
  deriving DecidableEq, Repr

/-- Why the unit stops with a fault. No command of the table ends in one: the spec gives each an effect. -/
inductive Fault where
  /-- Nothing raises it; it keeps the type inhabited. Safe. -/
  | none
  deriving DecidableEq, Repr

/-- Why a command has no meaning in the model. -/
inductive Refusal where
  /-- Raised by the dispatch for a row that has no meaning yet, named by its mnemonic. Safe. -/
  | notModelled (mnemonic : String)
  deriving DecidableEq, Repr

/-- The empty stack window of a world (R98). -/
def Bank.reset : Bank := ⟨0, 0, 0⟩

/-- The key of the Tender among the cores. -/
def tenderKey : Nat := 256

/-- A link with every credit of R20 at the sender. -/
def Link.reset : Link := ⟨8, 4, 4, 2, 16, [], []⟩

/-- A core right after reset: registers zero, PSW per R60, engines idle, the Tender running in the secure world at the
secure boot entry (R98, R496; logs 1 and 3). -/
def Core.reset (key : Nat) : Core where
  w := []
  secure := Bank.reset
  normal := Bank.reset
  pc := 0
  psw := if key = tenderKey then 0x183 else 0x180
  sys := []
  ls := []
  slot := []
  afterLoad := false
  loads := []
  stores := []
  link := Link.reset
  lsBad := []
  entryNs := 0
  codeOf := none
  brkNum := 0
  issue := if key = tenderKey then .running else .idle
  halted := false
  haltReq := false
  haltCause := 0
  haltUnread := false
  run := none
  queue := []
  dbg := []

/-- An empty plane. -/
def Plane.zero : Plane := ⟨0, []⟩

/-- The Hearth right after reset (log 8). -/
def Hearth.reset : Hearth where
  copyA := []
  copyB := []
  sel := []
  mask00 := []
  mask01 := []
  mask10 := []
  mask11 := []
  mask20 := []
  mask21 := []
  stir00 := Plane.zero
  stir01 := Plane.zero
  stir10 := Plane.zero
  stir11 := Plane.zero
  stir20 := Plane.zero
  stir21 := Plane.zero
  classMap := []
  hints := []
  rings := []
  evHead := []
  evStart := []
  evEnd := []
  evLost := []
  retain := []
  capture := []
  captureRanges := []
  inject := []
  held := []
  lostControl := []
  replace := []
  bad := []
  scrubBad := []
  asked := []

/-- A class right after reset: stopped, with nothing queued. -/
def ClassRt.reset : ClassRt where
  finished := true
  mirrored := true
  settled := true
  solved := true
  aborted := false
  ran := false
  startedAt := 0
  lastBound := none
  boundNs := none
  number := none
  jump := false
  missedFull := false
  resume := false
  runAll := false
  allNow := false
  stepped := false
  passedTo := 0
  taskDone := false
  overran := false
  stalledNow := false
  switchNow := false
  switchDigest := []
  kindTask := 0
  errStation := false
  errBlock := false
  errEngine := false
  errNext := []
  errLost := false
  errDue := false
  errStall := false
  errRunning := false
  errFaults := 0
  tiers := []
  inflight := []
  dispatched := []
  claims := []
  poison := []
  faults := false
  blocksLog := []
  stationsLog := []
  eventsLog := []
  run := 0
  skip := 0
  audits := 0
  solveAt := 0
  solveUs := 0
  waiting := []
  launch := []
  firstOut := false
  lastDone := 0
  record := none

/-- A block as a program load leaves it: enabled, with its first run pending (R205). -/
def BlockRt.fresh : BlockRt := ⟨0, false, true⟩

/-- A station as declared, before any image (R271). -/
def StationRt.fresh : StationRt where
  state := 0
  aged := false
  waitFrom := none
  ageFrom := none
  lastSeq := 0
  completeSeq := none
  completeAt := none
  completions := []
  assembly := none
  complete := none
  latched := none
  out := []
  outSeq := 0
  outValid := false
  outNew := none
  heard := none
  epoch := 0
  port := 0
  via := 0
  due := 0
  session := none
  drops := 0
  restores := 0
  stale := 0
  dup := 0
  bad := 0
  layoutN := 0
  abandoned := 0
  overtaken := 0
  rate := 0
  outAck := 0
  ageMs := 0
  uOut := 0
  legacy := 0
  retryS := 0
  tls13 := false
  sendSeq := 0
  recvSeq := 0
  unacked := 0
  unsent := 0
  waitI := []
  interrogating := false
  testOut := false
  confirmed := []
  pendingCmds := []
  negHold := []
  rxWords := []
  rxNew := false

/-- No session. -/
def Session.none : Session where
  port := 0
  peer := ⟨0, 0⟩
  identity := 0
  phase := 0
  station := Option.none
  top := 0
  window := []
  rx := 0
  tx := 0
  cid := 0
  keyedNs := 0
  heardNs := 0
  inbox := []

/-- A free TX buffer (R298). -/
def TxBuf.free : TxBuf := ⟨0, ⟨0, [], none, 0, false⟩, 0, false⟩

/-- A Hob port right after reset: off, every buffer free. -/
def HobPort.reset : HobPort where
  modeReq := none
  bufs := []
  outQ := []
  rx := []
  votes := []
  asking := false
  confirming := false
  aborting := false
  confirmSeen := false
  guard := false
  launchAt := none

/-- Erair right after reset: down, no partner. -/
def Erair.reset : Erair where
  up := false
  cells := []
  lane := 3
  told := []
  minor := 0
  key := 0
  partner := none
  hbSeq := 0
  witSeq := 0
  lastHb := 0
  outstanding := []
  sent := []
  acked := []
  roundTrip := 0
  applied := [none, none, none]
  copied := []
  syncAsked := false
  versions := none
  refused := none
  confirming := false
  lineResult := 0
  witResult := 0
  probes := 0
  notices := 0
  clash := false
  edges := []
  swap := none
  armWait := none
  postSwap := false

/-- Turnspit right after reset: both counters 0 (R369), no launches. -/
def Turnspit.reset : Turnspit where
  ctrA := 0
  ctrB := 0
  offA := none
  offB := none
  offset := 0
  launches := []
  portDomain := []
  rxLat := []
  txLat := []
  latchSys := 0
  latchA := 0
  latchB := 0
  switched := none

/-- A Grate channel right after reset: off. -/
def Channel.reset : Channel := ⟨false, false, none, false, false⟩

/-- An erased Mantel (log 5). -/
def Mantel.reset : Mantel where
  flash := []
  programmed := []
  wear := []
  bufs := []
  op := none
  priv := []
  background := []
  held := []
  dev := []
  dir := ⟨0, 0, false, false, 0, 0, 0⟩
  slots := []
  slotSeq := []
  paramNext := 0
  pf := 0
  pfAgain := 0

/-- A free mailbox. -/
def Mailbox.free : Mailbox := ⟨0, 0, 0, ⟨0, 0, 0, 0, []⟩⟩

/-- The unit right after reset, with the supplies valid and reset released, before Kindling starts. Every field of a
register holds the reset value of its table; what the spec leaves to fit, fuse, Mantel or program is as logs 1 to 10
name it. -/
def State.reset : State where
  pending := []
  out := []
  freeCtr := 0
  regs := []
  rwlSet := []
  pins := ⟨true, true, true, true, false, true, 0, false, 0⟩
  fit := ⟨false, false, false, false, [], [], [], [], []⟩
  kindling := .none
  bankedFrom := none
  raking := none
  owners := []
  started := false
  cores := []
  loaded := []
  hearth := Hearth.reset
  dram := []
  dramBad := []
  flue := ⟨[], [], 0, [], []⟩
  bellows := ⟨none, none, none, 0, [], [], 0⟩
  blaze := ClassRt.reset
  glow := ClassRt.reset
  smoulder := ClassRt.reset
  edit := ⟨none, false, false, none, none, false, false, 0⟩
  sessions := []
  stations := []
  addrTable := []
  handshakes := (0, 0)
  hob := []
  erair := Erair.reset
  turnspit := Turnspit.reset
  grate := []
  mantel := Mantel.reset
  ashpit := ⟨0, [], false, 0, 0, 0⟩
  ember := ⟨0, 0, 0, false, false, false, false⟩
  fireguard := ⟨0, [none, none, none], false, false⟩
  sweepTest := none
  poker := ⟨0x100, false, [], 0, [], 0, false, none, false⟩
  mailboxes := []
  mailOrder := []
  uartWait := none
  pcie := ⟨[], 0, false, false, 0, [], false, false, false, false⟩
  fuses := ⟨[], [], false, none, [], none⟩
  relining := ⟨[], 0, none, []⟩

end Sys2Proof.Machine
end

