-- ==== Sys2Proof/Machine/Ops.lean ====
section
/-! DEFINITION. The named operations that every family uses: register fields, events and their interrupts, free values,
the mode and the role, time, DRAM as the device's blocks reach it, and what the unit sends. -/

namespace Sys2Proof.Machine

/-- The value of a register field. -/
def State.fld (s : State) (f : Fld) : Nat := Sparse.get s.regs f.reset f.key

/-- The state with a register field written; bits above the field's width are dropped. -/
def State.setFld (s : State) (f : Fld) (v : Nat) : State :=
  { s with regs := Sparse.put s.regs f.reset f.key (v % 2 ^ f.width) }

/-- Whether a field is not zero. -/
def State.bit (s : State) (f : Fld) : Bool := decide (s.fld f ≠ 0)

/-- A one-bit field written. -/
def State.setBit (s : State) (f : Fld) (b : Bool) : State := s.setFld f (bit01 b)

/-- Bit `i` of a field. -/
def State.fldBit (s : State) (f : Fld) (i : Nat) : Bool := bitOf (s.fld f) i

/-- A field with bit `i` written. -/
def State.setFldBit (s : State) (f : Fld) (i : Nat) (b : Bool) : State := s.setFld f (withBit (s.fld f) i b)

/-- A saturating counter field counted up. -/
def State.count (s : State) (f : Fld) : State := s.setFld f (satInc f.width (s.fld f))

/-- A wrapping counter field counted up. -/
def State.countWrap (s : State) (f : Fld) : State := s.setFld f (s.fld f + 1)

/-- Something sent to the outside. -/
def State.send (s : State) (o : Output) : State := { s with out := s.out ++ [o] }

/-- The next free value below `n` (log 2), and the state that has drawn it. -/
def State.draw (s : State) (n : Nat) : Nat × State :=
  (Config.freeNat s.freeCtr % n, { s with freeCtr := s.freeCtr + 1 })

/-- The next free bit (log 2), and the state that has drawn it. -/
def State.drawBit (s : State) : Bool × State :=
  (Config.freeBool s.freeCtr, { s with freeCtr := s.freeCtr + 1 })

/-- `n` free bytes (log 2), and the state that has drawn them. -/
def State.drawBytes (s : State) (n : Nat) : List Byte × State :=
  ((List.range n).map fun i => BitVec.ofNat 8 (Config.freeNat (s.freeCtr + i)), { s with freeCtr := s.freeCtr + n })

/-- The bits of a register word that its fields hold: the word as stored. -/
def State.stored (s : State) (page off : Nat) : Nat :=
  (regFields page off).foldl (fun a r => a + s.fld r.fld * 2 ^ r.fld.lo) 0

/-- A page has an event set that is enabled (R483). -/
def State.pagePending (s : State) (page : Nat) : Bool :=
  decide (s.stored page 0x010 &&& s.stored page 0x014 ≠ 0)

/-- The interrupt source of a page (R483). -/
def pageSource (page : Nat) : Option Nat :=
  if page = 0x000 then some 1
  else if page = 0x001 then some 2
  else if page = 0x002 then some 3
  else if page = 0x003 then some 4
  else if page = 0x004 then some 5
  else if page = 0x005 then some 6
  else if page = 0x006 then some 7
  else if page = 0x007 then some 8
  else if page = 0x008 then some 9
  else if page = 0x009 then some 10
  else if 0x010 ≤ page ∧ page ≤ 0x012 then some (11 + (page - 0x010))
  else if page = 0x013 then some 14
  else if page = 0x014 then some 15
  else if 0x015 ≤ page ∧ page ≤ 0x019 then some (16 + (page - 0x015))
  else if 0x020 ≤ page ∧ page ≤ 0x02F then some 21
  else if page = 0x100 then some 22
  else if 0x101 ≤ page ∧ page ≤ 0x128 then some 23
  else if page = 0x200 then some 24
  else if 0x201 ≤ page ∧ page ≤ 0x2C0 then some 25
  else if page = 0x130 then some 26
  else if page = 0x131 then some 27
  else none

/-- The pages of an interrupt source; the mailboxes and the software sources have none (R483). -/
def sourcePages (v : Nat) : List Nat :=
  if v = 0 then []
  else if v ≤ 10 then [v - 1]
  else if v ≤ 14 then [0x010 + (v - 11)]
  else if v = 15 then [0x014]
  else if v ≤ 20 then [0x015 + (v - 16)]
  else if v = 21 then (List.range 16).map (0x020 + ·)
  else if v = 22 then [0x100]
  else if v = 23 then (List.range 40).map (0x101 + ·)
  else if v = 24 then [0x200]
  else if v = 25 then (List.range 192).map (0x201 + ·)
  else if v = 26 then [0x130]
  else if v = 27 then [0x131]
  else []

/-- A source is pending (R483). -/
def State.sourcePending (s : State) (v : Nat) : Bool :=
  if v = 0 then s.mailboxes.any fun m => decide (m.2.state = 2 ∨ m.2.state = 3)
  else if 32 ≤ v then bitOf (s.fld Reg.pciSwClearClear) (v - 32)
  else (sourcePages v).any s.pagePending

/-- A source is routed to the host (R484). -/
def State.routed (s : State) (v : Nat) : Bool :=
  if v < 32 then bitOf (s.fld Reg.pciHostRouteLoRoute) v else bitOf (s.fld Reg.pciHostRouteHiRoute) (v - 32)

/-- An entry of the MSI-X table: address, data and vector control; every vector is masked at reset (R485; PRESUMED, log 10). -/
def State.msixEntry (s : State) (v : Nat) : Nat × Nat × Nat := Sparse.get s.pcie.msix (0, 0, 1) v

/-- The function sends MSI-X messages: enabled, without Function Mask, with Bus Master Enable, in D0 (R477; PRESUMED, log 10). -/
def State.msixReady (s : State) : Bool :=
  s.pcie.msixEn && !s.pcie.msixMask && bitOf s.pcie.command 2 && decide (s.fld Reg.pciStatusPower = 0)

/-- A vector sends no message now (R485). -/
def State.vectorMasked (s : State) (v : Nat) : Bool := !s.msixReady || decide ((s.msixEntry v).2.2 % 2 = 1)

/-- The message of a vector sent (R485). -/
def State.msixSend (s : State) (v : Nat) : State := s.send (.msix v (s.msixEntry v).1 (s.msixEntry v).2.1)

/-- The MSI-X message of a vector: sent, or noted in the pending bit array while the vector is masked (R485). -/
def State.message (s : State) (v : Nat) : State :=
  if s.vectorMasked v then { s with pcie := { s.pcie with pba := withBit s.pcie.pba v true } }
  else s.msixSend v

/-- Vectors that have been unmasked with their pending bit set send their messages (R485; PRESUMED, log 10). -/
def State.msixRelease (s : State) : State :=
  (List.range 64).foldl (fun t v =>
    if bitOf t.pcie.pba v && !t.vectorMasked v then
      { t with pcie := { t.pcie with pba := withBit t.pcie.pba v false } }.msixSend v
    else t) s

/-- The page whose owner a source belongs to: its first page; for the mailboxes and the software sources the PCI page, which holds their
registers and routes (R483, R484; DESIGN CHOICE, log 37). -/
def sourcePage (v : Nat) : Option Nat := if v = 0 ∨ 32 ≤ v then some 0x131 else (sourcePages v).head?

/-- A source checked again after a write to an EVENT register: a further message while it is routed and pending
(R485). -/
def State.recheck (s : State) (v : Nat) : State :=
  if s.routed v && s.sourcePending v then s.message v else s

/-- After a change: a message when a routed source has become pending (R485). -/
def State.becamePending (s : State) (before : State) (v : Nat) : State :=
  if s.routed v && !before.sourcePending v && s.sourcePending v then s.message v else s

/-- Bit `i` of an event field set, with its interrupt (R483, R485). -/
def State.raiseBit (s : State) (f : Fld) (i : Nat) : State :=
  match pageSource f.page with
  | some v => (s.setFldBit f i true).becamePending s v
  | none => s.setFldBit f i true

/-- An event set, with its interrupt (R483, R485). -/
def State.raise (s : State) (f : Fld) : State := s.raiseBit f 0

/-- A register word written as a number, field by field. -/
def State.setFields (s : State) (fs : List (Fld × Nat)) : State :=
  fs.foldl (fun t p => t.setFld p.1 p.2) s

/-- An ERROR_CAPTURE filled when it holds nothing: `key` is the field that is non-zero once it is filled (R9). -/
def State.capture (s : State) (key : Fld) (fs : List (Fld × Nat)) : State :=
  if s.fld key = 0 then s.setFields fs else s

/-- The mode codes of R425. -/
def modeEmber : Nat := 0
/-- Kindling (R425). -/
def modeKindling : Nat := 1
/-- Primary (R425). -/
def modePrimary : Nat := 2
/-- Standby (R425). -/
def modeStandby : Nat := 3
/-- Banked (R425). -/
def modeBanked : Nat := 4
/-- Held (R425). -/
def modeHeld : Nat := 5
/-- Raking (R425). -/
def modeRaking : Nat := 6
/-- Doused (R425). -/
def modeDoused : Nat := 7

/-- The unit's mode (R425). -/
def State.mode (s : State) : Nat := s.fld Reg.pwrStatusMode

/-- The mode changed, with its event (R451). -/
def State.setMode (s : State) (m : Nat) : State :=
  if s.mode = m then s else (s.setFld Reg.pwrStatusMode m).raise Reg.pwrEventModeChange

/-- The role state (R326). -/
def State.role (s : State) : Nat := s.fld Reg.eraStatusRole

/-- The unit holds a claim: roles 5 to 7 (R326). -/
def State.claimant (s : State) : Bool := decide (5 ≤ s.role)

/-- The claimant may command stations and outputs: no guard has expired (R351, R457). -/
def State.drives (s : State) : Bool := s.claimant && !s.bit Reg.fgdStatusExpired

/-- A domain's power is on and its clock runs (R432, R451). -/
def State.domainOn (s : State) (n : Nat) : Bool := decide (s.fld (Reg.pwrPdControlState n) = 0)

/-- Turnspit is in service: the Hob die is fitted and powered (R47, R430). -/
def State.turnspitOn (s : State) : Bool := s.bit Reg.hobStatusTurnspit && s.domainOn 19

/-- The 96-bit counter of a Turnspit domain (R368). -/
def State.domainCtr (s : State) (d : Nat) : Nat := if d = 0 then s.turnspit.ctrA else s.turnspit.ctrB

/-- System time as 64 bits of ns and 32 of fraction (R374). -/
def State.sysTime96 (s : State) : Nat :=
  twos 96 ((s.domainCtr (s.fld Reg.tspStatusActive) : Int) + s.turnspit.offset)

/-- System time in ns; without Turnspit, the Bellows count since Kindling (R173, R374). -/
def State.now (s : State) : Nat := if s.turnspitOn then s.sysTime96 / 2 ^ 32 else s.bellows.ns

/-- The effective DRAM capacity in words (R28). -/
def State.dramWords (s : State) : Nat :=
  let c := s.fld Reg.drmConfigCapacity
  let fitted := if c = 0 then 0 else 2 ^ (c - 1) * 2 ^ 30
  if s.bit Reg.drmConfigMirror then fitted / 2 else fitted

/-- DRAM is fitted (R46). -/
def State.hasDram (s : State) : Bool := decide (s.fld Reg.drmConfigCapacity ≠ 0)

/-- The first DRAM address (R27). -/
def dramBase : Nat := 0x400000000

/-- A DRAM address within the effective capacity (R28). -/
def State.dramOk (s : State) (a : Nat) : Bool := decide (dramBase ≤ a) && decide (a < dramBase + s.dramWords)

/-- A word of DRAM; a word never written reads as 36 zero bits (R535). -/
def State.dramWord (s : State) (a : Nat) : W36 := Sparse.get s.dram 0 a

/-- A word of DRAM written. -/
def State.setDram (s : State) (a : Nat) (v : W36) : State :=
  { s with dram := Sparse.put s.dram 0 a v, dramBad := s.dramBad.filter fun x => decide (x ≠ a) }

/-- An access by a device block at or above the effective capacity is recorded with CODE 2 (R28, R42). -/
def State.dramFail (s : State) (a : Nat) : State :=
  s.capture Reg.drmErrorCaptureCode
    [(Reg.drmErrorCaptureGranule, (a - dramBase) / 64), (Reg.drmErrorCaptureCode, 2)]

/-- A device block's read of DRAM: nothing where R28 does not perform it. -/
def State.blockRead (s : State) (a : Nat) : Option W36 × State :=
  if s.dramOk a then (some (s.dramWord a), s) else (none, s.dramFail a)

/-- Words of DRAM as a device block that reads `n` of them from `a` on gets them: nothing, taken as zero, at and above the effective
capacity (R28; log 146). -/
def State.dramSeen (s : State) (a n : Nat) : List W36 :=
  Sparse.getMany (s.dram.filter fun w => decide (w.1 < dramBase + s.dramWords)) 0 a n

/-- What such a read leaves: CODE 2 for the first word that it does not perform (R28, R42). -/
def State.dramAsked (s : State) (a n : Nat) : State :=
  if dramBase ≤ a ∧ dramBase + s.dramWords < a + n then s.dramFail (max a (dramBase + s.dramWords)) else s

/-- A device block's write of DRAM: discarded where R28 does not perform it. -/
def State.blockWrite (s : State) (a : Nat) (v : W36) : State :=
  if s.dramOk a then s.setDram a v else s.dramFail a

/-- A device block's writes from `a` on. -/
def State.blockWrites (s : State) (a : Nat) (vs : List W36) : State :=
  match vs with
  | [] => s
  | v :: rest => State.blockWrites (s.blockWrite a v) (a + 1) rest

/-- Component `c` of R507 has started from its image and runs (R514, R516). -/
def State.compUp (s : State) (c : Nat) : Bool := Sparse.get s.relining.running false c

/-- A component started or stopped. -/
def State.setCompUp (s : State) (c : Nat) (b : Bool) : State :=
  { s with relining := { s.relining with running := Sparse.put s.relining.running false c b } }

/-- The runtime of class `k`. -/
def State.cls (s : State) (k : Nat) : ClassRt :=
  match k with
  | 0 => s.blaze
  | 1 => s.glow
  | _ => s.smoulder

/-- The runtime of class `k` written. -/
def State.setCls (s : State) (k : Nat) (c : ClassRt) : State :=
  match k with
  | 0 => { s with blaze := c }
  | 1 => { s with glow := c }
  | _ => { s with smoulder := c }

/-- A core by key. -/
def State.core (s : State) (key : Nat) : Core := Sparse.get s.cores (Core.reset key) key

/-- A core written. -/
def State.setCore (s : State) (key : Nat) (c : Core) : State :=
  { s with cores := Sparse.put s.cores (Core.reset key) key c }

/-- A station's runtime. -/
def State.station (s : State) (n : Nat) : StationRt := Sparse.get s.stations StationRt.fresh n

/-- A station's runtime written. -/
def State.setStation (s : State) (n : Nat) (t : StationRt) : State :=
  { s with stations := Sparse.put s.stations StationRt.fresh n t }

/-- A Hob port's hidden state. -/
def State.hobPort (s : State) (p : Nat) : HobPort := Sparse.get s.hob HobPort.reset p

/-- A Hob port's hidden state written. -/
def State.setHobPort (s : State) (p : Nat) (h : HobPort) : State := { s with hob := Sparse.put s.hob HobPort.reset p h }

/-- A Grate channel. -/
def State.channel (s : State) (n : Nat) : Channel := Sparse.get s.grate Channel.reset n

/-- A Grate channel written. -/
def State.setChannel (s : State) (n : Nat) (c : Channel) : State := { s with grate := Sparse.put s.grate Channel.reset n c }

/-- What a command answers when the unit goes on. -/
abbrev Result := Host.Outcome State Fault Refusal

end Sys2Proof.Machine
end

