-- ==== Sys2Proof/Machine/Flue.lean ====
section
/-! DEFINITION. The Flue (R18-R24): flits and packets, virtual channels, the nodes that packets leave and reach, the credits of a
link, response slots, and what a source sends. A core's link joins it to the arbiter of its cluster gate; every other node's joins it
to the hub (log 47). -/

namespace Sys2Proof.Machine

/-! Packets and channels -/

/-- The number of a channel. -/
def Channel4.number (c : Channel4) : Nat :=
  match c with
  | .vc0 => 0
  | .vc1 => 1
  | .vc2 => 2
  | .vc3 => 3

/-- The number of a packet's kind. -/
def PacketKind.number (k : PacketKind) : Nat :=
  match k with
  | .load => 0
  | .store => 1
  | .token => 2
  | .fetch => 3
  | .dispatch => 4
  | .response _ => 5

/-- A request that expects a response (R24). -/
def PacketKind.expects (k : PacketKind) : Bool :=
  match k with
  | .load => true
  | .store => true
  | .fetch => true
  | _ => false

/-- Data flits, at most 8 of them (R18). -/
def payload (ws : List W36) : Payload := ⟨ws.take 8, List.length_take_le 8 ws⟩

/-- The word of a header flit (R18). -/
def Header.word (h : Header) : W36 :=
  Config.headerWord h.dest.toNat h.src h.channel.number h.kind.number h.length

/-- The flits of a packet (R18): its header, then its data. -/
def Packet.flits (p : Packet) : List Flit :=
  (p.header.word :: p.data.val).zipIdx.map fun w => ⟨w.1, Config.flitTag w.2⟩

/-- How many flits a packet has. -/
def Packet.size (p : Packet) : Nat := 1 + p.data.val.length

/-- The channel of what an engine sends for class `k` (R19): Hearth and DRAM loads, stores, fetches and tier tokens. -/
def classChannel (k : Nat) : Channel4 := if k = 0 then .vc0 else .vc1

/-- A register-page address (R7, R27). -/
def isPage (a : Nat) : Bool := decide (0x8000000 ≤ a) && decide (a < 0x8100000)

/-- The page index of a register address (R7). -/
def pageOf (a : Nat) : Nat := (a - 0x8000000) / 0x400

/-- The core is a sandbox (R472). -/
def Core.sandboxed (c : Core) : Bool := match c.run with | some r => r.sandbox | none => false

/-- The channel of a core's access to `a` (R19): the Tender, a sandbox (R472) and every register-page load on VC3, an engine
otherwise on the channel of its class. -/
def Core.channel (c : Core) (key a : Nat) : Channel4 :=
  if key = tenderKey || isPage a || c.sandboxed then .vc3 else classChannel (bitsOf c.psw.toNat 7 2)

/-- Where a packet to address `a` ends (R23): a Hearth bank group (R130), a DRAM channel by its granule (R28), a register
page. -/
def flueNode (a : Nat) : Nat :=
  if isPage a then 0x200 + (a - 0x8000000) / 0x400
  else if dramBase ≤ a then 0x118 + (a - dramBase) / 64 % 2
  else 0x110 + a % 64 / 8

/-! The nodes beside cores, Hearth bank groups, DRAM channels and register pages; an engine's number is its node's, the Tender's
is `tenderKey` (log 47). -/

/-- Bellows as a node. -/
def nodeBellows : Nat := 0x101
/-- The Chimney cores as a node. -/
def nodeChimney : Nat := 0x102
/-- Grate as a node. -/
def nodeGrate : Nat := 0x103
/-- Erair as a node. -/
def nodeErair : Nat := 0x104
/-- The host endpoint as a node. -/
def nodeHost : Nat := 0x105
/-- Poker as a node. -/
def nodePoker : Nat := 0x106
/-- Sweep as a node. -/
def nodeSweep : Nat := 0x107
/-- The Relining machine as a node. -/
def nodeRelining : Nat := 0x108
/-- Ashpit as a node. -/
def nodeAshpit : Nat := 0x109
/-- The Hob sequencer of port `p` as a node (R14). -/
def nodeHob (p : Nat) : Nat := 0x120 + p / 16

/-- The node of an address: with mirroring on, one for both DRAM channels, since a write goes to both (R23, R28). -/
def State.nodeAt (s : State) (a : Nat) : Nat := if s.bit Reg.drmConfigMirror && decide (dramBase ≤ a) then 0x118 else flueNode a

/-- The node at which a packet ends. -/
def State.target (s : State) (h : Header) : Nat :=
  match h.kind with
  | .response _ => h.dest.toNat
  | .dispatch => h.dest.toNat
  | .token => nodeBellows
  | _ => s.nodeAt h.dest.toNat

/-- A packet of a core to address `a`, with its data. -/
def Core.packet (c : Core) (key : Nat) (kind : PacketKind) (a : W36) (data : List W36) : Packet :=
  ⟨⟨a, key, c.channel key a.toNat, kind, data.length⟩, payload data⟩

/-! Credits -/

/-- The reserved pool of a channel (R20). -/
def reserved (c : Channel4) : Nat :=
  match c with
  | .vc0 => 8
  | .vc1 => 4
  | .vc2 => 4
  | .vc3 => 2

/-- The shared pool (R20). -/
def sharedPool : Nat := 16

/-- The credits of a channel's reserved pool that the sender holds. -/
def Link.own (l : Link) (c : Channel4) : Nat :=
  match c with
  | .vc0 => l.own0
  | .vc1 => l.own1
  | .vc2 => l.own2
  | .vc3 => l.own3

/-- Those credits written. -/
def Link.setOwn (l : Link) (c : Channel4) (n : Nat) : Link :=
  match c with
  | .vc0 => { l with own0 := n }
  | .vc1 => { l with own1 := n }
  | .vc2 => { l with own2 := n }
  | .vc3 => { l with own3 := n }

/-- A packet launched (R20, R21): its flits take credits of the channel's own pool, then, on any channel but VC0, of the
shared pool; none where the sender does not hold enough. -/
def Link.launch (l : Link) (p : Packet) : Option Link :=
  let c := p.header.channel
  let own := min p.size (l.own c)
  let rest := p.size - own
  if rest = 0 ∨ (c ≠ .vc0 ∧ rest ≤ l.shared) then
    some { l.setOwn c (l.own c - own) with shared := l.shared - rest, sent := l.sent ++ [⟨p, own, rest, none⟩] }
  else none

/-- The waiting packets launched in order as far as credits reach; one that waits holds back its channel (R21, R23). -/
def Link.pumpFrom (l : Link) (ps : List Packet) (held : List Channel4) : Link :=
  match ps with
  | [] => l
  | p :: rest =>
    if held.contains p.header.channel then { l with waiting := l.waiting ++ [p] }.pumpFrom rest held
    else
      match l.launch p with
      | some l1 => l1.pumpFrom rest held
      | none => { l with waiting := l.waiting ++ [p] }.pumpFrom rest (p.header.channel :: held)

/-- What may be launched is launched. -/
def Link.pump (l : Link) : Link := { l with waiting := [] }.pumpFrom l.waiting []

/-- A packet handed to the link. -/
def Link.request (l : Link) (p : Packet) : Link := { l with waiting := l.waiting ++ [p] }.pump

/-- The credits of a packet that has left its slots return to the sender (R21). -/
def Link.credit (l : Link) (x : Sent) : Link :=
  let c := x.packet.header.channel
  { l.setOwn c (l.own c + x.own) with shared := l.shared + x.shared }

/-- The first of the packets sent that `p` holds of leaves its slots. -/
def Link.leave (l : Link) (p : Sent → Bool) : Option Link :=
  (l.sent.find? p).map fun x => ({ l with sent := l.sent.erase x }.credit x).pump

/-- How many packets of a kind to `a` wait or travel on the link. -/
def Link.held (l : Link) (k : PacketKind) (a : W36) : Nat :=
  (l.waiting.filter fun p => decide (p.header.kind = k) && decide (p.header.dest = a)).length +
    (l.sent.filter fun x => decide (x.packet.header.kind = k) && decide (x.packet.header.dest = a)).length

/-- How many packets of a kind to `a` wait for credits on the link. -/
def Link.unsent (l : Link) (k : PacketKind) (a : W36) : Nat :=
  (l.waiting.filter fun p => decide (p.header.kind = k) && decide (p.header.dest = a)).length

/-- A packet of a kind to `a` has been launched and occupies its slots or its way to them. -/
def Link.carries (l : Link) (k : PacketKind) (a : W36) : Bool :=
  l.sent.any fun x => decide (x.packet.header.kind = k) && decide (x.packet.header.dest = a)

/-- Packets leave their slots, the oldest first and at most `n` of them, until one of a kind to `a` that waited has been
launched (R21). -/
def Link.carry (l : Link) (k : PacketKind) (a : W36) (n : Nat) : Link :=
  match n with
  | 0 => l
  | m + 1 =>
    if l.carries k a then l
    else match l.leave fun _ => true with
    | some l1 => l1.carry k a m
    | none => l

/-- A request has been answered, with `others` of its kind to the same address still to be: its packet has been launched
(R21) and is on the link no more, and theirs, which follow it (R23), stay. -/
def Link.answered (l : Link) (k : PacketKind) (a : W36) (others : Nat) : Link :=
  if l.held k a ≤ others then l
  else
    let l1 := l.carry k a (l.waiting.length + l.sent.length)
    match l1.leave fun x => decide (x.packet.header.kind = k) && decide (x.packet.header.dest = a) with
    | some l2 => l2
    | none => l1

/-- Every packet that `p` holds of dropped, its credits back at the sender. -/
def Link.drop (l : Link) (p : Packet → Bool) : Link :=
  let gone := l.sent.filter fun x => p x.packet
  (gone.foldl Link.credit { l with
    waiting := l.waiting.filter fun q => !p q
    sent := l.sent.filter fun x => !p x.packet }).pump

/-- Every packet of a kind dropped: its requests are abandoned (R31, R91). -/
def Link.forget (l : Link) (k : PacketKind) : Link := l.drop fun p => decide (p.header.kind = k)

/-- A packet of a kind to `a` waits or travels on the link. -/
def Link.holds (l : Link) (k : PacketKind) (a : W36) : Bool :=
  (l.waiting.any fun p => decide (p.header.kind = k) && decide (p.header.dest = a)) ||
    l.sent.any fun x => decide (x.packet.header.kind = k) && decide (x.packet.header.dest = a)

/-- The credits that the sender does not hold: what a close of the link reclaims (R31). -/
def Link.reclaimed (l : Link) : Nat := l.sent.foldl (fun n x => n + (x.own + x.shared)) 0

/-- The credit balance of R48: for each pool, the credits at the sender and those of packets in transit or in slots make up
the pool. -/
def Link.balanced (l : Link) : Bool :=
  ([.vc0, .vc1, .vc2, .vc3].all fun c =>
    decide (l.own c + (l.sent.filter fun x => decide (x.packet.header.channel = c)).foldl (fun n x => n + x.own) 0 = reserved c)) &&
    decide (l.shared + l.sent.foldl (fun n x => n + x.shared) 0 = sharedPool)

/-! Response slots -/

/-- The response slots that a core reserves for its loads (R24): as many as it may have outstanding (R75). -/
def loadSlots : Nat := 4

/-- The response slots that a core reserves for its stores (R24): one for each entry of its store buffer (R78). -/
def storeSlots : Nat := 4

/-- The response-slot balance of R48: no more requests outstanding than reserved slots. -/
def Core.slotsBalanced (c : Core) : Bool := decide (c.loads.length ≤ loadSlots) && decide (c.stores.length ≤ storeSlots)

/-- A core's packet enters its link. -/
def Core.sends (c : Core) (key : Nat) (kind : PacketKind) (a : W36) (data : List W36) : Core :=
  { c with link := c.link.request (c.packet key kind a data) }

/-- The requests of a kind to `a` that a core has outstanding. -/
def Core.requests (c : Core) (kind : PacketKind) (a : W36) : Nat :=
  match kind with
  | .load => (c.loads.filter fun l => decide (l.addr = a)).length
  | .store => (c.stores.filter fun st => decide (st.addr = a)).length
  | _ => 1

/-- A core's request, the oldest of its kind to `a`, has been answered. -/
def Core.answers (c : Core) (kind : PacketKind) (a : W36) : Core :=
  { c with link := c.link.answered kind a (c.requests kind a - 1) }

/-- A core's request, with `later` of its kind to the same address behind it, has been launched (R21). -/
def Core.launched (c : Core) (kind : PacketKind) (a : W36) (later : Nat) : Bool := decide (c.link.unsent kind a ≤ later)

/-- The places in a list of destinations that no earlier one shares: what may arrive next (R23). -/
def firsts (ds : List Nat) : List Nat :=
  (ds.zipIdx.filter fun d => !(ds.take d.2).contains d.1).map (·.2)

/-- The places of a list that hold what may arrive next: launched, and first for its destination (R21, R23). -/
def Core.next (c : Core) (kind : PacketKind) (as_ : List W36) (ds : List Nat) : List Nat :=
  (firsts ds).filter fun i => c.launched kind (as_.getD i 0) (((as_.drop (i + 1)).filter fun b => decide (b = as_.getD i 0)).length)

/-- The destinations of requests to `as_` (R23): with mirroring on, a load goes to either DRAM channel, and no two are
taken to share one (R28). -/
def State.nodes (s : State) (kind : PacketKind) (as_ : List W36) : List Nat :=
  as_.zipIdx.map fun a =>
    if decide (kind = .load) && s.bit Reg.drmConfigMirror && decide (dramBase ≤ a.1.toNat) then 0x1000 + a.2 else s.nodeAt a.1.toNat

/-- One of the places `is`: a free choice where there are several (R23, log 2); none where there is none. -/
def State.pick (s : State) (is : List Nat) : Option Nat × State :=
  match is with
  | [] => (none, s)
  | [i] => (some i, s)
  | _ => let (n, t) := s.draw is.length; (some (is.getD n 0), t)

/-- The outstanding loads of a core of which one may return next (R21, R23). -/
def State.loadNext (s : State) (key : Nat) : List Nat :=
  let as_ := (s.core key).loads.map (·.addr)
  (s.core key).next .load as_ (s.nodes .load as_)

/-- The posted stores of a core of which one may complete next (R21, R23). -/
def State.storeNext (s : State) (key : Nat) : List Nat :=
  let as_ := (s.core key).stores.map (·.addr)
  (s.core key).next .store as_ (s.nodes .store as_)

/-- The posted stores among which a core that waits for one waits: where none has been launched, those that are first for their
destination, whose launch the wait covers. -/
def State.storeAwaited (s : State) (key : Nat) : List Nat :=
  match s.storeNext key with
  | [] => firsts (s.nodes .store ((s.core key).stores.map (·.addr)))
  | is => is

/-- The loads and stores of a core abandoned, and their packets with them; a tier token on its way stays (R26, R91). -/
def Core.abandon (c : Core) : Core := { c with loads := [], stores := [], link := (c.link.forget .load).forget .store }

/-- Nothing outstanding: loads and stores dropped, the link closed and its credits reclaimed (R31, R91). -/
def Core.flush (c : Core) : Core := { c with loads := [], stores := [], link := Link.reset }

/-! What a node sends -/

/-- A link by its number: a core's own, or one of the Flue's (log 47): `x` leads from node `x` to the hub, 0x1000 + x to node x, 0x2000
+ n from the gate of cluster n to the hub and 0x3000 + n back. -/
def State.link (s : State) (i : Nat) : Link := if i ≤ tenderKey then (s.core i).link else Sparse.get s.flue.links Link.reset i

/-- A link written. -/
def State.setLink (s : State) (i : Nat) (l : Link) : State :=
  if i ≤ tenderKey then s.setCore i { s.core i with link := l }
  else { s with flue := { s.flue with links := Sparse.put s.flue.links Link.reset i l } }

/-- The number of the link into node `x`. -/
def intoNode (x : Nat) : Nat := 0x1000 + x

/-- A packet handed to the link of the node that sends it. -/
def State.fluePost (s : State) (p : Packet) : State := s.setLink p.header.src ((s.link p.header.src).request p)

/-- The response slots that a source beside the cores reserves, and a core for its fetches (R24): the spec gives no number
(DESIGN CHOICE, log 47). -/
def nodeSlots : Nat := 4

/-- A packet of a source: a request that expects a response goes only with a response slot, behind those that wait for one
(R24). -/
def State.flueIssue (s : State) (p : Packet) : State :=
  let src := p.header.src
  if !p.header.kind.expects then s.fluePost p
  else
    let n := Sparse.get s.flue.awaited 0 src
    if n < nodeSlots ∧ (s.flue.blocked.any fun q => decide (q.header.src = src)) = false then
      { s with flue := { s.flue with awaited := Sparse.put s.flue.awaited 0 src (n + 1) } }.fluePost p
    else { s with flue := { s.flue with blocked := s.flue.blocked ++ [p] } }

/-- Words in packets of at most 7 data flits, each with the first word's place; one packet where there is no word. With 7, a
whole packet finds its credits in VC0's pool of 8 (R20; DESIGN CHOICE, log 47). -/
def inSevens (ws : List W36) : List (Nat × List W36) :=
  (List.range (max 1 ((ws.length + 6) / 7))).map fun i => (7 * i, (ws.drop (7 * i)).take 7)

/-- Node `src` sends words to the addresses from `a` on, on a channel (R18, R19). -/
def State.flueSend (s : State) (src : Nat) (ch : Channel4) (kind : PacketKind) (a : Nat) (ws : List W36) : State :=
  (inSevens ws).foldl (fun t x =>
    t.flueIssue ⟨⟨BitVec.ofNat 36 (a + x.1), src, ch, kind, x.2.length⟩, payload x.2⟩) s

/-- Node `src` asks for `n` words from `a` on, at most 8 in a packet. -/
def State.flueAsk (s : State) (src : Nat) (ch : Channel4) (a n : Nat) : State :=
  (List.range ((n + 7) / 8)).foldl (fun t i =>
    t.flueIssue ⟨⟨BitVec.ofNat 36 (a + 8 * i), src, ch, .load, min 8 (n - 8 * i)⟩, payload []⟩) s

/-- A transfer that lasts beyond its command shows the requests that its node has slots for; the later ones follow as those are
answered, and are not shown (DESIGN CHOICE, log 47). -/
def State.flueStream (s : State) (src : Nat) (ch : Channel4) (a n : Nat) : State := s.flueAsk src ch a (min n (8 * nodeSlots))

/-- The channel of what a device block moves for class `k` at Intake and Outlay (R19): Blaze on VC0, else a port's on VC2; for Grate in
Glow and Smoulder R19 names none (DESIGN CHOICE, log 47). -/
def portChannel (k : Nat) : Channel4 := if k = 0 then .vc0 else .vc2

/-- A fetch beyond local store: its request goes on the core's link, and its response has come when the instruction
issues (R19, R24). -/
def Core.fetches (c : Core) (key : Nat) : Core := (c.sends key .fetch c.pc []).answers .fetch c.pc

/-- The balances of R48 on the Flue: credits and packets of every link, and no more requests of a source outstanding than it has
response slots. -/
def State.flueBalanced (s : State) : Bool :=
  (s.cores.all fun e => e.2.link.balanced && e.2.slotsBalanced) && (s.flue.links.all fun e => e.2.balanced) &&
    s.flue.awaited.all fun e => decide (e.2 ≤ nodeSlots)

end Sys2Proof.Machine
end

