-- ==== Sys2Proof/Machine/Ashpit.lean ====
section
/-! DEFINITION. What every family leaves in Mantel: page programs and block erases, directory pages (R409) and Ashpit
records (R417-R421). -/

namespace Sys2Proof.Machine

/-- A byte of Mantel's array (R398). -/
def State.flashByte (s : State) (a : Nat) : Byte := Sparse.get s.mantel.flash erasedByte a

/-- `n` bytes of Mantel's array from `a` on. -/
def State.flashBytes (s : State) (a n : Nat) : List Byte := Sparse.getMany s.mantel.flash erasedByte a n

/-- The raw cells of page `g` are all erased: no program since its last erase (R398, R405). -/
def State.pageErased (s : State) (g : Nat) : Bool := !Sparse.get s.mantel.programmed false g

/-- The 4-byte field at byte `off` of the header of component `c`'s image, whose slot begins at `base`: the image that the unit was
delivered with where nothing has been programmed there (R509, log 40). -/
def State.headField (s : State) (c base off : Nat) : Nat :=
  if s.pageErased (base / 512) then (Config.deliveredField c off).toNat else beNat (s.flashBytes (base + off) 4)

/-- Pages `g` and following marked programmed. -/
def markPages (m : Sparse Bool) (g n : Nat) : Sparse Bool := Sparse.putMany m false g (List.replicate n true)

/-- Bytes put into the array from the page boundary `a` on; the rest of the last page is programmed as 0xFF (R398). -/
def State.putFlash (s : State) (a : Nat) (bs : List Byte) : State :=
  { s with mantel := { s.mantel with
      flash := Sparse.putMany s.mantel.flash erasedByte a bs
      programmed := markPages s.mantel.programmed (a / 512) ((bs.length + 511) / 512) } }

/-- Bytes programmed from the page boundary `a` on: a page is programmed once between two erases, and one that is not erased keeps what
it holds (R398). -/
def State.programFlash (s : State) (a : Nat) (bs : List Byte) : State :=
  let pages := List.range ((bs.length + 511) / 512)
  if pages.all fun i => s.pageErased (a / 512 + i) then s.putFlash a bs
  else
    pages.foldl (fun t i =>
      if t.pageErased (a / 512 + i) then t.putFlash (a + 512 * i) ((bs.drop (512 * i)).take 512) else t) s

/-- Block `b` erased; its erase count and the highest count rise (R397, R398, R423). -/
def State.eraseBlock (s : State) (b : Nat) : State :=
  let w := Sparse.get s.mantel.wear 0 b + 1
  let s1 := { s with mantel := { s.mantel with
      flash := Sparse.clear s.mantel.flash (b * 0x10000) ((b + 1) * 0x10000)
      programmed := Sparse.clear s.mantel.programmed (b * 128) ((b + 1) * 128)
      wear := Sparse.put s.mantel.wear 0 b w } }
  s1.setFld Reg.mntWearMaxErases (max (s1.fld Reg.mntWearMaxErases) (min w 0x1FFFF))

/-- Blocks `b` to `b + n - 1` erased. -/
def State.eraseBlocks (s : State) (b n : Nat) : State := (List.range n).foldl (fun t i => t.eraseBlock (b + i)) s

/-- The directory page with sequence `seq` as the unit stands (R409). -/
def State.dirPage (s : State) (d : Directory) : List Byte :=
  let body :=
    beBytes 4 0x4D444952 ++ beBytes 4 d.seq
      ++ [BitVec.ofNat 8 d.activeBank, BitVec.ofNat 8 (bit01 d.pfComplete + 2 * bit01 d.reliningCut), 0, 0]
      ++ beBytes 4 d.highest ++ beBytes 4 d.claim
      ++ beBytes 4 (s.fld Reg.ashSecondsSeconds) ++ beBytes 3 (s.fld Reg.ashCyclesCycles) ++ [0]
      ++ beBytes 4 (s.fld Reg.ashRefusedRefused) ++ beBytes 4 s.ashpit.head
      ++ beBytes 4 (s.fld Reg.ashSeqSeq)
      ++ (List.range 7).map (fun i => BitVec.ofNat 8 (s.fld (Reg.rlnVerState i)))
      ++ List.replicate 461 0
  body ++ beBytes 4 (crc32c body)

/-- The byte address of directory page position `p`, 0 to 255 over D0 and D1 (R409). -/
def dirAddr (p : Nat) : Nat := p % 256 * 512

/-- A change of the directory: one privileged page program is queued. When the write position enters page 120 of a
block, the other block is erased in the background (R408, R409). -/
def State.dirCommit (s : State) (f : Directory → Directory) : State :=
  let d0 := f s.mantel.dir
  let d := { d0 with seq := (d0.seq + 1) % 2 ^ 32 }
  let page := s.dirPage d
  let next := (d.position + 1) % 256
  { s with mantel := { s.mantel with
      dir := { d with position := next }
      priv := s.mantel.priv ++ [⟨1, dirAddr d.position, page, d.seq⟩]
      background := if next % 128 = 120 then s.mantel.background ++ [1 - next / 128] else s.mantel.background } }

/-- The first byte of the Ashpit log (R401). -/
def ashLogBase : Nat := 0x7000000

/-- The size of the Ashpit log (R401). -/
def ashLogSize : Nat := 0x1000000

/-- The Ashpit buffer's size (R418). -/
def ashBufBytes : Nat := 0x10000

/-- The sources whose records are all privileged: ERA, DMP, SEC, RLN, FGD and SWP (R418). -/
def privilegedSource (src : Nat) : Bool :=
  src = 0x016 || src = 0x017 || src = 0x009 || src = 0x007 || src = 0x002 || src = 0x004

/-- An Ashpit record (R417): its payload is a list of 4-byte items (log 13). -/
def ashRecord (src code : Nat) (priv : Bool) (seconds cycles seq : Nat) (payload : List Nat) : List Byte :=
  let len := 16 + 4 * payload.length + (if priv then 4 else 0)
  let body := beBytes 2 len ++ beBytes 2 (src + (if priv then 0x8000 else 0)) ++ beBytes 4 seconds ++ beBytes 3 cycles
    ++ [BitVec.ofNat 8 code] ++ beBytes 4 seq ++ payload.flatMap (beBytes 4)
  if priv then body ++ beBytes 4 (crc32c body) else body

/-- Every record is committed at once: no buffer or no DRAM (R418). -/
def State.ashDirect (s : State) : Bool := decide (s.fld Reg.ashBufBaseBufBase < 0x100000) || !s.hasDram

/-- A byte count rounded up to whole pages. -/
def pageRound (n : Nat) : Nat := (n + 511) / 512 * 512

/-- Bytes buffered that no running flush covers. -/
def State.ashUnflushed (s : State) : Nat := s.fld Reg.ashFillFill - s.ashpit.flushLen

/-- The log offset moved, and ASH_HEAD with it. -/
def State.setAshHead (s : State) (h : Nat) : State :=
  { s with ashpit := { s.ashpit with head := h } }.setFld Reg.ashHeadHead h

/-- Log bytes free beyond what is already promised to buffered records. -/
def State.ashFits (s : State) (extra : Nat) : Bool :=
  decide (s.ashpit.head + pageRound s.ashUnflushed + extra ≤ ashLogSize)

/-- A record refused or dropped is captured when it is the first (R424). -/
def State.ashCapture (s : State) (src code : Nat) : State :=
  s.capture Reg.ashErrorCaptureSource [(Reg.ashErrorCaptureSource, src), (Reg.ashErrorCaptureCode, code)]

/-- A record refused by a full log (R420). -/
def State.ashRefuse (s : State) (src code : Nat) : State :=
  let s1 := (s.count Reg.ashRefusedRefused).ashCapture src code
  if s1.bit Reg.ashStatusFull then s1 else (s1.setFld Reg.ashStatusFull 1).raise Reg.ashEventFull

/-- A record dropped (R418, R424). -/
def State.ashDrop (s : State) (src code : Nat) : State :=
  ((s.count Reg.ashDroppedDropped).ashCapture src code).raise Reg.ashEventDropped

/-- `n` bytes of the log from its write offset on lie in blocks that no clear has yet to erase (R421). -/
def State.logFree (s : State) (n : Nat) : Bool :=
  let lo := (ashLogBase + s.ashpit.head) / 0x10000
  let hi := (ashLogBase + s.ashpit.head + n - 1) / 0x10000
  !s.bit Reg.ashStatusClearing || !(s.mantel.background.any fun b => decide (lo ≤ b) && decide (b ≤ hi))

/-- A flush starts: the buffered bytes get their place in the log (R418). It waits while a clear has yet to erase that place (R421),
and a flush asked for during another follows it. -/
def State.ashStartFlush (s : State) : State :=
  let fill := s.fld Reg.ashFillFill
  if s.bit Reg.ashStatusFlushing || !s.logFree fill || !s.ashpit.waitPages.isEmpty then
    { s with ashpit := { s.ashpit with flushAgain := true } }
  else if fill = 0 then s
  else
    let s1 := { s with ashpit := { s.ashpit with flushLen := fill, flushAt := s.ashpit.head, flushAgain := false } }
    (s1.setAshHead (s.ashpit.head + pageRound fill)).setFld Reg.ashStatusFlushing 1

/-- One record page given its place in the log and queued for its commit (R418). -/
def State.ashCommitPage (s : State) (bs : List Byte) : State :=
  let head := s.ashpit.head
  let s1 : State := { s with mantel := { s.mantel with priv := s.mantel.priv ++ [⟨2, ashLogBase + head, bs, 0⟩] } }
  s1.setAshHead (head + 512)

/-- A record for a page of its own: queued at once, or kept while a clear has yet to erase its block (R418, R421). -/
def State.ashOwnPage (s : State) (bs : List Byte) : State :=
  if !s.logFree 512 || !s.ashpit.waitPages.isEmpty then { s with ashpit := { s.ashpit with waitPages := s.ashpit.waitPages ++ [bs] } }
  else s.ashCommitPage bs

/-- A record into the DRAM buffer, 4 bytes per word, over VC3 (R19, R403, R418). -/
def State.ashBuffer (s : State) (bs : List Byte) : State :=
  let fill := s.fld Reg.ashFillFill
  let at_ := s.fld Reg.ashBufBaseBufBase * 2 ^ 14 + fill / 4
  let s1 := ((s.blockWrites at_ (quadWords bs)).flueSend nodeAshpit .vc3 .store at_ (quadWords bs)).setFld Reg.ashFillFill
    (fill + bs.length)
  if fill < 0xC000 && decide (0xC000 ≤ fill + bs.length) then (s1.raise Reg.ashEventThreshold).ashStartFlush else s1

/-- An Ashpit record (R417, R418, R420): `named` says that the rule calling for it names it privileged. -/
def State.record (s : State) (src code : Nat) (named : Bool) (payload : List Nat) : State :=
  let priv := named || privilegedSource src
  if !priv && !s.bit Reg.ashControlNormalEn then s.ashDrop src code
  else if s.bit Reg.ashStatusFull then s.ashRefuse src code
  else
    let bs := ashRecord src code priv (s.fld Reg.ashSecondsSeconds) (s.fld Reg.ashCyclesCycles) (s.fld Reg.ashSeqSeq) payload
    if priv || s.ashDirect then
      if s.ashFits (512 * (s.ashpit.waitPages.length + 1)) then
        let s1 := (s.countWrap Reg.ashSeqSeq).ashOwnPage bs
        if priv && !s1.ashDirect then s1.ashStartFlush else s1
      else s.ashRefuse src code
    else if decide (ashBufBytes < s.fld Reg.ashFillFill + bs.length) then s.ashDrop src code
    else if decide (s.ashpit.head + pageRound (s.ashUnflushed + bs.length) ≤ ashLogSize) then
      (s.countWrap Reg.ashSeqSeq).ashBuffer bs
    else s.ashRefuse src code

/-- A running flush ends: its bytes, read over VC3, lie in the log, and the rest of the buffer moves to the front (R19, R28, R418,
log 13). -/
def State.ashEndFlush (s : State) : State :=
  let a := s.ashpit
  let base := s.fld Reg.ashBufBaseBufBase * 2 ^ 14
  let rest := s.ashUnflushed
  let bs := quadBytes (s.dramSeen base (a.flushLen / 4))
  let tail := s.dramSeen (base + a.flushLen / 4) ((rest + 3) / 4)
  let n := a.flushLen / 4 + (rest + 3) / 4
  let s0 := (s.dramAsked base n).flueStream nodeAshpit .vc3 base n
  let s1 := s0.programFlash (ashLogBase + a.flushAt) bs
  let s2 := ({ s1 with ashpit := { a with flushLen := 0 } }.blockWrites base tail).setFld Reg.ashFillFill rest
  let s3 := (s2.setFld Reg.ashStatusFlushing 0).raise Reg.ashEventFlushed
  if a.flushAgain || decide (0xC000 ≤ rest) then
    { s3 with ashpit := { s3.ashpit with flushAgain := false } }.ashStartFlush
  else s3

end Sys2Proof.Machine
end

