-- ==== Sys2Proof/Machine/Cores.lean ====
section
/-! DEFINITION. What a Halder-36 core holds and how it is read and written: registers and banks (R56, R57, R97), the PSW
(R60), local store with the boot ROM overlay (R496), pending loads, and the Tender's exception entry (R92-R94). -/

namespace Sys2Proof.Machine

/-- The key of a core among the cores of the state. -/
def coreKey (c : CoreId) : Nat :=
  match c with
  | .engine e => e.val
  | .tender => tenderKey

/-- Whether a core is an engine (R97). -/
def isEngine (c : CoreId) : Bool :=
  match c with
  | .engine _ => true
  | .tender => false

/-- The state of a core. -/
def State.at (s : State) (c : CoreId) : Core := s.core (coreKey c)

/-- A core changed. -/
def State.mapCore (s : State) (c : CoreId) (f : Core → Core) : State := s.setCore (coreKey c) (f (s.at c))

/-- Bit `i` of the PSW. -/
def Core.pswBit (c : Core) (i : Nat) : Bool := c.psw.toNat.testBit i

/-- The PSW with bit `i` written. -/
def Core.setPswBit (c : Core) (i : Nat) (b : Bool) : Core :=
  { c with psw := BitVec.ofNat 36 (withBit c.psw.toNat i b) }

/-- The PSW with bits [lo + n - 1 : lo] written. -/
def Core.setPswField (c : Core) (lo n v : Nat) : Core :=
  let old := c.psw.toNat
  { c with psw := BitVec.ofNat 36 (old - bitsOf old lo n * 2 ^ lo + v % 2 ^ n * 2 ^ lo) }

/-- Privileged (R60). -/
def Core.priv (c : Core) : Bool := c.pswBit 0

/-- In the secure world (R60). -/
def Core.inSecure (c : Core) : Bool := c.pswBit 1

/-- The stack bank of the current world; an engine uses the normal one (R83, R97). -/
def Core.bank (c : Core) : Bank := if c.inSecure then c.secure else c.normal

/-- The current world's stack bank written. -/
def Core.setBank (c : Core) (b : Bank) : Core := if c.inSecure then { c with secure := b } else { c with normal := b }

/-- A general register as it stands, as a plain word (R56, R57). -/
def Core.reg (c : Core) (r : Reg) : W36 :=
  if r = 0 then 0 else if r = 31 then c.bank.w31 else Sparse.get c.w 0 r.toNat

/-- A general register written; writes to w0 are discarded (R56). -/
def Core.setReg (c : Core) (r : Reg) (v : W36) : Core :=
  if r = 0 then c
  else if r = 31 then c.setBank { c.bank with w31 := v }
  else { c with w := Sparse.put c.w 0 r.toNat v }

/-- Registers written in order. -/
def Core.setRegs (c : Core) (ds : List (Reg × W36)) : Core := ds.foldl (fun x p => x.setReg p.1 p.2) c

/-- A system register that the core holds by number. -/
def Core.sysReg (c : Core) (n : Nat) : W36 := Sparse.get c.sys 0 n

/-- A system register written. -/
def Core.setSys (c : Core) (n : Nat) (v : W36) : Core := { c with sys := Sparse.put c.sys 0 n v }

/-- A word of the core's own local store. -/
def Core.lsWord (c : Core) (a : Nat) : W36 := Sparse.get c.ls 0 a

/-- Words of the core's own local store written from `a` on: their check bits are valid again (R87). -/
def Core.storeLs (c : Core) (a : Nat) (vs : List W36) : Core :=
  { c with ls := Sparse.putMany c.ls 0 a vs, lsBad := c.lsBad.filter fun x => !(decide (a ≤ x) && decide (x < a + vs.length)) }

/-- A word of the core's own local store written. -/
def Core.setLs (c : Core) (a : Nat) (v : W36) : Core := c.storeLs a [v]

/-- A local store loaded whole below `limit`: its check bits are valid there. -/
def Core.loadLs (c : Core) (ls : Sparse W36) (limit : Nat) : Core :=
  { c with ls := ls, lsBad := c.lsBad.filter fun x => decide (limit ≤ x) }

/-- What an outstanding load writes: nothing where its data is uncorrectable (R132). -/
def Load.writes (l : Load) : List (Reg × W36) := if l.bad then [] else l.dests

/-- Every outstanding load lands, oldest first (R72, R89). -/
def Core.landAll (c : Core) : Core :=
  c.loads.foldl (fun x l => { (x.setRegs l.writes).answers .load l.addr with loads := x.loads.tail }) c

/-- No load-delay slot is open. -/
def Core.endSlot (c : Core) : Core := { c with slot := [], afterLoad := false }

/-- The size of a local store in words (R27). -/
def lsSize : Nat := 0xC000

/-- The boot ROM overlays the Tender's local store (R496, R504). -/
def State.romOn (s : State) : Bool := s.bit Reg.tenStatusRom

/-- A word of local store as the core reads it, through the ROM overlay on the Tender (R496). -/
def State.lsRead (s : State) (key a : Nat) : W36 :=
  if key = tenderKey && s.romOn && decide (a < 0x2000) then Config.romWord a else (s.core key).lsWord a

/-- The two guard words of a window hold the address (R83); an empty window has none (R98, log 49). -/
def Bank.guards (b : Bank) (a : Nat) : Bool :=
  decide (b.stkLo.toNat < b.stkHi.toNat) && (decide (a = b.stkLo.toNat) || decide (a = b.stkLo.toNat + 1))

/-- The guard words of the current world's window hold the address (R83, R86). -/
def Core.inGuard (c : Core) (a : Nat) : Bool := c.bank.guards a

/-- An exception push is possible (R84). -/
def Core.canPush (c : Core) : Bool :=
  decide (c.bank.stkLo.toNat + 2 ≤ c.bank.w31.toNat) && decide (c.bank.w31.toNat ≤ c.bank.stkHi.toNat)

/-- The frame of an exception pushed: the pc at w31 - 1, the PSW at w31 - 2 (R91, R92). -/
def Core.pushFrame (c : Core) (pc psw : W36) : Core :=
  let sp := c.bank.w31.toNat
  ((c.setLs (sp - 1) pc).setLs (sp - 2) psw).setReg 31 (BitVec.ofNat 36 (sp - 2))

/-- The PSW to be saved: LDS says that a load-delay slot instruction raised the exception (R90). -/
def Core.savedPsw (c : Core) (lds : Bool) : W36 := BitVec.ofNat 36 (withBit c.psw.toNat 6 lds)

/-- The fault registers of R62 and R65 for cause `cause`. -/
def Core.setFault (c : Core) (cause : Nat) (fpc faddr fsp : W36) (lds imprecise pushed : Bool) : Core :=
  (((((c.setSys 0x020 (BitVec.ofNat 36 cause)).setSys 0x021 fpc).setSys 0x022 (c.savedPsw lds)).setSys 0x023
    faddr).setSys 0x024 fsp).setSys 0x025
      (BitVec.ofNat 36 (cause + 2 ^ 8 * bit01 pushed + 2 ^ 9 * bit01 imprecise + 2 ^ 10 * bit01 lds))

/-- The causes that are faults, which fill the fault registers (R62, R87): 0x01 to 0x09 (log 14). -/
def isFaultCause (c : Nat) : Bool := decide (1 ≤ c) && decide (c ≤ 9)

/-- An exception about to be taken: its cause, the pc that the frame holds, the faulting instruction, the access
address (the pc where the exception has no access, log 48), whether the exception is an imprecise one (R87, R88), and
whether a load-delay slot instruction raised it (R90). -/
structure Trap where
  cause : Nat
  ret : W36
  fpc : W36
  faddr : W36
  imprecise : Bool
  lds : Bool
  deriving DecidableEq, Repr

/-- The exception of an uncorrectable load (R88). -/
def Load.trap (l : Load) : Trap := ⟨0x09, l.pc, l.pc, l.addr, true, l.inSlot⟩

/-- The exception that a core takes when it is about to take `t`: entry waits until pending loads have landed (R89), and
the first of them that is uncorrectable raises its own, which goes first (R87, log 50). -/
def Core.firstTrap (x : Core) (t : Trap) : Trap :=
  if t.cause = 0x09 then t else match x.loads.find? (·.bad) with | some l => l.trap | none => t

/-- The Tender locked up (R94): it holds FCAUSE, FSP and FPC, with FFLAGS.CAUSE the same as FCAUSE, and LDS in FPSW and FFLAGS as
the faulting instruction has it (R65, R90); it writes and issues nothing more: loads outstanding are dropped. -/
def Core.lockUp (c : Core) (fpc psw : W36) (imprecise lds : Bool) : Core :=
  let c1 := (((c.setSys 0x020 8).setSys 0x024 c.bank.w31).setSys 0x021 fpc).setSys 0x022 (BitVec.ofNat 36 (withBit psw.toNat 6 lds))
  let c2 := c1.setSys 0x025 (BitVec.ofNat 36 (8 + 2 ^ 9 * bit01 imprecise + 2 ^ 10 * bit01 lds))
  { c2.loads.foldl (fun x l => { x.answers .load l.addr with loads := x.loads.tail }) c2.endSlot with issue := .lockedUp }

/-- The world that an exception of cause `cause` enters: SVC and NMI enter the secure world, an interrupt the world
given, any other the current one (R92). -/
def Core.targetWorld (c : Core) (cause : Nat) (irqSecure : Bool) : Bool :=
  if cause = 0x0C ∨ cause = 0x11 then true else if cause = 0x10 then irqSecure else c.inSecure

/-- The Tender's exception entry (R92), with the pending register writes landed first (R89). -/
def Core.tenderEntry (c0 : Core) (t : Trap) (irqSecure : Bool) : Core :=
  let lds := t.lds
  let c := c0.landAll.endSlot
  let old := c.savedPsw lds
  let fsp := c.bank.w31
  let world := c.targetWorld t.cause irqSecure
  let c1 := (c.setPswBit 1 world).setPswBit 6 false
  if c1.canPush then
    let c2 := if isFaultCause t.cause then c1.setFault t.cause t.fpc t.faddr fsp lds t.imprecise true else c1
    let c3 := (c2.setSys 0x022 (if isFaultCause t.cause then old else c2.sysReg 0x022)).pushFrame t.ret old
    let c4 := (((c3.setPswBit 0 true).setPswBit 2 false).setPswField 17 8 t.cause)
    let c5 := if t.cause = 0x11 then c4.setPswBit 3 true else c4
    { c5 with
      pc := c5.sysReg (if world then 0x030 else 0x031) + BitVec.ofNat 36 (4 * t.cause)
      issue := .running }
  else c1.lockUp t.fpc c.psw t.imprecise lds

/-- The Tender runs instructions: neither locked up nor stopped (R94). -/
def State.tenderUp (s : State) : Bool := decide ((s.core tenderKey).issue ≠ .lockedUp)

/-- The Tender takes an exception (R92); a locked-up one takes none (R94). -/
def State.tenderTrap (s : State) (t : Trap) (irqSecure : Bool) : State :=
  if s.tenderUp then s.setCore tenderKey ((s.core tenderKey).tenderEntry t irqSecure) else s

end Sys2Proof.Machine
end

