-- ==== Sys2Proof/Machine/Link.lean ====
section
/-! DEFINITION. What travels on Erair, word for word: cells and their headers (R329, R330), the heartbeat (R331), cycle records
(R333), acknowledgements (R337) and the other items, and the queue of cells at the sender. -/

namespace Sys2Proof.Machine

/-- The 32-bit value of a word. -/
def low32 (w : W36) : Nat := w.toNat % 2 ^ 32

/-- A word with value `v` and bits [35:32] zero. -/
def bareWord (v : Nat) : W36 := BitVec.ofNat 36 (v % 2 ^ 32)

/-! Cells -/

/-- One step of the CRC-16 division by polynomial 0x1021. -/
def crc16Bit (c : Nat) : Nat := if c.testBit 15 then (2 * c % 2 ^ 16) ^^^ 0x1021 else 2 * c % 2 ^ 16

/-- CRC-16 after one more byte. -/
def crc16Byte (c : Nat) (b : Byte) : Nat := (List.range 8).foldl (fun x _ => crc16Bit x) (c ^^^ b.toNat * 2 ^ 8)

/-- The CRC-16 of a cell, whose CRC16 field is taken as zero (R330), over its 72 bytes, most significant bit first from 0xFFFF
(PRESUMED, log 78). -/
def crc16 (ws : List W36) : Nat := (packWords ws).foldl crc16Byte 0xFFFF

/-- The header word of a cell (R330). -/
def cellHeader (type cls : Nat) (first last : Bool) (len crc : Nat) : W36 :=
  bareWord (type % 16 + 16 * (cls % 4) + 64 * bit01 first + 128 * bit01 last + 256 * len + 2 ^ 16 * crc)

/-- A cell of at most 15 payload words (R330). -/
def cellOf (type cls : Nat) (first last : Bool) (payload : List W36) : List W36 :=
  let body := payload ++ List.replicate (15 - payload.length) 0
  cellHeader type cls first last payload.length (crc16 (cellHeader type cls first last payload.length 0 :: body)) :: body

/-- The cells of an item, first to last (R330). -/
def cellsOf (type cls : Nat) (payload : List W36) : List (List W36) :=
  let n := (payload.length + 14) / 15
  (List.range n).map fun i => cellOf type cls (decide (i = 0)) (decide (i + 1 = n)) ((payload.drop (15 * i)).take 15)

/-- The header word of a received cell. -/
def cellWord0 (c : List W36) : Nat := (c.getD 0 0).toNat

/-- A received cell is kept: its CRC fits and its TYPE is one of R330. -/
def cellKept (c : List W36) : Bool :=
  let h := cellWord0 c
  decide (c.length = 16) && decide (bitsOf h 16 16 = crc16 (bareWord (h % 2 ^ 16) :: c.drop 1)) && decide (bitsOf h 0 4 ≤ 5)

/-! The heartbeat -/

/-- The payload of a heartbeat (R331). -/
def heartbeatWords (h : Heartbeat) : List W36 :=
  [bareWord (h.unit + 2 * h.role + 16 * bit01 h.held + 32 * bit01 h.leaving), bareWord h.claimEpoch.toNat,
    bareWord h.highest.toNat, bareWord h.time, bareWord (h.time / 2 ^ 32)]
    ++ [0, 1, 2].map (fun k => bareWord (h.cycles.getD k 0).toNat)
    ++ [bareWord h.seq.toNat, bareWord h.eraVersion.toNat, bareWord h.programId.toNat, bareWord h.version.toNat,
      bareWord h.layoutHash.toNat, bareWord h.editState]

/-- The heartbeat that a payload spells (R331). -/
def heartbeatOf (ws : List W36) : Heartbeat :=
  let w (i : Nat) : Nat := low32 (ws.getD i 0)
  let v (i : Nat) : W32 := BitVec.ofNat 32 (w i)
  { unit := bitsOf (w 0) 0 1, role := bitsOf (w 0) 1 3, held := bitOf (w 0) 4, leaving := bitOf (w 0) 5
    claimEpoch := v 1, highest := v 2, time := w 3 + 2 ^ 32 * w 4, cycles := [v 5, v 6, v 7], seq := v 8
    eraVersion := BitVec.ofNat 16 (w 9), programId := v 10, version := v 11, layoutHash := v 12, editState := bitsOf (w 13) 0 3 }

/-! Cycle records -/

/-- A STATIONS entry (R333). -/
def stationWords (x : Nat × W32) : List W36 := [bareWord (x.1 % 2 ^ 17), bareWord x.2.toNat]

/-- A BLOCKS entry (R333). -/
def blockWords (e : BlockEntry) : List W36 :=
  [bareWord (e.block % 2 ^ 20 + 2 ^ 20 * (e.op % 8) + 2 ^ 23 * (e.cause % 2 ^ 8)), bareWord e.info.toNat]

/-- A DELTA entry (R333). -/
def deltaWords (d : Delta) : List W36 :=
  bareWord (d.granule % 2 ^ 20 + 2 ^ 20 * bit01 d.ret) :: bareWord d.mask.toNat :: d.words

/-- The sections of a record, in order (R333). -/
def recordSections (r : CycleRecord) : List W36 :=
  (match r.mark with | some m => m.map fun v => bareWord v.toNat | none => []) ++ r.stations.flatMap stationWords
    ++ r.events.flatMap (fun e => [e.1, e.2]) ++ r.blocks.flatMap blockWords ++ r.delta.flatMap deltaWords

/-- The record's words before its CRC (R333). -/
def recordBody (r : CycleRecord) : List W36 :=
  [bareWord (r.cls.val + 4 * bit01 r.mark.isSome + 8 * bit01 r.faults), bareWord r.cycle, bareWord (r.cycle / 2 ^ 32),
    bareWord r.epoch.toNat, bareWord ((recordSections r).length + 9), bareWord r.stations.length, bareWord r.delta.length,
    bareWord (r.events.length + 2 ^ 13 * r.blocks.length)] ++ recordSections r

/-- The CRC-32C of a record's words, each as its 8-byte slot (R333; the bytes PRESUMED, log 12). -/
def recordCrc (ws : List W36) : Nat := crc32c (ws.flatMap slotBytes)

/-- A record as it is sent: its CRC last (R333). -/
def recordWords (r : CycleRecord) : List W36 := recordBody r ++ [bareWord (recordCrc (recordBody r))]

/-- The words of a record are intact: LENGTH and CRC fit (R333). -/
def recordIntact (ws : List W36) : Bool :=
  decide (9 ≤ ws.length) && decide (low32 (ws.getD 4 0) = ws.length) &&
    decide (low32 (ws.getD (ws.length - 1) 0) = recordCrc (ws.take (ws.length - 1)))

/-- The number of 1 bits of a mask. -/
def maskCount (m : Nat) : Nat := ((List.range 32).filter fun i => m.testBit i).length

/-- `n` DELTA entries from the front of the words, and the words after them (R333). -/
def takeDeltas (n : Nat) (ws : List W36) : Option (List Delta × List W36) :=
  match n, ws with
  | 0, ws => some ([], ws)
  | k + 1, g :: m :: rest =>
    let c := maskCount (low32 m)
    if rest.length < c then none
    else (takeDeltas k (rest.drop c)).map fun x =>
      (⟨bitsOf g.toNat 0 20, bitOf g.toNat 20, BitVec.ofNat 32 (low32 m), rest.take c⟩ :: x.1, x.2)
  | _ + 1, _ => none

/-- `n` entries of two words from the front of the words. -/
def pairsOf (ws : List W36) (n : Nat) : List (W36 × W36) := (List.range n).map fun i => (ws.getD (2 * i) 0, ws.getD (2 * i + 1) 0)

/-- The record that an intact item spells; none where its numbers do not fit its words (R333). -/
def recordOf (ws : List W36) : Option CycleRecord :=
  let w (i : Nat) : Nat := (ws.getD i 0).toNat
  let nS := bitsOf (w 5) 0 17
  let nE := bitsOf (w 7) 0 13
  let nB := bitsOf (w 7) 13 13
  let marked := bitOf (w 0) 2
  let s0 := (ws.drop 8).take (ws.length - 9)
  let s1 := if marked then s0.drop 12 else s0
  let s2 := s1.drop (2 * nS)
  let s3 := s2.drop (2 * nE)
  if h : bitsOf (w 0) 0 2 < 3 then
    if s0.length < (if marked then 12 else 0) + 2 * (nS + nE + nB) then none
    else
      match takeDeltas (bitsOf (w 6) 0 20) (s3.drop (2 * nB)) with
      | some (ds, []) => some {
          cls := ⟨bitsOf (w 0) 0 2, h⟩
          mark := if marked then some ((s0.take 12).map fun x => BitVec.ofNat 32 (low32 x)) else none
          faults := bitOf (w 0) 3
          cycle := low32 (ws.getD 1 0) + 2 ^ 32 * low32 (ws.getD 2 0)
          epoch := BitVec.ofNat 32 (w 3)
          stations := (pairsOf s1 nS).map fun x => (bitsOf x.1.toNat 0 17, BitVec.ofNat 32 (low32 x.2))
          events := pairsOf s2 nE
          blocks := (pairsOf s3 nB).map fun x =>
            ⟨bitsOf x.1.toNat 0 20, bitsOf x.1.toNat 20 3, bitsOf x.1.toNat 23 8, BitVec.ofNat 32 (low32 x.2)⟩
          delta := ds }
      | _ => none
  else none

/-! Items -/

/-- The words of the states that end a copy: each list after its length (R343; the layout is a DESIGN CHOICE, log 79). -/
def statesWords (x : SyncStates) : List W36 :=
  [bareWord x.stations.length] ++ x.stations.flatMap (fun e => [bareWord e.1, bareWord e.2.1, bareWord e.2.2.toNat])
    ++ x.rings.flatMap (fun r => bareWord r.length :: r.flatMap fun e => [e.1, e.2])
    ++ x.control.flatMap (fun c => c.map bareWord)
    ++ [bareWord x.blocks.length] ++ x.blocks.flatMap (fun b => [bareWord b.1, bareWord (b.2.1 + 4 * bit01 b.2.2)])
    ++ [bareWord x.instances.length] ++ x.instances.flatMap (fun i => [bareWord i.1, bareWord i.2])
    ++ x.stalls.map (fun b => bareWord (bit01 b)) ++ (List.range 8).map (fun i => bareWord (x.key / 2 ^ (32 * i)))

/-- The cells of an item (R330, R331, R333, R337, R343): TYPE 1 heartbeat, 2 record, 3 acknowledgement, 4 message, 5 copy. The
words of messages and copies are a DESIGN CHOICE (log 79). -/
def itemCells (x : ErairItem) : List (List W36) :=
  match x with
  | .heartbeat h => cellsOf 1 0 (heartbeatWords h)
  | .record r => cellsOf 2 r.cls.val (recordWords r)
  | .ack k cycle result => cellsOf 3 k [bareWord cycle, bareWord result]
  | .message kind args => cellsOf 4 0 (bareWord kind :: args.map bareWord)
  | .states y => cellsOf 4 0 (bareWord 10 :: statesWords y)
  | .copy j cur prev => cellsOf 5 0 (bareWord j :: cur ++ prev)

/-- The Erair link can carry cells: trained, with a lane in service, enabled, its SerDes on (R329, R430). -/
def State.erairOn (s : State) : Bool :=
  s.erair.up && decide (s.fld Reg.eraStatusLanes ≠ 0) && s.bit Reg.eraControlEnable && s.domainOn 21

/-- The cells at the sender with those of one more item: a heartbeat goes ahead of every other cell that waits (R330). -/
def queueCells (q : List (List W36)) (x : ErairItem) : List (List W36) :=
  match x with
  | .heartbeat _ => q.takeWhile (fun c => decide (cellWord0 c % 16 = 1)) ++ itemCells x ++
      q.dropWhile (fun c => decide (cellWord0 c % 16 = 1))
  | _ => q ++ itemCells x

/-- An item handed to the link: its cells wait at the sender (R329, R330). -/
def State.erairSend (s : State) (x : ErairItem) : State :=
  if s.erairOn then { s with erair := { s.erair with cells := queueCells s.erair.cells x } } else s

/-- The lane that carries the next cell: the next one in service after the last used (R329). -/
def State.nextLane (s : State) : Option Nat :=
  ((List.range 4).map fun i => (s.erair.lane + 1 + i) % 4).find? fun l => s.fldBit Reg.eraStatusLanes l

/-- The first cell that waits leaves on its lane, as nine 64-bit blocks; one cell in a tick (R329; log 78). -/
def State.erairTick (s : State) : State :=
  match s.erairOn, s.erair.cells, s.nextLane with
  | true, c :: rest, some l => { s with erair := { s.erair with cells := rest, lane := l } }.send (.cell l (packWords c))
  | _, _, _ => s

end Sys2Proof.Machine
end

