-- ==== Sys2Proof/Machine/Image.lean ====
section
/-! DEFINITION. The Hearth: regions and views (R99, R100), the class map, the lazy flip (R104-R111), the stir map and its
echo (R114-R116), injected writes, forces and substitutes (R117-R124), the retain capture, the event rings and the
handling of uncorrectable words (R126-R132). Image words are numbered 32 j + i over the image granules j. -/

namespace Sys2Proof.Machine

/-- The Hearth's first address and its size (R27). -/
def hearthBase : Nat := 0x1000000

/-- The regions of R99, and the reserved rest. -/
inductive Region where
  | boolCur
  | boolPrev
  | wordCur
  | wordPrev
  | classMap
  | stir (k : Nat)
  | hints
  | rings
  | control
  | retainTable
  | capture
  | reserved
  deriving DecidableEq, Repr

/-- The region of a Hearth address (R99). -/
def hearthRegion (a : Nat) : Region :=
  if 0x1000000 ≤ a ∧ a < 0x1100000 then .boolCur
  else if 0x1100000 ≤ a ∧ a < 0x1200000 then .boolPrev
  else if 0x1200000 ≤ a ∧ a < 0x1A00000 then .wordCur
  else if 0x1A00000 ≤ a ∧ a < 0x2200000 then .wordPrev
  else if 0x2200000 ≤ a ∧ a < 0x2204800 then .classMap
  else if 0x2208000 ≤ a ∧ a < 0x220D000 then .stir 0
  else if 0x2210000 ≤ a ∧ a < 0x2215000 then .stir 1
  else if 0x2218000 ≤ a ∧ a < 0x221D000 then .stir 2
  else if 0x2220000 ≤ a ∧ a < 0x2225000 then .hints
  else if 0x2228000 ≤ a ∧ a < 0x222E000 then .rings
  else if 0x222E000 ≤ a ∧ a < 0x222E0C0 then .control
  else if 0x222F000 ≤ a ∧ a < 0x222F020 then .retainTable
  else if 0x2230000 ≤ a ∧ a < 0x2240000 then .capture
  else .reserved

/-- A Hearth address (R27). -/
def isHearth (a : Nat) : Bool := decide (0x1000000 ≤ a) && decide (a < 0x2400000)

/-- The image word that an address of a view names (R100). -/
def imageWord (a : Nat) : Nat :=
  match hearthRegion a with
  | .boolCur => a - 0x1000000
  | .boolPrev => a - 0x1100000
  | .wordCur => 0x100000 + (a - 0x1200000)
  | .wordPrev => 0x100000 + (a - 0x1A00000)
  | _ => 0

/-- The current-view address of an image word (R100). -/
def curAddr (w : Nat) : Nat := if w < 0x100000 then 0x1000000 + w else 0x1200000 + (w - 0x100000)

/-- The current-view granule number of image granule `j` (R101). -/
def curGranule (j : Nat) : Nat := if j < 32768 then j else j + 32768

/-- The image granule that granule number `g` shows in either view; none outside the image regions (R99, R101, R191). -/
def imageGranule (g : Nat) : Option Nat :=
  if g < 32768 then some g
  else if g < 65536 then some (g - 32768)
  else if g < 327680 then some (g - 32768)
  else if g < 589824 then some (g - 294912)
  else none

/-- Granule number `g` lies in a current view (R99). -/
def isCurGranule (g : Nat) : Bool := decide (g < 32768) || (decide (65536 ≤ g) && decide (g < 327680))

/-- The owning class of image granule `j`; 3 is unassigned (R101, log 8). -/
def State.granClass (s : State) (j : Nat) : Nat := Sparse.get s.hearth.classMap 3 j

/-- The owning class of an image word. -/
def State.wordClass (s : State) (w : Nat) : Nat := s.granClass (w / 32)

/-- The flip parity of class `k` (R104). -/
def State.par (s : State) (k : Nat) : Nat := s.fld (Reg.hrtClFlipParity k)

/-- A copy of an image word: A for false, B for true (R104). -/
def Hearth.copy (h : Hearth) (x : Bool) (w : Nat) : W36 := Sparse.get (if x then h.copyB else h.copyA) 0 w

/-- A copy written. -/
def Hearth.setCopy (h : Hearth) (x : Bool) (w : Nat) (v : W36) : Hearth :=
  if x then { h with copyB := Sparse.put h.copyB 0 w v } else { h with copyA := Sparse.put h.copyA 0 w v }

/-- The select bit of an image word (R104). -/
def Hearth.selOf (h : Hearth) (w : Nat) : Bool := Sparse.get h.sel false w

/-- A select bit written. -/
def Hearth.setSel (h : Hearth) (w : Nat) (x : Bool) : Hearth := { h with sel := Sparse.put h.sel false w x }

/-- Written-mask plane m[k][p] (R104). -/
def Hearth.maskPlane (h : Hearth) (k p : Nat) : Sparse Nat :=
  match k, p with
  | 0, 0 => h.mask00
  | 0, _ => h.mask01
  | 1, 0 => h.mask10
  | 1, _ => h.mask11
  | _, 0 => h.mask20
  | _, _ => h.mask21

/-- Written-mask plane m[k][p] written. -/
def Hearth.setMaskPlane (h : Hearth) (k p : Nat) (m : Sparse Nat) : Hearth :=
  match k, p with
  | 0, 0 => { h with mask00 := m }
  | 0, _ => { h with mask01 := m }
  | 1, 0 => { h with mask10 := m }
  | 1, _ => { h with mask11 := m }
  | _, 0 => { h with mask20 := m }
  | _, _ => { h with mask21 := m }

/-- Stir plane s[k][p] (R114). -/
def Hearth.stirPlane (h : Hearth) (k p : Nat) : Plane :=
  match k, p with
  | 0, 0 => h.stir00
  | 0, _ => h.stir01
  | 1, 0 => h.stir10
  | 1, _ => h.stir11
  | _, 0 => h.stir20
  | _, _ => h.stir21

/-- Stir plane s[k][p] written. -/
def Hearth.setStirPlane (h : Hearth) (k p : Nat) (m : Plane) : Hearth :=
  match k, p with
  | 0, 0 => { h with stir00 := m }
  | 0, _ => { h with stir01 := m }
  | 1, 0 => { h with stir10 := m }
  | 1, _ => { h with stir11 := m }
  | _, 0 => { h with stir20 := m }
  | _, _ => { h with stir21 := m }

/-- The bit of a plane for granule `j`. -/
def Plane.at (p : Plane) (j : Nat) : Bool := decide (Sparse.get p.map p.dflt j ≠ 0)

/-- The bit of a plane for granule `j` set. -/
def Plane.setAt (p : Plane) (j : Nat) : Plane := { p with map := Sparse.put p.map p.dflt j 1 }

/-- The plane with the bit of every granule set (R111). -/
def Plane.full : Plane := ⟨1, []⟩

/-- The Hearth part of the state changed. -/
def State.onHearth (s : State) (f : Hearth → Hearth) : State := { s with hearth := f s.hearth }

/-- Word `w` counts as written since its class's flip (R104). -/
def State.written (s : State) (w : Nat) : Bool :=
  let k := s.wordClass w
  decide (k ≠ 3) && bitOf (Sparse.get (s.hearth.maskPlane k (s.par k)) 0 (w / 32)) (w % 32)

/-- The key of a copy in the list of copies that fail their check. -/
def badKey (x : Bool) (w : Nat) : Nat := 2 * w + bit01 x

/-- A copy fails its check (R132). -/
def State.copyBad (s : State) (x : Bool) (w : Nat) : Bool := s.hearth.bad.contains (badKey x w)

/-- A copy as a reader that takes the replacement value sees it (R132). -/
def State.copyValue (s : State) (x : Bool) (w : Nat) : W36 := if s.copyBad x w then 0 else s.hearth.copy x w

/-- read_current of R105. -/
def State.readCur (s : State) (w : Nat) : W36 := s.copyValue (s.hearth.selOf w) w

/-- The copy that a read of the previous view takes (R105, R109). -/
def State.prevSel (s : State) (w : Nat) : Bool :=
  if s.written w then !s.hearth.selOf w else s.hearth.selOf w

/-- read_previous of R105. -/
def State.readPrev (s : State) (w : Nat) : W36 := s.copyValue (s.prevSel w) w

/-- Granule `j` stirred in the maps of all three classes (R115). -/
def State.stirGranule (s : State) (j : Nat) : State :=
  s.onHearth fun h =>
    [0, 1, 2].foldl (fun h k => h.setStirPlane k (s.par k) ((h.stirPlane k (s.par k)).setAt j)) h

/-- stirred of R114, for image granule `j`. -/
def State.stirred (s : State) (k j : Nat) : Bool :=
  (s.hearth.stirPlane k 0).at j || (s.hearth.stirPlane k 1).at j

/-- Every copy of the word that fails its check takes the replacement value, and the word's replacement is no longer
due (R132). -/
def State.repairWord (s : State) (w : Nat) : State :=
  s.onHearth fun h =>
    let fix (h : Hearth) (x : Bool) : Hearth := if h.bad.contains (badKey x w) then h.setCopy x w 0 else h
    let h1 := fix (fix h false) true
    { h1 with
      bad := h1.bad.filter fun b => decide (b / 2 ≠ w)
      replace := h1.replace.filter fun r => decide (r ≠ w)
      scrubBad := h1.scrubBad.filter fun r => decide (r ≠ w) }

/-- A write that is not silent: the mask bit, the select bit, the copy and the stirring of R105. -/
def State.storeWord (s : State) (w : Nat) (v : W36) : State :=
  let k := s.wordClass w
  let j := w / 32
  let p := s.par k
  let s1 :=
    if s.written w then s
    else s.onHearth fun h =>
      let m := h.maskPlane k p
      (h.setSel w (!h.selOf w)).setMaskPlane k p (Sparse.put m 0 j (withBit (Sparse.get m 0 j) (w % 32) true))
  (s1.onHearth fun h => h.setCopy (h.selOf w) w v).stirGranule j

/-- write_current of R105, in place for an unassigned granule (R109), never silent where it repairs a word (R132). -/
def State.writeWord (s : State) (w : Nat) (v : W36) : State :=
  let dirty := s.copyBad false w || s.copyBad true w
  let s1 := if dirty then s.repairWord w else s
  if s.wordClass w = 3 then s1.onHearth fun h => h.setCopy (h.selOf w) w v
  else if !dirty && decide (v = s1.readCur w) then s1
  else s1.storeWord w v

/-- Words written from image word `w` on. -/
def State.writeWords (s : State) (w : Nat) (vs : List W36) : State :=
  match vs with
  | [] => s
  | v :: rest => State.writeWords (s.writeWord w v) (w + 1) rest

/-- The words of a range of image granules. -/
def granuleWords (j n : Nat) : List Nat := (List.range (32 * n)).map (32 * j + ·)

/-- The image words of a list of ranges (base current-view granule, length). -/
def rangeWords (rs : List (Nat × Nat)) : List Nat :=
  rs.flatMap fun r => match imageGranule r.1 with
    | some j => granuleWords j r.2
    | none => []

/-- The flip of class `k`: the parity toggles (R107), and the control words that change at a flip are written (R129). -/
def State.flip (s : State) (k : Nat) : State :=
  (s.onHearth fun h => { h with lostControl := h.lostControl.filter fun x => decide (x / 64 ≠ k) }).setFld
    (Reg.hrtClFlipParity k) (1 - s.par k)

/-- The settle of class `k`: the old mask plane and the echo plane are cleared (R108, R116). -/
def State.settle (s : State) (k : Nat) : State :=
  s.onHearth fun h => (h.setMaskPlane k (1 - s.par k) []).setStirPlane k (1 - s.par k) Plane.zero

/-- The planes as a warm or cold start leaves them (R111). -/
def State.freshPlanes (s : State) : State :=
  s.onHearth fun h => { h with
    sel := []
    mask00 := [], mask01 := [], mask10 := [], mask11 := [], mask20 := [], mask21 := []
    stir00 := Plane.full, stir01 := Plane.full, stir10 := Plane.full
    stir11 := Plane.full, stir20 := Plane.full, stir21 := Plane.full
    bad := [], replace := [], scrubBad := [] }

/-- Both copies of a word written with one value (R111). -/
def State.initWord (s : State) (w : Nat) (v : W36) : State :=
  s.onHearth fun h => (h.setCopy false w v).setCopy true w v

/-! Uncorrectable words -/

/-- The class runs no Intake: the unit is in Kindling or Held, or the class is stopped with its cycle finished (R118). -/
def State.noIntake (s : State) (k : Nat) : Bool :=
  decide (s.mode = modeKindling) || decide (s.mode = modeHeld) ||
    ((decide (s.fld (Reg.blwClStatusState k) = 0) || decide (s.fld (Reg.blwClStatusState k) = 3)) && (s.cls k).finished)

/-- The unit is a Standby: it runs no Intake of its own (R132, R335). -/
def State.isStandby (s : State) : Bool := decide (s.mode = modeStandby)

/-- A Standby asks the Primary for a damaged granule, once until its copy lands; a request that Erair cannot carry is none
(R132). -/
def State.askGranule (s : State) (j : Nat) : State :=
  if s.hearth.asked.contains j || !s.erairOn then s
  else (s.onHearth fun h => { h with asked := h.asked ++ [j] }).erairSend (.message 8 [j])

/-- The replacement of an image word found uncorrectable (R132). -/
def State.replaceWord (s : State) (w : Nat) : State :=
  if s.wordClass w = 3 then s.writeWord w 0
  else if s.isStandby then s.askGranule (w / 32)
  else if s.hearth.replace.contains w then s
  else if s.noIntake (s.wordClass w) then s.writeWord w 0
  else if s.hearth.replace.length < 64 then s.onHearth fun h => { h with replace := h.replace ++ [w] }
  else if s.hearth.scrubBad.contains w then s
  else s.onHearth fun h => { h with scrubBad := h.scrubBad ++ [w] }

/-- What every uncorrectable error leaves at once: event, count, capture and Ashpit record. `reader` is 0 engine,
1 Tender, 2 Intake or Outlay, 3 scrub, 4 host, 5 granule copy, 6 capture, 7 import (R132, log 13). -/
def State.uncorrectableSeen (s : State) (off reader : Nat) : State :=
  let s1 := (s.count Reg.hrtEccCountUncorrCount).capture Reg.hrtErrorCaptureKind
    [(Reg.hrtErrorCaptureOffset, off), (Reg.hrtErrorCaptureKind, 1)]
  (s1.record 0x014 0x01 false [off, reader]).raise Reg.hrtEventUncorrectable

/-- An uncorrectable error found in a copy of an image word (R132). -/
def State.uncorrectable (s : State) (w : Nat) (prev : Bool) (reader : Nat) : State :=
  let x := if prev then s.prevSel w else s.hearth.selOf w
  let s1 := if s.copyBad x w then s else s.onHearth fun h => { h with bad := h.bad ++ [badKey x w] }
  (s1.uncorrectableSeen (curAddr w - hearthBase) reader).replaceWord w

/-- A read of one view of an image word by a device block: a copy that fails its check is handled again, and reads as the
replacement (R132). -/
def State.viewRead (s : State) (w : Nat) (prev : Bool) (reader : Nat) : W36 × State :=
  if s.copyBad (if prev then s.prevSel w else s.hearth.selOf w) w then (0, s.uncorrectable w prev reader)
  else (if prev then s.readPrev w else s.readCur w, s)

/-- A read of the current view by a device block (R132). -/
def State.deviceRead (s : State) (w reader : Nat) : W36 × State := s.viewRead w false reader

/-- Words of the current view read in order by a device block. -/
def State.deviceReads (s : State) (ws : List Nat) (reader : Nat) : List W36 × State :=
  ws.foldl (fun p w => let (v, t) := p.2.deviceRead w reader; (p.1 ++ [v], t)) ([], s)

/-! Poisoning -/

/-- Poisoning of one word: its value with V cleared (R125). -/
def State.poisonWord (s : State) (w : Nat) : State :=
  s.writeWord w (BitVec.ofNat 36 (withBit (s.readCur w).toNat 35 false))

/-- Poisoning of windows (R125). -/
def State.poisonWindows (s : State) (ws : List (Nat × Nat)) : State :=
  (rangeWords ws).foldl State.poisonWord s

/-! Injected writes -/

/-- The injection queue written, and HRT_INJECT with it. -/
def State.setInject (s : State) (q : List Inject) : State :=
  (s.onHearth fun h => { h with inject := q }).setFld Reg.hrtInjectDepth q.length

/-- A Tender store or host write to an assigned current-view word (R118). On a full queue it waits: the endpoint withholds
write credits, and the writes that it holds back enter in order as entries drain. -/
def State.injectWrite (s : State) (w : Nat) (v : W36) : State :=
  if s.noIntake (s.wordClass w) then s.writeWord w v
  else if s.hearth.inject.length < 4096 && s.hearth.held.isEmpty then s.setInject (s.hearth.inject ++ [⟨w, v⟩])
  else s.onHearth fun h => { h with held := h.held ++ [⟨w, v⟩] }

/-- The newest pending value of a word (R119). -/
def State.pendingInject (s : State) (w : Nat) : Option W36 :=
  (((s.hearth.inject ++ s.hearth.held).filter fun i => decide (i.word = w)).getLast?).map (·.val)

/-- The writes held back enter the queue as far as it has room (R118). -/
def State.letIn (s : State) : State :=
  s.hearth.held.foldl (fun t i => t.injectWrite i.word i.val) (s.onHearth fun h => { h with held := [] })

/-- The queued writes and replacements of class `k` applied in arrival order (R117, R118, R132), and in place with them those whose word a
switch has left to no class since (R109; DESIGN CHOICE, log 143). -/
def State.applyInject (s : State) (k : Nat) : State :=
  let now (w : Nat) : Bool := decide (s.wordClass w = k) || decide (s.wordClass w = 3)
  let mine := s.hearth.inject.filter fun i => now i.word
  let rest := s.hearth.inject.filter fun i => !now i.word
  let reps := s.hearth.replace.filter now
  let s1 := reps.foldl (fun t w => t.writeWord w 0) s
  (mine.foldl (fun t i => t.writeWord i.word i.val) (s1.setInject rest)).letIn

/-- What is queued for a class that runs no Intake is applied at once (R118, R132). -/
def State.applyStopped (s : State) : State :=
  [0, 1, 2].foldl (fun t k => if t.noIntake k then t.applyInject k else t) s

/-! Forces and substitutes -/

/-- The force hint of image granule `j` (R120). -/
def State.hint (s : State) (j : Nat) : Bool :=
  bitOf (Sparse.get s.hearth.hints 0 (curGranule j / 32)) (curGranule j % 32)

/-- The Hearth address of an image word's force-table entry (R120). -/
def State.forceAt (s : State) (w : Nat) : Nat := s.fld Reg.hrtForceBaseForceBase * 2 ^ 24 + 2 * w

/-- FMASK and FVAL of a force-table entry, once its second word is read (R120). -/
def forcePair (m : W36) (p : Option W36 × State) : Option (Nat × Nat) × State :=
  (p.1.map fun v => (m.toNat % 2 ^ 32, v.toNat % 2 ^ 32), p.2)

/-- The force-table entry of an image word, FMASK and FVAL; nothing where forces are off or the table is out of range
(R120, R121, R138). -/
def State.forceEntry (s : State) (w : Nat) : Option (Nat × Nat) × State :=
  if s.fld Reg.hrtForceBaseForceBase < 0x400 then (none, s)
  else if !s.hint (w / 32) then (none, s)
  else
    match s.blockRead (s.forceAt w) with
    | (some m, t) => forcePair m (t.blockRead (s.forceAt w + 1))
    | (none, t) => (none, t)

/-- A word forced under R122. -/
def forcedWord (boolean : Bool) (mask val : Nat) (old : W36) : W36 :=
  if mask = 0 then old
  else if boolean && decide (mask ≠ 0xFFFFFFFF) then
    let v := (old.toNat % 2 ^ 32) &&& (0xFFFFFFFF - mask) ||| (val &&& mask)
    BitVec.ofNat 36 (withBit (old.toNat / 2 ^ 32) 1 true * 2 ^ 32 + v)
  else BitVec.ofNat 36 (0xA * 2 ^ 32 + val)

/-- A value as the force table leaves it for an image word (R122). -/
def State.forced (s : State) (w : Nat) (v : W36) : W36 × State :=
  match s.forceEntry w with
  | (some (m, f), t) => (forcedWord (decide (w < 0x100000)) m f v, t)
  | (none, t) => (v, t)

/-- The granules of class `k` whose hint is set, in order (R120). -/
def State.hintedGranules (s : State) (k : Nat) : List Nat :=
  (s.hearth.hints.flatMap fun e => ((List.range 32).filter fun b => bitOf e.2 b).map fun b => e.1 * 32 + b).filterMap
    fun g => match imageGranule g with
      | some j => if isCurGranule g && decide (s.granClass j = k) then some j else none
      | none => none

/-- One word forced at Intake (R117, R122): an ordinary write of the forced word; a force of single points reads the word
first. -/
def State.forceWord (s : State) (w m f : Nat) : State :=
  if m = 0 then s
  else if w < 0x100000 ∧ m ≠ 0xFFFFFFFF then
    let (old, t) := s.deviceRead w 2
    t.writeWord w (forcedWord true m f old)
  else s.writeWord w (forcedWord false m f 0)

/-- Forces at Intake of class `k` (R117, R122). -/
def State.applyForces (s : State) (k : Nat) : State :=
  ((s.hintedGranules k).flatMap fun j => granuleWords j 1).foldl
    (fun t w => match t.forceEntry w with
      | (some (m, f), u) => u.forceWord w m f
      | (none, u) => u) s

/-- The substitute of an image word (R124, R138). -/
def State.substitute (s : State) (w : Nat) : W36 × State :=
  if s.fld Reg.hrtSubstBaseSubstBase < 0x400 then (0x400000000, s)
  else
    match s.blockRead (s.fld Reg.hrtSubstBaseSubstBase * 2 ^ 24 + w) with
    | (none, t) => (0x400000000, t)
    | (some e, t) =>
      if e.toNat.testBit 32 then
        let (cur, u) := t.deviceRead w 2
        (BitVec.ofNat 36 (withBit (withBit cur.toNat 34 true) 32 false), u)
      else (BitVec.ofNat 36 (e.toNat % 2 ^ 32 + 2 ^ 34 + (if e.toNat.testBit 35 then 2 ^ 35 else 0)), t)

/-- The substitute of a word under its force (R122, R124). -/
def State.substForced (s : State) (w : Nat) : W36 × State :=
  let (v, t) := s.substitute w
  t.forced w v

/-- Substitutes written to the words of a dropped station (R117, R124). -/
def State.applySubst (s : State) (ws : List Nat) : State :=
  ws.foldl (fun t w => let (v, u) := t.substForced w; u.writeWord w v) s

/-! Retain capture and event rings -/

/-- Class `k` has finished the Solve of its running cycle (R127). -/
def State.solveDone (s : State) (k : Nat) : Bool := (s.cls k).solved

/-- A word as a capture or an import takes it (R127, R132, R196). -/
def State.solvedRead (s : State) (w reader : Nat) : W36 × State :=
  let k := s.wordClass w
  s.viewRead w (decide (k ≠ 3) && !s.solveDone k) reader

/-- Words as a capture or an import takes them, in order. -/
def State.solvedReads (s : State) (ws : List Nat) (reader : Nat) : List W36 × State :=
  ws.foldl (fun p w => let (v, t) := p.2.solvedRead w reader; (p.1 ++ [v], t)) ([], s)

/-- A retain capture starts: the words are taken, and the buffer is not valid until it ends (R127, R138, log 15). A shorter capture than
the one before leaves nothing of it: the words past its end read 0 (DESIGN CHOICE, log 142). -/
def State.startCapture (s : State) : State :=
  let (words, s1) := s.solvedReads (rangeWords s.hearth.retain) 6
  (s1.onHearth fun h => { h with capture := words, captureRanges := s.hearth.retain }).setFields
    [(Reg.hrtStatusCaptureBusy, 1), (Reg.hrtStatusCaptureValid, 0)]

/-- The capture ends: the buffer holds a complete capture (R127, R138). -/
def State.endCapture (s : State) : State :=
  (s.setFields [(Reg.hrtStatusCaptureBusy, 0), (Reg.hrtStatusCaptureValid, 1)]).raise Reg.hrtEventCaptureDone

/-- The cycle number of class `k` (R219). -/
def State.cycle (s : State) (k : Nat) : Nat :=
  s.fld (Reg.blwClCycleLoCycleLo k) + 2 ^ 32 * s.fld (Reg.blwClCycleHiCycleHi k)

/-- The cycle number of class `k` written. -/
def State.setCycle (s : State) (k n : Nat) : State :=
  (s.setFld (Reg.blwClCycleLoCycleLo k) n).setFld (Reg.blwClCycleHiCycleHi k) (n / 2 ^ 32)

/-- The class is phase-locked (R178). -/
def State.locked (s : State) (k : Nat) : Bool := s.bit (Reg.blwClControlLock k) && s.turnspitOn

/-- The oldest entry of class `k`'s event ring that is not released: while the error task runs the first of its entries, else
the one past its last (R129). -/
def State.ringOldest (s : State) (k : Nat) : Nat :=
  Sparse.get (if (s.cls k).errRunning then s.hearth.evStart else s.hearth.evEnd) 0 k

/-- An entry of class `k`'s event ring: kind 0 dropped, 1 restored (R128). A full ring loses it. -/
def State.ringPut (s : State) (k station kind : Nat) : State :=
  let head := Sparse.get s.hearth.evHead 0 k
  let oldest := s.ringOldest k
  if (head + 2 ^ 32 - oldest) % 2 ^ 32 < 4096 then
    let base := k * 0x2000 + 2 * (head % 4096)
    s.onHearth fun h => { h with
      rings := Sparse.put (Sparse.put h.rings 0 base (BitVec.ofNat 32 (station + kind * 2 ^ 17))) 0 (base + 1)
        (BitVec.ofNat 32 (s.cycle k))
      evHead := Sparse.put h.evHead 0 k ((head + 1) % 2 ^ 32) }
  else
    (s.onHearth fun h => { h with evLost := Sparse.put h.evLost 0 k (satInc 32 (Sparse.get h.evLost 0 k)) }).raise
      Reg.hrtEventRingOverflow

/-- The error task of class `k` is dispatched: its entries run from the previous end to the head (R129). -/
def State.ringDispatch (s : State) (k : Nat) : State :=
  s.onHearth fun h => { h with
    evStart := Sparse.put h.evStart 0 k (Sparse.get h.evEnd 0 k)
    evEnd := Sparse.put h.evEnd 0 k (Sparse.get h.evHead 0 k) }

/-! Reads of whole words by address -/

/-- A word with value `v` and Q = 0b1000, as loads from the Hearth's maps return it (R103). -/
def plainWord (v : Nat) : W36 := BitVec.ofNat 36 (0x800000000 + v % 2 ^ 32)

/-- Word `n` of class `k`'s stir map (R114). -/
def State.stirWord (s : State) (k n : Nat) : Nat :=
  (List.range 32).foldl (fun a i =>
    match imageGranule (32 * n + i) with
    | some j => if isCurGranule (32 * n + i) && s.stirred k j then a + 2 ^ i else a
    | none => a) 0

/-- Word `n` of the class map (R101). -/
def State.classWord (s : State) (n : Nat) : Nat :=
  (List.range 16).foldl (fun a i => a + s.granClass (16 * n + i) * 4 ^ i) 0

/-- Class control word `i` of class `k` (R129); one that was replaced reads 0 until the flip that writes it again (R132). -/
def State.controlWord (s : State) (k i : Nat) : Nat :=
  if s.hearth.lostControl.contains (64 * k + i) then 0 else
  match i with
  | 0 => s.fld (Reg.blwClCycleLoCycleLo k)
  | 1 => s.fld (Reg.blwClCycleHiCycleHi k)
  | 2 => s.par k + 2 * s.fld (Reg.hrtClFlipSettled k)
  | 3 => Sparse.get s.hearth.evHead 0 k
  | 4 => Sparse.get s.hearth.evStart 0 k
  | 5 => Sparse.get s.hearth.evEnd 0 k
  | 6 => Sparse.get s.hearth.evLost 0 k
  | _ => 0

/-- Word `n` of the retain range table (R126). -/
def State.retainWord (s : State) (n : Nat) : Nat :=
  match s.hearth.retain[n / 2]? with
  | some (b, l) => if n % 2 = 0 then b else l
  | none => 0

/-- A word of the Hearth's system area as a load returns it (R103). -/
def State.systemWord (s : State) (a : Nat) : W36 :=
  match hearthRegion a with
  | .classMap => plainWord (s.classWord (a - 0x2200000))
  | .stir k => plainWord (s.stirWord k (a % 0x8000))
  | .hints => plainWord (Sparse.get s.hearth.hints 0 (a - 0x2220000))
  | .rings => plainWord (Sparse.get s.hearth.rings 0 (a - 0x2228000)).toNat
  | .control => plainWord (s.controlWord ((a - 0x222E000) / 64) ((a - 0x222E000) % 64))
  | .retainTable => plainWord (s.retainWord (a - 0x222F000))
  | .capture => s.hearth.capture.getD (a - 0x2230000) 0
  | _ => 0

/-- A word of the Hearth as its storage stands, in the view that the address names. -/
def State.hearthWord (s : State) (a : Nat) : W36 :=
  match hearthRegion a with
  | .boolCur => s.readCur (imageWord a)
  | .wordCur => s.readCur (imageWord a)
  | .boolPrev => s.readPrev (imageWord a)
  | .wordPrev => s.readPrev (imageWord a)
  | _ => s.systemWord a

/-- The image word that an address names, in either view. -/
def imageWordOf (a : Nat) : Option Nat :=
  match hearthRegion a with
  | .boolCur => some (imageWord a)
  | .wordCur => some (imageWord a)
  | .boolPrev => some (imageWord a)
  | .wordPrev => some (imageWord a)
  | _ => none

/-- The address lies in a previous view. -/
def isPrevAddr (a : Nat) : Bool := decide (hearthRegion a = .boolPrev) || decide (hearthRegion a = .wordPrev)

/-- The address lies in a current view. -/
def isCurAddr (a : Nat) : Bool := decide (hearthRegion a = .boolCur) || decide (hearthRegion a = .wordCur)

/-- The copy that a read at an address takes fails its check (R132). -/
def State.addrBad (s : State) (a : Nat) : Bool :=
  match imageWordOf a with
  | some w => s.copyBad (if isPrevAddr a then s.prevSel w else s.hearth.selOf w) w
  | none => false

/-- A Standby that has asked for the granule of an address reads its damaged words as their replacement until the copy lands
(R132). -/
def State.awaitsCopy (s : State) (a : Nat) : Bool :=
  s.isStandby && (match imageWordOf a with | some w => s.hearth.asked.contains (w / 32) | none => false)

/-- A core's load or fetch at an address is uncorrectable (R132). -/
def State.addrFails (s : State) (a : Nat) : Bool := s.addrBad a && !s.awaitsCopy a

/-! Uncorrectable words -/

/-- A class control word replaced in place: the words of the running cycle until the next flip (R129, R132). -/
def State.zeroControl (s : State) (k i : Nat) : State :=
  s.onHearth fun h =>
    match i with
    | 3 => { h with evHead := Sparse.put h.evHead 0 k 0 }
    | 4 => { h with evStart := Sparse.put h.evStart 0 k 0 }
    | 5 => { h with evEnd := Sparse.put h.evEnd 0 k 0 }
    | 6 => { h with evLost := Sparse.put h.evLost 0 k 0 }
    | _ => if i < 3 then { h with lostControl := h.lostControl ++ [64 * k + i] } else h

/-- A system-area word found uncorrectable is replaced in place at once (R132). -/
def State.zeroSystem (s : State) (a : Nat) : State :=
  match hearthRegion a with
  | .classMap => s.onHearth fun h => { h with
      classMap := (List.range 16).foldl (fun m i => Sparse.put m 3 (16 * (a - 0x2200000) + i) 0) h.classMap }
  | .stir k => s.onHearth fun h =>
      let js := (List.range 32).filterMap fun i => imageGranule (32 * (a % 0x8000) + i)
      [0, 1].foldl (fun h p =>
        let pl := h.stirPlane k p
        h.setStirPlane k p { pl with map := js.foldl (fun m j => Sparse.put m pl.dflt j 0) pl.map }) h
  | .hints => s.onHearth fun h => { h with hints := Sparse.put h.hints 0 (a - 0x2220000) 0 }
  | .rings => s.onHearth fun h => { h with rings := Sparse.put h.rings 0 (a - 0x2228000) 0 }
  | .control => s.zeroControl ((a - 0x222E000) / 64) ((a - 0x222E000) % 64)
  | .retainTable => s.onHearth fun h => { h with
      retain := h.retain.modify ((a - 0x222F000) / 2) fun r => if a % 2 = 0 then (0, r.2) else (r.1, 0) }
  | .capture => s.onHearth fun h => { h with capture := h.capture.set (a - 0x2230000) 0 }
  | _ => s

/-- An uncorrectable error found at a Hearth address by `reader` (R132). -/
def State.uncorrectableAt (s : State) (a reader : Nat) : State :=
  match imageWordOf a with
  | some w => s.uncorrectable w (isPrevAddr a) reader
  | none => (s.uncorrectableSeen (a - hearthBase) reader).zeroSystem a

end Sys2Proof.Machine
end

