-- ==== Sys2Proof/Machine/Access.lean ====
section
/-! DEFINITION. Who may write a register page (R482, R489, R492) and what a refused write leaves behind. -/

namespace Sys2Proof.Machine

/-! Loads that are uncorrectable -/

/-- The previous-view address of a current-view address (R100, R158). -/
def prevAddr (a : Nat) : Nat := if hearthRegion a = .boolCur then a + 0x100000 else a + 0x800000

/-- The uncorrectable data of a core's load handled by the Hearth (R132): every word it covers whose copy fails its check, and
where none did before, one of them (free, log 2). A sandbox reads its copy in DRAM, and no word of the Hearth is concerned
(R472). -/
def State.loadBad (s : State) (c : CoreId) (l : Load) : State :=
  if isHearth l.addr.toNat && !(s.at c).sandboxed then
    match l.covers.filter s.addrBad with
    | [] => let (i, t) := s.draw l.covers.length
      t.uncorrectableAt (l.covers.getD i l.addr.toNat) (if isEngine c then 0 else 1)
    | as_ => as_.foldl (fun t a => t.uncorrectableAt a (if isEngine c then 0 else 1)) s
  else s

/-- The uncorrectable data of loads still outstanding when an exception lands them is handled (R89, R132). -/
def State.landBad (s : State) (c : CoreId) : State :=
  ((s.at c).loads.filter fun l => l.bad).foldl (fun t l => t.loadBad c l) s

/-- The Tender takes an exception of its own (R89, R92): pending loads land first. -/
def State.tenderTakes (s : State) (t : Trap) : State := (s.landBad .tender).tenderTrap ((s.at .tender).firstTrap t) false

/-- The power domain that holds a page's registers, where it is a switched one (R14, R430). A Chimney port page stays
readable with its SerDes group off (R248). -/
def pageDomain (p : Nat) : Option Nat :=
  if 0x020 ≤ p ∧ p ≤ 0x02F then some (p - 0x020)
  else if 0x040 ≤ p ∧ p ≤ 0x0CF then some ((p - 0x040) / 9)
  else if p = 0x018 ∨ p = 0x200 ∨ (0x201 ≤ p ∧ p ≤ 0x2C0) then some 19
  else if p = 0x005 then some 20
  else none

/-- The page's domain is gated or off (R432). -/
def State.pageOff (s : State) (p : Nat) : Bool :=
  match pageDomain p with
  | some d => !s.domainOn d
  | none => false

/-- A page index that the page map assigns (R12, R480). -/
def pageAssigned (p : Nat) : Bool := (pageTag p).isSome

/-- The main domain is up, so that registers answer: every mode but Ember (R425). -/
def State.mainUp (s : State) : Bool := decide (s.mode ≠ modeEmber)

/-- The host reaches the unit: its PCIe needs the Chimney die (R45). -/
def State.hostUp (s : State) : Bool := s.mainUp && s.fit.chimney

/-- Registers answer `r` (R45, R425). -/
def State.answers (s : State) (r : Requester) : Bool := if r = .host then s.hostUp else s.mainUp

/-- PCI_ERROR_CAPTURE holds the BAR0 offset of the first event (R506). -/
def State.pciCapture (s : State) (page off : Nat) : State :=
  if s.bit Reg.pciEventUnassigned || s.bit Reg.pciEventOwnerDiscard || s.bit Reg.pciEventBadSize then s
  else s.setFld Reg.pciErrorCaptureOffset (page * 0x1000 + off)

/-- SEC_ERROR_CAPTURE holds the page or domain of the first event and who asked (R505). -/
def State.secCapture (s : State) (page who : Nat) : State :=
  if s.bit Reg.secEventDenied || s.bit Reg.secEventWorldFault || s.bit Reg.secEventRange then s
  else s.setFields [(Reg.secErrorCapturePage, page), (Reg.secErrorCaptureRequester, who)]

/-- A host access that OWNER forbids (R482). -/
def State.ownerDiscard (s : State) (page off : Nat) : State :=
  (s.pciCapture page off).raise Reg.pciEventOwnerDiscard

/-- A UART request answered DISCARDED or LEVEL (R492). -/
def State.uartDiscard (s : State) : State := s.count Reg.tenSvcDiscards

/-- The internal word address of a register (R7). -/
def regAddr (page off : Nat) : Nat := 0x008000000 + page * 0x400 + off / 4

/-- A normal-world access to a secure page: the Tender faults with `cause` (R482). -/
def State.worldFault (s : State) (cause page off : Nat) : State :=
  let pc := (s.core tenderKey).pc
  ((s.secCapture page 0).raise Reg.secEventWorldFault).tenderTrap
    ⟨cause, pc, pc, BitVec.ofNat 36 (regAddr page off), false, (s.core tenderKey).afterLoad⟩ false

/-- TEN_SVC.LEVEL, with 0b11 taken as 0b01 (R504). -/
def State.svcLevel (s : State) : Nat := if s.fld Reg.tenSvcLevel = 3 then 1 else s.fld Reg.tenSvcLevel

/-- A register write by `r` under R482: `k` where it is allowed and the page's domain is on. -/
def State.writeAs (s : State) (r : Requester) (page off : Nat) (k : State → State) : State :=
  let go := if s.pageOff page then s else k s
  if !s.answers r then s
  else
    match r with
    | .tenderSecure => go
    | .tenderNormal => if s.bit (Reg.ownerWorld page) then s.worldFault 0x05 page off else go
    | .host => if s.bit (Reg.ownerHostW page) then go else s.ownerDiscard page off
    | .uart => if s.bit (Reg.ownerHostW page) && decide (s.svcLevel = 2) then go else s.uartDiscard

/-- A register read by `r` under R482: a host read is answered with its data, and what is forbidden or held in a domain
that is off reads zero (R11, R432, R482). -/
def State.readAs (s : State) (r : Requester) (page off : Nat) (k : State → W32 × State) : State :=
  let go := if s.pageOff page then (0, s) else k s
  if !s.answers r then s
  else
    match r with
    | .tenderSecure => go.2
    | .tenderNormal => if s.bit (Reg.ownerWorld page) then s.worldFault 0x04 page off else go.2
    | .host =>
      if s.bit (Reg.ownerHostR page) then go.2.send (.hostData (leBytes 4 go.1.toNat))
      else (s.ownerDiscard page off).send (.hostData (leBytes 4 0))
    | .uart => if s.bit (Reg.ownerHostR page) && decide (s.svcLevel ≠ 0) then go.2 else s.uartDiscard

/-- A register write by `r` that only the secure world may make (R482): a host write counts as the normal world's. -/
def State.writeSecure (s : State) (r : Requester) (page off : Nat) (k : State → State) : State :=
  s.writeAs r page off fun t => if r = .tenderSecure then k t else t

/-- The secure DRAM range holds the address (R494). -/
def State.secureDram (s : State) (a : Nat) : Bool :=
  decide (s.fld Reg.secDramBaseBase * 2 ^ 20 ≤ a) && decide (a < s.fld Reg.secDramLimitLimit * 2 ^ 20)

/-- A word of the Tender's local store that a world may touch (R493). -/
def State.worldLs (s : State) (secure : Bool) (a : Nat) : Bool :=
  decide (a < lsSize) && (secure || decide (s.fld Reg.secLsSplitSplit * 0x1000 ≤ a))

/-- A word of DRAM that a world may touch (R28, R494). -/
def State.worldDram (s : State) (secure : Bool) (a : Nat) : Bool := s.dramOk a && (secure || !s.secureDram a)

/-- The requester of a secure refusal, as SEC_ERROR_CAPTURE codes it (R505). -/
def requesterCode (r : Requester) : Nat :=
  match r with
  | .host => 1
  | .uart => 1
  | .tenderSecure => 0
  | .tenderNormal => 0

end Sys2Proof.Machine
end

