-- ==== Sys2Proof/Machine/Crypto.lean ====
section
/-! DEFINITION. The algorithms that the spec names by their standards (PRESUMED, log 11): SHA-384 (R225, R498), ECDSA over P-384 with
SHA-384 (R234, R471, R498), and the tag of AES-256-GCM (R356). -/

namespace Sys2Proof.Machine

/-! SHA-384 -/

/-- A word of SHA-384. -/
abbrev W64 := BitVec 64

/-- The round constants: the first 64 bits of the fractional parts of the cube roots of the first 80 primes. -/
def shaK : List W64 :=
  [0x428a2f98d728ae22, 0x7137449123ef65cd, 0xb5c0fbcfec4d3b2f, 0xe9b5dba58189dbbc,
   0x3956c25bf348b538, 0x59f111f1b605d019, 0x923f82a4af194f9b, 0xab1c5ed5da6d8118,
   0xd807aa98a3030242, 0x12835b0145706fbe, 0x243185be4ee4b28c, 0x550c7dc3d5ffb4e2,
   0x72be5d74f27b896f, 0x80deb1fe3b1696b1, 0x9bdc06a725c71235, 0xc19bf174cf692694] ++
  [0xe49b69c19ef14ad2, 0xefbe4786384f25e3, 0x0fc19dc68b8cd5b5, 0x240ca1cc77ac9c65,
   0x2de92c6f592b0275, 0x4a7484aa6ea6e483, 0x5cb0a9dcbd41fbd4, 0x76f988da831153b5,
   0x983e5152ee66dfab, 0xa831c66d2db43210, 0xb00327c898fb213f, 0xbf597fc7beef0ee4,
   0xc6e00bf33da88fc2, 0xd5a79147930aa725, 0x06ca6351e003826f, 0x142929670a0e6e70] ++
  [0x27b70a8546d22ffc, 0x2e1b21385c26c926, 0x4d2c6dfc5ac42aed, 0x53380d139d95b3df,
   0x650a73548baf63de, 0x766a0abb3c77b2a8, 0x81c2c92e47edaee6, 0x92722c851482353b,
   0xa2bfe8a14cf10364, 0xa81a664bbc423001, 0xc24b8b70d0f89791, 0xc76c51a30654be30,
   0xd192e819d6ef5218, 0xd69906245565a910, 0xf40e35855771202a, 0x106aa07032bbd1b8] ++
  [0x19a4c116b8d2d0c8, 0x1e376c085141ab53, 0x2748774cdf8eeb99, 0x34b0bcb5e19b48a8,
   0x391c0cb3c5c95a63, 0x4ed8aa4ae3418acb, 0x5b9cca4f7763e373, 0x682e6ff3d6b2b8a3,
   0x748f82ee5defb2fc, 0x78a5636f43172f60, 0x84c87814a1f0ab72, 0x8cc702081a6439ec,
   0x90befffa23631e28, 0xa4506cebde82bde9, 0xbef9a3f7b2c67915, 0xc67178f2e372532b] ++
  [0xca273eceea26619c, 0xd186b8c721c0c207, 0xeada7dd6cde0eb1e, 0xf57d4f7fee6ed178,
   0x06f067aa72176fba, 0x0a637dc5a2c898a6, 0x113f9804bef90dae, 0x1b710b35131c471b,
   0x28db77f523047d84, 0x32caab7b40c72493, 0x3c9ebe0a15c9bebc, 0x431d67c49c100d4c,
   0x4cc5d4becb3e42b6, 0x597f299cfc657e2a, 0x5fcb6fab3ad6faec, 0x6c44198c4a475817]

/-- The initial hash value. -/
def shaInit : List W64 :=
  [0xcbbb9d5dc1059ed8, 0x629a292a367cd507, 0x9159015a3070dd17, 0x152fecd8f70e5939,
   0x67332667ffc00b31, 0x8eb44a8768581511, 0xdb0c2e0d64f98fa7, 0x47b5481dbefa4fa4]

/-- The message with the bit 1, zeros and its length in bits, in whole blocks of 128 bytes. -/
def shaPadded (bs : List Byte) : List Byte :=
  bs ++ [0x80] ++ List.replicate ((239 - bs.length % 128) % 128) 0 ++ beBytes 16 (8 * bs.length)

/-- The next word of the schedule; `ws` holds the words so far, newest first. -/
def shaNext (ws : List W64) : W64 :=
  let a := ws.getD 1 0
  let b := ws.getD 14 0
  (a.rotateRight 19 ^^^ a.rotateRight 61 ^^^ (a >>> 6)) + ws.getD 6 0 + (b.rotateRight 1 ^^^ b.rotateRight 8 ^^^ (b >>> 7)) + ws.getD 15 0

/-- The 80 words of the schedule of a block. -/
def shaSchedule (block : List Byte) : List W64 :=
  let first := (List.range 16).map fun i => BitVec.ofNat 64 (field block (8 * i) 8)
  ((List.range 64).foldl (fun ws _ => shaNext ws :: ws) first.reverse).reverse

/-- The eight working words of a round. -/
structure ShaVars where
  a : W64
  b : W64
  c : W64
  d : W64
  e : W64
  f : W64
  g : W64
  h : W64
  deriving DecidableEq, Repr

/-- A round with its constant and its schedule word. -/
def shaRound (v : ShaVars) (kw : W64 × W64) : ShaVars :=
  let t1 := v.h + (v.e.rotateRight 14 ^^^ v.e.rotateRight 18 ^^^ v.e.rotateRight 41) + ((v.e &&& v.f) ^^^ (~~~v.e &&& v.g)) + kw.1 + kw.2
  let t2 := (v.a.rotateRight 28 ^^^ v.a.rotateRight 34 ^^^ v.a.rotateRight 39) + ((v.a &&& v.b) ^^^ (v.a &&& v.c) ^^^ (v.b &&& v.c))
  ⟨t1 + t2, v.a, v.b, v.c, v.d + t1, v.e, v.f, v.g⟩

/-- A block taken into the hash value. -/
def shaBlock (h : List W64) (block : List Byte) : List W64 :=
  let x (i : Nat) : W64 := h.getD i 0
  let v := (shaK.zip (shaSchedule block)).foldl shaRound ⟨x 0, x 1, x 2, x 3, x 4, x 5, x 6, x 7⟩
  [x 0 + v.a, x 1 + v.b, x 2 + v.c, x 3 + v.d, x 4 + v.e, x 5 + v.f, x 6 + v.g, x 7 + v.h]

/-- SHA-384 over bytes, as twelve 32-bit words, most significant first (R225, R498). -/
def sha384 (bs : List Byte) : List W32 :=
  let p := shaPadded bs
  let h := (List.range (p.length / 128)).foldl (fun h i => shaBlock h ((p.drop (128 * i)).take 128)) shaInit
  (h.take 6).flatMap fun w => [w.extractLsb' 32 32, w.extractLsb' 0 32]

/-! ECDSA over P-384 -/

/-- The prime of P-384. -/
def p384 : Nat := 2 ^ 384 - 2 ^ 128 - 2 ^ 96 + 2 ^ 32 - 1

/-- The order of the base point. -/
def p384Order : Nat := 0xffffffffffffffffffffffffffffffffffffffffffffffffc7634d81f4372ddf581a0db248b0a77aecec196accc52973

/-- The constant term of the curve y^2 = x^3 - 3 x + b. -/
def p384B : Nat := 0xb3312fa7e23ee7e4988e056be3f82d19181d9c6efe8141120314088f5013875ac656398d8a2ed19d2a85c8edd3ec2aef

/-- A power modulo `m`, with an exponent of at most 384 bits. -/
def powMod (m b e : Nat) : Nat :=
  (List.range 384).foldr (fun i a => if e.testBit i then a * a % m * b % m else a * a % m) (1 % m)

/-- The inverse modulo a prime. -/
def invMod (m a : Nat) : Nat := powMod m a (m - 2)

/-- A difference modulo `m`. -/
def subMod (m a b : Nat) : Nat := (a + (m - b % m)) % m

/-- A point of the curve, none at infinity. -/
abbrev P384Point := Option (Nat × Nat)

/-- The base point. -/
def p384Base : P384Point :=
  some (0xaa87ca22be8b05378eb1c71ef320ad746e1d3b628ba79b9859f741e082542a385502f25dbf55296c3a545e3872760ab7,
    0x3617de4a96262c6f5d9e98bf9292dc29f8f41dbd289a147ce9da3113b5f0b8c00a60b1ce1d7e819d7a431d7c90ea0e5f)

/-- The sum of two points. -/
def p384Add (s t : P384Point) : P384Point :=
  match s, t with
  | none, t => t
  | s, none => s
  | some (x1, y1), some (x2, y2) =>
    if x1 = x2 ∧ (y1 + y2) % p384 = 0 then none
    else
      let l := if x1 = x2 then subMod p384 (3 * x1 * x1) 3 * invMod p384 (2 * y1) % p384
        else subMod p384 y2 y1 * invMod p384 (subMod p384 x2 x1) % p384
      let x := subMod p384 (subMod p384 (l * l) x1) x2
      some (x, subMod p384 (l * subMod p384 x1 x) y1)

/-- A multiple of a point. -/
def p384Mul (k : Nat) (t : P384Point) : P384Point :=
  (List.range 384).foldr (fun i a => if k.testBit i then p384Add (p384Add a a) t else p384Add a a) none

/-- The points with this x: two, or none where no point has it. -/
def p384At (x : Nat) : List P384Point :=
  let yy := subMod p384 (x * x * x + p384B) (3 * x)
  let y := powMod p384 yy ((p384 + 1) / 4)
  if p384 ≤ x ∨ y * y % p384 ≠ yy then [] else [some (x, y), some (x, (p384 - y) % p384)]

/-- A number as 32-bit words make it, most significant first. -/
def wordsNat (ws : List W32) : Nat := ws.foldl (fun a w => a * 2 ^ 32 + w.toNat) 0

/-- The hash by which the device holds a public key: SHA-384 over x then y, most significant byte first (PRESUMED, log 11). -/
def keyHash (t : P384Point) : List W32 :=
  match t with
  | some (x, y) => sha384 (beBytes 48 x ++ beBytes 48 y)
  | none => []

/-- The public keys under which the signature (r, s) over `msg` verifies. -/
def signers (msg : List Byte) (r s : Nat) : List P384Point :=
  if r = 0 ∨ s = 0 ∨ p384Order ≤ r ∨ p384Order ≤ s then []
  else
    let ri := invMod p384Order r
    let u := (p384Order - wordsNat (sha384 msg) * ri % p384Order) % p384Order
    let v := s * ri % p384Order
    ([r, r + p384Order].flatMap p384At).map fun t => p384Add (p384Mul u p384Base) (p384Mul v t)

/-- The ECDSA P-384 signature (r then s) over the bytes verifies under the public key whose SHA-384 hash is given: the device holds the
hash alone (R498). -/
def ecdsaVerify (hash : List W32) (msg : List Byte) (sig : List W32) : Bool :=
  (signers msg (wordsNat (sig.take 12)) (wordsNat (sig.drop 12))).any fun t => t.isSome && decide (keyHash t = hash)

/-! AES-256-GCM -/

/-- A byte times x in the field of AES. -/
def aesX (b : Byte) : Byte := (b <<< 1) ^^^ (if b.getLsbD 7 then 0x1B else 0)

/-- The product in the field of AES. -/
def aesMul (a b : Byte) : Byte :=
  (List.range 8).foldr (fun i r => aesX r ^^^ (if b.getLsbD i then a else 0)) 0

/-- The substitution of a byte: its inverse in the field, then the affine map. -/
def aesSub (b : Byte) : Byte :=
  let b2 := aesMul b b
  let i := ((List.range 6).foldl (fun (s : Byte × Byte) _ => (aesMul s.1 s.1, aesMul s.2 (aesMul s.1 s.1))) (b2, b2)).2
  i ^^^ i.rotateLeft 1 ^^^ i.rotateLeft 2 ^^^ i.rotateLeft 3 ^^^ i.rotateLeft 4 ^^^ 0x63

/-- The exclusive or of two byte strings. -/
def xorBytes (a b : List Byte) : List Byte := List.zipWith (· ^^^ ·) a b

/-- The round constant of step `i` of the key schedule. -/
def aesRcon (i : Nat) : Byte := (List.range (i - 1)).foldl (fun b _ => aesX b) 1

/-- The 60 words of the key schedule of a 256-bit key, 4 bytes each. -/
def aesKeys (key : List Byte) : List (List Byte) :=
  let first := (List.range 8).map fun i => (key.drop (4 * i)).take 4
  (List.range 52).foldl (fun ws j =>
    let i := j + 8
    let last := ws.getLastD []
    let t := if i % 8 = 0 then xorBytes ((last.drop 1 ++ last.take 1).map aesSub) [aesRcon (i / 8), 0, 0, 0]
      else if i % 8 = 4 then last.map aesSub else last
    ws ++ [xorBytes (ws.getD j []) t]) first

/-- The rows of a state shifted; a state is its 16 bytes, column by column. -/
def aesShift (st : List Byte) : List Byte := (List.range 16).map fun i => st.getD ((i + 4 * (i % 4)) % 16) 0

/-- The columns of a state mixed. -/
def aesMix (st : List Byte) : List Byte :=
  (List.range 16).map fun i =>
    let b (k : Nat) : Byte := st.getD (i / 4 * 4 + (i + k) % 4) 0
    aesX (b 0) ^^^ aesX (b 1) ^^^ b 1 ^^^ b 2 ^^^ b 3

/-- AES-256 of a block of 16 bytes. -/
def aes256 (key block : List Byte) : List Byte :=
  let ks := aesKeys key
  let rk (r : Nat) : List Byte := ((ks.drop (4 * r)).take 4).flatten
  let st := (List.range 13).foldl (fun st r => xorBytes (aesMix (aesShift (st.map aesSub))) (rk (r + 1))) (xorBytes block (rk 0))
  xorBytes (aesShift (st.map aesSub)) (rk 14)

/-- The product in the field of GCM, whose first bit is the highest. -/
def ghashMul (x y : BitVec 128) : BitVec 128 :=
  ((List.range 128).foldl (fun (s : BitVec 128 × BitVec 128) i =>
    (if x.getMsbD i then s.1 ^^^ s.2 else s.1, (s.2 >>> 1) ^^^ (if s.2.getLsbD 0 then (0xE1 : BitVec 128) <<< 120 else 0))) (0, y)).1

/-- A block of 16 bytes as a number, filled with zeros at its end. -/
def blockNat (bs : List Byte) : BitVec 128 := BitVec.ofNat 128 (beNat ((bs ++ List.replicate 16 0).take 16))

/-- The AES-256-GCM tag of no plaintext, of key, 12-byte nonce and additional data (R356). -/
def gcmTag (key : Nat) (nonce aad : List Byte) : BitVec 128 :=
  let k := beBytes 32 key
  let h := blockNat (aes256 k (List.replicate 16 0))
  let blocks := (List.range ((aad.length + 15) / 16)).map fun i => blockNat ((aad.drop (16 * i)).take 16)
  let s := (blocks ++ [BitVec.ofNat 128 (8 * aad.length * 2 ^ 64)]).foldl (fun y b => ghashMul (y ^^^ b) h) 0
  blockNat (aes256 k (nonce ++ [0, 0, 0, 1])) ^^^ s

end Sys2Proof.Machine
end

