-- ==== Sys2Proof/Machine/Package.lean ====
section
/-! DEFINITION. The program package (R221-R230, R188-R191, R197, R265, R315, R388): its sections parsed into a program,
as a list of words read by offset. -/

namespace Sys2Proof.Machine

/-- Bits [lo + n - 1 : lo] of a word. -/
def wbits (w : W36) (lo n : Nat) : Nat := bitsOf w.toNat lo n

/-- Bit `i` of a word. -/
def wbit (w : W36) (i : Nat) : Bool := w.toNat.testBit i

/-- Word `i` of a package. -/
def pword (ws : List W36) (i : Nat) : W36 := ws.getD i 0

/-- `n` words of a package from `a` on. -/
def pslice (ws : List W36) (a n : Nat) : List W36 := (ws.drop a).take n

/-- An entry of the section table (R223). -/
structure Section where
  index : Nat
  kind : Nat
  off : Nat
  len : Nat
  deriving DecidableEq, Repr

/-- The section table (R223). -/
def sectionsOf (ws : List W36) : List Section :=
  (List.range (wbits (pword ws 9) 0 8)).map fun i =>
    ⟨i, wbits (pword ws (16 + 3 * i)) 0 8, (pword ws (17 + 3 * i)).toNat, wbits (pword ws (18 + 3 * i)) 0 24⟩

/-- The section of a type, where the package has one. -/
def sectionOf (ws : List W36) (kind : Nat) : Option Section := (sectionsOf ws).find? fun s => decide (s.kind = kind)

/-- The words of the section of a type; empty where it is omitted. -/
def sectionWords (ws : List W36) (kind : Nat) : List W36 :=
  match sectionOf ws kind with
  | some s => pslice ws s.off s.len
  | none => []

/-- The package is an EDIT (R221). -/
def isEdit (ws : List W36) : Bool := decide (wbits (pword ws 1) 0 2 = 2)

/-- Words grouped by `n`. -/
def groups (n : Nat) (ws : List W36) : List (List W36) :=
  (List.range (ws.length / n)).map fun i => pslice ws (n * i) n

/-- The CLASS section (R225). -/
def parseClasses (ws : List W36) : List ClassCfg :=
  (groups 4 ws).map fun g => ⟨wbits (pword g 0) 0 26, wbits (pword g 1) 0 26, wbits (pword g 2) 0 8, wbit (pword g 3) 0⟩

/-- The ENGINE section (R225). -/
def parseEngines (ws : List W36) : List EngineCfg :=
  (groups 4 ws).map fun g => ⟨wbits (pword g 0) 0 3, pword g 1, pword g 2, pword g 3⟩

/-- The runs of a CODE_LS section: engine, address, words (R225); nothing where a run reaches past the end. -/
def parseCodeLs (fuel : Nat) (ws : List W36) : Option (List (Nat × Nat × List W36)) :=
  match fuel, ws with
  | _, [] => some []
  | 0, _ => none
  | _, [_] => none
  | n + 1, h :: a :: rest =>
    let c := wbits h 7 16
    if rest.length < c then none
    else (parseCodeLs n (rest.drop c)).map fun r => (wbits h 0 7, a.toNat, rest.take c) :: r

/-- The runs of a CODE_DRAM section: offset, words (R225). -/
def parseCodeDram (fuel : Nat) (ws : List W36) : Option (List (Nat × List W36)) :=
  match fuel, ws with
  | _, [] => some []
  | 0, _ => none
  | _, [_] => none
  | n + 1, h :: a :: rest =>
    let c := wbits h 0 24
    if rest.length < c then none
    else (parseCodeDram n (rest.drop c)).map fun r => (a.toNat, rest.take c) :: r

/-- A read signature read until its LAST word, at most 256 words (R191). Bits [35:34] of a word are ignored: the spec names no
refusal for them (DESIGN CHOICE, log 55). -/
def parseSig (fuel : Nat) (ws : List W36) : Option (List SigWord) :=
  match fuel, ws with
  | 0, _ => none
  | _, [] => none
  | n + 1, w :: rest =>
    let e : SigWord := ⟨wbits w 0 20, wbits w 20 12 + 1, wbit w 32⟩
    if wbit w 33 then some [e] else (parseSig n rest).map fun r => e :: r

/-- An instance table: its entries as image base and parameter (R197). Word 1 is ignored: the spec names no refusal for one that
is not zero (DESIGN CHOICE, log 55). -/
def parseItab (ws : List W36) : Option (List (W36 × W36)) :=
  let n := wbits (pword ws 0) 0 21
  if n = 0 ∨ 1048576 < n ∨ ws.length < 2 + 2 * n then none
  else some ((List.range n).map fun i => (pword ws (2 + 2 * i), pword ws (3 + 2 * i)))

/-- A descriptor of 10 words (R188) with the signature and the table that it refers to. -/
def parseDesc (sig itab : List W36) (d : List W36) : Desc :=
  let w0 := pword d 0
  let w2 := pword d 2
  let so := (pword d 4).toNat
  let io := (pword d 9).toNat
  { id := wbits w0 0 20, cls := wbits w0 20 2, pure := wbit w0 22, always := wbit w0 23, inst := wbit w0 24
    auditExempt := wbit w0 25, task := wbits w0 26 2, entry := pword d 1
    logical := wbits w2 0 7, spread := wbits w2 7 7, tier := wbits w2 14 8, budget := wbits (pword d 3) 0 32
    sigOff := so
    sig := if so = 0 then [] else (parseSig 256 (sig.drop so)).getD []
    windows := [5, 6, 7, 8].map fun i => (wbits (pword d i) 0 20, wbits (pword d i) 20 16)
    itabOff := io
    itab := if io = 0 then [] else (parseItab (itab.drop io)).getD [] }

/-- The unlisted bits of a descriptor are zero (R188). -/
def descClean (d : List W36) : Bool :=
  decide (wbits (pword d 0) 28 8 = 0) && decide (wbits (pword d 2) 22 14 = 0) && decide (wbits (pword d 3) 32 4 = 0)

/-- The lists that a descriptor refers to end within their sections (R191, R197, R225). -/
def descLists (sig itab : List W36) (d : List W36) : Bool :=
  let so := (pword d 4).toNat
  let io := (pword d 9).toNat
  (decide (so = 0) || (decide (so < sig.length) && (parseSig 256 (sig.drop so)).isSome)) &&
    (decide (io = 0) || (decide (io < itab.length) && (parseItab (itab.drop io)).isSome))

/-- The LAYOUT section: base image granule, count, code (R225). -/
def parseLayout (ws : List W36) : List (Nat × Nat × Nat) :=
  (groups 2 ws).map fun g => (wbits (pword g 0) 0 19, wbits (pword g 1) 0 19, wbits (pword g 1) 19 2)

/-- The RETAIN section: its entries in place, an unused one with length 0 (R126). -/
def parseRetain (ws : List W36) : List (Nat × Nat) :=
  (groups 2 ws).map fun g => (wbits (pword g 0) 0 20, wbits (pword g 1) 0 16)

/-- The IMPORT section (R196, R225). -/
def parseImports (ws : List W36) : List (Nat × Nat × Nat) :=
  (groups 3 ws).map fun g => ((pword g 0).toNat, (pword g 1).toNat, (pword g 2).toNat)

/-- The MIGRATE section, with the INIT words that its entries name (R226). -/
def parseMigrate (init : List W36) (ws : List W36) : List Migration :=
  (groups 3 ws).map fun g =>
    let op := wbits (pword g 0) 0 2
    let n := wbits (pword g 0) 4 20
    let src := (pword g 2).toNat
    ⟨op, wbits (pword g 0) 2 2, n, (pword g 1).toNat, src, if op = 2 then pslice init src n else []⟩

/-- A Draught (1), legacy (2) or bus (4) station entry (R265, R315). -/
def parseStation (kind : Nat) (sec e : List W36) : StationDecl :=
  let w0 := pword e 0
  let iw := wbits (pword e 2) 11 11
  let ow := wbits (pword e 5) 11 11
  let map := wbits (pword e 14) 0 24
  let or (v d : Nat) : Nat := if v = 0 then d else v
  let legacy : Bool := decide (kind = 2)
  { kind := kind, num := wbits w0 0 17, cls := wbits w0 17 2, outMode := wbit w0 19, resend := wbit w0 20
    events := wbit w0 21, outAck := wbit w0 22
    ibBase := (pword e 1).toNat, ibCount := wbits (pword e 2) 0 11, iwBase := (pword e 3).toNat, iwCount := iw
    obBase := (pword e 4).toNat, obCount := wbits (pword e 5) 0 11, owBase := (pword e 6).toNat, owCount := ow
    layoutHash := wbits (pword e 7) 0 32, periodMs := wbits (pword e 8) 0 20
    ageLimit := wbits (pword e 9) 0 24, ageWarn := wbits (pword e 10) 0 24
    idHash := if kind = 4 then 0 else wbits (pword e 11) 0 32 * 2 ^ 32 + wbits (pword e 12) 0 32
    ca := if legacy then wbits (pword e 13) 0 16 else 0
    orig := if legacy then wbits (pword e 13) 16 8 else 0
    points := if legacy then
        (pslice sec map (iw + ow)).map fun w => (wbits w 0 24, wbits w 24 8)
      else []
    addr := if legacy then beNat ([15, 16, 17, 18].flatMap fun i => beBytes 4 (wbits (pword e i) 0 32)) else 0
    tcpPort := if legacy then or (wbits (pword e 19) 0 16) 19998 else 0
    t1 := if legacy then or (wbits (pword e 20) 0 8) 15 else 0
    t2 := if legacy then or (wbits (pword e 20) 8 8) 10 else 0
    t3 := if legacy then or (wbits (pword e 20) 16 8) 20 else 0
    k := if legacy then or (wbits (pword e 20) 24 6) 12 else 0
    w := if legacy then or (wbits (pword e 21) 0 6) 8 else 0
    giS := if legacy then wbits (pword e 21) 6 16 else 0
    csMin := if legacy then wbits (pword e 21) 22 10 else 0 }

/-- A port entry (R315). -/
def parsePort (e : List W36) : PortDecl :=
  { port := wbits (pword e 0) 0 8, nbt := wbits (pword e 1) 0 27, dbt := wbits (pword e 2) 0 26
    refClass := wbits (pword e 3) 0 2, timeMaster := wbit (pword e 3) 2, sleepOk := wbit (pword e 3) 3
    refOffset := wbits (pword e 4) 0 26 }

/-- A Grate channel entry (R388). -/
def parseChan (e : List W36) : ChanDecl :=
  { chan := wbits (pword e 0) 0 4, cls := wbits (pword e 0) 4 2, mode := wbits (pword e 0) 6 2, safe := wbit (pword e 0) 8
    on := wbits (pword e 1) 0 9, off := wbits (pword e 1) 9 9, filter := wbits (pword e 1) 18 10
    point := (pword e 2).toNat }

/-- The entries of a STATION section in order: type and words. The list ends at the section's end, at a head word of
zero, or at the first point map that a legacy entry names (R265, R281, log 16). -/
def stationEntries (fuel : Nat) (sec : List W36) (at_ stop : Nat) : Option (List (Nat × List W36)) :=
  match fuel with
  | 0 => if stop ≤ at_ then some [] else none
  | n + 1 =>
    if stop ≤ at_ then some []
    else
      let h := pword sec at_
      if h = 0 then some []
      else
        let kind := wbits h 0 4
        let len := wbits h 4 8
        let good : Bool := (kind = 1 ∧ len = 13) ∨ (kind = 2 ∧ len = 22) ∨ (kind = 3 ∧ len = 5) ∨ (kind = 4 ∧ len = 11)
          ∨ (kind = 5 ∧ len = 3)
        if !good || decide (stop < at_ + 1 + len) then none
        else
          let e := pslice sec (at_ + 1) len
          let stop' := if kind = 2 then min stop (wbits (pword e 14) 0 24) else stop
          if kind = 2 ∧ sec.length < wbits (pword e 14) 0 24 + wbits (pword e 2) 11 11 + wbits (pword e 5) 11 11 then none
          else (stationEntries n sec (at_ + 1 + len) (max stop' (at_ + 1 + len))).map fun r => (kind, e) :: r

/-- The entries of a STATION section. -/
def parseStations (sec : List W36) : Option (List (Nat × List W36)) := stationEntries sec.length sec 0 sec.length

/-- A program with nothing in it, on which a FULL package builds. -/
def Program.empty : Program where
  id := 0
  version := 0
  layout := 0
  reqEngines := 0
  reqDram := false
  reqTurnspit := false
  reqHob := false
  reqChimney := false
  reqGrate := false
  dramFree := false
  full := true
  digest := []
  classes := []
  engines := []
  descs := []
  ranges := []
  retain := []
  imports := []
  stations := []
  ports := []
  chans := []
  codeLs := []
  codeDram := []
  migrate := []
  changed := []

/-- A list with the entries of `new` added, each replacing the old entry of the same key. -/
def mergeBy {α : Type} (key : α → Nat) (old new : List α) : List α :=
  (old.filter fun o => !(new.any fun n => decide (key n = key o))) ++ new

/-- The program that a package makes of the program it applies to (R221, R225). -/
def buildProgram (ws : List W36) (base : Program) : Program :=
  let old := if isEdit ws then base else Program.empty
  let sig := sectionWords ws 0x07
  let itab := sectionWords ws 0x08
  let descs := (groups 10 (sectionWords ws 0x05)).map (parseDesc sig itab)
  let dels := (sectionWords ws 0x06).map fun w => wbits w 0 20
  let sec := sectionWords ws 0x0C
  let ents := (parseStations sec).getD []
  let w8 := pword ws 8
  let req := wbits w8 0 7
  { id := wbits (pword ws 3) 0 32
    version := wbits (pword ws 4) 0 32
    layout := wbits (pword ws 6) 0 32
    reqEngines := if req = 0 then 128 else req
    reqDram := wbit w8 7
    reqTurnspit := wbit w8 8
    reqHob := wbit w8 9
    reqChimney := wbit w8 10
    reqGrate := wbit w8 11
    dramFree := wbit w8 12
    full := !isEdit ws
    digest := (sectionWords ws 0x0F).map fun w => BitVec.ofNat 32 (wbits w 0 32)
    classes := if (sectionOf ws 0x01).isSome then parseClasses (sectionWords ws 0x01) else old.classes
    engines := if (sectionOf ws 0x02).isSome then parseEngines (sectionWords ws 0x02) else old.engines
    descs := mergeBy Desc.id (old.descs.filter fun d => !dels.contains d.id) descs
    ranges := parseLayout (sectionWords ws 0x09)
    retain := if (sectionOf ws 0x0A).isSome then parseRetain (sectionWords ws 0x0A) else old.retain
    imports := if (sectionOf ws 0x0B).isSome then parseImports (sectionWords ws 0x0B) else old.imports
    stations := mergeBy StationDecl.num old.stations
      ((ents.filter fun e => decide (e.1 = 1 ∨ e.1 = 2 ∨ e.1 = 4)).map fun e => parseStation e.1 sec e.2)
    ports := mergeBy PortDecl.port old.ports ((ents.filter fun e => decide (e.1 = 3)).map fun e => parsePort e.2)
    chans := mergeBy ChanDecl.chan old.chans ((ents.filter fun e => decide (e.1 = 5)).map fun e => parseChan e.2)
    codeLs := old.codeLs ++ ((parseCodeLs (sectionWords ws 0x03).length (sectionWords ws 0x03)).getD [])
    codeDram := old.codeDram ++ ((parseCodeDram (sectionWords ws 0x04).length (sectionWords ws 0x04)).getD [])
    migrate := parseMigrate (sectionWords ws 0x0D) (sectionWords ws 0x0E)
    changed := descs.map Desc.id }

/-! What follows from a program -/

/-- The ENGINE entry of a logical engine. -/
def Program.engine (p : Program) (l : Nat) : EngineCfg := p.engines.getD l ⟨0, 0, 0, 0⟩

/-- The classes that a logical engine serves, bit k for class k (R183). -/
def Program.classesOf (p : Program) (l : Nat) : Nat := (p.engine l).classes

/-- The descriptor of a block. -/
def Program.desc (p : Program) (b : Nat) : Option Desc := p.descs.find? fun d => decide (d.id = b)

/-- The base granule of instance `i` (R197), as a current-view granule number. -/
def Desc.instGranule (d : Desc) (i : Nat) : Nat :=
  (((d.itab.getD i (0, 0)).1.toNat - hearthBase) / 32)

/-- The write windows of a block, or of one of its instances, without the unused ones (R112, R198). -/
def Desc.windowsOf (d : Desc) (inst : Option Nat) : List (Nat × Nat) :=
  let ws := d.windows.filter fun w => decide (w.2 ≠ 0)
  match inst with
  | some i => ws.map fun w => ((w.1 + d.instGranule i) % 2 ^ 20, w.2)
  | none => ws

/-- The instances of a block; a block that is not instanced has one run without number. -/
def Desc.runs (d : Desc) : List (Option Nat) :=
  if d.inst then (List.range d.itab.length).map some else [none]

/-- Every write window of a block, over its instances. -/
def Desc.allWindows (d : Desc) : List (Nat × Nat) := d.runs.flatMap d.windowsOf

/-- The read signature of a block, or of one instance, as ranges of current-view granules (R191, R198). -/
def Desc.sigOf (d : Desc) (inst : Option Nat) : List (Nat × Nat) :=
  d.sig.map fun s =>
    if s.rel then
      (((signed 20 s.gran + (match inst with | some i => (d.instGranule i : Int) | none => 0)) % (2 ^ 20 : Nat)).toNat, s.len)
    else (s.gran, s.len)

/-- The instances of slice `e` of a block of spread `s` (R198). -/
def Desc.slice (d : Desc) (e : Nat) : List Nat :=
  let n := d.itab.length
  let s := d.spread + 1
  let lo := e * n / s
  (List.range ((e + 1) * n / s - lo)).map (lo + ·)

/-- Ranges sorted by base, and merged where they overlap or touch (R190). -/
def insertRange (r : Nat × Nat) (rs : List (Nat × Nat)) : List (Nat × Nat) :=
  match rs with
  | [] => [r]
  | a :: rest => if r.1 ≤ a.1 then r :: a :: rest else a :: insertRange r rest

/-- A range and the sorted ranges after it, merged where they overlap or touch. -/
def joinFrom (a : Nat × Nat) (rs : List (Nat × Nat)) : List (Nat × Nat) :=
  match rs with
  | [] => [a]
  | b :: rest => if b.1 ≤ a.1 + a.2 then joinFrom (a.1, max a.2 (b.1 + b.2 - a.1)) rest else a :: joinFrom b rest

/-- Sorted ranges merged where they overlap or touch. -/
def joinRanges (rs : List (Nat × Nat)) : List (Nat × Nat) :=
  match rs with
  | [] => []
  | a :: rest => joinFrom a rest

/-- A tier's merged claim list (R190). -/
def Program.claimList (p : Program) (k t : Nat) : List (Nat × Nat) :=
  joinRanges (((p.descs.filter fun d => decide (d.cls = k ∧ d.tier = t)).flatMap Desc.allWindows).foldr insertRange [])

/-- The words that the schedule of a program takes (R190): a signature that several descriptors share counts once for each (DESIGN
CHOICE, log 144). -/
def Program.scheduleWords (p : Program) : Nat :=
  (p.descs.foldl (fun a d => a + 10 + d.sig.length) 0)
    + (([0, 1, 2].flatMap fun k => (List.range 256).map fun t => 2 * (p.claimList k t).length).foldl (· + ·) 0)

/-- The task engine of a class: the engine that its tasks name (R189). -/
def Program.taskEngine (p : Program) (k : Nat) : Nat :=
  match p.descs.find? fun d => decide (d.cls = k ∧ d.task ≠ 0) with
  | some d => d.logical
  | none => 0

/-- The task of a kind of a class (R188); kind 0 is no task. -/
def Program.task (p : Program) (k kind : Nat) : Option Desc :=
  if kind = 0 then none else p.descs.find? fun d => decide (d.cls = k ∧ d.task = kind)

/-- The class that a program's ranges give image granule `j`, over what the class map holds (R101, R225). -/
def Program.classAt (p : Program) (old : Nat → Nat) (j : Nat) : Nat :=
  p.ranges.foldl (fun c r => if decide (r.1 ≤ j) && decide (j < r.1 + r.2.1) then r.2.2 else c) (old j)

/-- A station of the program. -/
def Program.station (p : Program) (n : Nat) : Option StationDecl := p.stations.find? fun d => decide (d.num = n)

/-- The input word count of a station (R265). -/
def StationDecl.inCount (d : StationDecl) : Nat := d.ibCount + d.iwCount

/-- The output word count of a station (R265). -/
def StationDecl.outCount (d : StationDecl) : Nat := d.obCount + d.owCount

/-- The image words of a station's input image, in order (R265). -/
def StationDecl.inWords (d : StationDecl) : List Nat :=
  (List.range d.ibCount).map (fun i => imageWord (d.ibBase + i)) ++ (List.range d.iwCount).map fun i => imageWord (d.iwBase + i)

/-- The image words of a station's output image, in order (R265). -/
def StationDecl.outWords (d : StationDecl) : List Nat :=
  (List.range d.obCount).map (fun i => imageWord (d.obBase + i)) ++ (List.range d.owCount).map fun i => imageWord (d.owBase + i)

/-- The port and address of a bus station (R307, R315). -/
def StationDecl.hobPort (d : StationDecl) : Nat := (d.num - 65536) / 64

/-- The bus address of a bus station (R307, R315). -/
def StationDecl.hobAddr (d : StationDecl) : Nat := (d.num - 65536) % 64

/-- The sending period of a station in ns: a bus station's 0 is its class period (R265, R315). -/
def StationDecl.periodNs (d : StationDecl) (classUs : Nat) : Nat :=
  if d.periodMs = 0 then classUs * 1000 else d.periodMs * 1000000

/-- That period in whole ms, as frames carry it. -/
def StationDecl.period (d : StationDecl) (classUs : Nat) : Nat := (d.periodNs classUs + 999999) / 1000000

/-- The age limit of a station in ns (R265, R283, R315). -/
def StationDecl.limitNs (d : StationDecl) (classUs : Nat) : Nat :=
  let l := if d.ageLimit = 0 then 3 * d.periodNs classUs else d.ageLimit * 1000000
  if d.kind = 2 then max l (1000000000 * (d.t3 + d.t1)) else l

/-- The age-warning threshold of a station in ns (R265, R315). -/
def StationDecl.warnNs (d : StationDecl) (classUs : Nat) : Nat :=
  if d.ageWarn = 0 then 2 * d.periodNs classUs else d.ageWarn * 1000000

/-- The local-store words of a logical engine's code (R225, R537); what a FULL package's run holds past the end of local store has no
place (DESIGN CHOICE, log 145). -/
def Program.lsImage (p : Program) (l : Nat) : List (Nat × W36) :=
  (p.codeLs.filter fun r => decide (r.1 = l)).flatMap fun r =>
    (List.range (min r.2.2.length (0xC000 - r.2.1))).map fun i => (r.2.1 + i, pword r.2.2 i)

end Sys2Proof.Machine
end

