-- ==== Sys2Proof/Machine/Verify.lean ====
section
/-! DEFINITION. The checks of a package, in the order of the refusal table (R234), and what a program needs that the
unit lacks (R44, R46). -/

namespace Sys2Proof.Machine

/-- A refusal: its code, the section table entry (0xFF the header) and the package word (R234, R246). -/
structure Refuse where
  reason : Nat
  sect : Nat
  offset : Nat
  deriving DecidableEq, Repr

/-- The first item that fails, of a section whose items start at these offsets in it; the header where the section is
omitted. -/
def failAt (reason : Nat) (sec : Option Section) (offs : List Nat) (goods : List Bool) : Option Refuse :=
  match goods.findIdx? (fun b => !b), sec with
  | some i, some s => some ⟨reason, s.index, s.off + offs.getD i 0⟩
  | some _, none => some ⟨reason, 0xFF, 0⟩
  | none, _ => none

/-- The first item that fails, of a section whose items are `stride` words each. -/
def failItem (reason : Nat) (sec : Option Section) (stride : Nat) (goods : List Bool) : Option Refuse :=
  failAt reason sec ((List.range goods.length).map (stride * ·)) goods

/-- Where items of these lengths start, one after the other. -/
def startsOf (at_ : Nat) (lens : List Nat) : List Nat :=
  match lens with
  | [] => []
  | n :: rest => at_ :: startsOf (at_ + n) rest

/-- For each item, whether the items up to it satisfy `p`. -/
def prefixes {α : Type} (p : List α → Bool) (xs : List α) : List Bool := (List.range xs.length).map fun i => p (xs.take (i + 1))

/-- The last of some items stands apart from those before it. -/
def lastApart {α : Type} (apart : α → α → Bool) (xs : List α) : Bool :=
  match xs.getLast? with
  | some x => xs.dropLast.all fun y => apart y x
  | none => true

/-- A header item that fails. -/
def failHead (reason offset : Nat) (good : Bool) : Option Refuse := if good then none else some ⟨reason, 0xFF, offset⟩

/-- The first refusal of a list of checks. -/
def firstRefusal (checks : List (Option Refuse)) : Option Refuse := checks.findSome? id

/-- A list without repeats. -/
def noRepeat (xs : List Nat) : Bool :=
  match xs with
  | [] => true
  | x :: rest => !rest.contains x && noRepeat rest

/-- Two ranges share a member. -/
def meets (a b : Nat × Nat) : Bool := decide (a.1 < b.1 + b.2) && decide (b.1 < a.1 + a.2)

/-- A range of granules lies within one current view (R99, R113). -/
def inOneView (r : Nat × Nat) : Bool :=
  decide (r.1 + r.2 ≤ 32768) || (decide (65536 ≤ r.1) && decide (r.1 + r.2 ≤ 327680))

/-- Every granule of a range within one current view satisfies `f` of its image granule. -/
def allGranules (f : Nat → Bool) (r : Nat × Nat) : Bool :=
  inOneView r && (List.range r.2).all fun i => match imageGranule (r.1 + i) with | some j => f j | none => false

/-! 0x01 FORMAT -/

/-- A section type is allowed in the package's kind; an ENGINE section of an EDIT has its own code (R225, R234). -/
def sectionAllowed (edit : Bool) (kind : Nat) : Bool :=
  decide (1 ≤ kind) && decide (kind ≤ 0x10) && (edit || !(decide (kind = 0x06) || decide (kind = 0x0D) || decide (kind = 0x0E)))

/-- The sections that a package's kind requires (R225). -/
def requiredSections (edit : Bool) : List Nat :=
  if edit then [0x0F] else [0x01, 0x02, 0x03, 0x05, 0x09, 0x0C, 0x0F]

/-- A section's length is its fixed size or a multiple of its entry size, and its runs and lists end within it (R234). -/
def sectionParses (ws : List W36) (s : Section) : Bool :=
  let body := pslice ws s.off s.len
  if s.kind = 0x01 then decide (s.len = 12)
  else if s.kind = 0x02 then decide (s.len = 512)
  else if s.kind = 0x03 then (parseCodeLs s.len body).isSome
  else if s.kind = 0x04 then (parseCodeDram s.len body).isSome
  else if s.kind = 0x05 then
    decide (s.len % 10 = 0) && (groups 10 body).all (descLists (sectionWords ws 0x07) (sectionWords ws 0x08))
  else if s.kind = 0x09 then decide (s.len % 2 = 0)
  else if s.kind = 0x0A then decide (s.len % 2 = 0)
  else if s.kind = 0x0B then decide (s.len % 3 = 0)
  else if s.kind = 0x0C then (parseStations body).isSome
  else if s.kind = 0x0E then decide (s.len % 3 = 0)
  else if s.kind = 0x0F then decide (s.len = 12)
  else if s.kind = 0x10 then decide (s.len = 25)
  else true

/-- FORMAT (R223, R225, R234). -/
def checkFormat (ws : List W36) : Option Refuse :=
  let n := wbits (pword ws 9) 0 8
  let secs := sectionsOf ws
  let kind := wbits (pword ws 1) 0 2
  let edit := isEdit ws
  let len := wbits (pword ws 2) 0 32
  let plain (i : Nat) : Bool := decide (wbits (pword ws i) 32 4 = 0)
  let ordered (i : Nat) : Bool :=
    match secs[i]?, secs[i + 1]? with
    | some a, some b => decide (a.kind < b.kind)
    | _, _ => true
  firstRefusal [
    failHead 0x01 0 (decide (pword ws 0 = 0x50524F47)),
    failHead 0x01 1 (decide (kind = 1 ∨ kind = 2) && decide ((pword ws 1).toNat = kind + 0x100)),
    failHead 0x01 2 (decide ((pword ws 2).toNat = len) && decide (len ≤ 0x800000) && decide (16 + 4 * n ≤ len)),
    failHead 0x01 3 (plain 3),
    failHead 0x01 4 (decide (wbits (pword ws 4) 0 32 ≠ 0) && plain 4),
    failHead 0x01 5 (plain 5 && (edit || decide (pword ws 5 = 0))),
    failHead 0x01 6 (plain 6),
    failHead 0x01 7 (plain 7 && (edit || decide (pword ws 7 = 0))),
    failHead 0x01 8 (decide (wbits (pword ws 8) 13 23 = 0)),
    failHead 0x01 9 (decide (1 ≤ n) && decide (n ≤ 32) && decide ((pword ws 9).toNat = n)),
    failHead 0x01 10 ((pslice ws 10 6).all fun w => decide (w = 0)),
    (secs.findSome? fun s =>
      if decide (s.off + s.len ≤ len) && decide (16 + 4 * n ≤ s.off) && sectionAllowed edit s.kind && ordered s.index
          && ((secs.take s.index).all fun q => !meets (q.off, q.len) (s.off, s.len))
          && decide ((pword ws (16 + 3 * s.index)).toNat = s.kind) && decide ((pword ws (18 + 3 * s.index)).toNat = s.len) then
        none
      else some ⟨0x01, s.index, 16 + 3 * s.index⟩),
    failHead 0x01 9 ((requiredSections edit).all fun k => (sectionOf ws k).isSome),
    (secs.findSome? fun s => if sectionParses ws s then none else some ⟨0x01, s.index, s.off⟩)]

/-! 0x02 to 0x07 -/

/-- CRC: every section's CRC-32C (R223). -/
def checkCrc (ws : List W36) : Option Refuse :=
  let n := wbits (pword ws 9) 0 8
  (sectionsOf ws).findSome? fun s =>
    if crc32c ((pslice ws s.off s.len).flatMap slotBytes) = wbits (pword ws (16 + 3 * n + s.index)) 0 32 then none
    else some ⟨0x02, s.index, s.off⟩

/-- The words that the DIGEST covers: every word before its section, the CRC entries of DIGEST and SIGNATURE taken as
zero (R225). -/
def digestWords (ws : List W36) : List W36 :=
  let n := wbits (pword ws 9) 0 8
  match sectionOf ws 0x0F with
  | none => []
  | some d =>
    let z1 := ws.set (16 + 3 * n + d.index) 0
    let z2 := match sectionOf ws 0x10 with
      | some g => z1.set (16 + 3 * n + g.index) 0
      | none => z1
    z2.take d.off

/-- The digest that the words have (R225). -/
def packageDigest (ws : List W36) : List W32 := sha384 ((digestWords ws).flatMap slotBytes)

/-- DIGEST (R225). -/
def checkDigest (ws : List W36) : Option Refuse :=
  failItem 0x03 (sectionOf ws 0x0F) 1
    [decide ((sectionWords ws 0x0F).map (fun w => BitVec.ofNat 32 (wbits w 0 32)) = packageDigest ws)]

/-- An OEM slot is VALID (R498). -/
def State.slotValid (s : State) (n : Nat) : Bool := decide (Sparse.get s.fuses.slots 0 n = 1)

/-- SIGNATURE (R225, R234, R498). -/
def State.checkSignature (s : State) (ws : List W36) : Option Refuse :=
  if !s.bit Reg.edtControlRequireSig then none
  else
    let g := sectionWords ws 0x10
    let slot := wbits (pword g 24) 0 2
    let sig := (g.take 24).map fun w => BitVec.ofNat 32 (wbits w 0 32)
    let msg := (packageDigest ws).flatMap fun w => beBytes 4 w.toNat
    match sectionOf ws 0x10 with
    | none => some ⟨0x04, 0xFF, 0⟩
    | some d =>
      if s.slotValid slot && ecdsaVerify (Sparse.get s.fuses.hashes [] slot) msg sig then none
      else some ⟨0x04, d.index, d.off⟩

/-- BASE, PROGRAM_ID and ENGINE_MAP of an EDIT (R234). -/
def checkBase (ws : List W36) (loaded : Bool) (active : Program) : Option Refuse :=
  if isEdit ws then
    firstRefusal [
      failHead 0x05 5 loaded,
      failHead 0x05 5 (decide (wbits (pword ws 5) 0 32 = active.version)),
      failHead 0x05 7 (decide (wbits (pword ws 7) 0 32 = active.layout)),
      failHead 0x06 3 (decide (wbits (pword ws 3) 0 32 = active.id)),
      (match sectionOf ws 0x02 with | some e => some ⟨0x07, e.index, e.off⟩ | none => none)]
  else none

/-! 0x08 DESCRIPTOR and 0x09 SCHEDULE -/

/-- A descriptor's own rules (R188, R189). -/
def descGood (p : Program) (d : Desc) : Bool :=
  let engines := (List.range (d.spread + 1)).map (d.logical + ·)
  decide (d.cls ≠ 3)
    && (if d.task = 0 then decide (d.pure ≠ d.always) && decide (1 ≤ d.tier)
        else !d.pure && !d.always && decide (d.tier = 0) && !d.inst)
    && (!d.pure || decide (d.sig ≠ []))
    && (engines.all fun l => decide (l < 128) && bitOf (p.classesOf l) d.cls)
    && (d.inst || decide (d.spread = 0))
    && (d.inst || decide (d.itabOff = 0))
    && (d.inst || d.sig.all fun s => !s.rel)
    && (!d.inst || (decide (d.cls ≠ 0) && !p.dramFree && decide (d.itab ≠ [])))
    && (d.itab.all fun e => decide (e.1.toNat % 32 = 0) && isCurAddr e.1.toNat)
    && (decide (d.cls ≠ 0) || (decide (d.budget ≠ 0) && decide (d.entry.toNat < lsSizeWords)))
    && (d.allWindows.all inOneView)
where
  /-- The size of a local store (R27). -/
  lsSizeWords : Nat := 0xC000

/-- Lists of windows of which no two share a granule (R189). -/
def listsApart (xs : List (List (Nat × Nat))) : Bool :=
  match xs with
  | [] => true
  | a :: rest => (rest.all fun b => a.all fun w => b.all fun v => !meets w v) && listsApart rest

/-- The rules of a descriptor against the others of its class, and of its instances against one another (R189). -/
def descAmong (p : Program) (d : Desc) : Bool :=
  let others := p.descs.filter fun e => decide (e.id ≠ d.id ∧ e.cls = d.cls)
  let peers := others.filter fun e => decide (e.tier = d.tier)
  let engines (e : Desc) : List Nat := (List.range (e.spread + 1)).map (e.logical + ·)
  listsApart (d.runs.map d.windowsOf)
    && (peers.all fun e => d.allWindows.all fun w => e.allWindows.all fun v => !meets w v)
    && (decide (d.tier = 0) || peers.all fun e => (engines e).all fun l => !(engines d).contains l)
    && (decide (d.task = 0) || others.all fun e =>
          decide (e.task = 0) || (decide (e.task ≠ d.task) && decide (e.logical = d.logical)))

/-- DESCRIPTOR: in the package's own descriptors, in DELETE, then in the rest of the resulting program (R234). -/
def checkDescs (ws : List W36) (p active : Program) : Option Refuse :=
  let sec := sectionOf ws 0x05
  let raw := groups 10 (sectionWords ws 0x05)
  let mine := raw.map (parseDesc (sectionWords ws 0x07) (sectionWords ws 0x08))
  let dels := (sectionWords ws 0x06).map fun w => wbits w 0 20
  firstRefusal [
    failItem 0x08 sec 10 ((raw.zip (prefixes (lastApart fun a b => decide (Desc.id a ≠ Desc.id b)) mine)).zip mine |>.map fun x =>
      descClean x.1.1 && x.1.2 && descGood p x.2 && descAmong p x.2),
    failItem 0x08 (sectionOf ws 0x06) 1 (dels.map fun b => (active.desc b).isSome),
    failHead 0x08 0 (p.descs.all fun d => descGood p d && descAmong p d)]

/-- SCHEDULE (R190). -/
def checkSchedule (p : Program) : Option Refuse := failHead 0x09 0 (decide (p.scheduleWords ≤ 0x80000))

/-! 0x0A to 0x0D -/

/-- RETAIN (R126). -/
def checkRetain (ws : List W36) (p : Program) : Option Refuse :=
  let sec := sectionOf ws 0x0A
  failItem 0x0A sec 2 (prefixes (fun rs =>
    decide (rs.length ≤ 16) && decide ((rs.map (·.2)).foldl (· + ·) 0 ≤ 2048)
      && (match rs.getLast? with | some r => decide (r.2 = 0) || inOneView r | none => true)) p.retain)

/-- The class that owns an address in the resulting layout; 3 outside the current views. -/
def classOfAddr (cls : Nat → Nat) (a : Nat) : Nat := if isCurAddr a then cls (imageWord a / 32) else 3

/-- IMPORT (R196, R234). -/
def checkImports (ws : List W36) (p : Program) (cls : Nat → Nat) : Option Refuse :=
  let sec := sectionOf ws 0x0B
  let dstClass (i : Nat × Nat × Nat) : Nat := classOfAddr cls i.2.1
  let outside (i : Nat × Nat × Nat) : Bool :=
    p.descs.all fun d => d.allWindows.all fun w => !meets (i.2.1, i.2.2) (hearthBase + 32 * w.1, 32 * w.2)
  failItem 0x0B sec 3 (prefixes (fun is =>
    ([0, 1, 2].all fun k => decide ((is.filter fun i => decide (dstClass i = k)).length ≤ 16))
      && decide ((is.map fun i => i.2.2).foldl (· + ·) 0 ≤ 0x4000)
      && (match is.getLast? with | some i => outside i | none => true)) p.imports)

/-- Every word of an address range lies in one current view, in granules of a class that `f` accepts. -/
def rangeClass (cls : Nat → Nat) (f : Nat → Bool) (a n : Nat) : Bool :=
  decide (n = 0) ||
    (isCurAddr a && isCurAddr (a + n - 1) && decide (hearthRegion a = hearthRegion (a + n - 1)) &&
      (List.range ((imageWord a + n - 1) / 32 - imageWord a / 32 + 1)).all fun i => f (cls (imageWord a / 32 + i)))

/-- A station's image ranges as (first image word, count). -/
def StationDecl.spans (d : StationDecl) : List (Nat × Nat) :=
  [(d.ibBase, d.ibCount), (d.iwBase, d.iwCount), (d.obBase, d.obCount), (d.owBase, d.owCount)].filterMap fun r =>
    if r.2 = 0 then none else some (imageWord r.1, r.2)

/-- A boolean or word range (R266): its base aligned and in its own region, its words in granules of the station's class. -/
def spanGood (cls : Nat → Nat) (k : Nat) (region : Region) (a n : Nat) : Bool :=
  decide (hearthRegion a = region) && decide (a % 32 = 0) && rangeClass cls (fun c => decide (c = k)) a n

/-- The rules of R265, R266 and R316 that bear on one station entry. -/
def stationGood (p : Program) (cls : Nat → Nat) (d : StationDecl) : Bool :=
  let us := (p.classes.getD d.cls ⟨0, 0, 0, false⟩).period
  spanGood cls d.cls .boolCur d.ibBase d.ibCount && spanGood cls d.cls .wordCur d.iwBase d.iwCount
    && spanGood cls d.cls .boolCur d.obBase d.obCount && spanGood cls d.cls .wordCur d.owBase d.owCount
    && decide (d.inCount ≤ 1024) && decide (d.outCount ≤ 1024)
    && decide (d.warnNs us < (if d.ageLimit = 0 then 3 * d.periodNs us else d.ageLimit * 1000000))
    && (if d.kind = 4 then
          decide (65536 ≤ d.num) && decide (d.num < 77824) && decide (d.cls ≠ 3)
            && decide (d.inCount ≤ 96) && decide (d.outCount ≤ 96)
            && (p.ports.any fun q => decide (q.port = d.hobPort))
            && !(decide (d.cls = 0) && decide (d.hobAddr = 0))
            && (decide (d.cls ≠ 0) || (decide (d.periodMs = 0) && !d.outMode))
        else
          decide (d.num < 65536) && decide (d.cls = 1 ∨ d.cls = 2) && decide (10 ≤ d.periodMs) && decide (d.periodMs ≤ 600000))
    && (decide (d.kind ≠ 2) ||
          (decide (d.ibCount = 0) && decide (d.obCount = 0) && decide (d.t2 < d.t1) && decide (1 ≤ d.k) && decide (d.k ≤ 32)
            && decide (d.w ≤ d.k)))

/-- The rules of R316 that bear on one port. -/
def portGood (p : Program) (q : PortDecl) : Bool :=
  let here := p.stations.filter fun d => decide (d.kind = 4) && decide (d.hobPort = q.port)
  decide (q.port < 192)
    && ((here.all fun d => decide (d.cls = 0)) || (here.all fun d => decide (d.cls ≠ 0)))
    && !((here.any fun d => decide (d.cls = 0)) && q.sleepOk)
    && (decide (q.refClass = 3) || here.any fun d => decide (d.cls = q.refClass))
    && (decide (q.refClass = 3) || decide (q.refOffset < (p.classes.getD q.refClass ⟨0, 0, 0, false⟩).period))

/-- ON and OFF of a threshold-mode channel are in range and apart (R386). -/
def thresholdGood (mode on off : Nat) : Bool :=
  decide (mode ≠ 1) ||
    (decide (5 ≤ off) && decide (off ≤ 280) && decide (5 ≤ on) && decide (on ≤ 280) && decide (off + 3 ≤ on))

/-- The rules of R388 that bear on one channel. -/
def State.chanGood (s : State) (p : Program) (cls : Nat → Nat) (c : ChanDecl) : Bool :=
  let w := imageWord c.point
  decide (c.cls ≠ 3) && decide (c.mode ≠ 0) && decide (hearthRegion c.point = .wordCur)
    && decide (cls (w / 32) = c.cls)
    && !(s.bit Reg.grtPairAliveEn && decide (s.fld Reg.grtPairAliveOut = c.chan))
    && !(s.bit Reg.grtPairPartnerEn && decide (s.fld Reg.grtPairPartner = c.chan))
    && (p.stations.all fun d => d.spans.all fun r => !meets r (w, 1))
    && (p.chans.all fun e => decide (e.chan = c.chan) || decide (e.point ≠ c.point))
    && thresholdGood c.mode c.on c.off && decide (c.filter ≤ 1000)

/-- No other station of the program shares an image word with this one (R266). -/
def stationApart (p : Program) (d : StationDecl) : Bool :=
  p.stations.all fun e => decide (e.num = d.num) || d.spans.all fun a => e.spans.all fun b => !meets a b

/-- The legacy station is among the first 4,096 of the program (R266). -/
def legacyRoom (p : Program) (d : StationDecl) : Bool :=
  decide (d.kind ≠ 2) ||
    (((p.stations.filter fun e => decide (e.kind = 2)).take 4096).any fun e => decide (e.num = d.num))

/-- Every rule that bears on one station of a program (R265, R266, R316). -/
def stationFits (p : Program) (cls : Nat → Nat) (d : StationDecl) : Bool :=
  stationGood p cls d && stationApart p d && legacyRoom p d

/-- Two entries of a STATION section declare the same thing (R265, R315, R388). -/
def sameEntry (a b : Nat × List W36) : Bool :=
  let station (e : Nat × List W36) : Bool := decide (e.1 = 1 ∨ e.1 = 2 ∨ e.1 = 4)
  let bits := if a.1 = 3 then 8 else if a.1 = 5 then 4 else 17
  (decide (a.1 = b.1) || (station a && station b)) && decide (wbits (pword a.2 0) 0 bits = wbits (pword b.2 0) 0 bits)

/-- Every rule that bears on one entry of the STATION section `sec` (R266, R316, R388). -/
def State.entryFits (s : State) (p : Program) (cls : Nat → Nat) (sec : List W36) (e : Nat × List W36) : Bool :=
  if e.1 = 3 then portGood p (parsePort e.2)
  else if e.1 = 5 then s.chanGood p cls (parseChan e.2)
  else stationFits p cls (parseStation e.1 sec e.2)

/-- The descriptor's windows lie in granules of its class, and its signature in assigned granules (R202, R234). -/
def descPlaced (cls : Nat → Nat) (d : Desc) : Bool :=
  d.allWindows.all (allGranules fun j => decide (cls j = d.cls)) &&
    d.runs.all fun i => (d.sigOf i).all (allGranules fun j => decide (cls j ≠ 3))

/-- An import reads words of one other class into words of one class (R196, R234). -/
def importPlaced (cls : Nat → Nat) (i : Nat × Nat × Nat) : Bool :=
  let k := classOfAddr cls i.2.1
  decide (k ≠ 3) && rangeClass cls (fun c => decide (c = k)) i.2.1 i.2.2
    && rangeClass cls (fun c => decide (c ≠ k ∧ c ≠ 3)) i.1 i.2.2

/-- The image granule belongs to the carve-out from which the Tender runs without DRAM (R46, R109). -/
def State.carved (s : State) (j : Nat) : Bool := !s.hasDram && decide (286720 ≤ j)

/-- A LAYOUT range moves no granule from one class directly to another, and a DRAM-free program takes none of the carve-out
(R46, R234). -/
def State.rangeMoves (s : State) (p : Program) (old : Nat → Nat) (r : Nat × Nat × Nat) : Bool :=
  decide (r.1 + r.2.1 ≤ 294912) &&
    (List.range r.2.1).all fun i =>
      let a := old (r.1 + i)
      (decide (a = 3) || decide (r.2.2 = 3) || decide (a = r.2.2)) &&
        !(p.dramFree && decide (r.2.2 ≠ 3) && s.carved (r.1 + i))

/-- LAYOUT (R234, R266, R316, R388): the package's own items in the order of its sections, then the rest of the resulting
program. `old` is the class map that the package applies to. -/
def State.checkLayout (s : State) (ws : List W36) (p : Program) (old cls : Nat → Nat) : Option Refuse :=
  let sec := sectionWords ws 0x0C
  let ents := (parseStations sec).getD []
  let mine := (groups 10 (sectionWords ws 0x05)).map (parseDesc (sectionWords ws 0x07) (sectionWords ws 0x08))
  let first := prefixes (lastApart fun a b => !sameEntry a b) ents
  firstRefusal [
    failItem 0x0C (sectionOf ws 0x05) 10 (mine.map (descPlaced cls)),
    failItem 0x0C (sectionOf ws 0x09) 2 ((parseLayout (sectionWords ws 0x09)).map (s.rangeMoves p old)),
    failItem 0x0C (sectionOf ws 0x0B) 3 ((parseImports (sectionWords ws 0x0B)).map (importPlaced cls)),
    failAt 0x0C (sectionOf ws 0x0C) (startsOf 0 (ents.map fun e => 1 + e.2.length))
      ((ents.zip first).map fun e => e.2 && s.entryFits p cls sec e.1),
    failHead 0x0C 0 (p.descs.all (descPlaced cls) && p.imports.all (importPlaced cls) && p.stations.all (stationFits p cls)
      && p.ports.all (portGood p) && p.chans.all (s.chanGood p cls))]

/-- The period of a class is a multiple of its step within its range (R176, R177). -/
def periodGood (k us : Nat) : Bool :=
  if k = 0 then decide (250 ≤ us) && decide (us ≤ 10000) && decide (us % 50 = 0)
  else if k = 1 then decide (5000 ≤ us) && decide (us ≤ 1000000) && decide (us % 1000 = 0)
  else decide (100000 ≤ us) && decide (us ≤ 60000000) && decide (us % 10000 = 0)

/-- CLASS (R177, R178, R234). -/
def checkClasses (ws : List W36) (p : Program) : Option Refuse :=
  failItem 0x0D (sectionOf ws 0x01) 4
    (p.classes.zipIdx.map fun c => periodGood c.2 c.1.period && decide (c.1.phaseOffset < c.1.period) && decide (c.1.stokeN ≠ 0))

/-! 0x0E to 0x11 -/

/-- A stack window of R83: within local store, above CODE_LIMIT, of at least 16 words. -/
def engineGood (e : EngineCfg) : Bool :=
  decide (e.codeLimit.toNat ≤ e.stkLo.toNat) && decide (e.stkLo.toNat + 16 ≤ e.stkHi.toNat) && decide (e.stkHi.toNat ≤ 0xC000)

/-- An address range of engine `l` overlaps none of a program's local-store code. -/
def Program.codeFree (q : Program) (l a n : Nat) : Bool :=
  q.codeLs.all fun r => decide (r.1 ≠ l) || !meets (a, n) (r.2.1, r.2.2.length)

/-- The descriptor's ENTRY lies in the resulting code (R234, R537). -/
def entryGood (p : Program) (d : Desc) : Bool :=
  let e := d.entry.toNat
  if dramBase ≤ e then p.codeDram.any fun r => decide (r.1 ≤ e - dramBase) && decide (e - dramBase < r.1 + r.2.length)
  else (List.range (d.spread + 1)).all fun i =>
    p.codeLs.any fun r => decide (r.1 = d.logical + i) && decide (r.2.1 ≤ e) && decide (e < r.2.1 + r.2.2.length)

/-- LOCAL_STORE (R83, R233, R234). -/
def checkLocal (ws : List W36) (p active : Program) (rollback : Option Program) : Option Refuse :=
  let runs := (parseCodeLs (sectionWords ws 0x03).length (sectionWords ws 0x03)).getD []
  let runGood (r : Nat × Nat × List W36) : Bool :=
    !isEdit ws || (decide (r.2.1 + r.2.2.length ≤ (p.engine r.1).codeLimit.toNat)
      && (active.codeFree r.1 r.2.1 r.2.2.length
            && (match rollback with | some q => q.codeFree r.1 r.2.1 r.2.2.length | none => true)))
  let mine := (groups 10 (sectionWords ws 0x05)).map (parseDesc (sectionWords ws 0x07) (sectionWords ws 0x08))
  firstRefusal [
    failItem 0x0E (sectionOf ws 0x02) 4 ((parseEngines (sectionWords ws 0x02)).map engineGood),
    failAt 0x0E (sectionOf ws 0x03) (startsOf 0 (runs.map fun r => 2 + r.2.2.length)) (runs.map runGood),
    failItem 0x0E (sectionOf ws 0x05) 10 (mine.map (entryGood p)),
    failHead 0x0E 0 (p.descs.all (entryGood p))]

/-- DRAM (R225, R234, R537). -/
def State.checkDram (s : State) (ws : List W36) (p : Program) : Option Refuse :=
  let runs := (parseCodeDram (sectionWords ws 0x04).length (sectionWords ws 0x04)).getD []
  firstRefusal [
    failHead 0x0F 0 (!s.hasDram || decide (0x200 ≤ s.fld Reg.edtProgBaseProgBase)),
    failAt 0x0F (sectionOf ws 0x04) (startsOf 0 (runs.map fun r => 2 + r.2.length))
      (runs.map fun r => decide (r.1 + r.2.length ≤ 0xA00000)),
    failItem 0x0F (sectionOf ws 0x04) 0 [!p.dramFree || (sectionOf ws 0x04).isNone],
    failItem 0x0F (sectionOf ws 0x08) 0 [!p.dramFree || (sectionOf ws 0x08).isNone],
    failHead 0x0F 8 (!p.dramFree || p.descs.all fun d => !d.inst && decide (d.entry.toNat < dramBase))]

/-- MIGRATION (R226, R229). -/
def checkMigration (ws : List W36) (p : Program) (old cls : Nat → Nat) : Option Refuse :=
  let sec := sectionOf ws 0x0E
  let initLen := (sectionWords ws 0x0D).length
  let dest (m : Migration) : Nat × Nat := (imageWord m.dest, m.count)
  let entryOk (m : Migration) : Bool :=
    decide (m.op ≠ 0) && decide (m.cls ≠ 3) && decide (m.count ≠ 0)
      && rangeClass cls (fun c => decide (c = m.cls)) m.dest m.count
      && (decide (m.op ≠ 1) || rangeClass old (fun c => decide (c = m.cls)) m.src m.count)
      && (decide (m.op ≠ 2) || decide (m.src + m.count ≤ initLen))
  let sum (ms : List Migration) (k : Nat) : Nat :=
    ((ms.filter fun m => decide (m.cls = k)).map Migration.count).foldl (· + ·) 0
  let upTo (ms : List Migration) : Bool :=
    lastApart (fun a b => !meets (dest a) (dest b)) ms
      && decide (sum ms 0 ≤ 256) && decide (sum ms 1 ≤ 0x100000) && decide (sum ms 2 ≤ 0x100000)
      && (match ms.getLast? with | some m => entryOk m | none => true)
  let covered (j : Nat) : Bool :=
    (List.range 32).all fun i =>
      p.migrate.any fun m => decide (m.op ≠ 3) && meets (dest m) (32 * j + i, 1)
  let rangeCovered (r : Nat × Nat × Nat) : Bool :=
    (List.range r.2.1).all fun i => decide (old (r.1 + i) ≠ 3) || decide (cls (r.1 + i) = 3) || covered (r.1 + i)
  if isEdit ws then
    firstRefusal [
      failItem 0x10 (sectionOf ws 0x09) 2 (p.ranges.map rangeCovered),
      failItem 0x10 sec 3 (prefixes upTo p.migrate)]
  else none

/-- Physical engines that count as present: active, spare, loading or sandbox (R44). -/
def State.enginesPresent (s : State) : Nat :=
  ((List.range 144).filter fun e =>
    let r := s.fld (Reg.fbxERoleState e)
    decide (r = 1 ∨ r = 2 ∨ r = 3 ∨ r = 5)).length

/-- A program exceeds the station service of a unit without DRAM (R267). -/
def Program.bigStations (p : Program) : Bool :=
  let net := p.stations.filter fun d => decide (d.kind ≠ 4)
  decide (512 < net.length) || net.any fun d => decide (256 < d.inCount ∨ 256 < d.outCount)

/-- The shortfall of a program: bits of BLW_SHORTFALL (R44, R46, R220). -/
def State.shortfallOf (s : State) (p : Program) : List Bool :=
  [decide (s.enginesPresent < p.reqEngines),
   !s.hasDram && (p.reqDram || !p.dramFree || p.bigStations),
   p.reqHob && !(s.fit.hob && (List.range 192).any fun i => decide (s.fld (Reg.hobPStatusEffective i) ≠ 6)),
   p.reqChimney && !(s.fit.chimney && (List.range 40).any fun x => !s.bit (Reg.chmXStatusMappedOut x)),
   p.reqGrate && !s.fit.grate,
   p.reqTurnspit && !s.turnspitOn]

/-- HARDWARE of an EDIT (R44, R46, R234). -/
def State.checkHardware (s : State) (ws : List W36) (p : Program) : Option Refuse :=
  if isEdit ws then failHead 0x11 8 ((s.shortfallOf p).all fun b => !b) else none

/-- Every check of VERIFY before the Mantel commit, in order (R234). -/
def State.verifyPackage (s : State) (ws : List W36) : Option Refuse :=
  let active := s.bellows.active.getD Program.empty
  let p := buildProgram ws active
  let old (j : Nat) : Nat := if isEdit ws then s.granClass j else 3
  let cls := p.classAt old
  firstRefusal [
    checkFormat ws, checkCrc ws, checkDigest ws, s.checkSignature ws, checkBase ws s.bellows.active.isSome active,
    checkDescs ws p active, checkSchedule p, checkRetain ws p, checkImports ws p cls, s.checkLayout ws p old cls,
    checkClasses ws p, checkLocal ws p active s.bellows.rollback, s.checkDram ws p, checkMigration ws p old cls,
    s.checkHardware ws p]

end Sys2Proof.Machine
end

