-- ==== Sys2Proof/Machine/Engines.lean ====
section
/-! DEFINITION. The map from logical to physical engines: assignment, folding and spares (R29-R36), and the code that an
engine holds (R233, R536, R537). -/

namespace Sys2Proof.Machine

/-- The cluster of a physical engine (R15). -/
def clusterOf (e : Nat) : Nat := e / 9

/-- The physical engines of cluster `n` in slot order (R15). -/
def clusterEngines (n : Nat) : List Nat := (List.range 9).map (9 * n + ·)

/-- An engine's state: 0 off, 1 active, 2 spare, 3 loading, 4 failed, 5 sandbox (R30, R40). -/
def State.engState (s : State) (e : Nat) : Nat := s.fld (Reg.fbxERoleState e)

/-- An engine's state written. -/
def State.setEngState (s : State) (e v : Nat) : State := s.setFld (Reg.fbxERoleState e) v

/-- Logical engine `l` is folded onto engine `e` (R41). -/
def State.foldBit (s : State) (e l : Nat) : Bool := s.fldBit (Reg.fbxEFoldMapMap e (l / 32)) (l % 32)

/-- The logical engines folded onto an engine, in ascending order (R34, R41). -/
def State.foldedOn (s : State) (e : Nat) : List Nat := (List.range 128).filter (s.foldBit e)

/-- The classes that a logical engine serves in the active program (R183). -/
def State.classesOf (s : State) (l : Nat) : Nat :=
  match s.bellows.active with
  | some p => p.classesOf l
  | none => 0

/-- An engine is reserved for Blaze: it serves Blaze alone (R34, R183). -/
def State.blazeOnly (s : State) (e : Nat) : Bool := decide (s.fld (Reg.fbxERoleClasses e) = 1)

/-- FOLDED and FOLD_LOGICAL follow the fold map, and BLAZE_FOLDED the Blaze engines (R41, R220). -/
def State.refreshFold (s : State) (e : Nat) : State :=
  match s.foldedOn e with
  | [] => s.setFields [(Reg.fbxERoleFolded e, 0), (Reg.fbxERoleFoldLogical e, 0)]
  | l :: _ => s.setFields [(Reg.fbxERoleFolded e, 1), (Reg.fbxERoleFoldLogical e, l)]

/-- BLW_STATUS.BLAZE_FOLDED: a Blaze logical engine is folded (R220). -/
def State.refreshBlaze (s : State) : State :=
  s.setBit Reg.blwStatusBlazeFolded
    ((List.range 144).any fun e => (s.foldedOn e).any fun l => bitOf (s.classesOf l) 0)

/-- A fold bit set or cleared. -/
def State.setFold (s : State) (e l : Nat) (b : Bool) : State :=
  ((s.setFldBit (Reg.fbxEFoldMapMap e (l / 32)) (l % 32) b).refreshFold e).refreshBlaze

/-- The active engines. -/
def State.activeEngines (s : State) : List Nat := (List.range 144).filter fun e => decide (s.engState e = 1)

/-- The engine with the fewest folded logical engines, and among those the lowest-numbered (R34). -/
def State.fewestFirst (s : State) (es : List Nat) : Option Nat :=
  es.foldl (fun best e =>
    match best with
    | none => some e
    | some b => if (s.foldedOn e).length < (s.foldedOn b).length then some e else some b) none

/-- The host of a fold of `l`, and whether the fold mixes Blaze and other engines (R34). -/
def State.foldHost (s : State) (l : Nat) : Option (Nat × Bool) :=
  let cls := s.classesOf l
  let blaze := bitOf cls 0
  let same := s.activeEngines.filter fun e => decide (s.fld (Reg.fbxERoleClasses e) = cls)
  let near := same.filter fun e => decide (clusterOf e = l / 8)
  let far := same.filter fun e => decide (clusterOf e ≠ l / 8)
  let plain := s.activeEngines.filter fun e => !s.blazeOnly e
  let any := if blaze then s.activeEngines else if plain.isEmpty then s.activeEngines else plain
  match s.fewestFirst near with
  | some e => some (e, false)
  | none =>
    match s.fewestFirst far with
    | some e => some (e, false)
    | none => (s.fewestFirst any).map fun e => (e, decide (blaze ≠ s.blazeOnly e))

/-- A logical engine folded onto its host (R34); nothing where no engine is active. -/
def State.fold (s : State) (l : Nat) : State :=
  match s.foldHost l with
  | none => s
  | some (e, mixes) =>
    let s1 := s.setFold e l true
    if mixes then s1.raise Reg.blwEventBlazeReservation else s1

/-- Every fold of logical engine `l` ended. -/
def State.unfold (s : State) (l : Nat) : State :=
  (List.range 144).foldl (fun t e => if t.foldBit e l then t.setFold e l false else t) s

/-- The active engine whose own logical engine is `l`. -/
def State.ownerOf (s : State) (l : Nat) : Option Nat :=
  (List.range 144).find? fun e => decide (s.engState e = 1) && decide (s.fld (Reg.fbxERoleLogical e) = l)

/-- The engine onto which `l` is folded. -/
def State.folderOf (s : State) (l : Nat) : Option Nat :=
  (List.range 144).find? fun e => decide (s.engState e = 1) && s.foldBit e l

/-- The classes for which a spare has not yet taken over its logical engine (R33). -/
def State.pendingClasses (s : State) (e : Nat) : Nat := (Sparse.get s.loaded (0, 0) e).2

/-- The engine that runs logical engine `l` in class `k` (R33, R34). -/
def State.hostOf (s : State) (l k : Nat) : Option Nat :=
  match s.ownerOf l with
  | some e => if bitOf (s.pendingClasses e) k then s.folderOf l else some e
  | none => s.folderOf l

/-- The program area that holds the active program (R537). -/
def State.progArea (s : State) (area : Nat) : Nat := s.fld Reg.edtProgBaseProgBase * 2 ^ 25 + area * 2 ^ 24

/-- A class of logical engine `l` has switched in the switch that runs, and the switch is no rollback: the code of the new
program, which holds the old one's too, is the engine's (R233, R237, R245). -/
def State.newCode (s : State) (l : Nat) : Bool :=
  decide (s.fld Reg.edtStatusState = 5) && !s.bit Reg.edtStatusRollingBack &&
    [0, 1, 2].any fun k => bitOf (s.classesOf l) k && s.fldBit Reg.edtStatusSwitched k

/-- The first word of the local-store image of logical engine `l` in a program area (R537). -/
def State.imageBase (s : State) (area l : Nat) : Nat := s.progArea area + lsSize * l

/-- The code of logical engine `l` below `limit`: the words of its image in the DRAM area of its active program (R33, R233,
R537), or without DRAM the runs of that program (R46). -/
def State.engineCode (s : State) (l limit : Nat) : List (Nat × W36) :=
  if s.hasDram then
    let base := s.imageBase (if s.newCode l then 1 - s.bellows.area else s.bellows.area) l
    (s.dram.filter fun w => decide (base ≤ w.1) && decide (w.1 < base + limit) && s.dramOk w.1).map fun w => (w.1 - base, w.2)
  else
    match if s.newCode l then s.bellows.shadow else s.bellows.active with
    | some p => (p.lsImage l).filter fun w => decide (w.1 < limit)
    | none => []

/-- A program area: one local-store image per logical engine, zero where the program has no code (DESIGN CHOICE, log 60), and
the DRAM code (R232, R537). -/
def State.writeArea (s : State) (area : Nat) (p : Program) : State :=
  if s.hasDram then
    let base := s.progArea area
    let s0 : State := { s with dram := Sparse.clear s.dram base (base + 0x600000) }
    let s1 := (List.range 128).foldl (fun t l =>
      (p.lsImage l).foldl (fun u w => u.blockWrite (s.imageBase area l + w.1) w.2) t) s0
    p.codeDram.foldl (fun t run => t.blockWrites (base + 0x600000 + run.1) run.2) s1
  else s

/-- A core whose local store holds the code of logical engine `l` below CODE_LIMIT, and above it what it held. -/
def State.coded (s : State) (c : Core) (l limit : Nat) : Core :=
  { c.loadLs ((s.engineCode l limit).foldl (fun m e => Sparse.put m 0 e.1 e.2) (Sparse.clear c.ls 0 limit)) limit with codeOf := some l }

/-- CODE_LIMIT of a logical engine (R225). -/
def State.codeLimit (s : State) (l : Nat) : Nat := ((s.bellows.active.getD Program.empty).engine l).codeLimit.toNat

/-- A core that has loaded logical engine `l`: its code, and zero from CODE_LIMIT upward (R33, R536). -/
def State.loadedCore (s : State) (c : Core) (l : Nat) : Core := s.coded (c.loadLs [] lsSize) l (s.codeLimit l)

/-- Shadows of ENGINE_STATE: three bits per slot of cluster `n` (R40). -/
def State.clusterState (s : State) (n : Nat) : Nat :=
  (List.range 9).foldl (fun a i => a + s.engState (9 * n + i) * 8 ^ i) 0

/-- The PSW of an idle engine: as at reset but for CAUSE (R60). -/
def idlePsw (psw : W36) : W36 := BitVec.ofNat 36 (bitsOf psw.toNat 17 8 * 2 ^ 17 + 0x180)

/-- An engine idle, with nothing running and nothing queued (R60). -/
def State.idleEngine (s : State) (e : Nat) : State :=
  let c := s.core e
  s.setCore e { c.flush.endSlot with psw := idlePsw c.psw, issue := .idle, run := none, queue := [], halted := false, haltReq := false }

/-- The spare of a cluster, where it has one. -/
def State.spareOf (s : State) (n : Nat) : Option Nat :=
  (clusterEngines n).find? fun e => decide (s.engState e = 2)

/-- ROLE.CLASSES of an engine for its logical engine (R41, R183). -/
def State.setRole (s : State) (e l : Nat) : State :=
  s.setFields [(Reg.fbxERoleLogical e, l), (Reg.fbxERoleClasses e, s.classesOf l)]

/-- A spare starts to load logical engine `l` (R33). -/
def State.startSpare (s : State) (e l : Nat) : State :=
  let t := (s.setEngState e 3).setRole e l
  t.setCore e { t.core e with entryNs := t.bellows.ns }

/-- Engine `e` can run: neither failed, nor behind a gate that Sweep has found failed, nor without its cluster's domain, which a
resume Kindling leaves off where REQ says so (R29, R433, R460; DESIGN CHOICE, log 62). -/
def State.healthy (s : State) (e : Nat) : Bool :=
  decide (s.engState e ≠ 4) && !s.fit.badGates.contains (clusterOf e) && decide (s.fld (Reg.pwrPdControlState (clusterOf e)) = 0)

/-- The healthy engines of cluster `n` take its logical engines in ascending slot order; the first left over is the
spare; a logical engine without one is returned, to be folded (R29). -/
def State.assignCluster (s : State) (n : Nat) : State × List Nat :=
  let healthy := (clusterEngines n).filter s.healthy
  let logicals := (List.range 8).map (8 * n + ·)
  let s1 := (healthy.zip logicals).foldl (fun t p => (t.setEngState p.1 1).setRole p.1 p.2) s
  let s2 := match healthy.drop 8 with
    | e :: _ => s1.setEngState e 2
    | [] => s1
  (s2, logicals.drop healthy.length)

/-- The assignment at Kindling (R29): clusters in order, then the folds. -/
def State.assignEngines (s : State) : State :=
  let (s1, left) := (List.range 16).foldl (fun (p : State × List Nat) n =>
    let (t, more) := p.1.assignCluster n
    (t, p.2 ++ more)) (s, [])
  left.foldl State.fold s1

/-- The folded logical engines placed anew by the classes of the program, in ascending order (R34, DEDUCED, log 54). -/
def State.refold (s : State) : State :=
  let left := (List.range 128).filter fun l => (s.ownerOf l).isNone && (s.folderOf l).isSome
  left.foldl State.fold (left.foldl State.unfold s)

/-- The roles of every engine follow the classes of a program that has become active (R183). -/
def State.refreshRoles (s : State) : State :=
  let s1 := (List.range 144).foldl (fun t e =>
    if t.engState e = 1 ∨ t.engState e = 3 then t.setFld (Reg.fbxERoleClasses e) (t.classesOf (t.fld (Reg.fbxERoleLogical e)))
    else t) s
  (s1.setFld Reg.blwStatusBlazeEngines
    ((List.range 128).filter fun l => decide (s1.classesOf l = 1)).length).refreshBlaze

/-- A spare whose load has ended takes over its logical engine in class `k` at its boundary (R33). -/
def State.takeover (s : State) (k : Nat) : State :=
  s.loaded.foldl (fun t entry =>
    let e := entry.1
    let (l, mask) := entry.2
    if (t.engState e = 3 ∨ t.engState e = 1) ∧ bitOf mask k then
      let rest := withBit mask k false
      let t1 := { t with loaded := Sparse.put t.loaded (0, 0) e (if rest = 0 then (0, 0) else (l, rest)) }
      let t2 := if t.engState e = 3 then (t1.setEngState e 1).raise (Reg.fbxKEventSpareTaken (clusterOf e)) else t1
      if rest = 0 then t2.unfold l else t2
    else t) s

/-- SPARE_LOAD_DONE of R33: the code is in place; an engine that serves no class takes over at once. -/
def State.spareLoaded (s : State) (e : Nat) : State :=
  if s.engState e = 3 then
    let l := s.fld (Reg.fbxERoleLogical e)
    let s1 := s.setCore e (s.loadedCore (s.core e) l)
    if s.classesOf l = 0 then
      (((s1.setEngState e 1).raise (Reg.fbxKEventSpareTaken (clusterOf e))).unfold l)
    else { s1 with loaded := Sparse.put s1.loaded (0, 0) e (l, s1.classesOf l) }
  else s

end Sys2Proof.Machine
end

