-- ==== Sys2Proof/Machine/Sandbox.lean ====
section
/-! DEFINITION. The sandbox copy of Poker (R472): the granules that it holds and where each word lies, and the halt of a
core (R464, R467). -/

namespace Sys2Proof.Machine

/-- The image granules of a block's or an instance's read signature and windows, each once (R472). -/
def Desc.sandboxGranules (d : Desc) (inst : Option Nat) : List Nat :=
  ((d.sigOf inst ++ d.windowsOf inst).flatMap fun r => (List.range r.2).filterMap fun i => imageGranule (r.1 + i)).eraseDups

/-- The instance that a sandbox runs; none for a block that is not instanced. -/
def Desc.sandboxInst (d : Desc) (i : Nat) : Option Nat := if d.inst then some i else none

/-- The granules of the running sandbox. -/
def State.sandboxGranules (s : State) : List Nat :=
  match s.poker.sandbox with
  | some (_, b, i) => match s.bellows.active.bind fun p => p.desc b with
    | some d => d.sandboxGranules (d.sandboxInst i)
    | none => []
  | none => []

/-- The first word of the sandbox area (R472); SB_BASE counts from the first DRAM word (DEDUCED, log 28). -/
def State.sandboxBase (s : State) : Nat := dramBase + s.fld Reg.pkrSandboxBaseSbBase * 2 ^ 20

/-- Where the sandbox copy holds the word that a Hearth address names: the granules lie in order, 32 current words and
then 32 previous words each (DESIGN CHOICE, log 28). -/
def State.sandboxAddr (s : State) (a : Nat) : Option Nat :=
  match imageWordOf a with
  | none => none
  | some w =>
    (s.sandboxGranules.findIdx? fun j => decide (j = w / 32)).map fun i =>
      s.sandboxBase + 64 * i + (if isPrevAddr a then 32 else 0) + w % 32

/-- The copy of the sandbox granules, in both views (R472). -/
def State.sandboxCopy (s : State) : State :=
  s.sandboxGranules.zipIdx.foldl (fun t x =>
    let ws := granuleWords x.1 1
    t.blockWrites (t.sandboxBase + 64 * x.2) (ws.map t.readCur ++ ws.map t.readPrev)) s

/-- A core halts for Poker, with the cause that register 0x23 shows (R464, R467, R476). -/
def State.haltCore (s : State) (key cause : Nat) : State :=
  let c := s.core key
  ((s.setCore key { c with halted := true, haltReq := false, haltCause := cause, haltUnread := true }).setFld
    Reg.pkrStatusHalted 1).raise Reg.pkrEventHalt

end Sys2Proof.Machine
end

