-- ==== Sys2Proof/Machine/Solve.lean ====
section
/-! DEFINITION. Blocks and tiers: dispatch decisions (R201-R205), block entry (R58), tier tokens (R193), audit (R204),
block and instance faults (R200, R209), engine exceptions (R91) and the error task's list (R212-R214). -/

namespace Sys2Proof.Machine

/-- The class runtime changed. -/
def State.onCls (s : State) (k : Nat) (f : ClassRt → ClassRt) : State := s.setCls k (f (s.cls k))

/-- A block's runtime (R204, R205, R211). -/
def State.blockRt (s : State) (b : Nat) : BlockRt := Sparse.get s.bellows.blocks BlockRt.fresh b

/-- A block's runtime written. -/
def State.setBlockRt (s : State) (b : Nat) (r : BlockRt) : State :=
  { s with bellows := { s.bellows with blocks := Sparse.put s.bellows.blocks BlockRt.fresh b r } }

/-- The descriptor of a block of the program that class `k` runs: the active one. -/
def State.desc (s : State) (b : Nat) : Option Desc := s.bellows.active.bind fun p => p.desc b

/-- An instance is disabled (R200). -/
def State.instDisabled (s : State) (b i : Nat) : Bool := s.bellows.instOff.contains (b, i)

/-- The disabled instances written, and BLW_INST_DISABLED with them. -/
def State.setInstOff (s : State) (xs : List (Nat × Nat)) : State :=
  { s with bellows := { s.bellows with instOff := xs } }.setFld Reg.blwInstDisabledInstDisabled xs.length

/-! The error list -/

/-- An entry for the error task of class `k`; a 17th is lost, and LIST_LOST says so (R213, R214). -/
def State.errEntry (s : State) (k : Nat) (e : ErrEntry) : State :=
  let rt := s.cls k
  if rt.errNext.length < 16 then s.setCls k { rt with errNext := rt.errNext ++ [e], errDue := true }
  else ((s.setCls k { rt with errLost := true, errDue := true }).setFld (Reg.blwClErrReasonListLost k) 1).raise
    (Reg.blwClEventErrListLost k)

/-- ERROR_CAPTURE of a class page, where it is empty (R209, R219). -/
def State.blwCapture (s : State) (k block cause : Nat) : State :=
  s.capture (Reg.blwClErrorCaptureCause k) [(Reg.blwClErrorCaptureBlock k, block), (Reg.blwClErrorCaptureCause k, cause)]

/-- The instance of a fault as a payload word; 0xFFFFFFFF where there is none (log 13). -/
def instWord (i : Option Nat) : Nat := match i with | some n => n | none => 0xFFFFFFFF

/-- An entry for the BLOCKS section of the class's next record (R333); `fault` says that it queues the error task. -/
def State.logBlock (s : State) (k block op cause : Nat) (inst : Option Nat) (logical : Nat) (fault : Bool) : State :=
  s.onCls k fun rt => { rt with
    faults := rt.faults || fault
    blocksLog := rt.blocksLog ++ [⟨block, op, cause, BitVec.ofNat 32
      (inst.getD 0 + bit01 inst.isNone * 2 ^ 20 + logical * 2 ^ 21)⟩] }

/-- What queued the error task: a block or instance fault, or with cause 0x20 an engine failure (R213). -/
def ClassRt.blame (rt : ClassRt) (cause : Nat) : ClassRt :=
  if cause = 0x20 then { rt with errEngine := true } else { rt with errBlock := true }

/-- What every block or instance fault of class `k` reports, a block lost with its engine (cause 0x20) among them: list entry,
event, capture and record (R32, R200, R209). -/
def State.reportFault (s : State) (k block : Nat) (inst : Option Nat) (cause logical : Nat) : State :=
  let s1 := (s.onCls k fun rt => rt.blame cause).errEntry k ⟨block, cause, inst, logical⟩
  ((s1.blwCapture k block cause).raise (Reg.blwClEventBlockFault k)).record (0x010 + k) 0x04 false
    [s1.fld (Reg.blwClCycleLoCycleLo k), block, instWord inst, cause, logical]

/-- Windows marked for poisoning after Solve (R125). -/
def State.markPoison (s : State) (k : Nat) (ws : List (Nat × Nat)) : State :=
  s.onCls k fun rt => { rt with poison := rt.poison ++ ws }

/-! Tokens and tiers -/

/-- The open tier of class `k`, where there is one. -/
def ClassRt.openTier (rt : ClassRt) : Option TierRt := rt.tiers.find? (·.isOpen)

/-- A logical engine's token for a tier taken from those owed; the tier closes when none is owed (R193). -/
def ClassRt.token (rt : ClassRt) (tier l : Nat) : ClassRt :=
  { rt with
    inflight := rt.inflight.filter fun x => decide (x ≠ (tier, l))
    tiers := rt.tiers.map fun t =>
      if t.tier = tier then
        let owed := t.owed.filter fun x => decide (x ≠ l)
        { t with owed := owed, isOpen := t.isOpen && !owed.isEmpty }
      else t }

/-- A token returned to Bellows (R193). -/
def State.returnToken (s : State) (k tier l : Nat) : State := s.onCls k fun rt => rt.token tier l

/-- The destination of a token's packet: Bellows, with the token's class, tier and logical engine (log 47). -/
def tokenDest (k tier l : Nat) : W36 := BitVec.ofNat 36 (k * 2 ^ 16 + tier * 2 ^ 8 + l)

/-- A token on its way from engine `e` after BEND, on the channel of its class (R19, R26, R193). -/
def State.emitToken (s : State) (e k tier l : Nat) : State :=
  let t := s.onCls k fun rt => { rt with inflight := rt.inflight ++ [(tier, l)] }
  let c := t.core e
  let p : Packet := ⟨⟨tokenDest k tier l, e, classChannel k, .token, 0⟩, payload []⟩
  t.setCore e { c with link := c.link.request p }

/-- The packet of a token has arrived at Bellows: it leaves the link that still carried it (R21). -/
def State.tokenArrives (s : State) (k tier l : Nat) : State :=
  let d := tokenDest k tier l
  match s.cores.find? fun x => x.2.link.holds .token d with
  | some x => s.setCore x.1 (x.2.answers .token d)
  | none =>
    match s.flue.links.find? fun x => x.2.holds .token d with
    | some x => s.setLink x.1 (x.2.answered .token d 0)
    | none => s

/-! Block entry -/

/-- The program area of the program that class `k` runs: after its switch, the other one (R239, R537). -/
def State.classArea (s : State) (k : Nat) : Nat :=
  let other := decide (s.fld Reg.edtStatusState = 5) && s.fldBit Reg.edtStatusSwitched k
  s.progArea (if other then 1 - s.bellows.area else s.bellows.area)

/-- The address at which a descriptor's ENTRY starts: relocated into the class's area where it lies in DRAM (R537). -/
def State.entryPc (s : State) (k : Nat) (entry : W36) : W36 :=
  if dramBase ≤ entry.toNat then
    BitVec.ofNat 36 (s.classArea k + 0x600000 + (entry.toNat - dramBase))
  else entry

/-- The PSW at block entry (R58, R60): CLASS, TIER, AUDIT and INST, with CAUSE kept. -/
def entryPsw (old : W36) (k tier : Nat) (audit inst : Bool) : W36 :=
  BitVec.ofNat 36 (bitsOf old.toNat 17 8 * 2 ^ 17 + tier * 2 ^ 9 + k * 2 ^ 7 + bit01 inst * 2 ^ 5 + bit01 audit * 2 ^ 4)

/-- Work dispatched to an engine: a packet of Bellows on the channel of the work's class, with the block's number (R19, R193). -/
def State.flueDispatch (s : State) (e : Nat) (w : Work) : State :=
  s.flueSend nodeBellows (classChannel w.cls) .dispatch e [BitVec.ofNat 36 w.block]

/-- The instance-table entry of an instance streamed to its engine on VC1 (R19, R197). -/
def State.flueInstance (s : State) (e : Nat) (d : Desc) (inst : Option (Nat × Bool)) : State :=
  match inst with
  | some (i, _) => s.flueSend nodeBellows .vc1 .dispatch e [(d.itab.getD i (0, 0)).1, (d.itab.getD i (0, 0)).2]
  | none => s

/-- Block entry, or the entry of an instance (R58): registers, stack window, windows and pc. The stores of an earlier instance
of the same block go on meanwhile (R170). DW1 to DW3 are empty: no rule names anything that loads them (R62, DESIGN CHOICE,
log 52). -/
def State.enter (s : State) (e : Nat) (w : Work) (d : Desc) (inst : Option (Nat × Bool)) : State :=
  let cfg := (s.bellows.active.getD Program.empty).engine w.logical
  let c := if (s.core e).codeOf = some w.logical then s.core e else s.coded (s.core e) w.logical cfg.codeLimit.toNat
  let regs : Sparse W36 := match inst with
    | some (i, _) =>
      let en := d.itab.getD i (0, 0)
      Sparse.put (Sparse.put (Sparse.put [] 0 28 (BitVec.ofNat 36 i)) 0 29 en.1) 0 30 (BitVec.ofNat 36 (en.2.toNat % 2 ^ 32))
    | none => []
  let audit := match inst with | some (_, a) => a | none => w.audit
  let dw0 := s.classArea w.cls + 0x600000
  let windowed := s.hasDram && !s.blazeOnly e
  let c1 := { c with
    w := regs
    normal := ⟨cfg.stkHi, cfg.stkLo, cfg.stkHi⟩
    pc := s.entryPc w.cls d.entry
    psw := entryPsw c.psw w.cls w.tier audit d.inst
    slot := [], afterLoad := false, issue := .running, entryNs := s.bellows.ns
    run := some ⟨w, inst.map Prod.fst, d.windowsOf (inst.map Prod.fst),
      (if audit then [inst.map Prod.fst] else []) ++ (match c.run with | some r => r.audits | none => []), false⟩ }
  (s.flueInstance e d inst).setCore e (((c1.setSys 0x012 cfg.codeLimit).setSys 0x014 (if windowed then BitVec.ofNat 36 dw0 else 0)).setSys 0x015
    (if windowed then BitVec.ofNat 36 (dw0 + 0xA00000) else 0))

/-- Work started on an idle engine: its first instance that runs, or its block (R58, R199). -/
def State.startWork (s : State) (e : Nat) (w : Work) : State :=
  match s.desc w.block with
  | none => s
  | some d =>
    match w.insts with
    | some [] => s
    | some (i :: _) => s.enter e w d (some i)
    | none => s.enter e w d none

/-- The next queued work of an idle engine: Glow before Smoulder, else in order (R183). -/
def State.nextWork (s : State) (e : Nat) : State :=
  let c := s.core e
  if c.run.isSome || decide (c.issue ≠ .idle) then s
  else
    match (c.queue.filter fun w => decide (w.cls = 1)) ++ (c.queue.filter fun w => decide (w.cls ≠ 1)) with
    | [] => s
    | w :: _ => (s.setCore e { c with queue := c.queue.erase w }).startWork e w

/-- Work handed to an engine (R193). -/
def State.pushWork (s : State) (e : Nat) (w : Work) : State :=
  let c := s.core e
  ((s.flueDispatch e w).setCore e { c with queue := c.queue ++ [w] }).nextWork e

/-- The engine is idle again: PSW as at reset but for CAUSE, nothing pending (R60, R91). -/
def Core.idleAgain (c : Core) : Core :=
  { c.abandon.endSlot with
    psw := idlePsw c.psw
    issue := .idle, run := none }

/-! Dispatch decisions -/

/-- The decision of R201 for a block or instance: 0 skip, 1 run, 2 audit. -/
def State.decide_ (s : State) (d : Desc) (inst : Option Nat) : Nat :=
  let k := d.cls
  let rt := s.blockRt d.id
  let off := decide (rt.state ≠ 0) || (match inst with | some i => s.instDisabled d.id i | none => false)
  let touched := (d.sigOf inst).any fun r =>
    (List.range r.2).any fun i => match imageGranule (r.1 + i) with | some j => s.stirred k j | none => false
  if off then 0
  else if rt.firstRun || (s.cls k).allNow then 1
  else if d.always || rt.demoted then 1
  else if touched then 1
  else if s.bit (Reg.blwClStatusFull k) then
    if d.auditExempt || !s.bit Reg.blwControlAuditEn then 1 else 2
  else 0

/-- Counts of a decision (R219, log 17): audited ones count as audits, not as runs. -/
def ClassRt.counted (rt : ClassRt) (decision : Nat) : ClassRt :=
  match decision with
  | 0 => { rt with skip := rt.skip + 1 }
  | 1 => { rt with run := rt.run + 1 }
  | _ => { rt with audits := rt.audits + 1 }

/-- The block of a logical engine in a tier; in tier 0 the task that runs (R189, R192). -/
def State.blockAt (s : State) (k tier l : Nat) : Option Desc :=
  s.bellows.active.bind fun p =>
    if tier = 0 then p.task k (s.cls k).kindTask
    else p.descs.find? fun d =>
      decide (d.cls = k) && decide (d.tier = tier) && decide (d.task = 0) && decide (d.logical ≤ l) &&
        decide (l ≤ d.logical + d.spread)

/-- The work of logical engine `l` in a tier, decided (R198, R199, R201), and the counts that it adds. -/
def State.workOf (s : State) (d : Desc) (tier l : Nat) : Option Work × List Nat :=
  if d.inst then
    let ds := (d.slice (l - d.logical)).map fun i => (i, s.decide_ d (some i))
    let runs := (ds.filter fun x => decide (x.2 ≠ 0)).map fun x => (x.1, decide (x.2 = 2))
    (if runs.isEmpty then none else some ⟨d.id, l, d.cls, tier, some runs, false⟩, ds.map (·.2))
  else
    let v := if d.task ≠ 0 then (if decide ((s.blockRt d.id).state = 0) then 1 else 0) else s.decide_ d none
    (if v = 0 then none else some ⟨d.id, l, d.cls, tier, none, decide (v = 2)⟩, [v])

/-- One assigned engine of an opening tier: its work goes to its host, or its token comes from Bellows (R193, R199). -/
def State.dispatchOne (s : State) (k tier l : Nat) : State :=
  match s.blockAt k tier l with
  | none => s.returnToken k tier l
  | some d =>
    let (w, counts) := s.workOf d tier l
    let s1 := s.onCls k fun rt => counts.foldl ClassRt.counted rt
    match w, s1.hostOf l k with
    | some w, some e =>
      let ran := match w.insts with | some xs => xs.map (·.1) | none => []
      (s1.onCls k fun rt => { rt with dispatched := rt.dispatched ++ [(d.id, l, ran)] }).pushWork e w
    | _, _ => s1.returnToken k tier l

/-- The pending first run of the blocks of a tier that are enabled is served by this tier (R205). -/
def State.clearFirstRun (s : State) (k tier : Nat) (ls : List Nat) : State :=
  ls.foldl (fun t l => match t.blockAt k tier l with
    | some d =>
      let r := t.blockRt d.id
      if r.state = 0 then t.setBlockRt d.id { r with firstRun := false } else t
    | none => t) s

/-! The error task -/

/-- The registers that describe what queued the error task, written at its dispatch (R213), with the ring's span (R129). The list of an
earlier run that ended without BEND gives way to the new one: the spec clears a list only at BEND (DESIGN CHOICE, log 139). -/
def State.errDispatch (s : State) (k : Nat) : State :=
  let rt := s.cls k
  let s1 := s.setFields [
    (Reg.blwClErrReasonStation k, bit01 rt.errStation), (Reg.blwClErrReasonBlockFault k, bit01 rt.errBlock),
    (Reg.blwClErrReasonEngineFail k, bit01 rt.errEngine), (Reg.blwClErrReasonStall k, bit01 (rt.errStall || rt.stalledNow)),
    (Reg.blwClErrReasonListLost k, bit01 rt.errLost), (Reg.blwClErrCountCount k, rt.errNext.length)]
  let s2 := rt.errNext.zipIdx.foldl (fun t x => t.setFields [
    (Reg.blwClErrABlock k x.2, x.1.block), (Reg.blwClErrACause k x.2, x.1.cause),
    (Reg.blwClErrBInstance k x.2, x.1.inst.getD 0), (Reg.blwClErrBNoinst k x.2, bit01 x.1.inst.isNone),
    (Reg.blwClErrBLogical k x.2, x.1.logical)]) s1
  (s2.setCls k { rt with errNext := [], errLost := false, errStation := false, errBlock := false, errEngine := false
                         errStall := false, errDue := false, errRunning := true }).ringDispatch k

/-- The error task has ended: its ring entries are released (R129), and its BEND clears its list (R213); three faulted runs in a
row disable it (R214). -/
def State.errEnd (s : State) (k : Nat) (faulted : Bool) : State :=
  let n := if faulted then (s.cls k).errFaults + 1 else 0
  let s1 := s.onCls k fun rt => { rt with errRunning := false, errFaults := n }
  let s2 := if faulted then s1 else s1.setFld (Reg.blwClErrCountCount k) 0
  if 3 ≤ n then (s2.setFld (Reg.blwClStatusErrtaskOff k) 1).raise (Reg.blwClEventErrtaskOff k) else s2

/-- A task of class `k` has ended. -/
def State.taskEnd (s : State) (k : Nat) (d : Desc) (faulted : Bool) : State :=
  if d.task = 1 then s.errEnd k faulted else s

/-! Stores of an engine and the audit -/

/-- An audit difference: event, count, record, demotion; it is no block fault (R204). -/
def State.auditFault (s : State) (w : Work) (inst : Option Nat) (a : Nat) (old new : W36) : State :=
  let k := w.cls
  let r := s.blockRt w.block
  let s1 := ((s.setBlockRt w.block { r with demoted := true }).logBlock k w.block 2 0x21 inst w.logical false).count (Reg.blwClAuditFaultsAuditFaults k)
  ((s1.blwCapture k w.block 0x21).raise (Reg.blwClEventAuditFault k)).record (0x010 + k) 0x05 false
    [w.block, instWord inst, a % 2 ^ 32, old.toNat % 2 ^ 32, old.toNat / 2 ^ 32, new.toNat % 2 ^ 32, new.toNat / 2 ^ 32]

/-- The engine runs the sandbox (R472). -/
def State.inSandbox (s : State) (e : Nat) : Bool := match (s.core e).run with | some r => r.sandbox | none => false

/-- A Hearth word as engine `e` reads it at its current-view address: a sandbox reads its copy (R472). -/
def State.engineWord (s : State) (e a : Nat) : W36 :=
  if s.inSandbox e then match s.sandboxAddr a with | some x => s.dramWord x | none => 0 else s.readCur (imageWord a)

/-- One Hearth store of an engine applied, posted by instance `inst` of its block: compared in audit mode, reported at the
first difference of the run (R204). A sandbox stores into its copy only (R472). -/
def State.engineStore (s : State) (e a : Nat) (inst : Option Nat) (v : W36) : State :=
  let w := imageWord a
  let old := s.readCur w
  match (s.core e).run with
  | some r =>
    if r.sandbox then match s.sandboxAddr a with | some x => s.blockWrite x v | none => s
    else if r.audits.contains inst && decide (old ≠ v) then
      let c := s.core e
      let s1 := s.setCore e { c with run := some { r with audits := r.audits.erase inst } }
      (s1.auditFault r.work inst a old v).writeWord w v
    else s.writeWord w v
  | none => s.writeWord w v

/-- The word that a point write makes of an old word: value bit `b` set to whether the operand is not 0, Q the operand's
(R160). -/
def pointWord (old v : W36) (b : Nat) : W36 :=
  BitVec.ofNat 36 (withBit (old.toNat % 2 ^ 32) b (decide (v.toNat % 2 ^ 32 ≠ 0)) + v.toNat / 2 ^ 32 * 2 ^ 32)

/-- A buffered store of an engine applied at its target (R78, R160). -/
def State.applyStore (s : State) (e : Nat) (st : Store) : State :=
  let a := st.addr.toNat
  match st.point with
  | some b => s.engineStore e a st.inst (pointWord (s.engineWord e a) (st.vals.headD 0) b.toNat)
  | none => (st.vals.zipIdx.foldl (fun t x => t.engineStore e (a + x.2) st.inst x.1) s)

/-- A buffered store of an engine completes: the first for its destination, where several are, a free choice (R23, R25,
R78). -/
def State.drainOne (s : State) (e : Nat) : State :=
  let (i, t) := s.pick (s.storeAwaited e)
  let c := t.core e
  match i with
  | none => t
  | some i => match c.stores[i]? with
  | none => t
  | some st => (t.setCore e { c.answers .store st.addr with stores := c.stores.eraseIdx i }).applyStore e st

/-! Faults -/

/-- The block is disabled by its fault; a task is not (R209, R214). -/
def State.disableByFault (s : State) (d : Desc) (cause logical : Nat) : State :=
  if d.task ≠ 0 then s
  else (s.setBlockRt d.id { s.blockRt d.id with state := 1 }).logBlock d.cls d.id 1 cause none logical true

/-- A slice of a block that is abandoned: nothing more of it starts; its token comes at once where it does not run
(R200). -/
def State.abandonSlices (s : State) (b : Nat) : State :=
  (List.range 144).foldl (fun t e =>
    let c := t.core e
    let mine := c.queue.filter fun w => decide (w.block = b)
    let run := c.run.map fun r => if r.work.block = b then { r with work := { r.work with insts := some (r.work.insts.getD [] |>.take 1) } } else r
    let t1 := t.setCore e { c with queue := c.queue.filter (fun w => decide (w.block ≠ b)), run := run }
    mine.foldl (fun u w => u.returnToken w.cls w.tier w.logical) t1) s

/-- A block fault (R209): poison, disabling, report. -/
def State.blockFault (s : State) (w : Work) (d : Desc) (inst : Option Nat) (cause : Nat) : State :=
  let s1 := (s.markPoison w.cls (if d.inst then d.allWindows else d.windowsOf none)).disableByFault d cause w.logical
  (s1.reportFault w.cls d.id inst cause w.logical).taskEnd w.cls d true

/-- What an engine's work ended with a fault leads to: the rest of a slice is redispatched, or the token comes from the
fault report (R193, R200, R209). The rest starts at once, before any work that waits for the engine: the spec gives no order
between the two (DESIGN CHOICE, log 57). -/
def State.faultReport (s : State) (e : Nat) (r : Running) (cause : Nat) : State :=
  let w := r.work
  match s.desc w.block with
  | none => (s.returnToken w.cls w.tier w.logical).nextWork e
  | some d =>
    match r.inst with
    | none => ((s.blockFault w d none cause).returnToken w.cls w.tier w.logical).nextWork e
    | some i =>
      if s.bellows.instOff.length < 64 then
        let s1 := (s.markPoison w.cls (d.windowsOf (some i))).setInstOff (s.bellows.instOff ++ [(w.block, i)])
        let s2 := (s1.logBlock w.cls w.block 4 cause (some i) w.logical true).reportFault w.cls w.block (some i) cause w.logical
        match w.insts.map (List.drop 1) with
        | some (n :: rest) => (s2.flueDispatch e w).startWork e { w with insts := some (n :: rest) }
        | _ => (s2.returnToken w.cls w.tier w.logical).nextWork e
      else
        let s1 := (s.abandonSlices w.block).raise Reg.blwEventInstTableFull
        ((s1.blockFault w d (some i) cause).returnToken w.cls w.tier w.logical).nextWork e

/-- The engine page's ERROR_CAPTURE: FFLAGS of the first fault (R65). -/
def State.fbxCapture (s : State) (e : Nat) (cause : Nat) (pushed imprecise lds : Bool) : State :=
  s.capture (Reg.fbxEErrorCaptureCause e) [(Reg.fbxEErrorCaptureCause e, cause), (Reg.fbxEErrorCapturePushed e, bit01 pushed),
    (Reg.fbxEErrorCaptureImprecise e, bit01 imprecise), (Reg.fbxEErrorCaptureLds e, bit01 lds)]

/-- The stores of an engine that were already issued complete; the others are discarded. How many were issued is free
(R91, log 18). -/
def State.flushStores (s : State) (e : Nat) : State :=
  let (n, s1) := s.draw ((s.core e).stores.length + 1)
  let s2 := (List.range n).foldl (fun t _ => t.drainOne e) s1
  let c := s2.core e
  s2.setCore e { c with stores := [], link := c.link.forget .store }

/-- The core part of an engine exception (R91): fault registers and frame. -/
def Core.engineEntry (c0 : Core) (t : Trap) : Core :=
  let lds := t.lds
  let c := c0.landAll.endSlot
  let pushed := c.canPush
  let cause := if pushed then t.cause else 8
  let c1 := c.setFault cause t.fpc t.faddr c.bank.w31 lds t.imprecise pushed
  let c2 := if pushed then c1.pushFrame t.fpc (c.savedPsw lds) else c1
  c2.setPswField 17 8 cause

/-- An engine takes an exception: the block ends in every case (R91); a sandbox halts (R467, R472). -/
def State.engineTrap (s : State) (e : Nat) (t : Trap) : State :=
  let s1 := s.flushStores e
  let c := (s1.core e).engineEntry t
  let cause := (c.sysReg 0x020).toNat
  let flags := (c.sysReg 0x025).toNat
  let seen (u : State) : State := u.fbxCapture e cause (flags.testBit 8) (flags.testBit 9) (flags.testBit 10)
  match c.run with
  | some r =>
    if r.sandbox then (seen (s1.setCore e c)).haltCore e 8 else (seen (s1.setCore e c.idleAgain)).faultReport e r cause
  | none => seen (s1.setCore e c.idleAgain)

/-! The end of a block -/

/-- A block or slice has ended by BEND: the error task's list is cleared, the token leaves (R170, R193, R213). -/
def State.blockDone (s : State) (e : Nat) (r : Running) : State :=
  let w := r.work
  let s1 := s.setCore e (s.core e).idleAgain
  let s2 := match s1.desc w.block with
    | some d => s1.taskEnd w.cls d false
    | none => s1
  (s2.emitToken e w.cls w.tier w.logical).nextWork e

/-- BEND once every store of the block is complete: the next instance that runs, or the end (R170, R199). -/
def State.blockEnd (s : State) (e : Nat) : State :=
  match (s.core e).run with
  | none => s
  | some r =>
    if r.sandbox then s.haltCore e 7
    else
      match r.work.insts.map (List.drop 1), s.desc r.work.block with
      | some (n :: rest), some d =>
        s.enter e { r.work with insts := some (n :: rest) } d (some n)
      | _, _ => s.blockDone e r

/-! Solve -/

/-- The logical engines assigned to a tier of class `k` (R192). -/
def State.assigned (s : State) (k tier : Nat) : List Nat :=
  match s.bellows.active with
  | none => []
  | some p =>
    if tier = 0 then (if (p.task k (s.cls k).kindTask).isSome then [p.taskEngine k] else [])
    else (List.range 128).filter fun l => p.descs.any fun d =>
      decide (d.cls = k) && decide (d.tier = tier) && decide (d.task = 0) && decide (d.logical ≤ l) &&
        decide (l ≤ d.logical + d.spread)

/-- The tiers of a Solve that have an engine assigned, in ascending order: tier 0 alone in a stalled cycle (R192, R208). -/
def State.solveTiers (s : State) (k : Nat) (stalled : Bool) : List TierRt :=
  ((List.range (if stalled then 1 else 256)).filterMap fun t =>
    let ls := s.assigned k t
    if ls.isEmpty then none else some ⟨t, ls, ls, false⟩)

/-- The error task of class `k` may be dispatched: the program has one, and neither its faults nor software has disabled it
(R211, R214). -/
def State.errReady (s : State) (k : Nat) : Bool :=
  !s.bit (Reg.blwClStatusErrtaskOff k) &&
    (match s.bellows.active.bind fun p => p.task k 1 with
      | some d => decide ((s.blockRt d.id).state = 0)
      | none => false)

/-- The task that tier 0 of this cycle runs: the start task in a class's first cycle, else the error task when it is due
(R212). -/
def State.dueTask (s : State) (k startTask : Nat) : Nat :=
  if startTask ≠ 0 then startTask else if (s.cls k).errDue && s.errReady k then 1 else 0

/-- The import step: every range copied from its source class (R132, R196). -/
def State.importStep (s : State) (k : Nat) : State :=
  match s.bellows.active with
  | none => s
  | some p =>
    (p.imports.filter fun i => decide (classOfAddr s.granClass i.2.1 = k)).foldl (fun t i =>
      let (vs, u) := t.solvedReads ((List.range i.2.2).map (imageWord i.1 + ·)) 7
      u.writeWords (imageWord i.2.1) vs) s

/-- The next tier that has not been opened yet: every token of an opened and closed tier has returned. -/
def ClassRt.nextTier (rt : ClassRt) : Option TierRt :=
  rt.tiers.find? fun t => !t.isOpen && !t.owed.isEmpty

/-- A tier opens (R192, R194, R201): its claim map, the error task's list where the task is dispatched (R213), then its engines, those that run their own logical engine first. -/
def State.openTier (s : State) (k : Nat) (t : TierRt) : State :=
  let rt := s.cls k
  let claims := (s.bellows.active.map fun p => p.claimList k t.tier).getD []
  let s1 := (s.setCls k { rt with
    claims := claims
    tiers := rt.tiers.map fun x => if x.tier = t.tier then { x with isOpen := true } else x }).setFld
      (Reg.blwClStatusTier k) t.tier
  let s2 := if t.tier = 0 && decide (rt.kindTask = 1) && s1.errReady k && (t.owed.any fun l => (s1.hostOf l k).isSome) then s1.errDispatch k else s1
  let own := t.owed.filter fun l => (s2.ownerOf l).isSome && decide (s2.hostOf l k = s2.ownerOf l)
  let others := t.owed.filter fun l => !own.contains l
  let work := (own ++ others).foldl (fun u l => u.dispatchOne k t.tier l) s2
  work.clearFirstRun k t.tier t.owed

/-- A block lost with logical engine `l`: its windows are poisoned, and it is reported as a fault, but not disabled. Of an
instanced block the report names the first instance of the slice (R32, R209, DESIGN CHOICE, log 56). -/
def State.loseBlock (s : State) (k l block : Nat) (insts : List Nat) : State :=
  match s.desc block with
  | none => s
  | some d =>
    let ws := if d.inst then insts.flatMap fun i => d.windowsOf (some i) else d.windowsOf none
    (s.markPoison k ws).reportFault k d.id (if d.inst then insts.head? else none) 0x20 l

/-- A logical engine's blocks count as faulted in the open cycle of class `k`: those that it ran or still owed, and its tokens
come back (R31, R32). -/
def State.loseLogical (s : State) (k l : Nat) : State :=
  let rt := s.cls k
  if s.fld (Reg.blwClStatusPhase k) = 2 then
    let ran := (rt.dispatched.filter fun d => decide (d.2.1 = l)).map fun d => (d.1, d.2.2)
    let owed := (rt.tiers.filter fun t => t.owed.contains l && !t.isOpen).filterMap fun t =>
      (s.blockAt k t.tier l).map fun d => (d.id, d.slice (l - d.logical))
    let s1 := (ran ++ owed).foldl (fun t b => t.loseBlock k l b.1 b.2) s
    rt.tiers.foldl (fun t x => t.returnToken k x.tier l) s1
  else s

/-- The logical engines that an engine hosts: its own and those folded onto it. -/
def State.hosted (s : State) (e : Nat) : List Nat :=
  (if s.engState e = 1 then [s.fld (Reg.fbxERoleLogical e)] else []) ++ s.foldedOn e

end Sys2Proof.Machine
end

