-- ==== Sys2Proof/Machine/Grate.lean ====
section
/-! DEFINITION. Grate channels: configuration (R386-R388), the input latch (R389), output states and their switches
(R390-R393), and the channels named in GRT_PAIR (R394). -/

namespace Sys2Proof.Machine

/-- The channel is named as ALIVE_OUT (R394). -/
def State.isAliveOut (s : State) (n : Nat) : Bool := s.bit Reg.grtPairAliveEn && decide (s.fld Reg.grtPairAliveOut = n)

/-- The channel is named as PARTNER_ALIVE (R394). -/
def State.isPartnerAlive (s : State) (n : Nat) : Bool :=
  s.bit Reg.grtPairPartnerEn && decide (s.fld Reg.grtPairPartner = n)

/-- The supply state of a channel's group: 0 ok, 1 low, 2 missing (R393, R396). Group A feeds G00-G07, group B G08-G15. -/
def State.supplyOf (s : State) (n : Nat) : Nat :=
  if n < 8 then s.fld Reg.grtStatusSupplyA else s.fld Reg.grtStatusSupplyB

/-- GRT_ERROR_CAPTURE of the first event (R396). -/
def State.grtCapture (s : State) (n code : Nat) : State :=
  s.capture Reg.grtErrorCaptureCode [(Reg.grtErrorCaptureChannel, n), (Reg.grtErrorCaptureCode, code)]

/-- The state that an output channel is commanded to (R390, R391, R394). -/
def State.grateCommand (s : State) (n : Nat) : Bool :=
  let c := s.channel n
  if s.fld (Reg.grtGConfigMode n) ≠ 3 then false
  else if s.isAliveOut n then s.pins.aliveOut
  else if !s.bit Reg.grtControlEnable || !c.declared || !s.drives then false
  else if decide (s.mode = modeHeld) || s.bellows.active.isNone then s.bit (Reg.grtGConfigSafe n)
  else c.outlay.getD (s.bit (Reg.grtGConfigSafe n))

/-- One channel's switch after a change: a command to off clears FAULT; a faulted output or a missing supply keeps the
switch off, but for a retry (R392, R393). -/
def State.grateOne (s : State) (n : Nat) : State :=
  let on := s.grateCommand n
  let s1 := s.setChannel n { s.channel n with cmd := on, retry := on && (s.channel n).retry }
  let s2 := if on then s1 else s1.setFldBit Reg.grtFaultFault n false
  s2.setFldBit Reg.grtOutStateOutState n
    (on && (!s2.fldBit Reg.grtFaultFault n || (s2.channel n).retry) && decide (s2.supplyOf n ≠ 2))

/-- Every channel's switch after a change of role, mode, configuration, supply or Outlay state. -/
def State.grateUpdate (s : State) : State := (List.range 16).foldl State.grateOne s

/-- An output channel takes a launched Outlay state (R187, R390). -/
def State.grateLaunch (s : State) (n : Nat) (on : Bool) : State :=
  (s.setChannel n { s.channel n with outlay := some on }).grateOne n

/-- No Outlay state has been launched since the claim (R391). -/
def State.grateForget (s : State) : State :=
  ((List.range 16).foldl (fun t n => t.setChannel n { t.channel n with outlay := none }) s).grateUpdate

/-- The Outlay state that a word gives an output channel (R390). -/
def outlayState (w : W36) (safe : Bool) : Bool :=
  if w.toNat.testBit 35 then decide (w.toNat % 2 ^ 32 ≠ 0) else safe

/-- A declared channel takes its configuration at a load or at its class's switch (R388, R391). -/
def State.declareChannel (s : State) (c : ChanDecl) : State :=
  let s1 := s.setFields [
    (Reg.grtGConfigMode c.chan, c.mode), (Reg.grtGConfigOn c.chan, c.on), (Reg.grtGConfigOff c.chan, c.off),
    (Reg.grtGConfigFilter c.chan, c.filter), (Reg.grtGConfigSafe c.chan, bit01 c.safe)]
  (s1.setChannel c.chan { s1.channel c.chan with declared := true, outlay := none }).grateOne c.chan

/-- The declared channels of class `k`. -/
def State.channels (s : State) (k : Nat) : List ChanDecl :=
  (s.bellows.active.getD Program.empty).chans.filter fun c => decide (c.cls = k)

/-- At a boundary of its class, an input channel latches its filtered state (R389). -/
def State.grateLatch (s : State) (k : Nat) : State :=
  (s.channels k).foldl (fun t c =>
    if c.mode = 1 ∨ c.mode = 2 then t.setChannel c.chan { t.channel c.chan with latched := t.fldBit Reg.grtInStateInState c.chan }
    else t) s

/-- Intake writes the latched inputs, or a channel's substitute while its supply is missing (R389). -/
def State.grateIntake (s : State) (k : Nat) : State :=
  (s.channels k).foldl (fun t c =>
    if c.mode = 1 ∨ c.mode = 2 then
      let w := imageWord c.point
      let u := if t.supplyOf c.chan = 2 then let (v, u) := t.substForced w; u.writeWord w v
        else t.writeWord w (plainWord (bit01 (t.channel c.chan).latched))
      u.flueSend nodeGrate (portChannel k) .store c.point [u.readCur w]
    else t) s

/-- A configuration is in range (R386, R396). -/
def configGood (v : W32) : Bool :=
  let n := v.toNat
  let mode := bitsOf n 0 3
  decide (mode ≤ 3) && thresholdGood mode (bitsOf n 3 9) (bitsOf n 12 9) && decide (bitsOf n 21 10 ≤ 1000)

/-- A write of GRT_Gnn_CONFIG (R386, R394, R396): refused for a declared channel and for a configuration out of range,
ignored for a channel named in GRT_PAIR. -/
def State.grateConfig (s : State) (n : Nat) (v : W32) : State :=
  if s.isAliveOut n || s.isPartnerAlive n then s
  else if (s.channel n).declared then s.grtCapture n 6
  else if configGood v then
    (s.setFields [(Reg.grtGConfigMode n, bitsOf v.toNat 0 3), (Reg.grtGConfigOn n, bitsOf v.toNat 3 9),
      (Reg.grtGConfigOff n, bitsOf v.toNat 12 9), (Reg.grtGConfigFilter n, bitsOf v.toNat 21 10),
      (Reg.grtGConfigSafe n, bitsOf v.toNat 31 1)]).grateOne n
  else s.grtCapture n 7

/-- The channels that a write of GRT_PAIR names are fit for it (R394). -/
def State.pairGood (s : State) (v : W32) : Bool :=
  let n := v.toNat
  (!n.testBit 4 || decide (s.fld (Reg.grtGConfigMode (bitsOf n 0 4)) = 3)) &&
    (!n.testBit 9 ||
      ((decide (s.fld (Reg.grtGConfigMode (bitsOf n 5 4)) = 1) || decide (s.fld (Reg.grtGConfigMode (bitsOf n 5 4)) = 2)) &&
        decide (s.fld (Reg.grtGConfigFilter (bitsOf n 5 4)) = 0)))

/-- The channel concerned by a refused write of GRT_PAIR: ALIVE_OUT's where it is not fit, else PARTNER_ALIVE's (R394, R396). -/
def State.pairConcerned (s : State) (v : W32) : Nat :=
  let n := v.toNat
  if n.testBit 4 ∧ s.fld (Reg.grtGConfigMode (bitsOf n 0 4)) ≠ 3 then bitsOf n 0 4 else bitsOf n 5 4

/-- GRT_PAIR is locked after its one write (R10, R394). -/
def pairLockKey : Nat := Reg.grtPairAliveOut.key

/-- A write of GRT_PAIR, once after reset (R394). A refused write locks nothing. -/
def State.gratePair (s : State) (v : W32) : State :=
  if Sparse.get s.rwlSet false pairLockKey then s
  else if s.pairGood v then
    let n := v.toNat
    let s1 := { s with rwlSet := Sparse.put s.rwlSet false pairLockKey true }.setFields [
      (Reg.grtPairAliveOut, bitsOf n 0 4), (Reg.grtPairAliveEn, bitsOf n 4 1), (Reg.grtPairPartner, bitsOf n 5 4),
      (Reg.grtPairPartnerEn, bitsOf n 9 1)]
    (s1.setFld Reg.eraStatusLine (bitsOf n 9 1)).grateUpdate
  else s.grtCapture (s.pairConcerned v) 8

/-- The supply state that a voltage leads to, from the state before (R393). -/
def supplyState (old mv : Nat) : Nat :=
  if old = 0 then (if mv < 10000 then 2 else if mv < 19200 then 1 else 0)
  else if old = 1 then (if mv < 10000 then 2 else if 19800 < mv then 0 else 1)
  else (if 19800 < mv then 0 else if 11000 < mv then 1 else 2)

end Sys2Proof.Machine
end

