-- ==== Sys2Proof/Machine/HobTx.lean ====
section
/-! DEFINITION. Hob ports as they transmit: effective modes (R292-R294), the 32 TX buffers and arbitration (R298-R302),
error confinement (R297), bus-control, reference, image and acknowledge frames (R304-R311) and group standby (R321). -/

namespace Sys2Proof.Machine

/-- The epoch that device frames carry (R256, R309). -/
def State.deviceEpoch (s : State) : Nat := if s.claimant then s.fld Reg.dmpEpochEpoch else s.fld Reg.dmpHighestHighest

/-- The effective mode of a port (R292). -/
def State.hobEff (s : State) (p : Nat) : Nat := s.fld (Reg.hobPStatusEffective p)

/-- The Hob domain is on and its die is fitted (R47, R432). -/
def State.hobUp (s : State) : Bool := s.fit.hob && s.domainOn 19

/-- The unit's ports listen only: it is a Standby, or listens as a unit starting alone; it holds no
claim, or a guard has expired (R293, R457). -/
def State.hobListens (s : State) : Bool := !s.drives

/-- Ports are off in Kindling, Banked and Doused, and while the sequencer firmware does not run, whatever CONTROL.MODE
says (R425, R516). -/
def State.hobIdleMode (s : State) : Bool :=
  decide (s.mode = modeKindling) || decide (s.mode = modeBanked) || decide (s.mode = modeDoused) || !s.compUp 3

/-- The mode that CONTROL.MODE asks for (R292, R293). -/
def State.hobTarget (s : State) (p : Nat) : Nat :=
  if s.hobIdleMode then 0
  else
    match s.fld (Reg.hobPControlMode p) with
    | 1 => if s.hobListens then 2 else 1
    | 2 => 2
    | _ => 0

/-- A Banked port that is restarting (R322). -/
def State.hobRestarting (s : State) (p : Nat) : Bool :=
  decide (s.hobEff p = 5) && decide ((s.hobPort p).modeReq = some 1)

/-- Port `p` counts as standing by for its transceiver group (R321). -/
def State.hobStands (s : State) (p : Nat) : Bool :=
  (decide (s.hobEff p = 5) && !s.hobRestarting p) || decide (s.hobEff p = 0) || decide (s.hobEff p = 6)

/-- HB_STB of a group follows its eight ports (R321). -/
def State.hobGroup (s : State) (g : Nat) : State :=
  s.setFldBit Reg.hobGroupStandbyStandby g ((List.range 8).all fun i => s.hobStands (8 * g + i))

/-- The effective mode of a port written: the guard of a reference ends with normal mode (R304, R306). -/
def State.setHobEff (s : State) (p m : Nat) : State :=
  let s1 := if m = 1 then s else s.setHobPort p { s.hobPort p with guard := false }
  (s1.setFld (Reg.hobPStatusEffective p) m).hobGroup (p / 8)

/-- Event `i` of a port, captured when it is the first (R325). -/
def State.hobPRaise (s : State) (p i : Nat) (f : Fld) : State :=
  (s.capture (Reg.hobPErrorCaptureCode p) [(Reg.hobPErrorCaptureCode p, i + 1)]).raise f

/-- Event `i` of the common page, with its port (R324). -/
def State.hobRaise (s : State) (p i : Nat) (f : Fld) : State :=
  (s.capture Reg.hobErrorCaptureCode [(Reg.hobErrorCapturePort, p), (Reg.hobErrorCaptureCode, i + 1)]).raise f

/-! Buffers -/

/-- A TX buffer. -/
def HobPort.buf (h : HobPort) (b : Nat) : TxBuf := Sparse.get h.bufs TxBuf.free b

/-- A TX buffer written. -/
def HobPort.setBuf (h : HobPort) (b : Nat) (x : TxBuf) : HobPort := { h with bufs := Sparse.put h.bufs TxBuf.free b x }

/-- The buffers in a state: 0 free, 1 pending, 2 on the bus (R298). -/
def HobPort.inState (h : HobPort) (v : Nat) : List Nat := (List.range 32).filter fun b => decide ((h.buf b).state = v)

/-- The buffer on the bus (R298). -/
def HobPort.onBus (h : HobPort) : Option Nat := (h.inState 2).head?

/-- A frame's buffer: 0 for references, 1 for bus control, otherwise the first free of 2 to 31 (R299). -/
def HobPort.place (h : HobPort) (f : TxFrame) : Option Nat :=
  if f.ident = 0x000 then (if (h.buf 0).state = 0 then some 0 else none)
  else if f.ident = 0x600 then (if (h.buf 1).state = 0 then some 1 else none)
  else (h.inState 0).find? fun b => decide (2 ≤ b)

/-- Buffers loaded from the output queue as they are free (R299). -/
def HobPort.load (h : HobPort) : HobPort :=
  h.outQ.foldl (fun x f =>
    match x.place f with
    | some b => x.setBuf b ⟨1, f, 0, false⟩
    | none => { x with outQ := x.outQ ++ [f] }) { h with outQ := [] }

/-- The port sends reference messages (R294, R304). -/
def State.hobTimeMaster (s : State) (p : Nat) : Bool :=
  decide (s.hobEff p = 1) && s.bit (Reg.hobPControlTimeMaster p) && s.bit Reg.hobControlEnable && s.hobUp

/-- The port may start buffer `b`: pending, past its backoff, not barred by the guard of a reference that the port sends, and in
the quiet window only as a wake frame (R292, R300, R306). -/
def State.hobMayStart (s : State) (p b : Nat) : Bool :=
  let h := s.hobPort p
  let x := h.buf b
  decide (x.state = 1) && !x.backoff && (!(h.guard && s.hobTimeMaster p) || decide (b = 0)) && (decide (s.hobEff p ≠ 4) || decide (b = 1))

/-- The pending buffer with the lowest identifier, and among equal identifiers the lowest number (R299). -/
def HobPort.first (h : HobPort) (bs : List Nat) : Option Nat :=
  bs.foldl (fun best b =>
    match best with
    | none => some b
    | some a => if (h.buf b).frame.ident < (h.buf a).frame.ident then some b else some a) none

/-- The port drives the bus (R292). -/
def State.hobDrives (s : State) (p : Nat) : Bool :=
  let m := s.hobEff p
  (decide (m = 1) || ((decide (m = 3) || decide (m = 4)) && !s.hobListens)) &&
    decide (s.fld (Reg.hobPStatusErrState p) ≠ 2) && s.hobUp && s.fldBit Reg.hobStatusSeqUp (p / 16)

/-- Arbitration starts on an idle bus with the frame of R299; a requested mode change goes first (R293). -/
def State.hobArbitrate (s : State) (p : Nat) : State :=
  let h := s.hobPort p
  if s.hobDrives p && h.onBus.isNone && h.modeReq.isNone then
    match h.first ((List.range 32).filter (s.hobMayStart p)) with
    | some b => s.setHobPort p (h.setBuf b { h.buf b with state := 2 })
    | none => s
  else s

/-- Buffers filled and the next frame started. -/
def State.hobPump (s : State) (p : Nat) : State := (s.setHobPort p (s.hobPort p).load).hobArbitrate p

/-- The port takes frames to send (R294, R313). -/
def State.hobTakes (s : State) (p : Nat) : Bool :=
  decide (s.hobEff p = 1) || ((decide (s.hobEff p = 3) || decide (s.hobEff p = 4)) && !s.hobListens)

/-- Frames released to arbitration on a port that sends; a reference ends its guard (R294, R306, R313). -/
def State.hobRelease (s : State) (p : Nat) (fs : List TxFrame) : State :=
  if s.hobTakes p then
    let h := s.hobPort p
    (s.setHobPort p { h with outQ := h.outQ ++ fs, guard := h.guard && fs.all fun f => decide (f.ident ≠ 0) }).hobPump p
  else s

/-! Timed launches -/

/-- Event bit `i` of the page, captured when it is the first; `f` and `b` are its field and bit (R385). -/
def State.tspRaise (s : State) (i : Nat) (f : Fld) (b : Nat) (port : Nat) : State :=
  (s.capture Reg.tspErrorCaptureCode [(Reg.tspErrorCaptureCode, i + 1), (Reg.tspErrorCapturePort, port)]).raiseBit f b

/-- The frames at the head of a port's launch queue whose time has come, and the rest (R381). -/
def dueLaunches (now : Nat) (q : List Launch) : List Launch × List Launch :=
  let due (l : Launch) : Bool := l.time.all fun t => decide (t ≤ now)
  (q.takeWhile due, q.dropWhile due)

/-- The launch queue of a port (R381). -/
def State.launchQ (s : State) (p : Nat) : List Launch := Sparse.get s.turnspit.launches [] p

/-- The launch queue of a port written. -/
def State.setLaunchQ (s : State) (p : Nat) (q : List Launch) : State :=
  { s with turnspit := { s.turnspit with launches := Sparse.put s.turnspit.launches [] p q } }

/-- A launch that lies at least `late` ns in the past is late (R382). -/
def State.noteLate (s : State) (port late : Nat) (l : Launch) : State :=
  match l.time with
  | some t => if t + late ≤ s.now then (s.count Reg.tspLateCountLateCount).tspRaise 8 Reg.tspEventLaunchLate 0 port else s
  | none => s

/-- Every frame at the head of a port's launch queue whose time has come leaves, released to arbitration (R381, R382). -/
def State.launchPast (s : State) (port late : Nat) : State :=
  let (due, rest) := dueLaunches s.now (s.launchQ port)
  due.foldl (fun t l => (t.noteLate port late l).hobRelease port [l.frame]) (s.setLaunchQ port rest)

/-- The frames of a port that are due are launched. System time reaches a launch time with the first tick that is not before it; one tick
later it lies in the past (R381, R382; log 31). -/
def State.launchDue (s : State) (port : Nat) : State := s.launchPast port Config.tickNs

/-- Frames queued on a port with the launch time `time`, behind those that wait there (R381). -/
def State.hobLaunch (s : State) (p : Nat) (time : Option Nat) (fs : List TxFrame) : State :=
  (s.setLaunchQ p (s.launchQ p ++ fs.map fun f => ⟨time, f⟩)).launchDue p

/-- Frames queued on a port that sends: behind a frame that waits for its launch time they wait too (R294, R313, R381). -/
def State.hobQueue (s : State) (p : Nat) (fs : List TxFrame) : State :=
  if s.hobTakes p && !(s.launchQ p).isEmpty then s.hobLaunch p none fs else s.hobRelease p fs

/-- TX_RESULT of a cancel: 0 awaiting, 1 SENT, 2 CANCELLED; `who` 2 is the sequencer (R301, R325). -/
def State.hobResult (s : State) (p b result who : Nat) : State :=
  s.setFields [(Reg.hobPTxResultBuffer p, b), (Reg.hobPTxResultResult p, result), (Reg.hobPTxResultDevice p, bit01 (decide (who = 2)))]

/-- A cancel request for a buffer, by software (1) or the sequencer (2) (R301). -/
def State.hobCancel (s : State) (p b who : Nat) : State :=
  let h := s.hobPort p
  match (h.buf b).state with
  | 2 => (s.setHobPort p (h.setBuf b { h.buf b with cancel := who })).hobResult p b 0 who
  | 1 => (s.setHobPort p (h.setBuf b TxBuf.free)).hobResult p b 2 who
  | _ => s.hobResult p b 2 who

/-- Image frames that satisfy `which` are cancelled by the sequencer, all of them before another frame starts; those still queued
are dropped (R302, R351). -/
def State.hobCancelImages (s : State) (p : Nat) (which : TxFrame → Bool) : State :=
  let h := s.hobPort p
  let s1 := (s.setLaunchQ p ((s.launchQ p).filter fun l => !(l.frame.image && which l.frame))).setHobPort p
    { h with outQ := h.outQ.filter fun f => !(f.image && which f) }
  let bs := (List.range 32).filter fun b => decide ((h.buf b).state ≠ 0) && (h.buf b).frame.image && which (h.buf b).frame
  (bs.foldl (fun t b => t.hobCancel p b 2) s1).hobPump p

/-- At a boundary of class `k` the stale image frames of its stations are cancelled on every port (R302). -/
def State.hobBoundaryCancel (s : State) (k : Nat) : State :=
  (s.hob.map Prod.fst).foldl (fun t p => t.hobCancelImages p fun f => decide (f.cls = k)) s

/-! Error confinement -/

/-- The error state that the counters give: 0 active, 1 passive (R297). -/
def State.hobErrState (s : State) (p : Nat) : State :=
  let passive := decide (128 ≤ s.fld (Reg.hobPErrCountTec p)) || decide (128 ≤ s.fld (Reg.hobPErrCountRec p))
  match s.fld (Reg.hobPStatusErrState p) with
  | 0 => if passive then (s.setFld (Reg.hobPStatusErrState p) 1).hobPRaise p 1 (Reg.hobPEventErrPassive p) else s
  | 1 => if passive then s else s.setFld (Reg.hobPStatusErrState p) 0
  | _ => s

/-- The attempt of a buffer on the bus has ended without success: it returns to pending, or is freed by its latched
cancel (R300, R301). -/
def State.hobReturn (s : State) (p b : Nat) (backoff : Bool) : State :=
  let h := s.hobPort p
  let x := h.buf b
  if x.cancel ≠ 0 then (s.setHobPort p (h.setBuf b TxBuf.free)).hobResult p b 2 x.cancel
  else s.setHobPort p (h.setBuf b { x with state := 1, backoff := backoff })

/-- The reference message of a port is lost: it is not repeated (R306). -/
def State.hobLoseReference (s : State) (p : Nat) : State :=
  let s1 := s.setHobPort p ((s.hobPort p).setBuf 0 TxBuf.free)
  (s1.count (Reg.hobPCountersRefLostCount p)).hobPRaise p 3 (Reg.hobPEventRefLost p)

/-- A failed attempt of the buffer on the bus; a reference ends with an error (R300, R306). -/
def State.hobAttemptEnds (s : State) (p b : Nat) (error backoff : Bool) : State :=
  let s1 := s.hobReturn p b backoff
  if decide (b = 0) && error && decide (((s1.hobPort p).buf 0).state ≠ 0) then s1.hobLoseReference p else s1

/-- The port goes bus-off: the attempt on the bus ends, nothing is sent or received (R297). -/
def State.hobEnterBusOff (s : State) (p : Nat) : State :=
  if s.fld (Reg.hobPStatusErrState p) = 2 then s
  else
    let s1 := match (s.hobPort p).onBus with
      | some b => s.hobAttemptEnds p b true false
      | none => s
    (s1.setFld (Reg.hobPStatusErrState p) 2).hobPRaise p 0 (Reg.hobPEventBusOff p)

/-- The port is error active again with both counters zero (R297). -/
def State.hobRecover (s : State) (p : Nat) : State :=
  s.setFields [(Reg.hobPStatusErrState p, 0), (Reg.hobPErrCountTec p, 0), (Reg.hobPErrCountRec p, 0)]

/-- The transmit error counter raised by 8; past 255 the port is bus-off (R297; ISO 11898-1, PRESUMED, log 19). -/
def State.hobTxError (s : State) (p : Nat) : State :=
  let t := s.fld (Reg.hobPErrCountTec p) + 8
  if 255 < t then (s.setFld (Reg.hobPErrCountTec p) 255).hobEnterBusOff p
  else (s.setFld (Reg.hobPErrCountTec p) t).hobErrState p

/-- A frame sent counts the transmit error counter down (R297, log 19). -/
def State.hobTxGood (s : State) (p : Nat) : State :=
  (s.setFld (Reg.hobPErrCountTec p) (s.fld (Reg.hobPErrCountTec p) - 1)).hobErrState p

/-- A frame received counts the receive error counter down; above 127 it falls to a value from 119 to 127 that the
standard leaves open (R297, log 19). -/
def State.hobRxGood (s : State) (p : Nat) : State :=
  let r := s.fld (Reg.hobPErrCountRec p)
  if 127 < r then
    let (n, t) := s.draw 9
    (t.setFld (Reg.hobPErrCountRec p) (119 + n)).hobErrState p
  else (s.setFld (Reg.hobPErrCountRec p) (r - 1)).hobErrState p

/-! Frames -/

/-- The profile's identifier (R307). -/
def hobIdent (cls dir addr kind : Nat) : Nat := cls * 0x200 + dir * 0x100 + addr * 4 + kind

/-- The 8-byte header of R309. -/
def hobHeader (epoch seq idx cnt flags : Nat) : List Byte :=
  beBytes 4 epoch ++ beBytes 2 seq ++ [BitVec.ofNat 8 (idx + 16 * cnt), BitVec.ofNat 8 flags]

/-- Bytes padded with zeros to `n`. -/
def padTo (n : Nat) (bs : List Byte) : List Byte := bs ++ List.replicate (n - bs.length) 0

/-- The segments of an image of `n` words (R310). -/
def hobSegments (n : Nat) : Nat := max 1 ((n + 11) / 12)

/-- The image frames of a bus station (R309, R310, R313). -/
def State.hobImageFrames (s : State) (d : StationDecl) (seq : Nat) (ws : List W36) : List TxFrame :=
  let n := hobSegments ws.length
  (List.range n).map fun i =>
    ⟨hobIdent d.cls 0 d.hobAddr 0,
      hobHeader s.deviceEpoch seq i n (bit01 s.claimant)
        ++ packWords (((ws.drop (12 * i)).take 12) ++ List.replicate (12 - ((ws.drop (12 * i)).take 12).length) 0)
        ++ beBytes 2 d.layoutHash,
      some d.num, d.cls, true⟩

/-- The HOLD frame of a bus station: one image segment without words (R309, R313). -/
def State.hobHoldFrame (s : State) (d : StationDecl) (seq : Nat) : TxFrame :=
  ⟨hobIdent d.cls 0 d.hobAddr 0,
    hobHeader s.deviceEpoch seq 0 1 (bit01 s.claimant + 4) ++ List.replicate 54 0 ++ beBytes 2 d.layoutHash,
    some d.num, d.cls, true⟩

/-- The acknowledge frame of a sequence: kind 0 image, 2 event (R311). -/
def State.hobAckFrame (s : State) (d : StationDecl) (seq kind : Nat) : TxFrame :=
  ⟨hobIdent d.cls 0 d.hobAddr 1,
    padTo 64 (hobHeader s.deviceEpoch seq 0 1 (bit01 s.claimant) ++ beBytes 2 seq ++ [BitVec.ofNat 8 kind]),
    some d.num, d.cls, false⟩

/-- A bus-control frame: 1 SLEEP_ASK, 2 SLEEP_CONFIRM, 3 SLEEP_ABORT, 4 WAKE (R309, R319, R320). -/
def State.hobControlFrame (s : State) (cmd : Nat) : TxFrame :=
  ⟨0x600, beBytes 4 s.deviceEpoch ++ [BitVec.ofNat 8 cmd, 0, 0, 0], none, 3, false⟩

/-- A bus-control frame queued on a port. -/
def State.hobControl (s : State) (p cmd : Nat) : State := s.hobQueue p [s.hobControlFrame cmd]

/-- The reference message of a set time and cycle number (R305). -/
def State.hobReferenceFrame (s : State) (cycle time : Nat) : TxFrame :=
  ⟨0x000,
    [BitVec.ofNat 8 (cycle % 64), BitVec.ofNat 8 (bit01 s.claimant)] ++ beBytes 4 s.deviceEpoch ++ beBytes 8 time ++ [0, 0],
    none, 0, false⟩

/-! Mode changes -/

/-- No sleep handshake runs on the port. -/
def HobPort.noSleep (h : HobPort) : HobPort :=
  { h with votes := [], asking := false, confirming := false, aborting := false, confirmSeen := false }

/-- A cancel latched on the frame that a port drops from its bus ends as CANCELLED (R301). -/
def State.hobDropCancel (s : State) (p : Nat) : State :=
  match (s.hobPort p).onBus with
  | some b => if ((s.hobPort p).buf b).cancel ≠ 0 then s.hobResult p b 2 ((s.hobPort p).buf b).cancel else s
  | none => s

/-- A port's mode taken at once: a port that no longer drives the bus holds no frame, a reference guard ends, and a port started
in normal mode from off is no longer bus-off (R293, R294, R297, R306). -/
def State.hobEnter (s : State) (p m : Nat) : State :=
  let h := s.hobPort p
  let h1 := { h with modeReq := none, guard := false }
  let h2 := if m = 1 then h1 else { h1.noSleep with bufs := [], outQ := [] }
  let s0 := if m = 1 then s else (s.hobDropCancel p).setLaunchQ p []
  let s1 := (s0.setHobPort p h2).setHobEff p m
  let s2 := if m = 1 then s1 else s1.setFld (Reg.hobPSleepRequest p) 0
  s2.hobPump p

/-- HOB_MODE_CHANGE of R293: the requested mode takes effect on an idle bus; a port that restarts from Banked waits for
its restart (R322). -/
def State.hobApplyMode (s : State) (p : Nat) : State :=
  let h := s.hobPort p
  match h.modeReq with
  | none => s
  | some m => if h.onBus.isSome || s.hobRestarting p then s else s.hobEnter p m

/-- A mode asked for, where the port does not run it already (R293). -/
def State.hobRequest (s : State) (p m : Nat) : State :=
  if s.hobEff p = m then s.setHobPort p { s.hobPort p with modeReq := none }
  else s.setHobPort p { s.hobPort p with modeReq := some m }

/-- A port follows a change of role or mode: one asleep, in a vote of its own, or in a quiet window that it only listens to, stays
so; one that only followed another unit's vote goes to normal with its unit (R293, R322). -/
def State.hobFollows (s : State) (p : Nat) : Bool :=
  let m := s.hobEff p
  let h := s.hobPort p
  decide (m ≤ 2) || (decide (m = 3) && (s.hobListens || !(h.asking || h.confirming))) || (decide (m = 4) && s.hobListens && !(s.hobPort p).confirmSeen)

/-- After a change of role or mode, the ports follow R293. -/
def State.hobRoleChange (s : State) : State :=
  (List.range 192).foldl (fun t p =>
    if t.fld (Reg.hobPControlMode p) ≠ 0 ∧ t.hobFollows p then t.hobRequest p (t.hobTarget p) else t) s

/-- Every port off at once: buses recessive, no frames (R425, R442). -/
def State.hobAllOff (s : State) : State :=
  (List.range 192).foldl (fun t p => if t.hobEff p = 0 ∨ t.hobEff p = 6 then t else t.hobEnter p 0) s

/-- A demotion: no further reference, every pending image buffer cancelled, ports to listen-only (R351). -/
def State.hobDemote (s : State) : State :=
  ((s.hob.map Prod.fst).foldl (fun t p =>
    let t1 := t.hobCancelImages p fun _ => true
    let h := t1.hobPort p
    if (h.buf 0).state = 1 then t1.setHobPort p (h.setBuf 0 TxBuf.free) else t1) s).hobRoleChange

/-- A port mapped out: recessive bus, no frames, no votes (R37, R292). -/
def State.hobMapOut (s : State) (p : Nat) : State :=
  let s1 := (((s.hobDropCancel p).setLaunchQ p []).setHobPort p HobPort.reset).setHobEff p 6
  s1.setFld (Reg.hobPSleepRequest p) 0

/-- The sequencers that Sweep has not found failed (R290). -/
def Fit.goodSeqs (f : Fit) : Nat := f.badSeqs.foldl (fun m q => withBit m q false) 0xFFF

/-- The Hob die as it stands once it has started: sequencers up while the HOB component runs, Turnspit in service, the ports of a
sequencer or controller that Sweep has found failed mapped out, and the groups in standby (R47, R290, R321, R507, R516). -/
def State.hobStart (s : State) : State :=
  if s.fit.hob then
    let s1 := s.setFields [(Reg.hobStatusSeqUp, if s.compUp 3 then s.fit.goodSeqs else 0), (Reg.hobStatusTurnspit, 1)]
    let bad := (s.fit.badSeqs.flatMap fun q => (List.range 16).map (16 * q + ·)) ++ s.fit.badPorts
    (List.range 24).foldl State.hobGroup (bad.foldl State.hobMapOut s1)
  else s

/-- A Banked port starts to restart: its group leaves standby (R321, R322). -/
def State.hobStartRestart (s : State) (p : Nat) : State :=
  if s.hobEff p = 5 then (s.setHobPort p { s.hobPort p with modeReq := some 1 }).hobGroup (p / 8) else s

end Sys2Proof.Machine
end

