-- ==== Sys2Proof/Machine/StationOut.lean ====
section
/-! DEFINITION. What a unit sends to its stations: Draught frames (R256-R262), output images and HOLD (R273-R275, R313),
legacy APDUs (R279, R280, R284), and the sleep of a bus port that an output ends (R320, R322). -/

namespace Sys2Proof.Machine

/-- The declaration of a station in the active program. -/
def State.decl (s : State) (n : Nat) : Option StationDecl := s.bellows.active.bind fun p => p.station n

/-- The stations of the active program. -/
def State.decls (s : State) : List StationDecl := match s.bellows.active with | some p => p.stations | none => []

/-- A station's runtime changed. -/
def State.onStation (s : State) (n : Nat) (f : StationRt → StationRt) : State := s.setStation n (f (s.station n))

/-! Transfers between stations and the Hearth -/

/-- The node that moves a station's words: the Hob sequencer of its port, or the Chimney cores (R14, R19). -/
def StationDecl.node (d : StationDecl) : Nat := if d.kind = 4 then nodeHob d.hobPort else nodeChimney

/-- The channel of a station's words (R19). -/
def StationDecl.channel (d : StationDecl) : Channel4 := if d.kind = 4 then portChannel d.cls else .vc2

/-- A station's input words on their way to the Hearth (R19, R269). -/
def State.flueIntake (s : State) (d : StationDecl) : State :=
  let send (t : State) (base n : Nat) : State :=
    if n = 0 then t else t.flueSend d.node d.channel .store base ((List.range n).map fun i => t.readCur (imageWord base + i))
  send (send s d.ibBase d.ibCount) d.iwBase d.iwCount

/-- A station's output words asked of the Hearth (R19, R273). -/
def State.flueOutlay (s : State) (d : StationDecl) : State :=
  (s.flueAsk d.node d.channel d.obBase d.obCount).flueAsk d.node d.channel d.owBase d.owCount

/-- The period of class `k` in µs. -/
def State.periodUs (s : State) (k : Nat) : Nat := s.fld (Reg.blwClPeriodPeriod k)

/-- A session. -/
def State.session (s : State) (i : Nat) : Session := Sparse.get s.sessions Session.none i

/-- A session written. -/
def State.setSession (s : State) (i : Nat) (x : Session) : State :=
  { s with sessions := Sparse.put s.sessions Session.none i x }

/-! The Chimney -/

/-- Station service is on, its firmware runs, and the mode has station traffic (R286, R425, R516). -/
def State.chmOn (s : State) : Bool :=
  s.fit.chimney && s.bit Reg.chmControlEnable && s.compUp 2 &&
    (decide (s.mode = modePrimary) || decide (s.mode = modeStandby) || decide (s.mode = modeHeld))

/-- The Chimney core of a station runs (R255). -/
def State.chmCoreUp (s : State) (n : Nat) : Bool := s.fldBit Reg.chmStatusCoresUp (n % 8)

/-- An Ethernet port carries traffic: not off, not mapped out, its SerDes group on (R248, R37). -/
def State.chmPortUp (s : State) (x : Nat) : Bool :=
  s.fit.chimney && decide (s.fld (Reg.chmXControlMode x) ≠ 0) && !s.bit (Reg.chmXStatusMappedOut x) &&
    s.domainOn (if x < 20 then 16 else 17)

/-! Addresses and routes -/

/-- The key of an address-table entry (R287). -/
def addrKey (x i : Nat) : Nat := 16 * x + i

/-- ADDR_CTL of an entry of a port's address table: PREFIX, IPV6, VLAN, VALID from bit 0 on (R287). -/
def State.addrCtl (s : State) (x i : Nat) : Nat := (Sparse.get s.addrTable [] (addrKey x i)).getD 4 0

/-- The address of an entry, most significant word first; IPv4 as ::ffff:a.b.c.d (R265, R287). -/
def State.addrOf (s : State) (x i : Nat) : Nat :=
  let ws := (Sparse.get s.addrTable [] (addrKey x i)).take 4
  if (s.addrCtl x i).testBit 8 then ws.foldl (fun a w => a * 2 ^ 32 + w) 0 else 0xFFFF * 2 ^ 32 + ws.getD 3 0

/-- An IPv4 address, in the form ::ffff:a.b.c.d (R265). -/
def isV4 (a : Nat) : Bool := decide (a / 2 ^ 32 = 0xFFFF)

/-- Entry `i` of a port's address table is in use for the family of address `a` (R287). -/
def State.addrFor (s : State) (x i a : Nat) : Bool := (s.addrCtl x i).testBit 12 && decide ((s.addrCtl x i).testBit 8 = !isV4 a)

/-- The address lies in the subnet of entry `i` of a port (R249, R287). -/
def State.onLink (s : State) (x i a : Nat) : Bool :=
  let len := bitsOf (s.addrCtl x i) 0 8 + (if isV4 a then 96 else 0)
  s.addrFor x i a && decide (a / 2 ^ (128 - len) = s.addrOf x i / 2 ^ (128 - len))

/-- VLAN ID and priority of a VLAN entry in use (R249, R287). -/
def State.vlanTag (s : State) (x v : Nat) : Option (Nat × Nat) :=
  if s.bit (Reg.chmXVlanValid x v) then some (s.fld (Reg.chmXVlanVid x v), s.fld (Reg.chmXVlanPcp x v)) else none

/-- The way to a peer over port `x`: itself where it lies in a subnet of the port, else over the default gateway of its family
where there is one; with the VLAN of the entry used (R249, R287). -/
def State.route (s : State) (x : Nat) (peer : Peer) : Route :=
  let a := peer.addr.toNat
  let g := if isV4 a then 8 else 9
  match (List.range 8).find? fun i => s.onLink x i a with
  | some i => ⟨x, peer, a, s.vlanTag x (bitsOf (s.addrCtl x i) 9 3)⟩
  | none => if s.addrFor x g a then ⟨x, peer, s.addrOf x g, s.vlanTag x (bitsOf (s.addrCtl x g) 9 3)⟩ else ⟨x, peer, a, none⟩

/-- A frame of the port sent (R287). -/
def State.sendEth (s : State) (x : Nat) (o : Output) : State := (s.countWrap (Reg.chmXTxFramesTxFrames x)).send o

/-- A frame sent on session `i`, whose station number is `n`, to the peer of its latest authenticated record (R253, R256). -/
def State.sendOn (s : State) (i n : Nat) (frame : List Byte) : State :=
  let x := s.session i
  if s.chmOn && s.chmCoreUp n && s.chmPortUp x.port then
    (s.setSession i { x with tx := x.tx + 1 }).sendEth x.port (.draught i (s.route x.port x.peer) frame)
  else s

/-- A handshake message of session `i`, or an alert, where its port carries traffic (R251). -/
def State.sendDtls (s : State) (i x what : Nat) : State := if s.chmPortUp x then s.sendEth x (.dtls i x what) else s

/-- A frame sent on a station's session (R256). -/
def State.sendDraught (s : State) (n : Nat) (frame : List Byte) : State :=
  match (s.station n).session with
  | none => s
  | some i => s.sendOn i n frame

/-- The 24-byte header of a device frame (R256). -/
def State.draughtHeader (s : State) (n kind idx cnt seq layout words : Nat) : List Byte :=
  [BitVec.ofNat 8 (16 + kind), BitVec.ofNat 8 (2 * bit01 s.claimant)] ++ beBytes 3 n
    ++ [BitVec.ofNat 8 idx, BitVec.ofNat 8 cnt, 0] ++ beBytes 4 seq ++ beBytes 4 s.deviceEpoch ++ beBytes 4 layout
    ++ beBytes 2 words ++ [0, 0]

/-- The segments of an image of `n` words on the network (R259, R273). -/
def draughtSegments (n : Nat) : Nat := max 1 ((n + 255) / 256)

/-- An OUTLAY image sent in its segments (R259, R273). -/
def State.sendOutlayFrames (s : State) (d : StationDecl) (seq : Nat) (ws : List W36) : State :=
  let n := draughtSegments ws.length
  (List.range n).foldl (fun t i =>
    let part := (ws.drop (256 * i)).take 256
    t.sendDraught d.num (t.draughtHeader d.num 3 i n seq d.layoutHash part.length ++ packWords part)) s

/-- An acknowledgement of an INTAKE (2) or EVENT (6) sequence (R262). -/
def State.sendAck (s : State) (d : StationDecl) (kind seq : Nat) : State :=
  s.sendDraught d.num (s.draughtHeader d.num 4 0 1 seq d.layoutHash 0 ++ beBytes 4 seq ++ [BitVec.ofNat 8 kind, 0, 0, 0])

/-- The interval at which a station receives OUTLAY or HOLD, in ms (R275). -/
def State.outPeriod (s : State) (d : StationDecl) : Nat :=
  if d.outMode then d.period (s.periodUs d.cls) else (s.periodUs d.cls + 999) / 1000

/-- The output timeout of a station in ms: 3 times the larger of its output period and the class period (R275). -/
def State.outTimeout (s : State) (d : StationDecl) : Nat :=
  3 * max (s.outPeriod d) ((s.periodUs d.cls + 999) / 1000)

/-- The device's BIND with a RESULT code (R261). -/
def State.sendBind (s : State) (d : StationDecl) (result : Nat) : State :=
  s.sendDraught d.num (s.draughtHeader d.num 1 0 1 0 d.layoutHash 0 ++ [BitVec.ofNat 8 result, BitVec.ofNat 8 d.cls, 0, 0]
    ++ beBytes 4 (d.period (s.periodUs d.cls)) ++ beBytes 4 (s.outTimeout d) ++ beBytes 4 (s.station d.num).lastSeq
    ++ beBytes 4 (s.outPeriod d))

/-! Bus stations -/

/-- The sleep of a port cancelled in its quiet window: WAKE is sent by a unit that drives the bus (R320, R322). -/
def State.hobCancelSleep (s : State) (p : Nat) : State :=
  let s1 := (s.setHobPort p (s.hobPort p).noSleep).setFld (Reg.hobPSleepRequest p) 0
  let s2 := (s1.setHobEff p (s1.hobTarget p)).hobPRaise p 5 (Reg.hobPEventSleepCancelled p)
  if s2.hobListens then s2 else s2.hobControl p 4

/-- A bus station's output image reaches its port: a sleeping port is woken by an image that differs from the last one
sent; a Banked port sends nothing (R313, R320-R322). -/
def State.sendBusFrames (s : State) (d : StationDecl) (fs : List TxFrame) (differs : Bool) : State :=
  let p := d.hobPort
  if s.hobEff p = 5 then (if differs then s.hobStartRestart p else s)
  else if s.hobEff p = 4 then (if differs then (s.hobCancelSleep p).hobQueue p fs else s)
  else s.hobQueue p fs

/-! Legacy stations -/

/-- A port that carries station traffic (R250). -/
def State.stationPort (s : State) (x : Nat) : Bool := s.chmPortUp x && s.bit (Reg.chmXControlStations x)

/-- The connection of a legacy station carries traffic (R250, R255, R278). -/
def State.legacyUp (s : State) (n : Nat) : Bool := s.chmOn && s.chmCoreUp n && s.stationPort (s.station n).via

/-- The IOA and type of output word `i` of a legacy station (R281). -/
def StationDecl.outPoint (d : StationDecl) (i : Nat) : Nat × Nat := d.points.getD (d.iwCount + i) (0, 0)

/-- The head of the ASDU that an I-format APDU of the unit carries (R280, R281, R284): interrogation, clock synchronisation and a
command with the type of the point with cause 6, activation; an answer with the type that it answers and the negative bit (the
numbers of the causes PRESUMED, log 21). -/
def StationDecl.asdu (d : StationDecl) (kind ioa value : Nat) : Option AsduHead :=
  let head (ty cause : Nat) : Option AsduHead := some ⟨ty, cause, d.orig, d.ca⟩
  if kind = 8 then head 100 6
  else if kind = 9 then head 103 6
  else if kind = 10 then head ((((List.range d.owCount).map d.outPoint).find? fun p => decide (p.1 = ioa)).getD (0, 0)).2 6
  else if kind = 11 then head ioa (64 + value)
  else none

/-- An APDU, or the end of the connection, sent to a legacy station over the port of its connection (R250, R278-R280). -/
def State.legacySend (s : State) (n kind ioa value : Nat) : State :=
  if s.legacyUp n then
    s.sendEth (s.station n).via (.legacy n kind ioa value ((s.decl n).bind fun d => d.asdu kind ioa value))
  else s

/-- k of a legacy station (R280). -/
def State.windowK (s : State) (n : Nat) : Nat := match s.decl n with | some d => d.k | none => 12

/-- The I-format APDUs that wait are sent as far as k unacknowledged ones allow (R280). -/
def State.legacyPump (s : State) (n : Nat) (ws : List (Nat × Nat × Nat)) : State :=
  match ws with
  | [] => s.onStation n fun t => { t with waitI := [] }
  | (kind, ioa, value) :: rest =>
    if (s.station n).unacked < s.windowK n then
      ((s.onStation n fun t => { t with sendSeq := (t.sendSeq + 1) % 2 ^ 15, unacked := t.unacked + 1, unsent := 0 }).legacySend
        n kind ioa value).legacyPump n rest
    else s.onStation n fun t => { t with waitI := ws }

/-- The connection sends an I-format APDU, after those that the k window holds back (R280, R284). -/
def State.legacySendI (s : State) (n kind ioa value : Nat) : State :=
  s.legacyPump n ((s.station n).waitI ++ [(kind, ioa, value)])

/-- A value that its command type can carry (R284). -/
def commandable (ty value : Nat) : Bool :=
  if ty = 45 then decide (value ≤ 1) else if ty = 46 then decide (value = 1 ∨ value = 2) else decide (ty = 50)

/-- A started connection on which commands may go (R279, R284). -/
def State.legacyOpen (s : State) (t : StationRt) : Bool := decide (t.legacy = 4) && !t.interrogating && s.drives

/-- The commands of R284 for the words of an output image. -/
def State.legacyCommands (s : State) (d : StationDecl) (ws : List W36) : State :=
  ws.zipIdx.foldl (fun t x =>
    let rt := t.station d.num
    let (w, i) := x
    let (ioa, ty) := d.outPoint i
    let v := w.toNat % 2 ^ 32
    let known := Sparse.get (rt.confirmed.map fun e => (e.1, some e.2)) none ioa
    if t.legacyOpen rt && w.toNat.testBit 35 && decide (known ≠ some (BitVec.ofNat 32 v)) && commandable ty v
        && !(rt.pendingCmds.any fun c => decide (c.1 = ioa)) && !rt.negHold.contains ioa && decide (rt.unacked < d.k) then
      (t.onStation d.num fun r => { r with pendingCmds := r.pendingCmds ++ [(ioa, BitVec.ofNat 32 v)] }).legacySendI
        d.num 10 ioa v
    else t) s

/-- A general interrogation starts (R284): no command goes until its ACTTERM. -/
def State.legacyInterrogate (s : State) (n : Nat) : State :=
  (s.onStation n fun t => { t with interrogating := true }).legacySendI n 8 0 20

/-- STARTDT act to a connection held stopped (R279). -/
def State.legacyStart (s : State) (n : Nat) : State :=
  if (s.station n).legacy = 3 then (s.onStation n fun t => { t with uOut := 1 }).legacySend n 3 0 0 else s

/-- STOPDT act at once to a connection that is started, or is being started; no command follows it (R279). -/
def State.legacyStop (s : State) (n : Nat) : State :=
  if (s.station n).legacy = 4 ∨ (s.station n).uOut = 1 then
    (s.onStation n fun t => { t with legacy := 3, uOut := 2, pendingCmds := [], waitI := [], interrogating := false }).legacySend n 4 0 0
  else s

/-- The legacy stations of the active program. -/
def State.legacyStations (s : State) : List Nat :=
  (s.decls.filter fun d => decide (d.kind = 2)).map (·.num)

/-- Every legacy connection started (R358) or stopped (R351). -/
def State.legacyStartAll (s : State) : State := s.legacyStations.foldl State.legacyStart s

/-- STOPDT to every legacy station (R351). -/
def State.legacyStopAll (s : State) : State := s.legacyStations.foldl State.legacyStop s

/-! Output images and HOLD -/

/-- A station is reached: a Draught station is bound (R274), a bus station has its port in a mode that sends, or that
an output ends (R313, R320, R322), a legacy station its started connection. -/
def State.reached (s : State) (d : StationDecl) : Bool :=
  if d.kind = 1 then (s.station d.num).session.isSome
  else if d.kind = 2 then decide ((s.station d.num).legacy = 4)
  else s.hobUp && s.bit Reg.hobControlEnable && !([0, 2, 6].contains (s.hobEff d.hobPort))

/-- A buffer of a Draught station in DRAM (R267): 0 ASSEMBLY, 1 COMPLETE, 2 LATCHED, 3 output, its words from `i` on. The spec gives
the area and not the places in it: one buffer after the other, 1,024 words a station (DESIGN CHOICE, log 70). -/
def State.fillBuf (s : State) (b n i : Nat) (ws : List W36) : State :=
  if s.hasDram && decide (n < 65536) then
    s.blockWrites (s.fld Reg.chmBufBaseBufBase * 2 ^ 24 + (b * 65536 + n) * 1024 + i) ws
  else s

/-- An output image leaves for its station, which keeps it as the image last sent (R273, R274, R313); one that cannot leave does
not count as sent. -/
def State.sendImage (s : State) (d : StationDecl) (seq : Nat) (ws : List W36) : State :=
  if s.drives && s.reached d then
    let t := s.station d.num
    let differs := decide (t.out ≠ ws) || !t.outValid
    let s1 := s.onStation d.num fun t => { t with out := ws, outSeq := seq, outValid := true }
    if d.kind = 1 then s1.sendOutlayFrames d seq ws
    else if d.kind = 2 then s1.legacyCommands d ws
    else s1.sendBusFrames d (s1.hobImageFrames d seq ws) differs
  else s.onStation d.num fun t => { t with outNew := none }

/-- The class cannot run a Solve: the unit is in Held, or no program is loaded (R274). -/
def State.cannotSolve (s : State) : Bool := decide (s.mode = modeHeld) || s.bellows.active.isNone

/-- The cycle number that HOLD carries (R274). -/
def State.holdSeq (s : State) (k : Nat) : Nat := if (s.cls k).ran then s.fld (Reg.blwClCycleLoCycleLo k) else 0

/-- HOLD to one station of the class (R274, R313). -/
def State.sendHold (s : State) (d : StationDecl) : State :=
  if s.drives && s.cannotSolve && s.reached d then
    if d.kind = 1 then s.sendDraught d.num (s.draughtHeader d.num 5 0 1 (s.holdSeq d.cls) d.layoutHash 0)
    else if d.kind = 4 && (decide (s.hobEff d.hobPort = 1) || decide (s.hobEff d.hobPort = 3)) then
      s.hobQueue d.hobPort [s.hobHoldFrame d (s.holdSeq d.cls)]
    else s
  else s

/-- The first HOLD to every station when the classes stop or a unit claims while they are stopped (R274). -/
def State.sendHolds (s : State) : State := s.decls.foldl State.sendHold s

end Sys2Proof.Machine
end

