-- ==== Sys2Proof/Machine/Roles.lean ====
section
/-! DEFINITION. Role states (R326-R328), claims and epochs (R348-R352), demotion (R351), the lag policy (R341) and the end
of a running cycle that it needs. -/

namespace Sys2Proof.Machine

/-! Ending a cycle -/

/-- The settle of class `k` starts (R108). -/
def State.startSettle (s : State) (k : Nat) : State :=
  ((s.onCls k fun rt => { rt with settled := false }).setFldBit Reg.hrtStatusSettling k true).setFld
    (Reg.hrtClFlipSettled k) 0

/-- The running blocks of class `k` are aborted: their engines reinitialise and the open tier's tokens are reclaimed
(R91, R207). -/
def State.abortBlocks (s : State) (k : Nat) : State :=
  let s1 := (List.range 144).foldl (fun t e =>
    let c := t.core e
    let t1 := if c.queue.any fun w => decide (w.cls = k) then
      t.setCore e { c with queue := c.queue.filter fun w => decide (w.cls ≠ k) } else t
    match c.run with
    | some r => if r.work.cls = k && !r.sandbox then
        let t2 := t1.flushStores e
        t2.setCore e (t2.core e).idleAgain
      else t1
    | none => t1) s
  let s2 := s1.onCls k fun rt => { rt with tiers := [], inflight := [], dispatched := [], errRunning := false }
  (List.range 144).foldl State.nextWork s2

/-- The statistics of a finished cycle (R219). -/
def State.cycleStats (s : State) (k : Nat) : State :=
  let rt := s.cls k
  s.setFields [(Reg.blwClStatsRunRun k, rt.run), (Reg.blwClStatsSkipSkip k, rt.skip), (Reg.blwClStatsAuditAudit k, rt.audits),
    (Reg.blwClSolveTimeSolveUs k, rt.solveUs), (Reg.blwClSolveMaxSolveMax k, max rt.solveUs (s.fld (Reg.blwClSolveMaxSolveMax k))),
    (Reg.blwClFinishTimeFinishUs k, (s.bellows.ns - rt.startedAt) / 1000), (Reg.blwClStartKindKind k, 0)]

/-- The running cycle of class `k` ends without Outlay and record; its settle starts, where it has not run yet (R207,
R351). A Solve cut short stays unfinished (R127). -/
def State.abortCycle (s : State) (k : Nat) : State :=
  if (s.cls k).finished then s
  else
    let late := decide (3 ≤ s.fld (Reg.blwClStatusPhase k))
    let done := late && (s.cls k).settled
    let s1 := ((s.abortBlocks k).onCls k fun rt => { rt with
      aborted := true, mirrored := true, poison := [], record := none, finished := done
      solveUs := if s.fld (Reg.blwClStatusPhase k) = 2 then (s.bellows.ns - rt.solveAt) / 1000 else rt.solveUs }).setFld
        (Reg.blwClStatusPhase k) 0
    if done then s1.cycleStats k else if late then s1 else s1.startSettle k

/-- Class guard `k` counts while it is on and the unit is in Primary, and it counts afresh after each pause (R456). -/
def State.guardPause (s : State) (k : Nat) : State :=
  let counts := decide (s.mode = modePrimary) && s.fldBit Reg.fgdStatusClOn k
  match counts, s.fireguard.since.getD k none with
  | true, none => { s with fireguard := { s.fireguard with since := s.fireguard.since.set k (some (s.bellows.ns, false)) } }
  | false, _ => { s with fireguard := { s.fireguard with since := s.fireguard.since.set k none } }
  | true, some _ => s

/-- STATUS.STATE of every class follows mode and role: 0 stopped, 1 running, 2 stalled, 3 held (R219, R425); what is queued for a
class that stops is applied (R118). -/
def State.classStates (s : State) : State :=
  [0, 1, 2].foldl (fun t k =>
    (t.setFld (Reg.blwClStatusState k)
      (if t.mode = modeHeld then 3
      else if t.mode = modePrimary then (if (t.cls k).stalledNow then 2 else 1)
      else if t.mode = modeStandby && decide (3 ≤ t.role) then 1
      else 0)).guardPause k) s |>.applyStopped

/-! Roles -/

/-- The causes of a role change in its Ashpit record (log 13): the event row of R327, numbered. -/
def causeKindling : Nat := 1
/-- A partner or claim evidence was found (R327). -/
def causeEvidence : Nat := 2
/-- The unit claimed on its own or by takeover (R327). -/
def causeClaim : Nat := 3
/-- Synchronization started or ended (R327). -/
def causeSync : Nat := 4
/-- A desynchronization cause (R327). -/
def causeDesync : Nat := 5
/-- Demotion or release (R327). -/
def causeDemotion : Nat := 6
/-- The unit entered Ember, Banked, Raking or Doused (R327). -/
def causeMode : Nat := 7

/-- The role state changed, with what follows it at once: its record, the claimant and listening bits, the mode outside
Held, the class states, the Hob modes, the Grate outputs and ALIVE_OUT (R293, R326, R327, R355, R391, R425-R427). -/
def State.setRoleState (s : State) (r cause : Nat) : State :=
  if s.role = r then s
  else
    let old := s.role
    let s1 := (s.setFields [(Reg.eraStatusRole, r), (Reg.dmpStatusClaimant, bit01 (decide (5 ≤ r))),
      (Reg.dmpStatusListening, bit01 (decide (r = 1)))]).record 0x016 0x01 true [old, r, cause]
    let s2 := if s1.mode = modeStandby && decide (5 ≤ r) then s1.setMode modePrimary
      else if s1.mode = modePrimary && decide (r < 5) then s1.setMode modeStandby else s1
    let s3 := if r = 0 then { s2 with pins := { s2.pins with aliveOut := false } } else s2
    let s4 := s3.classStates.hobRoleChange
    if old < 5 ∧ 5 ≤ r then s4.grateForget else s4.grateUpdate

/-! Release of held outputs -/

/-- Outputs leave: station images, and Grate states (R187, R273, R390). -/
def State.releaseItems (s : State) (xs : List Held) : State :=
  xs.foldl (fun t x => match x with
    | .image n seq ws => match t.decl n with
      | some d => t.sendImage d seq ws
      | none => t
    | .grate c on => t.grateLaunch c on) s

/-- Every frame held for an acknowledgement is released (R341). -/
def State.releaseWaiting (s : State) : State :=
  [0, 1, 2].foldl (fun t k =>
    let ws := (t.cls k).waiting
    (t.onCls k fun rt => { rt with waiting := [] }).releaseItems (ws.flatMap (·.2))) s

/-- Held and unlaunched outputs are discarded (R351). -/
def State.discardHeld (s : State) : State :=
  let s1 := [0, 1, 2].foldl (fun t k => t.onCls k fun rt => { rt with waiting := [], launch := [] }) s
  let keep := s1.turnspit.launches.map fun e => (e.1, e.2.filter fun l => l.time.isNone && !l.frame.image)
  (keep.map Prod.fst).foldl State.launchDue { s1 with turnspit := { s1.turnspit with launches := keep.filter fun e => !e.2.isEmpty } }

/-! Heartbeats -/

/-- The heartbeat that the unit sends (R331). -/
def State.heartbeatNow (s : State) (leaving : Bool) : Heartbeat :=
  let p := s.bellows.active.getD Program.empty
  { unit := s.fld Reg.eraControlUnit
    role := s.role
    held := decide (s.mode = modeHeld)
    leaving := leaving
    claimEpoch := BitVec.ofNat 32 (if s.claimant then s.fld Reg.dmpEpochEpoch else 0)
    highest := BitVec.ofNat 32 (s.fld Reg.dmpHighestHighest)
    time := s.now
    cycles := [0, 1, 2].map fun k =>
      BitVec.ofNat 32 (if s.claimant then (s.cls k).lastDone else s.fld (Reg.eraClAppliedCycle k))
    seq := BitVec.ofNat 32 s.erair.hbSeq
    eraVersion := BitVec.ofNat 16 (s.fld (Reg.rlnVerVersion 5))
    programId := BitVec.ofNat 32 p.id
    version := BitVec.ofNat 32 p.version
    layoutHash := BitVec.ofNat 32 p.layout
    editState := s.fld Reg.edtStatusState }

/-- A heartbeat sent (R331); none after a Fireguard expiry (R457). -/
def State.sendHeartbeat (s : State) (leaving : Bool) : State :=
  if s.erairOn && !s.bit Reg.fgdStatusExpired then
    { s with erair := { s.erair with hbSeq := (s.erair.hbSeq + 1) % 2 ^ 32 } }.erairSend (.heartbeat (s.heartbeatNow leaving))
  else s

/-! Desynchronization -/

/-- ERA_LEDGER shows the outstanding records of each class (R338, R366). -/
def State.eraLedger (s : State) : State :=
  let n (k : Nat) := (s.erair.outstanding.filter fun o => decide (o.cls = k)).length
  s.setFields [(Reg.eraLedgerCl0, n 0), (Reg.eraLedgerCl1, n 1), (Reg.eraLedgerCl2, n 2)]

/-- The outstanding records written. -/
def State.setOutstanding (s : State) (os : List Outstanding) : State :=
  { s with erair := { s.erair with outstanding := os } }.eraLedger

/-- An outstanding record acknowledged (R338, R417). -/
def State.acknowledged (s : State) (o : Outstanding) : State :=
  { s with erair := { s.erair with acked := Sparse.put s.erair.acked 0 o.cls (Sparse.get s.erair.acked 0 o.cls + 1) } }.setOutstanding
    (s.erair.outstanding.erase o)

/-- The pair desynchronizes for a cause of R341: the Primary releases held frames and discards
its unacknowledged records, and each unit takes its role. -/
def State.desyncOnly (s : State) (cause : Nat) : State :=
  let told (t : State) : State :=
    (t.capture Reg.eraErrorCaptureDesync [(Reg.eraErrorCaptureDesync, cause)]).raise Reg.eraEventDesync
  if s.role = 6 ∨ s.role = 7 then
    let s1 := (told s).setOutstanding []
    (({ s1 with erair := { s1.erair with swap := none, syncAsked := false } }.releaseWaiting).erairSend (.message 7 [cause])).setRoleState
      5 causeDesync
  else if s.role = 3 ∨ s.role = 4 then
    let s1 := (told s).erairSend (.message 7 [cause])
    { s1 with erair := { s1.erair with syncAsked := false, confirming := false } }.setRoleState 2 causeDesync
  else s

/-! Epochs -/

/-- The epoch that a claim takes: the oldest newer than the highest seen whose bit 0 is UNIT (R348). -/
def nextEpoch (highest unit : Nat) : Nat :=
  let e := (highest + 1) % 2 ^ 32
  if e % 2 = unit then e else (e + 1) % 2 ^ 32

/-- A newer epoch seen on a path of R350: HIGHEST rises and is committed (R349). -/
def State.seeEpoch (s : State) (path station e : Nat) : State :=
  if newer 32 e (s.fld Reg.dmpHighestHighest) then
    let s1 := (s.setFields [(Reg.dmpHighestHighest, e), (Reg.dmpErrorCapturePath, path), (Reg.dmpErrorCaptureStation, station),
      (Reg.dmpStatusCommitPending, 1)]).raise Reg.dmpEventHigherSeen
    s1.dirCommit fun d => { d with highest := e }
  else s

/-- The unit claims (R348, R349): epoch, events, count, record and commit. -/
def State.claim (s : State) : State :=
  let h := s.fld Reg.dmpHighestHighest
  let e := nextEpoch h (s.fld Reg.eraControlUnit)
  let s1 := ((s.setFields [(Reg.dmpEpochEpoch, e), (Reg.dmpHighestHighest, e), (Reg.dmpStatusCommitPending, 1)]).count
    Reg.dmpCountsClaims).raise Reg.dmpEventClaimed |>.raise Reg.dmpEventHigherSeen
  (s1.record 0x017 0x01 true [e, h]).dirCommit fun d => { d with highest := e, claim := e }

/-- The old Primary of a planned swap learns of the new claim (R364). -/
def State.swapSeen (s : State) : State :=
  if s.erair.postSwap then { s with erair := { s.erair with postSwap := false } }.raise Reg.eraEventSwapDone else s

/-- What a demotion stops first: the held frames are discarded, and the Solve stops (R351 steps 1 and 5). -/
def State.demoteStop (s : State) : State :=
  let s1 := { s with erair := { s.erair with outstanding := [], swap := none, notices := 0, syncAsked := false } }.eraLedger
  [0, 1, 2].foldl State.abortCycle s1.discardHeld

/-- The steps of a demotion (R351): outputs stop, Hob buffers are cancelled, ports listen, STOPDT, Solve stops, role 2. -/
def State.demoteSteps (s : State) (path epoch : Nat) : State :=
  let s3 := (s.demoteStop.setRoleState 2 causeDemotion).hobDemote.legacyStopAll
  ((s3.count Reg.dmpCountsDemotions).raise Reg.dmpEventDemoted).record 0x017 0x02 true [path, epoch]

/-- The phase of Raking written (R429). -/
def State.rakePhase (s : State) (p : Nat) : State :=
  match s.raking with
  | some k => { s with raking := some ⟨k.off, p, k.stopped⟩ }
  | none => s

/-- Raking once the unit holds no claim (R429): the last heartbeat, role NONE, the retain capture and the Ashpit flush. -/
def State.rakeRest (s : State) : State :=
  let s1 := (s.sendHeartbeat true).setRoleState 0 causeMode
  ((s1.rakePhase 2).setFld Reg.pwrStatusTransition 0).startCapture.ashStartFlush

/-- A unit that rakes and waited for its claim to end goes on (R429). -/
def State.rakeFree (s : State) : State :=
  match s.raking with
  | some k => if k.phase = 1 then s.rakeRest else s
  | none => s

/-- Demotion of R351, after which a unit that rakes goes on (R429). -/
def State.demoteAs (s : State) (path epoch : Nat) : State := (s.demoteSteps path epoch).rakeFree

/-- Raking goes on where no acknowledgement is awaited (R429): role 7 hands over and demotes under steps 1 to 5 of R351, without step 6;
another claimant demotes. -/
def State.rakeGo (s : State) : State :=
  if s.role = 7 then (s.erairSend (.message 1 [])).demoteStop.hobDemote.legacyStopAll.rakeFree
  else if s.claimant then s.demoteAs 0 (s.fld Reg.dmpEpochEpoch)
  else s.rakeFree

/-- A unit in role 7 rakes once its cycles have ended and the last record of each class has been acknowledged (R429). -/
def State.rakeCheck (s : State) : State :=
  match s.raking with
  | some k =>
    if k.phase = 1 ∧ (s.role ≠ 7 ∨ (s.erair.outstanding = [] ∧ ([0, 1, 2].all fun c => (s.cls c).finished))) then s.rakeGo else s
  | none => s

/-- The pair desynchronizes for a cause of R341, after which a unit that rakes goes on (R429). -/
def State.desync (s : State) (cause : Nat) : State := (s.desyncOnly cause).rakeCheck

/-! Held -/

/-- The unit enters Held (R118, R328, R427): synchronization ends, waiting injected writes apply, a claimant sends HOLD and
drives SAFE. -/
def State.enterHeld (s : State) : State :=
  let s1 := ((s.setFld Reg.pwrStatusTransition 0).desync 5).setMode modeHeld
  let s2 := [0, 1, 2].foldl (fun t k => t.onCls k fun rt => { rt with launch := [] }) s1
  s2.classStates.grateUpdate.sendHolds

/-- A HOLD that waits for the running cycles takes effect once every class has finished (R118, R185, R427). -/
def State.holdDue (s : State) : State :=
  if s.bit Reg.pwrStatusTransition && s.raking.isNone && (decide (s.mode = modePrimary) || decide (s.mode = modeStandby)) && [0, 1, 2].all fun k => (s.cls k).finished then s.enterHeld else s

/-- A claimant demotes; another unit does not (R351). -/
def State.demote (s : State) (path epoch : Nat) : State := if s.claimant then s.demoteAs path epoch else s

/-- Another claimant's epoch on a path of R351: the unit demotes where it is newer than its claim. -/
def State.rivalEpoch (s : State) (path station e : Nat) : State :=
  let s1 := (s.seeEpoch path station e).swapSeen
  if s1.claimant && newer 32 e (s.fld Reg.dmpEpochEpoch) then s1.demote path e else s1

/-- The partner is seen and holds no claim (R352). -/
def State.partnerIdle (s : State) : Bool :=
  s.erair.up && (match s.erair.partner with | some h => decide (1 ≤ h.role) && decide (h.role ≤ 4) | none => false)

/-- A station reports an epoch (R351, R352): above the claim it is stray and answered with a new claim, or the unit
demotes. -/
def State.stationEpoch (s : State) (path station e : Nat) : State :=
  let above := s.claimant && newer 32 e (s.fld Reg.dmpEpochEpoch)
  let s1 := (s.seeEpoch path station e).onStation station fun t =>
    if newer 32 e t.epoch then { t with epoch := e } else t
  let s1 := if newer 32 e (s.fld Reg.dmpEpochEpoch) then s1.swapSeen else s1
  if above then
    if s1.partnerIdle && s1.bit Reg.dmpControlStrayReclaim && !s1.erair.clash then (s1.claim.raise Reg.dmpEventStray).sendHolds
    else s1.demote path e
  else s1

end Sys2Proof.Machine
end

