-- ==== Sys2Proof/Machine/StationIn.lean ====
section
/-! DEFINITION. What stations send: image assembly (R268, R310, R317), the event queue (R263, R264, R312), sessions
(R251-R254), and the state machine of a station at Intake (R269-R272, R283). -/

namespace Sys2Proof.Machine

/-- Event `i` of the Chimney page, captured with its station when it is the first (R286). -/
def State.chmRaise (s : State) (n i : Nat) (f : Fld) : State :=
  (s.capture Reg.chmErrorCaptureCode [(Reg.chmErrorCaptureStation, n), (Reg.chmErrorCaptureCode, i + 1)]).raise f

/-- A segment counted BAD (R257, R268). -/
def State.segBad (s : State) (n : Nat) : State :=
  (s.onStation n fun t => { t with bad := satInc 8 t.bad }).chmRaise n 3 Reg.chmEventSegError

/-- A segment counted LAYOUT (R257). -/
def State.segLayout (s : State) (n : Nat) : State :=
  (s.onStation n fun t => { t with layoutN := satInc 8 t.layoutN }).chmRaise n 3 Reg.chmEventSegError

/-- An input word as stored: F and A cleared, V and S as sent (R268). -/
def inputWord (w : W36) : W36 := BitVec.ofNat 36 (withBit (withBit w.toNat 33 false) 32 false)

/-- A received segment of an input image. -/
structure Segment where
  seq : Nat
  idx : Nat
  cnt : Nat
  words : List W36
  ackReq : Bool
  deriving DecidableEq, Repr

/-- The segment fits the station's image: count, index and words as `per` words a segment give them (R268, R310). -/
def Segment.fits (g : Segment) (inCount per : Nat) : Bool :=
  let n := max 1 ((inCount + per - 1) / per)
  decide (g.cnt = n) && decide (g.idx < n) && decide (g.words.length = min per (inCount - per * g.idx))

/-- The assembly with one more segment. -/
def Assembly.add (a : Assembly) (g : Segment) : Assembly :=
  { a with held := a.held ++ [(g.idx, g.words.map inputWord)], ackReq := a.ackReq || g.ackReq }

/-- The words of a whole assembly, in segment order. -/
def Assembly.words (a : Assembly) : List W36 :=
  (List.range a.count).flatMap fun i => match a.held.find? fun h => decide (h.1 = i) with | some h => h.2 | none => []

/-- A whole assembly becomes the COMPLETE image (R268). -/
def StationRt.finishImage (t : StationRt) (now : Nat) : StationRt :=
  match t.assembly with
  | some a =>
    if a.held.length = a.count then
      { t with
        overtaken := if t.complete.isSome then satInc 8 t.overtaken else t.overtaken
        complete := some ⟨a.seq, a.words, now, a.ackReq⟩
        completeSeq := some a.seq, completeAt := some now, assembly := none
        completions := ((a.seq, now) :: t.completions.reverse).take 64 |>.reverse }
    else t
  | none => t

/-- A segment starts an assembly or joins it (R268). -/
def StationRt.takeSegment (t : StationRt) (bits : Nat) (g : Segment) (now : Nat) : StationRt :=
  let fresh : Assembly := ⟨g.seq, g.cnt, [], false⟩
  match t.assembly with
  | some a =>
    if a.seq = g.seq then
      if a.held.any fun h => decide (h.1 = g.idx) then { t with dup := satInc 8 t.dup }
      else ({ t with assembly := some (a.add g) }).finishImage now
    else if newer bits g.seq a.seq then
      ({ t with assembly := some (fresh.add g), abandoned := satInc 16 t.abandoned }).finishImage now
    else { t with stale := satInc 8 t.stale }
  | none => ({ t with assembly := some (fresh.add g) }).finishImage now

/-- The sequence is not newer than the last complete one (R268). -/
def StationRt.isStale (t : StationRt) (bits seq : Nat) : Bool :=
  match t.completeSeq with
  | some c => !newer bits seq c
  | none => false

/-- The segment comes sooner than a quarter of the period after the last image (R268). -/
def StationRt.tooSoon (t : StationRt) (now periodNs : Nat) : Bool :=
  match t.completeAt with
  | some at_ => decide ((now - at_) * 4 < periodNs) && t.assembly.isNone
  | none => false

/-- What a segment leaves in the buffers in DRAM: its words in ASSEMBLY, or the whole image in COMPLETE (R267, R268). -/
def State.fillSegment (s : State) (n : Nat) (g : Segment) : State :=
  match (s.station n).assembly, (s.station n).complete with
  | some a, _ => if a.seq = g.seq then s.fillBuf 0 n (256 * g.idx) (g.words.map inputWord) else s
  | none, some im => if im.seq = g.seq then s.fillBuf 1 n 0 im.words else s
  | none, none => s

/-- One INTAKE segment received at `at_` (R268), with the bus's differences: sequences of 16 bits, 12 words a segment, no rate
check (R317). -/
def State.assemble (s : State) (d : StationDecl) (at_ : Nat) (g : Segment) : State :=
  let bus : Bool := decide (d.kind = 4)
  let bits := if bus then 16 else 32
  let t := s.station d.num
  if t.isStale bits g.seq then s.setStation d.num { t with stale := satInc 8 t.stale }
  else if !bus && t.tooSoon at_ (d.periodNs (s.periodUs d.cls)) then s.setStation d.num { t with rate := satInc 8 t.rate }
  else if g.fits d.inCount (if bus then 12 else 256) then (s.setStation d.num (t.takeSegment bits g at_)).fillSegment d.num g
  else s.segBad d.num

/-! The event queue -/

/-- The entries that the event queue can still take (R264). -/
def State.evqRoom (s : State) : Nat :=
  2 ^ s.fld Reg.chmEvqEntriesLog2 - (s.fld Reg.chmEvqHeadHead + 2 ^ 32 - s.fld Reg.chmEvqTailTail) % 2 ^ 32

/-- One entry of the event queue: station, word, source, time, value (R264). -/
def State.evqPut (s : State) (station word source time : Nat) (value : W36) : State :=
  let head := s.fld Reg.chmEvqHeadHead
  let a := s.fld Reg.chmEvqBaseEvqBase * 2 ^ 20 + 4 * (head % 2 ^ s.fld Reg.chmEvqEntriesLog2)
  (s.blockWrites a [BitVec.ofNat 36 (station + word * 2 ^ 17 + source * 2 ^ 27), BitVec.ofNat 36 (time % 2 ^ 32),
    BitVec.ofNat 36 (time / 2 ^ 32 % 2 ^ 32), value]).countWrap Reg.chmEvqHeadHead

/-- Records queued whole, or none of them (R263). The records are word index, time and value. -/
def State.queueEvents (s : State) (n source : Nat) (recs : List (Nat × Nat × W36)) : Bool × State :=
  if recs.length ≤ s.evqRoom then (true, recs.foldl (fun t r => t.evqPut n r.1 source r.2.1 r.2.2) s)
  else (false, s.chmRaise n 2 Reg.chmEventEvqFull)

/-! Sessions -/

/-- The station bound to session `i`, if any, is bound no longer (R254). -/
def State.unbind (s : State) (i : Nat) : State :=
  match (s.session i).station with
  | some n => if (s.station n).session = some i then s.onStation n fun t => { t with session := none } else s
  | none => s

/-- A session closed: its station is bound no longer (R253, R254, R288). -/
def State.closeSessionAt (s : State) (i : Nat) : State :=
  let x := s.session i
  if x.phase = 0 then s else ((s.unbind i).sendDtls i x.port 6).setSession i Session.none

/-- The oldest frame of a kind that waits on a session with its stamp, and the session without it. -/
def Session.takeFrame (x : Session) (kind : Nat) : Option ((Nat × List Byte) × Session) :=
  (x.inbox.find? fun f => decide (field f.2 0 1 % 16 = kind)).map fun f => (f, { x with inbox := x.inbox.erase f })

/-- A legacy connection is established: TLS has completed (R278). -/
def StationRt.connected (t : StationRt) : Bool := decide (3 ≤ t.legacy)

/-! The station state array -/

/-- The station is bound: by its session, by its connection, or by a frame within its age limit (R272, R317). -/
def State.stationBound (s : State) (d : StationDecl) : Bool :=
  let t := s.station d.num
  if d.kind = 1 then t.session.isSome
  else if d.kind = 2 then t.connected
  else match t.heard with
    | some h => decide (s.now - h ≤ d.limitNs (s.periodUs d.cls))
    | none => false

/-- The station's word in the station state array (R272). A change of state carries the class cycle number. -/
def State.stateWord (s : State) (d : StationDecl) (changed : Bool) : State :=
  let a := s.fld Reg.chmStateBaseStateBase * 2 ^ 16 + d.num
  let t := s.station d.num
  let cycle := if changed then s.fld (Reg.blwClCycleLoCycleLo d.cls) % 2 ^ 28 else (s.dramWord a).toNat / 16 % 2 ^ 28
  s.blockWrite a (plainWord (t.state + 4 * bit01 t.aged + 8 * bit01 (s.stationBound d) + 16 * cycle))

/-- CHM_DROPPED follows the stations in DROPPED or DISABLED (R286). -/
def State.refreshDropped (s : State) : State :=
  s.setFld Reg.chmDroppedDropped ((s.decls.filter fun d => decide (2 ≤ (s.station d.num).state)).length)

/-- A command moves a station to an image state: its word in the state array, and with `2` the ring entry of a drop, are made at the
class's next Intake (R271, R272). -/
def State.commandState (s : State) (d : StationDecl) (v due : Nat) : State :=
  (s.onStation d.num fun t => { t with state := v, aged := false, due := max t.due due }).refreshDropped

/-- A station enters an image state (R271). -/
def State.setImageState (s : State) (d : StationDecl) (v : Nat) : State :=
  ((s.onStation d.num fun t => { t with state := v, aged := false }).stateWord d true).refreshDropped

/-- A drop (0) or restore (1) enters the class's event ring, is counted, and queues the error task (R128, R212, R271). -/
def State.ringEntry (s : State) (d : StationDecl) (kind : Nat) : State :=
  let s1 := s.onStation d.num fun t =>
    if kind = 0 then { t with drops := satInc 16 t.drops } else { t with restores := satInc 16 t.restores }
  let w0 : W36 := BitVec.ofNat 32 (d.num + kind * 2 ^ 17) |>.setWidth 36
  let w1 : W36 := BitVec.ofNat 36 (s.cycle d.cls % 2 ^ 32)
  (s1.ringPut d.cls d.num kind).onCls d.cls fun rt => { rt with
    errStation := true, errDue := true, eventsLog := rt.eventsLog ++ [(w0, w1)] }

/-! A station at Intake -/

/-- At a boundary, COMPLETE moves to LATCHED where the image was complete before it, and the age of the inputs counts from it
(R269, R271). -/
def StationRt.latch (t : StationRt) (bound : Nat) : StationRt :=
  match t.complete with
  | some c => if c.time < bound then { t with latched := some c, complete := none, ageFrom := some c.time } else t
  | none => t

/-- The age of a station's inputs at a boundary, in ns (R271, R283). -/
def StationRt.ageNs (t : StationRt) (bound : Nat) : Nat :=
  match t.ageFrom with
  | some a => bound - a
  | none => 0

/-- The stations of class `k`. -/
def State.classDecls (s : State) (k : Nat) : List StationDecl := s.decls.filter fun d => decide (d.cls = k)

/-- Every station of class `k` at a boundary at `bound` (R269). -/
def State.latchClass (s : State) (k bound : Nat) : State :=
  (s.classDecls k).foldl (fun t d =>
    let u := t.onStation d.num fun r => r.latch bound
    match (u.station d.num).latched with
    | some im => u.fillBuf 2 d.num 0 im.words
    | none => u) s

/-- The words of an image written to the station's input ranges, as ordinary writes, with their forces to follow
(R117, R269). -/
def State.writeInputs (s : State) (d : StationDecl) (ws : List W36) : State :=
  ((d.inWords.zip ws).foldl (fun t x => t.writeWord x.1 x.2) s).flueIntake d

/-- A latched image applied: its words land together, its age counts from its completion, and it is acknowledged where it
asks so (R262, R269, R271, R311). -/
def State.applyImage (s : State) (d : StationDecl) (im : Image) : State :=
  let was := (s.station d.num).state
  let s1 := s.writeInputs d im.words
  let s2 := s1.onStation d.num fun t => { t with
    latched := none, lastSeq := im.seq, ageFrom := some im.time, aged := false
    completions := t.completions.filter fun c => decide (im.time < c.2) }
  let s3 := s2.onCls d.cls fun rt => { rt with stationsLog := rt.stationsLog ++ [(d.num, im.seq)] }
  let s4 := if im.ackReq && d.kind = 1 then s3.sendAck d 2 im.seq
    else if im.ackReq && d.kind = 4 then s3.hobQueue d.hobPort [s3.hobAckFrame d im.seq 0] else s3
  if was = 1 then s4
  else if was = 2 then (s4.setImageState d 1).ringEntry d 1
  else s4.setImageState d 1

/-- The received words of a legacy station applied (R282, R283). -/
def State.applyLegacy (s : State) (d : StationDecl) : State :=
  let t := s.station d.num
  let s1 := t.rxWords.foldl (fun u x => u.writeWord (imageWord d.iwBase + x.1) x.2) s
  (s1.flueIntake d).onStation d.num fun t => { t with rxWords := [], rxNew := false }

/-- The input words rewritten with A set or cleared (R271, R283). -/
def State.writeAged (s : State) (d : StationDecl) (b : Bool) : State :=
  ((d.inWords.foldl (fun t w => t.writeWord w (BitVec.ofNat 36 (withBit (t.readCur w).toNat 32 b))) s).flueIntake d).onStation d.num
    fun t => { t with aged := b }

/-- Substitutes on a station's inputs (R117, R124). -/
def State.substInputs (s : State) (d : StationDecl) : State := (s.applySubst d.inWords).flueIntake d

/-- The station drops: substitutes and its ring entry (R271). -/
def State.dropStation (s : State) (d : StationDecl) : State :=
  ((s.substInputs d).setImageState d 2).ringEntry d 0

/-- A station on a sleeping bus: its age is held at zero (R321). -/
def State.asleep (s : State) (d : StationDecl) : Bool := decide (d.kind = 4) && decide (s.hobEff d.hobPort = 5)

/-- The ages of the stations of class `k` at a boundary (R288); those of a sleeping bus are held at zero (R321). -/
def State.ageClass (s : State) (k bound : Nat) : State :=
  (s.classDecls k).foldl (fun t d => t.onStation d.num fun r => { r with ageMs := if t.asleep d then 0 else r.ageNs bound / 1000000 }) s

/-- A WAITING station without an image (R271). -/
def State.waitIntake (s : State) (d : StationDecl) (bound : Nat) : State :=
  match (s.station d.num).waitFrom with
  | none => s.onStation d.num fun t => { t with waitFrom := some bound }
  | some a => if d.limitNs (s.periodUs d.cls) < bound - a then s.dropStation d else s

/-- A LIVE station without a new image (R271). -/
def State.liveIntake (s : State) (d : StationDecl) (bound : Nat) : State :=
  let t := s.station d.num
  let age := t.ageNs bound
  if d.limitNs (s.periodUs d.cls) < age then s.dropStation d
  else if d.warnNs (s.periodUs d.cls) < age then (if t.aged then s else s.writeAged d true)
  else if t.aged && d.kind = 2 then s.writeAged d false
  else s

/-- An APDU has come within the age limit (R283). -/
def State.heardLately (s : State) (d : StationDecl) (bound : Nat) : Bool :=
  match (s.station d.num).heard with
  | some h => decide (bound - h ≤ d.limitNs (s.periodUs d.cls))
  | none => false

/-- A legacy station at Intake: a started connection counts as an image (R283). -/
def State.legacyIntake (s : State) (d : StationDecl) (bound : Nat) : State :=
  let t := s.station d.num
  let image : Bool := decide (t.legacy = 4) && s.heardLately d bound
  if t.state = 1 then
    let u := s.liveIntake d bound
    if t.rxNew && decide ((u.station d.num).state = 1) then u.applyLegacy d else u
  else if image then
    let u := s.applyLegacy d
    if t.state = 2 then (u.setImageState d 1).ringEntry d 1 else u.setImageState d 1
  else if t.state = 0 then s.waitIntake d bound
  else s.substInputs d

/-- One station of class `k` at the Intake of the boundary at `bound` (R269-R272, R283): what a command left due comes first. -/
def State.stationIntake (s : State) (d : StationDecl) (bound : Nat) : State :=
  let s0 := if s.asleep d then s.onStation d.num fun t => { t with ageFrom := some bound } else s
  let s1 := if (s0.station d.num).due = 2 then s0.ringEntry d 0 else s0
  let t := s1.station d.num
  let s2 :=
    if t.state = 3 then s1.substInputs d
    else if d.kind = 2 then s1.legacyIntake d bound
    else match t.latched with
      | some im => s1.applyImage d im
      | none =>
        if t.state = 0 then s1.waitIntake d bound
        else if t.state = 1 then s1.liveIntake d bound
        else s1.substInputs d
  let s3 := s2.onStation d.num fun r =>
    if s.asleep d then { r with ageFrom := some bound, ageMs := 0 } else { r with ageMs := r.ageNs bound / 1000000 }
  let s4 := if (s3.station d.num).state = t.state then s3.stateWord d (decide (t.due ≠ 0)) else s3
  s4.onStation d.num fun r => { r with due := 0 }

end Sys2Proof.Machine
end

