-- ==== Sys2Proof/Machine/Chimney.lean ====
section
/-! DEFINITION. The commands of the Chimney: sessions (R251-R254), Draught frames (R256-R264), repeats (R273, R274), the
station page (R288), and Ethernet ports (R249, R250, R287, R37). -/

namespace Sys2Proof.Machine

/-- ERROR_CAPTURE of an Ethernet port: the event bit first set, one-hot (R287, log 20). -/
def State.chmXRaise (s : State) (x i : Nat) (f : Fld) : State :=
  (s.capture (Reg.chmXErrorCaptureFirst x) [(Reg.chmXErrorCaptureFirst x, 2 ^ i)]).raise f

/-- A received datagram discarded (R249, R250). -/
def State.rxDrop (s : State) (x : Nat) : State := s.count (Reg.chmXRxDropsRxDrops x)

/-- CHM_SESSIONS and CHM_BOUND (R286). -/
def State.refreshSessions (s : State) : State :=
  let dtls := (s.sessions.filter fun e => decide (2 ≤ e.2.phase)).length
  let legacy := (s.stations.filter fun e => e.2.connected).length
  s.setFields [(Reg.chmSessionsSessions, dtls + legacy),
    (Reg.chmBoundBound, (s.sessions.filter fun e => decide (e.2.phase = 3)).length)]

/-- The MTU of a port (R249). -/
def State.mtu (s : State) (x : Nat) : Nat := if s.bit (Reg.chmXControlJumbo x) then 9000 else 1500

/-- A frame's VLAN is accepted: one of the port's VLANs, or untagged where no VLAN entry is valid (R249). -/
def State.vlanTakes (s : State) (x : Nat) (tag : Option (BitVec 12)) : Bool :=
  match tag with
  | none => (List.range 8).all fun v => !s.bit (Reg.chmXVlanValid x v)
  | some t => (List.range 8).any fun v => s.bit (Reg.chmXVlanValid x v) && decide (s.fld (Reg.chmXVlanVid x v) = t.toNat)

/-- A port carries a role (R250, R287). -/
def State.hasRole (s : State) (x : Nat) (r : EthRole) : Bool :=
  match r with
  | .stations => s.bit (Reg.chmXControlStations x)
  | .host => s.bit (Reg.chmXControlHost x)
  | .witness => s.bit (Reg.chmXControlWitness x)
  | .ptp => s.bit (Reg.chmXControlPtp x)

/-- A received station datagram: counted, and taken where the port's VLANs, MTU and role let it in and it is sent to CHM_UDP_PORT;
else discarded and counted (R249-R251; that a wrong VLAN, size or UDP port counts in RX_DROPS is a DESIGN CHOICE, log 68). -/
def State.receive (s : State) (d : Datagram) (k : State → State) : State :=
  let x := d.port.val
  if s.chmOn && s.chmPortUp x then
    let s1 := s.countWrap (Reg.chmXRxFramesRxFrames x)
    if s.vlanTakes x d.vlan && decide (d.size ≤ s.mtu x) && s.hasRole x .stations && decide (d.udpPort.toNat = s.fld Reg.chmUdpPortPort) then
      k s1
    else s1.rxDrop x
  else s

/-! Sessions -/

/-- A handshake that fails: alert, event, no session, and no station bound to it (R251, R254). -/
def State.handshakeFail (s : State) (i : Nat) (h : Handshake) : State :=
  ((((s.unbind i).setSession i Session.none).sendDtls i h.dg.port.val 4).chmRaise 0 0 Reg.chmEventHandshakeFail).refreshSessions

/-- Handshakes begun in the current second, counted by the seconds of the Bellows count of ns (DESIGN CHOICE, log 69). A message that
brings a cookie back, or that goes on with a handshake of the session, begins none. -/
def State.noteHandshake (s : State) (i : Nat) (h : Handshake) : State :=
  let sec := s.bellows.ns / 1000000000
  let x := s.session i
  if h.cookieValid || (decide (x.phase = 1) && decide (x.peer = h.dg.peer)) then s
  else { s with handshakes := if s.handshakes.1 = sec then (sec, s.handshakes.2 + 1) else (sec, 1) }

/-- The handshakes begun in the current second. -/
def State.handshakeRate (s : State) : Nat := if s.handshakes.1 = s.bellows.ns / 1000000000 then s.handshakes.2 else 0

/-- The handshake rate exceeds CHM_HANDSHAKE_RATE (R251). -/
def State.rateExceeded (s : State) : Bool := decide (s.fld Reg.chmHandshakeRateRate < s.handshakeRate)

/-- A handshake that the device can take: what it offers is supported, a chain of at most 3 certificates, or a pre-shared key
while certificates are not required, and a connection ID of no or 8 bytes (R251). -/
def State.takesHandshake (s : State) (h : Handshake) : Bool :=
  h.supported && h.authentic && decide (h.cid = 0 ∨ h.cid = 8) &&
    (if h.preShared then !s.bit Reg.chmControlRequireCert else decide (h.chain ≤ 3))

/-- The identity of a station: the first 64 bits of the SHA-384 of its SubjectPublicKeyInfo or PSK identity (R252). -/
def identityOf (credential : List Byte) : Nat :=
  let ws := sha384 credential
  (ws.getD 0 0).toNat * 2 ^ 32 + (ws.getD 1 0).toNat

/-- The session that a handshake leaves. -/
def State.newSession (s : State) (h : Handshake) : Session :=
  { Session.none with
    port := h.dg.port.val, peer := h.dg.peer, identity := identityOf h.credential, phase := if h.finished then 2 else 1
    cid := h.cid, keyedNs := s.bellows.ns, heardNs := s.bellows.ns }

/-- A handshake message on a station port (R251, R252). -/
def State.handshake (s : State) (i : Nat) (h : Handshake) : State :=
  let x := h.dg.port.val
  if s.rateExceeded && !h.cookieValid then s.sendDtls i x 1
  else if !s.takesHandshake h then s.handshakeFail i h
  else (((s.closeSessionAt i).setSession i (s.newSession h)).sendDtls i x (if h.finished then 3 else 2)).refreshSessions

/-- DTLS_HANDSHAKE (R250-R252). 0-RTT data is refused: it carries nothing into the session. -/
def execDtlsHandshake (i : Nat) (h : Handshake) (s : State) : Result :=
  .next (s.receive h.dg fun t => (t.noteHandshake i h).handshake i h)

/-- A KeyUpdate is due: 2^24 records in a direction, or 24 h (R251). -/
def Session.keyDue (x : Session) (ns : Nat) : Bool :=
  decide (2 ^ 24 ≤ x.rx) || decide (2 ^ 24 ≤ x.tx) || decide (x.keyedNs + 86400 * 1000000000 ≤ ns)

/-- DTLS_KEY_UPDATE (R251): the records of both directions count from 0 again under the new keys (log 71). -/
def execDtlsKeyUpdate (i : Nat) (s : State) : Result :=
  let x := s.session i
  if decide (2 ≤ x.phase) && x.keyDue s.bellows.ns then
    .next ((s.setSession i { x with rx := 0, tx := 0, top := 0, window := [], keyedNs := s.bellows.ns }).sendDtls i x.port 5)
  else .next s

/-- A record's sequence passes the anti-replay window of 64 (R253). -/
def Session.fresh (x : Session) (seq : Nat) : Bool := x.window.isEmpty || (decide (x.top < seq + 64) && !x.window.contains seq)

/-- The session after an accepted record: its peer and port are those of the record (R253). -/
def Session.accept (x : Session) (d : Datagram) (seq ns : Nat) : Session :=
  let top := max x.top seq
  { x with port := d.port.val, peer := d.peer, top := top, rx := x.rx + 1, heardNs := ns
           window := (seq :: x.window).filter fun n => decide (top < n + 64) }

/-- A Draught frame that the unit takes from a station: long enough, version 1, a kind that stations send (R256-R258). -/
def draughtTakes (f : List Byte) : Bool :=
  let k := field f 0 1 % 16
  decide (24 ≤ f.length) && decide (field f 0 1 / 16 = 1) && (decide (k = 1) || decide (k = 2) || decide (k = 4) || decide (k = 6))

/-- The stamp of a frame received on a port: system time, corrected by the port's receive latency (R379). -/
def State.ethStamp (s : State) (x : Nat) : Nat := s.now - (if s.turnspitOn then Sparse.get s.turnspit.rxLat 0 x else 0)

/-- The Draught stations whose identity is that of a session (R252). -/
def State.identified (s : State) (x : Session) : List Nat :=
  (s.decls.filter fun d => decide (d.kind = 1) && decide (d.idHash = x.identity)).map (·.num)

/-- An authenticated record's frame passed on, with the port of the record noted for the station: the bound one, or where none is those
that have the session's identity (R252, R253, R256, R257, R288). -/
def State.passFrame (s : State) (i : Nat) (f : List Byte) : State :=
  let x := s.session i
  let queued (t : State) : State := t.setSession i { x with inbox := x.inbox ++ [(s.ethStamp x.port, f)] }
  match x.station with
  | some n =>
    let s1 := s.onStation n fun t => { t with port := x.port }
    if !draughtTakes f then s1 else if field f 2 3 = n then queued s1 else s1.segBad n
  | none =>
    let s1 := (s.identified x).foldl (fun t n =>
      if (t.station n).session.isNone then t.onStation n fun r => { r with port := x.port } else t) s
    if draughtTakes f && decide (field f 0 1 % 16 = 1) then queued s1 else s1

/-- DTLS_RECORD (R250, R253, R256, R257). -/
def execDtlsRecord (i : Nat) (port : Fin 40) (h : UdpHead) (seq : Nat) (authentic : Bool) (frame : List Byte) (s : State) : Result :=
  .next (s.receive (h.at port) fun t =>
    let x := t.session i
    if authentic && decide (2 ≤ x.phase) && x.fresh seq then (t.setSession i (x.accept (h.at port) seq t.bellows.ns)).passFrame i frame else t)

/-- No authenticated record for CHM_SESSION_IDLE seconds (R253). -/
def State.idleDue (s : State) (i : Nat) : Bool :=
  decide ((s.session i).heardNs + s.fld Reg.chmSessionIdleSeconds * 1000000000 ≤ s.bellows.ns)

/-- SESSION_IDLE_TIMEOUT (R253). -/
def execSessionIdleTimeout (i : Nat) (s : State) : Result :=
  .next (if s.idleDue i then (s.closeSessionAt i).refreshSessions else s)

/-- The RESULT code that a BIND meets first, in the order 8, 1, 2, 6, 5, 3, 4 (R261). -/
def State.bindResult (s : State) (x : Session) (d : Option StationDecl) (f : List Byte) : Nat :=
  if !s.bit Reg.chmControlAcceptBind then 8
  else match d with
    | none => 1
    | some d =>
      if x.identity ≠ d.idHash then 2
      else if field f 24 2 < 1 then 6
      else if (s.station d.num).state = 3 then 5
      else if field f 16 4 ≠ d.layoutHash then 3
      else if field f 26 2 ≠ d.inCount ∨ field f 28 2 ≠ d.outCount then 4
      else 0

/-- The device's answer to a BIND (R261). -/
def State.answerBind (s : State) (i n result : Nat) (d : Option StationDecl) : State :=
  match d with
  | some d =>
    s.sendOn i n (s.draughtHeader n 1 0 1 0 d.layoutHash 0 ++ [BitVec.ofNat 8 result, BitVec.ofNat 8 d.cls, 0, 0]
      ++ beBytes 4 (d.period (s.periodUs d.cls)) ++ beBytes 4 (s.outTimeout d) ++ beBytes 4 (s.station n).lastSeq
      ++ beBytes 4 (s.outPeriod d))
  | none => s.sendOn i n (s.draughtHeader n 1 0 1 0 0 0 ++ [BitVec.ofNat 8 result] ++ List.replicate 19 0)

/-- The session bound to a station; an older session of it is closed (R254). -/
def State.bindSession (s : State) (i n : Nat) : State :=
  let s1 := match (s.station n).session with
    | some old => if old = i then s else s.closeSessionAt old
    | none => s
  let x := s1.session i
  ((s1.setSession i { x with station := some n, phase := 3 }).onStation n fun t => { t with session := some i, port := x.port }).refreshSessions

/-- The Draught declaration of a station number. -/
def State.draughtDecl (s : State) (n : Nat) : Option StationDecl := (s.decl n).filter fun d => decide (d.kind = 1)

/-- DRAUGHT_BIND (R252, R254, R261, R274, R276). -/
def execDraughtBind (i : Nat) (s : State) : Result :=
  match (s.session i).takeFrame 1 with
  | none => .next s
  | some ((_, f), x) =>
    let n := field f 2 3
    let d := s.draughtDecl n
    let s1 := s.setSession i x
    let s2 := s1.stationEpoch 4 n (field f 12 4)
    let result := s2.bindResult x d f
    if result = 0 then
      let s3 := (s2.bindSession i n).answerBind i n 0 d
      match d with
      | some d => .next (s3.sendHold d)
      | none => .next s3
    else .next ((s2.answerBind i n result d).chmRaise n 1 Reg.chmEventBindRefused)

/-- The bound station's declaration and its next frame of a kind, with its stamp. -/
def State.boundFrame (s : State) (i kind : Nat) : Option (StationDecl × (Nat × List Byte) × State) :=
  match (s.session i).takeFrame kind with
  | none => none
  | some (f, x) => match x.station.bind s.draughtDecl with
    | some d => some (d, f, s.setSession i x)
    | none => none

/-- An INTAKE frame, with its length and layout checked (R257, R259, R268). -/
def State.intakeFrame (s : State) (d : StationDecl) (stamp : Nat) (f : List Byte) : State :=
  let words := field f 20 2
  let body := f.drop 24
  if field f 16 4 ≠ d.layoutHash then s.segLayout d.num
  else if body.length ≠ (words + 1) / 2 * 9 then s.segBad d.num
  else s.assemble d stamp ⟨field f 8 4, field f 5 1, field f 6 1, unpackWords body words, (field f 1 1).testBit 0⟩

/-- DRAUGHT_INTAKE (R257, R259, R268, R276). -/
def execDraughtIntake (i : Nat) (s : State) : Result :=
  match s.boundFrame i 2 with
  | none => .next s
  | some (d, (stamp, f), t) => .next ((t.stationEpoch 4 d.num (field f 12 4)).intakeFrame d stamp f)

/-- DRAUGHT_ACK (R262, R276). -/
def execDraughtAck (i : Nat) (s : State) : Result :=
  match s.boundFrame i 4 with
  | none => .next s
  | some (d, (_, f), t) =>
    let u := t.stationEpoch 4 d.num (field f 12 4)
    if field f 28 1 = 3 then .next (u.onStation d.num fun r => { r with outAck := field f 24 4 }) else .next u

/-- The records of an EVENT frame (R263). -/
def draughtEvents (f : List Byte) : List (Nat × Nat × W36) :=
  (List.range ((f.length - 24) / 16)).map fun i =>
    let a := 24 + 16 * i
    (field f (a + 8) 2, field f a 8, BitVec.ofNat 36 (field f (a + 10) 1 % 16 * 2 ^ 32 + field f (a + 12) 4))

/-- The EVENT frame is well formed and the station may send it (R263, R265). -/
def eventFrameGood (d : StationDecl) (f : List Byte) : Bool :=
  let n := (f.length - 24) / 16
  d.events && decide (field f 20 2 = 0) && decide ((f.length - 24) % 16 = 0) && decide (1 ≤ n) && decide (n ≤ 64) &&
    (draughtEvents f).all fun r => decide (r.1 < d.inCount)

/-- DRAUGHT_EVENT (R262-R264). -/
def execDraughtEvent (i : Nat) (s : State) : Result :=
  match s.boundFrame i 6 with
  | none => .next s
  | some (d, (_, f), t) =>
    if eventFrameGood d f then
      let (ok, u) := t.queueEvents d.num 0 (draughtEvents f)
      if ok then .next (u.sendAck d 6 (field f 8 4)) else .next u
    else .next (t.segBad d.num)

/-- OUTLAY_REPEAT (R273, R313): the last released image of an OUT_MODE 1 station again, under its own sequence. -/
def execOutlayRepeat (n : Nat) (s : State) : Result :=
  match s.decl n with
  | none => .next s
  | some d =>
    let t := s.station n
    if s.drives && !s.cannotSolve && d.outMode && t.outValid && s.reached d then
      if d.kind = 1 then .next (s.sendOutlayFrames d t.outSeq t.out)
      else if d.kind = 4 then .next (s.sendBusFrames d (s.hobImageFrames d t.outSeq t.out) false)
      else .next s
    else .next s

/-- HOLD_REPEAT (R274, R313). -/
def execHoldRepeat (n : Nat) (s : State) : Result :=
  match s.decl n with
  | none => .next s
  | some d => .next (s.sendHold d)

/-! The station page -/

/-- The sessions that have a station's identity and are not bound (R252, R288). -/
def State.unboundSessions (s : State) (d : StationDecl) : List Nat :=
  (s.sessions.filter fun e => decide (e.2.identity = d.idHash) && decide (1 ≤ e.2.phase) && decide (e.2.phase ≤ 2)).map (·.1)

/-- The phase of the session that has a station's identity, where none is bound: 1 handshake, 2 established (R252, R288). -/
def State.unboundPhase (s : State) (d : StationDecl) : Nat := ((s.unboundSessions d).map fun i => (s.session i).phase).foldl max 0

/-- SESSION of STN_ENTRY_INFO (R288): a legacy connection whose TLS handshake is not done is in its handshake; established, it is
stopped until it is started (R279). -/
def State.sessionCode (s : State) (d : StationDecl) : Nat :=
  let t := s.station d.num
  if d.kind = 1 then (if t.session.isSome then 3 else s.unboundPhase d)
  else if d.kind = 2 then (if t.legacy = 4 then 4 else if t.legacy = 3 then 5 else min 1 t.legacy)
  else 0

/-- The view of a station loaded into the station page (R288, R317). A bus station shows TYPE 4 and PORT 0 (DESIGN CHOICE, log 118). -/
def State.stationView (s : State) (n : Nat) : State :=
  let t := match s.decl n with | some _ => s.station n | none => StationRt.fresh
  let (kind, cls) := match s.decl n with | some d => (d.kind, d.cls) | none => (0, 0)
  let a : Assembly := t.assembly.getD ⟨0, 0, [], false⟩
  s.setFields [
    (Reg.stnSelectStation, n), (Reg.stnEntryInfoType, kind), (Reg.stnEntryInfoClass, cls),
    (Reg.stnEntryInfoImageState, t.state), (Reg.stnEntryInfoSession, match s.decl n with | some d => s.sessionCode d | none => 0),
    (Reg.stnEntryInfoAged, bit01 t.aged), (Reg.stnEntryInfoPort, if kind = 4 then 0 else t.port),
    (Reg.stnLastSeqLastSeq, t.lastSeq), (Reg.stnCompleteSeqCompleteSeq, t.completeSeq.getD 0),
    (Reg.stnAssemblySeqAssemblySeq, a.seq), (Reg.stnAssemblyHeld, a.held.length), (Reg.stnAssemblyCount, a.count),
    (Reg.stnAgeAgeMs, t.ageMs), (Reg.stnEpochEpoch, t.epoch), (Reg.stnDropsDrops, t.drops),
    (Reg.stnDropsRestores, t.restores), (Reg.stnDiscardsStale, t.stale), (Reg.stnDiscardsDup, t.dup),
    (Reg.stnDiscardsBad, t.bad), (Reg.stnDiscardsLayout, t.layoutN), (Reg.stnLossesAbandoned, t.abandoned),
    (Reg.stnLossesOvertaken, t.overtaken), (Reg.stnLossesRate, t.rate), (Reg.stnOutAckOutAck, t.outAck)]

/-- STN_SELECT (R288). -/
def execStnSelect (r : Requester) (n : BitVec 17) (s : State) : Result :=
  .next (s.writeAs r 0x140 0x020 fun t => t.stationView n.toNat)

/-- A station command: one that names no station is captured (R288). -/
def State.stnCommand (s : State) (r : Requester) (n op : Nat) (k : StationDecl → State → State) : State :=
  s.writeAs r 0x140 0x050 fun t =>
    match t.decl n with
    | some d => k d t
    | none => t.capture Reg.stnErrorCaptureValid
        [(Reg.stnErrorCaptureStation, n), (Reg.stnErrorCaptureOp, op), (Reg.stnErrorCaptureValid, 1)]

/-- STATION_DISABLE (R271, R272, R288): DISABLED; the substitutes, and unless already dropped the ring entry, come at the class's next
Intake. -/
def execStationDisable (r : Requester) (n : BitVec 17) (s : State) : Result :=
  .next (s.stnCommand r n.toNat 2 fun d t =>
    match (t.station d.num).state with
    | 3 => t
    | 2 => t.commandState d 3 1
    | _ => t.commandState d 3 2)

/-- STATION_ENABLE (R271, R288): a disabled station waits for its image again. -/
def execStationEnable (r : Requester) (n : BitVec 17) (s : State) : Result :=
  .next (s.stnCommand r n.toNat 3 fun d t =>
    if (t.station d.num).state = 3 then (t.commandState d 0 1).onStation d.num fun u => { u with waitFrom := none } else t)

/-- CLEAR_COUNTERS (R288). -/
def execClearCounters (r : Requester) (n : BitVec 17) (s : State) : Result :=
  .next (s.stnCommand r n.toNat 4 fun d t =>
    t.onStation d.num fun u => { u with
      drops := 0, restores := 0, stale := 0, dup := 0, bad := 0, layoutN := 0, abandoned := 0, overtaken := 0, rate := 0 })

/-! Ethernet ports -/

/-- An address of port `x` that is in use (R249, R287): entries 0 to 7, IPv4 in the last word. -/
def State.ownAddress (s : State) (x : Nat) (addr : Nat) (v6 : Bool) : Bool :=
  (List.range 8).any fun i =>
    let ctl := s.addrCtl x i
    ctl.testBit 12 && decide (ctl.testBit 8 = v6) && decide ((if v6 then s.addrOf x i else s.addrOf x i % 2 ^ 32) = addr)

/-- ARP_REQUEST (R249): Chimney firmware answers, where it runs. -/
def execArpRequest (x : Fin 40) (vlan : Option (BitVec 12)) (target : IpTarget) (s : State) : Result :=
  .next (if s.chmPortUp x.val then
    let s1 := s.countWrap (Reg.chmXRxFramesRxFrames x.val)
    if !s.vlanTakes x.val vlan then s1.rxDrop x.val
    else if s.compUp 2 && s.ownAddress x.val target.addr.toNat target.v6 then s1.sendEth x.val (.arp x.val target.addr.toNat)
    else s1
  else s)

/-- A speed that a port's mode has (R248). -/
def modeSpeed (mode speed : Nat) : Bool :=
  if mode = 1 then decide (speed = 2) else if mode = 2 then decide (speed ≤ 2) else decide (mode = 3) && decide (speed = 3)

/-- The link of a port comes up at a speed, or goes (R287). -/
def State.setEthLink (s : State) (x : Nat) (up : Bool) (speed : Nat) : State :=
  (s.setFields [(Reg.chmXStatusLink x, bit01 up), (Reg.chmXStatusSpeed x, if up then speed else 0)]).chmXRaise x 0
    (Reg.chmXEventLinkChange x)

/-- ETH_LINK_CHANGE (R248, R287): a link comes up on a port in service, at a speed of its mode; a link that is up may always go. -/
def execEthLinkChange (x : Fin 40) (up : Bool) (speed : BitVec 2) (s : State) : Result :=
  .next (if s.bit (Reg.chmXStatusLink x.val) = up then s
  else if up = false ∨ (s.chmPortUp x.val && modeSpeed (s.fld (Reg.chmXControlMode x.val)) speed.toNat) = true then
    s.setEthLink x.val up speed.toNat
  else s)

/-- A port's mode written: the link of the mode before goes with it (R248, R287; DEDUCED, log 147). -/
def State.modeWritten (s before : State) (x : Nat) : State :=
  if s.fld (Reg.chmXControlMode x) ≠ before.fld (Reg.chmXControlMode x) ∧ s.bit (Reg.chmXStatusLink x) then s.setEthLink x false 0 else s

/-- A frame is one that the port discards (R249, R250). -/
def State.discards (s : State) (x : Nat) (why : EthDiscard) : Bool :=
  match why with
  | .vlan tag => !s.vlanTakes x tag
  | .tooLong size => decide (s.mtu x < size)
  | .wrongRole r => !s.hasRole x r
  | _ => true

/-- ETH_FRAME_DISCARD (R249, R250, R287). -/
def execEthFrameDiscard (x : Fin 40) (why : EthDiscard) (s : State) : Result :=
  .next (if s.chmPortUp x.val && s.discards x.val why then
    let s1 := (s.countWrap (Reg.chmXRxFramesRxFrames x.val)).rxDrop x.val
    match why with
    | .badFcs => s1.chmXRaise x.val 1 (Reg.chmXEventRxFcs x.val)
    | .overflow => s1.chmXRaise x.val 2 (Reg.chmXEventRxOverflow x.val)
    | _ => s1
  else s)

end Sys2Proof.Machine
end

