-- ==== Sys2Proof/Machine/Legacy.lean ====
section
/-! DEFINITION. Legacy stations (R278-R284): connections and their retries, APDUs, commands and interrogations. -/

namespace Sys2Proof.Machine

/-- The legacy declaration of a station number. -/
def State.legacyDecl (s : State) (n : Nat) : Option StationDecl := (s.decl n).filter fun d => decide (d.kind = 2)

/-- The runtime of a connection that has just opened or gone: nothing outstanding, nothing received. -/
def StationRt.freshLink (t : StationRt) : StationRt :=
  { t with sendSeq := 0, recvSeq := 0, unacked := 0, unsent := 0, waitI := [], uOut := 0, interrogating := false, testOut := false, pendingCmds := [] }

/-- The interval before the next attempt: T1 first, then doubling up to 300 s (R278). -/
def nextRetry (t1 last : Nat) : Nat := if last = 0 then t1 else min 300 (2 * last)

/-- The lowest-numbered port that carries station traffic: connections are opened over it (DESIGN CHOICE, log 72). -/
def State.openPort (s : State) : Option Nat := (List.range 40).find? s.stationPort

/-- A connection opened to the station's address (R278), over a port that remains (R37); none where no port carries station
traffic. -/
def State.legacyOpenTcp (s : State) (d : StationDecl) : State :=
  match s.openPort with
  | none => s
  | some x =>
    (s.onStation d.num fun t => { t.freshLink with legacy := 1, via := x }).sendEth x
      (.tcpOpen d.num (s.route x ⟨BitVec.ofNat 128 d.addr, BitVec.ofNat 16 d.tcpPort⟩))

/-- A connection fails or closes: its retry is scheduled (R278). -/
def State.legacyLost (s : State) (d : StationDecl) : State :=
  (s.onStation d.num fun t => { t.freshLink with legacy := 0, retryS := nextRetry d.t1 t.retryS }).refreshSessions

/-- The device closes a connection, which then counts as lost (R278, R280). -/
def State.legacyClose (s : State) (d : StationDecl) : State := (s.legacySend d.num 2 0 0).legacyLost d

/-- The connections over a port are lost with it (R37): they open again over the ports that remain. -/
def State.legacyPortLost (s : State) (x : Nat) : State :=
  (s.decls.filter fun d => decide (d.kind = 2)).foldl (fun t d =>
    if (t.station d.num).legacy ≠ 0 ∧ (t.station d.num).via = x then t.legacyLost d else t) s

/-- LEGACY_CONNECT (R278): a connection that is down, with no retry awaited, is opened. -/
def execLegacyConnect (n : Nat) (s : State) : Result :=
  match s.legacyDecl n with
  | some d =>
    let t := s.station n
    if s.chmOn && s.chmCoreUp n && decide (t.legacy = 0) && decide (t.retryS = 0) && decide (s.role ≠ 0) then
      .next (s.legacyOpenTcp d)
    else .next s
  | none => .next s

/-- LEGACY_RETRY (R278). -/
def execLegacyRetry (n : Nat) (s : State) : Result :=
  match s.legacyDecl n with
  | some d =>
    let t := s.station n
    if s.chmOn && s.chmCoreUp n && decide (t.legacy = 0) && decide (t.retryS ≠ 0) && decide (s.role ≠ 0) then
      .next (s.legacyOpenTcp d)
    else .next s
  | none => .next s

/-- LEGACY_TLS_HANDSHAKE (R252, R278, R279): a handshake that offers nothing supported, a certificate that is not good or an
identity that differs fails it; else the connection stands stopped, and a Primary sends STARTDT. -/
def execLegacyTlsHandshake (n : Nat) (tls13 : Bool) (o : TlsOutcome) (s : State) : Result :=
  match s.legacyDecl n with
  | some d =>
    if (s.station n).legacy ≠ 1 ∨ s.legacyUp n = false then .next s
    else if o.supported && o.authentic && decide (identityOf o.spki = d.idHash) then
      let s1 := (s.onStation n fun t => { t with legacy := 3, tls13 := tls13, retryS := 0, port := t.via }).refreshSessions
      if s1.drives then .next (s1.legacyStart n) else .next s1
    else .next ((s.legacyClose d).chmRaise n 0 Reg.chmEventHandshakeFail)
  | none => .next s

/-- LEGACY_CONNECTION_LOST (R278). -/
def execLegacyConnectionLost (n : Nat) (s : State) : Result :=
  match s.legacyDecl n with
  | some d => if (s.station n).legacy = 0 then .next s else .next (s.legacyLost d)
  | none => .next s

/-- LEGACY_T0_TIMEOUT (R278, R280): the attempt to connect fails. -/
def execLegacyT0Timeout (n : Nat) (s : State) : Result :=
  match s.legacyDecl n with
  | some d => if (s.station n).legacy = 1 then .next (s.legacyClose d) else .next s
  | none => .next s

/-- LEGACY_KEY_RENEWAL (R278): KeyUpdate under TLS 1.3, close and reopen under TLS 1.2. -/
def execLegacyKeyRenewal (n : Nat) (s : State) : Result :=
  match s.legacyDecl n with
  | some d =>
    if (s.station n).connected then
      if (s.station n).tls13 then .next (s.legacySend n 12 0 0)
      else .next (((s.legacySend n 2 0 0).onStation n fun t => { t.freshLink with legacy := 0 }).legacyOpenTcp d).refreshSessions
    else .next s
  | none => .next s

/-! APDUs -/

/-- The untagged type of a monitored type (R280, R281). -/
def untagged (ty : Nat) : Nat :=
  if ty = 30 then 1 else if ty = 31 then 3 else if ty = 36 then 13 else if ty = 37 then 15 else ty

/-- A monitored type of R280. -/
def monitored (ty : Nat) : Bool := decide (untagged ty = 1 ∨ untagged ty = 3 ∨ untagged ty = 13 ∨ untagged ty = 15)

/-- The word that an information object sets (R282). -/
def objectWord (o : InfoObject) : W36 :=
  let ty := untagged o.typeId
  let v := o.value.toNat
  let value := if ty = 1 then v % 2 else if ty = 3 then v % 4 else v
  let valid :=
    if ty = 15 then !o.iv
    else !(o.iv || o.bl) && !(decide (ty = 3) && decide (value = 0 ∨ value = 3)) && !(decide (ty = 13) && o.ov)
  let q := if ty = 15 then 8 * bit01 valid else 8 * bit01 valid + 4 * bit01 o.sb + bit01 o.nt
  BitVec.ofNat 36 (q * 2 ^ 32 + value)

/-- The input word that an object names: its IOA mapped, its type the point's (R281). -/
def StationDecl.inPoint (d : StationDecl) (o : InfoObject) : Option Nat :=
  (d.points.take d.iwCount).findIdx? fun p => decide (p.1 = o.ioa) && decide (p.2 = untagged o.typeId)

/-- Days from 1970-01-01 to a date of the years from 2000 on (the Gregorian calendar up to 2099). -/
def civilDays (year month day : Nat) : Nat :=
  let lens := [31, if year % 4 = 0 then 29 else 28, 31, 30, 31, 30, 31, 31, 30, 31, 30, 31]
  10957 + 365 * (year - 2000) + (year - 2000 + 3) / 4 + (lens.take (month - 1)).foldl (· + ·) 0 + (day - 1)

/-- CP56Time2a as UTC ns since 1970 (R282): milliseconds [15:0], minutes [21:16], hours [28:24], day [36:32], month [43:40], year
[54:48] (the standard's layout; PRESUMED, log 73). -/
def cp56Ns (t : BitVec 56) : Nat :=
  let b (lo n : Nat) : Nat := bitsOf t.toNat lo n
  (((civilDays (2000 + b 48 7) (b 40 4) (b 32 5) * 24 + b 24 5) * 60 + b 16 6) * 60000 + b 0 16) * 1000000

/-- One received object (R281, R282). -/
def State.takeObject (s : State) (d : StationDecl) (o : InfoObject) : State :=
  match d.inPoint o with
  | none => s.segBad d.num
  | some i =>
    let w := objectWord o
    let s1 := s.onStation d.num fun t => { t with rxWords := Sparse.insert (Sparse.erase t.rxWords i) i w, rxNew := true }
    if d.events && decide (untagged o.typeId ≠ o.typeId) then (s1.queueEvents d.num 1 [(i, cp56Ns o.time, w)]).2 else s1

/-- An APDU of any format restarts the station's age, and is its latest authenticated record (R283, R288). -/
def State.legacyHeard (s : State) (n : Nat) : State :=
  let now := s.now
  s.onStation n fun t => { t with heard := some now, ageFrom := some now, port := t.via }

/-- A received send sequence acknowledged after w APDUs (R280). -/
def State.legacyAckDue (s : State) (d : StationDecl) : State :=
  if d.w ≤ (s.station d.num).unsent then
    (s.onStation d.num fun t => { t with unsent := 0 }).legacySend d.num 7 0 0
  else s

/-- APDUs acknowledged by a receive sequence, and those that the k window held back sent (R280). -/
def State.legacyAcked (s : State) (n recvSeq : Nat) : State :=
  let s1 := s.onStation n fun t => { t with unacked := min t.unacked ((t.sendSeq + 2 ^ 15 - recvSeq % 2 ^ 15) % 2 ^ 15) }
  s1.legacyPump n (s1.station n).waitI

/-- A cause of transmission that the standard gives a monitored type (PRESUMED, log 21): periodic and background but for
integrated totals, spontaneous, requested, returned information, and the interrogations. -/
def monitorCause (ty cause : Nat) : Bool :=
  if untagged ty = 15 then decide (cause = 3) || decide (37 ≤ cause ∧ cause ≤ 41)
  else decide (1 ≤ cause ∧ cause ≤ 3) || decide (cause = 5) || decide (cause = 11) || decide (cause = 12) || decide (20 ≤ cause ∧ cause ≤ 36)

/-- A command or system type of R280. -/
def commandType (ty : Nat) : Bool := decide (ty = 45 ∨ ty = 46 ∨ ty = 50 ∨ ty = 100 ∨ ty = 103)

/-- The standard's negative cause for an ASDU in the control direction: 44 unknown type, 45 unknown cause, 46 unknown common
address; none for a confirmation or termination of the device's own command (R280; PRESUMED, log 21). -/
def StationDecl.negative (d : StationDecl) (ty cause ca : Nat) : Option Nat :=
  if !commandType ty then some 44
  else if cause % 64 ≠ 7 ∧ cause % 64 ≠ 10 then some 45
  else if ca ≠ d.ca then some 46
  else none

/-- The ASDU of an I-format APDU (R280-R282): objects of a monitored type; confirmations of the device's own commands; another
type in the control direction is answered with its negative cause; the rest, and an APDU longer than 253 octets, is BAD. -/
def State.takeAsdu (s : State) (d : StationDecl) (octets typeId cause ca : Nat) (objects : List InfoObject) : State :=
  if 253 < octets then s.segBad d.num
  else if monitored typeId then
    if ca = d.ca ∧ monitorCause typeId cause then objects.foldl (fun t o => t.takeObject d o) s else s.segBad d.num
  else if 45 ≤ typeId ∧ typeId ≤ 127 then
    match d.negative typeId cause ca with
    | some c => s.legacySendI d.num 11 typeId c
    | none => s
  else s.segBad d.num

/-- STARTDT con: the connection is started, and a Primary interrogates the station and sets its clock (R279, R284). -/
def State.legacyStarted (s : State) (d : StationDecl) : State :=
  if s.drives && decide ((s.station d.num).uOut = 1) then
    let s1 := (s.onStation d.num fun t => { t with legacy := 4, uOut := 0 }).legacyInterrogate d.num
    if d.csMin ≠ 0 then s1.legacySendI d.num 9 0 (s1.now - s1.fld Reg.tspUtcOffsetSeconds * 1000000000) else s1
  else s

/-- A received APDU (R279-R284). An I-format APDU out of sequence closes the connection (log 21). -/
def State.takeApdu (s : State) (d : StationDecl) (apdu : Apdu) : State :=
  let n := d.num
  match apdu with
  | .iFormat octets sendSeq recvSeq typeId cause ca objects =>
    if sendSeq ≠ (s.station n).recvSeq then s.legacyClose d
    else
      let s1 := (s.legacyAcked n recvSeq).onStation n fun t =>
        { t with recvSeq := (t.recvSeq + 1) % 2 ^ 15, unsent := t.unsent + 1 }
      (s1.takeAsdu d octets typeId cause ca objects).legacyAckDue d
  | .sFormat recvSeq => s.legacyAcked n recvSeq
  | .startdtCon => s.legacyStarted d
  | .stopdtCon => s.onStation n fun t => { t with legacy := 3, uOut := if t.uOut = 2 then 0 else t.uOut }
  | .testfrAct => s.legacySend n 6 0 0
  | .testfrCon => s.onStation n fun t => { t with testOut := false }

/-- LEGACY_APDU (R279-R284). -/
def execLegacyApdu (n : Nat) (apdu : Apdu) (s : State) : Result :=
  match s.legacyDecl n with
  | none => .next s
  | some d =>
    if (s.station n).connected && s.legacyUp n then
      .next (((s.countWrap (Reg.chmXRxFramesRxFrames (s.station n).via)).legacyHeard n).takeApdu d apdu)
    else .next s

/-- LEGACY_ACTCON (R284). -/
def execLegacyActcon (n ioa : Nat) (positive : Bool) (s : State) : Result :=
  match s.legacyDecl n with
  | none => .next s
  | some d =>
    let t := s.station n
    match t.pendingCmds.find? fun c => decide (c.1 = ioa) with
    | none => .next s
    | some c =>
      let rest := t.pendingCmds.filter fun c => decide (c.1 ≠ ioa)
      let s1 := s.legacyHeard n
      if positive then
        .next (s1.onStation n fun u => { u with
          pendingCmds := rest, confirmed := Sparse.insert (Sparse.erase u.confirmed ioa) ioa c.2 })
      else
        .next ((s1.onStation n fun u => { u with pendingCmds := rest, negHold := u.negHold ++ [ioa] }).chmRaise d.num 4
          Reg.chmEventLegacyNeg)

/-- The values of a station's output words after forces, by IOA (R122, R281, R284). -/
def State.outputValues (s : State) (d : StationDecl) : Sparse W32 :=
  d.outWords.zipIdx.foldl (fun m x =>
    let ioa := (d.outPoint x.2).1
    Sparse.insert (Sparse.erase m ioa) ioa ((s.forced x.1 (s.readCur x.1)).1.setWidth 32)) []

/-- LEGACY_ACTTERM (R284): the interrogation at STARTDT has ended; the confirmed values become the output values, or none
with RESEND. -/
def execLegacyActterm (n : Nat) (s : State) : Result :=
  match s.legacyDecl n with
  | none => .next s
  | some d =>
    if (s.station n).interrogating then
      let values := s.outputValues d
      .next ((s.legacyHeard n).onStation n fun t => { t with
        interrogating := false, confirmed := if d.resend then [] else values })
    else .next s

/-- LEGACY_TEST_FRAME (R280, R283). -/
def execLegacyTestFrame (n : Nat) (s : State) : Result :=
  match s.legacyDecl n with
  | none => .next s
  | some _ =>
    if (s.station n).connected then .next ((s.onStation n fun t => { t with testOut := true }).legacySend n 5 0 0)
    else .next s

/-- LEGACY_T1_TIMEOUT (R280): a connection with something unanswered is closed. -/
def execLegacyT1Timeout (n : Nat) (s : State) : Result :=
  match s.legacyDecl n with
  | none => .next s
  | some d =>
    let t := s.station n
    if t.connected && (t.testOut || decide (t.unacked ≠ 0) || decide (t.uOut ≠ 0)) then .next (s.legacyClose d)
    else .next s

/-- LEGACY_T2_TIMEOUT (R280). -/
def execLegacyT2Timeout (n : Nat) (s : State) : Result :=
  match s.legacyDecl n with
  | none => .next s
  | some _ =>
    if (s.station n).connected && decide ((s.station n).unsent ≠ 0) then
      .next ((s.onStation n fun t => { t with unsent := 0 }).legacySend n 7 0 0)
    else .next s

/-- A general interrogation on a started connection that holds no commands back (R284). -/
def State.interrogateAgain (s : State) (n : Nat) : State :=
  if s.drives && decide ((s.station n).legacy = 4) then s.legacySendI n 8 0 20 else s

/-- LEGACY_INTERROGATION_TIMER (R284). -/
def execLegacyInterrogationTimer (n : Nat) (s : State) : Result :=
  match s.legacyDecl n with
  | none => .next s
  | some d => if d.giS ≠ 0 then .next (s.interrogateAgain n) else .next s

/-- LEGACY_CLOCK_SYNC_TIMER (R284, R374): UTC from system time. -/
def execLegacyClockSyncTimer (n : Nat) (s : State) : Result :=
  match s.legacyDecl n with
  | none => .next s
  | some d =>
    if d.csMin ≠ 0 && s.drives && decide ((s.station n).legacy = 4) then
      .next (s.legacySendI n 9 0 (s.now - s.fld Reg.tspUtcOffsetSeconds * 1000000000))
    else .next s

/-- LEGACY_NEG_HOLDOFF_END (R284). -/
def execLegacyNegHoldoffEnd (n ioa : Nat) (s : State) : Result :=
  .next (s.onStation n fun t => { t with negHold := t.negHold.filter fun i => decide (i ≠ ioa) })

/-- INTERROGATE_NOW (R284, R288). -/
def execInterrogateNow (r : Requester) (n : BitVec 17) (s : State) : Result :=
  .next (s.stnCommand r n.toNat 5 fun d t => if d.kind = 2 then t.interrogateAgain d.num else t)

/-- CLOSE_SESSION (R288): the session of a Draught station, bound or shown by its identity, or the connection of a legacy station,
closes. -/
def execCloseSession (r : Requester) (n : BitVec 17) (s : State) : Result :=
  .next (s.stnCommand r n.toNat 1 fun d t =>
    if d.kind = 1 then
      match (t.station d.num).session with
      | some i => (t.closeSessionAt i).refreshSessions
      | none => (t.unboundSessions d).foldl State.closeSessionAt t |>.refreshSessions
    else if d.kind = 2 && decide ((t.station d.num).legacy ≠ 0) then t.legacyClose d
    else t)

end Sys2Proof.Machine
end

