-- ==== Sys2Proof/Machine/Service.lean ====
section
/-! DEFINITION. What the modes share: the minimum service set (R43) and Doused (R427). -/

namespace Sys2Proof.Machine

/-- The unit leaves its role for good: the last heartbeat with LEAVING, no session, no frame, role NONE (R327, R331). -/
def State.closeSessions (s : State) : State :=
  let s1 := (s.sessions.map Prod.fst).foldl State.closeSessionAt s
  ((s1.legacyStations.foldl (fun t n =>
    if (t.station n).legacy = 0 then t
    else (t.legacySend n 2 0 0).onStation n fun r => { r.freshLink with legacy := 0 }) s1)).refreshSessions

/-- Doused (R425, R427): classes stop, outputs are off, Hob buses recessive, role NONE, and no transition goes on. -/
def State.douse (s : State) : State :=
  if s.mode = modeDoused then s
  else
    let s1 := (s.sendHeartbeat true).discardHeld
    let s2 := ([0, 1, 2].foldl State.abortCycle s1).setMode modeDoused
    let s3 := ((s2.setRoleState 0 causeMode).hobAllOff.classStates.grateUpdate).setOutstanding []
    { s3 with raking := none }.setFld Reg.pwrStatusTransition 0

/-- An I/O path: Grate, a Hob port or a Chimney port (R43). -/
def State.hasIo (s : State) : Bool :=
  s.fit.grate || (s.fit.hob && (List.range 192).any fun p => decide (s.hobEff p ≠ 6)) ||
    (s.fit.chimney && (List.range 40).any fun x => !s.bit (Reg.chmXStatusMappedOut x))

/-- Engine `e` is healthy for the minimum service set: neither failed nor mapped out. One that Banked has switched off still
counts unless its domain is requested off (R43, R442; DEDUCED, log 63). -/
def State.serviceEngine (s : State) (e : Nat) : Bool :=
  decide (s.engState e ≠ 4) &&
    (decide (s.engState e ≠ 0) || (decide (s.mode = modeBanked) && decide (s.fld (Reg.pwrPdControlReq (clusterOf e)) = 0)))

/-- The minimum service set (R43). -/
def State.minimumService (s : State) : Bool := s.fit.mantel && s.hasIo && (List.range 144).any s.serviceEngine

/-- A unit in service that falls below the minimum service set enters Doused (R43, R427). -/
def State.checkService (s : State) : State :=
  if s.mode = modeKindling ∨ s.mode = modeEmber ∨ s.minimumService then s else s.douse

/-- A synchronized Primary asks its partner to take over (R354). -/
def State.requestHandover (s : State) : State := if s.role = 7 then s.erairSend (.message 1 []) else s

end Sys2Proof.Machine
end

