-- ==== Sys2Proof/Machine/Guard.lean ====
section
/-! DEFINITION. The Fireguard: the expiry of a guard (R457) and the service of the class guards (R455, R456). -/

namespace Sys2Proof.Machine

/-- A guard expires: 1 the system guard, 2 to 4 the class guards (R457). Only the first expiry counts. -/
def State.guardExpires (s : State) (guard : Nat) (early : Bool) : State :=
  if s.bit Reg.fgdStatusExpired then s
  else
    let event := if guard = 1 then (Reg.fgdEventSysExpired, 0) else (Reg.fgdEventClExpired, guard - 2)
    let s1 := s.setFields [(Reg.fgdStatusExpired, 1), (Reg.fgdLastGuard, guard), (Reg.fgdLastEarly, bit01 early), (Reg.fgdLastValid, 1)]
    let s2 := { s1 with
      pins := { s1.pins with aliveOut := false }
      fireguard := { s1.fireguard with since := [none, none, none], nmi := true, unlogged := true } }
    let s3 := ([0, 1, 2].foldl State.abortCycle s2.discardHeld).hobDemote.legacyStopAll.grateUpdate
    ((s3.capture Reg.fgdErrorCaptureGuard [(Reg.fgdErrorCaptureGuard, guard)]).raiseBit event.1 event.2).raise Reg.tenEventNmi

/-- The upper limit of class guard `k` in ns: WMAXP periods of its class (R456). -/
def State.guardLimit (s : State) (k : Nat) : Nat := s.fld (Reg.fgdClConfigWmaxp k) * s.periodUs k * 1000

/-- The upper limit of a guard has been reached (R455, R456). -/
def State.guardReached (s : State) (g : Sys2Proof.Guard) : Bool :=
  match g with
  | .system => decide (s.fld Reg.fgdSysConfigWmax * 100000 ≤ s.fireguard.elapsed)
  | .cls k => match s.fireguard.since.getD k.val none with
    | some (from_, _) => decide (s.guardLimit k.val ≤ s.bellows.ns - from_)
    | none => false

/-- A guard counts: on, not frozen, and for a class guard with its class counting in Primary (R453-R458). -/
def State.guardCounts (s : State) (g : Sys2Proof.Guard) : Bool :=
  !s.bit Reg.fgdStatusExpired && !s.bit Reg.fgdStatusBankPause &&
    (match g with
      | .system => s.bit Reg.fgdStatusSysOn
      | .cls k => s.fldBit Reg.fgdStatusClOn k.val && (s.fireguard.since.getD k.val none).isSome)

/-- A guard that counts and has reached its upper limit expires with EARLY = 0 (R455, R456). -/
def State.guardLate (s : State) (g : Sys2Proof.Guard) : State :=
  if s.guardCounts g && s.guardReached g then s.guardExpires (match g with | .system => 1 | .cls k => 2 + k.val) false else s

/-- Bellows services class guard `k` as a cycle finishes (R456); the first service of an interval that began at a start or
a pause is not judged against WMIN16, but every one against WMAXP. -/
def State.guardService (s : State) (k : Nat) : State :=
  match s.fireguard.since.getD k none with
  | none => s
  | some (from_, judged) =>
    let elapsed := s.bellows.ns - from_
    if s.guardLimit k ≤ elapsed then s.guardExpires (2 + k) false
    else if judged && decide (elapsed * 16 < s.fld (Reg.fgdClConfigWmin16 k) * s.periodUs k * 1000) then s.guardExpires (2 + k) true
    else { s with fireguard := { s.fireguard with since := s.fireguard.since.set k (some (s.bellows.ns, true)) } }

end Sys2Proof.Machine
end

