-- ==== Sys2Proof/Machine/Switch.lean ====
section
/-! DEFINITION. The switch from one program to the next: class maps and migration (R226-R230), the switch of one class
(R239), the switch instant (R237), the end of a switch (R240), rollback (R245), and a whole load (R241). -/

namespace Sys2Proof.Machine

/-- The edit machine's state code (R231). -/
def State.editState (s : State) : Nat := s.fld Reg.edtStatusState

/-! Migration -/

/-- A migration write (R228): both copies, select 0, no mask bit; silent where both copies hold the value already. -/
def State.migrateWord (s : State) (w : Nat) (v : W36) : State :=
  let dirty := s.copyBad false w || s.copyBad true w
  if !dirty && decide (s.hearth.copy false w = v) && decide (s.hearth.copy true w = v) then s
  else
    let s1 := (s.repairWord w).initWord w v
    let k := s.wordClass w
    let s2 := s1.onHearth fun h =>
      let h1 := h.setSel w false
      if k = 3 then h1
      else
        let m := h1.maskPlane k (s.par k)
        h1.setMaskPlane k (s.par k) (Sparse.put m 0 (w / 32) (withBit (Sparse.get m 0 (w / 32)) (w % 32) false))
    s2.stirGranule (w / 32)

/-- One migration entry (R227): a COPY reads every source word before it writes. -/
def State.migrateEntry (s : State) (m : Migration) : State :=
  let dest := imageWord m.dest
  let (vals, s1) : List W36 × State :=
    if m.op = 1 then s.deviceReads ((List.range m.count).map (imageWord m.src + ·)) 2
    else ((List.range m.count).map fun i => if m.op = 2 then m.init.getD i 0 else 0, s)
  vals.zipIdx.foldl (fun t x => t.migrateWord (dest + x.2) x.1) s1

/-- The migration entries of class `k`, in list order (R227). -/
def State.migrate (s : State) (p : Program) (k : Nat) : State :=
  (p.migrate.filter fun m => decide (m.cls = k)).foldl State.migrateEntry s

/-! Programs during a switch -/

/-- The granules that a program's ranges give a new class, with their old one. -/
def Program.moved (p : Program) (old : Nat → Nat) : List (Nat × Nat) :=
  ((p.ranges.flatMap fun r => (List.range r.2.1).map (r.1 + ·)).filter fun j => decide (p.classAt old j ≠ old j)).map
    fun j => (j, old j)

/-- The blocks that differ from one program to another. -/
def Program.gone (old new : Program) : List Nat :=
  (old.descs.filter fun d => (new.desc d.id).isNone).map Desc.id

/-- The rollback program of a switch (R245): the old program, with the class map undone and every COPY reversed, the last
one first (DEDUCED, log 29). -/
def Program.rollbackOf (old new : Program) (cls : Nat → Nat) : Program :=
  { old with
    ranges := (new.moved cls).map fun m => (m.1, 1, m.2)
    migrate := ((new.migrate.filter fun m => decide (m.op = 1)).map fun m => { m with dest := m.src, src := m.dest, init := [] }).reverse
    changed := new.changed ++ old.gone new
    full := false }

/-- The class of a retain range: that of its first granule (DEDUCED, log 29). -/
def State.rangeClassOf (s : State) (r : Nat × Nat) : Nat :=
  match imageGranule r.1 with
  | some j => s.granClass j
  | none => 3

/-- The class whose switch applies a port's entry (R225, R239): its reference class, or without one the class of its first bus
station, or Blaze where it has none (DESIGN CHOICE, log 58). -/
def Program.portClass (p : Program) (q : PortDecl) : Nat :=
  if q.refClass ≠ 3 then q.refClass
  else match p.stations.find? fun d => decide (d.kind = 4) && decide (d.hobPort = q.port) with
    | some d => d.cls
    | none => 0

/-- The program that runs once class `k` has switched from `a` to `n`: what belongs to class `k` is the new program's
(R239). -/
def Program.withClass (a n : Program) (k : Nat) (cls : Nat → Nat) : Program :=
  { a with
    classes := a.classes.set k (n.classes.getD k ⟨0, 0, 16, false⟩)
    descs := (a.descs.filter fun d => decide (d.cls ≠ k)) ++ n.descs.filter fun d => decide (d.cls = k)
    imports := (a.imports.filter fun i => decide (classOfAddr cls i.2.1 ≠ k)) ++
      n.imports.filter fun i => decide (classOfAddr cls i.2.1 = k)
    stations := (a.stations.filter fun d => decide (d.cls ≠ k)) ++ n.stations.filter fun d => decide (d.cls = k)
    ports := (a.ports.filter fun d => decide (a.portClass d ≠ k)) ++ n.ports.filter fun d => decide (n.portClass d = k)
    chans := (a.chans.filter fun d => decide (d.cls ≠ k)) ++ n.chans.filter fun d => decide (d.cls = k) }

/-! What a class takes from its program -/

/-- The CLASS entry's values as the class's registers (R177, R178, R225). -/
def State.classValues (s : State) (k : Nat) (c : ClassCfg) : State :=
  s.setFields [(Reg.blwClPeriodPeriod k, c.period), (Reg.blwClPhaseOffsetPhaseOffset k, c.phaseOffset),
    (Reg.blwClStokeNStokeN k, c.stokeN), (Reg.blwClControlLock k, bit01 c.lock)]

/-- A declared port's values as the port's registers (R315); the bit timing is taken only while the port's MODE is off, which R295
asks of it (DEDUCED, log 75). -/
def State.declarePort (s : State) (q : PortDecl) : State :=
  let p := q.port
  let timing := if s.fld (Reg.hobPControlMode p) ≠ 0 then [] else [
    (Reg.hobPNbtNbrp p, q.nbt / 2 ^ (Reg.hobPNbtNbrp p).lo),
    (Reg.hobPNbtNtseg1 p, q.nbt / 2 ^ (Reg.hobPNbtNtseg1 p).lo), (Reg.hobPNbtNtseg2 p, q.nbt / 2 ^ (Reg.hobPNbtNtseg2 p).lo),
    (Reg.hobPNbtNsjw p, q.nbt / 2 ^ (Reg.hobPNbtNsjw p).lo),
    (Reg.hobPDbtDbrp p, q.dbt / 2 ^ (Reg.hobPDbtDbrp p).lo), (Reg.hobPDbtDtseg1 p, q.dbt / 2 ^ (Reg.hobPDbtDtseg1 p).lo),
    (Reg.hobPDbtDtseg2 p, q.dbt / 2 ^ (Reg.hobPDbtDtseg2 p).lo), (Reg.hobPDbtDsjw p, q.dbt / 2 ^ (Reg.hobPDbtDsjw p).lo),
    (Reg.hobPDbtTdc p, q.dbt / 2 ^ (Reg.hobPDbtTdc p).lo), (Reg.hobPDbtTdco p, q.dbt / 2 ^ (Reg.hobPDbtTdco p).lo)]
  s.setFields (timing ++ [(Reg.hobPControlRefClass p, q.refClass), (Reg.hobPControlTimeMaster p, bit01 q.timeMaster),
    (Reg.hobPControlSleepOk p, bit01 q.sleepOk), (Reg.hobPRefOffsetRefOffset p, q.refOffset)])

/-- A station that leaves the program, or comes back with another declaration: nothing of it is kept but what its new
declaration starts with. -/
def State.forgetStation (s : State) (n : Nat) : State :=
  let t := s.station n
  let s1 := match t.session with
    | some i => s.closeSessionAt i
    | none => s
  let s2 := if t.legacy = 0 then s1 else s1.legacySend n 2 0 0
  s2.setStation n StationRt.fresh

/-- A station that the new program changes: a legacy station connects anew; another drops what it holds under the old
layout and is told to bind again (R239, R261). -/
def State.changeStation (s : State) (old new : StationDecl) : State :=
  if old = new then s
  else if new.kind = 2 ∨ old.kind ≠ new.kind then
    let t := s.station new.num
    let s1 := s.forgetStation new.num
    s1.onStation new.num fun r => { r with state := t.state, ageFrom := t.ageFrom, lastSeq := t.lastSeq, epoch := t.epoch }
  else
    let s1 := s.onStation new.num fun t => { t with assembly := none, complete := none, latched := none, outNew := none }
    if old.layoutHash = new.layoutHash ∨ new.kind ≠ 1 then s1 else s1.sendBind new 7

/-- The stations of class `k` after its switch. -/
def State.switchStations (s : State) (old new : Program) (k : Nat) : State :=
  let left := old.stations.filter fun d => decide (d.cls = k) && (new.station d.num).isNone
  let s1 := left.foldl (fun t d => t.forgetStation d.num) s
  (new.stations.filter fun d => decide (d.cls = k)).foldl (fun t d =>
    match old.station d.num with
    | some o => t.changeStation o d
    | none => t.forgetStation d.num) s1

/-- The ports and Grate channels of class `k` after its switch (R315, R388). -/
def State.switchPorts (s : State) (old new : Program) (k : Nat) : State :=
  let s1 := (new.ports.filter fun q => decide (new.portClass q = k) && !old.ports.contains q).foldl State.declarePort s
  let gone := old.chans.filter fun c => decide (c.cls = k) && !(new.chans.any fun d => decide (d.chan = c.chan))
  let s2 := gone.foldl (fun t c => (t.setChannel c.chan { t.channel c.chan with declared := false, outlay := none }).grateOne
    c.chan) s1
  (new.chans.filter fun c => decide (c.cls = k) && !old.chans.contains c).foldl State.declareChannel s2

/-- The error task of class `k` is enabled, with no faulted run counted (R214, R239). -/
def State.errOn (s : State) (k : Nat) : State :=
  (s.onCls k fun rt => { rt with errFaults := 0 }).setFld (Reg.blwClStatusErrtaskOff k) 0

/-- The blocks of class `k` that the edit adds, replaces or deletes start as loaded, an error task among them enabled; the
others keep their states (R239). -/
def State.switchBlocks (s : State) (old new : Program) (k : Nat) : State :=
  let fresh := ((new.descs.filter fun d => decide (d.cls = k) && new.changed.contains d.id).map Desc.id) ++
    (old.descs.filter fun d => decide (d.cls = k) && (new.desc d.id).isNone).map Desc.id
  let s1 := (fresh.foldl (fun t b => t.setBlockRt b BlockRt.fresh) s).setInstOff
    (s.bellows.instOff.filter fun x => !fresh.contains x.1)
  match new.task k 1 with
  | some d => if new.changed.contains d.id then s1.errOn k else s1
  | none => s1

/-- The class map's entries of class `k`'s new and released granules (R239). -/
def State.switchMap (s : State) (new : Program) (k : Nat) : State :=
  (new.moved s.granClass).foldl (fun t m =>
    let c := if s.carved m.1 then 3 else new.classAt s.granClass m.1
    if c = k ∨ (c = 3 ∧ m.2 = k) then t.onHearth fun h => { h with classMap := Sparse.put h.classMap 3 m.1 c } else t) s

/-- A stall of class `k` ends (R208, R239). -/
def State.endStall (s : State) (k : Nat) : State :=
  ((s.onCls k fun rt => { rt with stalledNow := false, resume := false }).setFld (Reg.blwClStatusRunOverruns k) 0).classStates

/-- The first class of a switch prepares its rollback (R239, R245). -/
def State.firstSwitch (s : State) (new : Program) : State :=
  if s.editState = 5 then s
  else
    let old := s.bellows.active.getD Program.empty
    let back := if s.bit Reg.edtStatusRollingBack then none else some (old.rollbackOf new s.granClass)
    { s with
      edit := { s.edit with old := some old, fired := true }
      bellows := { s.bellows with rollback := back } }.setFields
        [(Reg.edtStatusState, 5), (Reg.edtStatusRollbackAvail, 0)]

/-- The versions that EDT shows (R246). -/
def State.editVersions (s : State) : State :=
  let a := s.bellows.active.getD Program.empty
  s.setFields [(Reg.edtActiveVersionVersion, a.version), (Reg.edtActiveLayoutHash, a.layout),
    (Reg.edtStagedVersionVersion, match s.bellows.shadow with | some p => p.version | none => 0),
    (Reg.edtRollbackVersionVersion, match s.bellows.rollback with | some p => p.version | none => 0)]

/-- Every class has switched: the new program is the active one (R231, R240). -/
def State.lastSwitch (s : State) (new : Program) (k : Nat) : State :=
  if s.fld Reg.edtStatusSwitched ≠ 7 then s
  else
    let b := s.bellows
    (({ s with
      bellows := { b with active := some new, shadow := none, area := if s.hasDram then 1 - b.area else b.area }
      edit := { s.edit with armed := none, fired := false, endDue := some k }
      hearth := { s.hearth with retain := new.retain } }.setFields
        [(Reg.edtStatusState, 0), (Reg.edtStatusRollbackAvail, bit01 b.rollback.isSome)]).editVersions).refreshRoles

/-- The local stores of the engines hold their logical engines' code (R225, R232). -/
def State.loadCode (s : State) : State :=
  (List.range 144).foldl (fun t e =>
    if t.engState e = 1 then
      let l := t.fld (Reg.fbxERoleLogical e)
      t.setCore e (t.coded (t.core e) l (t.codeLimit l))
    else t) s

/-- At the switch of class `k` the new program's code reaches every local store that holds the code of a logical engine that
serves it (R233). -/
def State.switchCode (s : State) (k : Nat) : State :=
  (List.range 144).foldl (fun t e =>
    match (t.core e).codeOf with
    | some l => if bitOf (t.classesOf l) k && (t.newCode l) then t.setCore e (t.coded (t.core e) l (t.codeLimit l)) else t
    | none => t) s

/-- Class `k` switches to the staged program at its boundary with number `n`; its migration follows the flip (R239). -/
def State.switchClass (s : State) (k n : Nat) : State :=
  match s.bellows.shadow with
  | none => s
  | some new =>
    let s0 := s.firstSwitch new
    let old := s0.bellows.active.getD Program.empty
    let keep := s0.hearth.retain.filter fun r => decide (s0.rangeClassOf r ≠ k)
    let s1 := s0.switchMap new k
    let now := old.withClass new k s1.granClass
    let s2 : State := { s1 with
      bellows := { s1.bellows with active := some now }
      hearth := { s1.hearth with retain := keep ++ new.retain.filter fun r => decide (s1.rangeClassOf r = k) } }
    let same := decide (old.classes.getD k ⟨0, 0, 16, false⟩ = now.classes.getD k ⟨0, 0, 16, false⟩)
    let s3 := if same then s2 else
      (s2.classValues k (now.classes.getD k ⟨0, 0, 16, false⟩)).onCls k fun rt => { rt with jump := true }
    let s4 := (((s3.switchBlocks old new k).switchStations old new k).switchPorts old new k).endStall k
    let s5 := ((s4.setFields [(Reg.blwClTaskEngineTaskEngine k, new.taskEngine k), (Reg.edtSwitchClCycle k, n)]).setFldBit
      Reg.edtStatusSwitched k true).onCls k fun rt => { rt with switchNow := true, switchDigest := new.digest }
    (s5.switchCode k).refreshDropped.lastSwitch new k

/-- The digest that marks a switching cycle (R243). -/
def State.editDigest (s : State) : List W32 :=
  match s.bellows.shadow, s.bellows.active with
  | some p, _ => p.digest
  | none, some p => p.digest
  | none, none => []

/-! The switch instant -/

/-- The number and time of the boundary that arrives; none where no boundary falls (R178-R181, log 23). A locked class waits for the
number above its last one, after a jump for one period, and never runs a boundary that a step has passed. -/
def State.arriving (s : State) (k : Nat) : Option (Nat × Nat) :=
  let rt := s.cls k
  if s.locked k then
    let per := s.periodUs k * 1000
    let off := s.fld (Reg.blwClPhaseOffsetPhaseOffset k) * 1000
    if per = 0 ∨ s.now < off then none
    else
      let n := (s.now - off) / per
      let b := n * per + off
      if b < rt.passedTo then none
      else match rt.number, rt.lastBound with
      | some m, some last =>
        if rt.jump then (if last + per ≤ b then some (n, b) else none) else (if m < n then some (n, b) else none)
      | some m, none => if m < n ∨ rt.jump then some (n, b) else none
      | none, _ => some (n, b)
  else if rt.boundNs = some s.bellows.ns then none
  else some (match rt.number with | some m => m + 1 | none => 0, s.now)

/-- The boundary of class `j` that falls together with that of class `k` at `b`, or is it (R182): an unlocked class's falls one period
of the Bellows clock after its last one (R179, log 23). -/
def State.due (s : State) (j k b : Nat) : Option (Nat × Nat) :=
  (s.arriving j).filter fun x => decide (j = k) || (decide (x.2 = b) &&
    (s.locked j || (match (s.cls j).boundNs with | some l => decide (l + s.periodUs j * 1000 = s.bellows.ns) | none => false)))

/-- Class `k` switches at its boundary with number `n` at time `t`: it is the named class at or past the named cycle, a class
that comes before it at the same Hearth clock when the named class's cycle starts there too, or any other class once the switch
has begun (R182, R237). -/
def State.switchDue (s : State) (k n t : Nat) : Bool :=
  if s.editState = 5 then !s.fldBit Reg.edtStatusSwitched k
  else
    match s.edit.armed with
    | some (c, cyc) => decide (s.editState = 4) &&
        (if k = c then decide (cyc ≤ n)
         else decide (k < c) && (s.cls c).finished && (match s.due c k t with | some m => decide (cyc ≤ m.1) | none => false))
    | none => false

/-! The end of a switch -/

/-- The end of a switch (R240): the program bank, the retain capture under the new ranges, the event and the record. -/
def State.switchEnd (s : State) : State :=
  let back := s.bit Reg.edtStatusRollingBack
  let was := match s.edit.old with | some p => p.version | none => 0
  let now := match s.bellows.active with | some p => p.version | none => 0
  let s1 := (s.dirCommit fun d => { d with activeBank := 1 - d.activeBank }).startCapture
  let s2 : State := { s1 with edit := { s1.edit with old := none, endDue := none, captureDue := true } }
  let s3 := (s2.setFld Reg.edtStatusRollingBack 0).raise Reg.edtEventSwitched
  let s4 := if back then s3.raise Reg.edtEventRolledBack else s3
  s4.record 0x015 0x01 true ([was, now] ++ [0, 1, 2].map fun k => s4.fld (Reg.edtSwitchClCycle k))

/-- Every class switched at once in Held, with migration, and the switch ended (R241). -/
def State.switchAll (s : State) : State :=
  match s.bellows.shadow with
  | none => s
  | some new =>
    ([0, 1, 2].foldl (fun t k => (t.switchClass k (t.fld (Reg.blwClCycleLoCycleLo k))).migrate new k) s).switchEnd

/-! A whole load -/

/-- The first cycle of every class is number 0 again (R179). -/
def State.restartCounts (s : State) : State :=
  [0, 1, 2].foldl (fun t k => (t.onCls k fun rt => { rt with number := none, lastBound := none, boundNs := none, ran := false }).setCycle k 0) s

/-- The class map as a program's ranges give it, the carve-out unassigned (R46, R101, R109, R225). -/
def State.loadMap (s : State) (p : Program) : State :=
  s.onHearth fun h => { h with
    retain := p.retain
    classMap := p.ranges.foldl (fun m r => (List.range r.2.1).foldl (fun m i =>
      Sparse.put m 3 (r.1 + i) (if s.carved (r.1 + i) then 3 else r.2.2)) m) [] }

/-- What a program lacks, as BLW_SHORTFALL and its event show it (R44, R220). -/
def State.noteShort (s : State) (short : List Bool) : State :=
  let t := s.setFields [(Reg.blwStatusShortfall, bit01 (short.any id)),
    (Reg.blwShortfallEngines, bit01 (short.getD 0 false)), (Reg.blwShortfallDram, bit01 (short.getD 1 false)),
    (Reg.blwShortfallHob, bit01 (short.getD 2 false)), (Reg.blwShortfallChimney, bit01 (short.getD 3 false)),
    (Reg.blwShortfallGrate, bit01 (short.getD 4 false)), (Reg.blwShortfallTurnspit, bit01 (short.getD 5 false))]
  if short.any id then t.raise Reg.blwEventShortfall else t

/-- A program taken whole: class map, registers, blocks, stations, ports and channels, and the required hardware checked
(R44, R101, R177, R205, R271, R388). Its start still has to be chosen. -/
def State.loadProgram (s : State) (p : Program) : State :=
  let s1 := { s with bellows := { s.bellows with active := some p, blocks := [] } }.loadMap p
  let s2 := s1.setInstOff []
  let s3 := [0, 1, 2].foldl (fun t k =>
    (t.classValues k (p.classes.getD k ⟨0, 0, 16, false⟩)).setFld (Reg.blwClTaskEngineTaskEngine k) (p.taskEngine k)) s2
  let gone := (s3.stations.map Prod.fst).filter fun n => (p.station n).isNone
  let s4 := gone.foldl State.forgetStation s3
  let s5 := p.stations.foldl (fun t d =>
    let r := t.station d.num
    t.setStation d.num { StationRt.fresh with
      heard := r.heard, epoch := r.epoch, port := r.port, via := r.via, session := r.session, legacy := r.legacy, retryS := r.retryS
      tls13 := r.tls13, sendSeq := r.sendSeq, recvSeq := r.recvSeq, unacked := r.unacked, unsent := r.unsent, uOut := r.uOut, waitI := r.waitI }) s4
  let s6 := p.ports.foldl State.declarePort s5
  let s7 := (List.range 16).foldl (fun t n => t.setChannel n { t.channel n with declared := false, outlay := none }) s6
  let s8 := p.chans.foldl State.declareChannel s7
  let s9 := (s8.setFld Reg.blwStatusLoaded 1).noteShort (s8.shortfallOf p)
  s9.restartCounts.refreshRoles.refold.refreshDropped.grateUpdate

/-- The first image word of the Tender's carve-out (R46). -/
def carveWord : Nat := 0x8C0000

/-- A cold start of the image (R111): both copies of every word plain zero, and the planes as at a start. Without DRAM the
carve-out, which holds the Tender's code, stays (R46). -/
def State.coldImage (s : State) : State :=
  let h := s.hearth
  let cold := ((s.onHearth fun h => { h with copyA := [], copyB := [], held := [] }).freshPlanes).setInject []
  if s.hasDram then cold
  else cold.onHearth fun g => { g with
    copyA := h.copyA.filter fun x => decide (carveWord ≤ x.1)
    copyB := h.copyB.filter fun x => decide (carveWord ≤ x.1)
    sel := h.sel.filter fun x => decide (carveWord ≤ x.1)
    bad := h.bad.filter fun x => decide (carveWord ≤ x / 2) }

/-- The start task of every class's first cycle: 1 warm, 2 cold (R212). -/
def State.startKind (s : State) (kind : Nat) : State :=
  [0, 1, 2].foldl (fun t k => (t.setFld (Reg.blwClStartKindKind k) kind).onCls k fun rt => { rt with taskDone := false }) s

/-- The staged FULL package taken in Held: a cold start of the new program (R221, R241). -/
def State.activateFull (s : State) (p : Program) : State :=
  let b := s.bellows
  let first := b.active.isNone
  let s1 : State := { s with
    started := true
    bellows := { b with shadow := none, rollback := none, area := if s.hasDram then 1 - b.area else b.area }
    edit := { s.edit with armed := none, fired := false, old := b.active, endDue := none } }
  let s2 := (((s1.loadProgram p).loadCode).coldImage.startKind 2).setFields
    [(Reg.edtStatusState, 0), (Reg.edtStatusRollbackAvail, 0), (Reg.edtStatusSwitched, 7), (Reg.pwrStatusLastRestart, 2)]
  let s3 := [0, 1, 2].foldl (fun t k => (t.setFields [(Reg.edtSwitchClCycle k, 0), (Reg.blwClStatusRunOverruns k, 0),
    (Reg.blwClStatusErrtaskOff k, 0)]).onCls k fun rt =>
    { ClassRt.reset with finished := true, settled := rt.settled, runAll := true }) s2
  let s4 := s3.editVersions.switchEnd
  if first then s4.sendHolds else s4

end Sys2Proof.Machine
end

