-- ==== Sys2Proof/Machine/Records.lean ====
section
/-! DEFINITION. Cycle records: capture (R333, R334), sending and acknowledgement (R337, R338), application on the Standby
(R336), the copy of a synchronization (R343), claims and takeover (R348, R358, R360). -/

namespace Sys2Proof.Machine

/-! Capture and sending -/

/-- An image granule lies in a retain range (R126, R333). -/
def State.isRetained (s : State) (j : Nat) : Bool :=
  s.hearth.retain.any fun r => match imageGranule r.1 with
    | some b => decide (b ≤ j) && decide (j < b + r.2)
    | none => false

/-- One DELTA entry (R333, R334). -/
def State.deltaOf (s : State) (j mask : Nat) : Delta where
  granule := curGranule j
  ret := s.isRetained j
  mask := BitVec.ofNat 32 mask
  words := ((List.range 32).filter (bitOf mask ·)).map fun i => s.readCur (32 * j + i)

/-- The cycle record of class `k` (R333, R334). -/
def State.captureRecord (s : State) (k : Fin 3) : CycleRecord :=
  let rt := s.cls k.val
  { cls := k
    mark := if rt.switchNow then some rt.switchDigest else none
    faults := rt.faults
    cycle := s.cycle k.val
    epoch := BitVec.ofNat 32 (s.fld Reg.dmpEpochEpoch)
    stations := rt.stationsLog.map fun x => (x.1, BitVec.ofNat 32 x.2)
    events := rt.eventsLog
    blocks := rt.blocksLog
    delta := (s.hearth.maskPlane k.val (s.par k.val)).map fun e => s.deltaOf e.1 e.2 }

/-- The words of a record asked of the Hearth (R19, R333). -/
def State.flueRecord (s : State) (r : CycleRecord) : State :=
  r.delta.foldl (fun t d => match imageGranule d.granule with
    | some j => t.flueAsk nodeErair .vc2 (curAddr (32 * j)) 32
    | none => t) s

/-- The records of class `k` that no acknowledgement has answered (R338). -/
def State.outstandingOf (s : State) (k : Nat) : Nat := (s.erair.outstanding.filter fun o => decide (o.cls = k)).length

/-- A record sent and kept until its acknowledgement (R337, R417). -/
def State.sendRecord (s : State) (k : Nat) (r : CycleRecord) : State :=
  let t := s.erairSend (.record r)
  let u : State := { t with erair := { t.erair with sent := Sparse.put t.erair.sent 0 k (Sparse.get t.erair.sent 0 k + 1) } }
  u.setOutstanding
    (s.erair.outstanding ++ [⟨k, r.cycle, r⟩])

/-! Application on the Standby -/

/-- The boundary time of cycle `n` of class `k` by the registers (R178). -/
def State.boundaryTime (s : State) (k n : Nat) : Nat :=
  (n * s.periodUs k + s.fld (Reg.blwClPhaseOffsetPhaseOffset k)) * 1000

/-- The granule of a DELTA entry is still to be copied, and the entry is skipped (R343). -/
def State.copyPending (s : State) (j : Nat) : Bool := decide (s.role = 3) && decide (Sparse.get s.erair.copied 0 j = 0)

/-- The words of a DELTA entry (R336). -/
def State.applyDelta (s : State) (d : Delta) : State :=
  match imageGranule d.granule with
  | none => s
  | some j =>
    if s.copyPending j then s
    else (((List.range 32).filter fun i => bitOf d.mask.toNat i).zip d.words).foldl
      (fun t x => (t.writeWord (32 * j + x.1) x.2).flueSend nodeErair .vc2 .store (curAddr (32 * j + x.1)) [x.2]) s

/-- An event ring entry carried by a record, as it stands (R128, R336). -/
def State.ringCopy (s : State) (k : Nat) (e : W36 × W36) : State :=
  let head := Sparse.get s.hearth.evHead 0 k
  if (head + 2 ^ 32 - s.ringOldest k) % 2 ^ 32 < 4096 then
    let base := k * 0x2000 + 2 * (head % 4096)
    s.onHearth fun h => { h with
      rings := Sparse.put (Sparse.put h.rings 0 base (e.1.setWidth 32)) 0 (base + 1) (e.2.setWidth 32)
      evHead := Sparse.put h.evHead 0 k ((head + 1) % 2 ^ 32) }
  else (s.onHearth fun h => { h with evLost := Sparse.put h.evLost 0 k (satInc 32 (Sparse.get h.evLost 0 k)) }).raise
    Reg.hrtEventRingOverflow

/-- The image state that an event of a drop or a restore gives a station, 1 or 2 (R271, R336). -/
def eventState (e : W36 × W36) : Nat := if e.1.toNat.testBit 17 then 1 else 2

/-- The station of such an event. -/
def eventStation (e : W36 × W36) : Nat := e.1.toNat % 2 ^ 17

/-- A drop or restore that a record carries changes the station's state (R271, R272, R336). -/
def State.applyEvent (s : State) (k : Nat) (e : W36 × W36) : State :=
  match s.decl (eventStation e) with
  | some d => (s.ringCopy k e).setImageState d (eventState e)
  | none => s.ringCopy k e

/-- The Standby's own completion time of an input sequence, else the boundary of the recorded cycle (R360). -/
def StationRt.completedAt (t : StationRt) (seq bound : Nat) : Nat :=
  match t.completions.find? fun c => decide (c.1 = seq) with
  | some c => c.2
  | none => bound

/-- A STATIONS entry: the sequence is applied, images that are not newer are discarded (R336, R360). -/
def State.applyStation (s : State) (n seq bound : Nat) : State :=
  match s.decl n with
  | none => s
  | some d =>
    let bits := if d.kind = 4 then 16 else 32
    let keep (i : Option Image) : Option Image := i.filter fun x => newer bits x.seq seq
    let s1 := s.onStation n fun t => { t with
      lastSeq := seq, complete := keep t.complete, latched := keep t.latched
      ageFrom := some (match keep t.latched with | some im => im.time | none => t.completedAt seq bound)
      completions := t.completions.filter fun c => newer bits c.1 seq }
    if (s1.station n).state = 1 then s1.stateWord d false else s1.setImageState d 1

/-- A BLOCKS entry (R333, R336). -/
def State.applyBlock (s : State) (e : BlockEntry) : State :=
  let r := s.blockRt e.block
  let i := e.info.toNat % 2 ^ 20
  match e.op with
  | 1 => s.setBlockRt e.block { r with state := 1 }
  | 2 => s.setBlockRt e.block { r with demoted := true }
  | 3 => s.setBlockRt e.block { r with state := 0, firstRun := true }
  | 4 => if s.instDisabled e.block i then s else s.setInstOff (s.bellows.instOff ++ [(e.block, i)])
  | 5 => s.setInstOff (s.bellows.instOff.filter fun x => decide (x ≠ (e.block, i)))
  | 6 => s.setBlockRt e.block { r with state := 2 }
  | _ => s

/-- The last cycle applied for class `k`. -/
def State.appliedCycle (s : State) (k : Nat) : Option Nat := s.erair.applied.getD k none

/-- The last applied cycle written, with ERA_CLn_APPLIED (R336, R366). -/
def State.setApplied (s : State) (k n : Nat) : State :=
  { s with erair := { s.erair with applied := s.erair.applied.set k (some n) } }.setFld (Reg.eraClAppliedCycle k) n

/-- A record is refused: its cycle is not newer than the last applied one (R336). -/
def State.recordStale (s : State) (r : CycleRecord) : Bool :=
  match s.appliedCycle r.cls.val with | some n => decide (r.cycle ≤ n) | none => false

/-- The package that a mark names is staged here (R242, R243). -/
def State.markStaged (s : State) (digest : List W32) : Bool :=
  (decide (s.editState = 3) || decide (s.editState = 4) || decide (s.editState = 5)) &&
    (match s.bellows.shadow with | some p => decide (p.digest = digest) | none => false)

/-- A record applied whole (R336): a marked one switches the class first. -/
def State.applyRecord (s : State) (r : CycleRecord) : State :=
  let k := r.cls.val
  let bound := s.boundaryTime k r.cycle
  let s0 := s.onCls k fun rt => { rt with jump := false, stepped := false, passedTo := 0 }
  let s1 := if r.mark.isSome then s0.switchClass k r.cycle else s0
  let s2 := s1.flip k
  let s3 := match r.mark, s.bellows.shadow with
    | some _, some p => s2.migrate p k
    | _, _ => s2
  let s4 := r.delta.foldl State.applyDelta s3
  let s5 := r.events.foldl (fun t e => t.applyEvent k e) (s4.setCycle k r.cycle)
  let s6 := r.stations.foldl (fun t x => t.applyStation x.1 x.2.toNat bound) s5
  let s7 := ((r.blocks.foldl State.applyBlock s6).settle k).setFld (Reg.hrtClFlipSettled k) 1
  let s8 := (s7.onCls k fun rt => { rt with
    number := some r.cycle, lastBound := some bound, boundNs := none, switchNow := false, record := some r }).setApplied k r.cycle
  let s9 := if s8.edit.endDue = some k then s8.switchEnd else s8
  s9.erairSend (.ack k r.cycle 1)

/-- A record that has arrived on the Standby (R336, R341). -/
def State.takeRecord (s : State) (r : CycleRecord) : State :=
  if s.role = 3 ∨ s.role = 4 then
    if s.recordStale r then s.erairSend (.ack r.cls.val r.cycle 2)
    else
      match r.mark with
      | some d => if s.markStaged d then s.applyRecord r else s.desync 4
      | none => s.applyRecord r
  else s

/-- The words of a record that have arrived on the Standby: one that is not intact is answered with a NAK (R333, R336). -/
def State.takeWords (s : State) (ws : List W36) : State :=
  match recordIntact ws, recordOf ws with
  | true, some r => s.takeRecord r
  | _, _ =>
    if s.role = 3 ∨ s.role = 4 then s.erairSend (.ack (bitsOf (ws.getD 0 0).toNat 0 2) (low32 (ws.getD 1 0)) 2) else s

/-! The copy -/

/-- A copied granule: both views read as on the Primary (R343), and it is asked for no longer (R132). -/
def State.storeGranule (s : State) (j : Nat) (cur prev : List W36) : State :=
  let k := s.granClass j
  let s0 := (s.onHearth fun h => { h with asked := h.asked.erase j }).flueSend nodeErair .vc2 .store (curAddr (32 * j)) (cur ++ prev)
  (List.range 32).foldl (fun t i =>
    let w := 32 * j + i
    let c := cur.getD i 0
    let p := prev.getD i 0
    let t1 := (t.repairWord w).onHearth fun h => ((h.setSel w false).setCopy false w c).setCopy true w p
    if k = 3 then t1
    else t1.onHearth fun h =>
      let m := h.maskPlane k (t.par k)
      h.setMaskPlane k (t.par k) (Sparse.put m 0 j (withBit (Sparse.get m 0 j) i (decide (c ≠ p))))) s0

/-- The number of granules copied, as ERA_SYNC_PROGRESS shows it. -/
def State.markCopied (s : State) (j : Nat) : State :=
  let m := Sparse.put s.erair.copied 0 j 1
  { s with erair := { s.erair with copied := m } }.setFld Reg.eraSyncProgressGranules m.length

/-- One granule sent as copy cells, with both views (R132, R343). -/
def State.sendGranule (s : State) (j : Nat) : State :=
  let ws := granuleWords j 1
  (s.flueAsk nodeErair .vc2 (curAddr (32 * j)) 32).erairSend (.copy j (ws.map s.readCur) (ws.map s.readPrev))

/-- A granule may be taken: its owning class is not in Intake or Solve (R343). -/
def State.mayCopy (s : State) (j : Nat) : Bool :=
  let k := s.granClass j
  decide (k = 3) || (decide (s.fld (Reg.blwClStatusPhase k) ≠ 1) && decide (s.fld (Reg.blwClStatusPhase k) ≠ 2))

/-- The next granule of the stream leaves, at most one each 64 ns: 64 words at 1 Gw/s (R343; log 30). -/
def State.copyTick (s : State) : State :=
  if s.role = 6 && s.erair.up && decide (s.bellows.ns % 64 = 0) then
    match (List.range 294912).find? fun j => decide (Sparse.get s.erair.copied 0 j = 0) && s.mayCopy j with
    | some j => (s.sendGranule j).markCopied j
    | none => s
  else s

/-- The entries of class `k`'s event ring that are not released (R128, R129). -/
def State.ringEntries (s : State) (k : Nat) : List (W36 × W36) :=
  let start := s.ringOldest k
  (List.range ((Sparse.get s.hearth.evHead 0 k + 2 ^ 32 - start) % 2 ^ 32)).map fun i =>
    let base := k * 0x2000 + 2 * ((start + i) % 4096)
    ((Sparse.get s.hearth.rings 0 base).setWidth 36, (Sparse.get s.hearth.rings 0 (base + 1)).setWidth 36)

/-- What the Primary sends beside the granules, after every record sent so far (R343, log 30). -/
def State.syncStates (s : State) : SyncStates where
  stations := s.decls.map fun d => (d.num, (s.station d.num).state, BitVec.ofNat 32 (s.station d.num).lastSeq)
  rings := [0, 1, 2].map s.ringEntries
  control := [0, 1, 2].map fun k => [3, 4, 5, 6].map (s.controlWord k)
  blocks := s.bellows.blocks.map fun b => (b.1, b.2.state, b.2.demoted)
  instances := s.bellows.instOff
  stalls := [0, 1, 2].map fun k => (s.cls k).stalledNow
  key := s.erair.key

/-- An event ring as on the Primary. -/
def State.loadRing (s : State) (k : Nat) (es : List (W36 × W36)) (ctl : List Nat) : State :=
  let start := (ctl.getD 0 0 + 2 ^ 32 - es.length) % 2 ^ 32
  s.onHearth fun h => { h with
    rings := es.zipIdx.foldl (fun m x =>
      let base := k * 0x2000 + 2 * ((start + x.2) % 4096)
      Sparse.put (Sparse.put m 0 base (x.1.1.setWidth 32)) 0 (base + 1) (x.1.2.setWidth 32)) h.rings
    evHead := Sparse.put h.evHead 0 k (ctl.getD 0 0)
    evStart := Sparse.put h.evStart 0 k (ctl.getD 1 0)
    evEnd := Sparse.put h.evEnd 0 k (ctl.getD 2 0)
    evLost := Sparse.put h.evLost 0 k (ctl.getD 3 0) }

/-- The Primary's states and the witness key taken by the Standby (R343); stalls are not inherited by a takeover (R360). -/
def State.loadStates (s : State) (x : SyncStates) : State :=
  let s1 := x.stations.foldl (fun t e => match t.decl e.1 with
    | some d =>
      let u := t.onStation d.num fun r => { r with lastSeq := e.2.2.toNat }
      if (u.station d.num).state = e.2.1 then u else u.setImageState d e.2.1
    | none => t) s
  let s2 := [0, 1, 2].foldl (fun t k => (t.loadRing k (x.rings.getD k []) (x.control.getD k [])).onCls k fun rt =>
    { rt with stalledNow := x.stalls.getD k false }) s1
  let s3 := { s2 with bellows := { s2.bellows with blocks := [] } }
  let s4 := (x.blocks.foldl (fun t b => t.setBlockRt b.1 ⟨b.2.1, b.2.2, true⟩) s3).setInstOff x.instances
  { s4 with erair := { s4.erair with key := x.key % 2 ^ 256 } }

/-! Claims -/

/-- A claim with everything that follows it: role 5, ports normal, legacy stations started (R327, R348, R358). -/
def State.becomePrimary (s : State) : State := (s.claim.setRoleState 5 causeClaim).legacyStartAll

/-- A listening unit claims (R327); a claim while the classes stand still sends the first HOLD (R274). -/
def State.claimAlone (s : State) : State := s.becomePrimary.sendHolds

/-- The faults that the last applied record of class `k` lists queue the error task (R360). -/
def State.inheritFaults (s : State) (k : Nat) : State :=
  match (s.cls k).record with
  | none => s
  | some r =>
    let s1 := s.onCls k fun rt => { rt with record := none }
    if r.faults then
      (r.blocks.filter fun e => decide (e.op = 1 ∨ e.op = 4)).foldl (fun t e =>
        let i := e.info.toNat
        (t.onCls k fun rt => { rt with errBlock := true }).errEntry k
          ⟨e.block, e.cause, if i.testBit 20 then none else some (i % 2 ^ 20), bitsOf i 21 7⟩) s1
    else s1

/-- The classes of a new Primary: the next boundary of each starts a cycle with RUN_ALL, without stall, overruns or start task,
whose Outlay sends every image (R358, R360, R437). -/
def State.freshClasses (s : State) : State :=
  [0, 1, 2].foldl (fun t k =>
    ((t.onCls k fun rt => { rt with
      finished := true, mirrored := true, settled := true, solved := true, stalledNow := false, resume := false
      missedFull := false, overran := false, firstOut := true, ran := true, stepped := false, passedTo := 0 }).inheritFaults k).setFields
        [(Reg.blwClControlRunAll k, 1), (Reg.blwClStatusRunOverruns k, 0), (Reg.blwClStatusPhase k, 0),
          (Reg.blwClStartKindKind k, 0)]) s

/-- Takeover (R358): every whole record is applied already; claim, notices, role, ports, legacy stations. -/
def State.takeOver (s : State) : State :=
  let s1 : State := { s with erair := { s.erair with notices := 100, confirming := false, swap := none, postSwap := false } }
  let s2 := s1.freshClasses.becomePrimary
  let s3 := if s2.cannotSolve then s2.sendHolds else s2
  s3.raise Reg.eraEventTakeover

/-- A Standby that may take over (R326, R354). -/
def State.mayTakeOver (s : State) : Bool :=
  decide (s.role = 4) && s.bit Reg.eraControlTakeoverEn && !s.erair.clash &&
    (match s.erair.partner with | some h => !h.held | none => true)

end Sys2Proof.Machine
end

