-- ==== Sys2Proof/Machine/Cycle.lean ====
section
/-! DEFINITION. The cycle of a class: its boundary with overrun, stall, switch and Intake (R176-R187, R206-R208), Solve
(R192-R196), Outlay (R187, R273, R390), Mirror (R339-R341) and finish (R185). -/

namespace Sys2Proof.Machine

/-! Boundaries -/

/-- Cycle number `n` of class `k` is a full stoke by its number (R203). -/
def State.stokes (s : State) (k n : Nat) : Bool := decide (n % max 1 (s.fld (Reg.blwClStokeNStokeN k)) = 0)

/-- A number between two boundaries that would have been a full stoke (R203). -/
def State.stokeMissed (s : State) (k last n : Nat) : Bool :=
  let N := max 1 (s.fld (Reg.blwClStokeNStokeN k))
  decide (last / N * N + N < n)

/-- The boundary's number noted: numbers of a locked class that a step of system time has skipped set TIME_STEP, (R180, R181, R203). -/
def State.noteBoundary (s : State) (k n b : Nat) : State :=
  let rt := s.cls k
  let skipped := match rt.number with | some m => decide (m + 1 < n) | none => false
  let missed := match rt.number with | some m => decide (m < n) && s.stokeMissed k m n | none => false
  let s1 := (s.setCls k { rt with number := some n, lastBound := some b, boundNs := some s.bellows.ns, jump := false, stepped := false, passedTo := 0, missedFull := rt.missedFull || missed }).setBit
    (Reg.blwClStatusLocked k) (s.locked k)
  if (skipped || rt.jump) && rt.stepped && s.locked k then s1.raise (Reg.blwClEventTimeStep k) else s1

/-- Frames for a port: with Turnspit they wait for their launch time `b`, or leave at once where it has come (R187, R381, R382). -/
def State.launchFrames (s : State) (p b : Nat) (fs : List TxFrame) : State :=
  if s.turnspitOn then s.hobLaunch p (some b) fs else s.hobQueue p fs

/-- A Blaze station's output image launched at a boundary (R187, R273, R313). -/
def State.launchImage (s : State) (d : StationDecl) (seq : Nat) (ws : List W36) (b : Nat) : State :=
  if d.kind = 4 && s.drives && s.reached d then
    let differs := decide ((s.station d.num).out ≠ ws) || !(s.station d.num).outValid
    let s1 := s.onStation d.num fun t => { t with out := ws, outSeq := seq, outValid := true }
    let fs := s1.hobImageFrames d seq ws
    if s1.hobEff d.hobPort = 1 then s1.launchFrames d.hobPort b fs else s1.sendBusFrames d fs differs
  else s.sendImage d seq ws

/-- The finished Blaze cycle's outputs launched at the boundary at `b` (R187, R206). -/
def State.launchOutputs (s : State) (k b : Nat) : State :=
  let xs := (s.cls k).launch
  xs.foldl (fun t x => match x with
    | .image n seq ws => match t.decl n with
      | some d => t.launchImage d seq ws b
      | none => t
    | .grate c on => t.grateLaunch c on) (s.onCls k fun rt => { rt with launch := [] })

/-- Eight overruns in a row stall the class (R207). -/
def State.stall (s : State) (k : Nat) : State :=
  let s1 := (s.abortCycle k).onCls k fun rt => { rt with stalledNow := true, errStall := true, errDue := true, resume := false }
  let s2 := (s1.classStates.raise (Reg.blwClEventStall k)).record (0x010 + k) 0x02 true [s1.fld (Reg.blwClCycleLoCycleLo k)]
  s2.requestHandover

/-- A boundary finds the cycle unfinished (R206): nothing starts. -/
def State.overrun (s : State) (k n : Nat) : State :=
  let c := min 8 (s.fld (Reg.blwClStatusRunOverruns k) + 1)
  let s1 := s.onCls k fun rt => { rt with overran := true, missedFull := rt.missedFull || s.stokes k n }
  let s2 := ((s1.count (Reg.blwClOverrunsOverruns k)).setFld (Reg.blwClStatusRunOverruns k) c).raise (Reg.blwClEventOverrun k)
  let s3 := s2.record (0x010 + k) 0x03 false [s2.fld (Reg.blwClCycleLoCycleLo k), c]
  if c = 8 then s3.stall k else s3

/-- A stall that software ends at this boundary (R208). -/
def State.takeResume (s : State) (k : Nat) : State :=
  if (s.cls k).resume then (s.endStall k).onCls k fun rt => { rt with runAll := true } else s

/-- The class runtime of a starting cycle. -/
def ClassRt.start (rt : ClassRt) (all : Bool) (now : Nat) : ClassRt :=
  { rt with
    finished := false, mirrored := false, settled := false, solved := false, aborted := false, ran := true
    startedAt := now, missedFull := false, resume := false, runAll := false, allNow := all, overran := false, switchNow := false
    kindTask := 0, tiers := [], inflight := [], dispatched := [], claims := [], poison := []
    run := 0, skip := 0, audits := 0, solveUs := 0, record := none }

/-- The cycle's registers at its flip (R107, R203, R219). -/
def State.startRegs (s : State) (k n b : Nat) (full : Bool) : State :=
  (s.setCycle k n).setFields [
    (Reg.blwClBoundLoBoundLo k, b), (Reg.blwClBoundHiBoundHi k, b / 2 ^ 32), (Reg.blwClStatusFull k, bit01 full),
    (Reg.blwClControlStokeNext k, 0), (Reg.blwClControlRunAll k, 0), (Reg.hrtClFlipSettled k, 0),
    (Reg.blwClStatusPhase k, 1)]

/-- The substitutes of the stations that are dropped or disabled, after the forces (R117, R124). -/
def State.substitutes (s : State) (k : Nat) : State :=
  (s.classDecls k).foldl (fun t d => if 2 ≤ (t.station d.num).state then t.applySubst d.inWords else t) s

/-- The Intake of class `k` after its flip (R117, R186, R389): stations and inputs, injected writes, forces, substitutes. -/
def State.intake (s : State) (k b : Nat) : State :=
  let s1 := (s.grateLatch k).grateIntake k
  let s2 := (s1.classDecls k).foldl (fun t d => t.stationIntake d b) s1
  ((s2.applyInject k).applyForces k).substitutes k

/-- A cycle's flip (R107, R182, R184): a due switch happens, and the class flips. -/
def State.flipCycle (s : State) (k n b : Nat) : State :=
  let s1 := s.takeResume k
  let rt := s1.cls k
  let full := s1.stokes k n || s1.bit (Reg.blwClControlStokeNext k) || rt.missedFull
  let all := s1.bit (Reg.blwClControlRunAll k) || rt.runAll
  let s2 := s1.setCls k (rt.start all s1.bellows.ns)
  let s3 := if s2.switchDue k n b then s2.switchClass k n else s2
  (s3.flip k).startRegs k n b full

/-- The Intake of a cycle after its flip: the migration of a class that has just switched, then the writes of R117 (R227). -/
def State.openIntake (s : State) (k b : Nat) : State :=
  let new := if s.bellows.shadow.isSome then s.bellows.shadow else s.bellows.active
  let s1 := match new with
    | some p => if (s.cls k).switchNow then s.migrate p k else s
    | none => s
  s1.intake k b

/-- The class runs cycles here: Primary, a program, no expiry, no swap under way (R187, R364, R425, R457). -/
def State.cycles (s : State) : Bool :=
  decide (s.mode = modePrimary) && s.bellows.active.isSome && !s.bit Reg.fgdStatusExpired && !s.bit Reg.pwrStatusTransition &&
    (match s.erair.swap with | some w => decide (w.phase < 2) | none => true)

/-- One class at its boundary (R33, R178-R187, R206, R269, R302): loaded spares take over, images latch, Blaze outputs leave, and the class flips, or its cycle
has overrun; says whether it flipped. -/
def State.meetBoundary (s : State) (k n b : Nat) : Bool × State :=
  let s1 := (((s.noteBoundary k n b).takeover k).hobBoundaryCancel k).latchClass k b |>.ageClass k b
  if (s1.cls k).finished then (true, (s1.launchOutputs k b).flipCycle k n b) else (false, s1.overrun k n)

/-- The classes among `js` whose boundaries fall together flip in index order (R182); those that did are listed. -/
def State.flips (s : State) (js : List Nat) (k b : Nat) : List Nat × State :=
  match js with
  | [] => ([], s)
  | j :: rest =>
    match s.due j k b with
    | none => s.flips rest k b
    | some (n, c) =>
      let (on, t) := s.meetBoundary j n c
      let (xs, u) := t.flips rest k b
      (if on then j :: xs else xs, u)

/-- The time of the boundary of class `k` that has come. -/
def State.boundaryNow (s : State) (k : Nat) : Nat :=
  if s.locked k then s.now - (s.now - s.fld (Reg.blwClPhaseOffsetPhaseOffset k) * 1000) % max 1 (s.periodUs k * 1000) else s.now

/-- The images of class `k` latched at `b` on a Standby, each with its age there (R269, R270); ages of the ports of a group in standby
are held at zero (R321). -/
def State.standbyLatch (s : State) (k b : Nat) : State := (s.latchClass k b).ageClass k b

/-- A boundary on a unit that runs no cycles: loaded spares take over (R33), and a Standby latches images as a Primary does (R270). -/
def State.standbyBoundary (s : State) (k : Nat) : State :=
  if s.mode = modeStandby then
    let t := (s.onCls k fun rt => { rt with stepped := false, passedTo := 0 }).takeover k
    if decide (3 ≤ t.role) && t.bellows.active.isSome then t.standbyLatch k (t.boundaryNow k) else t
  else s

/-- CLASS_BOUNDARY of class `k` (R178-R187, R206, R302): the boundaries that fall together flip in index order, and then the
Intakes run (R182). -/
def State.boundary (s : State) (k : Nat) : State :=
  if !s.cycles then s.standbyBoundary k
  else
    match s.arriving k with
    | none => s
    | some (_, b) =>
      let (on, t) := s.flips [0, 1, 2] k b
      on.foldl (fun u j => u.openIntake j b) t

/-- CLASS_BOUNDARY (R184). -/
def execClassBoundary (k : Fin 3) (s : State) : Result := .next (s.boundary k.val)

/-! Solve -/

/-- The class is stalled (R208). -/
def State.stalled (s : State) (k : Nat) : Bool := decide (s.fld (Reg.blwClStatusState k) = 2)

/-- The start task's kind of a class in its first cycle: 2 warm, 3 cold (R188, R212); none in a later one. -/
def State.startTask (s : State) (k : Nat) : Nat :=
  let kind := s.fld (Reg.blwClStartKindKind k)
  if (s.cls k).taskDone then 0
  else if kind = 1 then 2 else if kind = 2 then 3 else 0

/-- Solve opens (R184, R192, R196, R212). -/
def State.openSolve (s : State) (k : Nat) : State :=
  let s1 := (s.onCls k fun rt => { rt with
    kindTask := s.dueTask k (s.startTask k), taskDone := true, solveAt := s.bellows.ns }).importStep k
  (s1.onCls k fun rt => { rt with tiers := s1.solveTiers k (s1.stalled k) }).setFld (Reg.blwClStatusPhase k) 2

/-- INTAKE_COMPLETE (R184). -/
def execIntakeComplete (k : Fin 3) (s : State) : Result :=
  if s.fld (Reg.blwClStatusPhase k.val) = 1 then .next (s.openSolve k.val) else .next s

/-- TIER_OPEN (R192, R194). -/
def execTierOpen (k : Fin 3) (s : State) : Result :=
  if s.fld (Reg.blwClStatusPhase k.val) = 2 && (s.cls k.val).openTier.isNone then
    match (s.cls k.val).nextTier with
    | some t => .next (s.openTier k.val t)
    | none => .next s
  else .next s

/-- TIER_TOKEN (R193): the token of logical engine `l` that is on its way arrives. -/
def execTierToken (k : Fin 3) (l : Fin 128) (s : State) : Result :=
  match (s.cls k.val).inflight.find? fun x => decide (x.2 = l.val) with
  | some (tier, _) => .next ((s.tokenArrives k.val tier l.val).returnToken k.val tier l.val)
  | none => .next s

/-- Every tier has closed (R184). -/
def ClassRt.tiersClosed (rt : ClassRt) : Bool := rt.tiers.all fun t => t.owed.isEmpty && !t.isOpen

/-- The logical engine of a sandbox's instance (R198). -/
def Desc.logicalOf (d : Desc) (inst : Option Nat) : Nat :=
  match inst with
  | some i => match (List.range (d.spread + 1)).find? fun e => (d.slice e).contains i with
    | some e => d.logical + e
    | none => d.logical
  | none => d.logical

/-- The sandbox snapshot at the end of a Solve of its block's class: the copy, the engine's state, and the halt at block
entry (R472). -/
def State.sandboxSnap (s : State) (k : Nat) : State :=
  match s.poker.sandbox, s.poker.snapDue with
  | some (e, b, i), true =>
    match s.desc b with
    | some d =>
      if d.cls ≠ k then s
      else
        let inst := d.sandboxInst i
        let s1 := { s with poker := { s.poker with snapDue := false } }.sandboxCopy
        let s2 := (s1.idleEngine e).setEngState e 5
        let s3 := s2.enter e ⟨b, d.logicalOf inst, d.cls, d.tier, none, false⟩ d (inst.map fun n => (n, false))
        let c := s3.core e
        let s4 := s3.setCore e { c with run := c.run.map fun r => { r with sandbox := true } }
        (s4.setFld Reg.pkrStatusSandbox 1).haltCore e 0
    | none => s
  | _, _ => s

/-- Solve ends (R125, R184): poisoning, the settle starts, Outlay begins. -/
def State.endSolve (s : State) (k : Nat) : State :=
  let s1 := s.poisonWindows (s.cls k).poison
  let s2 := (s1.onCls k fun rt => { rt with poison := [], solved := true, solveUs := (s1.bellows.ns - rt.solveAt) / 1000 }).startSettle k
  (s2.setFields [(Reg.blwClStatusPhase k, 3), (Reg.blwClStatusTier k, 0)]).sandboxSnap k

/-- SOLVE_END (R184). -/
def execSolveEnd (k : Fin 3) (s : State) : Result :=
  if s.fld (Reg.blwClStatusPhase k.val) = 2 && (s.cls k.val).tiersClosed then .next (s.endSolve k.val) else .next s

/-! Outlay -/

/-- An output word under its force; in a stalled cycle its safe value (R122, R208, R273). -/
def State.outputWord (s : State) (k w : Nat) : W36 × State :=
  if s.stalled k then s.substForced w
  else
    let (v, t) := s.deviceRead w 2
    t.forced w v

/-- Output words in order. -/
def State.outputWords (s : State) (k : Nat) (ws : List Nat) : List W36 × State :=
  ws.foldl (fun (p : List W36 × State) w =>
    let (v, t) := p.2.outputWord k w
    (p.1 ++ [v], t)) ([], s)

/-- A station's output at Outlay: sent every cycle, or with OUT_MODE = 1 when it differs from the image last sent (R273); the
commands of a legacy station are weighed at every Outlay (R284). -/
def State.outlayStation (s : State) (k : Nat) (d : StationDecl) : List Held × State :=
  let (ws, t0) := (s.flueOutlay d).outputWords k d.outWords
  let t := t0.fillBuf 3 d.num 0 ws
  if d.outMode && decide (d.kind ≠ 2) && !(s.cls k).firstOut && decide ((t.station d.num).outNew = some ws) then ([], t)
  else ([.image d.num (t.fld (Reg.blwClCycleLoCycleLo k)) ws], t.onStation d.num fun r => { r with outNew := some ws })

/-- A Grate output's state at Outlay (R390). -/
def State.outlayChannel (s : State) (k : Nat) (c : ChanDecl) : List Held × State :=
  if c.mode = 3 then
    let (w, t) := (s.flueAsk nodeGrate (portChannel k) c.point 1).outputWord k (imageWord c.point)
    ([.grate c.chan (outlayState w (t.bit (Reg.grtGConfigSafe c.chan)))], t)
  else ([], s)

/-- Everything that the Outlay of class `k` queues (R184). -/
def State.outlayItems (s : State) (k : Nat) : List Held × State :=
  let p := (s.classDecls k).foldl (fun (p : List Held × State) d =>
    let (xs, t) := p.2.outlayStation k d
    (p.1 ++ xs, t)) ([], s)
  (p.2.channels k).foldl (fun (q : List Held × State) c =>
    let (xs, t) := q.2.outlayChannel k c
    (q.1 ++ xs, t)) p

/-- The class is mirrored before Outlay (R339). -/
def State.mbo (s : State) (k : Nat) : Bool := decide (k ≠ 0) && s.fldBit Reg.eraControlMbo (k - 1)

/-- The outputs of a cycle leave, or are held for the next boundary or the acknowledgement (R187, R339). -/
def State.queueOutputs (s : State) (k : Nat) (xs : List Held) : State :=
  if k = 0 then s.onCls k fun rt => { rt with launch := xs }
  else if s.mbo k && decide (s.role = 7) then s.onCls k fun rt => { rt with waiting := rt.waiting ++ [(s.cycle k, xs)] }
  else s.releaseItems xs

/-- The Outlay of class `k` ends and Mirror captures the record (R184, R333). -/
def State.endOutlay (s : State) (k : Fin 3) : State :=
  let (xs, s1) := s.outlayItems k.val
  let s2 := s1.queueOutputs k.val xs
  let rec? := if s2.role = 6 ∨ s2.role = 7 then some (s2.captureRecord k) else none
  let s3 := match rec? with | some r => s2.flueRecord r | none => s2
  (s3.onCls k.val fun rt => { rt with
    record := rec?, firstOut := false, switchNow := false, faults := false, blocksLog := [], stationsLog := [], eventsLog := [] }).setFld
      (Reg.blwClStatusPhase k.val) 4

/-- OUTLAY_END (R184, R187, R273, R390). -/
def execOutlayEnd (k : Fin 3) (s : State) : Result :=
  if s.fld (Reg.blwClStatusPhase k.val) = 3 then .next (s.endOutlay k) else .next s

/-! Mirror and finish -/

/-- A cycle finishes (R185, R206, R240, R456). -/
def State.finishCycle (s : State) (k : Nat) : State :=
  let rt := s.cls k
  let s1 := s.setCls k { rt with finished := true, lastDone := if rt.aborted then rt.lastDone else s.fld (Reg.blwClCycleLoCycleLo k) }
  let s2 := s1.cycleStats k
  let s3 := if rt.overran || rt.aborted then s2 else s2.setFld (Reg.blwClStatusRunOverruns k) 0
  let s4 := s3.guardService k
  (if s4.edit.endDue = some k then s4.switchEnd else s4).holdDue.rakeCheck.applyStopped

/-- The cycle is finished once Mirror, Solve and settle have ended (R185). -/
def State.checkFinish (s : State) (k : Nat) : State :=
  let rt := s.cls k
  if !rt.finished && rt.mirrored && rt.settled && (rt.solved || rt.aborted) then s.finishCycle k else s

/-- The Mirror phase ends (R184). -/
def State.mirrorDone (s : State) (k : Nat) : State :=
  ((s.onCls k fun rt => { rt with mirrored := true, record := none }).setFld (Reg.blwClStatusPhase k) 0).checkFinish k

/-- The record handed to Erair, or the wait or the desynchronization that the fifth one meets (R338-R341). -/
def State.handOver (s : State) (k : Nat) : State :=
  match (s.cls k).record with
  | none => s.mirrorDone k
  | some r =>
    if s.role ≠ 6 ∧ s.role ≠ 7 then s.mirrorDone k
    else if s.outstandingOf k < 4 then (s.sendRecord k r).mirrorDone k
    else if s.mbo k then s
    else (s.desync 3).mirrorDone k

/-- MIRROR_HANDOVER (R339-R341). -/
def execMirrorHandover (k : Fin 3) (s : State) : Result :=
  if s.fld (Reg.blwClStatusPhase k.val) = 4 then .next (s.handOver k.val) else .next s

/-- SETTLE_END (R108, R185). -/
def execSettleEnd (k : Fin 3) (s : State) : Result :=
  if s.fldBit Reg.hrtStatusSettling k.val then
    .next ((((s.settle k.val).setFldBit Reg.hrtStatusSettling k.val false).setFld (Reg.hrtClFlipSettled k.val) 1).onCls k.val
      (fun rt => { rt with settled := true }) |>.checkFinish k.val)
  else .next s

end Sys2Proof.Machine
end

