-- ==== Sys2Proof/Machine/BlwCmd.lean ====
section
/-! DEFINITION. The commands of the Bellows pages: class control (R177-R180, R208, R219) and blocks (R211, R214, R220). -/

namespace Sys2Proof.Machine

/-- A write of BLW_CLn_CONTROL (R180, R208, R219): RESUME ends a stall at the next boundary. -/
def State.blwControl (s : State) (k v : Nat) : State :=
  let rises := bitOf v 0 && !s.bit (Reg.blwClControlLock k)
  let s1 := s.setFields [(Reg.blwClControlLock k, bitsOf v 0 1), (Reg.blwClControlStokeNext k, bitsOf v 1 1),
    (Reg.blwClControlRunAll k, bitsOf v 2 1)]
  s1.onCls k fun rt => { rt with
    jump := if rises then true else rt.jump && bitOf v 0
    resume := rt.resume || (bitOf v 3 && rt.stalledNow) }

/-- STALL_RESUME (R208). -/
def execStallResume (r : Requester) (k : Fin 3) (v : W32) (s : State) : Result :=
  .next (s.writeAs r (0x010 + k.val) 0x008 fun t => t.blwControl k.val v.toNat)

/-- BLW_LOCK_WRITE (R180). -/
def execBlwLockWrite (r : Requester) (k : Fin 3) (v : W32) (s : State) : Result :=
  .next (s.writeAs r (0x010 + k.val) 0x008 fun t => t.blwControl k.val v.toNat)

/-- A write of BLW_CLn_PERIOD: in Held only, in the class's range and step, above the phase offset (R177, R178). -/
def State.blwPeriod (s : State) (k v : Nat) : State :=
  let us := bitsOf v 0 26
  if s.mode = modeHeld ∧ periodGood k us ∧ s.fld (Reg.blwClPhaseOffsetPhaseOffset k) < us then
    (s.setFld (Reg.blwClPeriodPeriod k) us).onCls k fun rt => { rt with jump := true }
  else s

/-- BLW_PERIOD_WRITE (R177, R178). -/
def execBlwPeriodWrite (r : Requester) (k : Fin 3) (v : W32) (s : State) : Result :=
  .next (s.writeAs r (0x010 + k.val) 0x020 fun t => t.blwPeriod k.val v.toNat)

/-- A write of BLW_CLn_PHASE_OFFSET: below the period (R178). -/
def State.blwOffset (s : State) (k v : Nat) : State :=
  if bitsOf v 0 26 < s.periodUs k then s.setFld (Reg.blwClPhaseOffsetPhaseOffset k) (bitsOf v 0 26) else s

/-- BLW_PHASE_OFFSET_WRITE (R178). -/
def execBlwPhaseOffsetWrite (r : Requester) (k : Fin 3) (v : W32) (s : State) : Result :=
  .next (s.writeAs r (0x010 + k.val) 0x024 fun t => t.blwOffset k.val v.toNat)

/-- A block named in BLW_BLOCK_CTL; an unknown ID is captured (R220). -/
def State.onBlock (s : State) (b : Nat) (f : Desc → State → State) : State :=
  match s.desc b with
  | some d => f d s
  | none => s.capture Reg.blwErrorCaptureKind [(Reg.blwErrorCaptureBlock, b), (Reg.blwErrorCaptureKind, 1)]

/-- The enable operation: a disabled block runs again as a first run; for the error task it clears ERRTASK_OFF (R205,
R211, R214). -/
def State.enableBlock (s : State) (d : Desc) : State :=
  let r := s.blockRt d.id
  let s1 := if r.state = 0 then s
    else (s.setBlockRt d.id { r with state := 0, firstRun := true }).logBlock d.cls d.id 3 0 none d.logical false
  if d.task = 1 then (s1.setFld (Reg.blwClStatusErrtaskOff d.cls) 0).onCls d.cls fun rt => { rt with errFaults := 0 } else s1

/-- BLOCK_ENABLE (R211, R214, R220). -/
def execBlockEnable (r : Requester) (block : BitVec 20) (s : State) : Result :=
  .next (s.writeAs r 0x013 0x020 fun t => t.onBlock block.toNat fun d u => u.enableBlock d)

/-- The disable operation (R211). -/
def State.disableBlock (s : State) (d : Desc) : State :=
  (s.setBlockRt d.id { s.blockRt d.id with state := 2 }).logBlock d.cls d.id 6 0 none d.logical false

/-- BLOCK_DISABLE (R211, R220). -/
def execBlockDisable (r : Requester) (block : BitVec 20) (s : State) : Result :=
  .next (s.writeAs r 0x013 0x020 fun t => t.onBlock block.toNat fun d u => u.disableBlock d)

/-- Every disabled instance of a block enabled; the block runs again as a first run (R200, R205, R220; log 32). -/
def State.enableInstances (s : State) (d : Desc) : State :=
  let mine := s.bellows.instOff.filter fun x => decide (x.1 = d.id)
  if mine.isEmpty then s
  else
    let s1 := (s.setInstOff (s.bellows.instOff.filter fun x => decide (x.1 ≠ d.id))).setBlockRt d.id
      { s.blockRt d.id with firstRun := true }
    mine.foldl (fun t x => t.logBlock d.cls d.id 5 0 (some x.2) d.logical false) s1

/-- ENABLE_ALL_INSTANCES (R200, R220). -/
def execEnableAllInstances (r : Requester) (block : BitVec 20) (s : State) : Result :=
  .next (s.writeAs r 0x013 0x020 fun t => t.onBlock block.toNat fun d u => u.enableInstances d)

end Sys2Proof.Machine
end

