-- ==== Sys2Proof/Machine/GrateCmd.lean ====
section
/-! DEFINITION. The commands of the Grate channels: configuration (R386, R394), protection (R392) and supplies (R393). -/

namespace Sys2Proof.Machine

/-- GRATE_CONFIG_WRITE (R386, R394, R396). -/
def execGrateConfigWrite (r : Requester) (n : Fin 16) (v : W32) (s : State) : Result :=
  .next (s.writeAs r 0x019 (0x040 + 4 * n.val) fun t => t.grateConfig n.val v)

/-- GRATE_PAIR_WRITE (R394). -/
def execGratePairWrite (r : Requester) (v : W32) (s : State) : Result :=
  .next (s.writeAs r 0x019 0x020 fun t => t.gratePair v)

/-- An output turns off in protection with its event (R392). -/
def State.grateProtect (s : State) (n i : Nat) (f : Fld) : State :=
  if s.fldBit Reg.grtOutStateOutState n then
    let s1 := (s.setChannel n { s.channel n with retry := false }).setFldBit Reg.grtFaultFault n true
    ((s1.setFldBit Reg.grtOutStateOutState n false).grtCapture n (i + 1)).raise f
  else s

/-- GRATE_OVERLOAD (R392). -/
def execGrateOverload (n : Fin 16) (s : State) : Result := .next (s.grateProtect n.val 2 Reg.grtEventOverload)

/-- GRATE_THERMAL (R392). -/
def execGrateThermal (n : Fin 16) (s : State) : Result := .next (s.grateProtect n.val 3 Reg.grtEventThermal)

/-- GRATE_RETRY (R392): a faulted output whose commanded state is still on switches on again. -/
def execGrateRetry (n : Fin 16) (s : State) : Result :=
  if s.fldBit Reg.grtFaultFault n.val && (s.channel n.val).cmd then
    .next ((s.setChannel n.val { s.channel n.val with retry := true }).grateOne n.val)
  else .next s

/-- GRATE_FAULT_CLEAR (R392): a retry has run for 100 us without limiting. -/
def execGrateFaultClear (n : Fin 16) (s : State) : Result :=
  if (s.channel n.val).retry && s.fldBit Reg.grtOutStateOutState n.val then
    .next ((s.setFldBit Reg.grtFaultFault n.val false).setChannel n.val { s.channel n.val with retry := false })
  else .next s

/-- GRATE_SUPPLY_CHANGE (R393). -/
def execGrateSupplyChange (g : Fin 2) (mv : Nat) (s : State) : Result :=
  let (state, volts, event) := if g.val = 0 then (Reg.grtStatusSupplyA, Reg.grtSupplyAMvMv, Reg.grtEventSupplyA)
    else (Reg.grtStatusSupplyB, Reg.grtSupplyBMvMv, Reg.grtEventSupplyB)
  if !s.fit.grate then .next s
  else
    let s1 := s.setFld volts (min mv 65535)
    let new := supplyState (s.fld state) mv
    if new = s.fld state then .next s1
    else .next ((((s1.setFld state new).grtCapture (8 * g.val) (g.val + 1)).raise event).grateUpdate)

end Sys2Proof.Machine
end

