-- ==== Sys2Proof/Machine/Hardware.lean ====
section
/-! DEFINITION. The loss of hardware in service: engines, clusters and their spares (R31-R36, R40, R41), DRAM channels
(R38, R39), Chimney ports (R37), and broken ledgers (R49). -/

namespace Sys2Proof.Machine

/-! Engines out of their special states -/

/-- PKR_STATUS.HALTED follows the cores (R476). -/
def State.refreshHalted (s : State) : State := s.setBit Reg.pkrStatusHalted (s.cores.any fun c => c.2.halted)

/-- A sandbox ends other than by command: its engine is a spare again (R36, R472). -/
def State.sandboxLost (s : State) : State :=
  match s.poker.sandbox with
  | none => s
  | some (e, _, _) =>
    let s1 := if s.engState e = 5 then s.setEngState e 2 else s
    let s2 := (s1.idleEngine e).refreshHalted
    ({ s2 with poker := { s2.poker with sandbox := none, snapDue := false } }.setFld Reg.pkrStatusSandbox 0).raise
      Reg.pkrEventSandboxEnd

/-- The sandbox of a cluster ends at once (R36, R472). -/
def State.sandboxOut (s : State) (n : Nat) : State :=
  match s.poker.sandbox with
  | some (e, _, _) => if clusterOf e = n then s.sandboxLost else s
  | none => s

/-- A Sweep test of a spare that its cluster needs is abandoned (R461). -/
def State.sweepAbandon (s : State) (e : Nat) : State :=
  if s.sweepTest = some (1, e) then
    ({ s with sweepTest := none }.setFields [(Reg.swpStatusBusy, 0), (Reg.swpResultDone, 1), (Reg.swpResultPass, 0),
      (Reg.swpResultAborted, 1), (Reg.swpResultKind, 1), (Reg.swpResultIndex, e)]).raise Reg.swpEventDone
  else s

/-! Losing engines -/

/-- The blocks of the logical engines that run on engine `e` count as faulted in each class in Solve (R31, R32). -/
def State.loseHosted (s : State) (e : Nat) : State :=
  [0, 1, 2].foldl (fun t k =>
    ((t.hosted e).filter fun l => decide (t.hostOf l k = some e)).foldl (fun u l => u.loseLogical k l) t) s

/-- Engine `e` out of service in state `v`: its running block aborted, nothing loaded, no fold on it (R31, R36). -/
def State.engineOut (s : State) (e v : Nat) : State :=
  let s1 := (if (s.core e).run.isSome then s.flushStores e else s).idleEngine e
  let s2 := { s1 with loaded := Sparse.put s1.loaded (0, 0) e (0, 0) }.setLink (intoNode e) Link.reset
  ((s2.foldedOn e).foldl (fun t l => t.setFold e l false) s2).setEngState e v

/-- Logical engine `l` folds where no engine runs it in every class (R31, R34). -/
def State.rehost (s : State) (l : Nat) : State :=
  match s.folderOf l, s.ownerOf l with
  | some _, _ => s
  | none, some e => if s.pendingClasses e = 0 then s else s.fold l
  | none, none => s.fold l

/-- The spare that a failure at the same moment has started to load for a higher-numbered logical engine (R36; the same Bellows
ns stands for the same gate clock: DESIGN CHOICE, log 64). -/
def State.contestedSpare (s : State) (n l : Nat) : Option Nat :=
  (clusterEngines n).find? fun e => decide (s.engState e = 3) && decide ((s.core e).entryNs = s.bellows.ns) &&
    decide (s.pendingClasses e = 0) && decide (l < s.fld (Reg.fbxERoleLogical e))

/-- The spare of a cluster starts to load logical engine `l` where SPARE_POLICY.AUTO allows it (R33, R35, R36, R461). -/
def State.takeSpare (s : State) (n l : Nat) : State :=
  if !s.bit (Reg.fbxKSparePolicyAuto n) then s
  else
    match s.spareOf n, s.contestedSpare n l with
    | some e, _ => (s.sweepAbandon e).startSpare e l
    | none, some e => s.startSpare e l
    | none, none => s

/-- An engine fails (R31-R36): its links closed and their credits reclaimed, `credits` of them on the link into it (log 47), its
block aborted, tokens returned, marked failed, folded or on its spare. -/
def State.failEngine (s : State) (e : Nat) (credits : Fin 35) : State :=
  let n := clusterOf e
  if s.engState e = 4 then s
  else
    let was := s.engState e
    let own := s.fld (Reg.fbxERoleLogical e)
    let lost := (if was = 1 then [own] else []) ++ s.foldedOn e
    let s1 := (s.setFld (Reg.fbxKCreditLogReclaimed n) ((s.core e).link.reclaimed + max (s.link (intoNode e)).reclaimed credits.val)).sandboxOut n
    let s2 := ((s1.loseHosted e).engineOut e 4).raise (Reg.fbxKEventEngineFailed n)
    let s3 := lost.foldl State.rehost (if was = 1 then s2.takeSpare n own else s2)
    ((s3.sweepAbandon e).refreshHalted).checkService

/-- A whole cluster mapped out: its engines that are not failed go off in one state change, its logical engines fold
(R36, R40; log 115). CREDIT_LOG.RECLAIMED stays: R31 counts a close at an engine's failure or map-out, and no rule says that this is
one (DESIGN CHOICE, log 140). -/
def State.mapOutCluster (s : State) (n : Nat) : State :=
  let es := (clusterEngines n).filter fun e => decide (s.engState e ≠ 4)
  let ls := es.flatMap fun e => (if s.engState e = 1 then [s.fld (Reg.fbxERoleLogical e)] else []) ++ s.foldedOn e
  let s1 := es.foldl State.loseHosted (s.sandboxOut n)
  let s2 := es.foldl (fun t e => (t.sweepAbandon e).engineOut e 0) s1
  ((ls.foldl State.rehost s2).refreshHalted).checkService

/-- ENGINE_FAILURE (R31-R36). -/
def execEngineFailure (e : Fin 144) (credits : Fin 35) (s : State) : Result := .next (s.failEngine e.val credits)

/-- FBX_ENGINE_MAPOUT (R31, R41). -/
def execFbxEngineMapout (r : Requester) (e : Fin 144) (v : W32) (credits : Fin 35) (s : State) : Result :=
  .next (s.writeAs r (0x040 + e.val) 0x024 fun t => if bitOf v.toNat 0 then t.failEngine e.val credits else t)

/-- SPARE_LOAD_DONE (R33, R536). -/
def execSpareLoadDone (e : Fin 144) (s : State) : Result := .next (s.spareLoaded e.val)

/-- FBX_CLUSTER_MAPOUT (R36, R40). -/
def execFbxClusterMapout (r : Requester) (n : Fin 16) (v : W32) (s : State) : Result :=
  .next (s.writeAs r (0x020 + n.val) 0x028 fun t => if bitOf v.toNat 0 then t.mapOutCluster n.val else t)

/-- CLUSTER_DOMAIN_FAULT (R36). -/
def execClusterDomainFault (n : Fin 16) (s : State) : Result := .next (s.mapOutCluster n.val)

/-! DRAM channels -/

/-- The state of a channel: 0 absent, 1 in service, 2 mapped out, 3 resilvering (R42). -/
def State.chState (s : State) (ch : Nat) : Nat := bitsOf (s.fld Reg.drmChStateChState) (2 * ch) 2

/-- A channel's state written. -/
def State.setChState (s : State) (ch v : Nat) : State :=
  let other := bitsOf (s.fld Reg.drmChStateChState) (2 * (1 - ch)) 2
  s.setFld Reg.drmChStateChState (v * 4 ^ ch + other * 4 ^ (1 - ch))

/-- R38 allows the map-out of these channels: one, with mirroring on and the other in service. -/
def State.mayMapOut (s : State) (bits : Nat) : Bool :=
  s.bit Reg.drmConfigMirror &&
    ((decide (bits = 1) && decide (s.chState 0 ≠ 0) && decide (s.chState 1 = 1)) ||
     (decide (bits = 2) && decide (s.chState 1 ≠ 0) && decide (s.chState 0 = 1)))

/-- A write of the MAPOUT bits (R38, R42). -/
def State.mapOutChannels (s : State) (bits : Nat) : State :=
  if bits = 0 then s
  else if s.mayMapOut bits then s.setChState (bits - 1) 2
  else s.capture Reg.drmErrorCaptureCode [(Reg.drmErrorCaptureGranule, bits), (Reg.drmErrorCaptureCode, 1)]

/-- A write of the RETURN bits (R39): a mapped-out channel resilvers while mirroring is on. -/
def State.returnChannels (s : State) (bits : Nat) : State :=
  [0, 1].foldl (fun t ch =>
    if bitOf bits ch && t.bit Reg.drmConfigMirror && decide (t.chState ch = 2) then t.setChState ch 3 else t) s

/-- DRM_MAPOUT (R38, R42). -/
def execDrmMapout (r : Requester) (v : W32) (s : State) : Result :=
  .next (s.writeAs r 0x130 0x028 fun t => t.mapOutChannels (bitsOf v.toNat 0 2))

/-- DRM_RETURN (R39, R42). -/
def execDrmReturn (r : Requester) (v : W32) (s : State) : Result :=
  .next (s.writeAs r 0x130 0x028 fun t => t.returnChannels (bitsOf v.toNat 2 2))

/-- RESILVER_DONE (R39). -/
def execResilverDone (ch : Fin 2) (s : State) : Result :=
  if s.chState ch.val = 3 then .next (s.setChState ch.val 1) else .next s

/-- DRAM_CHANNEL_FAULT (R38): with a mirrored channel in service no data is lost; without one the unit's service ends. -/
def execDramChannelFault (ch : Fin 2) (s : State) : Result :=
  if s.chState ch.val = 0 ∨ s.chState ch.val = 2 ∨ s.mode = modeEmber then .next s
  else if s.bit Reg.drmConfigMirror && decide (s.chState (1 - ch.val) = 1) then .next s
  else .next s.requestHandover.douse

/-! Chimney ports -/

/-- CHM_PORT_MAPOUT (R37): the link is down; sessions keep their connection IDs, legacy connections open again over the ports that
remain. -/
def State.chmMapOut (s : State) (x : Nat) : State :=
  let s1 := if s.bit (Reg.chmXStatusLink x) then
      (s.setFields [(Reg.chmXStatusLink x, 0), (Reg.chmXStatusSpeed x, 0)]).chmXRaise x 0 (Reg.chmXEventLinkChange x) else s
  (s1.setFld (Reg.chmXStatusMappedOut x) 1).legacyPortLost x

/-- CHM_PORT_MAPOUT (R37, R43). -/
def execChmPortMapout (r : Requester) (x : Fin 40) (v : W32) (s : State) : Result :=
  .next (s.writeAs r (0x101 + x.val) 0x06C fun t => if bitOf v.toNat 0 then (t.chmMapOut x.val).checkService else t)

/-! Ledgers -/

/-- A broken ledger of Bellows, captured with its KIND and the block concerned, 0 where there is none (R49, R220). -/
def State.blwLedger (s : State) (kind block : Nat) (f : Fld) (payload : List Nat) : State :=
  ((s.capture Reg.blwErrorCaptureKind [(Reg.blwErrorCaptureBlock, block), (Reg.blwErrorCaptureKind, kind)]).raise f).record
    0x013 0x01 true payload

/-- The block whose token a tier's ledger misses first (R220). -/
def State.owedBlock (s : State) (k : Nat) (t : TierRt) : Nat :=
  match t.owed.head?.bind (s.blockAt k t.tier) with
  | some d => d.id
  | none => 0

/-- A balance that stays broken (R48, R49): the owning page's ledger event and a privileged record (R417, log 13). -/
def State.breakLedger (s : State) (l : Ledger) : State :=
  match l with
  | .gateCredit n link => (s.raise (Reg.fbxKEventCreditLedger n.val)).record (0x020 + n.val) 0x01 true [0, link]
  | .gateResponse n src => (s.raise (Reg.fbxKEventResponseLedger n.val)).record (0x020 + n.val) 0x01 true [1, src]
  | .otherFlue count => s.blwLedger 3 0 Reg.blwEventFlueLedger [3, count]
  | .engines count => s.blwLedger 4 0 Reg.blwEventEngineLedger [4, count]
  | .tokens k tier =>
    let t := ((s.cls k.val).tiers.find? fun x => decide (x.tier = tier)).getD ⟨tier, [], [], false⟩
    s.blwLedger 2 (s.owedBlock k.val t) Reg.blwEventLedger [k.val, tier, t.assigned.length, t.assigned.length - t.owed.length]
  | .hobTx p =>
    let h := s.hobPort p.val
    (s.hobRaise p.val 1 Reg.hobEventLedger).record 0x200 0x01 true
      [p.val, (h.inState 0).length, (h.inState 1).length, (h.inState 2).length]
  | .segments n =>
    let a := (s.station n).assembly.getD ⟨0, 0, [], false⟩
    (s.chmRaise n Reg.chmEventLedger.lo Reg.chmEventLedger).record 0x100 0x01 true [n, a.held.length, a.count]
  | .records k =>
    (s.raise Reg.eraEventLedger).record 0x016 0x03 true [k.val, Sparse.get s.erair.sent 0 k.val, Sparse.get s.erair.acked 0 k.val]
  | .retain =>
    let n (v : Nat) := ((List.range 8).filter fun i => decide (Sparse.get s.mantel.slots 0 i = v)).length
    (s.raise Reg.mntEventLedger).record 0x005 0x02 true [n 0, n 1, n 2]

/-- LEDGER_BREAK (R49). -/
def execLedgerBreak (l : Ledger) (s : State) : Result := .next (s.breakLedger l)

end Sys2Proof.Machine
end

