-- ==== Sys2Proof/Machine/GuardCmd.lean ====
section
/-! DEFINITION. The commands of the Fireguard (R453-R457) and of Sweep's requested tests (R460, R461). -/

namespace Sys2Proof.Machine

/-! Fireguard -/

/-- A configuration write of guard `guard`, 1 the system guard and 2 to 4 the class guards, that is not accepted (R9, R454,
R474). -/
def State.fgdRefuse (s : State) (guard : Nat) : State :=
  (s.capture Reg.fgdErrorCaptureGuard [(Reg.fgdErrorCaptureGuard, guard)]).raise Reg.fgdEventRefused

/-- A write of FGD_SYS_CONFIG: the first accepted one turns the guard on and locks it (R454). -/
def State.fgdSysConfig (s : State) (v : Nat) : State :=
  let wmin := bitsOf v 0 16
  let wmax := bitsOf v 16 16
  if s.bit Reg.fgdStatusSysOn then s
  else if wmax = 0 ∨ wmax ≤ wmin then s.fgdRefuse 1
  else
    { s with fireguard := { s.fireguard with elapsed := 0 } }.setFields
      [(Reg.fgdSysConfigWmin, wmin), (Reg.fgdSysConfigWmax, wmax), (Reg.fgdStatusSysOn, 1)]

/-- A write of FGD_CLk_CONFIG (R454, R456). -/
def State.fgdClConfig (s : State) (k v : Nat) : State :=
  let wmaxp := bitsOf v 4 8
  if s.fldBit Reg.fgdStatusClOn k then s
  else if wmaxp < 2 then s.fgdRefuse (2 + k)
  else
    ((s.setFields [(Reg.fgdClConfigWmin16 k, bitsOf v 0 4), (Reg.fgdClConfigWmaxp k, wmaxp)]).setFldBit Reg.fgdStatusClOn k
      true).guardPause k

/-- FGD_CONFIG_WRITE (R454). -/
def execFgdConfigWrite (r : Requester) (g : Sys2Proof.Guard) (v : W32) (s : State) : Result :=
  .next (match g with
    | .system => s.writeAs r 0x002 0x020 fun t => t.fgdSysConfig v.toNat
    | .cls k => s.writeAs r 0x002 (0x030 + 4 * k.val) fun t => t.fgdClConfig k.val v.toNat)

/-- A write of FGD_SYS_SERVICE: a service, or a failure that expires the guard at once; WMAX comes first (R455). -/
def State.fgdService (s : State) (v : Nat) : State :=
  if !s.bit Reg.fgdStatusSysOn || s.bit Reg.fgdStatusExpired then s
  else if s.guardReached .system then s.guardExpires 1 false
  else if v = 0xC3A5 ∧ s.fld Reg.fgdSysConfigWmin * 100000 ≤ s.fireguard.elapsed then
    { s with fireguard := { s.fireguard with elapsed := 0 } }
  else s.guardExpires 1 true

/-- FGD_SERVICE (R455). -/
def execFgdService (r : Requester) (v : W32) (s : State) : Result :=
  .next (s.writeAs r 0x002 0x024 fun t => t.fgdService v.toNat)

/-- GUARD_EXPIRY (R455-R457): a guard that counts has reached its upper limit. -/
def execGuardExpiry (g : Sys2Proof.Guard) (s : State) : Result := .next (s.guardLate g)

/-! Sweep -/

/-- A test request refused: 1 BUSY, 2 IN_SERVICE, 3 no such target (R460, R475). -/
def State.swpRefuse (s : State) (code : Nat) : State :=
  (s.capture Reg.swpErrorCaptureCode [(Reg.swpErrorCaptureCode, code)]).raise Reg.swpEventRefused

/-- The number of targets of a kind (R460). -/
def sweepTargets (kind : Nat) : Nat :=
  if kind = 1 then 144 else if kind = 2 then 16 else if kind = 3 then 192 else if kind = 4 then 40 else 0

/-- A target is out of service (R460). -/
def State.outOfService (s : State) (kind i : Nat) : Bool :=
  if kind = 1 then decide (s.engState i = 2) || decide (s.engState i = 4) || decide (s.engState i = 0)
  else if kind = 2 then (clusterEngines i).all fun e => decide (s.engState e = 0) || decide (s.engState e = 4)
  else if kind = 3 then decide (s.hobEff i = 6)
  else s.bit (Reg.chmXStatusMappedOut i)

/-- The node of a test target: the engine, its cluster's first one for a gate, the sequencer of a port, the Chimney cores (R19, R460). -/
def sweepNode (kind i : Nat) : Nat :=
  if kind = 1 then i else if kind = 2 then 9 * i else if kind = 3 then nodeHob i else nodeChimney

/-- A write of SWP_REQUEST (R460): an accepted test starts over VC3 (R19). A down SWP component refuses every request (R516). -/
def State.swpRequest (s : State) (v : Nat) : State :=
  let kind := bitsOf v 0 4
  let i := bitsOf v 4 8
  if !bitOf v 12 then s
  else if s.fld (Reg.rlnVerState 6) ≠ 1 then s.raise Reg.swpEventRefused
  else if s.sweepTest.isSome then s.swpRefuse 1
  else if sweepTargets kind ≤ i then s.swpRefuse 3
  else if !s.outOfService kind i then s.swpRefuse 2
  else
    ({ s with sweepTest := some (kind, i) }.flueSend nodeSweep .vc3 .dispatch (sweepNode kind i) []).setFields [(Reg.swpStatusBusy, 1), (Reg.swpResultDone, 0), (Reg.swpResultPass, 0),
      (Reg.swpResultAborted, 0), (Reg.swpResultKind, kind), (Reg.swpResultIndex, i)]

/-- SWEEP_REQUEST (R460). -/
def execSweepRequest (r : Requester) (v : W32) (s : State) : Result :=
  .next (s.writeAs r 0x004 0x020 fun t => t.swpRequest v.toNat)

/-- An engine that has been tested: its local store is lost, and a spare that fails becomes failed (R461). -/
def State.engineTested (s : State) (e : Nat) (pass : Bool) : State :=
  let s1 := s.setCore e { s.core e with ls := [], codeOf := none }
  if pass ∨ s1.engState e ≠ 2 then s1 else (s1.setEngState e 4).checkService

/-- SWEEP_TEST_DONE (R461): the comparison's verdict and the signature. -/
def execSweepTestDone (pass : Bool) (signature : W32) (s : State) : Result :=
  .next (match s.sweepTest with
    | none => s
    | some (kind, i) =>
      let s1 := ({ s with sweepTest := none }.setFields [(Reg.swpStatusBusy, 0), (Reg.swpResultDone, 1),
        (Reg.swpResultPass, bit01 pass), (Reg.swpSignatureSignature, signature.toNat)]).raise Reg.swpEventDone
      let s2 := if pass then s1 else s1.raise Reg.swpEventFail
      if kind = 1 then s2.engineTested i pass else s2)

end Sys2Proof.Machine
end

