-- ==== Sys2Proof/Machine/HostImage.lean ====
section
/-! DEFINITION. The host window onto the Hearth (R134-R137), the scrub (R132) and granule copies on request (R132). -/

namespace Sys2Proof.Machine

/-- The size of the host window in slots (R134). -/
def hostSlots : Nat := 0x1400000

/-- A Hearth word as a host read returns it (R103, R119, R132, R137). -/
def State.hostWord (s : State) (a : Nat) : W36 × State :=
  if isCurAddr a then
    let w := imageWord a
    if s.bit Reg.hrtControlHostSnapshot then s.viewRead w true 4
    else
      match s.pendingInject w with
      | some v => (v, s)
      | none => s.viewRead w false 4
  else if s.addrBad a then (0, s.uncorrectableAt a 4)
  else (s.hearthWord a, s)

/-- One slot of the window: zero past its end (R134). -/
def State.hostSlot (s : State) (i : Nat) : W36 × State := if i < hostSlots then s.hostWord (hearthBase + i) else (0, s)

/-- Slots in order. -/
def State.hostSlotsFrom (s : State) (i n : Nat) : List W36 × State :=
  (List.range n).foldl (fun (p : List W36 × State) x =>
    let (w, t) := p.2.hostSlot (i + x)
    (p.1 ++ [w], t)) ([], s)

/-- `len` bytes of the window from byte `off` on, over VC3 (R19, R135). -/
def State.hostBytes (s : State) (off len : Nat) : List Byte × State :=
  let first := off / 8
  let n := (off + len + 7) / 8 - first
  let (ws, t) := (s.flueAsk nodeHost .vc3 (hearthBase + first) (min n (hostSlots - first))).hostSlotsFrom first n
  (((ws.flatMap slotBytes).drop (off - 8 * first)).take len, t)

/-- HOST_IMAGE_READ (R134, R135, R137). -/
def execHostImageRead (off len : Nat) (s : State) : Result :=
  if s.hostUp then
    let (bs, t) := s.hostBytes off len
    .next (t.send (.hostData bs))
  else .next s

/-- A host write discarded (R136). -/
def State.hostDiscard (s : State) (i : Nat) : State :=
  (s.capture Reg.hrtErrorCaptureKind [(Reg.hrtErrorCaptureOffset, i), (Reg.hrtErrorCaptureKind, 2)]).raise
    Reg.hrtEventHostDiscard

/-- A whole slot written by the host over VC3 (R19, R102, R118, R136, R335). Beyond the Hearth R134 discards a write without more, and it sets no
HOST_DISCARD (DESIGN CHOICE, log 141). -/
def State.hostStore (s : State) (i : Nat) (slot : Nat) : State :=
  let a := hearthBase + i
  if hostSlots ≤ i then s
  else if 2 ^ 36 ≤ slot ∨ !isCurAddr a then s.hostDiscard i
  else
    let w := imageWord a
    let t := s.flueSend nodeHost .vc3 .store a [BitVec.ofNat 36 slot]
    if t.wordClass w = 3 then t.writeWord w (BitVec.ofNat 36 slot)
    else if t.isStandby then t.hostDiscard i
    else t.injectWrite w (BitVec.ofNat 36 slot)

/-- A write request of the host split into its slots, in address order (R136). -/
def State.hostWrite (s : State) (off : Nat) (data : List Byte) : State :=
  let last := off + data.length
  (List.range ((last + 7) / 8 - off / 8)).foldl (fun t x =>
    let i := off / 8 + x
    if data = [] then t
    else if off ≤ 8 * i ∧ 8 * i + 8 ≤ last then t.hostStore i (leNat ((data.drop (8 * i - off)).take 8))
    else if i < hostSlots then t.hostDiscard i else t) s

/-- HOST_IMAGE_WRITE (R136). -/
def execHostImageWrite (off : Nat) (data : List Byte) (s : State) : Result :=
  if s.hostUp then .next (s.hostWrite off data) else .next s

/-- A corrected error of the Hearth (R132, R138). -/
def State.hearthCorrected (s : State) : State :=
  (s.count Reg.hrtEccCountCorrectedCount).raise Reg.hrtEventCorrected

/-- The scrub reads the next word (R132, R138). -/
def State.scrub (s : State) (found : Ecc) : State :=
  let p := s.fld Reg.hrtScrubPosPosition
  let s1 := s.setFld Reg.hrtScrubPosPosition ((p + 1) % hostSlots)
  let s2 := match found with
    | .clean => s1
    | .corrected => s1.hearthCorrected
    | .uncorrectable => s1.uncorrectableAt (hearthBase + p) 3
  match imageWordOf (hearthBase + p) with
  | some w => if s2.hearth.scrubBad.contains w then
      (s2.onHearth fun h => { h with scrubBad := h.scrubBad.filter fun x => decide (x ≠ w) }).replaceWord w
    else s2
  | none => s2

/-- SCRUB_READ (R132): while HRT_CONTROL.SCRUB is 1. -/
def execScrubRead (found : Ecc) (s : State) : Result :=
  if s.mainUp && s.bit Reg.hrtControlScrub then .next (s.scrub found) else .next s

/-- GRANULE_COPY_REQUEST (R132, R343): the Primary sends the granule, its damaged words as their replacement. -/
def execGranuleCopyRequest (granule : Nat) (s : State) : Result :=
  if (s.role = 6 ∨ s.role = 7) ∧ granule < 294912 then
    .next (((granuleWords granule 1).foldl (fun t w => ((t.viewRead w false 5).2.viewRead w true 5).2) s).sendGranule granule)
  else .next s

/-- HRT_RETAIN_CAPTURE (R127, R138): ignored while a capture runs. -/
def execHrtRetainCapture (r : Requester) (v : W32) (s : State) : Result :=
  .next (s.writeAs r 0x014 0x034 fun t =>
    if bitOf v.toNat 0 && !t.bit Reg.hrtStatusCaptureBusy then t.startCapture else t)

end Sys2Proof.Machine
end

