-- ==== Sys2Proof/Machine/EditCmd.lean ====
section
/-! DEFINITION. The commands of the edit machine (R221-R222, R231-R246): loading, verification, arming, activation and
rollback, alone and on a pair. -/

namespace Sys2Proof.Machine

/-- A refused command (R231, R234): the first reason since the last clear (R9), the event, and nothing else. -/
def State.editRefuse (s : State) (code : Nat) : State :=
  (s.capture Reg.edtErrorCaptureReason [(Reg.edtErrorCaptureReason, code), (Reg.edtErrorCaptureSection, 0xFF)]).raise Reg.edtEventRefused

/-- The state code changed. -/
def State.setEdit (s : State) (v : Nat) : State := s.setFld Reg.edtStatusState v

/-- The bank of Mantel that holds no active program (R401). -/
def State.inactiveBank (s : State) : Nat := 1 - s.mantel.dir.activeBank

/-- The first byte of a program bank (R401). -/
def bankBase (b : Nat) : Nat := 0x2000000 + b * 0x2400000

/-- A write of EDT_COMMAND under its page's rights (R246, R482). -/
def State.edtCommand (s : State) (r : Requester) (k : State → State) : State := s.writeAs r 0x015 0x020 k

/-! Loading and verification -/

/-- An arming that still waits for its partner is given up, and the partner is told to disarm (R231, R242; log 59). -/
def State.dropAsk (s : State) : State :=
  if s.edit.partnerWait then
    { s with
      edit := { s.edit with partnerWait := false }
      erair := { s.erair with armWait := none } }.erairSend (.message 4 [])
  else s

/-- BEGIN_LOAD accepted (R222, R231, R246): nothing received, no rollback; without DRAM the inactive bank is erased. -/
def State.beginLoad (s0 : State) : State :=
  let s := s0.dropAsk
  let s1 : State := { s with
    bellows := { s.bellows with shadow := none, rollback := none }
    edit := { s.edit with nextOff := 0 } }
  let s2 := s1.setFields [(Reg.edtStatusState, 1), (Reg.edtPackageLenReceived, 0), (Reg.edtStatusRollbackAvail, 0),
    (Reg.edtStatusSwitched, 0), (Reg.edtRollbackVersionVersion, 0), (Reg.edtStagedVersionVersion, 0)]
  if s2.hasDram then s2 else s2.eraseBlocks (bankBase s2.inactiveBank / 0x10000) 576

/-- BEGIN_LOAD (R231). -/
def execBeginLoad (r : Requester) (s : State) : Result :=
  .next (s.edtCommand r fun t => if t.editState = 0 ∨ t.editState = 6 then t.beginLoad else t.editRefuse 0x15)

/-- VERIFY (R231, R232): the check starts. -/
def execVerify (r : Requester) (s : State) : Result :=
  .next (s.edtCommand r fun t => if t.editState = 1 then t.setEdit 2 else t.editRefuse 0x15)

/-- The first word of the staging area (R222). -/
def State.stageAt (s : State) : Nat := s.fld Reg.edtStageBaseStageBase * 2 ^ 23

/-- The words of the staged package, by its header (R223). -/
def State.stageLen (s : State) : Nat := min 0x800000 (wbits ((s.dramSeen (s.stageAt + 2) 1).headD 0) 0 32)

/-- What the check's read of the staging area leaves (R28). -/
def State.stageRead (s : State) : State := if s.hasDram then s.dramAsked s.stageAt (max 3 s.stageLen) else s

/-- The staged package: as many words as its header says, at most 8 Mw (R222, R223). -/
def State.stagedWords (s : State) : List W36 :=
  if s.hasDram then
    s.dramSeen s.stageAt s.stageLen
  else
    let base := bankBase s.inactiveBank
    let n := min 0x800000 (wbits (pword (unpackWords (s.flashBytes base 18) 4) 2) 0 32)
    unpackWords (s.flashBytes base ((n + 1) / 2 * 9)) n

/-- The package committed to the inactive program bank (R232, R401); without DRAM it lies there already (R222). -/
def State.commitPackage (s : State) (ws : List W36) : State :=
  if s.hasDram then
    let bs := packWords ws
    let base := bankBase s.inactiveBank
    (s.eraseBlocks (base / 0x10000) ((bs.length + 0xFFFF) / 0x10000)).programFlash base bs
  else s

/-- The code runs of a package in the local stores of their engines, before the package is STAGED (R232, R233). -/
def State.writeRuns (s : State) (p : Program) : State :=
  (List.range 144).foldl (fun t e =>
    if t.engState e = 1 then
      t.setCore e ((p.lsImage (t.fld (Reg.fbxERoleLogical e))).foldl (fun c w => c.setLs w.1 w.2) (t.core e))
    else t) s

/-- Verification refused the package (R231, R234). -/
def State.refusePackage (s : State) (f : Refuse) : State :=
  let s1 : State := { s.stageRead with edit := { s.stageRead.edit with cut := false } }
  ((s1.setFields [(Reg.edtStatusState, 6), (Reg.edtFaultOffsetOffset, f.offset)]).capture Reg.edtErrorCaptureReason
    [(Reg.edtErrorCaptureReason, f.reason), (Reg.edtErrorCaptureSection, f.sect)]).raise Reg.edtEventRefused

/-- A power-fail has stopped the write after one of its blocks; which one is free, and the package is refused (R234, R415; log 151). -/
def State.cutPackage (s : State) (ws : List W36) : State :=
  let bs := packWords ws
  let (n, t) := s.draw ((bs.length + 0xFFFF) / 0x10000)
  let base := bankBase s.inactiveBank
  ((t.eraseBlocks (base / 0x10000) (n + 1)).programFlash base (bs.take (0x10000 * (n + 1)))).refusePackage ⟨0x12, 0xFF, 0⟩

/-- Verification passed: the shadow program is prepared, and the package is STAGED (R232). -/
def State.stageProgram (s : State) (ws : List W36) : State :=
  if s.edit.cut then s.cutPackage ws
  else
  let p := buildProgram ws (s.bellows.active.getD Program.empty)
  let s1 := ((s.stageRead.writeArea (1 - s.bellows.area) p).writeRuns p).commitPackage ws
  let s2 : State := { s1 with bellows := { s1.bellows with shadow := some p } }
  (s2.setFields [(Reg.edtStatusState, 3), (Reg.edtStagedVersionVersion, p.version)]).raise Reg.edtEventStaged

/-- VERIFY_DONE (R232, R234): `mantelOk` says that the commit to the program bank succeeds. -/
def execVerifyDone (mantelOk : Bool) (s : State) : Result :=
  if s.editState = 2 then
    let ws := s.stagedWords
    match s.verifyPackage ws with
    | some f => .next (s.refusePackage f)
    | none => if mantelOk then .next (s.stageProgram ws) else .next (s.refusePackage ⟨0x12, 0xFF, 0⟩)
  else .next s

/-- EDIT_DISCARD (R231). -/
def execEditDiscard (r : Requester) (s : State) : Result :=
  .next (s.edtCommand r fun t =>
    if t.editState = 1 ∨ t.editState = 3 ∨ t.editState = 6 then
      let u := t.dropAsk
      ({ u with bellows := { u.bellows with shadow := none } }.setEdit 0).setFld Reg.edtStagedVersionVersion 0
    else t.editRefuse 0x15)

/-! Arming -/

/-- The class and cycle that software has named (R235). -/
def State.actClass (s : State) : Nat := s.fld Reg.edtActClassClass

/-- The named cycle number (R235). -/
def State.actCycle (s : State) : Nat := s.fld Reg.edtActCycleLoCycleLo + 2 ^ 32 * s.fld Reg.edtActCycleHiCycleHi

/-- The named cycle is too near (R236). -/
def State.tooNear (s : State) : Bool := decide (s.actCycle < s.cycle s.actClass + 2)

/-- The switch is armed: of the staged package, or of the rollback program (R231, R245). -/
def State.armSwitch (s : State) (k cyc : Nat) : State :=
  let back := decide (s.editState = 0)
  let s1 : State := { s with
    edit := { s.edit with armed := some (k, cyc), partnerWait := false, fired := false }
    erair := { s.erair with armWait := none } }
  let s2 := s1.setEdit 4
  if back then
    { s2 with bellows := { s2.bellows with shadow := s2.bellows.rollback } }.setFields
      [(Reg.edtStatusRollingBack, 1), (Reg.edtStatusSwitched, 0)]
  else s2

/-- On a pair the arm message leaves first, and the state waits for its acknowledgement (R242). -/
def State.armOrAsk (s : State) (digest : List W32) : State :=
  let k := s.actClass
  let cyc := s.actCycle
  if s.role = 6 ∨ s.role = 7 then
    { s with
      edit := { s.edit with partnerWait := true }
      erair := { s.erair with armWait := some (digest, k, cyc) } }.erairSend (.message 2 ([k, cyc, cyc / 2 ^ 32] ++ digest.map BitVec.toNat))
  else s.armSwitch k cyc

/-- ARM (R236, R242): an EDIT that is STAGED, on a claimant, at a cycle far enough ahead. CLASS 0b11 is refused with STATE
(DESIGN CHOICE, log 33). -/
def State.armCommand (s : State) : State :=
  match s.bellows.shadow with
  | some p =>
    if s.editState ≠ 3 ∨ s.role < 5 ∨ p.full ∨ s.edit.partnerWait ∨ s.actClass = 3 then s.editRefuse 0x15
    else if s.tooNear then s.editRefuse 0x14
    else s.armOrAsk p.digest
  | none => s.editRefuse 0x15

/-- ARM (R236). -/
def execArm (r : Requester) (s : State) : Result := .next (s.edtCommand r State.armCommand)

/-- The partner reports the same rollback version (R344). -/
def State.rollbackAgrees (s : State) : Bool :=
  if s.role = 6 ∨ s.role = 7 then
    match s.erair.versions with
    | some m => decide (m.rollbackVersion.toNat = s.fld Reg.edtRollbackVersionVersion)
    | none => false
  else true

/-- ROLLBACK_ARM (R245, R344): only in IDLE, with a rollback, under the rules of ARM. -/
def State.rollbackCommand (s : State) : State :=
  match s.bellows.rollback with
  | some p =>
    if s.editState ≠ 0 ∨ s.role < 5 ∨ s.edit.partnerWait ∨ s.actClass = 3 then s.editRefuse 0x15
    else if !s.bit Reg.edtStatusRollbackAvail then s.editRefuse 0x17
    else if !s.rollbackAgrees then s.editRefuse 0x13
    else if s.tooNear then s.editRefuse 0x14
    else s.armOrAsk p.digest
  | none => s.editRefuse (if s.editState = 0 then 0x17 else 0x15)

/-- ROLLBACK_ARM (R245). -/
def execRollbackArm (r : Requester) (s : State) : Result := .next (s.edtCommand r State.rollbackCommand)

/-- The armed switch is cancelled: STAGED, or IDLE for a rollback (R238, R245). -/
def State.disarm (s : State) : State :=
  let s1 : State := { s with edit := { s.edit with armed := none } }
  if s.bit Reg.edtStatusRollingBack then
    { s1 with bellows := { s1.bellows with shadow := none } }.setFields [(Reg.edtStatusState, 0), (Reg.edtStatusRollingBack, 0)]
  else s1.setEdit 3

/-- DISARM (R238, R242). -/
def execDisarm (r : Requester) (s : State) : Result :=
  .next (s.edtCommand r fun t =>
    if t.editState = 4 then (if t.role = 6 ∨ t.role = 7 then t.disarm.erairSend (.message 4 []) else t.disarm)
    else if t.editState = 5 then t.editRefuse 0x16
    else t.editRefuse 0x15)

/-- ACTIVATE_NOW (R221, R241): in Held only. An arming that still waits for its partner is given up (R231). -/
def State.activateNow (s : State) : State :=
  match s.bellows.shadow with
  | some p =>
    if s.editState ≠ 3 ∨ s.mode ≠ modeHeld then s.editRefuse 0x15
    else if p.full then s.dropAsk.activateFull p
    else s.dropAsk.switchAll
  | none => s.editRefuse 0x15

/-- ACTIVATE_NOW (R241). -/
def execActivateNow (r : Requester) (s : State) : Result := .next (s.edtCommand r State.activateNow)

/-! On a pair -/

/-- The package that an arm message names is the one staged, or the rollback held, here (R242, R245). -/
def State.armMatches (s : State) (digest : List W32) : Bool :=
  let same (p : Option Program) : Bool := match p with | some q => decide (q.digest = digest) | none => false
  (decide (s.editState = 3) && same s.bellows.shadow) ||
    (decide (s.editState = 0) && s.bit Reg.edtStatusRollbackAvail && same s.bellows.rollback)

/-- ARM_MESSAGE (R242): the Standby enters ARMED and acknowledges. -/
def execArmMessage (digest : List W32) (k : Fin 3) (cycle : Nat) (s : State) : Result :=
  if (s.role = 3 ∨ s.role = 4) ∧ s.armMatches digest then .next ((s.armSwitch k.val cycle).erairSend (.message 3 []))
  else .next s

/-- ARM_ACKNOWLEDGE (R242). -/
def execArmAcknowledge (s : State) : Result :=
  match s.erair.armWait with
  | some (_, k, cyc) => if s.edit.partnerWait then .next (s.armSwitch k cyc) else .next s
  | none => .next s

/-- ARM_ACK_TIMEOUT (R242): neither unit is armed. -/
def execArmAckTimeout (s : State) : Result :=
  if s.edit.partnerWait then
    .next (({ s with
      edit := { s.edit with partnerWait := false }
      erair := { s.erair with armWait := none } }.editRefuse 0x13).erairSend (.message 4 []))
  else .next s

/-- DISARM_MESSAGE (R242). -/
def execDisarmMessage (s : State) : Result :=
  if (s.role = 3 ∨ s.role = 4) ∧ s.editState = 4 then .next s.disarm else .next s

end Sys2Proof.Machine
end

