-- ==== Sys2Proof/Machine/HobCmd.lean ====
section
/-! DEFINITION. The commands of a Hob port: modes and bit timing (R293, R295), received frames (R296, R303, R307-R317),
transmission (R298-R301), references (R304-R306), error confinement (R297), sleep (R319-R322) and map-out (R37, R290). -/

namespace Sys2Proof.Machine

/-! Modes -/

/-- The timing fields of a port allow a mode other than off (R295). Rates follow from the raw fields as
80 MHz / divisor. -/
def State.hobTimingOk (s : State) (p : Nat) : Bool :=
  let n := (s.fld (Reg.hobPNbtNbrp p) + 1) * (3 + s.fld (Reg.hobPNbtNtseg1 p) + s.fld (Reg.hobPNbtNtseg2 p))
  let d := (s.fld (Reg.hobPDbtDbrp p) + 1) * (3 + s.fld (Reg.hobPDbtDtseg1 p) + s.fld (Reg.hobPDbtDtseg2 p))
  decide (80 ≤ n) && decide (n ≤ 640) && decide (10 ≤ d) && decide (d ≤ 80) && decide (d ≤ n) &&
    decide (s.fld (Reg.hobPNbtNsjw p) ≤ s.fld (Reg.hobPNbtNtseg2 p)) &&
    decide (s.fld (Reg.hobPDbtDsjw p) ≤ s.fld (Reg.hobPDbtDtseg2 p)) && (decide (40 ≤ d) || s.bit (Reg.hobPDbtTdc p))

/-- The MODE that a write of HOB_Pnnn_CONTROL leaves: anything other than off is refused with timing that is not allowed, and leaves
off; else the reserved value keeps the old one (R295, log 22). -/
def State.hobModeAfter (s : State) (p m : Nat) : Nat :=
  if m = 0 ∨ s.hobTimingOk p = false then 0
  else if m = 3 then s.fld (Reg.hobPControlMode p)
  else m

/-- After a write of MODE the port asks for its mode; a port in a sleep keeps it while MODE stays normal, and a change to off
asked for and not made yet is asked for no longer (R293, R319). -/
def State.hobAfterWrite (s : State) (p : Nat) : State :=
  let m := s.hobEff p
  if m = 6 then s
  else if s.fld (Reg.hobPControlMode p) = 1 ∧ 3 ≤ m then
    s.setHobPort p { s.hobPort p with modeReq := (s.hobPort p).modeReq.filter fun m => decide (m = 1) }
  else s.hobRequest p (s.hobTarget p)

/-- A write of HOB_Pnnn_CONTROL (R293, R295, R297). -/
def State.hobWriteControl (s : State) (p v : Nat) : State :=
  let old := s.fld (Reg.hobPControlMode p)
  let new := s.hobModeAfter p (bitsOf v 0 2)
  let s1 := s.setFields [(Reg.hobPControlMode p, new), (Reg.hobPControlAutoRecover p, bitsOf v 2 1),
    (Reg.hobPControlTimeMaster p, bitsOf v 3 1), (Reg.hobPControlSleepOk p, bitsOf v 4 1),
    (Reg.hobPControlRefClass p, bitsOf v 5 2)]
  let refused := decide (bitsOf v 0 2 ≠ 0) && !s.hobTimingOk p
  let s2 := if refused then s1.capture (Reg.hobPErrorCaptureCode p) [(Reg.hobPErrorCaptureCode p, 0xF)] else s1
  let s3 := if old = 0 ∧ new = 1 ∧ s2.fld (Reg.hobPStatusErrState p) = 2 then s2.hobRecover p else s2
  let s4 := if s3.hobTimeMaster p then s3 else s3.setHobPort p { s3.hobPort p with guard := false }
  s4.hobAfterWrite p

/-- HOB_MODE_WRITE (R293, R295, R297). -/
def execHobModeWrite (r : Requester) (p : Fin 192) (v : W32) (s : State) : Result :=
  .next (s.writeAs r (0x201 + p.val) 0x008 fun t => t.hobWriteControl p.val v.toNat)

/-- The stations of a port. -/
def State.hobStations (s : State) (p : Nat) : List StationDecl :=
  s.decls.filter fun d => decide (d.kind = 4) && decide (d.hobPort = p)

/-- The first HOLD to the stations of a port that has come to normal mode while the classes stand, as after a claim in Held (R274,
R313). -/
def State.hobFirstHolds (s before : State) (p : Nat) : State :=
  if s.hobEff p = 1 ∧ before.hobEff p ≠ 1 then (s.hobStations p).foldl State.sendHold s else s

/-- HOB_MODE_CHANGE (R274, R293). -/
def execHobModeChange (p : Fin 192) (s : State) : Result := .next ((s.hobApplyMode p.val).hobFirstHolds s p.val)

/-! Receiving -/

/-- A frame discarded and counted (R296, R303, R320). -/
def State.hobDrop (s : State) (p : Nat) : State := s.count (Reg.hobPRxDropsRxDrops p)

/-- A frame discarded under R296. -/
def State.hobForeign (s : State) (p : Nat) : State := (s.hobDrop p).hobPRaise p 7 (Reg.hobPEventForeign p)

/-- The station that an identifier of the profile names: declared on the port, at its address, in its class (R307). -/
def State.hobDecl (s : State) (p : Nat) (f : CanFrame) : Option StationDecl :=
  let id := f.ident.toNat
  (s.decl (65536 + 64 * p + id / 4 % 64)).filter fun d => decide (d.kind = 4) && decide (d.cls = id / 512)

/-- The class, direction and kind of an identifier (R307). -/
def canCls (f : CanFrame) : Nat := f.ident.toNat / 512
/-- DIR: 1 is station to device. -/
def canDir (f : CanFrame) : Nat := f.ident.toNat / 256 % 2
/-- The bus address. -/
def canAddr (f : CanFrame) : Nat := f.ident.toNat / 4 % 64
/-- KIND: 0 image, 1 acknowledge, 2 event. -/
def canKind (f : CanFrame) : Nat := f.ident.toNat % 4

/-- The profile defines the frame's identifier (R307). -/
def State.hobDefined (s : State) (p : Nat) (f : CanFrame) : Bool :=
  let id := f.ident.toNat
  decide (id = 0) || decide (id = 0x600) || (decide (canCls f = 3) && decide (canDir f = 1) && decide (canKind f = 0)) ||
    (decide (canCls f ≤ 2) && decide (canKind f ≤ 2) && (s.hobDecl p f).isSome)

/-- The frame carries PRIMARY = 1, and its EPOCH: the reference has them at its own places (R305, R309). -/
def canPrimary (f : CanFrame) : Bool :=
  if f.ident.toNat = 0x600 then false else (field f.payload (if f.ident.toNat = 0 then 1 else 7) 1).testBit 0

/-- The EPOCH of a frame (R305, R309). -/
def canEpoch (f : CanFrame) : Nat := field f.payload (if f.ident.toNat = 0 then 2 else 0) 4

/-- A DIR = 0 frame of another unit, as Damper takes it: claim evidence for a listening unit, a rival's epoch for
others (R314, R346, R350, R351). -/
def State.hobPeerEpoch (s : State) (f : CanFrame) : State :=
  if canPrimary f then
    let s1 := s.rivalEpoch 6 0 (canEpoch f)
    if s1.role = 1 then s1.setRoleState 2 causeEvidence else s1
  else s

/-- The epoch that a received frame carries goes to Damper (R314). -/
def State.hobEpoch (s : State) (p : Nat) (f : CanFrame) : State :=
  if canDir f = 1 then s.stationEpoch 5 (65536 + 64 * p + (canAddr f)) (canEpoch f) else s.hobPeerEpoch f

/-- The station has sent a valid frame, stamped at `stamp` (R303, R317). -/
def State.hobHeard (s : State) (n stamp : Nat) : State := s.onStation n fun t => { t with heard := some stamp }

/-- A station image frame, stamped at `stamp` (R303, R310, R317). -/
def State.hobImage (s : State) (d : StationDecl) (stamp : Nat) (f : CanFrame) : State :=
  let b := f.payload
  let n := d.inCount
  let idx := field b 6 1 % 16
  let g : Segment := ⟨field b 4 2, idx, field b 6 1 / 16,
    unpackWords (b.drop 8) (min 12 (n - 12 * idx)), (field b 7 1).testBit 1⟩
  if b.length ≠ 64 then s.segBad d.num
  else if field b 62 2 ≠ d.layoutHash % 2 ^ 16 then s.segLayout d.num
  else if g.cnt ≠ max 1 ((n + 11) / 12) ∨ g.cnt ≤ idx then s.segBad d.num
  else (s.hobHeard d.num stamp).assemble d stamp g

/-- A station acknowledge frame (R311). -/
def State.hobAck (s : State) (d : StationDecl) (stamp : Nat) (f : CanFrame) : State :=
  if f.payload.length ≠ 64 then s.segBad d.num
  else if field f.payload 10 1 = 0 then
    (s.hobHeard d.num stamp).onStation d.num fun t => { t with outAck := field f.payload 8 2 }
  else s.hobHeard d.num stamp

/-- The used records of an event frame: word, time and value with quality (R312). -/
def hobEvents (b : List Byte) : List (Nat × Nat × W36) :=
  ((List.range 4).map fun i =>
    let a := 8 + 14 * i
    (field b (a + 8) 1, field b a 8, (BitVec.ofNat 36 (field b (a + 9) 1 % 16 * 2 ^ 32 + field b (a + 10) 4) : W36))).filter
      fun r => decide (r.1 ≠ 0xFF)

/-- A station event frame: queued whole and acknowledged, or not at all (R263, R311, R312). -/
def State.hobEvent (s : State) (d : StationDecl) (stamp : Nat) (f : CanFrame) : State :=
  let rs := hobEvents f.payload
  if f.payload.length ≠ 64 ∨ !d.events ∨ rs.any (fun r => decide (d.inCount ≤ r.1)) then s.segBad d.num
  else
    let (ok, t) := (s.hobHeard d.num stamp).queueEvents d.num 2 rs
    if ok then t.hobQueue d.hobPort [t.hobAckFrame d (field f.payload 4 2) 2] else t

/-- A station's bus-control frame: its vote while votes are asked for (R319). -/
def State.hobStationControl (s : State) (p stamp : Nat) (f : CanFrame) : State :=
  let cmd := field f.payload 4 1
  let n := 65536 + 64 * p + canAddr f
  let s1 := if (s.decl n).isSome then s.hobHeard n stamp else s
  let h := s1.hobPort p
  if h.asking && (decide (cmd = 0x11) || decide (cmd = 0x12)) then
    s1.setHobPort p { h with votes := (h.votes.filter fun v => decide (v.1 ≠ (canAddr f))) ++ [(canAddr f, decide (cmd = 0x11))] }
  else s1

/-- The Primary's bus-control frame, which a listening unit follows; SLEEP_CONFIRM opens its window whether or not it took part in
the vote (R322). -/
def State.hobFollow (s : State) (p : Nat) (f : CanFrame) : State :=
  let cmd := field f.payload 4 1
  if f.ident.toNat = 0x600 ∧ s.hobListens then
    if cmd = 1 ∧ s.hobEff p = 2 ∧ s.fld (Reg.hobPControlMode p) = 1 then s.setHobEff p 3
    else if cmd = 2 ∧ (s.hobEff p = 3 ∨ (s.hobEff p = 2 ∧ s.fld (Reg.hobPControlMode p) = 1)) then
      (s.setHobPort p { s.hobPort p with confirmSeen := true }).setHobEff p 4
    else if cmd = 3 ∧ s.hobEff p = 3 then
      (s.setHobEff p (s.hobTarget p)).hobPRaise p 5 (Reg.hobPEventSleepCancelled p)
    else s
  else s

/-- A received frame, stamped at `stamp`, handled by its sequencer: foreign ones are discarded; one in the quiet window cancels the
sleep (R296, R303, R314, R317, R320). -/
def State.hobTake (s : State) (p stamp : Nat) (f : CanFrame) : State :=
  let wake := decide (canCls f = 3) && decide (canDir f = 1) && decide (field f.payload 4 1 = 0x14)
  if !s.hobDefined p f then (if s.hobEff p = 4 then s.hobCancelSleep p else s).hobForeign p
  else
    let s1 := s.hobEpoch p f
    if s1.hobEff p = 4 then (if wake then s1.hobCancelSleep p else (s1.hobCancelSleep p).hobDrop p)
    else if !s1.bit Reg.hobControlEnable then s1
    else if canDir f = 0 then s1.hobFollow p f
    else if canCls f = 3 then s1.hobStationControl p stamp f
    else
      match s1.hobDecl p f, canKind f with
      | some d, 0 => s1.hobImage d stamp f
      | some d, 1 => s1.hobAck d stamp f
      | some d, _ => s1.hobEvent d stamp f
      | none, _ => s1

/-- The port receives frames (R292, R297). -/
def State.hobReceives (s : State) (p : Nat) : Bool :=
  let m := s.hobEff p
  s.hobUp && decide (1 ≤ m) && decide (m ≤ 4) && decide (s.fld (Reg.hobPStatusErrState p) ≠ 2)

/-- A frame stamped into the RX FIFO; the newest frame is lost when it is full (R303). -/
def State.hobFifo (s : State) (p : Nat) (f : CanFrame) : State :=
  let h := s.hobPort p
  if h.rx.length < 64 then s.setHobPort p { h with rx := h.rx ++ [(s.now, f)] }
  else (s.hobDrop p).hobPRaise p 2 (Reg.hobPEventRxOverflow p)

/-- The FIFO emptied by the port's sequencer, oldest frame first; the bus is idle after it (R303). -/
def State.hobDrain (s : State) (p : Nat) : State :=
  if s.fldBit Reg.hobStatusSeqUp (p / 16) then
    ((s.hobPort p).rx.foldl (fun t x => t.hobTake p x.1 x.2) (s.setHobPort p { s.hobPort p with rx := [] })).hobPump p
  else s

/-- A frame received whole (R296, R303): it waits in the FIFO while the sequencer is behind (DESIGN CHOICE, log 77). -/
def State.hobReceive (s : State) (p : Nat) (f : CanFrame) : State :=
  if s.hobReceives p then
    let s1 := ((s.countWrap (Reg.hobPRxFramesRxFrames p)).hobRxGood p).hobFifo p f
    if f.late then s1 else s1.hobDrain p
  else s

/-- HOB_IMAGE_FRAME (R303, R307, R309, R310, R314, R317, R320). -/
def execHobImageFrame (p : Fin 192) (f : CanFrame) (s : State) : Result :=
  if canDir f = 1 ∧ canKind f = 0 ∧ canCls f ≤ 2 then .next (s.hobReceive p.val f) else .next s

/-- HOB_ACK_FRAME (R311). -/
def execHobAckFrame (p : Fin 192) (f : CanFrame) (s : State) : Result :=
  if canDir f = 1 ∧ canKind f = 1 ∧ canCls f ≤ 2 then .next (s.hobReceive p.val f) else .next s

/-- HOB_EVENT_FRAME (R311, R312). -/
def execHobEventFrame (p : Fin 192) (f : CanFrame) (s : State) : Result :=
  if canDir f = 1 ∧ canKind f = 2 ∧ canCls f ≤ 2 then .next (s.hobReceive p.val f) else .next s

/-- HOB_FOREIGN_FRAME (R296): for each reason the frame is discarded; it still cancels a sleep (R320). -/
def execHobForeignFrame (p : Fin 192) (_why : Foreign) (s : State) : Result :=
  if s.hobReceives p.val then
    let s1 := (s.countWrap (Reg.hobPRxFramesRxFrames p.val)).hobRxGood p.val
    let s2 := if s1.hobEff p.val = 4 then s1.hobCancelSleep p.val else s1
    .next ((s2.hobForeign p.val).hobPump p.val)
  else .next s

/-- HOB_PEER_FRAME (R314, R322, R346, R350, R351). -/
def execHobPeerFrame (p : Fin 192) (f : CanFrame) (s : State) : Result :=
  if canDir f = 0 then .next (s.hobReceive p.val f) else .next s

/-- HOB_STATION_WAKE_FRAME (R320). -/
def execHobStationWakeFrame (p : Fin 192) (f : CanFrame) (s : State) : Result :=
  if canDir f = 1 ∧ canCls f = 3 ∧ field f.payload 4 1 = 0x14 then .next (s.hobReceive p.val f) else .next s

/-- HOB_SLEEP_VOTE (R319). -/
def execHobSleepVote (p : Fin 192) (f : CanFrame) (s : State) : Result :=
  if canDir f = 1 ∧ canCls f = 3 ∧ (field f.payload 4 1 = 0x11 ∨ field f.payload 4 1 = 0x12) then .next (s.hobReceive p.val f)
  else .next s

/-! Transmitting -/

/-- What a completed bus-control frame starts or ends: the quiet window after SLEEP_CONFIRM, REQUEST after SLEEP_ABORT
(R319). -/
def State.hobControlSent (s : State) (p : Nat) (f : TxFrame) : State :=
  let cmd := field f.payload 4 1
  let h := s.hobPort p
  if f.ident ≠ 0x600 then s
  else if cmd = 2 ∧ h.confirming then (s.setHobPort p { h with confirming := false }).setHobEff p 4
  else if cmd = 3 ∧ h.aborting then (s.setHobPort p { h with aborting := false }).setFld (Reg.hobPSleepRequest p) 0
  else s

/-- BRS of the port's frames: its data rate exceeds its nominal rate (R296). -/
def State.hobBrs (s : State) (p : Nat) : Bool :=
  decide ((s.fld (Reg.hobPDbtDbrp p) + 1) * (3 + s.fld (Reg.hobPDbtDtseg1 p) + s.fld (Reg.hobPDbtDtseg2 p)) <
    (s.fld (Reg.hobPNbtNbrp p) + 1) * (3 + s.fld (Reg.hobPNbtNtseg1 p) + s.fld (Reg.hobPNbtNtseg2 p)))

/-- HOB_FRAME_SENT (R296, R298, R299, R301). -/
def execHobFrameSent (p : Fin 192) (s : State) : Result :=
  match (s.hobPort p.val).onBus with
  | none => .next s
  | some b =>
    let h := s.hobPort p.val
    let x := h.buf b
    let s1 := ((s.setHobPort p.val (h.setBuf b TxBuf.free)).countWrap (Reg.hobPTxFramesTxFrames p.val)).hobTxGood p.val
    let s2 := if x.cancel ≠ 0 then s1.hobResult p.val b 1 x.cancel else s1
    .next (((s2.send (.can p.val x.frame.ident (s2.hobBrs p.val) x.frame.payload)).hobControlSent p.val x.frame).hobPump p.val)

/-- HOB_TX_FAILED (R300, R301, R306). -/
def execHobTxFailed (p : Fin 192) (how : TxFailure) (s : State) : Result :=
  match (s.hobPort p.val).onBus with
  | none => .next s
  | some b =>
    match how with
    | .arbitrationLost => .next (s.hobAttemptEnds p.val b false false)
    | .bitErrorAfterArbitration =>
      .next ((((s.hobAttemptEnds p.val b true true).count (Reg.hobPCountersCollisions p.val)).hobPRaise p.val 8
        (Reg.hobPEventCollision p.val)).hobTxError p.val)
    | .otherError => .next ((s.hobAttemptEnds p.val b true false).hobTxError p.val)

/-- HOB_BACKOFF_END (R300). -/
def execHobBackoffEnd (p : Fin 192) (b : Fin 32) (s : State) : Result :=
  let h := s.hobPort p.val
  if (h.buf b.val).backoff then
    .next ((s.setHobPort p.val (h.setBuf b.val { h.buf b.val with backoff := false })).hobPump p.val)
  else .next s

/-- HOB_TX_CANCEL (R301). -/
def execHobTxCancel (r : Requester) (p : Fin 192) (v : W32) (s : State) : Result :=
  .next (s.writeAs r (0x201 + p.val) 0x02C fun t =>
    if bitOf v.toNat 5 then (t.hobCancel p.val (v.toNat % 32) 1).hobPump p.val else t)

/-! References -/

/-- HOB_REF_GUARD (R306). -/
def execHobRefGuard (p : Fin 192) (s : State) : Result :=
  if s.hobTimeMaster p.val then .next (s.setHobPort p.val { s.hobPort p.val with guard := true }) else .next s

/-- The number and set time of the reference message that is due: that of the last boundary of the port's REF_CLASS, once
(R304, R305). -/
def State.hobSetTime (s : State) (p : Nat) : Option (Nat × Nat) :=
  let rt := s.cls (s.fld (Reg.hobPControlRefClass p))
  match rt.number, rt.lastBound with
  | some n, some b =>
    let time := b + 1000 * s.fld (Reg.hobPRefOffsetRefOffset p)
    if (s.hobPort p).launchAt = some time then none else some (n, time)
  | _, _ => none

/-- A reference released at its set time by Turnspit, before which it waits at the head of the port's queue; without Turnspit, by the
Bellows boundary (R304, R381, R382). -/
def State.hobReference (s : State) (p time : Nat) (f : TxFrame) : State :=
  if s.turnspitOn then s.hobLaunch p (some time) [f] else s.hobRelease p [f]

/-- HOB_REFERENCE_LAUNCH (R304, R305): one still waiting from before is abandoned first (R306). -/
def execHobReferenceLaunch (p : Fin 192) (s : State) : Result :=
  match s.hobTimeMaster p.val, s.hobSetTime p.val with
  | true, some (cycle, time) =>
    let s1 := if ((s.hobPort p.val).buf 0).state = 1 then s.hobLoseReference p.val else s
    let s2 := s1.setHobPort p.val { s1.hobPort p.val with launchAt := some time }
    .next (s2.hobReference p.val time (s2.hobReferenceFrame cycle time))
  | _, _ => .next s

/-- HOB_REFERENCE_LOST (R306). -/
def execHobReferenceLost (p : Fin 192) (s : State) : Result :=
  match ((s.hobPort p.val).buf 0).state with
  | 1 => .next ((s.hobLoseReference p.val).hobPump p.val)
  | 2 => .next ((s.hobAttemptEnds p.val 0 true false).hobPump p.val)
  | _ => .next s

/-! Error confinement -/

/-- HOB_BUS_OFF (R297). -/
def execHobBusOff (p : Fin 192) (s : State) : Result :=
  if s.hobReceives p.val then .next ((s.setFld (Reg.hobPErrCountTec p.val) 255).hobEnterBusOff p.val) else .next s

/-- HOB_BUS_OFF_RECOVERY (R297). -/
def execHobBusOffRecovery (p : Fin 192) (s : State) : Result :=
  if s.fld (Reg.hobPStatusErrState p.val) = 2 ∧ s.bit (Reg.hobPControlAutoRecover p.val) ∧ s.hobUp then
    .next ((s.hobRecover p.val).hobPump p.val)
  else .next s

/-- HOB_BUS_ERROR (R297): the frame began, so it cancels a sleep (R320). -/
def execHobBusError (p : Fin 192) (inc : Nat) (s : State) : Result :=
  if s.hobReceives p.val then
    let s1 := (s.setFld (Reg.hobPErrCountRec p.val) (min 255 (s.fld (Reg.hobPErrCountRec p.val) + inc))).hobErrState p.val
    if s1.hobEff p.val = 4 then .next (((s1.hobCancelSleep p.val).hobDrop p.val).hobPump p.val) else .next s1
  else .next s

/-! Sleep -/

/-- HOB_SLEEP_REQUEST (R319). -/
def execHobSleepRequest (r : Requester) (p : Fin 192) (s : State) : Result :=
  .next (s.writeAs r (0x201 + p.val) 0x048 fun t =>
    if t.drives && decide (t.hobEff p.val = 1) && t.bit (Reg.hobPControlSleepOk p.val) then
      let t1 := (t.setHobPort p.val { t.hobPort p.val with votes := [], asking := true, confirming := false, aborting := false })
      ((t1.setFld (Reg.hobPSleepRequest p.val) 1).setHobEff p.val 3).hobControl p.val 1
    else t.capture (Reg.hobPErrorCaptureCode p.val) [(Reg.hobPErrorCaptureCode p.val, 0xE)])

/-- Every LIVE station of the port has voted YES (R319). -/
def State.hobAllYes (s : State) (p : Nat) : Bool :=
  s.decls.all fun d => decide (d.kind ≠ 4) || decide (d.hobPort ≠ p) || decide ((s.station d.num).state ≠ 1) ||
    (s.hobPort p).votes.contains (d.hobAddr, true)

/-- HOB_VOTE_END (R319). -/
def execHobVoteEnd (p : Fin 192) (s : State) : Result :=
  let h := s.hobPort p.val
  if h.asking && decide (s.hobEff p.val = 3) then
    if s.hobAllYes p.val then
      .next ((s.setHobPort p.val { h with asking := false, confirming := true }).hobControl p.val 2)
    else
      let s1 := (s.setHobPort p.val { h with asking := false, aborting := true }).setHobEff p.val 1
      .next ((s1.hobPRaise p.val 5 (Reg.hobPEventSleepCancelled p.val)).hobControl p.val 3)
  else .next s

/-- HOB_QUIET_WINDOW_END (R319, R321). -/
def execHobQuietWindowEnd (p : Fin 192) (s : State) : Result :=
  if s.hobEff p.val = 4 then .next ((s.hobEnter p.val 5).hobPRaise p.val 4 (Reg.hobPEventSlept p.val)) else .next s

/-- HOB_SLEEP_WAKE (R322). -/
def execHobSleepWake (r : Requester) (p : Fin 192) (s : State) : Result :=
  .next (s.writeAs r (0x201 + p.val) 0x048 fun t => t.hobStartRestart p.val)

/-- HOB_BUS_WAKE (R322): a dominant bit wakes the port while its group is not in standby. -/
def execHobBusWake (p : Fin 192) (s : State) : Result :=
  if s.fldBit Reg.hobGroupStandbyStandby (p.val / 8) then .next s else .next (s.hobStartRestart p.val)

/-- HOB_PORT_RESTARTED (R322): WAKE goes out, ages count from now, and the next Outlay sends every image. -/
def execHobPortRestarted (p : Fin 192) (s : State) : Result :=
  if s.hobRestarting p.val then
    let s1 := (s.hobEnter p.val (s.hobTarget p.val)).hobPRaise p.val 6 (Reg.hobPEventWoke p.val)
    let s2 := (s1.hobStations p.val).foldl (fun t d =>
      t.onStation d.num fun u => { u with outNew := none, ageFrom := u.ageFrom.map fun _ => s.now }) s1
    .next (if s2.hobListens then s2 else s2.hobControl p.val 4)
  else .next s

/-! Map-out -/

/-- HOB_PORT_MAPOUT (R37, R292). -/
def execHobPortMapout (r : Requester) (p : Fin 192) (v : W32) (s : State) : Result :=
  .next (s.writeAs r (0x201 + p.val) 0x04C fun t => if bitOf v.toNat 0 then (t.hobMapOut p.val).checkService else t)

/-- A sequencer that stops maps out its 16 ports (R290, R324). -/
def State.hobSequencerStops (s : State) (q : Nat) : State :=
  let s1 := (s.setFldBit Reg.hobStatusSeqUp q false).hobRaise (16 * q) 0 Reg.hobEventSeqFault
  (List.range 16).foldl (fun t i => t.hobMapOut (16 * q + i)) s1

/-- HOB_SEQUENCER_FAULT (R37, R290). -/
def execHobSequencerFault (q : Fin 12) (s : State) : Result :=
  if s.hobUp && s.fldBit Reg.hobStatusSeqUp q.val then .next ((s.hobSequencerStops q.val).checkService) else .next s

end Sys2Proof.Machine
end

