-- ==== Sys2Proof/Machine/PairCmd.lean ====
section
/-! DEFINITION. The commands of Erair and Damper: heartbeats and losses (R329-R332), records (R336-R341), synchronization
(R342, R343), claims (R346-R352), confirmation and takeover (R354-R358), and the planned swap (R364). -/

namespace Sys2Proof.Machine

/-! The link -/

/-- HEARTBEAT_TIMER (R331): outside role NONE, and not after a Fireguard expiry (R457). -/
def execHeartbeatTimer (s : State) : Result :=
  if s.role ≠ 0 && !s.bit Reg.fgdStatusExpired then .next (s.sendHeartbeat false) else .next s

/-- A signed number saturated to 32 bits. -/
def sat32 (v : Int) : Int := max (-(2 ^ 31 : Int)) (min (2 ^ 31 - 1) v)

/-- The partner's time offset, with TIME_OK (R332). -/
def State.setOffset (s : State) (partnerTime : Nat) : State :=
  let o := sat32 (((partnerTime + s.erair.roundTrip / 2 : Nat) : Int) - (s.now : Int))
  (s.setFld Reg.eraPartnerOffsetOffset (twos 32 o)).setBit Reg.eraStatusTimeOk (decide (-1000 ≤ o) && decide (o ≤ 1000))

/-- What a heartbeat shows in the registers (R331, R366). -/
def State.noteHeartbeat (s : State) (h : Heartbeat) : State :=
  ({ s with erair := { s.erair with partner := some h, lastHb := h.seq.toNat } }.setFields [
    (Reg.eraStatusPartner, 1), (Reg.eraPartnerStateRole, h.role), (Reg.eraPartnerStateHeld, bit01 h.held),
    (Reg.eraPartnerStateEraVersion, h.eraVersion.toNat), (Reg.eraPartnerEpochEpoch, h.claimEpoch.toNat)]).setOffset h.time

/-- A partner that shows this unit's own UNIT value (R348). -/
def State.noteClash (s : State) (h : Heartbeat) : State :=
  let clash : Bool := decide (h.unit = s.fld Reg.eraControlUnit)
  let s1 : State := { s with erair := { s.erair with clash := clash } }
  if clash then (s1.capture Reg.eraErrorCaptureReason [(Reg.eraErrorCaptureReason, 2)]).raise Reg.eraEventUnitClash else s1

/-- Evidence of another claimant ends LISTEN (R327, R346). -/
def State.evidence (s : State) : State := if s.role = 1 then s.setRoleState 2 causeEvidence else s

/-- A heartbeat's epochs (R345, R350, R351). -/
def State.heartbeatEpochs (s : State) (h : Heartbeat) : State :=
  let s1 := s.seeEpoch 1 0 h.highest.toNat
  if 5 ≤ h.role then (s1.rivalEpoch 1 0 h.claimEpoch.toNat).evidence else s1

/-- The partner has left the synchronization that its heartbeats showed (R341). -/
def partnerLeft (prev : Option Heartbeat) (h : Heartbeat) : Bool :=
  match prev with
  | some p => (decide (h.role = 5) && (decide (p.role = 6) || decide (p.role = 7))) ||
      (decide (h.role = 2) && (decide (p.role = 3) || decide (p.role = 4)))
  | none => false

/-- The pair desynchronizes for a cause that only the partner has seen: which of those of R341, no heartbeat says (free, log 80). -/
def State.desyncWith (s : State) : State :=
  let (n, t) := s.draw 7
  t.desync (n + 1)

/-- The partner's role and flags acted on: LEAVING, a held or desynchronized partner, and two listening units (R327,
R328, R341, R354). `prev` is the heartbeat before. -/
def State.heartbeatRole (s : State) (prev : Option Heartbeat) (h : Heartbeat) : State :=
  if s.role = 1 then
    if h.role = 1 && decide (h.unit = 1) && decide (s.fld Reg.eraControlUnit = 0) && !s.erair.clash then s.claimAlone else s
  else if h.leaving then (if s.mayTakeOver then s.takeOver else s)
  else if (s.role = 3 ∨ s.role = 4 ∨ s.role = 6 ∨ s.role = 7) && h.held then s.desync 5
  else if partnerLeft prev h then s.desyncWith
  else s

/-- The component versions (R342). -/
def State.versions (s : State) : List Nat := (List.range 7).map fun i => s.fld (Reg.rlnVerVersion i)

/-- What this unit says in its version message (R342). -/
def State.versionArgs (s : State) : List Nat :=
  let p := s.bellows.active.getD Program.empty
  [Config.stepping, s.fld Reg.eraControlUnit] ++ s.versions ++ [p.id, p.version, p.layout]
    ++ [0, 1, 2].flatMap (fun k => [s.periodUs k, s.fld (Reg.blwClPhaseOffsetPhaseOffset k), s.fld (Reg.blwClControlLock k)])
    ++ [s.fld Reg.eraStatusTimeOk, bit01 s.turnspitOn, s.editState, bit01 (decide (s.mode = modeHeld)),
        s.fld Reg.eraControlAutoSync, s.fld Reg.edtRollbackVersionVersion]
    ++ (if s.editState = 3 then s.editDigest.map BitVec.toNat else [])

/-- The place of EDT_ROLLBACK_VERSION in a version message. -/
def rollbackPlace : Nat := 26

/-- The roles allow synchronization to start (R342): one unit in role 5, the other in role 2, or already started. -/
def State.syncRoles (s : State) : Bool :=
  match s.erair.partner with
  | some h => (decide (s.role = 5) && (decide (h.role = 2) || decide (h.role = 3))) ||
      (decide (s.role = 2) && (decide (h.role = 5) || decide (h.role = 6)))
  | none => false

/-- The versions go out to a partner with which synchronization may start, once for what they say (R342). -/
def State.tellVersions (s : State) : State :=
  if s.syncRoles && decide (s.erair.told ≠ s.versionArgs) then
    { s with erair := { s.erair with told := s.versionArgs } }.erairSend (.message 6 s.versionArgs)
  else s

/-- A paired unit whose rollback version has changed tells its partner, which compares it (R344; that it goes with the version message at the
next heartbeat is a DESIGN CHOICE, log 148). -/
def State.tellRollback (s : State) : State :=
  if (s.role = 3 ∨ s.role = 4 ∨ s.role = 6 ∨ s.role = 7) ∧ s.erair.told.getD rollbackPlace 0 ≠ s.fld Reg.edtRollbackVersionVersion then
    { s with erair := { s.erair with told := s.versionArgs } }.erairSend (.message 6 s.versionArgs)
  else s

/-- ERAIR_HEARTBEAT (R331, R342, R344, R345, R348, R350, R354): under AUTO_SYNC the unit tells its versions to a partner that it may
synchronize with. -/
def execErairHeartbeat (payload : List W36) (s : State) : Result :=
  if s.erairOn then
    let h := heartbeatOf payload
    let t := (((s.noteHeartbeat h).noteClash h).heartbeatEpochs h).heartbeatRole s.erair.partner h
    .next (if t.bit Reg.eraControlAutoSync then t.tellVersions else t).tellRollback
  else .next s

/-- The line is a confirmation path (R357). -/
def State.lineOn (s : State) : Bool := s.bit Reg.eraControlLineEn && s.bit Reg.grtPairPartnerEn

/-- The witness is a confirmation path (R357). -/
def State.witnessOn (s : State) : Bool := s.bit Reg.eraControlWitnessEn

/-- The confirmation's outcome so far (R357): any path alive ends it, every path dead is the takeover. -/
def State.confirm (s : State) : State :=
  let e := s.erair
  if !e.confirming then s
  else if (s.lineOn && decide (e.lineResult = 2)) || (s.witnessOn && decide (e.witResult = 2)) then s.desync 1
  else if (!s.lineOn || decide (e.lineResult = 1)) && (!s.witnessOn || decide (e.witResult = 1)) then
    if s.mayTakeOver then s.takeOver else s.desync 1
  else s

/-- The port that carries witness datagrams: the first in service with ROLE.WITNESS (R249, R356). -/
def State.witnessPort (s : State) : Option Nat :=
  (List.range 40).find? fun x => s.hasRole x .witness && s.chmPortUp x

/-- The partner's witness address (R356, R366): an IPv4 address stands in the last word alone (DEDUCED, log 81). -/
def State.witnessPeer (s : State) : Peer :=
  let w (i : Nat) : Nat := s.fld (Reg.eraWitnessWWord i)
  let high := w 0 * 2 ^ 64 + w 1 * 2 ^ 32 + w 2
  ⟨BitVec.ofNat 128 ((if high = 0 then 0xFFFF else high) * 2 ^ 32 + w 3), BitVec.ofNat 16 (s.fld Reg.eraWitnessPortPort)⟩

/-- Bytes 0 to 23 of a witness datagram (R356). -/
def witnessHead (kind unit role epoch seq time : Nat) : List Byte :=
  beBytes 4 0x4F435757 ++ [BitVec.ofNat 8 kind, BitVec.ofNat 8 unit, BitVec.ofNat 8 role, 0] ++ beBytes 4 epoch ++ beBytes 4 seq
    ++ beBytes 8 time

/-- The tag of a witness datagram under a key: over bytes 0 to 23, the nonce UNIT, three zero bytes, SEQ and four zero bytes
(R356). -/
def witnessTag (key : Nat) (head : List Byte) : List Byte :=
  beBytes 16 (gcmTag key ([head.getD 5 0, 0, 0, 0] ++ (head.drop 12).take 4 ++ [0, 0, 0, 0]) head).toNat

/-- A witness datagram sent: 1 probe, 2 answer, 3 claim notice (R356). -/
def State.sendWitness (s : State) (kind : Nat) : State :=
  match s.witnessPort, s.bit Reg.eraStatusWitnessKey with
  | some x, true =>
    let head := witnessHead kind (s.fld Reg.eraControlUnit) s.role s.deviceEpoch s.erair.witSeq s.now
    { s with erair := { s.erair with witSeq := (s.erair.witSeq + 1) % 2 ^ 32 } }.sendEth x
      (.witness (s.route x s.witnessPeer) (head ++ witnessTag s.erair.key head))
  | _, _ => s

/-- t_LINEDEAD has passed since the line's last edge, or it has had none (R355, R357). -/
def State.lineQuiet (s : State) : Bool := s.erair.edges.isEmpty

/-- Confirmation starts at the loss (R357): a line without an edge for t_LINEDEAD is dead already, the first probe leaves. -/
def State.startConfirm (s : State) : State :=
  let s1 : State := { s with erair := { s.erair with
    confirming := true, lineResult := if s.lineQuiet then 1 else 0, witResult := 0, probes := 1 } }
  (if s1.witnessOn then s1.sendWitness 1 else s1).confirm

/-- ERAIR_LOSS (R332, R341, R354, R357). -/
def execErairLoss (s : State) : Result :=
  if !s.erair.up then .next s
  else
    let s1 : State := { s with erair := { s.erair with up := false, cells := [] } }
    let s2 := ((s1.setFields [(Reg.eraStatusPartner, 0), (Reg.eraStatusTimeOk, 0)]).count Reg.eraCountersLinkLosses).raise
      Reg.eraEventLinkLost
    let s3 := s2.record 0x016 0x02 true [s2.erair.lastHb]
    if s3.role = 4 && (s3.lineOn || s3.witnessOn) then .next s3.startConfirm else .next (s3.desync 1)

/-- ERAIR_LINK_UP (R329, R332): training measures the round trip. -/
def execErairLinkUp (roundTripNs partnerTime : Nat) (s : State) : Result :=
  if s.bit Reg.eraControlEnable && s.compUp 5 && s.domainOn 21 && s.hostUp then
    let s1 : State := { s with erair := { s.erair with up := true, roundTrip := roundTripNs, cells := [], told := [], versions := none } }
    let s2 := if s1.fld Reg.eraStatusLanes = 0 then
        s1.setFields ([(Reg.eraStatusLanes, 0xF)] ++ (List.range 4).map fun l => (Reg.eraLErrorsUp l, 1)) else s1
    .next ((s2.setOffset partnerTime).raise Reg.eraEventLinkUp)
  else .next s

/-- LANE_FAILURE (R329). -/
def execLaneFailure (l : Fin 4) (s : State) : Result :=
  .next ((s.setFldBit Reg.eraStatusLanes l.val false).setFld (Reg.eraLErrorsUp l.val) 0)

/-- LANE_RETRAIN_DONE (R329): the link runs on all four lanes, on 2 or on 1; without the Chimney die there is none (R45). -/
def execLaneRetrainDone (lanes : BitVec 4) (s : State) : Result :=
  let n := maskCount lanes.toNat
  if n = 0 ∨ n = 3 ∨ s.fit.chimney = false then .next s
  else
    let s1 := s.setFields ([(Reg.eraStatusLanes, lanes.toNat)] ++
      (List.range 4).map fun l => (Reg.eraLErrorsUp l, bitsOf lanes.toNat l 1))
    if n = 4 then .next s1 else .next (s1.raise Reg.eraEventLaneDegraded)

/-- ERAIR_CELL_CRC_ERROR (R330, R366): a cell that fails its CRC, or whose TYPE is no type of R330, is dropped. -/
def execErairCellCrcError (c : LaneCell) (s : State) : Result :=
  if cellKept c.words || !s.fit.chimney then .next s else .next (s.count (Reg.eraLErrorsCrcErrors c.lane.val))

/-! Records -/

/-- ERAIR_RECORD (R336). -/
def execErairRecord (words : List W36) (s : State) : Result := if s.erairOn then .next (s.takeWords words) else .next s

/-- The outputs of an acknowledged cycle are released (R339). -/
def State.releaseCycle (s : State) (k cycle : Nat) : State :=
  let ws := (s.cls k).waiting
  let mine := ws.filter fun w => decide (w.1 % 2 ^ 32 = cycle)
  (s.onCls k fun rt => { rt with waiting := ws.filter fun w => decide (w.1 % 2 ^ 32 ≠ cycle) }).releaseItems
    (mine.flatMap (·.2))

/-- An outstanding record is sent again (R337). -/
def State.resend (s : State) (o : Outstanding) : State := (s.erairSend (.record o.record)).count Reg.eraCountersResends

/-- The outstanding record of a class and cycle number. -/
def State.findOutstanding (s : State) (k cycle : Nat) : Option Outstanding :=
  s.erair.outstanding.find? fun o => decide (o.cls = k) && decide (o.cycle % 2 ^ 32 = cycle)

/-- ERAIR_ACK (R337-R339): the record is done and its outputs leave, or a NAK brings it again. -/
def execErairAck (k : Fin 3) (cycle : W32) (applied : Bool) (s : State) : Result :=
  match s.findOutstanding k.val cycle.toNat with
  | some o =>
    if applied then
      .next ((((s.acknowledged o).setFld (Reg.eraClAppliedCycle k.val) cycle.toNat).releaseCycle
        k.val cycle.toNat).rakeCheck)
    else .next (s.resend o)
  | none => .next s

/-- RECORD_RESEND_TIMEOUT (R337). -/
def execRecordResendTimeout (k : Fin 3) (cycle : W32) (s : State) : Result :=
  match s.findOutstanding k.val cycle.toNat with
  | some o => .next (s.resend o)
  | none => .next s

/-- ACK_TIMEOUT (R341). -/
def execAckTimeout (k : Fin 3) (s : State) : Result :=
  if s.outstandingOf k.val = 0 then .next s else .next (s.desync 2)

/-- TIME_OK_TIMEOUT (R341). -/
def execTimeOkTimeout (s : State) : Result := if s.bit Reg.eraStatusTimeOk then .next s else .next (s.desync 7)

/-! Synchronization -/

/-- The byte address of the running ERA image (R401). -/
def eraImage : Nat := 0x0C00000

/-- A partner component's version lies in the range that the running ERA image declares (R509, R510, R513). -/
def State.partnerInRange (s : State) (i v : Nat) : Bool :=
  let e := s.headField 5 eraImage (60 + 4 * i)
  decide (e / 2 ^ 16 ≤ v) && decide (v ≤ e % 2 ^ 16)

/-- The first reason to refuse synchronization with the partner's versions (R342). -/
def State.syncRefusal (s : State) (m : VersionMsg) : Option Nat :=
  let p := s.bellows.active.getD Program.empty
  let own (k : Nat) : Nat × Nat × Bool :=
    (s.periodUs k, s.fld (Reg.blwClPhaseOffsetPhaseOffset k), s.bit (Reg.blwClControlLock k))
  let busy (e : Nat) : Bool := decide (e = 4) || decide (e = 5)
  ([(1, decide (m.versions.getD 5 0 / 256 ≠ s.fld (Reg.rlnVerVersion 5) / 256)),
    (2, decide (m.unit = s.fld Reg.eraControlUnit)),
    (3, (List.range 7).any fun i => !s.partnerInRange i (m.versions.getD i 0)),
    (4, decide (m.program ≠ (BitVec.ofNat 32 p.id, BitVec.ofNat 32 p.version, BitVec.ofNat 32 p.layout))),
    (5, [0, 1, 2].any fun k => decide (m.classes.getD k (0, 0, false) ≠ own k) || !(own k).2.2),
    (6, !s.turnspitOn || !m.turnspit || !s.bit Reg.eraStatusTimeOk || !m.timeOk),
    (7, busy s.editState || busy m.editState ||
      (decide (s.editState = 3) && decide (m.editState = 3) && decide (m.stagedDigest ≠ s.editDigest))),
    (8, decide (s.mode = modeHeld) || m.held)].find? (·.2)).map (·.1)

/-- A refusal noted once for what the partner says (R342). -/
def State.refuseSync (s : State) (m : VersionMsg) (reason : Nat) : State :=
  if s.erair.refused = some (m, reason) then s
  else
    ({ s with erair := { s.erair with refused := some (m, reason) } }.capture Reg.eraErrorCaptureReason
      [(Reg.eraErrorCaptureReason, reason)]).raise Reg.eraEventSyncRefused

/-- The check of R342, where synchronization may start: between paired units the message only tells versions (R344). -/
def State.checkSync (s : State) (m : VersionMsg) : Option Nat := if s.syncRoles then s.syncRefusal m else none

/-- VERSION_MESSAGE (R342, R344): the partner's versions, answered with the unit's own, and the check. -/
def execVersionMessage (m : VersionMsg) (s : State) : Result :=
  if !s.erairOn then .next s
  else
    let s1 := { s with erair := { s.erair with versions := some m } }.tellVersions
    match s1.checkSync m with
    | some reason => .next (s1.refuseSync m reason)
    | none => .next { s1 with erair := { s1.erair with refused := none } }

/-- ERA_SYNC (R342): the Standby asks, and tells its versions. -/
def execEraSync (r : Requester) (s : State) : Result :=
  .next (s.writeAs r 0x016 0x020 fun t =>
    if t.role = 2 then
      ({ t with erair := { t.erair with syncAsked := true, told := t.versionArgs } }.erairSend (.message 9 [])).erairSend
        (.message 6 t.versionArgs)
    else t)

/-- ERA_DESYNC (R341). -/
def execEraDesync (r : Requester) (s : State) : Result := .next (s.writeAs r 0x016 0x020 fun t => t.desync 6)

/-- Synchronization was asked for: by command on the Standby, or by AUTO_SYNC on both units (R342). -/
def State.syncWanted (s : State) (m : VersionMsg) : Bool :=
  s.erair.syncAsked || (s.bit Reg.eraControlAutoSync && m.autoSync) ||
    (decide (s.role = 5) && (match s.erair.partner with | some h => decide (h.role = 3) | none => false))

/-- The copy starts with a partner of versions `m` (R327, R342, R343): nothing outstanding, nothing copied, both units speak the
lower ERA minor version. -/
def State.startSync (s : State) (m : VersionMsg) : State :=
  let minor := min (m.versions.getD 5 0 % 256) (s.fld (Reg.rlnVerVersion 5) % 256)
  let s1 := { s with erair := { s.erair with
    copied := [], syncAsked := false, applied := [none, none, none], sent := [], acked := [], minor := minor } }.setOutstanding []
  (s1.setFld Reg.eraSyncProgressGranules 0).setRoleState (if s1.role = 5 then 6 else 3) causeSync

/-- SYNC_START (R342, R343). -/
def execSyncStart (s : State) : Result :=
  match s.erair.versions with
  | some m =>
    if s.erairOn && !s.erair.clash && s.syncRoles && s.syncWanted m then
      match s.syncRefusal m with
      | some reason => .next (s.refuseSync m reason)
      | none => .next (s.startSync m)
    else .next s
  | none => .next s

/-- COPY_CELL (R132, R343). -/
def execCopyCell (granule : Nat) (current previous : List W36) (s : State) : Result :=
  if (s.role = 3 ∨ s.role = 4) ∧ s.erairOn ∧ granule < 294912 then
    let s1 := s.storeGranule granule current previous
    if s.role = 3 then .next (s1.markCopied granule) else .next s1
  else .next s

/-- Every image granule has been copied (R343). -/
def State.copyDone (s : State) : Bool := decide (s.fld Reg.eraSyncProgressGranules = 294912)

/-- The Primary makes a fresh witness key, whose value is free, and closes the copy with its states (R343; log 11). -/
def State.closeCopy (s : State) : State :=
  let (key, t) := s.draw (2 ^ 256)
  let t1 : State := { t with erair := { t.erair with key := key } }
  t1.erairSend (.states t1.syncStates)

/-- A unit is synchronized in role `r`, with a witness key (R327, R343). -/
def State.synced (s : State) (r : Nat) : State :=
  ((s.setFld Reg.eraStatusWitnessKey 1).setRoleState r causeSync).raise Reg.eraEventSyncDone

/-- SYNC_DONE (R327, R343): once the last granule has been applied, both units change role. -/
def execSyncDone (x : SyncStates) (s : State) : Result :=
  if !s.copyDone then .next s
  else if s.role = 6 then .next (s.closeCopy.synced 7)
  else if s.role = 3 then .next ((s.loadStates x).synced 4)
  else .next s

/-! Claims, confirmation and takeover -/

/-- LISTEN_TIMEOUT (R327, R346-R348): no claim while a unit-identity clash is seen. -/
def execListenTimeout (s : State) : Result :=
  if s.role = 1 ∧ s.erair.clash = false then .next s.claimAlone else .next s

/-- HANDOVER (R354): outside STANDBY_SYNC, or without TAKEOVER_EN, it is refused. -/
def execHandover (s : State) : Result := if s.mayTakeOver then .next s.takeOver else .next s

/-- The interval of the unit's pattern in ns: 50 µs for a claimant, 100 µs for a follower (R355). -/
def State.aliveInterval (s : State) : Nat := if s.claimant then 50000 else 100000

/-- The next change of ALIVE_OUT is due: not in role NONE or after an expiry (R355). -/
def State.aliveDue (s : State) : Bool :=
  decide (s.role ≠ 0) && !s.bit Reg.fgdStatusExpired && decide (s.pins.aliveNs + s.aliveInterval ≤ s.bellows.ns)

/-- ALIVE_OUT_TOGGLE (R355). -/
def execAliveOutToggle (s : State) : Result :=
  if s.aliveDue then
    .next { s with pins := { s.pins with aliveOut := !s.pins.aliveOut, aliveNs := s.bellows.ns } }.grateUpdate
  else .next s

/-- An interval between edges fits a pattern: 2 follower, 3 claimant, 0 none (R355). -/
def edgePattern (us : Nat) : Nat :=
  if 80 ≤ us ∧ us ≤ 120 then 2 else if 40 ≤ us ∧ us ≤ 60 then 3 else 0

/-- A claimant pattern begins on the line: it ends LISTEN, and it demotes a claimant (R346, R350, R351). -/
def State.lineClaimant (s : State) : State :=
  let s1 := (s.setFields [(Reg.dmpErrorCapturePath, 2), (Reg.dmpErrorCaptureStation, 0)]).swapSeen
  (s1.demote 2 (s1.fld Reg.dmpEpochEpoch)).evidence

/-- PARTNER_ALIVE_EDGE (R355, R357): the reading, and the confirmation that an edge ends. -/
def execPartnerAliveEdge (intervalUs : Nat) (s : State) : Result :=
  if !s.bit Reg.grtPairPartnerEn then .next s
  else
    let es := ((edgePattern intervalUs) :: s.erair.edges).take 3
    let was := s.fld Reg.eraStatusLine
    let p := es.headD 0
    let now := if es = [p, p, p] ∧ p ≠ 0 then p else was
    let s1 : State := { s with erair := { s.erair with edges := es } }.setFld Reg.eraStatusLine now
    let s2 := if now = 3 ∧ was ≠ 3 then s1.lineClaimant else s1
    if s2.erair.confirming && decide (2 ≤ now) && decide (p = now) then
      .next { s2 with erair := { s2.erair with lineResult := 2 } }.confirm
    else .next s2

/-- LINE_DEAD (R355, R357). -/
def execLineDead (s : State) : Result :=
  if !s.bit Reg.grtPairPartnerEn then .next s
  else
    let s1 : State := { s with erair := { s.erair with edges := [], lineResult := 1 } }
    .next (s1.setFld Reg.eraStatusLine 1).confirm

/-- WITNESS_PROBE_TIMER (R356): while Erair is down, by a claimant or a synchronized Standby. -/
def execWitnessProbeTimer (s : State) : Result :=
  if !s.erair.up && s.witnessOn && (s.claimant || decide (s.role = 4)) then
    .next ({ s with erair := { s.erair with probes := s.erair.probes + 1 } }.sendWitness 1)
  else .next s

/-- The sender's role and epoch in a witness datagram (R356). -/
def witnessRole (bs : List Byte) : Nat := field bs 6 1
/-- EPOCH of a witness datagram (R356). -/
def witnessEpoch (bs : List Byte) : Nat := field bs 8 4

/-- What a witness datagram of any kind carries (R350, R351). -/
def State.witnessSeen (s : State) (bs : List Byte) : State :=
  let s1 := s.seeEpoch 3 0 (witnessEpoch bs)
  if 5 ≤ witnessRole bs then s1.rivalEpoch 3 0 (witnessEpoch bs) else s1

/-- A datagram of a kind is accepted: the unit has a role and a key, MAGIC and KIND fit, and the tag verifies (R356). -/
def State.witnessGood (s : State) (kind : Nat) (bs : List Byte) : Bool :=
  decide (s.role ≠ 0) && s.bit Reg.eraStatusWitnessKey && decide (bs.length = 40) && decide (field bs 0 4 = 0x4F435757) &&
    decide (field bs 4 1 = kind) && decide (bs.drop 24 = witnessTag s.erair.key (bs.take 24))

/-- A witness datagram received, on a port with ROLE.WITNESS and to ERA_WITNESS_PORT only (R249, R356; that others count in RX_DROPS
is a DESIGN CHOICE, log 68); one whose tag fails is discarded. -/
def State.receiveWitness (s : State) (d : Datagram) (kind : Nat) (bs : List Byte) (k : State → State) : State :=
  let x := d.port.val
  if s.chmPortUp x then
    let s1 := s.countWrap (Reg.chmXRxFramesRxFrames x)
    if s.vlanTakes x d.vlan && decide (d.size ≤ s.mtu x) && s.hasRole x .witness &&
        decide (d.udpPort.toNat = s.fld Reg.eraWitnessPortPort) then
      if s1.witnessGood kind bs then k (s1.witnessSeen bs) else s1
    else s1.rxDrop x
  else s

/-- WITNESS_PROBE (R356): answered. -/
def execWitnessProbe (w : WitnessIn) (s : State) : Result :=
  .next (s.receiveWitness w.dg 1 w.bytes fun t => t.sendWitness 2)

/-- An answer is evidence of a claimant where it shows one, and its path is alive (R346, R357). -/
def State.witnessAlive (s : State) (bs : List Byte) : State :=
  let s1 := if 5 ≤ witnessRole bs then s.evidence else s
  { s1 with erair := { s1.erair with witResult := 2 } }.confirm

/-- WITNESS_ANSWER (R346, R356, R357). -/
def execWitnessAnswer (w : WitnessIn) (s : State) : Result :=
  .next (s.receiveWitness w.dg 2 w.bytes fun t => t.witnessAlive w.bytes)

/-- WITNESS_CLAIM_NOTICE (R351, R356). -/
def execWitnessClaimNotice (w : WitnessIn) (s : State) : Result :=
  .next (s.receiveWitness w.dg 3 w.bytes id)

/-- WITNESS_DEAD (R357): three probes without an answer. -/
def execWitnessDead (s : State) : Result :=
  if s.erair.confirming && s.witnessOn && decide (3 ≤ s.erair.probes) && decide (s.erair.witResult = 0) then
    .next { s with erair := { s.erair with witResult := 1 } }.confirm
  else .next s

/-- CLAIM_NOTICE_TIMER (R358): one notice a millisecond for 100 ms. -/
def execClaimNoticeTimer (s : State) : Result :=
  if s.claimant && decide (0 < s.erair.notices) then
    .next ({ s with erair := { s.erair with notices := s.erair.notices - 1 } }.sendWitness 3)
  else .next s

/-! The planned swap -/

/-- The class with the shortest period, the lowest index on a tie (R364). -/
def State.shortestClass (s : State) : Nat :=
  [1, 2].foldl (fun b k => if s.periodUs k < s.periodUs b then k else b) 0

/-- The first boundary of class `k` at or after time `t` (R178, R179). -/
def State.nextBoundary (s : State) (k t : Nat) : Nat :=
  let per := max 1 (s.periodUs k * 1000)
  let from_ := if s.locked k then s.fld (Reg.blwClPhaseOffsetPhaseOffset k) * 1000 else (s.cls k).lastBound.getD 0
  if t ≤ from_ then from_ else from_ + (t - from_ + per - 1) / per * per

/-- A refused swap (R364). -/
def State.refuseSwap (s : State) : State :=
  { s with erair := { s.erair with swap := none } }.raise Reg.eraEventSwapRefused

/-- ERA_SWAP (R364): T_S is chosen; `point` is the earliest boundary for it. -/
def execEraSwap (r : Requester) (s : State) : Result :=
  .next (s.writeAs r 0x016 0x020 fun t =>
    if t.role = 7 && t.erair.swap.isNone then
      let k := t.shortestClass
      let b := t.nextBoundary k (t.now + 1000000)
      if t.now + 1000000000 < b then t.refuseSwap
      else { t with erair := { t.erair with swap := some ⟨1, k, b, t.now + 1000000000⟩ } }
    else t)

/-- Every class but the named one has finished its cycle. -/
def State.othersFinished (s : State) (k : Nat) : Bool := [0, 1, 2].all fun j => decide (j = k) || (s.cls j).finished

/-- The boundary that was to be T_S is not: the next one is, unless it does not fall within 1 s (R364). -/
def State.moveSwap (s : State) (w : Swap) : State :=
  let b := s.nextBoundary w.cls (s.now + 1)
  if w.latest < b then s.refuseSwap else { s with erair := { s.erair with swap := some { w with point := b } } }

/-- SWAP_POINT (R364): at the boundary no cycle starts any more, and the last outputs leave; T_S moves on while another class is not
finished. The boundary is the first tick not before its time. -/
def execSwapPoint (s : State) : Result :=
  match s.erair.swap with
  | some w =>
    if w.phase ≠ 1 ∨ s.now < w.point then .next s
    else if s.now < w.point + Config.tickNs ∧ s.othersFinished w.cls = true then
      .next ([0, 1, 2].foldl (fun t k => t.launchOutputs k t.now) { s with erair := { s.erair with swap := some { w with phase := 2 } } })
    else .next (s.moveSwap w)
  | none => .next s

/-- The outputs launched at T_S have left: no image frame waits or is on a bus; Ethernet frames leave and Grate outputs switch as they are
launched (R364). -/
def State.outputsLeft (s : State) : Bool :=
  (s.hob.all fun e => (e.2.outQ.all fun f => !f.image) && ((List.range 32).all fun b => decide ((e.2.buf b).state = 0) || !(e.2.buf b).frame.image)) &&
    s.turnspit.launches.all fun e => e.2.all fun l => !l.frame.image

/-- The end of a swap at the old Primary is due: the outputs have left, or half the shortest period has passed since T_S (R364). -/
def State.swapEnds (s : State) (w : Swap) : Bool :=
  s.outputsLeft || decide (w.point + s.periodUs w.cls * 500 ≤ s.now)

/-- SWAP_DEMOTE (R364): the demotion of R351, then RELEASE with each class's last cycle number. -/
def execSwapDemote (s : State) : Result :=
  match s.erair.swap with
  | some w =>
    if w.phase = 2 ∧ s.claimant = true ∧ s.swapEnds w = true then
      let cycles := [0, 1, 2].map fun k => s.fld (Reg.blwClCycleLoCycleLo k)
      let s1 := (s.demoteAs 0 (s.fld Reg.dmpEpochEpoch)).erairSend (.message 5 cycles)
      .next { s1 with erair := { s1.erair with postSwap := true } }
    else .next s
  | none => .next s

/-- RELEASE (R364): the Standby has applied every record before it, and claims without confirmation; TAKEOVER_EN is about
R354 alone. -/
def execRelease (_cycles : List W32) (s : State) : Result :=
  if s.role = 4 ∧ s.erair.clash = false then .next (s.takeOver.raise Reg.eraEventSwapDone) else .next s

end Sys2Proof.Machine
end

