-- ==== Sys2Proof/Machine/Mantel.lean ====
section
/-! DEFINITION. The Mantel store: partitions (R401), the command interface and the commit buffers (R402-R407), the parameter
ring (R411, R412), the retain ring (R413, R414), privileged commits and background erases (R408, R409), and the Ashpit
commands (R418, R421). -/

namespace Sys2Proof.Machine

/-! Partitions -/

/-- A partition of R401: its bytes, whether the secure world may stage and erase in it, whether any world may read it. -/
structure Partition where
  lo : Nat
  hi : Nat
  staged : Bool
  anyRead : Bool
  deriving DecidableEq, Repr

/-- The partitions of Mantel (R401). -/
def partitions : List Partition :=
  [⟨0x0000000, 0x0020000, false, false⟩, ⟨0x0020000, 0x0040000, false, true⟩, ⟨0x0100000, 0x0200000, false, false⟩,
   ⟨0x0200000, 0x0600000, false, false⟩, ⟨0x0600000, 0x0A00000, false, false⟩, ⟨0x0A00000, 0x0C00000, false, false⟩,
   ⟨0x0C00000, 0x0D00000, false, false⟩, ⟨0x0D00000, 0x0D80000, false, false⟩, ⟨0x0D80000, 0x1000000, false, false⟩,
   ⟨0x1000000, 0x1400000, false, false⟩, ⟨0x1400000, 0x1680000, false, true⟩, ⟨0x2000000, 0x4400000, true, true⟩,
   ⟨0x4400000, 0x6800000, true, true⟩, ⟨0x7000000, 0x8000000, false, true⟩]

/-- The partition that holds `n` bytes from `a` on, with its index (R401). -/
def partitionOf (a n : Nat) : Option (Nat × Partition) :=
  (partitions.zipIdx.find? fun p => decide (p.1.lo ≤ a) && decide (a + n ≤ p.1.hi)).map fun p => (p.2, p.1)

/-- The bank that holds a byte (R397). -/
def bankOf (a : Nat) : Nat := a / 0x1000000

/-- Where the parameter ring begins (R401). -/
def paramBase : Nat := 0x1000000

/-- Where a retain slot begins (R401). -/
def retainSlotBase (i : Nat) : Nat := 0x1400000 + i * 0x50000

/-- The empty commit buffer of a partition. -/
def CommitBuf.empty : CommitBuf := ⟨0, []⟩

/-- The commit buffer of partition `p` (R405). -/
def State.commitBuf (s : State) (p : Nat) : CommitBuf := Sparse.get s.mantel.bufs CommitBuf.empty p

/-- The commit buffer of partition `p` written. -/
def State.setCommitBuf (s : State) (p : Nat) (b : CommitBuf) : State :=
  { s with mantel := { s.mantel with bufs := Sparse.put s.mantel.bufs CommitBuf.empty p b } }

/-- The software command in progress written. -/
def State.setMantelOp (s : State) (o : Option MantelOp) : State := { s with mantel := { s.mantel with op := o } }

/-! Retain slots -/

/-- The state of a retain slot: 0 pre-erased, 1 valid, 2 committing (R413). -/
def State.slotState (s : State) (i : Nat) : Nat := Sparse.get s.mantel.slots 0 i

/-- The SEQ of a retain slot. -/
def State.slotSeq (s : State) (i : Nat) : Nat := Sparse.get s.mantel.slotSeq 0 i

/-- A retain slot's state and SEQ written. -/
def State.setSlot (s : State) (i v seq : Nat) : State :=
  { s with mantel := { s.mantel with
      slots := Sparse.put s.mantel.slots 0 i v
      slotSeq := Sparse.put s.mantel.slotSeq 0 i seq } }

/-- The valid retain slots, oldest first. -/
def State.validSlots (s : State) : List Nat :=
  let vs := (List.range 8).filter fun i => decide (s.slotState i = 1)
  vs.mergeSort fun a b => decide (s.slotSeq a ≤ s.slotSeq b)

/-- The newest valid retain slot (R414, R435). -/
def State.newestSlot (s : State) : Option Nat := s.validSlots.getLast?

/-- The pre-erased slot that follows the newest valid one in ring order (R413). -/
def State.freeSlot (s : State) : Option Nat :=
  let from_ := match s.newestSlot with | some i => i + 1 | none => 0
  ((List.range 8).map fun j => (from_ + j) % 8).find? fun i => decide (s.slotState i = 0)

/-- The 16 retain ranges as base and length pairs (R413). -/
def rangePairs (rs : List (Nat × Nat)) : List Byte :=
  (List.range 16).flatMap fun i => let r := rs.getD i (0, 0); beBytes 4 r.1 ++ beBytes 4 r.2

/-- The bytes of a retain slot: header page, packed words, commit mark page (R413). -/
def State.retainBytes (s : State) (kind seq : Nat) : List Byte :=
  let p := s.bellows.active.getD Program.empty
  let data := packWords s.hearth.capture
  let head := beBytes 4 0x5245544E ++ beBytes 4 seq ++ beBytes 4 p.id ++ beBytes 4 p.layout
    ++ beBytes 4 s.hearth.capture.length ++ beBytes 4 (s.fld Reg.ashSecondsSeconds) ++ beBytes 3 (s.fld Reg.ashCyclesCycles)
    ++ [BitVec.ofNat 8 kind] ++ beBytes 4 (crc32c data) ++ rangePairs s.hearth.captureRanges
  let page (bs : List Byte) := bs ++ List.replicate (pageRound bs.length - bs.length) erasedByte
  page (head ++ beBytes 4 (crc32c head)) ++ page data ++ page (beBytes 4 0x434F4D54 ++ beBytes 4 seq)

/-- A retain commit starts: its slot is committing (R413); without a pre-erased slot it is refused (R414). -/
def State.beginRetain (s : State) (o : MantelOp) : Option MantelOp × State :=
  match s.freeSlot with
  | none => (none, s.raise Reg.mntEventRetainRefused)
  | some i =>
    let seq := (match s.newestSlot with | some j => s.slotSeq j | none => 0) + 1
    (some { o with slot := i, addr := retainSlotBase i, data := s.retainBytes o.kind seq }, s.setSlot i 2 seq)

/-! The end of a command -/

/-- A refusal captured when it is the first (R423). -/
def State.mntCapture (s : State) (code : Nat) : State :=
  (s.capture Reg.mntErrorCaptureCode [(Reg.mntErrorCaptureAddr, s.fld Reg.mntAddrAddr), (Reg.mntErrorCaptureCode, code)]).raise
    Reg.mntEventRefused

/-- The command ends with a result (R402, R423). -/
def State.mntEnd (s : State) (code : Nat) : State :=
  let s1 := ((s.setMantelOp none).setFields [(Reg.mntResultCode, code), (Reg.mntResultDone, 1)]).raise Reg.mntEventDone
  if code = 0 then s1 else s1.mntCapture code

/-- A write to MNT_CMD while a command has not ended (R402). -/
def State.mntBusy (s : State) : State := (s.setFld Reg.mntResultCode 1).mntCapture 1

/-- A command that runs on: DONE reads 0 until it ends. -/
def State.mntRun (s : State) (o : MantelOp) : State :=
  (s.setMantelOp (some { o with waits := decide (s.mantel.pf ≠ 0) })).setFields [(Reg.mntResultCode, 0), (Reg.mntResultDone, 0)]

/-! Banks -/

/-- The bank in which a software command programs or erases: the open block's for a commit (R397, R405, R407). -/
def State.opBank (s : State) (o : MantelOp) : Nat :=
  if o.op = 3 ∨ o.op = 4 then
    match partitionOf o.addr 1 with
    | some (p, _) => bankOf ((s.commitBuf p).block * 0x10000)
    | none => bankOf o.addr
  else bankOf o.addr

/-- What has hold of a bank (R397, R408): 0 nothing, 1 the device's own retain commit, 2 a privileged commit, 3 the Ashpit flush, 4 the
software command, 5 a background erase. -/
def State.holder (s : State) (b : Nat) : Nat := Sparse.get s.mantel.held 0 b

/-- The holder of a bank written. -/
def State.setHolder (s : State) (b h : Nat) : State := { s with mantel := { s.mantel with held := Sparse.put s.mantel.held 0 b h } }

/-- What waits for a bank, in the order of precedence of R408; the flush follows the privileged commits (R418). -/
def State.wants (s : State) (b : Nat) : List Nat :=
  let op := match s.mantel.op with | some o => decide (o.op ≠ 1) && !o.waits && decide (s.opBank o = b) | none => false
  (if b = 1 ∧ !s.mantel.dev.isEmpty then [1] else []) ++ (if s.mantel.priv.any fun c => decide (bankOf c.addr = b) then [2] else [])
    ++ (if b = 7 ∧ s.bit Reg.ashStatusFlushing then [3] else []) ++ (if op then [4] else [])
    ++ (if s.mantel.background.any fun k => decide (bankOf (k * 0x10000) = b) then [5] else [])

/-- The inactive program bank's first byte bank, which stands for the bank that an edit write is in (DESIGN CHOICE, log 149). -/
def State.editBank (s : State) : Nat := bankOf (if s.mantel.dir.activeBank = 0 then 0x4400000 else 0x2000000)

/-- A write of many blocks is in a bank: Relining's slot write, or the edit write. Between its blocks the bank serves what has precedence
(R232, R408, R415, R514). -/
def State.writing (s : State) (b : Nat) : Bool :=
  (decide (b = 0) && decide (s.fld Reg.rlnStatusState = 4) && s.relining.restarting.isNone) ||
    (decide (s.fld Reg.edtStatusState = 2) && s.hasDram && !s.edit.cut && decide (b = s.editBank))

/-- The banks that program or erase. -/
def State.banksBusy (s : State) : Nat := ((List.range 8).filter fun b => decide (s.holder b ≠ 0) || s.writing b).length

/-- An operation takes hold of its bank; a retain commit takes its slot then, or is refused (R413, R414). -/
def State.takeBank (s : State) (b h : Nat) : State :=
  match h, s.mantel.dev, s.mantel.op with
  | 1, o :: rest, _ =>
    match s.beginRetain o with
    | (some o1, t) => { t with mantel := { t.mantel with dev := o1 :: rest } }.setHolder b 1
    | (none, t) => { t with mantel := { t.mantel with dev := rest } }
  | 4, _, some o =>
    if o.op ≠ 8 then s.setHolder b 4
    else
      match s.beginRetain o with
      | (some o1, t) => (t.setMantelOp (some o1)).setHolder b 4
      | (none, t) => t.mntEnd 8
  | _, _, _ => s.setHolder b h

/-- A bank without an operation starts the one that comes first, where fewer than four banks program or erase (R397, R408). -/
def State.startOn (s : State) (b : Nat) : State :=
  if s.holder b ≠ 0 ∨ 4 ≤ s.banksBusy then s
  else
    match (s.wants b).head? with
    | some h => s.takeBank b h
    | none => s

/-- Every bank starts what waits for it (R408). -/
def State.mantelStart (s : State) : State := (List.range 8).foldl State.startOn s

/-- A bank programs or erases (R397, R407). -/
def State.bankBusy (s : State) (b : Nat) : Bool := s.writing b || decide (s.mantelStart.holder b ≠ 0)

/-- The retain ring's bank goes on with the next operation (R408, R414). -/
def State.retainNext (s : State) : State := s.startOn 1

/-! Reads and stages -/

/-- A local-store word of the Tender that a buffer may hold: neither a guard word of either world's stack window, which only an
exception push writes (R83), nor under the boot ROM (R496). -/
def State.bufLs (s : State) (a : Nat) : Bool :=
  let c := s.core tenderKey
  !c.secure.guards a && !c.normal.guards a && !(s.romOn && decide (a < 0x2000))

/-- The words of the buffer of a command: Mantel byte a lies in lane a mod 4, so that the first word may begin inside (R403). -/
def bufWords (addr len : Nat) : Nat := (addr % 4 + len + 3) / 4

/-- The buffer's words lie wholly in local store or DRAM and the issuing world may write them (R403). -/
def State.bufOk (s : State) (secure : Bool) (buf addr len : Nat) : Bool :=
  let ws := (List.range (bufWords addr len)).map (buf + ·)
  (ws.all fun a => s.worldLs secure a && s.bufLs a) || (ws.all (s.worldDram secure))

/-- A word of the buffer. -/
def State.bufWord (s : State) (a : Nat) : W36 := if a < lsSize then s.lsRead tenderKey a else s.dramWord a

/-- A word written to the buffer; one that has since become a guard word stays (R83, R403). -/
def State.putBufWord (s : State) (a : Nat) (w : W36) : State :=
  if lsSize ≤ a then s.setDram a w
  else if s.bufLs a then s.setCore tenderKey ((s.core tenderKey).setLs a w)
  else s

/-- Words written to the buffer (R403). -/
def State.putBuf (s : State) (a : Nat) (ws : List W36) : State :=
  match ws with
  | [] => s
  | w :: rest =>
    (s.putBufWord a w).putBuf (a + 1) rest

/-- Mantel bytes from `addr` on written to the buffer, each in its lane; bits [35:32] of the words are written as zero, and the lanes
of other bytes keep what they hold (R403). -/
def State.putBytes (s : State) (buf addr : Nat) (bs : List Byte) : State :=
  let n := bufWords addr bs.length
  let old := quadBytes ((List.range n).map fun i => s.bufWord (buf + i))
  s.putBuf buf (quadWords (old.take (addr % 4) ++ bs ++ old.drop (addr % 4 + bs.length)))

/-- Mantel bytes from `addr` on, taken from the buffer (R403). -/
def State.getBytes (s : State) (buf addr len : Nat) : List Byte :=
  ((quadBytes ((List.range (bufWords addr len)).map fun i => s.bufWord (buf + i))).drop (addr % 4)).take len

/-- A byte as a READ sees it: staged, or in the array (R406). -/
def State.mantelByte (s : State) (p a : Nat) : Byte :=
  match (s.commitBuf p).bytes.find? fun c => decide (c.1 = a) with
  | some c => c.2
  | none => s.flashByte a

/-- Some byte of a READ comes from the array (R406). -/
def State.readsArray (s : State) (p a n : Nat) : Bool :=
  (List.range n).any fun i => !((s.commitBuf p).bytes.any fun c => decide (c.1 = a + i))

/-- A READ carried out, with what the pages' correction found (R400, R404, R406). -/
def State.readNow (s : State) (o : MantelOp) (p : Nat) : State :=
  let found := if s.readsArray p o.addr o.len then o.found else 0
  if found = 2 then ((s.count Reg.mntEccFailed).raise Reg.mntEventEccFail).mntEnd 7
  else
    let s1 := if found = 1 then (s.count Reg.mntEccCorrected).raise Reg.mntEventEccCorrected else s
    (s1.putBytes o.buf o.addr ((List.range o.len).map fun i => s.mantelByte p (o.addr + i))).mntEnd 0

/-- The bytes that a READ asks for when they all lie in the pages that a retain commit of the device is programming, whose commit buffer
is the capture (R407, R413). -/
def State.beingProgrammed (s : State) (a n : Nat) : Option (List Byte) :=
  match s.mantel.dev with
  | o :: _ =>
    if o.slot < 8 ∧ o.addr ≤ a ∧ a + n ≤ o.addr + o.data.length then some ((o.data.drop (a - o.addr)).take n) else none
  | [] => none

/-- A READ of a bank that programs or erases: served from the pages being programmed, or held (R407). -/
def State.readBusy (s : State) (o : MantelOp) : State :=
  match s.beingProgrammed o.addr o.len with
  | some bs => (s.putBytes o.buf o.addr bs).mntEnd 0
  | none => s.mntRun o

/-- A READ that was held is carried out once its bank is idle (R407). -/
def State.readHeld (s : State) : State :=
  match s.mantel.op with
  | some o =>
    if o.op = 1 && !s.bankBusy (bankOf o.addr) then
      match partitionOf o.addr o.len with
      | some (p, _) => s.readNow o p
      | none => s
    else s
  | none => s

/-- A software command as the MNT registers spell it (R402). -/
def State.mantelCommand (s : State) (op : Nat) (secure : Bool) (found : Nat) : MantelOp where
  op := op
  addr := s.fld Reg.mntAddrAddr
  len := s.fld Reg.mntLenLen
  buf := s.fld Reg.mntBufLoBufLo + s.fld Reg.mntBufHiBufHi * 2 ^ 32
  secure := secure
  kind := 1
  slot := 8
  found := found
  waits := false
  data := []

/-- A write of MNT_CMD: refused with BUSY while a command has not ended (R402). The host and the UART count as the normal
world (log 35). -/
def State.mntCommand (s : State) (r : Requester) (k : Bool → State → State) : State :=
  s.writeAs r 0x005 0x020 fun t =>
    if t.mantel.op.isSome then t.mntBusy else k (decide (r = .tenderSecure)) t

/-- The outcome of a page check as a number. -/
def eccCode (e : Ecc) : Nat := match e with | .clean => 0 | .corrected => 1 | .uncorrectable => 2

/-- The READ operation (R401, R403, R404, R407); the checks run in the order LENGTH, BOUNDS, ACCESS, BUF (log 35). -/
def State.mantelReadOp (s : State) (secure : Bool) (found : Nat) : State :=
  let o := s.mantelCommand 1 secure found
  if o.len = 0 ∨ 4096 < o.len then s.mntEnd 10
  else
    match partitionOf o.addr o.len with
    | none => s.mntEnd 2
    | some (p, part) =>
      if !part.anyRead && !secure then s.mntEnd 5
      else if !s.bufOk secure o.buf o.addr o.len then s.mntEnd 6
      else if s.bankBusy (bankOf o.addr) then s.readBusy o
      else s.readNow o p

/-- MANTEL_READ (R404). -/
def execMantelRead (r : Requester) (found : Ecc) (s : State) : Result :=
  .next (s.mntCommand r fun secure t => t.mantelReadOp secure (eccCode found))

/-- Staged bytes put over earlier ones (R405). -/
def stageBytes (m : List Host.Cell) (a : Nat) (bs : List Byte) : List Host.Cell :=
  match bs with
  | [] => m
  | b :: rest => stageBytes (Sparse.insert (Sparse.erase m a) a b) (a + 1) rest

/-- A partition that the issuer may stage, commit, erase or discard in, at ADDR (R401). -/
def State.stagePart (s : State) (secure : Bool) (n : Nat) (k : Nat → State → State) : State :=
  match partitionOf (s.fld Reg.mntAddrAddr) n with
  | none => s.mntEnd 2
  | some (p, part) => if part.staged && secure then k p s else s.mntEnd 5

/-- The STAGE operation: all bytes in the open block (R405). -/
def State.stageOp (s : State) (secure : Bool) : State :=
  let o := s.mantelCommand 2 secure 0
  if o.len = 0 then s.mntEnd 10
  else
    s.stagePart secure o.len fun p t =>
      if !t.bufOk secure o.buf o.addr o.len then t.mntEnd 6
      else
        let b := t.commitBuf p
        let block := if b.bytes.isEmpty then o.addr / 0x10000 else b.block
        if o.addr / 0x10000 ≠ block ∨ (o.addr + o.len - 1) / 0x10000 ≠ block then t.mntEnd 4
        else
          (t.setCommitBuf p ⟨block, stageBytes b.bytes o.addr (t.getBytes o.buf o.addr o.len)⟩).mntEnd 0

/-- STAGE (R405). -/
def execStage (r : Requester) (s : State) : Result := .next (s.mntCommand r fun secure t => t.stageOp secure)

/-! Commits and erases -/

/-- The staged pages of a commit buffer, each once, rising (R405). -/
def CommitBuf.pages (b : CommitBuf) : List Nat := (b.bytes.map fun c => c.1 / 512).eraseDups

/-- The bytes of a staged page; what is not staged is 0xFF (R398). -/
def CommitBuf.page (b : CommitBuf) (g : Nat) : List Byte :=
  (List.range 512).map fun i => Sparse.get b.bytes erasedByte (512 * g + i)

/-- The COMMIT operation: nothing is programmed unless every staged page is erased (R405). -/
def State.commitOp (s : State) (secure : Bool) : State :=
  s.stagePart secure 1 fun p t =>
    let b := t.commitBuf p
    if b.bytes.isEmpty then t.mntEnd 0
    else if b.pages.all t.pageErased then t.mntRun (t.mantelCommand 3 secure 0)
    else t.mntEnd 3

/-- COMMIT (R405). -/
def execCommit (r : Requester) (s : State) : Result := .next (s.mntCommand r fun secure t => t.commitOp secure)

/-- The COMMIT_ERASE operation (R404). -/
def State.commitEraseOp (s : State) (secure : Bool) : State :=
  s.stagePart secure 1 fun p t =>
    if (t.commitBuf p).bytes.isEmpty then t.mntEnd 0 else t.mntRun (t.mantelCommand 4 secure 0)

/-- COMMIT_ERASE (R405). -/
def execCommitErase (r : Requester) (s : State) : Result := .next (s.mntCommand r fun secure t => t.commitEraseOp secure)

/-- The ERASE operation (R404). -/
def State.eraseOp (s : State) (secure : Bool) : State :=
  s.stagePart secure 1 fun _ t => t.mntRun (t.mantelCommand 5 secure 0)

/-- ERASE (R404). -/
def execErase (r : Requester) (s : State) : Result := .next (s.mntCommand r fun secure t => t.eraseOp secure)

/-- The DISCARD operation (R404). -/
def State.discardOp (s : State) (secure : Bool) : State :=
  s.stagePart secure 1 fun p t => (t.setCommitBuf p CommitBuf.empty).mntEnd 0

/-- MANTEL_DISCARD (R404). -/
def execMantelDiscard (r : Requester) (s : State) : Result := .next (s.mntCommand r fun secure t => t.discardOp secure)

/-- The staged pages of a partition programmed, and its buffer emptied (R405). -/
def State.programStaged (s : State) (p : Nat) : State :=
  let b := s.commitBuf p
  (b.pages.foldl (fun t g => t.programFlash (512 * g) (b.page g)) s).setCommitBuf p CommitBuf.empty

/-- An ERASE of an open block empties the partition's buffer (R405). -/
def State.eraseAt (s : State) (addr : Nat) : State :=
  let s1 := s.eraseBlock (addr / 0x10000)
  match partitionOf addr 1 with
  | some (p, _) => if (s1.commitBuf p).block = addr / 0x10000 then s1.setCommitBuf p CommitBuf.empty else s1
  | none => s1

/-! The parameter ring -/

/-- A parameter slot: MAGIC, SEQ, LENGTH, CRC and payload (R411). -/
def paramSlot (seq : Nat) (payload : List Byte) : List Byte :=
  let head := beBytes 4 0x5041524D ++ beBytes 4 seq ++ beBytes 2 payload.length ++ [0, 0]
  let crc := crc32c (head ++ beBytes 4 0 ++ payload)
  head ++ beBytes 4 crc ++ payload

/-- The eight pages of parameter slot `i` are erased. -/
def State.paramErased (s : State) (i : Nat) : Bool :=
  (List.range 8).all fun g => s.pageErased ((paramBase + i * 0x1000) / 512 + g)

/-- The slot of the next append: the one after the newest; where that one is torn inside a block, the next block's
first (R412). -/
def State.paramSlotNext (s : State) : Nat :=
  let i := s.mantel.paramNext % 1024
  if s.paramErased i || decide (i % 16 = 0) then i else (i / 16 + 1) * 16 % 1024

/-- A parameter slot appended; a block that is not erased yet is erased first, and on entering a block the next one is
erased in the background, the entered one no more (R412). -/
def State.appendParam (s : State) (payload : List Byte) : State :=
  let i := s.paramSlotNext
  let seq := (s.fld Reg.mntParamSeqSeq + 1) % 2 ^ 32
  let block := (paramBase + i * 0x1000) / 0x10000
  let s1 := if s.paramErased i then s else s.eraseBlock block
  let s2 := s1.programFlash (paramBase + i * 0x1000) (paramSlot seq payload)
  let next := paramBase / 0x10000 + (i / 16 + 1) % 64
  { s2 with mantel := { s2.mantel with
      paramNext := (i + 1) % 1024
      background := (if i % 16 = 0 ∧ s2.bit Reg.mntControlBgErase then s2.mantel.background ++ [next] else s2.mantel.background).filter
        fun b => decide (b ≠ block) } }.setFld
    Reg.mntParamSeqSeq seq

/-- The PARAM_APPEND operation: by the secure world, 8 to 4,080 bytes in whole entries (R401, R404, R411; log 35). -/
def State.paramOp (s : State) (secure : Bool) : State :=
  let o := s.mantelCommand 7 secure 0
  if o.len < 8 ∨ 4080 < o.len ∨ o.len % 8 ≠ 0 then s.mntEnd 10
  else if !secure then s.mntEnd 5
  else if !s.bufOk secure o.buf paramBase o.len then s.mntEnd 6
  else s.mntRun { o with addr := paramBase, data := s.getBytes o.buf paramBase o.len }

/-- PARAM_APPEND (R412). -/
def execParamAppend (r : Requester) (s : State) : Result := .next (s.mntCommand r fun secure t => t.paramOp secure)

/-- A parameter slot with good MAGIC, LENGTH and CRC (R411). -/
def State.paramGood (s : State) (i : Nat) : Bool :=
  let b := s.flashBytes (paramBase + i * 0x1000) 0x1000
  let n := field b 8 2
  decide (field b 0 4 = 0x5041524D) && decide (n ≤ 4080) &&
    decide (field b 12 4 = crc32c (b.take 12 ++ beBytes 4 0 ++ (b.drop 16).take n))

/-- SEQ of a parameter slot (R411). -/
def State.paramSeqAt (s : State) (i : Nat) : Nat := field (s.flashBytes (paramBase + i * 0x1000) 8) 4 4

/-- The newest valid parameter slot (R412). -/
def State.newestParam (s : State) : Option Nat :=
  ((List.range 1024).filter fun i => !s.pageErased ((paramBase + i * 0x1000) / 512) && s.paramGood i).foldl
    (fun best i => match best with
      | none => some i
      | some j => if newer 32 (s.paramSeqAt i) (s.paramSeqAt j) then some i else some j) none

/-! The retain ring -/

/-- The parameter and retain rings as Mantel shows them (R412, R413, R423). -/
def State.findRings (s : State) : State :=
  let s1 := s.setFld Reg.mntRetainSeqSeq (match s.newestSlot with | some i => s.slotSeq i | none => 0)
  match s1.newestParam with
  | some i => { s1 with mantel := { s1.mantel with paramNext := (i + 1) % 1024 } }.setFld Reg.mntParamSeqSeq (s1.paramSeqAt i)
  | none => { s1 with mantel := { s1.mantel with paramNext := 0 } }.setFld Reg.mntParamSeqSeq 0

/-- The MNT registers as Mantel gives them, once its die has power again (R423, R432). -/
def State.mantelUp (s : State) : State :=
  s.findRings.setFields [(Reg.mntStatusReady, 1), (Reg.mntDirSeqSeq, s.mantel.dir.seq),
    (Reg.mntWearMaxErases, s.mantel.wear.foldl (fun n e => max n (min e.2 0x1FFFF)) 0)]

/-- The device's own retain commit with KIND `kind`: 0 power-fail, 1 Raking, 2 edit (R240, R415, R429). Without a valid
capture it is refused (R414). -/
def State.deviceRetain (s : State) (kind : Nat) : State :=
  if s.bit Reg.hrtStatusCaptureValid then
    let o := { s.mantelCommand 8 true 0 with kind := kind, addr := retainSlotBase 0 }
    { s with mantel := { s.mantel with dev := s.mantel.dev ++ [o] } }.retainNext
  else s.raise Reg.mntEventRetainRefused

/-- The RETAIN_COMMIT operation of software (R414). -/
def State.retainOp (s : State) (secure : Bool) : State :=
  if !s.bit Reg.hrtStatusCaptureValid then (s.mntEnd 9).raise Reg.mntEventRetainRefused
  else if s.freeSlot.isNone then (s.mntEnd 8).raise Reg.mntEventRetainRefused
  else (s.mntRun { s.mantelCommand 8 secure 0 with addr := retainSlotBase 0 }).retainNext

/-- RETAIN_COMMIT (R413). -/
def execRetainCommit (r : Requester) (s : State) : Result := .next (s.mntCommand r fun secure t => t.retainOp secure)

/-- The 64 KiB blocks of a retain slot. -/
def slotBlocks (i : Nat) : List Nat := (List.range 5).map (retainSlotBase i / 0x10000 + ·)

/-- A retain commit ends: the slot is valid, and with BG_ERASE every valid slot but the two newest is to be erased
(R413, R414). -/
def State.retainDone (s : State) (o : MantelOp) : State :=
  let seq := s.slotSeq o.slot
  let s1 := ((s.programFlash o.addr o.data).setSlot o.slot 1 seq).setFld Reg.mntRetainSeqSeq seq
  let old := if s1.bit Reg.mntControlBgErase then s1.validSlots.take (s1.validSlots.length - 2) else []
  let due := (old.flatMap slotBlocks).filter fun b => !s1.mantel.background.contains b
  { s1 with mantel := { s1.mantel with background := s1.mantel.background ++ due } }.raise Reg.mntEventRetainCommitted

/-! The ends of operations -/

/-- The software command ends (R405, R412, R413). -/
def State.opDone (s : State) (o : MantelOp) : State :=
  match o.op with
  | 3 => match partitionOf o.addr 1 with
    | some (p, _) => (s.programStaged p).mntEnd 0
    | none => s.mntEnd 0
  | 4 => match partitionOf o.addr 1 with
    | some (p, _) => ((s.eraseBlock (s.commitBuf p).block).programStaged p).mntEnd 0
    | none => s.mntEnd 0
  | 5 => (s.eraseAt o.addr).mntEnd 0
  | 7 => (s.appendParam o.data).mntEnd 0
  | _ => (s.retainDone o).mntEnd 0

/-- The software command that its bank carries out (R408). -/
def State.opRunning (s : State) : Option MantelOp :=
  s.mantel.op.filter fun o => decide (o.op ≠ 1) && decide (s.holder (s.opBank o) = 4)

/-- The device's own retain commit that bank 1 carries out, and those behind it (R408, R414). -/
def State.devRunning (s : State) : Option (MantelOp × List MantelOp) :=
  match s.mantel.dev with
  | o :: rest => if s.holder 1 = 1 then some (o, rest) else none
  | [] => none

/-- The software command in progress ends (R405). -/
def State.endOp (s : State) (o : MantelOp) : State := ((s.setHolder (s.opBank o) 0).opDone o).mantelStart.readHeld

/-- The device's own retain commit ends (R413). -/
def State.endDev (s : State) (o : MantelOp) (rest : List MantelOp) : State :=
  (({ s with mantel := { s.mantel with dev := rest } }.setHolder 1 0).retainDone o).mantelStart.readHeld

/-- MANTEL_OP_DONE (R405): the software command in progress ends, or else the device's own retain commit (log 35). -/
def execMantelOpDone (s : State) : Result :=
  .next (match s.mantelStart.opRunning, s.mantelStart.devRunning with
    | some o, _ => s.mantelStart.endOp o
    | none, some (o, rest) => s.mantelStart.endDev o rest
    | none, none => s)

/-- The retain slot that a block lies in. -/
def slotOfBlock (b : Nat) : Option Nat :=
  if 0x140 ≤ b ∧ b < 0x168 then some ((b - 0x140) / 5) else none

/-- A retain slot whose last block has been erased is pre-erased (R414). -/
def State.slotErased (s : State) (b : Nat) : State :=
  match slotOfBlock b with
  | some i => if (slotBlocks i).any s.mantel.background.contains then s else s.setSlot i 0 0
  | none => s

/-- A block of the Ashpit log. -/
def inLog (b : Nat) : Bool := decide (0x700 ≤ b) && decide (b < 0x800)

/-- A background erase of a block may be carried out: it is due, its bank has turned to its background erases, and a clear erases the log
from its start (R408, R421). -/
def State.mayErase (s : State) (b : Nat) : Bool :=
  s.mantel.background.contains b && decide (s.holder (bankOf (b * 0x10000)) = 5) &&
    (!inLog b || decide (s.mantel.background.find? inLog = some b))

/-- What waited for a block of the log goes on once it is erased (R421). -/
def State.ashGoOn (s : State) : State :=
  let s1 := s.ashpit.waitPages.foldl State.ashOwnPage { s with ashpit := { s.ashpit with waitPages := [] } }
  if s1.ashpit.flushAgain then { s1 with ashpit := { s1.ashpit with flushAgain := false } }.ashStartFlush else s1

/-- A background erase carried out (R409, R412, R414, R421). -/
def State.backErase (s : State) (b : Nat) : State :=
  let s1 := (s.eraseBlock b).setHolder (bankOf (b * 0x10000)) 0
  let s2 := { s1 with mantel := { s1.mantel with background := s1.mantel.background.filter (· ≠ b) } }.slotErased b
  if inLog b then s2.ashGoOn else s2

/-- BACKGROUND_ERASE (R409, R412, R414, R421): a block that is due is erased. -/
def execBackgroundErase (block : Fin 2048) (s : State) : Result :=
  .next (if s.mantelStart.mayErase block.val then (s.mantelStart.backErase block.val).mantelStart.readHeld else s)

/-- A directory page has been committed with this HIGHEST: where it brings another one than the page before, an epoch commit has ended,
and with the newest none is in progress (R349, R367). -/
def State.epochsDone (s : State) (highest : Nat) : State :=
  let s1 := if s.fld Reg.dmpPersistedPersisted = highest then s
    else (s.setFld Reg.dmpPersistedPersisted highest).raise Reg.dmpEventPersisted
  if s1.fld Reg.dmpHighestHighest = highest then s1.setFld Reg.dmpStatusCommitPending 0 else s1

/-- A privileged commit has ended: 1 a directory page, 2 an Ashpit record, 3 a Sweep result with its erase (R349, R409, R418,
R463). A directory page whose block is not erased yet has it erased first (log 149). -/
def State.privDone (s : State) (c : PrivCommit) : State :=
  match c.kind with
  | 1 =>
    let s0 := if s.pageErased (c.addr / 512) then s else s.eraseBlock (c.addr / 0x10000)
    let s1 := (s0.programFlash c.addr c.bytes).setFld Reg.mntDirSeqSeq c.seq
    s1.epochsDone (field c.bytes 12 4)
  | 3 => (s.eraseBlock (c.addr / 0x10000)).programFlash c.addr c.bytes
  | _ => s.programFlash c.addr c.bytes

/-- The privileged commit that was queued first of those that their banks carry out (R408). -/
def State.privRunning (s : State) : Option PrivCommit := s.mantel.priv.find? fun c => decide (s.holder (bankOf c.addr) = 2)

/-- A privileged commit in progress ends (R418). -/
def State.endPriv (s : State) (c : PrivCommit) : State :=
  (({ s with mantel := { s.mantel with priv := s.mantel.priv.erase c } }.setHolder (bankOf c.addr) 0).privDone c).mantelStart.readHeld

/-- PRIVILEGED_COMMIT_DONE (R418). -/
def execPrivilegedCommitDone (s : State) : Result :=
  .next (match s.mantelStart.privRunning with
    | some c => s.mantelStart.endPriv c
    | none => s)

/-! Ashpit commands -/

/-- The FLUSH command (R418): a flush of an empty buffer ends at once. -/
def State.ashFlush (s : State) : State := if s.fld Reg.ashFillFill = 0 then s.raise Reg.ashEventFlushed else s.ashStartFlush

/-- ASH_FLUSH (R418). -/
def execAshFlush (r : Requester) (s : State) : Result := .next (s.writeAs r 0x006 0x020 State.ashFlush)

/-- The flush in progress ends (R418). -/
def State.endFlush (s : State) : State := (s.setHolder 7 0).ashEndFlush.mantelStart.readHeld

/-- ASH_FLUSH_DONE (R418): the flush follows the privileged records before it. -/
def execAshFlushDone (s : State) : Result := .next (if s.mantelStart.holder 7 = 3 then s.mantelStart.endFlush else s)

/-- The log starts over: offset, sequence and refused count 0, nothing more to flush or commit, its blocks to be erased from the start,
first record CLEARED (R421); a directory page keeps the counts cleared (log 150). What is in progress in the log's bank is not interrupted (R408). -/
def State.ashStartClear (s : State) : State :=
  let refused := s.fld Reg.ashRefusedRefused
  let last := s.fld Reg.ashSeqSeq + 2 ^ 32 - 1
  let flush := decide (s.holder 7 = 3)
  let len := if flush then s.ashpit.flushLen else 0
  let mine : Option PrivCommit := if s.holder 7 = 2 then s.mantel.priv.find? fun c => decide (bankOf c.addr = 7) else none
  let s1 := { s with
    ashpit := { s.ashpit with flushLen := len, flushAgain := false, waitPages := [] }
    mantel := { s.mantel with
      priv := s.mantel.priv.filter fun c => decide (c.kind ≠ 2) || decide (mine = some c)
      background := (s.mantel.background.filter fun b => !inLog b) ++ (List.range 256).map (ashLogBase / 0x10000 + ·) } }
  let s2 := (s1.setAshHead 0).setFields [(Reg.ashSeqSeq, 0), (Reg.ashRefusedRefused, 0), (Reg.ashFillFill, len),
    (Reg.ashStatusFull, 0), (Reg.ashStatusFlushing, bit01 flush), (Reg.ashStatusClearing, 1)]
  (s2.record 0x006 0x01 false [refused, last % 2 ^ 32]).dirCommit id

/-- ASH_CLEAR (R421): by the secure world only. -/
def execAshClear (r : Requester) (s : State) : Result := .next (s.writeSecure r 0x006 0x020 State.ashStartClear)

/-- The erase of a clear ends: the blocks of the log that remain are erased, and what waited goes on (R421). -/
def State.ashEndClear (s : State) : State :=
  let rest := s.mantel.background.filter inLog
  let s1 := (rest.foldl State.eraseBlock s).setFld Reg.ashStatusClearing 0
  let s2 := { s1 with mantel := { s1.mantel with background := s1.mantel.background.filter fun b => !inLog b } }
  (s2.setHolder 7 0).ashGoOn.raise Reg.ashEventCleared

/-- The erase of a clear may end: the log's bank is erasing, or has nothing left to erase (R408, R421). -/
def State.clearEnds (s : State) : Bool :=
  s.bit Reg.ashStatusClearing && (decide (s.holder 7 = 5) || !s.mantel.background.any inLog)

/-- ASH_CLEAR_DONE (R421). -/
def execAshClearDone (s : State) : Result :=
  .next (if s.mantelStart.clearEnds then s.mantelStart.ashEndClear.mantelStart.readHeld else s)

end Sys2Proof.Machine
end

