-- ==== Sys2Proof/Machine/Sweep.lean ====
section
/-! DEFINITION. The Sweep result partition (R463): the newest stored result, the page of a new one, and its commit. -/

namespace Sys2Proof.Machine

/-- A stored Sweep result (R463). -/
structure SweepResult where
  block : Nat
  seq : Nat
  verdict : Nat
  stepping : Nat
  version : Nat
  tick : Nat
  failed : List Nat
  repairs : List (Nat × Nat)
  deriving DecidableEq, Repr

/-- Bits set in a number below `n`. -/
def bitsSet (n v : Nat) : List Nat := (List.range n).filter fun i => bitOf v i

/-- The result in one of the partition's two blocks, where its page is good; its repair entries stand in the pages after it
(R463). -/
def State.sweepIn (s : State) (block : Nat) : Option SweepResult :=
  let p := s.flashBytes (block * 0x10000) 512
  if field p 0 4 = 0x53575052 ∧ field p 508 4 = crc32c (p.take 508) then
    let n := min (field p 60 2) 8128
    let q := s.flashBytes (block * 0x10000 + 512) (8 * n)
    some ⟨block, field p 4 4, field p 8 1, field p 9 1, field p 10 2, field p 12 6, bitsSet 144 (field p 24 36),
      (List.range n).map fun i => (field q (8 * i) 4, field q (8 * i + 4) 4)⟩
  else none

/-- The newest valid result (R463). -/
def State.newestSweep (s : State) : Option SweepResult :=
  match s.sweepIn 2, s.sweepIn 3 with
  | some a, some b => if newer 32 b.seq a.seq then some b else some a
  | some a, none => some a
  | none, b => b

/-- A Hob port fails with its sequencer (R290; DEDUCED, log 76). -/
def findsPort (f : SweepFind) (p : Nat) : Bool := f.ports.contains p || f.sequencers.contains (p / 16)

/-- The minimum service set remains beside what a full Sweep has found (R43). -/
def State.sweepServes (s : State) (f : SweepFind) : Bool :=
  s.fit.mantel && ((List.range 144).any fun e => !f.engines.contains e && !f.gates.contains (e / 9)) &&
    (s.fit.grate || (s.fit.hob && (List.range 192).any fun p => !findsPort f p) ||
      (s.fit.chimney && (List.range 40).any fun x => !f.macs.contains x))

/-- The verdict of a full Sweep (R462): PASS when no failure is uncovered. Failures of engines, cluster gates, Hob ports and MACs
are covered while the minimum service set remains. -/
def State.sweepPass (s : State) (f : SweepFind) : Bool := decide (f.uncovered = 0) && s.sweepServes f

/-- The failures that nothing covers: those of engines, gates, ports and MACs too where the minimum service set is lost (R462, R463). -/
def State.uncovered (s : State) (f : SweepFind) : Nat :=
  f.uncovered + (if s.sweepServes f then 0
    else ((List.range 144).filter f.engines.contains).length + ((List.range 16).filter f.gates.contains).length
      + ((List.range 192).filter (findsPort f)).length + ((List.range 40).filter f.macs.contains).length)

/-- The pages of a new result: its page 0, then its repair entries (R463). -/
def State.sweepPages (s : State) (seq origin : Nat) (f : SweepFind) : List Byte :=
  let map := f.engines.foldl (fun m e => withBit m e true) 0
  let pass := s.sweepPass f
  let body := beBytes 4 0x53575052 ++ beBytes 4 seq ++ [BitVec.ofNat 8 (if pass then 1 else 2), BitVec.ofNat 8 Config.stepping]
    ++ beBytes 2 (s.fld (Reg.rlnVerVersion 6)) ++ beBytes 6 s.ember.tick ++ beBytes 3 (s.fld Reg.ashCyclesCycles)
    ++ [BitVec.ofNat 8 origin, 0, 0] ++ beBytes 36 map ++ beBytes 2 f.repairs.length
    ++ beBytes 2 (if pass then 0 else max 1 (s.uncovered f)) ++ List.replicate 444 0
  body ++ beBytes 4 (crc32c body) ++ f.repairs.flatMap fun r => beBytes 4 r.1 ++ beBytes 4 r.2

/-- A result queued for its commit in the block that does not hold the newest (R463). -/
def State.commitSweep (s : State) (origin : Nat) (f : SweepFind) : State :=
  let (block, seq) := match s.newestSweep with
    | some r => (if r.block = 2 then 3 else 2, (r.seq + 1) % 2 ^ 32)
    | none => (2, 1)
  { s with mantel := { s.mantel with priv := s.mantel.priv ++ [⟨3, block * 0x10000, s.sweepPages seq origin f, seq⟩] } }

/-- The secure-world memories zeroised: the secure part of the Tender's local store, its secure stack bank, the secure DRAM
range (R462, R493, R494). -/
def State.zeroSecure (s : State) : State :=
  let c := s.core tenderKey
  let s1 := s.setCore tenderKey { c with ls := Sparse.clear c.ls 0 (s.fld Reg.secLsSplitSplit * 0x1000), secure := Bank.reset }
  { s1 with dram := Sparse.clear s1.dram (s.fld Reg.secDramBaseBase * 2 ^ 20) (s.fld Reg.secDramLimitLimit * 2 ^ 20) }

end Sys2Proof.Machine
end

