-- ==== Sys2Proof/Machine/Power.lean ====
section
/-! DEFINITION. Modes and power: power domains (R430-R432, R495), the unit reset, supplies and clocks (R427, R441, R459, R524,
R525), the restart kinds (R435, R436), Held, Banked and Raking (R426-R429, R442-R444), power-fail (R415, R438-R440) and the
Ember domain (R445-R449). -/

namespace Sys2Proof.Machine

/-! Refusals -/

/-- A refusal captured when it is the first: domain (0x1F a command), code, command, and whether the normal world asked; the
host counts as it (R431, R451). -/
def State.pwrRefuse (s : State) (domain code op : Nat) (r : Requester) : State :=
  (s.capture Reg.pwrErrorCaptureCode [(Reg.pwrErrorCaptureDomain, domain), (Reg.pwrErrorCaptureCode, code),
    (Reg.pwrErrorCaptureOp, op), (Reg.pwrErrorCaptureNormal, bit01 (decide (r ≠ .tenderSecure)))]).raise Reg.pwrEventRefused

/-! Domains -/

/-- The page of a register key. -/
def keyPage (k : Nat) : Nat := k / 0x20000

/-- The offset of a register key. -/
def keyOff (k : Nat) : Nat := k / 32 % 0x1000

/-- What a cut of a domain leaves of its pages: OWNER, and the state of a failed engine (R48, R432, R481). -/
def State.survivesCut (s : State) (n k : Nat) : Bool :=
  decide (pageDomain (keyPage k) ≠ some n) || decide (keyOff k = 0x01C) ||
    (decide (0x040 ≤ keyPage k) && decide (keyPage k ≤ 0x0CF) && decide (s.fld (Reg.fbxERoleState (keyPage k - 0x040)) = 4) &&
      decide (k = (Reg.fbxERoleState (keyPage k - 0x040)).key))

/-- The lanes of Erair leave service with their firmware or supply; the loss itself follows when heartbeats have stayed away (R329,
R332, R366). -/
def State.erairDown (s : State) : State :=
  { s with
    erair := { s.erair with cells := [] }
    hearth := { s.hearth with asked := [] } }.setFields ((Reg.eraStatusLanes, 0) :: (List.range 4).map fun l => (Reg.eraLErrorsUp l, 0))

/-- What a domain holds beside its register pages is lost with its power (R430, R432). -/
def State.loseContents (s : State) (n : Nat) : State :=
  if n < 16 then
    (clusterEngines n).foldl (fun t e =>
      { t with cores := Sparse.erase t.cores e, loaded := Sparse.put t.loaded (0, 0) e (0, 0) }) s
  else if n = 19 then { s with hob := [], turnspit := Turnspit.reset }
  else if n = 20 then { s with mantel := { s.mantel with bufs := [], op := none, held := [] } }
  else if n = 21 then s.erairDown
  else s

/-- A domain without power: its registers and memories are lost (R432). -/
def State.cutDomain (s : State) (n : Nat) : State :=
  let s1 := { s with regs := s.regs.filter fun e => s.survivesCut n e.1 }
  (s1.loseContents n).setFld (Reg.pwrPdControlState n) 2

/-- An engine that a cluster turned on gives to Sweep: it passes and becomes a spare, or is failed; which of the two is free (R461, R432;
log 128). -/
def State.engineOn (s : State) (e : Nat) : State :=
  let (pass, t) := s.drawBit
  let t1 := t.setCore e { t.core e with ls := [], codeOf := none }
  t1.setEngState e (if pass then 2 else 4)

/-- The engines of a cluster turned on in service that are not failed go through Sweep, and its folded logical engines move onto those
that pass (R33, R432). -/
def State.clusterOn (s : State) (n : Nat) : State :=
  let es := (clusterEngines n).filter fun e => decide (s.engState e = 0) && !s.fit.badGates.contains n
  let s1 := es.foldl State.engineOn s
  ((List.range 8).map (8 * n + ·)).foldl (fun t l => if (t.ownerOf l).isNone then t.takeSpare n l else t) s1

/-- The ports of MACs that Sweep has found failed are mapped out (R37; DEDUCED, log 76). -/
def State.macsOut (s : State) : State := s.fit.badMacs.foldl (fun t x => t.setFld (Reg.chmXStatusMappedOut x) 1) s

/-- A domain switched on after its power was cut: its contents start afresh (R432). -/
def State.domainUp (s : State) (n : Nat) : State :=
  let s1 := s.setFld (Reg.pwrPdControlState n) 0
  if n < 16 then s1.clusterOn n
  else if n = 19 then s1.hobStart
  else if n = 16 ∨ n = 17 then s1.macsOut
  else s1

/-- The contents of a domain are in use, so that it cannot be cut or gated (R430). -/
def State.domainBusy (s : State) (n : Nat) : Bool :=
  if n < 16 then (clusterEngines n).any fun e => decide (s.engState e ≠ 0) && decide (s.engState e ≠ 4)
  else if n = 16 ∨ n = 17 then
    ((List.range 20).map (20 * (n - 16) + ·)).any fun x =>
      decide (s.fld (Reg.chmXControlMode x) ≠ 0) && !s.bit (Reg.chmXStatusMappedOut x)
  else if n = 18 then s.hasDram
  else if n = 20 then true
  else if n = 21 then s.bit Reg.eraControlEnable
  else false

/-- The mode forbids the cut (R430). -/
def State.domainMode (s : State) (n : Nat) : Bool :=
  decide (n = 19) && decide (s.mode ≠ modeHeld) && decide (s.mode ≠ modeBanked)

/-- A cut of a secure-owned domain refused to the normal world or the host (R495). -/
def State.pdDenied (s : State) (r : Requester) (n v : Nat) : State :=
  let s1 := (s.secCapture n (requesterCode r)).raise Reg.secEventDenied
  ((s1.count Reg.secDeniedCountCount).record 0x009 0x01 true [n, v, requesterCode r]).pwrRefuse n 2 0 r

/-- A request to turn a domain on (R431): a gated clock, or power not cut yet, returns at once; power comes back with
PD_SWITCH_DONE. -/
def State.pdOn (s : State) (n : Nat) : State :=
  let turning := decide (s.fld (Reg.pwrPdControlReq n) = 0)
  let s1 := s.setFld (Reg.pwrPdControlReq n) 0
  let back := s1.setFld (Reg.pwrPdControlState n) 0
  match s.fld (Reg.pwrPdControlState n) with
  | 1 => if n < 16 then back.clusterOn n else back
  | 2 => s1.setFld (Reg.pwrPdControlState n) 3
  | 3 => if turning then s1 else if n < 16 then back.clusterOn n else back
  | _ => s1

/-- An accepted request to gate or cut a domain (R431); one that is still without power stays so. -/
def State.pdOff (s : State) (n v : Nat) : State :=
  let s1 := s.setFld (Reg.pwrPdControlReq n) v
  let state := s.fld (Reg.pwrPdControlState n)
  if state = v then s1
  else if state = 3 ∧ s.fld (Reg.pwrPdControlReq n) = 0 ∧ v = 2 then s1.cutDomain n
  else s1.setFld (Reg.pwrPdControlState n) 3

/-- SEC_OWNER of a domain as it stood at the start of the power controller's clock, which is the model's tick (R495; log 1). -/
def State.ownedAtStart (s : State) (n : Nat) : Bool :=
  match s.owners.find? fun o => decide (o.1 = n) with
  | some o => o.2
  | none => s.bit (Reg.pwrPdControlSecOwner n)

/-- A write of REQ, checked in the order of R431. -/
def State.pdRequest (s : State) (r : Requester) (n v : Nat) : State :=
  if v = 3 then s
  else if v = 0 then (if 22 ≤ n then s else s.pdOn n)
  else if 22 ≤ n then s.pwrRefuse n 1 0 r
  else if r ≠ .tenderSecure ∧ s.ownedAtStart n then s.pdDenied r n v
  else if s.domainBusy n then s.pwrRefuse n 3 0 r
  else if s.domainMode n then s.pwrRefuse n 4 0 r
  else s.pdOff n v

/-- SEC_OWNER written by the secure world; it governs later requests (R495). -/
def State.secOwner (s : State) (r : Requester) (n : Nat) (own : Bool) : State :=
  if r = .tenderSecure then { s with owners := (n, s.ownedAtStart n) :: s.owners }.setBit (Reg.pwrPdControlSecOwner n) own else s

/-- PD_REQUEST (R431): a write of PWR_PDnn_CONTROL. -/
def execPdRequest (r : Requester) (n : Fin 24) (v : W32) (s : State) : Result :=
  .next (s.writeAs r 0x001 (0x040 + 4 * n.val) fun t =>
    (t.pdRequest r n.val (bitsOf v.toNat 0 2)).secOwner r n.val (bitOf v.toNat 4))

/-- SEC_OWNER_WRITE (R495). -/
def execSecOwnerWrite (r : Requester) (n : Fin 24) (own : Bool) (s : State) : Result :=
  .next (s.writeAs r 0x001 (0x040 + 4 * n.val) fun t => t.secOwner r n.val own)

/-- A domain ends its switching in the state asked for (R430, R432). -/
def State.pdSwitched (s : State) (n : Nat) : State :=
  match s.fld (Reg.pwrPdControlReq n) with
  | 0 => s.domainUp n
  | 1 => s.setFld (Reg.pwrPdControlState n) 1
  | _ => s.cutDomain n

/-- PD_SWITCH_DONE (R430). -/
def execPdSwitchDone (n : Fin 24) (s : State) : Result :=
  .next (if s.fld (Reg.pwrPdControlState n.val) = 3 then s.pdSwitched n.val else s)

/-! The unit reset -/

/-- What a reset finds in progress in a bank is never interrupted and completes (R408). -/
def State.settleBank (s : State) (b : Nat) : State :=
  match s.holder b with
  | 1 => match s.mantel.dev with
    | o :: _ => s.retainDone o
    | [] => s
  | 2 => match s.mantel.priv.find? fun c => decide (bankOf c.addr = b) with
    | some c => s.privDone c
    | none => s
  | 3 => s.ashEndFlush
  | 4 => match s.mantel.op with
    | some o => s.opDone o
    | none => s
  | 5 => match s.mantel.background.find? fun k => decide (bankOf (k * 0x10000) = b) with
    | some k => s.backErase k
    | none => s
  | _ => s

/-- The operations in progress of every bank complete; what only waits is lost (R408, log 36). -/
def State.settleOps (s : State) : State := (List.range 8).foldl State.settleBank s

/-- The register fields that outlive a unit reset: the Ember block (R449), FGD_LAST (R457) and MNT_WEAR (per Mantel). -/
def survivesReset (k : Nat) : Bool :=
  (decide (keyPage k = 0x003) && decide (keyOff k ≠ 0x01C)) || (decide (keyPage k = 0x002) && decide (keyOff k = 0x03C)) ||
    (decide (keyPage k = 0x005) && decide (keyOff k = 0x044))

/-- Mantel without anything under way; what a clear has yet to erase of the log stays due (R418, R421; log 36). -/
def Mantel.quiet (m : Mantel) : Mantel :=
  { m with bufs := [], op := none, dev := [], priv := [], background := m.background.filter inLog, held := [], pf := 0, pfAgain := 0 }

/-- The unit as a reset leaves it, before Kindling: only Ember, Mantel, the fuses, the pins, what DRAM holds until its
training, and what the model keeps beside the unit outlive it (R427, R449, R457, R535). -/
def State.resetState (s : State) (keep : Nat → Bool) : State :=
  { State.reset with
    pending := s.pending
    out := s.out
    freeCtr := s.freeCtr
    regs := s.regs.filter fun e => keep e.1
    pins := { s.pins with aliveOut := false, wakeN := true }
    dram := s.dram
    mantel := s.mantel.quiet
    ember := s.ember
    fireguard := { State.reset.fireguard with unlogged := s.fireguard.unlogged }
    fuses := { s.fuses with op := none } }

/-- A unit reset into Kindling for a cause of PWR_RESET_CAUSE (R427, R451). -/
def State.resetUnit (s : State) (cause : Fld) : State :=
  (s.settleOps.resetState survivesReset).setFields [(Reg.pwrResetCausePowerOn, 0), (cause, 1)]

/-- RESET_PIN (R427, R525): with the main supply gone the pin acts on nothing. -/
def execResetPin (s : State) : Result :=
  let s1 := if s.mode = modeEmber then s else s.resetUnit Reg.pwrResetCauseResetN
  .next { s1 with pins := { s1.pins with resetN := false } }

/-- CLOCK_LOSS (R459): the unit is held in reset. -/
def execClockLoss (s : State) : Result :=
  .next (if s.mode = modeEmber ∨ !s.pins.refclkOk then s
  else
    let s1 := (s.settleOps.resetState survivesReset).setFld Reg.pwrResetCausePowerOn 0
    { s1 with pins := { s1.pins with refclkOk := false } })

/-- CLOCK_RESTORED (R459). -/
def execClockRestored (s : State) : Result :=
  .next (if s.pins.refclkOk then s
  else { s with pins := { s.pins with refclkOk := true } }.setFld Reg.pwrResetCauseClockLoss 1)

/-- HARD_TIMER_EXPIRY (R457). -/
def execHardTimerExpiry (s : State) : Result :=
  .next (if s.bit Reg.fgdStatusExpired then s.resetUnit Reg.pwrResetCauseFireguard else s)

/-! Supplies -/

/-- An Ember event, captured when it is the first (R452). -/
def State.embRaise (s : State) (i : Nat) (f : Fld) : State :=
  (s.capture Reg.embErrorCaptureCode [(Reg.embErrorCaptureCode, i + 1)]).raise f

/-- Ember alone has power (R441): the rest of the unit is lost, and FGD_LAST with it (R457). What a supply loss cuts off in
Mantel is not programmed (log 36). -/
def State.loseSupply (s : State) : State :=
  let s1 := s.resetState fun k => (decide (keyPage k = 0x003) && decide (keyOff k ≠ 0x01C)) ||
    (decide (keyPage k = 0x005) && decide (keyOff k = 0x044))
  { s1 with
    dram := []
    pins := { s1.pins with mainValid := false }
    ember := { s1.ember with locked := true, onVbak := true }
    fireguard := State.reset.fireguard }.setFld Reg.pwrStatusMode 0 |>.embRaise 1 Reg.embEventBackup

/-- BROWN_OUT (R441, R524). -/
def execBrownOut (s : State) : Result := .next (if s.pins.mainValid then s.loseSupply else s)

/-- MAIN_SUPPLY_VALID (R427, R524): Ember leaves VBAK, and the unit enters Kindling unless RESET_N holds it. -/
def execMainSupplyValid (s : State) : Result :=
  .next (if s.pins.mainValid then s
  else
    let s1 := { s with pins := { s.pins with mainValid := true }, ember := { s.ember with onVbak := false } }
    if s1.pins.resetN then s1.setFld Reg.pwrStatusMode 1 else s1)

/-! Restart kinds -/

/-- The words of a valid retain slot, where its identity and ranges are those of the program (R413, R435). -/
def State.slotWords (s : State) (i : Nat) (p : Program) : Option (List W36) :=
  let head := s.flashBytes (retainSlotBase i) 512
  let n := field head 16 4
  if field head 8 4 = p.id ∧ field head 12 4 = p.layout ∧ (head.drop 32).take 128 = rangePairs p.retain then
    some (unpackWords (s.flashBytes (retainSlotBase i + 512) ((n + 1) / 2 * 9)) n)
  else none

/-- The words of the candidate slot, where it matches the loaded program (R435). -/
def State.warmWords (s : State) : Option (List W36) :=
  match s.newestSlot, s.bellows.active with
  | some i, some p => s.slotWords i p
  | _, _ => none

/-- A warm start: the retained words from the slot, every other word zero (R436). -/
def State.warmImage (s : State) (ws : List W36) : State :=
  ((rangeWords s.hearth.retain).zip ws).foldl (fun t p => if s.carved (p.1 / 32) then t else t.initWord p.1 p.2) s.coldImage

/-- The loaded program starts (R435, R436): warm (1), cold (2), or refused under RESTART. -/
def State.startProgram (s : State) : Option State :=
  let begun (t : State) (kind : Nat) : State := { t with started := true }.startKind kind |>.setFld Reg.pwrStatusLastRestart kind
  match s.fld Reg.pwrControlRestart, s.warmWords with
  | 2, _ => some (begun s.coldImage 2)
  | _, some ws => some (begun (s.warmImage ws) 1)
  | 1, none => none
  | _, none => some (begun s.coldImage 2)

/-! Commands -/

/-- An engine is halted (R468). -/
def State.engineHalted (s : State) : Bool := s.cores.any fun c => decide (c.1 < 144) && c.2.halted

/-- A command of PWR_COMMAND (R428): refused with BUSY during a transition, or while an engine is halted where R468 says so,
and with MODE in a mode that does not allow it. -/
def State.pwrCommand (s : State) (r : Requester) (op : Nat) (modes : List Nat) (k : State → State) : State :=
  s.writeAs r 0x001 0x020 fun t =>
    if t.bit Reg.pwrStatusTransition then t.pwrRefuse 0x1F 3 op r
    else if !modes.contains t.mode then t.pwrRefuse 0x1F 4 op r
    else if t.engineHalted && decide (2 ≤ op) && decide (op ≤ 5) then t.pwrRefuse 0x1F 3 op r
    else k t

/-- HOLD (R328, R427): the classes stop once their running cycles have finished (R118). -/
def State.hold (s : State) : State :=
  if [0, 1, 2].all fun k => (s.cls k).finished then s.enterHeld else s.setFld Reg.pwrStatusTransition 1

/-- PWR_HOLD (R427). -/
def execPwrHold (r : Requester) (s : State) : Result :=
  .next (s.pwrCommand r 1 [modePrimary, modeStandby] State.hold)

/-- The unit leaves Held (R427). -/
def State.leaveHeld (s : State) : State :=
  (s.setMode (if s.claimant then modePrimary else modeStandby)).classStates.grateUpdate

/-- RUN (R427, R435): with a program loaded and no shortfall, started now where it was not. What the check finds is reported, and a
shortfall found earlier is none any more where it finds none (R44, R220). -/
def State.run (s : State) (r : Requester) : State :=
  match s.bellows.active with
  | none => s.pwrRefuse 0x1F 4 2 r
  | some p =>
    let u := s.noteShort (s.shortfallOf p)
    if (s.shortfallOf p).any id then u.pwrRefuse 0x1F 4 2 r
    else if u.started then u.leaveHeld
    else
      match u.startProgram with
      | some t => t.leaveHeld
      | none => u.raise Reg.pwrEventRestartRefused

/-- PWR_RUN (R427). -/
def execPwrRun (r : Requester) (s : State) : Result := .next (s.pwrCommand r 2 [modeHeld] fun t => t.run r)

/-- PWR_RESET (R427). -/
def execPwrReset (r : Requester) (s : State) : Result :=
  .next (s.pwrCommand r 7 [1, 2, 3, 4, 5, 6, 7] fun t => t.resetUnit Reg.pwrResetCauseCommand)

/-! Banked -/

/-- The domains that the power controller switches off in the light stage (R442). -/
def State.lightDomains (s : State) : List Nat :=
  List.range 16 ++ [19, 21] ++ (if s.bit Reg.pwrBankKeepA then [] else [16]) ++ (if s.bit Reg.pwrBankKeepB then [] else [17])

/-- BANK (R442): classes stop, synchronization ends, role NONE, sessions close, Hob ports go off, domains are cut. -/
def State.bank (s : State) : State :=
  let from_ := s.mode
  let s1 := ((s.desync 0).closeSessions).setMode modeBanked
  let s2 := (([0, 1, 2].foldl State.abortCycle s1).setRoleState 0 causeMode).hobAllOff.classStates.grateUpdate
  let s3 := s2.lightDomains.foldl State.cutDomain s2
  { s3 with bankedFrom := some from_ }.setFields [(Reg.pwrStatusBankStage, 1), (Reg.pwrWakeCauseCause, 0)]

/-- PWR_BANK (R442). -/
def execPwrBank (r : Requester) (s : State) : Result :=
  .next (s.pwrCommand r 3 [modeHeld, modeStandby] State.bank)

/-- The deep stage (R443, R458): DRAM keeps its contents in self-refresh. -/
def State.deepStage (s : State) : State :=
  let s1 := [16, 17, 20].foldl State.cutDomain s
  s1.setFields [(Reg.pwrPdControlState 18, 2), (Reg.pwrStatusBankStage, 2), (Reg.fgdStatusBankPause, 1)]

/-- BANK_DEEP_STAGE (R443). -/
def execBankDeepStage (s : State) : Result :=
  .next (if s.mode = modeBanked ∧ s.fld Reg.pwrStatusBankStage = 1 ∧ s.fld Reg.pwrBankDeepMs ≠ 0 then s.deepStage else s)

/-- The domains as requested again, on or clock gated, each switched on afresh where it was cut (R431, R433 step 1). -/
def State.restoreDomains (s : State) : State :=
  (List.range 22).foldl (fun t n =>
    let req := t.fld (Reg.pwrPdControlReq n)
    if req ≠ 2 ∧ t.fld (Reg.pwrPdControlState n) ≠ req then
      let t1 := t.setFld (Reg.pwrPdControlState n) req
      if n = 19 then t1.hobStart else if n = 20 then t1.mantelUp else t1
    else t) s

/-- Kindling in resume form starts (R433, R444): the unit has left Banked. -/
def State.resume (s : State) : State :=
  let s1 := (s.setMode modeKindling).setFields [(Reg.pwrStatusBankStage, 0), (Reg.pwrStatusQuick, 0), (Reg.fgdStatusBankPause, 0),
    (Reg.pwrResetCausePowerOn, 0), (Reg.pwrResetCauseResetN, 0), (Reg.pwrResetCauseFireguard, 0), (Reg.pwrResetCauseClockLoss, 0),
    (Reg.pwrResetCauseCommand, 0), (Reg.pwrResetCauseRelining, 0), (Reg.pwrResetCauseResume, 1)]
  ({ s1.restoreDomains with kindling := .resume }).raise Reg.pwrEventWoke

/-- A wake source, 0 to 5 in the order of R444, where `enabled` says that it wakes a Banked unit: it is recorded, and a Banked
unit resumes; a device wake with PERST_N low drives WAKE_N (R444, R502). -/
def State.wake (s : State) (source : Nat) (enabled : Bool) : State :=
  if !enabled || !(decide (s.mode = modeBanked) || decide (s.kindling = .resume)) then s
  else
    let s1 := s.setFldBit Reg.pwrWakeCauseCause source true
    let s2 := s1.setFld Reg.pciWakeReportCause (s1.fld Reg.pwrWakeCauseCause)
    let s3 := if source ≠ 2 ∧ !s2.pins.perstN then
        { s2 with pins := { s2.pins with wakeN := false }, pcie := { s2.pcie with deviceFirst := true } }
      else s2
    if s3.mode = modeBanked then s3.resume else s3

/-- PWR_WAKE (R444): in the light stage only. -/
def execPwrWake (r : Requester) (s : State) : Result :=
  .next (s.pwrCommand r 6 [modeBanked] fun t =>
    if t.fld Reg.pwrStatusBankStage = 1 then t.wake 5 true else t.pwrRefuse 0x1F 4 6 r)

/-- HOB_GROUP_WAKE (R322, R324, R444): the group's Banked ports restart, and a Banked unit may resume. -/
def execHobGroupWake (g : Fin 24) (s : State) : Result :=
  let s1 := { s with pins := { s.pins with hbWake := withBit s.pins.hbWake g.val true } }
  if s.mode = modeBanked ∨ s.kindling = .resume then .next (s1.wake 3 (s1.bit Reg.pwrBankHobWake))
  else if s1.hobUp && s1.fldBit Reg.hobGroupStandbyStandby g.val then
    .next ((List.range 8).foldl (fun t i => t.hobStartRestart (8 * g.val + i)) ((s1.setFldBit Reg.hobGroupWakeWake g.val true).hobRaise (8 * g.val) 2 Reg.hobEventGroupWake))
  else .next s1

/-- GRATE_INPUT_CHANGE (R387, R394, R444): the filtered state of an input channel in service. -/
def execGrateInputChange (n : Fin 16) (on : Bool) (s : State) : Result :=
  if s.fit.grate && s.mainUp && (s.bit Reg.grtControlEnable || s.isPartnerAlive n.val) && decide (s.fld (Reg.grtGConfigMode n.val) = 1 ∨ s.fld (Reg.grtGConfigMode n.val) = 2) then
    let s1 := s.setFldBit Reg.grtInStateInState n.val on
    .next (if s.fldBit Reg.grtInStateInState n.val = on then s1 else s1.wake 4 (s1.fldBit Reg.pwrGrateWakeMask n.val))
  else .next s

/-! Raking -/

/-- RAKE and RAKE_OFF (R429): no further cycle starts; a unit in role 7 ends its running cycles and waits for their
acknowledgements. -/
def State.rake (s : State) (off : Bool) : State :=
  let s1 := (if s.role = 7 then s else [0, 1, 2].foldl State.abortCycle s).setMode modeRaking
  let s2 := { s1 with raking := some ⟨off, 1, false⟩ }.setFld Reg.pwrStatusTransition 1
  s2.classStates.grateUpdate.rakeCheck

/-- PWR_RAKE (R429). -/
def execPwrRake (r : Requester) (s : State) : Result :=
  .next (s.pwrCommand r 4 [modePrimary, modeStandby, modeHeld] fun t => t.rake false)

/-- PWR_RAKE_OFF (R429). -/
def execPwrRakeOff (r : Requester) (s : State) : Result :=
  .next (s.pwrCommand r 5 [modePrimary, modeStandby, modeHeld] fun t => t.rake true)

/-- Everything queued for Mantel is programmed (R429). -/
def State.commitAll (s : State) : State :=
  let s1 := s.mantel.priv.foldl State.privDone { s with mantel := { s.mantel with priv := [] } }
  if s1.bit Reg.ashStatusFlushing then s1.ashEndFlush else s1

/-- The Sweep of Raking has ended (R429, R438, R462): its result is committed unless a power-fail stopped it; then the unit is Doused
by a FAIL, resets, or drops PWRON and waits, stopped, for its supply to fall. -/
def State.rakeDone (s : State) (k : Raking) (f : SweepFind) : State :=
  let s1 := if k.stopped then s else s.commitSweep 0 f
  let s2 := s1.commitAll.zeroSecure
  if !k.stopped && !s.sweepPass f then s2.douse
  else if k.off then (s2.rakePhase 4).setFld Reg.embStatusPwron 0 else s2.resetUnit Reg.pwrResetCauseCommand

/-- RAKE_END (R429): once the retain commit has ended. -/
def execRakeEnd (f : SweepFind) (s : State) : Result :=
  .next (match s.raking with
    | some k => if k.phase = 3 ∧ s.mantel.dev = [] then s.rakeDone k f else s
    | none => s)

/-- The PWRON latch set (R448); a unit that waits after RAKE_OFF resets into Kindling (R429). -/
def State.setPwron (s : State) : State :=
  let s1 := s.setFld Reg.embStatusPwron 1
  match s1.raking with
  | some k => if k.phase = 4 then s1.resetUnit Reg.pwrResetCauseCommand else s1
  | none => s1

/-- WAKE_PIN (R444, R448). -/
def execWakePin (s : State) : Result :=
  .next (let s1 := s.wake 1 true
    if s1.bit Reg.embControlWakePwron then s1.setPwron else s1)

/-- PERST_RISE (R502): WAKE_N is released, the link trains, and a Banked unit may resume. -/
def execPerstRise (s : State) : Result :=
  .next (if s.pins.perstN then s
  else
    let s1 := { s with
      pins := { s.pins with perstN := true, wakeN := true }
      pcie := { s.pcie with trained := true } }.wake 2 (s.bit Reg.pwrBankPerstWake)
    s1.setBit Reg.pciWakeReportDeviceFirst s1.pcie.deviceFirst)

/-! Power-fail -/

/-- A retain capture may be taken: not in a Kindling, whose step 9 ends it (R438). -/
def State.mayCapture (s : State) : Bool := decide (s.mode ≠ modeKindling)

/-- A power-fail stops the Sweep of Raking (R438). -/
def State.rakeStop (s : State) : State :=
  match s.raking with
  | some k => { s with raking := some ⟨k.off, k.phase, true⟩ }
  | none => s

/-- The power-fail sequence enters phase `p`, with no further one due. -/
def State.setPf (s : State) (p : Nat) : State := { s with mantel := { s.mantel with pf := p, pfAgain := 0 } }

/-- A power-fail lets queued software commits wait and stops an edit write after the block in progress (R415). -/
def State.pfHolds (s : State) : State :=
  let s1 := match s.mantel.op with
    | some o => if o.op ≠ 1 ∧ s.holder (s.opBank o) ≠ 4 then s.setMantelOp (some { o with waits := true }) else s
    | none => s
  if s1.writing s1.editBank then { s1 with edit := { s1.edit with cut := true } } else s1

/-- The steps of R415 start, for PFAIL_N (1) or the monitor (2). -/
def State.startPf (s : State) (source : Nat) : State :=
  let s0 := if s.fld Reg.pwrStatusBankStage = 2 then
    (s.setFields [(Reg.pwrPdControlState 18, 0), (Reg.pwrPdControlState 20, 0)]).mantelUp else s
  let s1 := (s0.pfHolds.setPf (if s0.mayCapture then 1 else 2)).rakeStop
  let s2 := { s1 with mantel := { s1.mantel with dir := { s1.mantel.dir with pfComplete := false } } }.setFld Reg.mntStatusPfActive 1
  let s3 := (if s2.mantel.pf = 1 then s2.startCapture else s2).record 0x001 0x01 true [source]
  if s3.bit Reg.ashStatusFlushing then s3 else s3.ashStartFlush

/-- Power-fail signalled (R438, R440). -/
def State.powerFail (s : State) (source : Nat) : State :=
  let s1 := (s.setFld Reg.pwrStatusPf 1).raise Reg.pwrEventPowerFail
  if s1.mantel.pf = 0 then s1.startPf source else { s1 with mantel := { s1.mantel with pfAgain := source } }

/-- POWER_FAIL (R438). -/
def execPowerFail (src : PfSource) (s : State) : Result :=
  .next (if !s.mainUp then s
  else
    match src with
    | .pin => { s with pins := { s.pins with pfailN := false } }.powerFail 1
    | .monitor => s.powerFail 2)

/-- PF_RECOVERED (R440). -/
def execPfRecovered (s : State) : Result :=
  .next (if s.bit Reg.pwrStatusPf then
    ({ s with pins := { s.pins with pfailN := true } }.setFld Reg.pwrStatusPf 0).raise Reg.pwrEventPfRecovered
  else s)

/-- RETAIN_CAPTURE_END (R127, R240, R415, R429): the capture is valid, and whoever asked for it starts its commit; one commit
serves all who did. -/
def execRetainCaptureEnd (s : State) : Result :=
  .next (if !s.bit Reg.hrtStatusCaptureBusy then s
  else
    let s1 := s.endCapture
    let pf := decide (s1.mantel.pf = 1)
    let rakes := match s1.raking with | some k => decide (k.phase = 2) | none => false
    let edits := s1.edit.captureDue
    let s2 := { s1 with
      mantel := { s1.mantel with pf := if pf then 2 else s1.mantel.pf }
      edit := { s1.edit with captureDue := false } }
    let s3 := if rakes then s2.rakePhase 3 else s2
    if pf then s3.deviceRetain 0 else if rakes then s3.deviceRetain 1 else if edits then s3.deviceRetain 2 else s3)

/-- The directory page with PF_COMPLETE is programmed; RELINING_CUT says that it stopped a slot write (R415). -/
def State.pfPage (s : State) : State :=
  let cut := decide (s.fld Reg.rlnStatusState = 4) && s.relining.restarting.isNone
  let s1 := s.dirCommit fun d => { d with pfComplete := true, reliningCut := d.reliningCut || cut }
  match s1.mantel.priv.getLast? with
  | some c => { s1 with mantel := { s1.mantel with priv := s1.mantel.priv.dropLast } }.privDone c
  | none => s1

/-- A software command that waited behind the power-fail commits waits no more (R415). -/
def State.releaseOp (s : State) : State :=
  match s.mantel.op with
  | some o => s.setMantelOp (some { o with waits := false })
  | none => s

/-- The power-fail commits end: what waited runs on, and a further sequence starts where one is due (R415, R440). -/
def State.endPf (s : State) : State :=
  let s1 := (s.pfPage.setFld Reg.mntStatusPfActive 0).raise Reg.mntEventPfDone
  let again := s1.mantel.pfAgain
  let s2 := (s1.setPf 0).releaseOp
  if again ≠ 0 then s2.retainNext.readHeld.startPf again
  else if s2.fld Reg.pwrStatusBankStage = 2 then (s2.setFld (Reg.pwrPdControlState 18) 2).cutDomain 20
  else s2.retainNext.readHeld

/-- The retain commit, the POWER_FAIL record and what is queued with it, and the flush have ended (R408, R415). -/
def State.pfCommitted (s : State) : Bool :=
  decide (s.mantel.dev = []) && decide (s.mantel.priv = []) && decide (s.ashpit.waitPages = []) && !s.bit Reg.ashStatusFlushing &&
    !s.ashpit.flushAgain

/-- PF_COMMITS_DONE (R415). -/
def execPfCommitsDone (s : State) : Result :=
  .next (if s.mantel.pf = 2 ∧ s.pfCommitted then s.endPf else s)

/-! Ember -/

/-- A write of an Ember register: discarded while the interface is locked out (R445). -/
def State.embWrite (s : State) (r : Requester) (off : Nat) (k : State → State) : State :=
  s.writeAs r 0x003 off fun t => if t.ember.locked then t else k t

/-- EMBER_HALT (R447): a write of EMB_CONTROL. -/
def execEmberHalt (r : Requester) (v : W32) (s : State) : Result :=
  .next (s.embWrite r 0x008 fun t => t.setFields [(Reg.embControlHalt, bitsOf v.toNat 0 1), (Reg.embControlAlarmEn, bitsOf v.toNat 1 1),
    (Reg.embControlAlarmPwron, bitsOf v.toNat 2 1), (Reg.embControlWakePwron, bitsOf v.toNat 3 1),
    (Reg.embStatusHalted, bitsOf v.toNat 0 1)])

/-- A write of EMB_TICK_SET_HI (R447). -/
def State.embTickSet (s : State) (hi : Nat) : State :=
  if s.bit Reg.embStatusHalted then
    { s with ember := { s.ember with tick := hi % 2 ^ 16 * 2 ^ 32 + s.fld Reg.embTickSetLoSetLo, phase := 0 } }.setFields
      [(Reg.embTickSetHiSetHi, hi), (Reg.embStatusLost, 0)]
  else s.embRaise 3 Reg.embEventRefused

/-- A write of EMB_TICK_SET_LO (R447). -/
def State.embTickLo (s : State) (r : Requester) (v : W32) : State :=
  s.embWrite r 0x028 fun t =>
    if t.bit Reg.embStatusHalted then t.setFld Reg.embTickSetLoSetLo v.toNat else t.embRaise 3 Reg.embEventRefused

/-- EMBER_TICK_SET (R447). -/
def execEmberTickSet (r : Requester) (hi : W32) (s : State) : Result :=
  .next (s.embWrite r 0x02C fun t => t.embTickSet hi.toNat)

/-- A write of EMB_ALARM_HI loads the alarm (R448, R452). -/
def State.embAlarmSet (s : State) (hi : Nat) : State :=
  { s with ember := { s.ember with alarm := hi % 2 ^ 16 * 2 ^ 32 + s.fld Reg.embAlarmLoAlarmLo } }.setFld Reg.embAlarmHiAlarmHi hi

/-- EMBER_ALARM_SET (R448). -/
def execEmberAlarmSet (r : Requester) (hi : W32) (s : State) : Result :=
  .next (s.embWrite r 0x034 fun t => t.embAlarmSet hi.toNat)

/-- The counter has become equal to the alarm: the event, the wake, and with ALARM_PWRON the latch (R444, R448). -/
def State.emberMatch (s : State) : State :=
  if s.ember.matched then
    let s1 := ({ s with ember := { s.ember with matched := false } }.embRaise 0 Reg.embEventAlarm).wake 0
      (s.bit Reg.pwrBankAlarmWake)
    if s1.bit Reg.embControlAlarmPwron then s1.setPwron else s1
  else s

/-- EMBER_ALARM (R444, R448): the counter has come to equal the alarm (log 9). -/
def execEmberAlarm (s : State) : Result := .next s.emberMatch

/-- OSC_FAIL (R449). -/
def execOscFail (s : State) : Result :=
  .next (({ s with ember := { s.ember with stopped := true } }.setFld Reg.embStatusLost 1).embRaise 2 Reg.embEventOscFail)

/-- EMBER_POR (R449): the registers take their reset values; it occurs with the main supply absent. -/
def execEmberPor (s : State) : Result :=
  .next (if s.pins.mainValid then s
  else { s with
    regs := s.regs.filter fun e => decide (keyPage e.1 ≠ 0x003)
    ember := ⟨0, 0, 0, true, true, false, false⟩ })

/-- VBAK_MEASURE (R449). -/
def execVbakMeasure (mv : Nat) (s : State) : Result :=
  .next (if s.pins.mainValid then
    s.setFields [(Reg.embVbakMvVbakMv, min mv 65535), (Reg.embStatusVbakLow, bit01 (decide (mv < 2000)))] else s)

/-- EMBER_UNLOCK (R445). -/
def execEmberUnlock (s : State) : Result :=
  .next (if s.pins.mainValid then { s with ember := { s.ember with locked := false } } else s)

end Sys2Proof.Machine
end

