-- ==== Sys2Proof/Machine/Relining.lean ====
section
/-! DEFINITION. Relining (R507-R518): the image and its checks, the transfer, activation, and the restart of a component. -/

namespace Sys2Proof.Machine

/-! Slots and images -/

/-- Where the slot of component `c` begins (R401, R507). -/
def slotStart (c : Nat) : Nat :=
  match c with
  | 0 => 0x0100000
  | 1 => 0x0200000
  | 2 => 0x0600000
  | 3 => 0x0A00000
  | 4 => 0x0D00000
  | 5 => 0x0C00000
  | _ => 0x0D80000

/-- The size of the slot of component `c` (R401, R507). -/
def slotSize (c : Nat) : Nat :=
  match c with
  | 0 => 0x100000
  | 1 => 0x400000
  | 2 => 0x400000
  | 3 => 0x200000
  | 4 => 0x080000
  | 5 => 0x100000
  | _ => 0x280000

/-- The header of the image in a slot (R509). -/
def State.slotHeader (s : State) (c : Nat) : List Byte := s.flashBytes (slotStart c) 512

/-- VERSION of a header (R509). -/
def hdrVersion (h : List Byte) : Nat := field h 6 2

/-- SECVER of a header (R509). -/
def hdrSecver (h : List Byte) : Nat := field h 8 1

/-- LENGTH of a header (R509). -/
def hdrLength (h : List Byte) : Nat := field h 20 4

/-- MIN and MAX of the REQUIRES entry for component `c` (R509). -/
def hdrRequires (h : List Byte) (c : Nat) : Nat × Nat := (field h (32 + 4 * c) 2, field h (34 + 4 * c) 2)

/-- MIN and MAX of the PARTNER entry for component `c` (R509). -/
def hdrPartner (h : List Byte) (c : Nat) : Nat × Nat := (field h (60 + 4 * c) 2, field h (62 + 4 * c) 2)

/-- A declared entry includes a version; an undeclared one includes none (R510). -/
def includes (e : Nat × Nat) (v : Nat) : Bool := decide (e.1 ≤ v) && decide (v ≤ e.2)

/-- RLN_VER_c shows the header in the slot (R520). -/
def State.showSlot (s : State) (c : Nat) : State :=
  s.setFields [(Reg.rlnVerVersion c, hdrVersion (s.slotHeader c)), (Reg.rlnVerSecver c, hdrSecver (s.slotHeader c))]

/-- The anti-rollback counter of a component (R498). -/
def State.rollbackCounter (s : State) (c : Nat) : Nat := Sparse.get s.fuses.counters 0 c

/-- 32-bit words that bytes spell, most significant first. -/
def beWords (bs : List Byte) (lo n : Nat) : List W32 := (List.range n).map fun i => BitVec.ofNat 32 (field bs (lo + 4 * i) 4)

/-- FORMAT (R509, R513). -/
def imageFormat (img : List Byte) (c : Nat) : Bool :=
  decide (field img 0 4 = 0x524C4E49) && decide (field img 4 1 = c) && decide (field img 5 1 = 0x01) &&
    decide (512 < hdrLength img) && decide (hdrLength img ≤ slotSize c) && decide (field img 508 4 = crc32c (img.take 508))

/-- DIGEST: SHA-384 of the payload (R509, R513). -/
def imageDigest (img : List Byte) : Bool :=
  decide (beWords img 88 12 = sha384 ((img.take (hdrLength img)).drop 512))

/-- The image is signed by the vendor and, where OEM_COSIGN is blown, under a VALID OEM slot (R498, R509). -/
def State.imageSigned (s : State) (img : List Byte) : Bool :=
  let msg := img.take 136
  let slot := field img 328 1
  ecdsaVerify Config.vendorKeyHash msg (beWords img 136 24) &&
    (!s.fuses.cosign || (decide (slot ≤ 3) && s.slotValid slot &&
      ecdsaVerify (Sparse.get s.fuses.hashes [] slot) msg (beWords img 232 24)))

/-- STEPPINGS names the running stepping (R3, R509). -/
def imageStepping (img : List Byte) : Bool :=
  (List.range 8).any fun i => decide (field img (10 + i) 1 = Config.stepping)

/-- The checks with codes 0x2 to 0x7 but for INCOMPLETE, in order, each with its code (R513, R514). -/
def State.startChecks (s : State) (img : List Byte) (c : Nat) : List (Nat × Bool) :=
  [(0x2, imageFormat img c), (0x4, imageDigest img), (0x5, s.imageSigned img), (0x6, imageStepping img),
    (0x7, decide (s.rollbackCounter c ≤ hdrSecver img))]

/-- The first check that the image in a slot fails at its start (R514 step 6). -/
def State.startCheck (s : State) (c : Nat) : Option Nat :=
  let img := s.flashBytes (slotStart c) (max 512 (min (hdrLength (s.slotHeader c)) (slotSize c)))
  ((s.startChecks img c).find? fun x => !x.2).map (·.1)

/-! Refusals -/

/-- A command or image refused: the first reason is captured (R520). -/
def State.rlnRefuse (s : State) (reason comp : Nat) : State :=
  (s.capture Reg.rlnErrorCaptureReason [(Reg.rlnErrorCaptureReason, reason), (Reg.rlnErrorCaptureComponent, comp),
    (Reg.rlnErrorCaptureOther, 0)]).raise Reg.rlnEventRefused

/-- The state of the machine (R511). -/
def State.rlnState (s : State) : Nat := s.fld Reg.rlnStatusState

/-- The state of the machine written. -/
def State.setRln (s : State) (v : Nat) : State := s.setFld Reg.rlnStatusState v

/-- A write of RLN_COMMAND. -/
def State.rlnCommand (s : State) (r : Requester) (k : State → State) : State := s.writeAs r 0x007 0x020 k

/-! Transfer -/

/-- BEGIN accepted: nothing received (R511). -/
def State.rlnBegin (s : State) (c : Nat) : State :=
  ({ s with relining := { s.relining with pages := [], comp := c } }.setRln 1).setFields
    [(Reg.rlnReceivedReceived, 0), (Reg.rlnStagedVersion, 0), (Reg.rlnStagedSecver, 0)]

/-- Some component other than `c` is down (R508, R512). -/
def State.otherDown (s : State) (c : Nat) : Bool :=
  (List.range 7).any fun i => decide (i ≠ c) && decide (s.fld (Reg.rlnVerState i) ≠ 1)

/-- BEGIN (R511, R512): refused with STATE without DRAM, for component 7, and while an image is checked or activated. -/
def State.rlnBeginOp (s : State) : State :=
  let c := s.fld Reg.rlnComponentComponent
  if !s.hasDram || decide (c = 7) || decide (s.rlnState = 2) || decide (s.rlnState = 4) then s.rlnRefuse 0x1 c
  else if s.otherDown c then s.rlnRefuse 0xC c
  else s.rlnBegin c

/-- RLN_BEGIN (R511, R512). -/
def execRlnBegin (r : Requester) (s : State) : Result := .next (s.rlnCommand r State.rlnBeginOp)

/-- Where the staging area begins (R511). -/
def State.rlnStage (s : State) : Nat := s.fld Reg.rlnStageBaseStageBase * 2 ^ 20

/-- How much of each page, from its start, the block covers (R511). -/
def coverPages (m : Sparse Nat) (g n : Nat) (fuel : Nat) : Sparse Nat :=
  match fuel with
  | 0 => m
  | k + 1 => if n = 0 then m else
    coverPages (Sparse.put m 0 g (max (Sparse.get m 0 g) (min n 512))) (g + 1) (n - 512) k

/-- A RELINING block at byte `off` (R486, R511): its RESULT, and the staging area that has it. -/
def State.rlnBlock (s : State) (off : Nat) (data : List Byte) : Nat × State :=
  if s.rlnState ≠ 1 then (4, s)
  else if off % 512 ≠ 0 ∨ slotSize s.relining.comp < off + data.length then (3, s)
  else
    let s1 := s.blockWrites (s.rlnStage + off / 4) (quadWords data)
    let s2 := { s1 with relining := { s1.relining with pages := coverPages s1.relining.pages (off / 512) data.length 9 } }
    (0, s2.setFld Reg.rlnReceivedReceived (min (s2.fld Reg.rlnReceivedReceived + data.length) 0x7FFFFF))

/-- FINALIZE (R511, R513): from RECEIVING, or again after a refusal of the image. -/
def State.rlnFinalizeOp (s : State) : State :=
  if s.rlnState = 1 ∨ s.rlnState = 5 then s.setRln 2 else s.rlnRefuse 0x1 s.relining.comp

/-- RLN_FINALIZE (R513). -/
def execRlnFinalize (r : Requester) (s : State) : Result := .next (s.rlnCommand r State.rlnFinalizeOp)

/-- ABORT (R511): the staged image is dropped; an activation is not stopped. -/
def State.rlnAbortOp (s : State) : State :=
  if s.rlnState = 4 then s.rlnRefuse 0x1 s.relining.comp
  else
    ({ s with relining := { s.relining with pages := [] } }.setRln 0).setFields
      [(Reg.rlnReceivedReceived, 0), (Reg.rlnStagedVersion, 0), (Reg.rlnStagedSecver, 0)]

/-- RLN_ABORT (R511). -/
def execRlnAbort (r : Requester) (s : State) : Result := .next (s.rlnCommand r State.rlnAbortOp)

/-! The checks of FINALIZE -/

/-- The first `n` staged bytes (R28, R403, R511). -/
def State.stagedBytes (s : State) (n : Nat) : List Byte :=
  (quadBytes (s.dramSeen s.rlnStage ((n + 3) / 4))).take n

/-- The Relining machine's read of the first `n` staged bytes, over VC3 (R19, R28). -/
def State.stagedRead (s : State) (n : Nat) : State :=
  (s.dramAsked s.rlnStage ((n + 3) / 4)).flueStream nodeRelining .vc3 s.rlnStage ((n + 3) / 4)

/-- The staged header. -/
def State.stagedHeader (s : State) : List Byte := s.stagedBytes 512

/-- Every page below LENGTH has been received (R511, R513). -/
def State.allReceived (s : State) (len : Nat) : Bool :=
  (List.range ((len + 511) / 512)).all fun g => decide (min 512 (len - 512 * g) ≤ Sparse.get s.relining.pages 0 g)

/-- The other components. -/
def otherComponents (c : Nat) : List Nat := (List.range 7).filter fun i => decide (i ≠ c)

/-- REQUIRES: the other component whose running version the new image does not include (R510, R513). -/
def State.failsRequires (s : State) (h : List Byte) (c : Nat) : Option Nat :=
  (otherComponents c).find? fun i => !includes (hdrRequires h i) (s.fld (Reg.rlnVerVersion i))

/-- REQUIRED_BY: the other component whose running image does not include the new version (R510, R513). -/
def State.failsRequiredBy (s : State) (h : List Byte) (c : Nat) : Option Nat :=
  (otherComponents c).find? fun i =>
    let e := s.headField i (slotStart i) (32 + 4 * c)
    !includes (e / 2 ^ 16, e % 2 ^ 16) (hdrVersion h)

/-- PARTNER: the component that stands against the image on a synchronized unit (R513): ERA where the partner's ERA range
excludes the new version or the ERA majors differ, else the partner's component that the new ERA image excludes. -/
def State.failsPartner (s : State) (h : List Byte) (c : Nat) : Option Nat :=
  if !(decide (s.role = 4) || decide (s.role = 7)) || s.bit Reg.rlnControlAllowDesync then none
  else
    match s.erair.versions with
    | none => some 5
    | some m =>
      if !includes (m.partnerRanges.getD c (1, 0)) (hdrVersion h) then some 5
      else if c ≠ 5 then none
      else
        match (List.range 7).find? fun i => !includes (hdrPartner h i) (m.versions.getD i 0) with
        | some i => some i
        | none => if hdrVersion h / 256 ≠ m.versions.getD 5 0 / 256 then some 5 else none

/-- A check that names another component where it fails. -/
def namedCheck (reason : Nat) (other : Option Nat) : List (Nat × Bool × Nat) :=
  [(reason, other.isNone, other.getD 0)]

/-- The checks of the table, in order: code, passed, other component (R513). -/
def State.rlnChecks (s : State) : List (Nat × Bool × Nat) :=
  let c := s.relining.comp
  let h := s.stagedHeader
  let img := s.stagedBytes (max 512 (min (hdrLength h) (slotSize c)))
  let named := decide (s.fld Reg.rlnComponentComponent = c)
  [(0x2, named && imageFormat img c, 0), (0x3, s.allReceived (hdrLength h), 0)]
    ++ ((s.startChecks img c).drop 1).map (fun x => (x.1, x.2, 0))
    ++ namedCheck 0x8 (s.failsRequires h c) ++ namedCheck 0x9 (s.failsRequiredBy h c) ++ namedCheck 0xA (s.failsPartner h c)

/-- RLN_STAGED shows the staged header. -/
def State.showStaged (s : State) : State :=
  s.setFields [(Reg.rlnStagedVersion, hdrVersion s.stagedHeader), (Reg.rlnStagedSecver, hdrSecver s.stagedHeader)]

/-- The image is refused (R513): the first reason since the last clear stands in RLN_ERROR_CAPTURE (R9). -/
def State.rlnImageRefused (s : State) (reason other : Nat) : State :=
  let s1 := (s.setRln 5).capture Reg.rlnErrorCaptureReason [(Reg.rlnErrorCaptureReason, reason),
    (Reg.rlnErrorCaptureComponent, s.relining.comp), (Reg.rlnErrorCaptureOther, other)]
  let s2 := if reason = 0x5 then s1.raise Reg.secEventSigFail else s1
  s2.raise Reg.rlnEventRefused

/-- The checks end in READY or REFUSED (R513). -/
def State.rlnCheck (u : State) : State :=
  let s := u.stagedRead (max 512 (min (hdrLength u.stagedHeader) (slotSize u.relining.comp)))
  match s.rlnChecks.find? fun x => !x.2.1 with
  | some (reason, _, other) => (if reason = 0x2 then s else s.showStaged).rlnImageRefused reason other
  | none => (s.showStaged.setRln 3).raise Reg.rlnEventReady

/-- RLN_CHECK_DONE (R513). -/
def execRlnCheckDone (s : State) : Result := .next (if s.rlnState = 2 then s.rlnCheck else s)

/-! Activation -/

/-- ACTIVATE would be refused with STATE (R514). -/
def State.rlnMayNot (s : State) : Bool :=
  let swp := decide (s.relining.comp = 6)
  let served := decide (s.mode = modeStandby) || decide (s.mode = modeHeld) || decide (s.mode = modeDoused) ||
    (decide (s.mode = modePrimary) && swp)
  !decide (s.rlnState = 3) || !served || s.bit Reg.pwrStatusPf || decide (s.editState = 4) || decide (s.editState = 5) ||
    (swp && s.sweepTest.isSome)

/-- A step of activation recorded (R417, R514). -/
def State.rlnStep (s : State) (c step : Nat) : State := s.record 0x007 0x01 true [c, step, s.fld (Reg.rlnVerState c)]

/-- A slot state changed, with its directory commit (R508). -/
def State.setSlotState (s : State) (c v : Nat) (cut : Bool) : State :=
  (s.setFld (Reg.rlnVerState c) v).dirCommit fun d => { d with reliningCut := cut }

/-- Steps 1 to 3 of activation (R514): WRITING, a synchronized unit desynchronizes for ERA, and the slot is erased. -/
def State.rlnActivate (s : State) : State :=
  let c := s.relining.comp
  let s1 := ((s.setRln 4).setSlotState c 2 false).rlnStep c 1
  let s2 := if c = 5 ∧ (s1.role = 4 ∨ s1.role = 7) then (s1.desync 6).rlnStep c 2 else s1
  s2.eraseBlocks (slotStart c / 0x10000) (slotSize c / 0x10000)

/-- RLN_ACTIVATE (R514). -/
def execRlnActivate (r : Requester) (s : State) : Result :=
  .next (s.rlnCommand r fun t => if t.rlnMayNot then t.rlnRefuse 0x1 t.relining.comp else t.rlnActivate)

/-- The activation ends in START_FAILED: the slot is DOWN (R514). -/
def State.rlnDown (s : State) (c step : Nat) : State :=
  (((s.setSlotState c 4 false).rlnStep c step).setRln 0).raise Reg.rlnEventStartFailed

/-- What a component leaves while it restarts or is down (R516). -/
def State.stopComponent (s : State) (c : Nat) : State :=
  let s1 := s.setCompUp c false
  match c with
  | 2 => (s1.setFld Reg.chmStatusCoresUp 0).closeSessions
  | 3 => (s1.hobAllOff).setFld Reg.hobStatusSeqUp 0
  | 5 => s1.erairDown
  | _ => s1

/-- What a component that is down adds: its sequencers stopped map out every Hob port (R290, R516). -/
def State.downComponent (s : State) (c : Nat) : State :=
  if c = 3 then ((List.range 12).foldl State.hobSequencerStops s).checkService else s

/-- A component that has started from its image (R516). -/
def State.startComponent (s : State) (c : Nat) : State :=
  let s1 := s.setCompUp c true
  match c with
  | 2 => if s1.fit.chimney then s1.setFld Reg.chmStatusCoresUp 0xFF else s1
  | 3 => if s1.fit.hob then (s1.setFld Reg.hobStatusSeqUp s1.fit.goodSeqs).hobRoleChange else s1
  | _ => s1

/-- The readback does not match (R514 step 4): the array holds other bytes than those staged, which the spec leaves open. -/
def State.rlnMismatch (s : State) (c len : Nat) : State :=
  let (bs, s1) := s.drawBytes len
  let s2 := ((((s1.stagedRead len).programFlash (slotStart c) bs).showSlot c).rlnStep c 3).capture Reg.rlnErrorCaptureReason
    [(Reg.rlnErrorCaptureReason, 0xB), (Reg.rlnErrorCaptureComponent, c), (Reg.rlnErrorCaptureOther, 0)]
  s2.rlnDown c 4

/-- The readback matches (R514 steps 4, 5): WRITTEN, and the component restarts; KND and TEN reset the unit. -/
def State.rlnMatch (s : State) (c len : Nat) : State :=
  let s1 := (((s.stagedRead len).programFlash (slotStart c) (s.stagedBytes len)).showSlot c).rlnStep c 3
  let s2 := ((s1.rlnStep c 4).setSlotState c 3 false).rlnStep c 5
  if c ≤ 1 then s2.commitAll.resetUnit Reg.pwrResetCauseRelining
  else
    let s3 := { s2 with relining := { s2.relining with restarting := some c } }
    if c = 6 then s3 else s3.stopComponent c

/-- RLN_SLOT_WRITTEN (R514): the slot write ends; power-fail commits come before it (R415). -/
def execRlnSlotWritten (m : Bool) (s : State) : Result :=
  .next (if s.rlnState = 4 ∧ s.relining.restarting = none ∧ s.mantel.pf = 0 then
    let c := s.relining.comp
    let len := hdrLength s.stagedHeader
    (if m then s.rlnMatch c len else s.rlnMismatch c len).readHeld
  else s)

/-- A first start from a slot with ADVANCE: the counter goes to SECVER with fuse command 5 (R500, R515). -/
def State.advanceAtStart (s : State) (c : Nat) : State :=
  let h := s.slotHeader c
  if field h 9 1 % 2 = 1 ∧ s.rollbackCounter c < hdrSecver h ∧ hdrSecver h ≤ 64 then
    let s1 := { s with fuses := { s.fuses with counters := Sparse.put s.fuses.counters 0 c (hdrSecver h) } }
    (((s1.setFld Reg.secFuseResultResult 0).record 0x009 0x03 true [5, c, 0]).raise Reg.secEventFuseDone).raise
      Reg.rlnEventAdvanced
  else s

/-- The restarted component reports started (R514 step 6). -/
def State.rlnStarted (s : State) (c : Nat) : State :=
  let s1 := { s with relining := { s.relining with restarting := none } }
  match s1.startCheck c with
  | some code =>
    let s2 := if code = 0x5 then s1.raise Reg.secEventSigFail else s1
    (s2.rlnDown c 6).downComponent c
  | none =>
    let s2 := (((s1.setSlotState c 1 false).rlnStep c 6).setRln 0).raise Reg.rlnEventActivated
    (s2.advanceAtStart c).startComponent c

/-- COMPONENT_STARTED (R514, R515). -/
def execComponentStarted (comp : Fin 7) (s : State) : Result :=
  .next (if s.relining.restarting = some comp.val then s.rlnStarted comp.val else s)

/-- COMPONENT_START_TIMEOUT (R514, R516): SWP has no start time. -/
def execComponentStartTimeout (comp : Fin 7) (s : State) : Result :=
  .next (if s.relining.restarting = some comp.val ∧ comp.val ≠ 6 then
    ({ s with relining := { s.relining with restarting := none } }.rlnDown comp.val 6).downComponent comp.val
  else s)

end Sys2Proof.Machine
end

