-- ==== Sys2Proof/Machine/HostIf.lean ====
section
/-! DEFINITION. The host interface: discarded accesses (R12, R479, R482), mailboxes (R486-R488), software sources (R485), the
PCIe link (R502, R506, R525), OWNER (R481), the secure partition and range (R493, R494), the boot ROM exit (R496) and the
fuse commands (R500). -/

namespace Sys2Proof.Machine

/-! Discarded accesses -/

/-- A host access to an unassigned page (R12, R506). -/
def State.hostUnassigned (s : State) (page off : Nat) : State := (s.pciCapture page off).raise Reg.pciEventUnassigned

/-- What a host read that is not carried out returns: zeros. -/
def State.hostZeros (s : State) (write : Bool) (n : Nat) : State :=
  if write then s else s.send (.hostData (List.replicate n 0))

/-- HOST_UNASSIGNED_ACCESS (R12). -/
def execHostUnassignedAccess (write : Bool) (page off : Nat) (s : State) : Result :=
  .next (if s.hostUp && !pageAssigned page && decide (page < 0x400) then (s.hostUnassigned page off).hostZeros write 4 else s)

/-- OWNER forbids the host the access; ID and OWNER are open to every read, and a write to OWNER is simply ignored (R482). -/
def State.hostForbidden (s : State) (write : Bool) (page off : Nat) : Bool :=
  if off = 0x000 ∨ off = 0x01C then false
  else if write then !s.bit (Reg.ownerHostW page) else !s.bit (Reg.ownerHostR page)

/-! Mailboxes -/

/-- A mailbox. -/
def State.mailbox (s : State) (m : Nat) : Mailbox := Sparse.get s.mailboxes Mailbox.free m

/-- A mailbox written. -/
def State.setMailbox (s : State) (m : Nat) (b : Mailbox) : State :=
  { s with mailboxes := Sparse.put s.mailboxes Mailbox.free m b }

/-- The checks of a block before its delivery, in the order KIND, LENGTH, CRC, SLOT (R487). -/
def blockCheck (b : Block) : Nat :=
  if b.kind = 0 ∨ 4 < b.kind then 6
  else if b.length < 8 ∨ 4096 < b.length ∨ b.data.length < b.length ∨ (b.kind = 1 ∧ b.length % 8 ≠ 0) then 5
  else if crc32c (b.data.take b.length) ≠ b.crc.toNat then 1
  else if b.kind = 1 ∧ !(slotWords (b.data.take b.length)).2 then 2
  else 0

/-- Bytes of a package committed to the inactive bank (R222, R399): the pages they touch are programmed. -/
def State.bankBytes (s : State) (a : Nat) (bs : List Byte) : State :=
  { s with mantel := { s.mantel with
      flash := Sparse.putMany s.mantel.flash erasedByte a bs
      programmed := markPages s.mantel.programmed (a / 512) ((a + bs.length - 1) / 512 + 1 - a / 512) } }

/-- Package words from word `off` on, packed into the inactive bank; a word at an odd offset shares its pair with the last word
before it (R222, R259). -/
def State.bankWords (s : State) (off : Nat) (ws : List W36) : State :=
  let base := bankBase s.inactiveBank + off / 2 * 9
  let before := if off % 2 = 1 then (unpackWords (s.flashBytes base 9) 2).take 1 else []
  s.bankBytes base (packWords (before ++ ws))

/-- EDIT_PACKAGE_LEN and the next offset after an accepted EDIT block (R222, R488). -/
def State.editReceived (s : State) (off n : Nat) : State :=
  { s with edit := { s.edit with nextOff := off + n } }.setFld Reg.edtPackageLenReceived
    (s.fld Reg.edtPackageLenReceived + n)

/-- An EDIT block at word `off` (R222, R487): into the staging area in LOADING, or without DRAM, in ascending order, into the
inactive bank. -/
def State.editBlock (s : State) (off : Nat) (data : List Byte) : Nat × State :=
  let ws := (Sys2Proof.Machine.slotWords data).1
  if s.editState ≠ 1 then (4, s)
  else if 0x800000 < off + ws.length then (3, s)
  else if s.hasDram then
    (0, (s.blockWrites (s.fld Reg.edtStageBaseStageBase * 2 ^ 23 + off) ws).editReceived off ws.length)
  else if off ≠ s.edit.nextOff then (3, s)
  else (0, (s.bankWords off ws).editReceived off ws.length)

/-- A block checked and delivered (R487 steps 2, 3): its RESULT, and whether it is a message that waits for its world. -/
def State.deliverBlock (s : State) (b : Block) (message : State → State) : Nat × State :=
  match blockCheck b with
  | 0 =>
    let data := b.data.take b.length
    if b.kind = 1 then s.editBlock b.offset data
    else if b.kind = 2 then s.rlnBlock b.offset data
    else (0, message s)
  | n => (n, s)

/-- MAILBOX_DOORBELL (R486-R488): the block is checked and delivered in doorbell order; a busy mailbox takes only TAG. -/
def execMailboxDoorbell (m : Fin 16) (b : Block) (tag : W32) (s : State) : Result :=
  .next (if !s.hostUp then s
  else if (s.mailbox m.val).state = 1 then s.setMailbox m.val { s.mailbox m.val with tag := tag }
  else
    let (result, s1) := s.deliverBlock b fun t => t.send (.mailMessage m.val b.kind (b.data.take b.length))
    let s2 := s1.setMailbox m.val ⟨1, result, tag, b⟩
    if result = 0 ∧ 3 ≤ b.kind then s2 else { s2 with mailOrder := s2.mailOrder ++ [m.val] })

/-- MAILBOX_BLOCK_DONE (R487 step 4): mailboxes end in the order of their doorbells (R488). -/
def execMailboxBlockDone (m : Fin 16) (s : State) : Result :=
  .next (match s.mailOrder with
    | n :: rest =>
      if n = m.val then
        ({ s with mailOrder := rest }.setMailbox n { s.mailbox n with state := 2 }).becamePending s 0
      else s
    | [] => s)

/-- A delivered message waits for its world in the mailbox (R487). -/
def State.mailWaits (s : State) (m : Nat) : Bool :=
  decide ((s.mailbox m).state = 1) && decide (3 ≤ (s.mailbox m).block.kind) && !s.mailOrder.contains m

/-- MAILBOX_REPLY (R487 step 4). -/
def execMailboxReply (m : Fin 16) (data : List Byte) (s : State) : Result :=
  .next (if s.mailWaits m.val then
    let b := s.mailbox m.val
    (s.setMailbox m.val { b with state := 3, block := { b.block with data := data } }).becamePending s 0
  else s)

/-- MAILBOX_ACK (R485, R487 step 5): a busy mailbox discards the write. -/
def execMailboxAck (m : Fin 16) (s : State) : Result :=
  .next (let b := s.mailbox m.val
    if !s.hostUp || decide (b.state = 1) then s else (s.setMailbox m.val { b with state := 0 }).recheck 0)

/-! Software sources -/

/-- Software source `i` raised (R485). -/
def State.swInt (s : State) (i : Nat) : State := (s.setFldBit Reg.pciSwClearClear i true).becamePending s (32 + i)

/-- PCI_SW_INT (R485). -/
def execPciSwInt (r : Requester) (v : W32) (s : State) : Result :=
  .next (s.writeAs r 0x131 0x028 fun t => t.swInt (bitsOf v.toNat 0 5))

/-- Software sources cleared, and the others checked again (R485). -/
def State.swClear (s : State) (v : Nat) : State :=
  (List.range 32).foldl (fun t i => t.recheck (32 + i))
    ((List.range 32).foldl (fun t i => if bitOf v i then t.setFldBit Reg.pciSwClearClear i false else t) s)

/-- PCI_SW_CLEAR (R485). -/
def execPciSwClear (r : Requester) (v : W32) (s : State) : Result :=
  .next (s.writeAs r 0x131 0x02C fun t => t.swClear v.toNat)

/-! The link -/

/-- A wake that PCI_WAKE_REPORT holds is told to the host: the event, and a PME message if PME_En is set (R502). -/
def State.tellWake (s : State) : State :=
  if s.fld Reg.pciWakeReportCause = 0 then s
  else
    let s1 := s.raise Reg.pciEventWakeReport
    if s1.pcie.pmeEn then { s1 with pcie := { s1.pcie with pmeStatus := true } }.send .pme else s1

/-- PCIE_DL_ACTIVE (R502, R506): the link trains only with PERST_N high. -/
def execPcieDlActive (speed width : BitVec 3) (s : State) : Result :=
  .next (if s.hostUp && s.pins.perstN then
    (s.setFields [(Reg.pciStatusSpeed, speed.toNat), (Reg.pciStatusWidth, width.toNat), (Reg.pciStatusDlActive, 1),
      (Reg.pciStatusPower, 0)]).tellWake
  else s)

/-- The link leaves DL_Active (R506). -/
def State.linkDown (s : State) : State :=
  if s.bit Reg.pciStatusDlActive then (s.setFld Reg.pciStatusDlActive 0).raise Reg.pciEventLinkDown else s

/-- PCIE_LINK_DOWN (R506). -/
def execPcieLinkDown (s : State) : Result := .next s.linkDown

/-- PERST_FALL (R525): the endpoint alone is reset. -/
def execPerstFall (s : State) : Result :=
  .next (if s.pins.perstN then
    let s1 := s.linkDown.setFields [(Reg.pciStatusSpeed, 0), (Reg.pciStatusWidth, 0), (Reg.pciStatusPower, 0)]
    { s1 with
      pins := { s1.pins with perstN := false }
      pcie := { State.reset.pcie with pmeEn := s1.pcie.pmeEn, pmeStatus := s1.pcie.pmeStatus } }
  else s)

/-! Ownership and the secure world -/

/-- A write of OWNER (R481): by the secure world only, until LOCK is set, and not while Ember is locked out (R445). -/
def State.ownerWrite (s : State) (r : Requester) (page v : Nat) : State :=
  if r ≠ .tenderSecure ∨ s.bit (Reg.ownerLock page) ∨ (page = 0x003 ∧ s.ember.locked) then s
  else
    s.setFields [(Reg.ownerWorld page, bitsOf v 0 1), (Reg.ownerHostR page, bitsOf v 1 1), (Reg.ownerHostW page, bitsOf v 2 1),
      (Reg.ownerLock page, bitsOf v 3 1)]

/-- A Tender access to a page that the map does not assign: a whole-access fault (R12). -/
def State.unassignedFault (s : State) (cause page off : Nat) : State :=
  let pc := (s.core tenderKey).pc
  s.tenderTakes ⟨cause, pc, pc, BitVec.ofNat 36 (regAddr page off), false, (s.core tenderKey).afterLoad⟩

/-- A write by `r` to a page that the map does not assign (R12); the UART sets no event (R492). -/
def State.unassignedWrite (s : State) (r : Requester) (page off : Nat) : State :=
  match r with
  | .host => s.hostUnassigned page off
  | .uart => s
  | _ => s.unassignedFault 0x05 page off

/-- OWNER_WRITE (R481). -/
def execOwnerWrite (r : Requester) (page : Nat) (v : W32) (s : State) : Result :=
  .next (if !s.answers r then s
  else if !pageAssigned page then s.unassignedWrite r page 0x01C
  else if s.pageOff page then s
  else s.ownerWrite r page v.toNat)

/-- The first write of a register that locks after it (R10, R493): `k` where it is not locked yet. -/
def State.lockOnce (s : State) (page off : Nat) (k : State → State) : State :=
  let key := (page * 0x1000 + off) * 32
  if Sparse.get s.rwlSet false key then s else k { s with rwlSet := Sparse.put s.rwlSet false key true }

/-- SEC_LS_SPLIT_WRITE (R493): the split moves once, to 1-11 units of 4 Kw. -/
def execSecLsSplitWrite (r : Requester) (v : W32) (s : State) : Result :=
  .next (s.writeSecure r 0x009 0x020 fun t =>
    let n := bitsOf v.toNat 0 4
    if n = 0 ∨ 11 < n then t else t.lockOnce 0x009 0x020 fun u => u.setFld Reg.secLsSplitSplit n)

/-- The DRAM tables whose bases registers hold: base register, first word, words (R121, R124, R222, R264, R267, R272, R418, R472,
R511, R537). -/
def State.tables (s : State) : List (Fld × Nat × Nat) :=
  [(Reg.hrtForceBaseForceBase, s.fld Reg.hrtForceBaseForceBase * 2 ^ 24, 18874368),
   (Reg.hrtSubstBaseSubstBase, s.fld Reg.hrtSubstBaseSubstBase * 2 ^ 24, 9437184),
   (Reg.edtStageBaseStageBase, s.fld Reg.edtStageBaseStageBase * 2 ^ 23, 2 ^ 23),
   (Reg.edtProgBaseProgBase, s.fld Reg.edtProgBaseProgBase * 2 ^ 25, 2 ^ 25),
   (Reg.chmEvqBaseEvqBase, s.fld Reg.chmEvqBaseEvqBase * 2 ^ 20, 4 * 2 ^ s.fld Reg.chmEvqEntriesLog2),
   (Reg.chmBufBaseBufBase, s.fld Reg.chmBufBaseBufBase * 2 ^ 24, 2 ^ 28),
   (Reg.chmStateBaseStateBase, s.fld Reg.chmStateBaseStateBase * 2 ^ 16, 77824),
   (Reg.ashBufBaseBufBase, s.fld Reg.ashBufBaseBufBase * 2 ^ 14, 16384),
   (Reg.pkrSandboxBaseSbBase, s.sandboxBase, if s.fld Reg.pkrSandboxBaseSbBase = 0 then 0 else 131072),
   (Reg.rlnStageBaseStageBase, s.rlnStage, 2 ^ 20)]

/-- A table lies partly in the secure DRAM range; one below the first DRAM word is not placed (R494). -/
def State.tableInRange (s : State) (t : Fld × Nat × Nat) : Bool :=
  let lo := max dramBase (s.fld Reg.secDramBaseBase * 2 ^ 20)
  let hi := s.fld Reg.secDramLimitLimit * 2 ^ 20
  decide (t.2.1 < hi) && decide (lo < t.2.1 + t.2.2) && decide (lo < hi) && decide (dramBase ≤ t.2.1)

/-- A move of the secure range (R494): refused, and nothing changes, where it would cover a table already placed. -/
def State.moveRange (s : State) (f : Fld) (v : Nat) : State :=
  let s1 := s.setFld f v
  if s1.tables.any s1.tableInRange then s else s1

/-- SEC_DRAM_RANGE_WRITE (R494). -/
def execSecDramRangeWrite (r : Requester) (limit : Bool) (v : W32) (s : State) : Result :=
  .next (s.writeSecure r 0x009 (if limit then 0x028 else 0x024) fun t =>
    t.moveRange (if limit then Reg.secDramLimitLimit else Reg.secDramBaseBase) (bitsOf v.toNat 0 16))

/-- ENTRY of the KND header (R496, R509). -/
def State.kndEntry (s : State) : W36 := BitVec.ofNat 36 (s.headField 0 (slotStart 0) 24)

/-- EXIT written: the overlay goes, its words return to local store as zero, and KND is entered (R496, R504). -/
def State.romExit (s : State) (v : Nat) : State :=
  if !bitOf v 0 || !s.romOn then s
  else
    let c := s.core tenderKey
    (s.setCore tenderKey { c with ls := Sparse.clear c.ls 0 0x2000, pc := s.kndEntry }).setFld Reg.tenStatusRom 0

/-- TEN_ROM_EXIT (R496, R504). -/
def execTenRomExit (r : Requester) (v : W32) (s : State) : Result :=
  .next (s.writeSecure r 0x000 0x030 fun t => t.romExit v.toNat)

/-! Fuse commands -/

/-- A fuse slot's state: 0 EMPTY, 1 VALID, 2 REVOKED (R498). -/
def State.fuseSlot (s : State) (n : Nat) : Nat := Sparse.get s.fuses.slots 0 n

/-- The slots that are VALID. -/
def State.validFuseSlots (s : State) : List Nat := (List.range 4).filter s.slotValid

/-- A fuse command is refused (R500). -/
def State.fuseRefused (s : State) (op arg target : Nat) : Bool :=
  match op with
  | 1 => decide (4 ≤ arg) || decide (s.fuseSlot arg ≠ 0)
  | 2 => decide (4 ≤ arg) || decide (s.fuseSlot arg = 0) || (s.fuses.cosign && decide (s.validFuseSlots = [arg]))
  | 3 => s.validFuseSlots.isEmpty
  | 4 => decide (5 ≤ arg) || s.fuses.debugKey.isSome
  | _ => decide (7 ≤ arg) || decide (target ≤ s.rollbackCounter arg) || decide (64 < target)

/-- A fuse command ends with its result: 0 OK, 1 refused, 2 program failed (R500, R505). -/
def State.fuseEnd (s : State) (op arg result : Nat) : State :=
  let s1 := { s with fuses := { s.fuses with op := none } }.setFields
    [(Reg.secStatusFuseBusy, 0), (Reg.secFuseResultResult, result)]
  (s1.record 0x009 0x03 true [op, arg, result]).raise Reg.secEventFuseDone

/-- The hash in SEC_FUSE_DATA (R500, R505). -/
def State.fuseData (s : State) : List W32 := (List.range 12).map fun i => BitVec.ofNat 32 (s.fld (Reg.secFuseDataData i))

/-- A fuse command begins: the hash of command 1 is taken now (R500). -/
def State.fuseBegin (s : State) (op arg target : Nat) : State :=
  let hs := if op = 1 then Sparse.put s.fuses.hashes [] arg s.fuseData else s.fuses.hashes
  { s with fuses := { s.fuses with op := some (op, arg, target), hashes := hs } }.setFld Reg.secStatusFuseBusy 1

/-- A write of SEC_FUSE_CMD (R500): by the secure world, one command at a time. -/
def State.fuseCommand (s : State) (r : Requester) (op arg target : Nat) : State :=
  s.writeSecure r 0x009 0x034 fun t =>
    if t.fuses.op.isSome then t
    else if t.fuseRefused op arg target then t.fuseEnd op arg 1
    else t.fuseBegin op arg target

/-- PROGRAM_OEM_SLOT (R500). -/
def execProgramOemSlot (r : Requester) (arg : BitVec 7) (s : State) : Result := .next (s.fuseCommand r 1 arg.toNat 0)

/-- REVOKE_OEM_SLOT (R500). -/
def execRevokeOemSlot (r : Requester) (arg : BitVec 7) (s : State) : Result := .next (s.fuseCommand r 2 arg.toNat 0)

/-- BLOW_OEM_COSIGN (R500). -/
def execBlowOemCosign (r : Requester) (s : State) : Result := .next (s.fuseCommand r 3 0 0)

/-- SET_DEBUG_KEY (R500). -/
def execSetDebugKey (r : Requester) (arg : BitVec 7) (s : State) : Result := .next (s.fuseCommand r 4 arg.toNat 0)

/-- ADVANCE_ANTI_ROLLBACK (R500). -/
def execAdvanceAntiRollback (r : Requester) (arg target : BitVec 7) (s : State) : Result :=
  .next (s.fuseCommand r 5 arg.toNat target.toNat)

/-- What a fuse command programs (R498, R500): a fuse that is blown stays blown. -/
def Fuses.program (f : Fuses) (op arg target : Nat) : Fuses :=
  match op with
  | 1 => { f with slots := Sparse.put f.slots 0 arg (max 1 (Sparse.get f.slots 0 arg)) }
  | 2 => { f with slots := Sparse.put f.slots 0 arg 2 }
  | 3 => { f with cosign := true }
  | 4 => { f with debugKey := some (f.debugKey.getD arg) }
  | _ => { f with counters := Sparse.put f.counters 0 arg (max target (Sparse.get f.counters 0 arg)) }

/-- FUSE_DONE (R500). -/
def execFuseDone (programmed : Bool) (s : State) : Result :=
  .next (match s.fuses.op with
    | none => s
    | some (op, arg, target) =>
      if programmed then { s with fuses := s.fuses.program op arg target }.fuseEnd op arg 0 else s.fuseEnd op arg 2)

end Sys2Proof.Machine
end

