-- ==== Sys2Proof/Machine/Pcie.lean ====
section
/-! DEFINITION. What the host reaches beside BAR0 (R477-R479): the mailboxes (R486), the MSI-X table and its pending bits (R485), and the
configuration space. The commands name them by the pages that follow BAR0's: 0x400 to 0x43F are the 4 KiB pieces of BAR4, 0x440 the
configuration space (DESIGN CHOICE, log 153). -/

namespace Sys2Proof.Machine

/-- A page of the host's accesses outside BAR0: BAR4 or the configuration space (log 153). -/
def barPage (page : Nat) : Bool := decide (0x400 ≤ page) && decide (page ≤ 0x440)

/-! Mailboxes -/

/-- 4 bytes put into a mailbox's DATA at a byte offset (R486). -/
def dataPut (data : List Byte) (o v : Nat) : List Byte :=
  let d := data ++ List.replicate (o + 4 - data.length) 0
  d.take o ++ leBytes 4 v ++ d.drop (o + 4)

/-- A host write of a mailbox register (R486, R487): a busy mailbox takes only TAG; DOORBELL submits the block, ACK frees, and STATUS
checks the source again (R485). -/
def State.mailWrite (s : State) (m : Fin 16) (o v : Nat) : State :=
  let b := s.mailbox m.val
  let put (f : Block → Block) : State := s.setMailbox m.val { b with block := f b.block }
  if o = 0x1018 then s.setMailbox m.val { b with tag := BitVec.ofNat 32 v }
  else if b.state = 1 then s
  else if o < 0x1000 then put fun k => { k with data := dataPut k.data o v }
  else if o = 0x1000 then put fun k => { k with kind := bitsOf v 0 3 }
  else if o = 0x1004 then put fun k => { k with offset := v }
  else if o = 0x1008 then put fun k => { k with length := v }
  else if o = 0x100C then put fun k => { k with crc := BitVec.ofNat 32 v }
  else if o = 0x1010 then
    if bitOf v 0 then (match execMailboxDoorbell m b.block b.tag s with | .next t => t | _ => s) else s
  else if o = 0x1014 then
    if bitOf v 8 then (match execMailboxAck m s with | .next t => t | _ => s) else s.recheck 0
  else s

/-- A mailbox register as the host reads it (R486). -/
def State.mailRead (s : State) (m o : Nat) : Nat :=
  let b := s.mailbox m
  if o < 0x1000 then leNat ((b.block.data.drop o).take 4)
  else if o = 0x1000 then b.block.kind
  else if o = 0x1004 then b.block.offset
  else if o = 0x1008 then b.block.length
  else if o = 0x100C then b.block.crc.toNat
  else if o = 0x1014 then b.state + 16 * b.result
  else if o = 0x1018 then b.tag.toNat
  else 0

/-! MSI-X -/

/-- The dword `i` of an MSI-X entry replaced: address low and high, data, vector control. -/
def msixPut (e : Nat × Nat × Nat) (i v : Nat) : Nat × Nat × Nat :=
  match i with
  | 0 => (e.1 / 2 ^ 32 * 2 ^ 32 + v, e.2)
  | 1 => (v * 2 ^ 32 + e.1 % 2 ^ 32, e.2)
  | 2 => (e.1, v, e.2.2)
  | _ => (e.1, e.2.1, v)

/-- The dword `i` of an MSI-X entry. -/
def msixWord (e : Nat × Nat × Nat) (i : Nat) : Nat :=
  match i with
  | 0 => e.1 % 2 ^ 32
  | 1 => e.1 / 2 ^ 32
  | 2 => e.2.1
  | _ => e.2.2

/-- A host write of the MSI-X table; an entry that it unmasks with its pending bit set sends its message (R485). -/
def State.msixWrite (s : State) (v i w : Nat) : State :=
  { s with pcie := { s.pcie with msix := Sparse.put s.pcie.msix (0, 0, 1) v (msixPut (s.msixEntry v) i w) } }.msixRelease

/-! BAR4 -/

/-- An aligned 32-bit write of BAR4 (R478, R479): the pending bits and the rest take none. -/
def State.bar4Write (s : State) (a v : Nat) : State :=
  if a % 4 ≠ 0 then s
  else if a < 0x20000 then s.mailWrite (Fin.ofNat 16 (a / 0x2000)) (a % 0x2000) v
  else if a < 0x20400 then s.msixWrite ((a - 0x20000) / 16) ((a - 0x20000) % 16 / 4) v
  else s

/-- 32 bits of BAR4 as the host reads them (R478). -/
def State.bar4Word (s : State) (a : Nat) : Nat :=
  if a < 0x20000 then s.mailRead (a / 0x2000) (a % 0x2000)
  else if a < 0x20400 then msixWord (s.msixEntry ((a - 0x20000) / 16)) ((a - 0x20000) % 16 / 4)
  else if a = 0x21000 then s.pcie.pba % 2 ^ 32
  else if a = 0x21004 then s.pcie.pba / 2 ^ 32
  else 0

/-! The configuration space (the header and capabilities of the PCI and PCI Express specifications; PRESUMED, log 153) -/

/-- The bits of a base address register that are written, and its low bits: BAR0 32-bit 4 MiB, BAR2 64-bit prefetchable 256 MiB, BAR4
64-bit 256 KiB (R478). -/
def barShape (off : Nat) : Nat × Nat :=
  match off with
  | 0x10 => (2 ^ 22, 0x0)
  | 0x18 => (2 ^ 28, 0xC)
  | 0x1C => (1, 0x0)
  | 0x20 => (2 ^ 18, 0x4)
  | 0x24 => (1, 0x0)
  | _ => (2 ^ 32, 0x0)

/-- A dword of the configuration space: identity, command, base addresses, and the power management and MSI-X capabilities (R477,
R478). -/
def State.configWord (s : State) (off : Nat) : Nat :=
  match off with
  | 0x00 => 0x4128 * 2 ^ 16 + Config.pciVendor.toNat
  | 0x04 => 0x0010 * 2 ^ 16 + s.pcie.command
  | 0x08 => 0x0B4000 * 2 ^ 8 + Config.stepping
  | 0x2C => Config.pciSubsystem.toNat
  | 0x34 => 0x40
  | 0x40 => 0xC0035001
  | 0x44 => (if s.fld Reg.pciStatusPower = 1 then 3 else 0) + 2 ^ 8 * bit01 s.pcie.pmeEn + 2 ^ 15 * bit01 s.pcie.pmeStatus
  | 0x50 => 0x11 + 2 ^ 16 * (63 + 2 ^ 14 * bit01 s.pcie.msixMask + 2 ^ 15 * bit01 s.pcie.msixEn)
  | 0x54 => 0x20000 + 4
  | 0x58 => 0x21000 + 4
  | o => if 0x10 ≤ o ∧ o ≤ 0x24 then Sparse.get s.pcie.bars 0 o + (barShape o).2 else 0

/-- A write of PMCSR: the power state, D0 or D3hot, PME_En, and PME_Status cleared by 1 (R477, R502, R506). -/
def State.pmcsrWrite (s : State) (v : Nat) : State :=
  let p := bitsOf v 0 2
  let s1 := { s with pcie := { s.pcie with pmeEn := bitOf v 8, pmeStatus := s.pcie.pmeStatus && !bitOf v 15 } }
  (if p = 0 ∨ p = 3 then s1.setFld Reg.pciStatusPower (p / 3) else s1).msixRelease

/-- A write of the configuration space (R477, R485). -/
def State.configWrite (s : State) (off v : Nat) : State :=
  if off = 0x04 then { s with pcie := { s.pcie with command := bitsOf v 0 16 &&& 0x0547 } }.msixRelease
  else if off = 0x44 then s.pmcsrWrite v
  else if off = 0x50 then { s with pcie := { s.pcie with msixMask := bitOf v 30, msixEn := bitOf v 31 } }.msixRelease
  else if 0x10 ≤ off ∧ off ≤ 0x24 ∧ off % 4 = 0 then
    { s with pcie := { s.pcie with bars := Sparse.put s.pcie.bars 0 off (v / (barShape off).1 * (barShape off).1) } }
  else s

/-! Host accesses beside BAR0 -/

/-- A host write beside BAR0 (R478, R479). -/
def State.barWrite (s : State) (page off v : Nat) : State :=
  if page = 0x440 then s.configWrite off v else s.bar4Write ((page - 0x400) * 0x1000 + off) v

/-- What an access beside BAR0 reads: BAR4 takes aligned 32-bit and 64-bit accesses; another one reads zero, and sets no event, as R479
names one for BAR0 alone (DESIGN CHOICE, log 153). -/
def State.barRead (s : State) (page off size : Nat) : List Byte :=
  if page = 0x440 then leBytes size (s.configWord (off / 4 * 4) / 256 ^ (off % 4))
  else if (size = 4 ∨ size = 8) ∧ off % size = 0 then
    let a := (page - 0x400) * 0x1000 + off
    leBytes size (s.bar4Word a + 2 ^ 32 * s.bar4Word (a + 4))
  else List.replicate size 0

end Sys2Proof.Machine
end

