-- ==== Sys2Proof/Machine/Turnspit.lean ====
section
/-! DEFINITION. Turnspit: the servo and the adjusts (R370-R373), switching (R374-R377), latched reads (R378), stamps
(R379) and timed launches (R381, R382). -/

namespace Sys2Proof.Machine

/-- The state of a domain: 0 FREE, 1 TRACKING, 2 HOLDOVER (R369). -/
def tspStateFld (d : Nat) : Fld := if d = 0 then Reg.tspStatusAState else Reg.tspStatusBState

/-- The last offset written to a domain (R369). -/
def State.lastOffset (s : State) (d : Nat) : Option Int := if d = 0 then s.turnspit.offA else s.turnspit.offB

/-- The last offset of a domain written. -/
def State.setLastOffset (s : State) (d : Nat) (o : Int) : State :=
  if d = 0 then { s with turnspit := { s.turnspit with offA := some o } }
  else { s with turnspit := { s.turnspit with offB := some o } }

/-- A domain's counter written, modulo 2^96 (R368). -/
def State.setDomainCtr (s : State) (d : Nat) (v : Int) : State :=
  if d = 0 then { s with turnspit := { s.turnspit with ctrA := twos 96 v } }
  else { s with turnspit := { s.turnspit with ctrB := twos 96 v } }

/-- A domain is IN_LOCK: its last offset's magnitude is at most LOCK_THRESH (R369). -/
def State.inLock (s : State) (d : Nat) : Bool :=
  match s.lastOffset d with
  | some o => decide (o.natAbs ≤ s.fld (Reg.tspNLockThreshLockThresh d))
  | none => false

/-! Timed launches -/

/-- TIMED_LAUNCH (R381). -/
def execTimedLaunch (port : Fin 232) (s : State) : Result :=
  .next (if s.turnspitOn then s.launchDue port.val else s)

/-! Steps and samples -/

/-- Class `k` after a step of system time that was `before` (R181): a forward step past a boundary that a Primary's locked class would
have run leaves its number out; a backward step leaves those out that still lie before the time. -/
def State.stepClass (s : State) (before k : Nat) : State :=
  let rt := s.cls k
  let per := s.periodUs k * 1000
  let off := s.fld (Reg.blwClPhaseOffsetPhaseOffset k) * 1000
  if s.now < before then s.setCls k { rt with passedTo := min rt.passedTo s.now }
  else if s.mode ≠ modePrimary ∨ s.locked k = false ∨ per = 0 ∨ s.now ≤ off then s
  else
    let b := (s.now - off - 1) / per * per + off
    let waits := match rt.jump, rt.lastBound with | true, some last => decide (last + per ≤ b) | _, _ => true
    if before < b ∧ waits = true then s.setCls k { rt with stepped := true, passedTo := s.now } else s

/-- A domain stepped by `size` in ns: its counter, the event and the record; a step of system time reaches the locked classes, and a
forward one launches the frames that it passes (R181, R373, R382). -/
def State.stepCounter (s : State) (d : Nat) (size : Int) : State :=
  let s1 := s.setDomainCtr d ((s.domainCtr d : Int) + size * (2 ^ 32 : Nat))
  let s2 := s1.tspRaise d Reg.tspEventStep d 0
  let s3 := s2.record 0x018 0x01 false [d, twos 64 size / 2 ^ 32, twos 64 size % 2 ^ 32]
  if d = s3.fld Reg.tspStatusActive then
    let s4 := [0, 1, 2].foldl (fun t k => t.stepClass s.now k) s3
    if 0 < size then (s4.turnspit.launches.map Prod.fst).foldl (fun t p => t.launchPast p 1) s4 else s4
  else s3

/-- Domain `d` in use with system time continuous (R375). -/
def State.tspContinue (s : State) (d : Nat) : State :=
  let off := (s.domainCtr (s.fld Reg.tspStatusActive) : Int) + s.turnspit.offset - (s.domainCtr d : Int)
  let s1 := { s with turnspit := { s.turnspit with offset := signed 96 (twos 96 off) } }
  s1.setFields [(Reg.tspStatusActive, d), (Reg.tspControlSelect, d)]

/-- A domain stepped: in the tick of a switch the counter change comes first and the switch offset follows from its result
(R373, R377; commands at the same Bellows ns fall in one tick, log 1). -/
def State.stepDomain (s : State) (d : Nat) (size : Int) : State :=
  match s.turnspit.switched with
  | some (ns, sel, off) =>
    if ns = s.bellows.ns then
      let s1 := { s with turnspit := { s.turnspit with offset := off } }.setFld Reg.tspStatusActive sel
      (s1.stepCounter d size).tspContinue (s.fld Reg.tspStatusActive)
    else s.stepCounter d size
  | none => s.stepCounter d size

/-- A product with a 16.16 factor rounded to nearest, ties away from zero (R371, log 34). -/
def fixedMul (k : Nat) (e : Int) : Int :=
  let m : Int := (k * e.natAbs + 2 ^ 15 : Nat) / (2 ^ 16 : Nat)
  if e < 0 then -m else m

/-- A value clamped to ± `limit` (R371). -/
def clampTo (limit : Nat) (v : Int) : Int := max (-(limit : Int)) (min (limit : Int) v)

/-- The servo step of R371: INTEG, then FREQ from it; a clamp sets LIMIT. -/
def State.servo (s : State) (d : Nat) (o : Int) : State :=
  let e := max (-(2 ^ 31 : Nat) : Int) (min ((2 ^ 31 - 1 : Nat) : Int) o)
  let limit := s.fld (Reg.tspNFreqLimitFreqLimit d)
  let i0 := signed 32 (s.fld (Reg.tspNIntegInteg d)) - fixedMul (s.fld (Reg.tspNKiKi d)) e
  let i1 := clampTo limit i0
  let f0 := i1 - fixedMul (s.fld (Reg.tspNKpKp d)) e
  let f1 := clampTo limit f0
  let s1 := s.setFields [(Reg.tspNIntegInteg d, twos 32 i1), (Reg.tspNFreqFreq d, twos 32 f1)]
  if i0 = i1 ∧ f0 = f1 then s1 else s1.tspRaise (6 + d) Reg.tspEventLimit d 0

/-- A sample applied: a step or a servo step, and the domain tracks (R369, R371). -/
def State.tspSample (s : State) (d : Nat) (o : Int) : State :=
  let thresh := s.fld (Reg.tspNStepThreshStepThresh d)
  let s1 := (s.setLastOffset d o).setFld (tspStateFld d) 1
  if thresh ≠ 0 ∧ thresh < o.natAbs then s1.stepDomain d (-o) else s1.servo d o

/-- The 48-bit number that a LO register and the word written to its HI register spell (R370, R371). -/
def hiLo (hi lo : Nat) : Int := signed 48 (hi % 2 ^ 16 * 2 ^ 32 + lo)

/-- A write of a TSP register while Turnspit is in service; without it the write is discarded (R47). -/
def State.tspWrite (s : State) (r : Requester) (off : Nat) (k : State → State) : State :=
  s.writeAs r 0x018 off fun t => if t.turnspitOn then k t else t

/-- The sample that a write of OFFSET_HI applies (R371). -/
def State.tspOffsetHi (s : State) (d : Nat) (v : Nat) : State :=
  (s.setFld (Reg.tspNOffsetHiOffsetHi d) v).tspSample d (hiLo v (s.fld (Reg.tspNOffsetLoOffsetLo d)))

/-- The adjust that a write of ADJUST_HI applies (R370). -/
def State.tspAdjustHi (s : State) (d : Nat) (v : Nat) : State :=
  (s.setFld (Reg.tspNAdjustHiAdjustHi d) v).stepDomain d (hiLo v (s.fld (Reg.tspNAdjustLoAdjustLo d)))

/-- TSP_SAMPLE (R371): discarded while the microcode does not run (R516). -/
def execTspSample (r : Requester) (d : Fin 2) (hi : W32) (s : State) : Result :=
  .next (s.tspWrite r (0x0AC + 0x80 * d.val) fun t => if t.compUp 4 then t.tspOffsetHi d.val hi.toNat else t)

/-- TSP_ADJUST (R370). -/
def execTspAdjust (r : Requester) (d : Fin 2) (hi : W32) (s : State) : Result :=
  .next (s.tspWrite r (0x0C4 + 0x80 * d.val) fun t => t.tspAdjustHi d.val hi.toNat)

/-! Switching -/

/-- A switch: its event, and what stood before it (R375, R377, R385). -/
def State.tspSwitch (s : State) (d : Nat) : State :=
  let s1 := { s with turnspit := { s.turnspit with switched := some (s.bellows.ns, s.fld Reg.tspStatusActive, s.turnspit.offset) } }
  (s1.tspContinue d).tspRaise 4 Reg.tspEventSwitched 0 0

/-- A write of SELECT: a switch, or a refusal for a FREE domain (R375, R376). -/
def State.tspSelectTo (s : State) (d : Nat) : State :=
  if d = s.fld Reg.tspStatusActive then s
  else if s.fld (tspStateFld d) = 0 then s.tspRaise 5 Reg.tspEventSwitchRefused 0 0
  else s.tspSwitch d

/-- A write of TSP_CONTROL (R375, R376, R385). -/
def State.tspControl (s : State) (v : Nat) : State :=
  (s.setFld Reg.tspControlAutoSwitch (bitsOf v 1 1)).tspSelectTo (bitsOf v 0 1)

/-- TSP_SELECT (R375). -/
def execTspSelect (r : Requester) (v : W32) (s : State) : Result :=
  .next (s.tspWrite r 0x008 fun t => t.tspControl v.toNat)

/-- A domain enters HOLDOVER, and AUTO_SWITCH leaves it for a locked other (R369, R376). -/
def State.tspHold (s : State) (d : Nat) : State :=
  let s1 := ((s.setFld (tspStateFld d) 2).setFld (Reg.tspNFreqFreq d) (s.fld (Reg.tspNIntegInteg d))).tspRaise (2 + d)
    Reg.tspEventHoldover d 0
  if s1.bit Reg.tspControlAutoSwitch ∧ s1.fld Reg.tspStatusActive = d ∧ s1.fld (tspStateFld (1 - d)) = 1 ∧ s1.inLock (1 - d)
  then s1.tspSwitch (1 - d) else s1

/-- TSP_HOLDOVER (R369): only a domain that tracks enters it, and only while the microcode runs (R516). -/
def execTspHoldover (d : Fin 2) (s : State) : Result :=
  .next (if s.turnspitOn ∧ s.compUp 4 ∧ s.fld (tspStateFld d.val) = 1 then s.tspHold d.val else s)

/-- TSP_BLEED_END (R374, R375): the tick whose bleed covers what is left of the offset. -/
def execTspBleedEnd (s : State) : Result :=
  .next (if s.turnspitOn ∧ s.turnspit.offset.natAbs ≤ s.fld Reg.tspBleedBleed then
    { s with turnspit := { s.turnspit with offset := 0 } } else s)

/-! Reads and stamps -/

/-- A read of TSP_SYS_LO: the rest of system time is latched (R378). -/
def State.tspReadSys (s : State) : W32 × State :=
  (BitVec.ofNat 32 (s.sysTime96 / 2 ^ 32), { s with turnspit := { s.turnspit with latchSys := s.sysTime96 } })

/-- A read of TSP_Nd_NS_LO: the rest of the domain's counter is latched (R378). -/
def State.tspReadDomain (s : State) (d : Nat) : W32 × State :=
  (BitVec.ofNat 32 (s.domainCtr d / 2 ^ 32),
    if d = 0 then { s with turnspit := { s.turnspit with latchA := s.turnspit.ctrA } }
    else { s with turnspit := { s.turnspit with latchB := s.turnspit.ctrB } })

/-- A latching read of the TSP page, which reads zero without Turnspit (R47). -/
def State.tspRead (s : State) (r : Requester) (off : Nat) (k : State → W32 × State) : State :=
  s.readAs r 0x018 off fun t => if t.turnspitOn then k t else (0, t)

/-- TSP_SYS_READ (R378). -/
def execTspSysRead (r : Requester) (s : State) : Result := .next (s.tspRead r 0x020 State.tspReadSys)

/-- TSP_DOMAIN_READ (R378). -/
def execTspDomainRead (r : Requester) (d : Fin 2) (s : State) : Result :=
  .next (s.tspRead r (0x080 + 0x80 * d.val) fun t => t.tspReadDomain d.val)

/-- The stamp of a frame at a port in a domain, at the pins: the counter less the port's receive latency for a received frame, plus its
transmit latency for a sent one (R379). -/
def State.stampAt (s : State) (x d : Nat) (sent : Bool) : Nat :=
  let ctr : Int := s.domainCtr d
  if sent then twos 96 (ctr + (Sparse.get s.turnspit.txLat 0 x * 2 ^ 32 : Nat))
  else twos 96 (ctr - (Sparse.get s.turnspit.rxLat 0 x * 2 ^ 32 : Nat))

/-- A PTP event message is stamped in the domain of its port, and the stamp goes to the stack with 64 ns bits and the top 16 fraction
bits (R379). -/
def State.ptpStamp (s : State) (x : Nat) (m : PtpMessage) : State :=
  let d := Sparse.get s.turnspit.portDomain 0 x
  let t := s.stampAt x d m.sent
  s.send (.ptpStamp x m.id d (t / 2 ^ 32) (t / 2 ^ 16 % 2 ^ 16))

/-- A PTP event message that the stack sends leaves by a port with ROLE.PTP (R249, R379). -/
def State.ptpSend (s : State) (x : Nat) (m : PtpMessage) : State :=
  if s.bit (Reg.chmXControlPtp x) && s.turnspitOn && s.vlanTakes x m.vlan then (s.countWrap (Reg.chmXTxFramesTxFrames x)).ptpStamp x m
  else s

/-- PTP_EVENT_MESSAGE (R249, R250, R379): received; one that the unit's own stack sends is stamped too. -/
def execPtpEventMessage (x : Fin 40) (message : PtpMessage) (s : State) : Result :=
  .next (if !s.chmPortUp x.val then s
  else if message.sent then s.ptpSend x.val message
  else
    let s1 := s.countWrap (Reg.chmXRxFramesRxFrames x.val)
    if s1.bit (Reg.chmXControlPtp x.val) && s1.turnspitOn && s1.vlanTakes x.val message.vlan then s1.ptpStamp x.val message
    else s1.rxDrop x.val)

end Sys2Proof.Machine
end

