-- ==== Sys2Proof/Machine/RegDispatch.lean ====
section
/-! DEFINITION. Reads and writes of any register (R7-R12, R482): values that follow from other state, field types, the
conditions of single fields, and the registers whose write is an operation. -/

namespace Sys2Proof.Machine

/-! Values that follow from other state -/

/-- DMP_LISTEN_EFFECTIVE (R347). -/
def State.listenMs (s : State) : Nat :=
  let set := s.fld Reg.dmpListenMsListenMs
  let classes := ([0, 1, 2].map fun k => (3 * s.periodUs k + 999) / 1000).foldl max 0
  let stations := (s.decls.map fun d => 3 * d.periodMs).foldl max 0
  if set ≠ 0 then set else min 10000 (max classes stations)

/-- The sources pending for a world, those whose page it owns (R483, R484; log 37). -/
def State.irqFor (s : State) (secure : Bool) : Nat :=
  (List.range 64).foldl (fun a v => match sourcePage v with
    | some p => if s.bit (Reg.ownerWorld p) = secure ∧ s.sourcePending v then a + 2 ^ v else a
    | none => a) 0

/-- The block that BLW_BLOCK_QUERY names (R220). -/
def State.queried (s : State) : Option Desc := s.desc (s.fld Reg.blwBlockQueryBlock)

/-- The tier that BLW_TOKEN_QUERY names (R220). -/
def State.queriedTier (s : State) : Option TierRt :=
  (s.cls (s.fld Reg.blwTokenQueryClass)).tiers.find? fun t => decide (t.tier = s.fld Reg.blwTokenQueryTier)

/-- The bits of a 4-bit mask for the fuse slots in a state (R505). -/
def State.slotMask (s : State) (v : Nat) : Nat :=
  (List.range 4).foldl (fun a n => if s.fuseSlot n = v then a + 2 ^ n else a) 0

/-- The retain slots in a state. -/
def State.slotCount (s : State) (v : Nat) : Nat := ((List.range 8).filter fun i => decide (s.slotState i = v)).length

/-- The entry of the address table that CHM_Xnn_ADDR_INDEX selects (R287). -/
def State.addrEntry (s : State) (x : Nat) : List Nat :=
  Sparse.get s.addrTable [] (addrKey x (s.fld (Reg.chmXAddrIndexIndex x)))

/-- The words written to ADDR_W0 to ADDR_W3 since the last write to ADDR_CTL or ADDR_INDEX, beside the table's entries. -/
def State.addrStage (s : State) (x : Nat) : List (Option Nat) :=
  (Sparse.get s.addrTable [] (addrKey x 15)).map fun v => if v = 0 then none else some (v - 1)

/-- ADDR_W0 to ADDR_W3 and ADDR_CTL as they read: a word written and not stored yet, else the selected entry's (R287, log 74). -/
def State.addrShown (s : State) (x i : Nat) : Nat := ((s.addrStage x).getD i none).getD ((s.addrEntry x).getD i 0)

/-- The state that BLW_BLOCK_STATE shows of a block: an error task that three faulted runs have disabled shows as disabled by fault
(R214, R220). -/
def State.shownState (s : State) (d : Desc) : Nat :=
  if d.task = 1 ∧ (s.blockRt d.id).state = 0 ∧ s.bit (Reg.blwClStatusErrtaskOff d.cls) then 1 else (s.blockRt d.id).state

/-- The fields of a page that the state gives without a cell of their own: field and value. -/
def State.derived (s : State) (page : Nat) : List (Fld × Nat) :=
  if page = 0x000 then
    [(Reg.tenStatusWorld, bit01 (s.core tenderKey).inSecure), (Reg.tenIrqSLoPend, s.irqFor true % 2 ^ 32),
      (Reg.tenIrqSHiPend, s.irqFor true / 2 ^ 32), (Reg.tenIrqNLoPend, s.irqFor false % 2 ^ 32), (Reg.tenIrqNHiPend, s.irqFor false / 2 ^ 32)]
  else if page = 0x001 then
    [(Reg.pwrPdStatePowered, (List.range 24).foldl (fun a n => if s.fld (Reg.pwrPdControlState n) ≤ 1 then a + 2 ^ n else a) 0)]
  else if page = 0x002 then [(Reg.fgdSysElapsedElapsed, min (s.fireguard.elapsed / 1000) 8388607)]
  else if page = 0x003 then [(Reg.embTickLoTickLo, s.ember.tick % 2 ^ 32), (Reg.embTickHiTickHi, s.ember.tick / 2 ^ 32)]
  else if page = 0x004 then [(Reg.swpStatusVerdict, match s.newestSweep with | some r => r.verdict | none => 0)]
  else if page = 0x005 then
    [(Reg.mntStatusBankBusy, (List.range 8).foldl (fun a b => if s.bankBusy b then a + 2 ^ b else a) 0),
      (Reg.mntStatusRetainPre, s.slotCount 0), (Reg.mntStatusRetainValid, s.slotCount 1),
      (Reg.mntStatusRetainCommitting, min 1 (s.slotCount 2))]
  else if page = 0x006 then [(Reg.ashStatusDirect, bit01 s.ashDirect)]
  else if page = 0x007 then
    [(Reg.rlnStatusDown, (List.range 7).foldl (fun a c => if s.fld (Reg.rlnVerState c) ≠ 1 then a + 2 ^ c else a) 0)]
  else if page = 0x009 then
    [(Reg.secStatusOemValid, s.slotMask 1), (Reg.secStatusOemRevoked, s.slotMask 2), (Reg.secStatusOemCosign, bit01 s.fuses.cosign),
      (Reg.secStatusDebugKey, s.fuses.debugKey.getD 7), (Reg.secRollbackValue, s.rollbackCounter (s.fld Reg.secRollbackSelComponent))]
      ++ (if s.bit Reg.secStatusPufOk then (List.range 24).map fun i => (Reg.secDevidPubKey i, (Config.devicePub i).toNat) else [])
  else if page = 0x013 then
    (match s.queried with
      | some d =>
        let r := s.blockRt d.id
        [(Reg.blwBlockStateState, s.shownState d), (Reg.blwBlockStateDemoted, bit01 r.demoted),
          (Reg.blwBlockStateFirstRun, bit01 r.firstRun), (Reg.blwBlockStateClass, d.cls), (Reg.blwBlockStateTier, d.tier),
          (Reg.blwBlockStateLogical, d.logical)]
      | none => [(Reg.blwBlockStateState, 3), (Reg.blwBlockStateDemoted, 0), (Reg.blwBlockStateFirstRun, 0),
          (Reg.blwBlockStateClass, 0), (Reg.blwBlockStateTier, 0), (Reg.blwBlockStateLogical, 0)])
      ++ (match s.queriedTier with
        | some t => [(Reg.blwTokenLedgerAssigned, t.assigned.length),
            (Reg.blwTokenLedgerReturned, t.assigned.length - t.owed.length), (Reg.blwTokenLedgerOpen, bit01 t.isOpen)]
        | none => [])
      ++ [(Reg.blwInstDisabledInstDisabled, s.bellows.instOff.length)]
  else if page = 0x014 then
    [(Reg.hrtRetainGranules, (s.hearth.retain.map (·.2)).foldl (· + ·) 0), (Reg.hrtRetainRanges, (s.hearth.retain.filter fun r => decide (r.2 ≠ 0)).length),
      (Reg.hrtInjectDepth, s.hearth.inject.length)]
  else if page = 0x017 then [(Reg.dmpListenEffectiveListenMs, s.listenMs)]
  else if page = 0x018 then
    let sys := s.turnspit.latchSys
    [(Reg.tspStatusBleeding, bit01 (decide (s.turnspit.offset ≠ 0))), (Reg.tspStatusAInLock, bit01 (s.inLock 0)),
      (Reg.tspStatusBInLock, bit01 (s.inLock 1)), (Reg.tspSysLoNsLo, s.sysTime96 / 2 ^ 32 % 2 ^ 32),
      (Reg.tspSysHiNsHi, sys / 2 ^ 64), (Reg.tspSysFracFrac, sys % 2 ^ 32),
      (Reg.tspOffsetLoOffsetLo, twos 48 (s.turnspit.offset / (2 ^ 32 : Nat)) % 2 ^ 32),
      (Reg.tspOffsetHiOffsetHi, twos 48 (s.turnspit.offset / (2 ^ 32 : Nat)) / 2 ^ 32),
      (Reg.tspPortDomainDomain, Sparse.get s.turnspit.portDomain 0 (s.fld Reg.tspPortSelectPort)),
      (Reg.tspPortRxLatRxLat, Sparse.get s.turnspit.rxLat 0 (s.fld Reg.tspPortSelectPort)),
      (Reg.tspPortTxLatTxLat, Sparse.get s.turnspit.txLat 0 (s.fld Reg.tspPortSelectPort))]
      ++ [0, 1].flatMap fun d =>
        let latch := if d = 0 then s.turnspit.latchA else s.turnspit.latchB
        [(Reg.tspNNsLoNsLo d, s.domainCtr d / 2 ^ 32 % 2 ^ 32), (Reg.tspNNsHiNsHi d, latch / 2 ^ 64), (Reg.tspNFracFrac d, latch % 2 ^ 32)]
  else if page = 0x131 then [(Reg.pciIdsVendor, Config.pciVendor.toNat)]
  else if page = 0x100 then [(Reg.chmStatusDramBuffers, bit01 s.hasDram)]
  else if 0x020 ≤ page ∧ page ≤ 0x02F then [(Reg.fbxKEngineStateEngineState (page - 0x020), s.clusterState (page - 0x020))]
  else if 0x101 ≤ page ∧ page ≤ 0x128 then
    let x := page - 0x101
    let ctl := s.addrShown x 4
    [(Reg.chmXStatusPdOff x, bit01 (!s.domainOn (if x < 20 then 16 else 17))), (Reg.chmXAddrCtlPrefix x, bitsOf ctl 0 8),
      (Reg.chmXAddrCtlIpv6 x, bitsOf ctl 8 1), (Reg.chmXAddrCtlVlan x, bitsOf ctl 9 3), (Reg.chmXAddrCtlValid x, bitsOf ctl 12 1)]
      ++ (List.range 4).map fun i => (Reg.chmXAddrWWord x i, s.addrShown x i)
  else if 0x201 ≤ page ∧ page ≤ 0x2C0 then
    let p := page - 0x201
    let h := s.hobPort p
    [(Reg.hobPStatusPdOff p, bit01 (!s.domainOn 19)), (Reg.hobPTxLedgerFree p, (h.inState 0).length),
      (Reg.hobPTxLedgerPending p, (h.inState 1).length), (Reg.hobPTxLedgerOnBus p, (h.inState 2).length)]
  else []

/-! Reads -/

/-- The value of a field as a read shows it. -/
def State.shown (s : State) (f : Fld) : Nat :=
  match (s.derived f.page).find? fun d => decide (d.1 = f) with
  | some d => d.2 % 2 ^ f.width
  | none => s.fld f

/-- A field type that a read by this world shows (R10). -/
def FieldType.readable (t : FieldType) (secure : Bool) : Bool :=
  match t with
  | .wo => false
  | .srw => secure
  | _ => true

/-- The word that a read of a register returns (R8, R10, R11). -/
def State.regWord (s : State) (secure : Bool) (page off : Nat) : Nat :=
  (regFields page off).foldl (fun a r => if r.ty.readable secure then a + s.shown r.fld * 2 ^ r.fld.lo else a) 0

/-- What a page reads as when nothing of it is to be had: a locked Ember (R445), Turnspit out of service (R47). -/
def State.pageDead (s : State) (page : Nat) : Bool :=
  (decide (page = 0x003) && s.ember.locked) || (decide (page = 0x018) && !s.turnspitOn)

/-- A register read with its effect: the Turnspit counters latch (R378); a page whose domain is off keeps ID and STATUS
(R432). -/
def State.readReg (s : State) (secure : Bool) (page off : Nat) : Nat × State :=
  if s.pageDead page ∧ (page = 0x003 ∨ (off ≠ 0x000 ∧ off ≠ 0x01C)) then (0, s)
  else if s.pageOff page ∧ off ≠ 0x000 ∧ off ≠ 0x00C then (0, s)
  else
    let v := s.regWord secure page off
    if page ≠ 0x018 then (v, s)
    else if off = 0x020 then (v, s.tspReadSys.2)
    else if off = 0x080 then (v, (s.tspReadDomain 0).2)
    else if off = 0x100 then (v, (s.tspReadDomain 1).2)
    else (v, s)

/-! Conditions of single fields -/

/-- The table that the field places would lie partly in the secure range, for a requester outside the secure world (R494). -/
def State.rangeRefuses (s : State) (r : Requester) (f : Fld) (v : Nat) : Bool :=
  decide (r ≠ .tenderSecure) && ((s.setFld f v).tables.any fun t =>
    decide (t.1 = f) && (s.setFld f v).tableInRange t)

/-- Counters that software can only clear: "software may write 0". -/
def clearOnly (f : Fld) : Bool :=
  (decide (f.page = 0x014) && decide (f.off = 0x028)) ||
    (decide (0x010 ≤ f.page) && decide (f.page ≤ 0x012) && (decide (f.off = 0x03C) || decide (f.off = 0x050) || decide (f.off = 0x05C))) ||
    (decide (0x101 ≤ f.page) && decide (f.page ≤ 0x128) && decide (f.off = 0x068)) ||
    (decide (0x201 ≤ f.page) && decide (f.page ≤ 0x2C0) && (decide (f.off = 0x040) || decide (f.off = 0x044))) ||
    (decide (f.page = 0x016) && (decide (f.off = 0x048) || (decide (0x060 ≤ f.off) && decide (f.off ≤ 0x06C)))) ||
    (decide (f.page = 0x017) && decide (f.off = 0x034)) || (decide (f.page = 0x018) && decide (f.off = 0x04C)) ||
    (decide (f.page = 0x005) && decide (f.off = 0x048)) || (decide (f.page = 0x006) && decide (f.off = 0x038))

/-- A value that a field takes: writable only in some state, or only in a range. -/
def State.accepts (s : State) (f : Fld) (v : Nat) : Bool :=
  if clearOnly f then decide (v = 0)
  else if f = Reg.edtStageBaseStageBase then decide (s.editState = 0)
  else if f = Reg.edtProgBaseProgBase then !s.bit Reg.blwStatusLoaded
  else if f = Reg.chmBufBaseBufBase ∨ f = Reg.chmStateBaseStateBase then !s.bit Reg.chmControlEnable
  else if f = Reg.chmEvqEntriesLog2 then decide (8 ≤ v) && decide (v ≤ 20)
  else if f = Reg.rlnStageBaseStageBase then decide (s.rlnState = 0)
  else if f = Reg.eraAckTimeoutAckTimeout then decide (100 ≤ v) && decide (v ≤ 100000)
  else if f = Reg.embTrimTrim then decide (v ≠ 0x80)
  else if f = Reg.tspBleedBleed then decide (v ≠ 0)
  else if f = Reg.tspPortSelectPort then decide (v ≤ 39)
  else if f.page = 0x018 ∧ (f = Reg.tspNIncNsIncNs 0 ∨ f = Reg.tspNIncNsIncNs 1 ∨ f = Reg.tspNHoldoverMsHoldoverMs 0 ∨
      f = Reg.tspNHoldoverMsHoldoverMs 1) then decide (v ≠ 0)
  else if f.page = 0x018 ∧ (f = Reg.tspNOffsetLoOffsetLo 0 ∨ f = Reg.tspNOffsetLoOffsetLo 1) then s.compUp 4
  else if 0x010 ≤ f.page ∧ f.page ≤ 0x012 ∧ f.off = 0x028 then decide (v ≠ 0)
  else if 0x101 ≤ f.page ∧ f.page ≤ 0x128 ∧ f.off = 0x048 then decide (v ≤ 9)
  else if 0x201 ≤ f.page ∧ f.page ≤ 0x2C0 then
    let p := f.page - 0x201
    if f.off = 0x020 ∨ f.off = 0x024 then decide (s.fld (Reg.hobPControlMode p) = 0)
    else if f.off = 0x050 then
      let k := s.fld (Reg.hobPControlRefClass p)
      decide (k = 3) || decide (v < s.periodUs k)
    else true
  else true

/-- The value that a write is taken as: HOST_ROUTE bits of sources whose page the secure world owns keep their value for any other
writer (R484); BLEED and FREQ_LIMIT have a greatest value (R372, R375). -/
def State.routeValue (s : State) (r : Requester) (f : Fld) (v : Nat) : Nat :=
  if f = Reg.pciHostRouteLoRoute ∧ r ≠ .tenderSecure then
    (List.range 32).foldl (fun a i =>
      match (sourcePages i).head? with
      | some p => if s.bit (Reg.ownerWorld p) then withBit a i (bitOf (s.fld f) i) else a
      | none => a) v
  else if f = Reg.tspBleedBleed then min v 0x14F8B
  else if f = Reg.tspNFreqLimitFreqLimit 0 ∨ f = Reg.tspNFreqLimitFreqLimit 1 then min v 0x418937
  else v

/-! Fields that stand for an entry of a table -/

/-- A field of ADDR_CTL written: ADDR_W0 to ADDR_W3 and ADDR_CTL are stored in the selected entry (R287). -/
def State.addrStore (s : State) (x lo width v : Nat) : State :=
  let old := s.addrShown x 4
  let new := old - bitsOf old lo width * 2 ^ lo + v * 2 ^ lo
  let e := (List.range 4).map (s.addrShown x) ++ [new]
  { s with addrTable := Sparse.put (Sparse.put s.addrTable [] (addrKey x (s.fld (Reg.chmXAddrIndexIndex x))) e) [] (addrKey x 15) [] }

/-- A field of the selected port or table entry written in its table (R287, R379). A write of ADDR_INDEX drops the words written and not
stored yet (DESIGN CHOICE, log 74). -/
def State.writeEntry (s : State) (f : Fld) (v : Nat) : State :=
  if f = Reg.tspPortDomainDomain then
    { s with turnspit := { s.turnspit with portDomain := Sparse.put s.turnspit.portDomain 0 (s.fld Reg.tspPortSelectPort) v } }
  else if f = Reg.tspPortRxLatRxLat then
    { s with turnspit := { s.turnspit with rxLat := Sparse.put s.turnspit.rxLat 0 (s.fld Reg.tspPortSelectPort) v } }
  else if f = Reg.tspPortTxLatTxLat then
    { s with turnspit := { s.turnspit with txLat := Sparse.put s.turnspit.txLat 0 (s.fld Reg.tspPortSelectPort) v } }
  else if 0x101 ≤ f.page ∧ f.page ≤ 0x128 ∧ 0x04C ≤ f.off ∧ f.off ≤ 0x05C then
    let x := f.page - 0x101
    let i := (f.off - 0x04C) / 4
    if i = 4 then s.addrStore x f.lo f.width v
    else
      let w := (Sparse.get s.addrTable [] (addrKey x 15)) ++ List.replicate 4 0
      { s with addrTable := Sparse.put s.addrTable [] (addrKey x 15) ((w.take 4).set i (v + 1)) }
  else if 0x101 ≤ f.page ∧ f.page ≤ 0x128 ∧ f.off = 0x048 then
    { s with addrTable := Sparse.put s.addrTable [] (addrKey (f.page - 0x101) 15) [] }.setFld f v
  else s.setFld f v

/-! Writes under the field types -/

/-- One field of a written register (R10); `fresh` says that a RWL register is not locked yet. -/
def State.writeField (s : State) (r : Requester) (fresh : Bool) (rf : RegField) (word : Nat) : State :=
  let f := rf.fld
  let v := bitsOf word f.lo f.width
  match rf.ty with
  | .ro => s
  | .sw => s
  | .w1c => s.setFld f (s.fld f - (s.fld f &&& v))
  | .rwl => if fresh then s.setFld f v else s
  | .srw => if r = .tenderSecure then s.setFld f v else s
  | _ =>
    if s.rangeRefuses r f v then (s.secCapture f.page (requesterCode r)).raise Reg.secEventRange
    else if s.accepts f v then s.writeEntry f (s.routeValue r f v) else s

/-- The key under which a register with RWL fields is locked. -/
def rwlKey (page off : Nat) : Nat := (page * 0x1000 + off) * 32

/-- A register has RWL fields that this write sets and locks (R10, R412); TEN_SVC.LEVEL is written by the secure world (R492). -/
def State.rwlFresh (s : State) (r : Requester) (page off : Nat) : Bool :=
  ((regFields page off).any fun f => decide (f.ty = .rwl)) && !Sparse.get s.rwlSet false (rwlKey page off) &&
    (decide (page ≠ 0x000) || decide (r = .tenderSecure))

/-- The fields of a register written in order (R10). -/
def State.writeFields (s : State) (r : Requester) (page off word : Nat) : State :=
  let fresh := s.rwlFresh r page off
  let s1 := (regFields page off).foldl (fun t f => t.writeField r fresh f word) s
  if fresh then { s1 with rwlSet := Sparse.put s1.rwlSet false (rwlKey page off) true } else s1

/-- ERROR_CAPTURE of a page holds nothing once a write has left none of its events set (R9; DESIGN CHOICE, log 38). -/
def State.clearCapture (s : State) (page : Nat) : State :=
  if s.stored page 0x010 = 0 then (regFields page 0x018).foldl (fun t f => t.setFld f.fld 0) s else s

/-- PCI_WAKE_REPORT is kept until the host clears its event (R502). -/
def State.clearWake (s : State) (page : Nat) : State :=
  if page = 0x131 ∧ !s.bit Reg.pciEventWakeReport then
    { s with pcie := { s.pcie with deviceFirst := false } }.setFields [(Reg.pciWakeReportCause, 0), (Reg.pciWakeReportDeviceFirst, 0)]
  else s

/-- The source of a page checked again (R485). -/
def State.recheckPage (s : State) (page : Nat) : State :=
  match pageSource page with
  | some v => s.recheck v
  | none => s

/-- What follows a write of a register without an operation of its own: events and their interrupts (R483, R485), the outputs of
Grate (R394), the link of an Ethernet port (R248). -/
def State.afterWrite (s before : State) (page off : Nat) : State :=
  if off = 0x010 then ((s.clearCapture page).clearWake page).recheckPage page
  else if off = 0x014 then
    match pageSource page with
    | some v => s.becamePending before v
    | none => s
  else if page = 0x019 ∧ off = 0x008 then s.grateUpdate
  else if 0x101 ≤ page ∧ page ≤ 0x128 ∧ off = 0x008 then s.modeWritten before (page - 0x101)
  else s

/-- A write of a register without an operation of its own. -/
def State.plainWrite (s : State) (r : Requester) (page off word : Nat) : State :=
  if s.pageDead page then s else (s.writeFields r page off word).afterWrite s page off

/-! Registers whose write is an operation -/

/-- The state that a command leaves. -/
def after (s : State) (o : Result) : State :=
  match o with
  | .next t => t
  | _ => s

/-- BLW_BLOCK_CTL (R220). -/
def State.blockCtl (s : State) (r : Requester) (v : W32) : State :=
  let b := BitVec.ofNat 20 v.toNat
  match bitsOf v.toNat 20 2 with
  | 1 => after s (execBlockEnable r b s)
  | 2 => after s (execBlockDisable r b s)
  | 3 => after s (execEnableAllInstances r b s)
  | _ => s

/-- PWR_COMMAND (R428). -/
def State.pwrOp (s : State) (r : Requester) (v : W32) : State :=
  match bitsOf v.toNat 0 4 with
  | 1 => after s (execPwrHold r s)
  | 2 => after s (execPwrRun r s)
  | 3 => after s (execPwrBank r s)
  | 4 => after s (execPwrRake r s)
  | 5 => after s (execPwrRakeOff r s)
  | 6 => after s (execPwrWake r s)
  | 7 => after s (execPwrReset r s)
  | _ => s

/-- A page check's outcome drawn free, where no command gives it (R400, log 2). -/
def State.drawEcc (s : State) : Ecc × State :=
  let (n, t) := s.draw 3
  (if n = 0 then .clean else if n = 1 then .corrected else .uncorrectable, t)

/-- MNT_CMD (R404, R423). -/
def State.mntOp (s : State) (r : Requester) (v : W32) : State :=
  match bitsOf v.toNat 0 4 with
  | 1 => let (e, t) := s.drawEcc; after t (execMantelRead r e t)
  | 2 => after s (execStage r s)
  | 3 => after s (execCommit r s)
  | 4 => after s (execCommitErase r s)
  | 5 => after s (execErase r s)
  | 6 => after s (execMantelDiscard r s)
  | 7 => after s (execParamAppend r s)
  | 8 => after s (execRetainCommit r s)
  | _ => s.mntCommand r fun _ t => t.mntEnd 10

/-- EDT_COMMAND (R231, R246). -/
def State.edtOp (s : State) (r : Requester) (v : W32) : State :=
  match bitsOf v.toNat 0 4 with
  | 1 => after s (execBeginLoad r s)
  | 2 => after s (execVerify r s)
  | 3 => after s (execArm r s)
  | 4 => after s (execDisarm r s)
  | 5 => after s (execRollbackArm r s)
  | 6 => after s (execActivateNow r s)
  | 7 => after s (execEditDiscard r s)
  | _ => s

/-- RLN_COMMAND (R520). -/
def State.rlnOp (s : State) (r : Requester) (v : W32) : State :=
  match bitsOf v.toNat 0 3 with
  | 1 => after s (execRlnBegin r s)
  | 2 => after s (execRlnFinalize r s)
  | 3 => after s (execRlnActivate r s)
  | 4 => after s (execRlnAbort r s)
  | _ => s

/-- SEC_FUSE_CMD (R500, R505). -/
def State.fuseOp (s : State) (r : Requester) (v : W32) : State :=
  let op := bitsOf v.toNat 0 4
  if 1 ≤ op ∧ op ≤ 5 then s.fuseCommand r op (bitsOf v.toNat 4 7) (bitsOf v.toNat 11 7) else s

/-- STN_COMMAND (R288): OP 0, 6 and 7 are ignored whole, with no capture for a station without an entry (DESIGN CHOICE, log 118). -/
def State.stnOp (s : State) (r : Requester) (v : W32) : State :=
  let n := BitVec.ofNat 17 v.toNat
  match bitsOf v.toNat 17 3 with
  | 1 => after s (execCloseSession r n s)
  | 2 => after s (execStationDisable r n s)
  | 3 => after s (execStationEnable r n s)
  | 4 => after s (execClearCounters r n s)
  | 5 => after s (execInterrogateNow r n s)
  | _ => s

/-- ERA_COMMAND (R366). -/
def State.eraOp (s : State) (r : Requester) (v : W32) : State :=
  match bitsOf v.toNat 0 2 with
  | 1 => after s (execEraSync r s)
  | 2 => after s (execEraDesync r s)
  | 3 => after s (execEraSwap r s)
  | _ => s

/-- HOB_Pnnn_SLEEP (R319, R322, R325). -/
def State.hobSleep (s : State) (r : Requester) (p : Fin 192) (v : W32) : State :=
  let s1 := if bitOf v.toNat 0 then after s (execHobSleepRequest r p s) else s
  if bitOf v.toNat 1 then after s1 (execHobSleepWake r p s1) else s1

/-- DRM_MAPOUT: map-outs, then returns (R42). -/
def State.drmOp (s : State) (r : Requester) (v : W32) : State :=
  let s1 := after s (execDrmMapout r v s)
  after s1 (execDrmReturn r v s1)

/-- The operation of a write to one of the pages 0x000 to 0x009, where the register has one. -/
def State.writeOpLow (s : State) (r : Requester) (page off : Nat) (v : W32) : Option State :=
  match page, off with
  | 0x000, 0x030 =>
    some (after s (execTenRomExit r v s))
  | 0x001, 0x020 => some (s.pwrOp r v)
  | 0x002, 0x020 => some (after s (execFgdConfigWrite r .system v s))
  | 0x002, 0x024 => some (after s (execFgdService r v s))
  | 0x002, 0x030 => some (after s (execFgdConfigWrite r (.cls 0) v s))
  | 0x002, 0x034 => some (after s (execFgdConfigWrite r (.cls 1) v s))
  | 0x002, 0x038 => some (after s (execFgdConfigWrite r (.cls 2) v s))
  | 0x003, 0x008 => some (after s (execEmberHalt r v s))
  | 0x003, 0x028 => some (s.embTickLo r v)
  | 0x003, 0x02C => some (after s (execEmberTickSet r v s))
  | 0x003, 0x034 => some (after s (execEmberAlarmSet r v s))
  | 0x004, 0x020 => some (after s (execSweepRequest r v s))
  | 0x005, 0x020 => some (s.mntOp r v)
  | 0x006, 0x020 =>
    some (if bitsOf v.toNat 0 2 = 1 then after s (execAshFlush r s) else if bitsOf v.toNat 0 2 = 2 then after s (execAshClear r s) else s)
  | 0x007, 0x020 => some (s.rlnOp r v)
  | 0x009, 0x020 => some (after s (execSecLsSplitWrite r v s))
  | 0x009, 0x024 => some (after s (execSecDramRangeWrite r false v s))
  | 0x009, 0x028 => some (after s (execSecDramRangeWrite r true v s))
  | 0x009, 0x034 => some (s.fuseOp r v)
  | _, _ => none

/-- The operation of a write to one of the single pages above 0x009, where the register has one. -/
def State.writeOpHigh (s : State) (r : Requester) (page off : Nat) (v : W32) : Option State :=
  match page, off with
  | 0x013, 0x020 => some (s.blockCtl r v)
  | 0x014, 0x034 => some (after s (execHrtRetainCapture r v s))
  | 0x015, 0x020 => some (s.edtOp r v)
  | 0x016, 0x020 => some (s.eraOp r v)
  | 0x018, 0x008 => some (after s (execTspSelect r v s))
  | 0x018, 0x0AC => some (after s (execTspSample r 0 v s))
  | 0x018, 0x12C => some (after s (execTspSample r 1 v s))
  | 0x018, 0x0C4 => some (after s (execTspAdjust r 0 v s))
  | 0x018, 0x144 => some (after s (execTspAdjust r 1 v s))
  | 0x019, 0x020 => some (after s (execGratePairWrite r v s))
  | 0x130, 0x028 => some (s.drmOp r v)
  | 0x131, 0x028 => some (after s (execPciSwInt r v s))
  | 0x131, 0x02C => some (after s (execPciSwClear r v s))
  | 0x140, 0x020 => some (after s (execStnSelect r (BitVec.ofNat 17 v.toNat) s))
  | 0x140, 0x050 => some (s.stnOp r v)
  | _, _ => none

/-- The operation of a write to a page of a class, cluster, engine, port or channel, where the register has one. -/
def State.writeOpMany (s : State) (r : Requester) (page off : Nat) (v : W32) : Option State :=
  if page = 0x001 ∧ 0x040 ≤ off ∧ off < 0x0A0 then some (after s (execPdRequest r (Fin.ofNat 24 ((off - 0x040) / 4)) v s))
  else if 0x010 ≤ page ∧ page ≤ 0x012 then
    let k := Fin.ofNat 3 (page - 0x010)
    if off = 0x008 then some (after s (execStallResume r k v s))
    else if off = 0x020 then some (after s (execBlwPeriodWrite r k v s))
    else if off = 0x024 then some (after s (execBlwPhaseOffsetWrite r k v s))
    else none
  else if page = 0x019 ∧ 0x040 ≤ off ∧ off < 0x080 then some (after s (execGrateConfigWrite r (Fin.ofNat 16 ((off - 0x040) / 4)) v s))
  else if 0x020 ≤ page ∧ page ≤ 0x02F ∧ off = 0x028 then some (after s (execFbxClusterMapout r (Fin.ofNat 16 (page - 0x020)) v s))
  else if 0x040 ≤ page ∧ page ≤ 0x0CF ∧ off = 0x024 then 
    let (credits, t) := s.draw 35
    some (after t (execFbxEngineMapout r (Fin.ofNat 144 (page - 0x040)) v (Fin.ofNat 35 credits) t))
  else if 0x101 ≤ page ∧ page ≤ 0x128 ∧ off = 0x06C then some (after s (execChmPortMapout r (Fin.ofNat 40 (page - 0x101)) v s))
  else if 0x201 ≤ page ∧ page ≤ 0x2C0 then
    let p := Fin.ofNat 192 (page - 0x201)
    if off = 0x008 then some (after s (execHobModeWrite r p v s))
    else if off = 0x02C then some (after s (execHobTxCancel r p v s))
    else if off = 0x048 then some (s.hobSleep r p v)
    else if off = 0x04C then some (after s (execHobPortMapout r p v s))
    else none
  else none

/-- A register write that R482 lets through: the register's operation, or its fields under their types (R10). -/
def State.openWrite (s : State) (r : Requester) (page off : Nat) (v : W32) : State :=
  match s.writeOpLow r page off v, s.writeOpHigh r page off v, s.writeOpMany r page off v with
  | some t, _, _ => t
  | none, some t, _ => t
  | none, none, some t => t
  | none, none, none => s.plainWrite r page off v.toNat

/-- A register write of the host crosses the Flue on VC3 (R19). The rows that name a register's operation stand for the operation alone
(DESIGN CHOICE, log 47). -/
def State.hostCarries (s : State) (r : Requester) (page off : Nat) (v : W32) : State :=
  if r = .host then s.flueSend nodeHost .vc3 .store (regAddr page off) [v.setWidth 36] else s

/-- A register write by any requester (R10-R12, R482), or a host write of BAR4 or of the configuration space (R478; log 153). -/
def State.regWrite (s : State) (r : Requester) (page off : Nat) (v : W32) : State :=
  if !s.answers r then s
  else if r = .host ∧ barPage page then s.barWrite page off v.toNat
  else if !pageAssigned page then s.unassignedWrite r page off
  else if off = 0x000 then s
  else if off = 0x01C then after s (execOwnerWrite r page v s)
  else (s.hostCarries r page off v).writeAs r page off fun t => t.openWrite r page off v

/-- REGISTER_WRITE (R10). -/
def execRegisterWrite (r : Requester) (page off : Nat) (v : W32) (s : State) : Result := .next (s.regWrite r page off v)

end Sys2Proof.Machine
end

