-- ==== Sys2Proof/Machine/Issue.lean ====
section
/-! DEFINITION. How a core issues an instruction (R66-R90): whether it runs, the fetch check, breakpoints, interlocks with
outstanding loads and the load-delay slot, exceptions, and retirement. -/

namespace Sys2Proof.Machine

/-- What an instruction comes to: it completes, with the address of the next instruction and, for a load, the old values
that its load-delay slot sees (R74); it raises an exception; or it does not complete now. -/
inductive Out where
  | done (s : State) (next : W36) (slot : Option (List (Reg × W36)))
  | trap (s : State) (t : Trap)
  | stopped (s : State)

/-- The action of an instruction on the core that issues it. -/
abbrev Op := State → CoreId → Out

/-- An address after `n` words, modulo 2^36 (R80). -/
def wordAt (a : W36) (n : Nat) : W36 := a + BitVec.ofNat 36 n

/-- A synchronous exception of the instruction at the pc; LDS says whether it stands in a load-delay slot (R90). -/
def State.raiseTrap (s : State) (c : CoreId) (cause : Nat) (faddr : W36) : Out :=
  let pc := (s.at c).pc
  .trap s ⟨cause, pc, pc, faddr, false, (s.at c).afterLoad⟩

/-- ILLEGAL (R67, R71, R87). FADDR is the pc: the spec states none for an exception without an access (log 48). -/
def State.illegal (s : State) (c : CoreId) : Out := s.raiseTrap c 0x01 (s.at c).pc

/-- PRIV (R87, R96); FADDR as for ILLEGAL (log 48). -/
def State.privTrap (s : State) (c : CoreId) : Out := s.raiseTrap c 0x02 (s.at c).pc

/-- The instruction of `len` words completes and the next one follows. -/
def State.fin (s : State) (c : CoreId) (len : Nat) : Out := .done s (wordAt (s.at c).pc len) none

/-! Which core runs -/

/-- The Tender's clock runs: its unit has power and a reference clock, and Kindling, the deep stage and Raking do not
hold it (R425, R429, R433, R443, R459). -/
def State.tenderClock (s : State) : Bool :=
  s.mainUp && s.pins.refclkOk && !(decide (s.mode = modeKindling) && decide (s.kindling = .none)) &&
    !(decide (s.mode = modeBanked) && decide (s.fld Reg.pwrStatusBankStage = 2)) &&
    (match s.raking with | some r => decide (r.phase < 4) | none => true)

/-- A core issues instructions. -/
def State.issues (s : State) (c : CoreId) : Bool :=
  decide ((s.at c).issue = .running) && !(s.at c).halted &&
    (match c with
      | .engine _ => (s.at c).run.isSome
      | .tender => s.tenderClock)

/-! Fetch -/

/-- Every address of an access of `n` words satisfies `p`; one that wraps does not (R80, R81). -/
def whole (p : Nat → Bool) (a : W36) (n : Nat) : Bool :=
  decide (a.toNat + n ≤ 2 ^ 36) && (List.range n).all fun i => p (a.toNat + i)

/-- A word in DRAM window `i` of an engine (R62, R81, R494). -/
def State.inWindow (s : State) (c : CoreId) (i : Nat) (a : Nat) : Bool :=
  decide (((s.at c).sysReg (0x014 + 2 * i)).toNat ≤ a) && decide (a < ((s.at c).sysReg (0x015 + 2 * i)).toNat) &&
    s.dramOk a && !s.secureDram a

/-- A word of local store that the Tender may fetch or load: its world's part, and the boot ROM for the secure world
(R493, R496). -/
def State.tenderLs (s : State) (a : Nat) : Bool :=
  let secure := (s.at .tender).inSecure
  s.worldLs secure a && (secure || !(s.romOn && decide (a < 0x2000)))

/-- The carve-out at the top of the Hearth word region, from which the Tender runs without DRAM (R46). -/
def State.inCarveOut (s : State) (a : Nat) : Bool := !s.hasDram && decide (0x19C0000 ≤ a) && decide (a < 0x1A00000)

/-- A fetch of `n` words at `a` is allowed (R81). -/
def State.fetchOk (s : State) (c : CoreId) (a : W36) (n : Nat) : Bool :=
  match c with
  | .engine _ => whole (fun x => decide (x < ((s.at c).sysReg 0x012).toNat) && decide (x < lsSize)) a n || whole (s.inWindow c 0) a n
  | .tender => whole s.tenderLs a n || whole (s.worldDram (s.at c).inSecure) a n || whole s.inCarveOut a n

/-- The word that a fetch takes fails its check: in local store, in DRAM, or in the Hearth carve-out (R87, R132, R141). -/
def State.fetchWordBad (s : State) (c : CoreId) (a : Nat) : Bool :=
  if a < lsSize then (s.at c).lsBad.contains a
  else if dramBase ≤ a then s.dramBad.contains a
  else s.addrFails a

/-- The first word of a fetch that is uncorrectable (R87, R132). -/
def State.fetchBad (s : State) (c : CoreId) (a : W36) (n : Nat) : Option Nat :=
  ((List.range n).map (a.toNat + ·)).find? (s.fetchWordBad c)

/-- A register word of a page that the secure world owns (R482). -/
def State.securePage (s : State) (a : Nat) : Bool := isPage a && pageAssigned (pageOf a) && s.bit (Reg.ownerWorld (pageOf a))

/-- A forbidden access of `n` words from `a` on outside the secure world to a secure page or to the secure DRAM range is noted, with who asked: 0 the normal
world, 2 an engine, 3 Poker (R482, R494, R505). -/
def State.noteWorldBy (s : State) (c : CoreId) (a : W36) (n who : Nat) : State :=
  if !isEngine c && (s.at c).inSecure then s
  else
    match ((List.range n).map (a.toNat + ·)).find? fun x => s.securePage x || s.secureDram x with
    | some x => (s.secCapture (if s.securePage x then pageOf x else 0) who).raise Reg.secEventWorldFault
    | none => s

/-- A forbidden access of `n` words by a core of its own is noted (R482, R494, R505). -/
def State.noteWorld (s : State) (c : CoreId) (a : W36) (n : Nat) : State := s.noteWorldBy c a n (if isEngine c then 2 else 0)

/-! Halts and breakpoints -/

/-- Poker may halt the core now: an engine in Held or in a sandbox, the Tender with authentication or in the normal world
(R468, R469). -/
def State.mayHalt (s : State) (c : CoreId) : Bool :=
  match c with
  | .engine e => decide (s.mode = modeHeld) || s.inSandbox e.val
  | .tender => s.poker.auth || !(s.at c).inSecure

/-- A halt with a cause: at once where it is permitted, else for the Tender at the next permitted boundary (R469). -/
def State.haltNow (s : State) (c : CoreId) (cause : Nat) : State :=
  if s.mayHalt c then s.haltCore (coreKey c) cause
  else if isEngine c then s
  else s.mapCore c fun x => { x with haltReq := true, haltCause := cause }

/-- A core register of Poker that the core keeps by number (R467). -/
def Core.dbgReg (x : Core) (n : Nat) : Nat := (Sparse.get x.dbg 0 n).toNat

/-- A Poker core register written. -/
def Core.setDbg (x : Core) (n v : Nat) : Core := { x with dbg := Sparse.put x.dbg 0 n (BitVec.ofNat 36 v) }

/-- The kinds of access that a breakpoint may watch, as their bit in BPn_CTL (R467): 0 fetch, 1 load, 2 store. -/
def Core.breakHit (x : Core) (n kind : Nat) (a : W36) (len : Nat) : Bool :=
  let ctl := x.dbgReg (0x32 + 3 * n)
  bitOf ctl 3 && bitOf ctl kind &&
    (List.range len).any fun i => decide (x.dbgReg (0x30 + 3 * n) ≤ (wordAt a i).toNat) && decide ((wordAt a i).toNat < x.dbgReg (0x31 + 3 * n))

/-- The core runs on from a breakpoint: its number and 1, while the instruction that it halted is not halted by it again; 0 else
(log 44). -/
def dbgOver : Nat := 0x100

/-- The breakpoints that an access hits: COUNT goes down where it is not 0, and the first with COUNT 0 is the one that
stops (R467). -/
def Core.breaks (x : Core) (kind : Nat) (a : W36) (len : Nat) : Core × Option Nat :=
  [0, 1, 2, 3].foldl (fun p n =>
    if p.1.breakHit n kind a len && decide (p.1.dbgReg dbgOver ≠ n + 1) then
      let ctl := p.1.dbgReg (0x32 + 3 * n)
      if bitsOf ctl 4 16 = 0 then (p.1, if p.2.isSome then p.2 else some n)
      else (p.1.setDbg (0x32 + 3 * n) (ctl - 16), p.2)
    else p) (x, none)

/-- An access hits some enabled breakpoint but the one that the core runs on from (R467). -/
def Core.anyBreak (x : Core) (kind : Nat) (a : W36) (len : Nat) : Bool :=
  [0, 1, 2, 3].any fun n => x.breakHit n kind a len && decide (x.dbgReg dbgOver ≠ n + 1)

/-- Breakpoints stop nothing at this access: none is hit. -/
def Core.unwatched (x : Core) (kind : Nat) (a : W36) (len : Nat) : Bool := !x.anyBreak kind a len

/-- The breakpoints before an access (R467). On a core that Poker holds halted, an injected instruction is carried out, and a hit is
the cause that its halt then has (log 44). -/
def State.watch (s : State) (c : CoreId) (kind : Nat) (a : W36) (len : Nat) (k : State → Out) : Out :=
  let x := s.at c
  if x.unwatched kind a len then k s
  else
    let (y, hit) := x.breaks kind a len
    let t := s.setCore (coreKey c) y
    match hit with
    | none => k t
    | some n =>
      if x.halted then k (t.haltCore (coreKey c) (1 + n))
      else if t.mayHalt c then .stopped (t.haltCore (coreKey c) (1 + n))
      else if isEngine c then t.raiseTrap c 0x0B a
      else k (t.haltNow c (1 + n))

/-! Outstanding loads -/

/-- An outstanding load lands, and `rest` stay outstanding: its response frees its slot and its packet has left the Flue
(R24); an uncorrectable one raises UNCORRECTABLE and delivers nothing (R75, R88, R132). -/
def State.landOne (s : State) (c : CoreId) (l : Load) (rest : List Load) : Option Trap × State :=
  let t := s.mapCore c fun x => { x.answers .load l.addr with loads := rest }
  if l.bad then (some l.trap, t.loadBad c l) else
  (none, t.mapCore c fun x => x.setRegs l.dests)

/-- The first `n` of the outstanding loads land, until one raises an exception. -/
def State.land (s : State) (c : CoreId) (n : Nat) (ls : List Load) : Option Trap × State :=
  match n, ls with
  | k + 1, l :: rest =>
    match s.landOne c l rest with
    | (some t, u) => (some t, u)
    | (none, u) => u.land c k rest
  | _, _ => (none, s)

/-- How many of the loads must land because an uncorrectable one has let 4 later instructions complete (R88). -/
def overdue (ls : List Load) : Nat :=
  (ls.zipIdx.filter fun l => l.1.bad && decide (5 ≤ l.1.age)).foldl (fun _ l => l.2 + 1) 0

/-- How many of the loads must land before one of these registers may be used (R72, R74). -/
def needed (ls : List Load) (rs : List Reg) : Nat :=
  (ls.zipIdx.filter fun l => l.1.dests.any fun d => rs.contains d.1).foldl (fun _ l => l.2 + 1) 0

/-- A register as the issuing instruction sees it: the old value in the slot of a load (R74). -/
def Core.see (x : Core) (r : Reg) : W36 :=
  match x.slot.find? fun p => decide (p.1 = r) with
  | some p => p.2
  | none => x.reg r

/-- A register as a quality word (R51, R56). -/
def Core.seeQ (x : Core) (r : Reg) : W36 := if r = 0 then litQ 0 else x.see r

/-- An instruction waits for the loads that its sources and destinations depend on (R72, R74, R75), then goes on. -/
def State.interlock (s : State) (c : CoreId) (srcs dests : List Reg) (k : State → Out) : Out :=
  let x := s.at c
  let waits := srcs.filter fun r => !x.slot.any fun p => decide (p.1 = r)
  match s.land c (needed x.loads (waits ++ dests)) x.loads with
  | (some t, u) => .trap u t
  | (none, u) => k u

/-- An instruction that computes registers from registers: `f` gives the writes from the core that it sees. -/
def State.compute (s : State) (c : CoreId) (len : Nat) (srcs dests : List Reg) (f : Core → List (Reg × W36)) : Out :=
  s.interlock c srcs dests fun u => (u.mapCore c fun x => x.setRegs (f x)).fin c len

/-! Exceptions and retirement -/

/-- An engine that has met an uncorrectable word of its local store reports it and fails (R31); how many credits the gate finds
out on the link into it is free (log 47). -/
def State.islandFails (s : State) (e : Nat) : State :=
  let (n, t) := s.draw 35
  t.failEngine e (Fin.ofNat 35 n)

/-- A core takes an exception (R91, R92); an uncorrectable local-store word fails its engine besides (R31). -/
def State.take (s : State) (c : CoreId) (t : Trap) : State :=
  match c with
  | .engine e =>
    let first := (s.at c).firstTrap t
    let u := (s.landBad c).engineTrap e.val first
    if first.cause = 0x09 ∧ first.faddr.toNat < lsSize then u.islandFails e.val else u
  | .tender => s.tenderTakes t

/-- TRACE and the history after an instruction at `pc` (R467). -/
def Core.trace (x : Core) (pc : W36) : Core :=
  let h := (List.range 7).foldl (fun y i => y.setDbg (0x2F - i) (y.dbgReg (0x2E - i))) x
  ((h.setDbg 0x28 pc.toNat).setDbg 0x24 (h.dbgReg 0x24 + 1)).setDbg dbgOver 0

/-- A core with an instruction retired. -/
def Core.retired (x : Core) (pc next : W36) (slot : Option (List (Reg × W36))) : Core :=
  { x.trace pc with
    pc := next, slot := slot.getD [], afterLoad := slot.isSome
    loads := x.loads.map fun l => { l with age := l.age + 1 } }

/-- The trace limit (R467). -/
def State.traceLimit (s : State) (c : CoreId) : State :=
  let x := s.at c
  if x.dbgReg 0x25 ≠ 0 ∧ x.dbgReg 0x24 = x.dbgReg 0x25 ∧ !x.halted then s.haltNow c 6 else s

/-- An instruction that completes retires. -/
def State.retire (s : State) (c : CoreId) (pc next : W36) (slot : Option (List (Reg × W36))) : State :=
  (s.mapCore c fun x => x.retired pc next slot).traceLimit c

/-- What an instruction leaves behind. -/
def Out.state (o : Out) (c : CoreId) (pc : W36) : State :=
  match o with
  | .done s next slot => s.retire c pc next slot
  | .trap s t => s.take c t
  | .stopped s => s

/-- The fetch of an instruction beyond local store has gone over the Flue (R19). -/
def State.fetched (s : State) (c : CoreId) : State :=
  if (s.at c).pc.toNat < lsSize then s else s.mapCore c fun x => x.fetches (coreKey c)

/-- A fetch of uncorrectable data: a Hearth word is replaced as R132 says. -/
def State.badFetched (s : State) (c : CoreId) (a : Nat) : State :=
  if isHearth a then s.uncorrectableAt a (if isEngine c then 0 else 1) else s

/-- The fetch of an instruction of `len` words, then its action (R81, R82, R141). -/
def State.fetch (s : State) (c : CoreId) (len : Nat) (op : Op) : Out :=
  let pc := (s.at c).pc
  if !s.fetchOk c pc len then (s.noteWorld c pc len).raiseTrap c 0x03 pc
  else
    match s.fetchBad c pc len with
    | some a => .trap ((s.fetched c).badFetched c a) ⟨0x09, pc, pc, BitVec.ofNat 36 a, true, (s.at c).afterLoad⟩
    | none => (s.fetched c).watch c 0 pc len fun t => op t c

/-- An instruction of `len` words at the pc, once no uncorrectable load has been outstanding for too long (R88). -/
def State.issue (s : State) (c : CoreId) (len : Nat) (op : Op) : Out :=
  match s.land c (overdue (s.at c).loads) (s.at c).loads with
  | (some t, u) => .trap u t
  | (none, u) => u.fetch c len op

/-- One instruction of `len` words on a core; nothing where the core does not issue. -/
def State.runOp (s : State) (c : CoreId) (len : Nat) (op : Op) : State :=
  if s.issues c then (s.issue c len op).state c (s.at c).pc else s

end Sys2Proof.Machine
end

