-- ==== Sys2Proof/Machine/CoreMem.lean ====
section
/-! DEFINITION. What a core may access (R81-R83, R86, R102, R112, R194, R482, R493, R494), what its loads return (R78,
R119), and how its posted stores complete (R25, R78, R118, R160). -/

namespace Sys2Proof.Machine

/-- Where an access goes (R81). -/
inductive Space where
  | ls
  | hearth
  | page
  | dram
  deriving DecidableEq, Repr

/-! Regions -/

/-- The host byte offset of a register address within its page (R7). -/
def offOf (a : Nat) : Nat := (a - 0x8000000) % 0x400 * 4

/-- A register word that a core may touch: an assigned page, and outside the secure world one that the normal world may
use; ID and OWNER are read by all (R12, R482). -/
def State.pageWordOk (s : State) (secure load : Bool) (a : Nat) : Bool :=
  isPage a && pageAssigned (pageOf a) &&
    (secure || !s.bit (Reg.ownerWorld (pageOf a)) || (load && (decide (offOf a = 0x000) || decide (offOf a = 0x01C))))

/-- Both words of an access lie in one region of the Hearth (R81, R99). -/
def oneRegion (a : W36) (n : Nat) : Bool :=
  whole (fun x => isHearth x && decide (hearthRegion x = hearthRegion a.toNat)) a n

/-- A region of the Hearth that engines may load (R102). -/
def engineLoads (r : Region) : Bool :=
  match r with
  | .boolCur => true
  | .boolPrev => true
  | .wordCur => true
  | .wordPrev => true
  | .stir _ => true
  | .hints => true
  | .rings => true
  | .control => true
  | _ => false

/-- A granule range list covers a granule. -/
def covers (ws : List (Nat × Nat)) (g : Nat) : Bool := ws.any fun w => decide (w.1 ≤ g) && decide (g < w.1 + w.2)

/-- The tier read rule forbids the load of a word (R194). The spec marks granules and speaks of no view: the model forbids
current-view addresses, the ea of LDBP and LDWP among them, and allows previous-view addresses (log 51). -/
def State.claimed (s : State) (e a : Nat) : Bool :=
  match (s.core e).run with
  | some r => !r.sandbox && isCurAddr a && covers (s.cls r.work.cls).claims ((a - hearthBase) / 32) &&
      !covers r.windows ((a - hearthBase) / 32)
  | none => false

/-- An engine may load these Hearth words (R102, R194, R472). -/
def State.engineHearth (s : State) (e : Nat) (a : W36) (n : Nat) : Bool :=
  oneRegion a n && whole (fun x => if s.inSandbox e then (s.sandboxAddr x).isSome else engineLoads (hearthRegion x) && !s.claimed e x) a n

/-- The words lie in one of the four DRAM windows (R81). -/
def State.engineDram (s : State) (c : CoreId) (a : W36) (n : Nat) : Bool := [0, 1, 2, 3].any fun i => whole (s.inWindow c i) a n

/-- A load of `n` words is allowed, and where it goes (R81). -/
def State.loadSpace (s : State) (c : CoreId) (a : W36) (n : Nat) : Option Space :=
  match c with
  | .engine e =>
    if whole (fun x => decide (x < lsSize)) a n then some .ls
    else if s.engineHearth e.val a n then some .hearth
    else if whole (s.pageWordOk false true) a n then some .page
    else if s.engineDram c a n then some .dram else none
  | .tender =>
    let secure := (s.at c).inSecure
    if whole s.tenderLs a n then some .ls
    else if oneRegion a n && decide (hearthRegion a.toNat ≠ .reserved) then some .hearth
    else if whole (s.pageWordOk secure true) a n then some .page
    else if whole (s.worldDram secure) a n then some .dram else none

/-- store_allowed of R112: the words lie within one write window. -/
def storeAllowed (ws : List (Nat × Nat)) (a : W36) (n : Nat) : Bool :=
  ws.any fun w => decide (0 < w.2) && decide (hearthBase + 32 * w.1 ≤ a.toNat) && decide (a.toNat + n ≤ hearthBase + 32 * (w.1 + w.2))

/-- An engine may store these Hearth words (R112, R113). -/
def State.engineWindow (s : State) (e : Nat) (a : W36) (n : Nat) : Bool :=
  match (s.core e).run with
  | some r => oneRegion a n && storeAllowed r.windows a n
  | none => false

/-- A local-store word that an ordinary store of a core may write: outside code, guard and ROM (R81, R86, R493, R496). -/
def State.lsWritable (s : State) (c : CoreId) (a : Nat) : Bool :=
  !(s.at c).inGuard a &&
    (match c with
      | .engine _ => decide (((s.at c).sysReg 0x012).toNat ≤ a) && decide (a < lsSize)
      | .tender => s.worldLs (s.at c).inSecure a && !(s.romOn && decide (a < 0x2000)))

/-- A Hearth region that the Tender may store to (R102). -/
def tenderStores (r : Region) : Bool :=
  match r with
  | .boolCur => true
  | .wordCur => true
  | .hints => true
  | _ => false

/-- A store of `n` words is allowed, and where it goes (R81, R102, R112). -/
def State.storeSpace (s : State) (c : CoreId) (a : W36) (n : Nat) : Option Space :=
  match c with
  | .engine e =>
    if whole (s.lsWritable c) a n then some .ls else if s.engineWindow e.val a n then some .hearth else none
  | .tender =>
    let secure := (s.at c).inSecure
    if whole (s.lsWritable c) a n then some .ls
    else if oneRegion a n && tenderStores (hearthRegion a.toNat) then some .hearth
    else if whole (s.pageWordOk secure false) a n then some .page
    else if whole (s.worldDram secure) a n then some .dram else none

/-- A load that is not allowed (R82). -/
def State.loadFault (s : State) (c : CoreId) (a : W36) (n : Nat) : Out := (s.noteWorld c a n).raiseTrap c 0x04 a

/-- A store that is not allowed (R82). -/
def State.storeFault (s : State) (c : CoreId) (a : W36) (n : Nat) : Out := (s.noteWorld c a n).raiseTrap c 0x05 a

/-! Stores that complete -/

/-- A Tender store to a Hearth word: queued, direct, or discarded on a Standby; none while the queue is full (R102, R118,
R335). -/
def State.tenderHearth (s : State) (a : Nat) (v : W36) : Option State :=
  if hearthRegion a = .hints then
    some (s.onHearth fun h => { h with hints := Sparse.put h.hints 0 (a - 0x2220000) (val v) })
  else
    let w := imageWord a
    if s.wordClass w = 3 then some (s.writeWord w v)
    else if s.isStandby then some s
    else if s.noIntake (s.wordClass w) then some (s.writeWord w v)
    else if s.hearth.inject.length < 4096 then some (s.injectWrite w v)
    else none

/-- A posted register write of the Tender; one that its world may no longer make is dropped and noted (R482). -/
def State.tenderPage (s : State) (secure : Bool) (a : Nat) (v : W36) : State :=
  if s.pageWordOk secure false a then
    s.regWrite (if secure then .tenderSecure else .tenderNormal) (pageOf a) (offOf a) (BitVec.ofNat 32 (val v))
  else (s.secCapture (pageOf a) 0).raise Reg.secEventWorldFault

/-- One word of a Tender store at its target; none while it must wait. -/
def State.tenderWord (s : State) (secure : Bool) (a : Nat) (v : W36) : Option State :=
  if isHearth a then s.tenderHearth a v
  else if isPage a then some (s.tenderPage secure a v)
  else if s.dramOk a then some (s.setDram a v)
  else some s

/-- The words of a Tender store at their targets. -/
def State.tenderWords (s : State) (secure : Bool) (a : Nat) (vs : List W36) : Option State :=
  match vs with
  | [] => some s
  | v :: rest => (s.tenderWord secure a v).bind fun t => t.tenderWords secure (a + 1) rest

/-- A posted store of a core completes: the first for its destination, where several are, a free choice (R23); none where
there is none or it must wait (R25, R78, R118). -/
def State.drain (s : State) (c : CoreId) : Option State :=
  match c with
  | .engine e => if (s.at c).stores.isEmpty then none else some (s.drainOne e.val)
  | .tender =>
    let (i, t) := s.pick (s.storeAwaited tenderKey)
    match i with
    | none => none
    | some i => match (t.at c).stores[i]? with
    | none => none
    | some st => (t.mapCore c fun x => { x.answers .store st.addr with stores := x.stores.eraseIdx i }).tenderWords
        st.secure st.addr.toNat st.vals

/-- `n` posted stores complete; none where one must wait. -/
def State.drains (s : State) (c : CoreId) (n : Nat) : Option State :=
  match n with
  | 0 => some s
  | k + 1 => (s.drain c).bind fun t => t.drains c k

/-- Posted stores complete, `n` at most, until none is left that `p` holds of; none where one must wait. -/
def State.drainsUntil (s : State) (c : CoreId) (p : Store → Bool) (n : Nat) : Option State :=
  match n with
  | 0 => some s
  | k + 1 => if (s.at c).stores.any p then (s.drain c).bind fun t => t.drainsUntil c p k else some s

/-- The core stands where it stood: no completed store has reset it or moved its pc. -/
def sameSpot (x y : Core) : Bool := decide (x.pc = y.pc) && decide (x.issue = y.issue) && decide (x.halted = y.halted)

/-- Stores complete before an instruction goes on; where one must wait the instruction does not issue now (R78, R118). -/
def State.onward (s : State) (c : CoreId) (drained : Option State) (k : State → Out) : Out :=
  match drained with
  | none => .stopped s
  | some t => if sameSpot (s.at c) (t.at c) then k t else .stopped t

/-- `n` stores complete before an instruction goes on. -/
def State.afterDrains (s : State) (c : CoreId) (n : Nat) (k : State → Out) : Out := s.onward c (s.drains c n) k

/-- The stores that `p` holds of complete before an instruction goes on (R78, R162). -/
def State.afterThese (s : State) (c : CoreId) (p : Store → Bool) (k : State → Out) : Out :=
  s.onward c (s.drainsUntil c p (s.at c).stores.length) k

/-- A store covers an address. -/
def Store.has (st : Store) (a : Nat) : Bool := decide (st.addr.toNat ≤ a) && decide (a < st.addr.toNat + st.vals.length)

/-- The instance that a core runs. -/
def Core.instance? (x : Core) : Option Nat := x.run.bind (·.inst)

/-- A store becomes the last posted one, its packet on the core's link (R19, R21, R78). -/
def Core.posts (x : Core) (key : Nat) (a : W36) (vs : List W36) (point : Option (BitVec 5)) : Core :=
  { x.sends key .store a vs with stores := x.stores ++ [⟨a, vs, point, x.inSecure, x.instance?⟩] }

/-- A store posted: a fifth waits until an entry of the buffer, and with it a response slot, is free (R24, R78). -/
def State.post (s : State) (c : CoreId) (a : W36) (vs : List W36) (point : Option (BitVec 5)) : Out :=
  s.afterDrains c ((s.at c).stores.length + 1 - storeSlots) fun t =>
    (t.mapCore c fun x => x.posts (coreKey c) a vs point).fin c 1

/-- A store of whole words (R81, R82, R154). -/
def State.store (s : State) (c : CoreId) (a : W36) (vs : List W36) : Out :=
  match s.storeSpace c a vs.length with
  | none => s.storeFault c a vs.length
  | some sp => s.watch c 2 a vs.length fun t =>
    match sp with
    | .ls => (t.mapCore c fun x => x.storeLs a.toNat vs).fin c 1
    | _ => t.post c a vs none

/-! Loads -/

/-- A Hearth word as a core's load finds it: a sandbox reads its copy, the Tender its pending writes (R78, R119, R472). -/
def State.hearthLoad (s : State) (c : CoreId) (a : Nat) : W36 :=
  match c with
  | .engine e =>
    if s.inSandbox e.val then match s.sandboxAddr a with | some x => s.dramWord x | none => 0 else s.hearthWord a
  | .tender => if isCurAddr a then (s.pendingInject (imageWord a)).getD (s.hearthWord a) else s.hearthWord a

/-- The copy that a core's load takes fails its check (R132). -/
def State.hearthBad (s : State) (c : CoreId) (a : Nat) : Bool :=
  match c with
  | .engine e => if s.inSandbox e.val then (match s.sandboxAddr a with | some x => s.dramBad.contains x | none => false) else s.addrFails a
  | .tender => s.addrFails a && !(isCurAddr a && (s.pendingInject (imageWord a)).isSome)

/-- The value of the latest posted whole-word store to an address (R78); a register is read at its page (R8). -/
def Core.forwarded (x : Core) (sp : Space) (a : Nat) : Option W36 :=
  if sp = .page then none
  else (x.stores.reverse.find? fun st => st.has a).bind fun st => st.vals[a - st.addr.toNat]?

/-- What a load finds at one address, with the effect of the read (R78, R378). -/
def State.loadWord (s : State) (c : CoreId) (sp : Space) (a : Nat) : W36 × Bool × State :=
  match (s.at c).forwarded sp a with
  | some v => (v, false, s)
  | none =>
    match sp with
    | .ls => (s.lsRead (coreKey c) a, (s.at c).lsBad.contains a, s)
    | .hearth => (s.hearthLoad c a, s.hearthBad c a, s)
    | .page =>
      let (v, t) := s.readReg (!isEngine c && (s.at c).inSecure) (pageOf a) (offOf a)
      (BitVec.ofNat 36 v, false, t)
    | .dram => (s.dramWord a, s.dramBad.contains a, s)

/-- What a load finds from `a` on. -/
def State.loadWords (s : State) (c : CoreId) (sp : Space) (a n : Nat) : List W36 × Bool × State :=
  match n with
  | 0 => ([], false, s)
  | k + 1 =>
    let (v, b, t) := s.loadWord c sp a
    let (vs, bs, u) := t.loadWords c sp (a + 1) k
    (v :: vs, b || bs, u)

/-- The old values that the load-delay slot sees (R74). -/
def Core.slotOf (x : Core) (dests : List Reg) : List (Reg × W36) := (dests.filter fun r => r ≠ 0).map fun r => (r, x.reg r)

/-- A load becomes the last outstanding one, its packet on the core's link (R19, R21, R75). -/
def Core.awaits (x : Core) (key : Nat) (l : Load) : Core :=
  { x.sends key .load l.addr [] with loads := x.loads ++ [l] }

/-- A load outstanding: a fifth waits until the oldest has returned and freed its response slot (R24, R75). -/
def State.outstand (s : State) (c : CoreId) (l : Load) : Out :=
  match s.land c ((s.at c).loads.length + 1 - loadSlots) (s.at c).loads with
  | (some t, u) => .trap u t
  | (none, u) =>
    let old := (u.at c).slotOf (l.dests.map (·.1))
    .done (u.mapCore c fun x => x.awaits (coreKey c) l) (wordAt (u.at c).pc 1) (some old)

/-- The load at the pc of a core, of the words found at `a`. -/
def Core.loadAt (x : Core) (a : W36) (covers : List Nat) (ds : List (Reg × W36)) (bad : Bool) : Load :=
  ⟨x.pc, ds, a, covers, bad, x.afterLoad, 0⟩

/-- The data of a load at once, from local store (R73, R74). -/
def State.loadNow (s : State) (c : CoreId) (ds : List (Reg × W36)) : Out :=
  let old := (s.at c).slotOf (ds.map (·.1))
  .done (s.mapCore c fun x => x.setRegs ds) (wordAt (s.at c).pc 1) (some old)

/-- The posted stores that must complete before a load: point writes of the words, and register writes (R78, R162). -/
def Store.blocks (sp : Space) (a n : Nat) (st : Store) : Bool :=
  match sp with
  | .page => isPage st.addr.toNat
  | .hearth => st.point.isSome && (List.range n).any fun i => st.has (a + i)
  | _ => false

/-- A load of the words at `a` into the registers `dests` (R81, R82, R154-R156). -/
def State.load (s : State) (c : CoreId) (a : W36) (dests : List Reg) : Out :=
  let n := dests.length
  match s.loadSpace c a n with
  | none => s.loadFault c a n
  | some sp => s.watch c 1 a n fun t =>
    t.afterThese c (Store.blocks sp a.toNat n) fun u =>
      let (vs, b, w) := u.loadWords c sp a.toNat n
      if sp = .ls then
        if b then .trap w ((w.at c).loadAt a [a.toNat] [] true).trap else w.loadNow c (dests.zip vs)
      else w.outstand c ((w.at c).loadAt a ((List.range n).map (a.toNat + ·)) (dests.zip vs) b)

/-! Format B -/

/-- What a read of format B takes: the addressed word, its previous value, or both (R158, R159). -/
inductive View where
  | word
  | prev
  | both
  deriving DecidableEq, Repr

/-- The addresses that a read of format B at `a` covers. -/
def View.covers (v : View) (a : Nat) : List Nat :=
  match v with
  | .word => [a]
  | .prev => [prevAddr a]
  | .both => [a, prevAddr a]

/-- A copy that a read of format B takes fails its check (R132). -/
def State.viewBad (s : State) (c : CoreId) (v : View) (a : W36) : Bool := (v.covers a.toNat).any (s.hearthBad c)

/-- The address of a read of format B is allowed (R158): an image word, and a current view where the previous value is
read. -/
def State.viewOk (s : State) (c : CoreId) (v : View) (a : W36) : Bool :=
  (if v = .word then (imageWordOf a.toNat).isSome else isCurAddr a.toNat) && decide (s.loadSpace c a 1 = some .hearth)

/-- A read of an image word by an engine, current and previous from one access (R130, R158, R159, R162). -/
def State.imageLoad (s : State) (c : CoreId) (v : View) (a : W36) (d : Reg) (f : W36 → W36 → W36) : Out :=
  if !s.viewOk c v a then s.loadFault c a 1
  else
    s.watch c 1 a 1 fun t =>
      t.afterThese c (fun st => st.has a.toNat) fun u =>
        let prev := if v = .word then 0 else u.hearthLoad c (prevAddr a.toNat)
        u.outstand c ((u.at c).loadAt a (v.covers a.toNat) [(d, f (u.hearthLoad c a.toNat) prev)] (u.viewBad c v a))

/-- A point write (R158, R160): the operand's value decides the point, its quality is written. -/
def State.pointStore (s : State) (c : CoreId) (a : W36) (bit : BitVec 5) (v : W36) : Out :=
  if s.storeSpace c a 1 ≠ some .hearth then s.storeFault c a 1
  else s.watch c 2 a 1 fun t => t.post c a [v] (some bit)

end Sys2Proof.Machine
end

