-- ==== Sys2Proof/Machine/Float.lean ====
section
/-! DEFINITION. binary32 arithmetic (R163-R167, R175): exact integer arithmetic, one rounding to nearest with ties to even,
and results below 2^-126 flushed to a signed zero. -/

namespace Sys2Proof.Machine

/-- What a binary32 value is: NaN, an infinity, or a number with its sign, a significand and a power of 2; a subnormal
operand is a zero of its sign (R165). -/
inductive Flt where
  | nan
  | inf (neg : Bool)
  | num (neg : Bool) (m : Nat) (e : Int)
  deriving DecidableEq, Repr

/-- The single NaN encoding (R166). -/
def fltNan : Nat := 0x7FC00000

/-- An infinity. -/
def fltInf (neg : Bool) : Nat := if neg then 0xFF800000 else 0x7F800000

/-- A zero. -/
def fltZero (neg : Bool) : Nat := if neg then 0x80000000 else 0

/-- A value read as binary32. -/
def fltOf (v : Nat) : Flt :=
  let neg := v.testBit 31
  let e := bitsOf v 23 8
  let m := bitsOf v 0 23
  if e = 255 then (if m = 0 then .inf neg else .nan)
  else if e = 0 then .num neg 0 0
  else .num neg (m + 2 ^ 23) ((e : Int) - 150)

/-- The number of bits of `m` where it has at most `fuel`. -/
def bitLenOf (fuel m : Nat) : Nat :=
  match fuel with
  | 0 => 0
  | k + 1 => if m = 0 then 0 else bitLenOf k (m / 2) + 1

/-- The number of bits of a significand, at most 320. -/
def bitLen (m : Nat) : Nat := bitLenOf 320 m

/-- The largest `r` with r * r ≤ m, for m below 2^64. -/
def isqrt (m : Nat) : Nat :=
  (List.range 32).foldl (fun r i => if (r + 2 ^ (31 - i)) * (r + 2 ^ (31 - i)) ≤ m then r + 2 ^ (31 - i) else r) 0

/-- `m` divided by 2^n, rounded to nearest with ties to even; `sticky` says that something more lies below. -/
def roundShift (m n : Nat) (sticky : Bool) : Nat :=
  if n = 0 then m
  else
    let q := m / 2 ^ n
    let r := m % 2 ^ n
    let half := 2 ^ (n - 1)
    if half < r ∨ (r = half ∧ (sticky ∨ q % 2 = 1)) then q + 1 else q

/-- The binary32 result of a number m * 2^e: rounded, an infinity with V cleared on overflow, a zero of its sign below
2^-126 (R164-R166, R175). The rounding before that test is to 24 significant bits whatever the exponent: the spec says "after
rounding" and not on which grid (DESIGN CHOICE, log 67). -/
def fltPack (neg : Bool) (m : Nat) (e : Int) (sticky : Bool) : Computed :=
  if m = 0 then good (fltZero neg)
  else
    let n := bitLen m
    let q := if n ≤ 24 then m * 2 ^ (24 - n) else roundShift m (n - 24) sticky
    let (q, x) := if q = 2 ^ 24 then (2 ^ 23, e + (n : Int)) else (q, e + (n : Int) - 1)
    if 127 < x then bad (fltInf neg)
    else if x < -126 then good (fltZero neg)
    else good ((if neg then 2 ^ 31 else 0) + (x + 127).toNat * 2 ^ 23 + (q - 2 ^ 23))

/-- A signed significand. -/
def signedM (neg : Bool) (m : Nat) : Int := if neg then -(m : Int) else (m : Int)

/-- The sum of two binary32 values (R163, R175). -/
def fltAdd (x y : Flt) : Computed :=
  match x, y with
  | .nan, _ => bad fltNan
  | _, .nan => bad fltNan
  | .inf a, .inf b => if a = b then bad (fltInf a) else bad fltNan
  | .inf a, .num .. => bad (fltInf a)
  | .num .., .inf b => bad (fltInf b)
  | .num a m e, .num b n f =>
    if m = 0 ∧ n = 0 then good (fltZero (a && b))
    else if m = 0 then fltPack b n f false
    else if n = 0 then fltPack a m e false
    else
      let g := min e f
      let s := signedM a (m * 2 ^ (e - g).toNat) + signedM b (n * 2 ^ (f - g).toNat)
      if s = 0 then good (fltZero false) else fltPack (decide (s < 0)) s.natAbs g false

/-- The negation of a binary32 value. -/
def fltNeg (x : Flt) : Flt :=
  match x with
  | .nan => .nan
  | .inf a => .inf !a
  | .num a m e => .num (!a) m e

/-- The product (R163, R175). -/
def fltMul (x y : Flt) : Computed :=
  match x, y with
  | .nan, _ => bad fltNan
  | _, .nan => bad fltNan
  | .inf a, .inf b => bad (fltInf (a != b))
  | .inf a, .num b n _ => if n = 0 then bad fltNan else bad (fltInf (a != b))
  | .num a m _, .inf b => if m = 0 then bad fltNan else bad (fltInf (a != b))
  | .num a m e, .num b n f => fltPack (a != b) (m * n) (e + f) false

/-- The quotient (R163, R175). -/
def fltDiv (x y : Flt) : Computed :=
  match x, y with
  | .nan, _ => bad fltNan
  | _, .nan => bad fltNan
  | .inf _, .inf _ => bad fltNan
  | .inf a, .num b _ _ => bad (fltInf (a != b))
  | .num a _ _, .inf b => good (fltZero (a != b))
  | .num a m e, .num b n f =>
    if n = 0 then (if m = 0 then bad fltNan else bad (fltInf (a != b)))
    else fltPack (a != b) (m * 2 ^ 30 / n) (e - f - 30) (decide (m * 2 ^ 30 % n ≠ 0))

/-- The square root (R163, R175). -/
def fltSqrt (x : Flt) : Computed :=
  match x with
  | .nan => bad fltNan
  | .inf a => if a then bad fltNan else bad (fltInf false)
  | .num a m e =>
    if m = 0 then good (fltZero a)
    else if a then bad fltNan
    else
      let odd := decide (e % 2 ≠ 0)
      let w := m * 2 ^ (if odd then 31 else 30)
      let f := (e - (if odd then 31 else 30)) / 2
      fltPack false (isqrt w) f (decide (isqrt w * isqrt w ≠ w))

/-- The encoding of an operand passed on: a subnormal as zero, an infinity or NaN with V cleared (R165, R166). -/
def fltPass (x : Flt) : Computed :=
  match x with
  | .nan => bad fltNan
  | .inf a => bad (fltInf a)
  | .num a m e => fltPack a m e false

/-- x < y for values that are not NaN; `zeros` says that −0 is below +0. -/
def fltLt (zeros : Bool) (x y : Flt) : Bool :=
  match x, y with
  | .nan, _ => false
  | _, .nan => false
  | .inf a, .inf b => a && !b
  | .inf a, .num .. => a
  | .num .., .inf b => !b
  | .num a m e, .num b n f =>
    let g := min e f
    let u := signedM a (m * 2 ^ (e - g).toNat)
    let v := signedM b (n * 2 ^ (f - g).toNat)
    decide (u < v) || (zeros && decide (m = 0) && decide (n = 0) && a && !b)

/-- A value is NaN. -/
def Flt.isNan (x : Flt) : Bool := decide (x = .nan)

/-- A float compare; NaN gives 0 with V cleared (R153, R167, R175). -/
def fltTest (x y : Flt) (t : Bool) : Computed := if x.isNan || y.isNan then bad 0 else truth t

/-- FADD (R163). -/
def vFadd (a b : W36) : Computed := fltAdd (fltOf (val a)) (fltOf (val b))
/-- FSUB (R163). -/
def vFsub (a b : W36) : Computed := fltAdd (fltOf (val a)) (fltNeg (fltOf (val b)))
/-- FMUL (R163). -/
def vFmul (a b : W36) : Computed := fltMul (fltOf (val a)) (fltOf (val b))
/-- FDIV (R163). -/
def vFdiv (a b : W36) : Computed := fltDiv (fltOf (val a)) (fltOf (val b))
/-- FSQRT (R163). -/
def vFsqrt (a : W36) : Computed := fltSqrt (fltOf (val a))
/-- FMIN (R163, R175). -/
def vFmin (a b : W36) : Computed :=
  let x := fltOf (val a)
  let y := fltOf (val b)
  if x.isNan || y.isNan then bad fltNan else if fltLt true y x then fltPass y else fltPass x
/-- FMAX (R163, R175). -/
def vFmax (a b : W36) : Computed :=
  let x := fltOf (val a)
  let y := fltOf (val b)
  if x.isNan || y.isNan then bad fltNan else if fltLt true x y then fltPass y else fltPass x
/-- FABS (R163). -/
def vFabs (a : W36) : Computed := fltPass (match fltOf (val a) with | .num _ m e => .num false m e | .inf _ => .inf false | .nan => .nan)
/-- FNEG (R163). -/
def vFneg (a : W36) : Computed := fltPass (fltNeg (fltOf (val a)))
/-- FCVTIF (R163). -/
def vFcvtif (a : W36) : Computed := fltPack (decide (sval a < 0)) (sval a).natAbs 0 false
/-- FCVTFI (R163, R175): toward zero, or to nearest with ties to even. -/
def vFcvtfi (near : Bool) (a : W36) : Computed :=
  match fltOf (val a) with
  | .nan => bad 0
  | .inf neg => bad (if neg then 0x80000000 else 0x7FFFFFFF)
  | .num neg m e =>
    let n := if 0 ≤ e then m * 2 ^ e.toNat
      else if near then roundShift m (-e).toNat false else m / 2 ^ (-e).toNat
    let v := signedM neg n
    if (2 ^ 31 : Int) ≤ v then bad 0x7FFFFFFF
    else if v < -(2 ^ 31 : Int) then bad 0x80000000
    else good (twos 32 v)
/-- FCEQ (R153). -/
def vFceq (a b : W36) : Computed :=
  let x := fltOf (val a)
  let y := fltOf (val b)
  fltTest x y (!fltLt false x y && !fltLt false y x)
/-- FCLT (R153). -/
def vFclt (a b : W36) : Computed := fltTest (fltOf (val a)) (fltOf (val b)) (fltLt false (fltOf (val a)) (fltOf (val b)))
/-- FCLE (R153). -/
def vFcle (a b : W36) : Computed := fltTest (fltOf (val a)) (fltOf (val b)) (!fltLt false (fltOf (val b)) (fltOf (val a)))

end Sys2Proof.Machine
end

