-- ==== Sys2Proof/Machine/Alu.lean ====
section
/-! DEFINITION. The integer, address, compare, float and quality instructions (R147-R153, R163, R171, R175) over one
operation that computes registers from registers. -/

namespace Sys2Proof.Machine

/-! Operand forms -/

/-- Two sources read as quality words, x = 0 (R147). -/
def opQ2 (f : W36 → W36 → Computed) (o : OpA) : Op := fun s c =>
  if o.x ≠ 0 then s.illegal c
  else s.compute c 1 [o.a, o.b] [o.d] fun x => [(o.d, (f (x.seeQ o.a) (x.seeQ o.b)).word [x.seeQ o.a, x.seeQ o.b])]

/-- Two sources, x[11:1] unused and x[0] naming the instruction (R147). -/
def opQ2x (sub : Nat) (f : W36 → W36 → Computed) (o : OpA) : Op := fun s c =>
  if o.x.toNat ≠ sub then s.illegal c
  else s.compute c 1 [o.a, o.b] [o.d] fun x => [(o.d, (f (x.seeQ o.a) (x.seeQ o.b)).word [x.seeQ o.a, x.seeQ o.b])]

/-- One source read as a quality word, b = 0 and x = 0 (R147, R163). -/
def opQ1 (f : W36 → Computed) (o : OpA) : Op := fun s c =>
  if o.b ≠ 0 ∨ o.x ≠ 0 then s.illegal c
  else s.compute c 1 [o.a] [o.d] fun x => [(o.d, (f (x.seeQ o.a)).word [x.seeQ o.a])]

/-- A source and a sign-extended literal, as quality words (R68, R147). -/
def opQI (f : W36 → W36 → Computed) (o : OpI) : Op := fun s c =>
  s.compute c 1 [o.a] [o.d] fun x => [(o.d, (f (x.seeQ o.a) (immQ o.imm)).word [x.seeQ o.a, immQ o.imm])]

/-- The encoding of a shift amount is allowed (R148). -/
def shiftOk (o : OpA) : Bool :=
  if o.x.toNat.testBit 12 then decide (o.b = 0) && decide (bitsOf o.x.toNat 5 7 = 0) else decide (bitsOf o.x.toNat 0 12 = 0)

/-- The amount of a shift is a literal (R148). -/
def shiftLit (o : OpA) : Bool := o.x.toNat.testBit 12

/-- The amount of a shift as a quality word (R148). -/
def Core.amount (x : Core) (o : OpA) : W36 := if shiftLit o then litQ (o.x.toNat % 32) else x.seeQ o.b

/-- The registers that a shift reads. -/
def shiftSrcs (o : OpA) : List Reg := if shiftLit o then [o.a] else [o.a, o.b]

/-- A shift of a quality word (R147, R148). -/
def opShift (f : W36 → W36 → Computed) (o : OpA) : Op := fun s c =>
  if !shiftOk o then s.illegal c
  else s.compute c 1 (shiftSrcs o) [o.d] fun x => [(o.d, (f (x.seeQ o.a) (x.amount o)).word [x.seeQ o.a, x.amount o])]

/-- A register number is even (R150). -/
def even (r : Reg) : Bool := decide (r.toNat % 2 = 0)

/-- The second register of a pair (R150). -/
def mate (r : Reg) : Reg := r + 1

/-- The 64-bit number of a register pair, as an instruction sees it (R150). -/
def Core.pair (x : Core) (r : Reg) : Nat := pairVal (x.seeQ r) (x.seeQ (mate r))

/-- A pair operation: both halves take the merged quality (R150). -/
def opPair (f : Nat → Nat → Nat) (o : OpA) : Op := fun s c =>
  if o.x ≠ 0 ∨ !even o.d ∨ !even o.a ∨ !even o.b then s.illegal c
  else s.compute c 1 [o.a, mate o.a, o.b, mate o.b] [o.d, mate o.d] fun x =>
    let v := f (x.pair o.a) (x.pair o.b)
    let q := mergeWs [x.seeQ o.a, x.seeQ (mate o.a), x.seeQ o.b, x.seeQ (mate o.b)]
    [(o.d, qw v q), (mate o.d, qw (v / 2 ^ 32) q)]

/-- A plain-word instruction of two sources, x = 0 (R152). -/
def opP2 (f : W36 → W36 → W36) (o : OpA) : Op := fun s c =>
  if o.x ≠ 0 then s.illegal c
  else s.compute c 1 [o.a, o.b] [o.d] fun x => [(o.d, f (x.see o.a) (x.see o.b))]

/-- A quality instruction of two sources, x = 0, that gives the whole word (R171). -/
def opW2 (f : W36 → W36 → W36) (o : OpA) : Op := fun s c =>
  if o.x ≠ 0 then s.illegal c
  else s.compute c 1 [o.a, o.b] [o.d] fun x => [(o.d, f (x.seeQ o.a) (x.seeQ o.b))]

/-- A quality instruction of one source, b = 0 and x = 0, that gives the whole word (R171). -/
def opW1 (f : W36 → W36) (o : OpA) : Op := fun s c =>
  if o.b ≠ 0 ∨ o.x ≠ 0 then s.illegal c
  else s.compute c 1 [o.a] [o.d] fun x => [(o.d, f (x.seeQ o.a))]

/-- A quality instruction with an immediate of four bits, imm18[17:4] = 0 (R171). -/
def opWI (f : W36 → Nat → W36) (o : OpI) : Op := fun s c =>
  if 16 ≤ o.imm.toNat then s.illegal c
  else s.compute c 1 [o.a] [o.d] fun x => [(o.d, f (x.seeQ o.a) o.imm.toNat)]

/-- A literal of format L written to a register, a = 0 and imm18 = 0 (R70). -/
def opLit (f : W36 → W36) (o : OpL) : Op := fun s c =>
  if o.a ≠ 0 ∨ o.imm ≠ 0 then s.illegal c
  else s.compute c 2 [] [o.d] fun _ => [(o.d, f o.lit)]

/-! Integer instructions -/

/-- The action of ADD (R147). -/
def opAdd (o : OpA) : Op := opQ2 vAdd o
/-- ADD (R147). -/
def execAdd (c : CoreId) (o : OpA) (s : State) : Result := .next (s.runOp c 1 (opAdd o))
/-- The action of ADDI (R147). -/
def opAddi (o : OpI) : Op := opQI vAdd o
/-- ADDI (R147). -/
def execAddi (c : CoreId) (o : OpI) (s : State) : Result := .next (s.runOp c 1 (opAddi o))
/-- The action of SUB (R147). -/
def opSub (o : OpA) : Op := opQ2 vSub o
/-- SUB (R147). -/
def execSub (c : CoreId) (o : OpA) (s : State) : Result := .next (s.runOp c 1 (opSub o))
/-- The action of ADDS (R147). -/
def opAdds (o : OpA) : Op := opQ2 vAdds o
/-- ADDS (R147). -/
def execAdds (c : CoreId) (o : OpA) (s : State) : Result := .next (s.runOp c 1 (opAdds o))
/-- The action of SUBS (R147). -/
def opSubs (o : OpA) : Op := opQ2 vSubs o
/-- SUBS (R147). -/
def execSubs (c : CoreId) (o : OpA) (s : State) : Result := .next (s.runOp c 1 (opSubs o))
/-- The action of MUL (R147). -/
def opMul (o : OpA) : Op := opQ2 vMul o
/-- MUL (R147). -/
def execMul (c : CoreId) (o : OpA) (s : State) : Result := .next (s.runOp c 1 (opMul o))
/-- The action of MULH (R147). -/
def opMulh (o : OpA) : Op := opQ2x 0 vMulh o
/-- MULH (R147). -/
def execMulh (c : CoreId) (o : OpA) (s : State) : Result := .next (s.runOp c 1 (opMulh o))
/-- The action of MULHU (R147). -/
def opMulhu (o : OpA) : Op := opQ2x 1 vMulhu o
/-- MULHU (R147). -/
def execMulhu (c : CoreId) (o : OpA) (s : State) : Result := .next (s.runOp c 1 (opMulhu o))
/-- The action of DIV (R147, R175). -/
def opDiv (o : OpA) : Op := opQ2x 0 vDiv o
/-- DIV (R147, R175). -/
def execDiv (c : CoreId) (o : OpA) (s : State) : Result := .next (s.runOp c 1 (opDiv o))
/-- The action of DIVU (R147, R175). -/
def opDivu (o : OpA) : Op := opQ2x 1 vDivu o
/-- DIVU (R147, R175). -/
def execDivu (c : CoreId) (o : OpA) (s : State) : Result := .next (s.runOp c 1 (opDivu o))
/-- The action of REM (R147, R175). -/
def opRem (o : OpA) : Op := opQ2x 0 vRem o
/-- REM (R147, R175). -/
def execRem (c : CoreId) (o : OpA) (s : State) : Result := .next (s.runOp c 1 (opRem o))
/-- The action of REMU (R147, R175). -/
def opRemu (o : OpA) : Op := opQ2x 1 vRemu o
/-- REMU (R147, R175). -/
def execRemu (c : CoreId) (o : OpA) (s : State) : Result := .next (s.runOp c 1 (opRemu o))
/-- The action of AND (R147). -/
def opAnd (o : OpA) : Op := opQ2 vAnd o
/-- AND (R147). -/
def execAnd (c : CoreId) (o : OpA) (s : State) : Result := .next (s.runOp c 1 (opAnd o))
/-- The action of OR (R147). -/
def opOr (o : OpA) : Op := opQ2 vOr o
/-- OR (R147). -/
def execOr (c : CoreId) (o : OpA) (s : State) : Result := .next (s.runOp c 1 (opOr o))
/-- The action of XOR (R147). -/
def opXor (o : OpA) : Op := opQ2 vXor o
/-- XOR (R147). -/
def execXor (c : CoreId) (o : OpA) (s : State) : Result := .next (s.runOp c 1 (opXor o))
/-- The action of ANDI (R147). -/
def opAndi (o : OpI) : Op := opQI vAnd o
/-- ANDI (R147). -/
def execAndi (c : CoreId) (o : OpI) (s : State) : Result := .next (s.runOp c 1 (opAndi o))
/-- The action of ORI (R147). -/
def opOri (o : OpI) : Op := opQI vOr o
/-- ORI (R147). -/
def execOri (c : CoreId) (o : OpI) (s : State) : Result := .next (s.runOp c 1 (opOri o))
/-- The action of XORI (R147). -/
def opXori (o : OpI) : Op := opQI vXor o
/-- XORI (R147). -/
def execXori (c : CoreId) (o : OpI) (s : State) : Result := .next (s.runOp c 1 (opXori o))
/-- The action of SHL (R147, R148). -/
def opShl (o : OpA) : Op := opShift vShl o
/-- SHL (R147, R148). -/
def execShl (c : CoreId) (o : OpA) (s : State) : Result := .next (s.runOp c 1 (opShl o))
/-- The action of SHR (R147, R148). -/
def opShr (o : OpA) : Op := opShift vShr o
/-- SHR (R147, R148). -/
def execShr (c : CoreId) (o : OpA) (s : State) : Result := .next (s.runOp c 1 (opShr o))
/-- The action of SAR (R147, R148). -/
def opSar (o : OpA) : Op := opShift vSar o
/-- SAR (R147, R148). -/
def execSar (c : CoreId) (o : OpA) (s : State) : Result := .next (s.runOp c 1 (opSar o))
/-- The action of MIN (R147). -/
def opMin (o : OpA) : Op := opQ2 vMin o
/-- MIN (R147). -/
def execMin (c : CoreId) (o : OpA) (s : State) : Result := .next (s.runOp c 1 (opMin o))
/-- The action of MAX (R147). -/
def opMax (o : OpA) : Op := opQ2 vMax o
/-- MAX (R147). -/
def execMax (c : CoreId) (o : OpA) (s : State) : Result := .next (s.runOp c 1 (opMax o))
/-- The action of ADDP (R150). -/
def opAddp (o : OpA) : Op := opPair (fun p q => p + q) o
/-- ADDP (R150). -/
def execAddp (c : CoreId) (o : OpA) (s : State) : Result := .next (s.runOp c 1 (opAddp o))
/-- The action of SUBP (R150). -/
def opSubp (o : OpA) : Op := opPair (fun p q => p + 2 ^ 64 - q) o
/-- SUBP (R150). -/
def execSubp (c : CoreId) (o : OpA) (s : State) : Result := .next (s.runOp c 1 (opSubp o))
/-- The action of LIQ (R70, R147). -/
def opLiq (o : OpL) : Op := opLit (fun w => litQ (val w)) o
/-- LIQ (R70, R147). -/
def execLiq (c : CoreId) (o : OpL) (s : State) : Result := .next (s.runOp c 2 (opLiq o))
/-- The operand that SEL selects (R149). -/
def Core.selected (x : Core) (o : OpA) : Reg := if val (x.seeQ (BitVec.ofNat 5 o.x.toNat)) ≠ 0 then o.a else o.b

/-- The action of SEL (R147, R149): the operand that is not selected does not count. -/
def opSel (o : OpA) : Op := fun s c =>
  if 32 ≤ o.x.toNat then s.illegal c
  else s.compute c 1 [BitVec.ofNat 5 o.x.toNat, o.a, o.b] [o.d] fun x =>
    let w := x.seeQ (x.selected o)
    [(o.d, (good (val w)).word [x.seeQ (BitVec.ofNat 5 o.x.toNat), w])]
/-- SEL (R147, R149). -/
def execSel (c : CoreId) (o : OpA) (s : State) : Result := .next (s.runOp c 1 (opSel o))

/-! Address arithmetic and moves -/

/-- The action of MOV (R152). -/
def opMov (o : OpA) : Op := fun s c =>
  if o.b ≠ 0 ∨ o.x ≠ 0 then s.illegal c else s.compute c 1 [o.a] [o.d] fun x => [(o.d, x.see o.a)]
/-- MOV (R152). -/
def execMov (c : CoreId) (o : OpA) (s : State) : Result := .next (s.runOp c 1 (opMov o))
/-- The action of ADDA (R152). -/
def opAdda (o : OpI) : Op := fun s c => s.compute c 1 [o.a] [o.d] fun x => [(o.d, x.see o.a + immP o.imm)]
/-- ADDA (R152). -/
def execAdda (c : CoreId) (o : OpI) (s : State) : Result := .next (s.runOp c 1 (opAdda o))
/-- The action of ADDAR (R152). -/
def opAddar (o : OpA) : Op := opP2 (fun a b => a + b) o
/-- ADDAR (R152). -/
def execAddar (c : CoreId) (o : OpA) (s : State) : Result := .next (s.runOp c 1 (opAddar o))
/-- The action of SUBA (R152). -/
def opSuba (o : OpA) : Op := opP2 (fun a b => a - b) o
/-- SUBA (R152). -/
def execSuba (c : CoreId) (o : OpA) (s : State) : Result := .next (s.runOp c 1 (opSuba o))
/-- The action of LI (R70, R152). -/
def opLi (o : OpL) : Op := opLit (fun w => w) o
/-- LI (R70, R152). -/
def execLi (c : CoreId) (o : OpL) (s : State) : Result := .next (s.runOp c 2 (opLi o))
/-- The action of MOVP (R150, R152). -/
def opMovp (o : OpA) : Op := fun s c =>
  if o.b ≠ 0 ∨ o.x ≠ 0 ∨ !even o.d ∨ !even o.a then s.illegal c
  else s.compute c 1 [o.a, mate o.a] [o.d, mate o.d] fun x => [(o.d, x.see o.a), (mate o.d, x.see (mate o.a))]
/-- MOVP (R152). -/
def execMovp (c : CoreId) (o : OpA) (s : State) : Result := .next (s.runOp c 1 (opMovp o))
/-- The action of SHLA (R148, R152). -/
def opShla (o : OpA) : Op := fun s c =>
  if !shiftOk o then s.illegal c
  else s.compute c 1 (shiftSrcs o) [o.d] fun x => [(o.d, x.see o.a <<< (val (x.amount o) % 32))]
/-- SHLA (R152). -/
def execShla (c : CoreId) (o : OpA) (s : State) : Result := .next (s.runOp c 1 (opShla o))

/-! Compares -/

/-- The action of CEQ (R153). -/
def opCeq (o : OpA) : Op := opQ2 vCeq o
/-- CEQ (R153). -/
def execCeq (c : CoreId) (o : OpA) (s : State) : Result := .next (s.runOp c 1 (opCeq o))
/-- The action of CNE (R153). -/
def opCne (o : OpA) : Op := opQ2 vCne o
/-- CNE (R153). -/
def execCne (c : CoreId) (o : OpA) (s : State) : Result := .next (s.runOp c 1 (opCne o))
/-- The action of CLT (R153). -/
def opClt (o : OpA) : Op := opQ2 vClt o
/-- CLT (R153). -/
def execClt (c : CoreId) (o : OpA) (s : State) : Result := .next (s.runOp c 1 (opClt o))
/-- The action of CLE (R153). -/
def opCle (o : OpA) : Op := opQ2 vCle o
/-- CLE (R153). -/
def execCle (c : CoreId) (o : OpA) (s : State) : Result := .next (s.runOp c 1 (opCle o))
/-- The action of CLTU (R153). -/
def opCltu (o : OpA) : Op := opQ2 vCltu o
/-- CLTU (R153). -/
def execCltu (c : CoreId) (o : OpA) (s : State) : Result := .next (s.runOp c 1 (opCltu o))
/-- The action of CLEU (R153). -/
def opCleu (o : OpA) : Op := opQ2 vCleu o
/-- CLEU (R153). -/
def execCleu (c : CoreId) (o : OpA) (s : State) : Result := .next (s.runOp c 1 (opCleu o))
/-- The action of CEQI (R153). -/
def opCeqi (o : OpI) : Op := opQI vCeq o
/-- CEQI (R153). -/
def execCeqi (c : CoreId) (o : OpI) (s : State) : Result := .next (s.runOp c 1 (opCeqi o))
/-- The action of CLTI (R153). -/
def opClti (o : OpI) : Op := opQI vClt o
/-- CLTI (R153). -/
def execClti (c : CoreId) (o : OpI) (s : State) : Result := .next (s.runOp c 1 (opClti o))
/-- The action of CGTI (R153). -/
def opCgti (o : OpI) : Op := opQI vCgt o
/-- CGTI (R153). -/
def execCgti (c : CoreId) (o : OpI) (s : State) : Result := .next (s.runOp c 1 (opCgti o))
/-- The action of FCEQ (R153, R167). -/
def opFceq (o : OpA) : Op := opQ2 vFceq o
/-- FCEQ (R153, R167). -/
def execFceq (c : CoreId) (o : OpA) (s : State) : Result := .next (s.runOp c 1 (opFceq o))
/-- The action of FCLT (R153, R167). -/
def opFclt (o : OpA) : Op := opQ2 vFclt o
/-- FCLT (R153, R167). -/
def execFclt (c : CoreId) (o : OpA) (s : State) : Result := .next (s.runOp c 1 (opFclt o))
/-- The action of FCLE (R153, R167). -/
def opFcle (o : OpA) : Op := opQ2 vFcle o
/-- FCLE (R153, R167). -/
def execFcle (c : CoreId) (o : OpA) (s : State) : Result := .next (s.runOp c 1 (opFcle o))

/-! Float instructions -/

/-- The action of FADD (R163). -/
def opFadd (o : OpA) : Op := opQ2 vFadd o
/-- FADD (R163). -/
def execFadd (c : CoreId) (o : OpA) (s : State) : Result := .next (s.runOp c 1 (opFadd o))
/-- The action of FSUB (R163). -/
def opFsub (o : OpA) : Op := opQ2 vFsub o
/-- FSUB (R163). -/
def execFsub (c : CoreId) (o : OpA) (s : State) : Result := .next (s.runOp c 1 (opFsub o))
/-- The action of FMUL (R163). -/
def opFmul (o : OpA) : Op := opQ2 vFmul o
/-- FMUL (R163). -/
def execFmul (c : CoreId) (o : OpA) (s : State) : Result := .next (s.runOp c 1 (opFmul o))
/-- The action of FDIV (R163). -/
def opFdiv (o : OpA) : Op := opQ2 vFdiv o
/-- FDIV (R163). -/
def execFdiv (c : CoreId) (o : OpA) (s : State) : Result := .next (s.runOp c 1 (opFdiv o))
/-- The action of FSQRT (R163). -/
def opFsqrt (o : OpA) : Op := opQ1 vFsqrt o
/-- FSQRT (R163). -/
def execFsqrt (c : CoreId) (o : OpA) (s : State) : Result := .next (s.runOp c 1 (opFsqrt o))
/-- The action of FMIN (R163). -/
def opFmin (o : OpA) : Op := opQ2 vFmin o
/-- FMIN (R163). -/
def execFmin (c : CoreId) (o : OpA) (s : State) : Result := .next (s.runOp c 1 (opFmin o))
/-- The action of FMAX (R163). -/
def opFmax (o : OpA) : Op := opQ2 vFmax o
/-- FMAX (R163). -/
def execFmax (c : CoreId) (o : OpA) (s : State) : Result := .next (s.runOp c 1 (opFmax o))
/-- The action of FABS (R163). -/
def opFabs (o : OpA) : Op := opQ1 vFabs o
/-- FABS (R163). -/
def execFabs (c : CoreId) (o : OpA) (s : State) : Result := .next (s.runOp c 1 (opFabs o))
/-- The action of FNEG (R163). -/
def opFneg (o : OpA) : Op := opQ1 vFneg o
/-- FNEG (R163). -/
def execFneg (c : CoreId) (o : OpA) (s : State) : Result := .next (s.runOp c 1 (opFneg o))
/-- The action of FCVTIF (R163). -/
def opFcvtif (o : OpA) : Op := opQ1 vFcvtif o
/-- FCVTIF (R163). -/
def execFcvtif (c : CoreId) (o : OpA) (s : State) : Result := .next (s.runOp c 1 (opFcvtif o))
/-- The action of FCVTFI (R163): x[0] names the rounding. -/
def opFcvtfi (o : OpA) : Op := fun s c =>
  if o.b ≠ 0 ∨ 2 ≤ o.x.toNat then s.illegal c
  else s.compute c 1 [o.a] [o.d] fun x => [(o.d, (vFcvtfi (o.x.toNat.testBit 0) (x.seeQ o.a)).word [x.seeQ o.a])]
/-- FCVTFI (R163). -/
def execFcvtfi (c : CoreId) (o : OpA) (s : State) : Result := .next (s.runOp c 1 (opFcvtfi o))

/-! Quality instructions -/

/-- The action of QGET (R171). -/
def opQget (o : OpA) : Op := opW1 (fun a => litQ (qOf a)) o
/-- QGET (R171). -/
def execQget (c : CoreId) (o : OpA) (s : State) : Result := .next (s.runOp c 1 (opQget o))
/-- The action of QSET (R171). -/
def opQset (o : OpA) : Op := opW2 (fun a b => qw (val a) (val b)) o
/-- QSET (R171). -/
def execQset (c : CoreId) (o : OpA) (s : State) : Result := .next (s.runOp c 1 (opQset o))
/-- The action of QSETI (R171). -/
def opQseti (o : OpI) : Op := opWI (fun a i => qw (val a) i) o
/-- QSETI (R171). -/
def execQseti (c : CoreId) (o : OpI) (s : State) : Result := .next (s.runOp c 1 (opQseti o))
/-- The action of QORI (R171). -/
def opQori (o : OpI) : Op := opWI (fun a i => qw (val a) (qOf a ||| i)) o
/-- QORI (R171). -/
def execQori (c : CoreId) (o : OpI) (s : State) : Result := .next (s.runOp c 1 (opQori o))
/-- The action of QCLRI (R171). -/
def opQclri (o : OpI) : Op := opWI (fun a i => qw (val a) (qOf a &&& (15 - i))) o
/-- QCLRI (R171). -/
def execQclri (c : CoreId) (o : OpI) (s : State) : Result := .next (s.runOp c 1 (opQclri o))
/-- The action of QMRG (R171). -/
def opQmrg (o : OpA) : Op := opW2 (fun a b => qw (val a) (mergeQ (qOf a) (qOf b))) o
/-- QMRG (R171). -/
def execQmrg (c : CoreId) (o : OpA) (s : State) : Result := .next (s.runOp c 1 (opQmrg o))
/-- The action of QVAL (R171). -/
def opQval (o : OpA) : Op := opW1 (fun a => litQ (bit01 (qV (qOf a)))) o
/-- QVAL (R171). -/
def execQval (c : CoreId) (o : OpA) (s : State) : Result := .next (s.runOp c 1 (opQval o))
/-- The action of QGOOD (R171). -/
def opQgood (o : OpA) : Op := opW1 (fun a => litQ (bit01 (decide (qOf a = qLit)))) o
/-- QGOOD (R171). -/
def execQgood (c : CoreId) (o : OpA) (s : State) : Result := .next (s.runOp c 1 (opQgood o))
/-- The action of QSEL (R171). -/
def opQsel (o : OpA) : Op := opW2 (fun a b => if qV (qOf a) then a else b) o
/-- QSEL (R171). -/
def execQsel (c : CoreId) (o : OpA) (s : State) : Result := .next (s.runOp c 1 (opQsel o))

end Sys2Proof.Machine
end

