-- ==== Sys2Proof/Machine/LoadStore.lean ====
section
/-! DEFINITION. Loads and stores (R154-R157) and the image and bit group (R158-R162). -/

namespace Sys2Proof.Machine

/-! Load/store group -/

/-- The address of a form with an immediate (R154). -/
def Core.eaI (x : Core) (o : OpI) : W36 := x.see o.a + immP o.imm

/-- The address of an indexed form (R154). -/
def Core.eaX (x : Core) (o : OpA) : W36 := x.see o.a + x.see o.b

/-- The action of LDW (R154). -/
def opLdw (o : OpI) : Op := fun s c => s.interlock c [o.a] [o.d] fun t => t.load c ((t.at c).eaI o) [o.d]
/-- LDW (R154). -/
def execLdw (c : CoreId) (o : OpI) (s : State) : Result := .next (s.runOp c 1 (opLdw o))
/-- The action of STW (R154). -/
def opStw (o : OpI) : Op := fun s c => s.interlock c [o.a, o.d] [] fun t => t.store c ((t.at c).eaI o) [(t.at c).see o.d]
/-- STW (R154). -/
def execStw (c : CoreId) (o : OpI) (s : State) : Result := .next (s.runOp c 1 (opStw o))
/-- The action of LDP (R154). -/
def opLdp (o : OpI) : Op := fun s c =>
  if !even o.d then s.illegal c
  else s.interlock c [o.a] [o.d, mate o.d] fun t => t.load c ((t.at c).eaI o) [o.d, mate o.d]
/-- LDP (R154). -/
def execLdp (c : CoreId) (o : OpI) (s : State) : Result := .next (s.runOp c 1 (opLdp o))
/-- The action of STP (R154). -/
def opStp (o : OpI) : Op := fun s c =>
  if !even o.d then s.illegal c
  else s.interlock c [o.a, o.d, mate o.d] [] fun t =>
    t.store c ((t.at c).eaI o) [(t.at c).see o.d, (t.at c).see (mate o.d)]
/-- STP (R154). -/
def execStp (c : CoreId) (o : OpI) (s : State) : Result := .next (s.runOp c 1 (opStp o))
/-- The action of LDWX (R154). -/
def opLdwx (o : OpA) : Op := fun s c =>
  if o.x ≠ 0 then s.illegal c
  else s.interlock c [o.a, o.b] [o.d] fun t => t.load c ((t.at c).eaX o) [o.d]
/-- LDWX (R154). -/
def execLdwx (c : CoreId) (o : OpA) (s : State) : Result := .next (s.runOp c 1 (opLdwx o))
/-- The action of STWX (R154). -/
def opStwx (o : OpA) : Op := fun s c =>
  if o.x ≠ 0 then s.illegal c
  else s.interlock c [o.a, o.b, o.d] [] fun t => t.store c ((t.at c).eaX o) [(t.at c).see o.d]
/-- STWX (R154). -/
def execStwx (c : CoreId) (o : OpA) (s : State) : Result := .next (s.runOp c 1 (opStwx o))

/-! Image and bit group: engines only (R97) -/

/-- The address of a form with a point: off13 is unsigned (R158). -/
def Core.eaB (x : Core) (o : OpB) : W36 := x.see o.base + BitVec.ofNat 36 o.off.toNat

/-- A read of format B (R158, R159). -/
def opView (v : View) (f : W36 → W36 → W36) (o : OpB) : Op := fun s c =>
  if !isEngine c then s.illegal c
  else s.interlock c [o.base] [o.d] fun t => t.imageLoad c v ((t.at c).eaB o) o.d f

/-- Point `n` of a word as a truth value (R55). -/
def pointOf (w : W36) (n : BitVec 5) : Bool := (val w).testBit n.toNat

/-- The result of a read of both values of a word (R159). -/
def bothResult (r : Bool) (cur prev : W36) : W36 := qw (bit01 r) (mergeQ (qOf cur) (qOf prev))

/-- The action of LDB (R159). -/
def opLdb (o : OpB) : Op := opView .word (fun w _ => qw (bit01 (pointOf w o.bit)) (qOf w)) o
/-- LDB (R159). -/
def execLdb (c : CoreId) (o : OpB) (s : State) : Result := .next (s.runOp c 1 (opLdb o))
/-- The action of LDBP (R159). -/
def opLdbp (o : OpB) : Op := opView .prev (fun _ p => qw (bit01 (pointOf p o.bit)) (qOf p)) o
/-- LDBP (R159). -/
def execLdbp (c : CoreId) (o : OpB) (s : State) : Result := .next (s.runOp c 1 (opLdbp o))
/-- The action of REDGE (R159). -/
def opRedge (o : OpB) : Op := opView .both (fun w p => bothResult (pointOf w o.bit && !pointOf p o.bit) w p) o
/-- REDGE (R159). -/
def execRedge (c : CoreId) (o : OpB) (s : State) : Result := .next (s.runOp c 1 (opRedge o))
/-- The action of FEDGE (R159). -/
def opFedge (o : OpB) : Op := opView .both (fun w p => bothResult (!pointOf w o.bit && pointOf p o.bit) w p) o
/-- FEDGE (R159). -/
def execFedge (c : CoreId) (o : OpB) (s : State) : Result := .next (s.runOp c 1 (opFedge o))
/-- The action of CHGB (R159). -/
def opChgb (o : OpB) : Op := opView .both (fun w p => bothResult (pointOf w o.bit != pointOf p o.bit) w p) o
/-- CHGB (R159). -/
def execChgb (c : CoreId) (o : OpB) (s : State) : Result := .next (s.runOp c 1 (opChgb o))
/-- A point write with the operand `v` (R160). -/
def opPoint (v : Core → W36) (srcs : List Reg) (o : OpB) : Op := fun s c =>
  if !isEngine c then s.illegal c
  else s.interlock c (o.base :: srcs) [] fun t => t.pointStore c ((t.at c).eaB o) o.bit (v (t.at c))

/-- The action of STB (R160). -/
def opStb (o : OpB) : Op := opPoint (fun x => x.seeQ o.d) [o.d] o
/-- STB (R160). -/
def execStb (c : CoreId) (o : OpB) (s : State) : Result := .next (s.runOp c 1 (opStb o))
/-- The action of SETB (R159, R160). -/
def opSetb (o : OpB) : Op := fun s c =>
  if o.d ≠ 0 then s.illegal c else opPoint (fun _ => litQ 1) [] o s c
/-- SETB (R159, R160). -/
def execSetb (c : CoreId) (o : OpB) (s : State) : Result := .next (s.runOp c 1 (opSetb o))
/-- The action of CLRB (R159, R160). -/
def opClrb (o : OpB) : Op := fun s c =>
  if o.d ≠ 0 then s.illegal c else opPoint (fun _ => litQ 0) [] o s c
/-- CLRB (R159, R160). -/
def execClrb (c : CoreId) (o : OpB) (s : State) : Result := .next (s.runOp c 1 (opClrb o))
/-- The action of LDWP (R159). -/
def opLdwp (o : OpB) : Op := fun s c =>
  if o.bit ≠ 0 then s.illegal c else opView .prev (fun _ p => p) o s c
/-- LDWP (R159). -/
def execLdwp (c : CoreId) (o : OpB) (s : State) : Result := .next (s.runOp c 1 (opLdwp o))
/-- The action of CHGW (R159). -/
def opChgw (o : OpB) : Op := fun s c =>
  if o.bit ≠ 0 then s.illegal c else opView .both (fun w p => bothResult (decide (val w ≠ val p)) w p) o s c
/-- CHGW (R159). -/
def execChgw (c : CoreId) (o : OpB) (s : State) : Result := .next (s.runOp c 1 (opChgw o))
/-- An instruction of the group that works on registers (R159): engines only. -/
def engineOnly (k : Op) : Op := fun s c => if isEngine c then k s c else s.illegal c

/-- A register instruction with a point number in x[4:0] (R159). -/
def opBit (srcs : List Reg) (f : Core → W36) (o : OpA) : Op := engineOnly fun s c =>
  if 32 ≤ o.x.toNat then s.illegal c else s.compute c 1 srcs [o.d] fun x => [(o.d, f x)]

/-- The action of TSTB (R159). -/
def opTstb (o : OpA) : Op := fun s c =>
  if o.b ≠ 0 then s.illegal c
  else opBit [o.a] (fun x => qw (bit01 ((val (x.seeQ o.a)).testBit o.x.toNat)) (qOf (x.seeQ o.a))) o s c
/-- TSTB (R159). -/
def execTstb (c : CoreId) (o : OpA) (s : State) : Result := .next (s.runOp c 1 (opTstb o))
/-- The action of INSB (R159). -/
def opInsb (o : OpA) : Op := opBit [o.a, o.b] (fun x =>
  qw (withPoint (val (x.seeQ o.a)) o.x.toNat (val (x.seeQ o.b))) (mergeQ (qOf (x.seeQ o.a)) (qOf (x.seeQ o.b)))) o
/-- INSB (R159). -/
def execInsb (c : CoreId) (o : OpA) (s : State) : Result := .next (s.runOp c 1 (opInsb o))
/-- The action of POPC (R159). -/
def opPopc (o : OpA) : Op := engineOnly (opW1 (fun a => qw (popCount (val a)) (qOf a)) o)
/-- POPC (R159). -/
def execPopc (c : CoreId) (o : OpA) (s : State) : Result := .next (s.runOp c 1 (opPopc o))
/-- The action of FFS (R159). -/
def opFfs (o : OpA) : Op := engineOnly (opW1 (fun a => qw (firstSet (val a)) (qOf a)) o)
/-- FFS (R159). -/
def execFfs (c : CoreId) (o : OpA) (s : State) : Result := .next (s.runOp c 1 (opFfs o))

end Sys2Proof.Machine
end

