-- ==== Sys2Proof/Machine/Control.lean ====
section
/-! DEFINITION. Control transfer and block end (R85, R168-R170), the system group (R62, R83, R93, R143-R146, R493) and the
time and cycle group (R172, R173). -/

namespace Sys2Proof.Machine

/-- Every field of format A is zero (R67). -/
def zeroA (o : OpA) : Bool := decide (o.d = 0 ∧ o.a = 0 ∧ o.b = 0 ∧ o.x = 0)

/-- NOP's action (R67, R71). -/
def opNop (o : OpA) : Op := fun s c => if zeroA o then s.fin c 1 else s.illegal c
/-- NOP (R71). -/
def execNop (c : CoreId) (o : OpA) (s : State) : Result := .next (s.runOp c 1 (opNop o))

/-! Control transfer -/

/-- A relative target: displacement from the next instruction (R69, R168). -/
def State.relative (s : State) (c : CoreId) (disp : Int) : W36 := wordAt (s.at c).pc 1 + BitVec.ofNat 36 (twos 36 disp)

/-- The target of format J (R69). -/
def State.targetJ (s : State) (c : CoreId) (o : OpJ) : W36 := s.relative c (signed 28 o.disp.toNat)

/-- A transfer to an address. -/
def goTo (s : State) (a : W36) : Out := .done s a none

/-- The check of a CALL's push (R84). -/
def Core.callOk (x : Core) (sp : Nat) : Bool := decide (x.bank.stkLo.toNat + 3 ≤ sp) && decide (sp ≤ x.bank.stkHi.toNat)

/-- The check of a RET's pop (R84). -/
def Core.retOk (x : Core) (sp : Nat) : Bool := decide (x.bank.stkLo.toNat + 2 ≤ sp) && decide (sp + 1 ≤ x.bank.stkHi.toNat)

/-- The check of a RETE's pop (R84). -/
def Core.reteOk (x : Core) (sp : Nat) : Bool := decide (x.bank.stkLo.toNat ≤ sp) && decide (sp + 2 ≤ x.bank.stkHi.toNat)

/-- A call: the return address pushed, then the transfer (R84, R85, R169). A push outside the core's part of local store is a store
that is not allowed (R81, R82, R493). -/
def State.callTo (s : State) (c : CoreId) (target : W36) : Out :=
  let sp := (s.at c).see 31
  let top := sp + BitVec.ofInt 36 (-1)
  if !(s.at c).callOk sp.toNat then s.raiseTrap c 0x06 top
  else if !whole (s.lsWritable c) top 1 then s.storeFault c top 1
  else s.watch c 2 top 1 fun t =>
    goTo (t.mapCore c fun x => (x.setLs top.toNat (wordAt x.pc 1)).setReg 31 top) target

/-- The action of J (R168). -/
def opJump (o : OpJ) : Op := fun s c => goTo s (s.targetJ c o)
/-- J (R168). -/
def execJump (c : CoreId) (o : OpJ) (s : State) : Result := .next (s.runOp c 1 (opJump o))
/-- The action of CALL (R85, R168). -/
def opCall (o : OpJ) : Op := fun s c => s.interlock c [31] [31] fun t => t.callTo c (t.targetJ c o)
/-- CALL (R85, R168). -/
def execCall (c : CoreId) (o : OpJ) (s : State) : Result := .next (s.runOp c 1 (opCall o))
/-- A conditional branch: taken where `t` holds of the tested value (R54, R168). -/
def opBranch (t : Nat → Bool) (o : OpI) : Op := fun s c =>
  if o.d ≠ 0 then s.illegal c
  else s.interlock c [o.a] [] fun u =>
    if t (val ((u.at c).see o.a)) then goTo u (u.relative c (signed 18 o.imm.toNat)) else u.fin c 1
/-- The action of BZ (R168). -/
def opBz (o : OpI) : Op := opBranch (fun v => decide (v = 0)) o
/-- BZ (R168). -/
def execBz (c : CoreId) (o : OpI) (s : State) : Result := .next (s.runOp c 1 (opBz o))
/-- The action of BNZ (R168). -/
def opBnz (o : OpI) : Op := opBranch (fun v => decide (v ≠ 0)) o
/-- BNZ (R168). -/
def execBnz (c : CoreId) (o : OpI) (s : State) : Result := .next (s.runOp c 1 (opBnz o))
/-- The action of JR (R168). -/
def opJr (o : OpA) : Op := fun s c =>
  if o.d ≠ 0 ∨ o.b ≠ 0 ∨ o.x ≠ 0 then s.illegal c
  else s.interlock c [o.a] [] fun t => goTo t ((t.at c).see o.a)
/-- JR (R168). -/
def execJr (c : CoreId) (o : OpA) (s : State) : Result := .next (s.runOp c 1 (opJr o))
/-- The action of CALLR (R85, R168). -/
def opCallr (o : OpA) : Op := fun s c =>
  if o.d ≠ 0 ∨ o.b ≠ 0 ∨ o.x ≠ 0 then s.illegal c
  else s.interlock c [o.a, 31] [31] fun t => t.callTo c ((t.at c).see o.a)
/-- CALLR (R85, R168). -/
def execCallr (c : CoreId) (o : OpA) (s : State) : Result := .next (s.runOp c 1 (opCallr o))
/-- Words that an instruction pops from its stack: LOAD_ACCESS where the pop is not allowed (R81, R82, R493), UNCORRECTABLE where a
word fails its check (R87, R88). -/
def State.popWords (s : State) (c : CoreId) (a : W36) (n : Nat) (k : State → Out) : Out :=
  let bad := (List.range n).any fun i => (s.at c).lsBad.contains (a.toNat + i)
  if s.loadSpace c a n ≠ some .ls then s.loadFault c a n
  else s.watch c 1 a n fun t => if bad then .trap t ((t.at c).loadAt a [a.toNat] [] true).trap else k t

/-- The pop of RET (R84, R85). -/
def State.popReturn (s : State) (c : CoreId) : Out :=
  let sp := (s.at c).see 31
  if !(s.at c).retOk sp.toNat then s.raiseTrap c 0x07 sp
  else s.popWords c sp 1 fun t =>
    goTo (t.mapCore c fun x => x.setReg 31 (wordAt sp 1)) (t.lsRead (coreKey c) sp.toNat)

/-- The action of RET (R85, R168). -/
def opRet (o : OpA) : Op := fun s c =>
  if !zeroA o then s.illegal c else s.interlock c [31] [31] fun t => t.popReturn c
/-- RET (R85, R168). -/
def execRet (c : CoreId) (o : OpA) (s : State) : Result := .next (s.runOp c 1 (opRet o))
/-- Another instance of the running slice follows (R170, R199). R170's pseudocode compares w28, which a block may overwrite: the model
decides by the sequencer's own list of instances (DESIGN CHOICE, log 138). -/
def Core.moreInstances (x : Core) : Bool :=
  match x.run with
  | some r => !r.sandbox && (match r.work.insts with | some xs => decide (2 ≤ xs.length) | none => false)
  | none => false

/-- The end of a block, or of an instance, on an engine (R170): the next instance, which waits for no store of an earlier one,
the wait for the stores of all of them, or the end. -/
def State.endBlock (s : State) (e : Nat) : State :=
  let x := s.core e
  if x.moreInstances then s.blockEnd e
  else if x.stores.isEmpty then s.blockEnd e
  else s.setCore e { x with issue := .bendWait }

/-- BEND's action (R170); ILLEGAL on the Tender. -/
def opBend (o : OpA) : Op := fun s c =>
  match c with
  | .tender => s.illegal c
  | .engine e =>
    if !zeroA o then s.illegal c
    else
      match s.land c (s.at c).loads.length (s.at c).loads with
      | (some t, u) => .trap u t
      | (none, u) => let v := u.endBlock e.val; goTo v (v.at c).pc
/-- BEND (R170). -/
def execBend (c : CoreId) (o : OpA) (s : State) : Result := .next (s.runOp c 1 (opBend o))

/-! System group -/

/-- A core is privileged for the instructions of R96. -/
def State.privileged (s : State) (c : CoreId) : Bool := !isEngine c && (s.at c).priv

/-- A system register as SYS reads it (R62, R63). Registers that the table of R62 gives no read access (VBAR_S, VBAR_N, STK_LO_N,
STK_HI_N), and SP_N outside the secure world, read as zero: the spec states no value for them (DESIGN CHOICE, log 52). -/
def State.sysRead (s : State) (c : CoreId) (n : Nat) : W36 :=
  let x := s.at c
  let eng := isEngine c
  if n = 0x000 then (if eng then 0x10100 else 0x20100)
  else if n = 0x001 then (if eng then 0x17 else 0x13)
  else if n = 0x002 then 48
  else if n = 0x004 then x.psw
  else if n = 0x008 then (match c with | .engine e => BitVec.ofNat 36 e.val | .tender => 0x100)
  else if n = 0x009 then (match c, x.run with
    | .engine _, some r => BitVec.ofNat 36 r.work.logical
    | .engine e, none => BitVec.ofNat 36 (s.fld (Reg.fbxERoleLogical e.val))
    | .tender, _ => 0)
  else if n = 0x00A then (match c, x.run with
    | .engine _, some r => BitVec.ofNat 36 r.work.block
    | _, _ => 0)
  else if n = 0x010 then x.bank.stkLo
  else if n = 0x011 then x.bank.stkHi
  else if n = 0x012 ∨ (0x014 ≤ n ∧ n ≤ 0x01B) then (if eng then x.sysReg n else 0)
  else if 0x020 ≤ n ∧ n ≤ 0x025 then x.sysReg n
  else if n = 0x034 then (if !eng && x.inSecure then x.normal.w31 else 0)
  else 0

/-- The number of a system register and the unused bits above it (R143). -/
def sysNum (o : OpI) : Nat := o.imm.toNat

/-- SYS's action (R62, R143). -/
def opSys (o : OpI) : Op := fun s c =>
  if o.a ≠ 0 ∨ 0x400 ≤ sysNum o then s.illegal c
  else s.interlock c [] [o.d] fun t => (t.mapCore c fun x => x.setReg o.d (t.sysRead c (sysNum o))).fin c 1
/-- SYS (R143). -/
def execSys (c : CoreId) (o : OpI) (s : State) : Result := .next (s.runOp c 1 (opSys o))

/-- A system register that only the secure world writes (R62). -/
def secureSys (n : Nat) : Bool := decide (n = 0x010 ∨ n = 0x011 ∨ n = 0x030 ∨ n = 0x032 ∨ n = 0x033 ∨ n = 0x034)

/-- A stack window that SYSW may set: within local store, at least 16 words (R83). -/
def windowOk (lo hi : W36) : Bool := decide (lo.toNat + 16 ≤ hi.toNat) && decide (hi.toNat ≤ lsSize)

/-- The first word of the normal part of the Tender's local store (R493). -/
def State.split (s : State) : Nat := s.fld Reg.secLsSplitSplit * 0x1000

/-- No window has been set in the bank: both bounds are those of reset (R98). STK_HI_N must be written first then, while STK_LO_N still
is 0, and R493 judges the window once STK_LO_N follows (DEDUCED, log 137). -/
def Bank.noWindow (b : Bank) : Bool := decide (b.stkLo = 0) && decide (b.stkHi = 0)

/-- A system register of the Tender written; none where the write raises ILLEGAL (R61, R62, R83, R93, R493). -/
def State.sysWrite (s : State) (x : Core) (n : Nat) (v : W36) : Option Core :=
  if n = 0x004 then some ((x.setPswBit 0 (v.toNat.testBit 0)).setPswBit 2 (v.toNat.testBit 2))
  else if n = 0x010 then (if windowOk v x.bank.stkHi then some (x.setBank { x.bank with stkLo := v }) else none)
  else if n = 0x011 then (if windowOk x.bank.stkLo v then some (x.setBank { x.bank with stkHi := v }) else none)
  else if n = 0x030 then (if v.toNat % 128 = 0 then some (x.setSys 0x030 v) else none)
  else if n = 0x031 then
    (if v.toNat % 128 = 0 ∧ s.split ≤ v.toNat ∧ v.toNat < lsSize then some (x.setSys 0x031 v) else none)
  else if n = 0x032 then
    (if windowOk v x.normal.stkHi ∧ s.split ≤ v.toNat then some { x with normal := { x.normal with stkLo := v } } else none)
  else if n = 0x033 then
    (if windowOk x.normal.stkLo v ∧ s.split ≤ v.toNat ∧ (s.split ≤ x.normal.stkLo.toNat ∨ x.normal.noWindow = true) then some { x with normal := { x.normal with stkHi := v } } else none)
  else if n = 0x034 then some { x with normal := { x.normal with w31 := v } }
  else none

/-- SYSW's action (R62, R144): privilege first, then the fields that must be zero, then the checks of the register. The
register is the one that imm18[9:0] names. -/
def opSysw (o : OpI) : Op := fun s c =>
  if !s.privileged c || (!(s.at c).inSecure && secureSys (sysNum o % 0x400)) then s.privTrap c
  else if o.d ≠ 0 ∨ 0x400 ≤ sysNum o then s.illegal c
  else s.interlock c [o.a] [31] fun t =>
    match t.sysWrite (t.at c) (sysNum o) ((t.at c).see o.a) with
    | some x => (t.setCore (coreKey c) x).fin c 1
    | none => t.illegal c
/-- SYSW (R143, R144). -/
def execSysw (c : CoreId) (o : OpI) (s : State) : Result := .next (s.runOp c 1 (opSysw o))

/-- The fields of SVC and BRK that must be zero are (R143). -/
def callNumOk (o : OpI) : Bool := decide (o.d = 0 ∧ o.a = 0 ∧ o.imm.toNat < 0x10000)

/-- An exception whose frame holds the next pc (R92); LDS as R90 says, FADDR the pc (log 48). -/
def State.trapNext (s : State) (c : CoreId) (cause : Nat) : Out :=
  let pc := (s.at c).pc
  .trap s ⟨cause, wordAt pc 1, pc, pc, false, (s.at c).afterLoad⟩

/-- SVC's action (R87, R143): ILLEGAL on an engine. -/
def opSvc (o : OpI) : Op := fun s c => if isEngine c || !callNumOk o then s.illegal c else s.trapNext c 0x0C
/-- SVC (R143). -/
def execSvc (c : CoreId) (o : OpI) (s : State) : Result := .next (s.runOp c 1 (opSvc o))

/-- BRK's action (R87, R143, R145, R467): BRK_HALT halts the core where Poker may, and keeps the number for Poker. -/
def opBrk (o : OpI) : Op := fun s c =>
  if !callNumOk o then s.illegal c
  else if bitOf ((s.at c).dbgReg 0x22) 0 && (s.mayHalt c || !isEngine c) then
    ((s.mapCore c fun x => { x with brkNum := o.imm.toNat }).haltNow c 5).fin c 1
  else s.trapNext c 0x0B
/-- BRK (R143). -/
def execBrk (c : CoreId) (o : OpI) (s : State) : Result := .next (s.runOp c 1 (opBrk o))

/-- The PSW that RETE restores: PRIV, WORLD, IE, NMIACT and CAUSE of the frame (R61, R85, R95; log 46). -/
def frameView (w : W36) : W36 := BitVec.ofNat 36 (bitsOf w.toNat 0 4 + 0x180 + bitsOf w.toNat 17 8 * 2 ^ 17)

/-- The return from an exception: PSW and pc popped from the handler's stack (R84, R85). -/
def State.returnFrom (s : State) (c : CoreId) : Out :=
  let sp := (s.at c).see 31
  if !(s.at c).reteOk sp.toNat then s.raiseTrap c 0x07 sp
  else s.popWords c sp 2 fun t =>
    let psw := frameView (t.lsRead (coreKey c) sp.toNat)
    let pc := t.lsRead (coreKey c) (sp.toNat + 1)
    goTo (t.mapCore c fun x => { x.setReg 31 (wordAt sp 2) with psw := psw }) pc

/-- RETE's action (R85, R96). One with a field that is not zero and no privilege raises ILLEGAL: the spec gives no order
(DESIGN CHOICE, log 53). -/
def opRete (o : OpA) : Op := fun s c =>
  if !zeroA o then s.illegal c
  else if !s.privileged c then s.privTrap c
  else s.interlock c [31] [31] fun t => t.returnFrom c
/-- RETE (R85, R143). -/
def execRete (c : CoreId) (o : OpA) (s : State) : Result := .next (s.runOp c 1 (opRete o))

/-- WFI's action (R143, R146): issue stops until WFI_WAKE. ILLEGAL goes before PRIV, as in RETE (DESIGN CHOICE, log 53). -/
def opWfi (o : OpA) : Op := fun s c =>
  if !zeroA o then s.illegal c
  else if !s.privileged c then s.privTrap c
  else (s.mapCore c fun x => { x with issue := .wfiWait }).fin c 1
/-- WFI (R146). -/
def execWfi (c : CoreId) (o : OpA) (s : State) : Result := .next (s.runOp c 1 (opWfi o))

/-- FENCE's action (R143): issue stops while earlier stores are posted. -/
def opFence (o : OpA) : Op := fun s c =>
  if !zeroA o then s.illegal c
  else if (s.at c).stores.isEmpty then s.fin c 1
  else (s.mapCore c fun x => { x with issue := .fenceWait }).fin c 1
/-- FENCE (R143). -/
def execFence (c : CoreId) (o : OpA) (s : State) : Result := .next (s.runOp c 1 (opFence o))

/-! Time and cycle group -/

/-- A result of the group: every word carries Q = 0b1000 (R50, R172). -/
def opTime (o : OpA) (pair : Bool) (f : State → Nat × State) : Op := fun s c =>
  if pair && !even o.d then s.illegal c
  else s.interlock c [] (if pair then [o.d, mate o.d] else [o.d]) fun t =>
    let (v, u) := f t
    (u.mapCore c fun x => x.setRegs (if pair then [(o.d, litQ v), (mate o.d, litQ (v / 2 ^ 32))] else [(o.d, litQ v)])).fin c 1

/-- The class that x names; none where it raises ILLEGAL (R172). -/
def State.timeClass (s : State) (c : CoreId) (o : OpA) : Option Nat :=
  let k := if o.x.toNat = 3 then bitsOf (s.at c).psw.toNat 7 2 else o.x.toNat
  if o.a = 0 ∧ o.b = 0 ∧ k < 3 then some k else none

/-- A form that names no class (R172). -/
def timePlain (o : OpA) : Bool := decide (o.a = 0 ∧ o.b = 0 ∧ o.x = 0)

/-- A form that reads a value of a class (R172). -/
def opClass (o : OpA) (pair : Bool) (f : State → Nat → Nat) : Op := fun s c =>
  match s.timeClass c o with
  | none => s.illegal c
  | some k => opTime o pair (fun t => (f t k, t)) s c

/-- The system time of the boundary that started class `k`'s running cycle (R172, R219). -/
def State.boundTime (s : State) (k : Nat) : Nat := s.fld (Reg.blwClBoundLoBoundLo k) + 2 ^ 32 * s.fld (Reg.blwClBoundHiBoundHi k)

/-- The core's copy of system time, which lags Turnspit by 0 to 4 ns; without Turnspit the Bellows count itself (R173, log 45). -/
def State.coreTime (s : State) : Nat × State :=
  let (lag, t) := s.draw 5
  if s.turnspitOn then (s.now - lag, t) else (s.now, s)

/-- The action of RDTIME (R172, R173). -/
def opRdtime (o : OpA) : Op := fun s c => if timePlain o then opTime o true State.coreTime s c else s.illegal c
/-- RDTIME (R172, R173). -/
def execRdtime (c : CoreId) (o : OpA) (s : State) : Result := .next (s.runOp c 1 (opRdtime o))
/-- The action of RDBOUND (R172, R173). -/
def opRdbound (o : OpA) : Op := opClass o true State.boundTime
/-- RDBOUND (R172, R173). -/
def execRdbound (c : CoreId) (o : OpA) (s : State) : Result := .next (s.runOp c 1 (opRdbound o))
/-- The action of RDCYC (R172). -/
def opRdcyc (o : OpA) : Op := opClass o true State.cycle
/-- RDCYC (R172). -/
def execRdcyc (c : CoreId) (o : OpA) (s : State) : Result := .next (s.runOp c 1 (opRdcyc o))
/-- The action of RDPER (R172). -/
def opRdper (o : OpA) : Op := opClass o false State.periodUs
/-- RDPER (R172). -/
def execRdper (c : CoreId) (o : OpA) (s : State) : Result := .next (s.runOp c 1 (opRdper o))
/-- The action of RDFULL (R172). -/
def opRdfull (o : OpA) : Op := opClass o false fun s k => s.fld (Reg.blwClStatusFull k)
/-- RDFULL (R172). -/
def execRdfull (c : CoreId) (o : OpA) (s : State) : Result := .next (s.runOp c 1 (opRdfull o))
/-- Core cycles that RDCNT counts (R172, R210): an engine's from the entry of its block or instance, at 1.25 GHz, which is the
count that BUDGET uses; the Tender's since reset, at 1 GHz, without the ns in which its clock stood. Both follow the Bellows count of ns (log 1). -/
def State.coreCycles (s : State) (c : CoreId) : Nat :=
  match c with
  | .engine e => (s.bellows.ns - (s.core e.val).entryNs) * 5 / 4
  | .tender => s.bellows.ns - (s.core tenderKey).entryNs

/-- The action of RDCNT (R172). -/
def opRdcnt (o : OpA) : Op := fun s c =>
  if timePlain o then opTime o false (fun t => (t.coreCycles c, t)) s c else s.illegal c
/-- RDCNT (R172). -/
def execRdcnt (c : CoreId) (o : OpA) (s : State) : Result := .next (s.runOp c 1 (opRdcnt o))

end Sys2Proof.Machine
end

