-- ==== Sys2Proof/Machine/CoreCmd.lean ====
section
/-! DEFINITION. What befalls a core beside its instructions: unassigned opcodes (R71), returning loads and completing stores
(R25, R73, R75), waits that end (R143, R146), interrupts and the NMI (R89, R92, R95), the lockstep (R94), the budget (R210)
and a requested halt (R469). -/

namespace Sys2Proof.Machine

/-- The opcodes that the reference assigns (R71, R139). -/
def opAssigned (op : Nat) : Bool :=
  decide (0x01 ≤ op ∧ op ≤ 0x08) || decide (0x10 ≤ op ∧ op ≤ 0x2E) || decide (0x30 ≤ op ∧ op ≤ 0x3B) ||
    decide (0x40 ≤ op ∧ op ≤ 0x45) || decide (0x50 ≤ op ∧ op ≤ 0x5D) || decide (0x70 ≤ op ∧ op ≤ 0x7A) ||
    decide (0x80 ≤ op ∧ op ≤ 0x87) || decide (0x90 ≤ op ∧ op ≤ 0x98) || decide (0xA0 ≤ op ∧ op ≤ 0xA5)

/-- The opcode of an instruction word (R66). -/
def opcodeOf (w : W36) : Nat := w.toNat / 2 ^ 28

/-- ILLEGAL_OPCODE (R71): a word whose opcode is assigned is no such word, and nothing happens. -/
def execIllegalOpcode (c : CoreId) (w : W36) (s : State) : Result :=
  .next (if opAssigned (opcodeOf w) then s else s.runOp c 1 fun t d => t.illegal d)

/-! Loads that return and stores that complete -/

/-- DRAM words whose check fails from now on (R87, log 65). -/
def State.spoilDram (s : State) (as_ : List Nat) : State :=
  { s with dramBad := s.dramBad ++ as_.filter fun x => !s.dramBad.contains x }

/-- The DRAM word that a core's load of an address reads: itself, or in a sandbox its copy (R472); none where it lies elsewhere. -/
def State.dramOf (s : State) (c : CoreId) (a : Nat) : Option Nat :=
  if dramBase ≤ a then some a else if (s.at c).sandboxed then s.sandboxAddr a else none

/-- A load that returns uncorrectable data while its exception may still come, within 4 later instructions (R88). -/
def Load.spoiled (l : Load) (unc : Bool) : Bool := unc && decide (l.age ≤ 5)

/-- An outstanding load of a core returns, one that has been launched and is the first for its destination, where several are a
free choice (R21, R23); `unc` says that its data is uncorrectable (R73, R75, R87, R88). -/
def State.loadReturns (s : State) (c : CoreId) (unc : Bool) : State :=
  let (i, s0) := s.pick (s.loadNext (coreKey c))
  match i with
  | none => s0
  | some i => match (s0.at c).loads[i]? with
  | none => s0
  | some l =>
    let s1 := if l.spoiled unc then s0.spoilDram (l.covers.filterMap (s0.dramOf c)) else s0
    match s1.landOne c { l with bad := l.bad || l.spoiled unc } ((s1.at c).loads.eraseIdx i) with
    | (some t, u) => u.take c t
    | (none, u) => u

/-- LOAD_COMPLETE (R73). -/
def execLoadComplete (c : CoreId) (unc : Bool) (s : State) : Result := .next (s.loadReturns c unc)

/-- A block that waits at BEND ends once its last store is complete (R170). -/
def State.afterStore (s : State) (c : CoreId) : State :=
  match c with
  | .engine e => if (s.at c).issue = .bendWait ∧ (s.at c).stores = [] then s.blockEnd e.val else s
  | .tender => s

/-- A posted store of a core completes, where one has been launched and it need not wait (R21, R25, R78, R118). -/
def State.storeCompletes (s : State) (c : CoreId) : State :=
  if (s.storeNext (coreKey c)).isEmpty then s
  else match s.drain c with
  | some t => t.afterStore c
  | none => s

/-- STORE_COMPLETE (R25). -/
def execStoreComplete (c : CoreId) (s : State) : Result := .next (s.storeCompletes c)

/-- FENCE_DRAINED (R143): the last earlier stores complete, and issue goes on. -/
def execFenceDrained (c : CoreId) (s : State) : Result :=
  .next (if (s.at c).issue = .fenceWait then
    match s.drains c (s.at c).stores.length with
    | some t => if (t.at c).issue = .fenceWait then t.mapCore c fun x => { x with issue := .running } else t
    | none => s
  else s)

/-! The Tender's events -/

/-- The Tender with its issue state written. -/
def State.tenderIssue (s : State) (i : Issue) : State := s.mapCore .tender fun x => { x with issue := i }

/-- WFI_WAKE (R146): an enabled interrupt of the current world is pending, or an NMI is raised. -/
def execWfiWake (s : State) : Result :=
  let x := s.at .tender
  .next (if s.tenderClock && decide (x.issue = .wfiWait) && (decide (s.irqFor x.inSecure ≠ 0) || s.fireguard.nmi) then
    s.tenderIssue .running else s)

/-- The Tender stands at a boundary at which it accepts an interrupt or an NMI (R89, R146). -/
def State.atBoundary (s : State) : Bool :=
  let x := s.at .tender
  s.tenderClock && !x.halted && !x.afterLoad && (decide (x.issue = .running) || decide (x.issue = .wfiWait))

/-- The world that owns an interrupt source, none for a reserved one (R483, R484). -/
def State.sourceWorld (s : State) (v : Nat) : Option Bool := (sourcePage v).map fun p => s.bit (Reg.ownerWorld p)

/-- The Tender takes an interrupt or an NMI: the frame holds the next pc (R92). It waits until the pending loads have landed
(R89); one that is uncorrectable raises its own exception, and the interrupt stays pending (R87, log 50). -/
def State.accept (s : State) (cause : Nat) (secure : Bool) (begun : State → State) : State :=
  let pc := (s.at .tender).pc
  match (s.at .tender).loads.find? (·.bad) with
  | some l => s.take .tender l.trap
  | none => (begun s).tenderTrap ⟨cause, pc, pc, pc, false, false⟩ secure

/-- INTERRUPT_ENTRY (R89, R92): with IE = 1, at a boundary; a waiting Tender accepts those of its world (R146). -/
def execInterruptEntry (source : Fin 64) (s : State) : Result :=
  let x := s.at .tender
  .next (match s.sourceWorld source.val with
    | some w =>
      if s.atBoundary && x.pswBit 2 && s.sourcePending source.val && (decide (x.issue = .running) || decide (w = x.inSecure)) then
        s.accept 0x10 w id
      else s
    | none => s)

/-- NMI_ENTRY (R92, R95): not while NMIACT = 1. -/
def execNmiEntry (s : State) : Result :=
  .next (if s.atBoundary && s.fireguard.nmi && !(s.at .tender).pswBit 3 then
    s.accept 0x11 true fun t => { t with fireguard := { t.fireguard with nmi := false } }
  else s)

/-- LOCKSTEP_MISMATCH (R94): the Tender stops as a lockup stops it, with its event. -/
def execLockstepMismatch (s : State) : Result :=
  .next (if s.tenderClock && s.tenderUp then
    (s.mapCore .tender fun x => x.lockUp x.pc x.psw false false).raise Reg.tenEventLockstep
  else s)

/-- The block that an engine runs has used up its BUDGET, counted from its entry as RDCNT counts (R172, R210); a BUDGET of 0
disables the check. -/
def State.overBudget (s : State) (e : Fin 144) : Bool :=
  match (s.core e.val).run.bind fun r => s.desc r.work.block with
  | some d => decide (d.budget ≠ 0) && decide (d.budget < s.coreCycles (.engine e))
  | none => false

/-- BUDGET_EXCEEDED (R210): the exception comes at the next instruction boundary. -/
def execBudgetExceeded (e : Fin 144) (s : State) : Result :=
  let x := s.core e.val
  .next (if !x.halted && decide (x.issue = .running) && s.overBudget e then
    s.take (.engine e) ⟨0x0A, x.pc, x.pc, x.pc, false, x.afterLoad⟩
  else s)

/-- A core stands at an instruction boundary, not within an instruction that waits. -/
def Core.between (x : Core) : Bool := decide (x.issue ≠ .fenceWait) && decide (x.issue ≠ .bendWait)

/-- CORE_HALT_TAKEN (R468, R469). -/
def execCoreHaltTaken (c : CoreId) (s : State) : Result :=
  let x := s.at c
  .next (if s.mainUp && x.haltReq && !x.halted && x.between && s.mayHalt c then s.haltCore (coreKey c) x.haltCause else s)

end Sys2Proof.Machine
end

