-- ==== Sys2Proof/Machine/HostRead.lean ====
section
/-! DEFINITION. Host accesses that carry no data to the unit (R479, R482): reads, and accesses that are discarded. -/

namespace Sys2Proof.Machine

/-- A host read of a register that R482 permits, over VC3: its value (R11, R19, R432, R482). -/
def State.hostRegister (s : State) (page off : Nat) : State :=
  let (v, t) := s.readReg false page off
  (t.flueAsk nodeHost .vc3 (regAddr page off) 1).send (.hostData (leBytes 4 v))

/-- A host access of BAR0, one that carries no data: a read of a permitted register is answered with its value; what is no single aligned
32-bit access, or what OWNER forbids, reads zero or is discarded with its event (R12, R479, R482). -/
def State.hostAccess (s : State) (write : Bool) (page off size : Nat) : State :=
  if size ≠ 4 ∨ off % 4 ≠ 0 then ((s.pciCapture page off).raise Reg.pciEventBadSize).hostZeros write size
  else if !pageAssigned page then (s.hostUnassigned page off).hostZeros write 4
  else if s.hostForbidden write page off then (s.ownerDiscard page off).hostZeros write 4
  else if write then s
  else s.hostRegister page off

/-- HOST_ACCESS_DISCARD (R478, R479, R482). -/
def execHostAccessDiscard (write : Bool) (page off size : Nat) (s : State) : Result :=
  .next (if !s.hostUp then s
  else if barPage page then (if write then s else s.send (.hostData (s.barRead page off size)))
  else s.hostAccess write page off size)

end Sys2Proof.Machine
end

