-- ==== Sys2Proof/Machine/Kindling.lean ====
section
/-! DEFINITION. Kindling (R433): the directory found (R410, R419), the boot checks (R496-R498, R508), Sweep at Kindling (R434,
R462, R516), DRAM training (R535), the parameter slot (R412), the package of the active bank (R190), and the end in the mode of
R427 with its restart kind (R435, R436). -/

namespace Sys2Proof.Machine

/-! The directory -/

/-- The last programmed page of directory block `b` (R410). -/
def State.lastDirPage (s : State) (b : Nat) : Option Nat :=
  ((List.range 128).filter fun i => !s.pageErased (128 * b + i)).getLast?.map (128 * b + ·)

/-- A directory page with good MAGIC and CRC (R409, R410). -/
def State.dirGood (s : State) (p : Nat) : Bool :=
  let pg := s.flashBytes (dirAddr p) 512
  decide (field pg 0 4 = 0x4D444952) && decide (field pg 508 4 = crc32c (pg.take 508))

/-- The page that stands for a block: its last programmed one, or the one before it (R410). -/
def State.dirIn (s : State) (b : Nat) : Option Nat :=
  match s.lastDirPage b with
  | none => none
  | some p =>
    if s.dirGood p then some p
    else if p % 128 ≠ 0 ∧ s.dirGood (p - 1) then some (p - 1)
    else none

/-- SEQ of a directory page (R409). -/
def State.dirSeqAt (s : State) (p : Nat) : Nat := field (s.flashBytes (dirAddr p) 512) 4 4

/-- The current directory page (R410). -/
def State.dirNewest (s : State) : Option Nat :=
  match s.dirIn 0, s.dirIn 1 with
  | some a, some b => if newer 32 (s.dirSeqAt b) (s.dirSeqAt a) then some b else some a
  | some a, none => some a
  | none, b => b

/-- Where the next directory page goes: the first erased page after the last programmed one (R409; log 3). -/
def State.dirNext (s : State) (p : Nat) : Nat :=
  (((List.range 256).map fun i => (p + 1 + i) % 256).find? s.pageErased).getD ((p + 1) % 256)

/-- The counters and slot states of a directory page resumed (R349, R409, R410, R419). -/
def State.takeDirectory (s : State) (p : Nat) : State :=
  let pg := s.flashBytes (dirAddr p) 512
  let flags := field pg 9 1
  let d : Directory := {
    seq := field pg 4 4, activeBank := field pg 8 1 % 2, pfComplete := bitOf flags 0, reliningCut := bitOf flags 1
    highest := field pg 12 4, claim := field pg 16 4, position := s.dirNext p }
  let s1 := { s with mantel := { s.mantel with dir := d } }.setFields
    [(Reg.mntDirSeqSeq, d.seq), (Reg.dmpHighestHighest, d.highest), (Reg.dmpPersistedPersisted, d.highest),
      (Reg.ashSecondsSeconds, field pg 20 4), (Reg.ashCyclesCycles, field pg 24 3), (Reg.ashRefusedRefused, field pg 28 4),
      (Reg.ashSeqSeq, field pg 36 4)]
  (List.range 7).foldl (fun t c => t.setFld (Reg.rlnVerState c) (field pg (40 + c) 1)) s1

/-- A background erase of the other directory block that a reset cut off falls due again (R409; log 3). -/
def State.dirErase (s : State) : State :=
  let p := s.mantel.dir.position
  let other := 1 - p / 128
  if 120 ≤ p % 128 ∧ (s.lastDirPage other).isSome then
    { s with mantel := { s.mantel with background := s.mantel.background ++ [other] } }
  else s

/-! The Ashpit log -/

/-- The pages of the log that hold records: programmed ones, where no clear has yet to erase the block (R398, R421). -/
def State.logPages (s : State) : List Nat :=
  (s.mantel.programmed.filter fun c => decide (ashLogBase / 512 ≤ c.1) && decide (c.1 < (ashLogBase + ashLogSize) / 512) &&
    !s.mantel.background.contains (c.1 / 128)).map Prod.fst

/-- The SEQ after the newest of `seq` and those of the log's records from byte `off` on; a page that holds none, and the rest of a
page from LENGTH 0xFFFF on, are skipped (R417, R418). -/
def State.seqAfter (s : State) (off seq : Nat) : Nat → Nat
  | 0 => seq
  | fuel + 1 =>
    let a := ashLogBase + off
    let n := field (s.flashBytes a 2) 0 2
    if s.pageErased (a / 512) ∨ n < 16 ∨ 512 < n then s.seqAfter ((off / 512 + 1) * 512) seq fuel
    else
      let q := (field (s.flashBytes (a + 12) 4) 0 4 + 1) % 2 ^ 32
      s.seqAfter (off + n) (if newer 32 q seq then q else seq) fuel

/-- ASH_HEAD, ASH_SEQ and ASH_STATUS.FULL as the log and the directory give them: the next record follows the last programmed page, so
that nothing in the log is programmed again (R398, R420, R424; log 150). -/
def State.findLog (s : State) : State :=
  let head := match s.logPages.getLast? with
    | some g => 512 * (g + 1) - ashLogBase
    | none => 0
  (s.setAshHead head).setFields [(Reg.ashSeqSeq, s.seqAfter 0 (s.fld Reg.ashSeqSeq) (33 * (head / 512))),
    (Reg.ashStatusFull, bit01 (decide (s.fld Reg.ashRefusedRefused ≠ 0) || decide (ashLogSize ≤ head))),
    (Reg.ashStatusClearing, bit01 (s.mantel.background.any inLog))]

/-! The retain ring -/

/-- No page of retain slot `i` has been programmed since its erase (R398). -/
def State.slotBlankPages (s : State) (i : Nat) : Bool :=
  !s.mantel.programmed.any fun c => decide (retainSlotBase i ≤ 512 * c.1) && decide (512 * c.1 < retainSlotBase (i + 1))

/-- A retain slot has a good header CRC, a good DATA_CRC and its commit mark (R413). -/
def State.slotGood (s : State) (i : Nat) : Bool :=
  let head := s.flashBytes (retainSlotBase i) 512
  let len := (field head 16 4 + 1) / 2 * 9
  decide (field head 0 4 = 0x5245544E) && decide (field head 160 4 = crc32c (head.take 160)) &&
    decide (len ≤ 0x50000) && decide (field head 28 4 = crc32c (s.flashBytes (retainSlotBase i + 512) len)) &&
    decide (s.flashBytes (retainSlotBase i + 512 + pageRound len) 8 = beBytes 4 0x434F4D54 ++ beBytes 4 (field head 4 4))

/-- A retain slot as Kindling finds it: pre-erased, valid, or torn, which counts as committing (R413, R414). -/
def State.findSlot (s : State) (i : Nat) : State :=
  if s.slotBlankPages i then s.setSlot i 0 0
  else if s.slotGood i then s.setSlot i 1 (field (s.flashBytes (retainSlotBase i) 8) 4 4)
  else s.setSlot i 2 0

/-! Component slots -/

/-- Nothing has been programmed at the start of a component's slot. -/
def State.slotBlank (s : State) (c : Nat) : Bool := s.pageErased (slotStart c / 512)

/-- What Kindling finds of component `c`'s image: the boot check for KND. -/
def imageOk (f : KindlingFind) (c : Nat) : Bool := f.componentsOk.getD c true && (decide (c ≠ 0) || f.bootOk)

/-- The image that the unit was delivered with, whose bytes the spec does not give: it stands in an EMPTY slot of the model's
Mantel where Kindling finds it good (DESIGN CHOICE, log 40). -/
def State.deliveredSlots (s : State) (f : KindlingFind) : State :=
  (List.range 7).foldl (fun t c =>
    if t.slotBlank c then (if t.fld (Reg.rlnVerState c) = 0 ∧ imageOk f c then t.setFld (Reg.rlnVerState c) 1 else t)
    else t.showSlot c) s

/-- The check of a component's image at its start: the first failing code (R498, R513, R514). -/
def State.imageFails (s : State) (f : KindlingFind) (c : Nat) : Option Nat :=
  if s.slotBlank c ∧ s.fld (Reg.rlnVerState c) = 1 then (if imageOk f c then none else some 0x2)
  else
    match s.startCheck c with
    | some code => some code
    | none => if imageOk f c then none else some 0x2

/-- A component that fails its start check at Kindling (R508, R514, R516). -/
def State.startFails (s : State) (c code : Nat) : State :=
  let s1 := if code = 0x5 then s.raise Reg.secEventSigFail else s
  (s1.rlnDown c 6).downComponent c

/-- A component starts from a slot that was WRITTEN (R508, R514, R515). -/
def State.startsWritten (s : State) (c : Nat) : State :=
  let s1 := ((s.setSlotState c 1 false).rlnStep c 6).raise Reg.rlnEventActivated
  (s1.advanceAtStart c).startComponent c

/-- A component checked and started at Kindling (R433, R508). -/
def State.kindleComponent (s : State) (f : KindlingFind) (c : Nat) : State :=
  let st := s.fld (Reg.rlnVerState c)
  if st = 1 then
    match s.imageFails f c with
    | none => s.startComponent c
    | some code => s.startFails c code
  else if st = 2 ∨ st = 3 then
    if s.mantel.dir.reliningCut then (s.setSlotState c 4 false).downComponent c
    else
      match s.imageFails f c with
      | none => s.startsWritten c
      | some code => s.startFails c code
  else s.downComponent c

/-- The KND local-store part copied behind the boot ROM (R496 step 4). -/
def State.loadKnd (s : State) : State :=
  if s.slotBlank 0 then s
  else
    let n := min 0x6000 (field (s.slotHeader 0) 28 4)
    let ws := unpackWords (s.flashBytes (slotStart 0 + 512) ((n + 1) / 2 * 9)) n
    let c := s.core tenderKey
    s.setCore tenderKey { c with ls := Sparse.putMany c.ls 0 0x2000 ws }

/-- A failed boot check: its record, and Doused (R496). -/
def State.bootFails (s : State) (step : Nat) : State :=
  { (s.record 0x009 0x02 true [step]).douse with kindling := .none }

/-- The boot ROM's step that a failing code of R513 belongs to (R496). -/
def bootStep (code : Nat) : Nat := if code = 0x5 ∨ code = 0x7 then 3 else 2

/-! Sweep -/

/-- The start is quick (R434). -/
def State.quickStart (s : State) (r : SweepResult) : Bool :=
  decide (r.verdict = 1) && decide (r.stepping = Config.stepping) && decide (r.version = s.fld (Reg.rlnVerVersion 6)) &&
    decide ((s.ember.tick + 2 ^ 48 - r.tick) % 2 ^ 48 < 84934656000) && !s.bit Reg.embStatusLost &&
    !s.bit Reg.pwrResetCauseFireguard && !s.bit Reg.pwrResetCauseClockLoss

/-- The engine map and the repair settings of a Sweep result applied: its engines are failed (R29, R433). -/
def State.applyMap (s : State) (failed : List Nat) (repairs : List (Nat × Nat)) : State :=
  let s1 := failed.foldl (fun t e => if e < 144 then t.setEngState e 4 else t) s
  { s1 with fit := { s1.fit with repairs := repairs } }

/-- What a full Sweep finds is applied: beside its map, failed gates, sequencers, ports and MACs stay mapped out (R29, R290, R433;
DEDUCED, log 76). -/
def State.applyFind (s : State) (f : SweepFind) : State :=
  let s1 := s.applyMap f.engines f.repairs
  { s1 with fit := { s1.fit with
      badGates := f.gates
      badSeqs := f.sequencers.filter fun q => decide (q < 12)
      badPorts := f.ports.filter fun p => decide (p < 192)
      badMacs := f.macs.filter fun x => decide (x < 40) } }

/-- Sweep at Kindling: quick, full, or the newest stored result while SWP is down; the unit enters Doused where the first is
false (R434, R462, R516). -/
def State.kindleSweep (s : State) (f : SweepFind) : Bool × State :=
  if !s.compUp 6 then
    match s.newestSweep with
    | some r => (true, s.applyMap r.failed r.repairs)
    | none => (false, s)
  else
    match s.newestSweep.filter s.quickStart with
    | some r => (true, (s.setFld Reg.pwrStatusQuick 1).applyMap r.failed r.repairs)
    | none =>
      (s.sweepPass f, (s.zeroSecure.commitSweep 1 f).applyFind f)

/-! What is fitted -/

/-- DRAM trained and cleared (R38, R42, R45, R535). -/
def State.kindleFit (s : State) (f : KindlingFind) : State :=
  let has := f.chimney && decide (f.dramCapacity ≠ 0)
  let chans := if has then f.dramChannels % 4 else 0
  { s with dram := [] }.setFields
    [(Reg.drmConfigPresent, chans), (Reg.drmConfigCapacity, if has then f.dramCapacity else 0),
      (Reg.drmChStateChState, bit01 (bitOf chans 0) + 4 * bit01 (bitOf chans 1))]

/-- Step 1: every switched domain on but PD16 and PD17 (R433). -/
def State.kindleDomains (s : State) : State :=
  (List.range 22).foldl (fun t n => t.setFld (Reg.pwrPdControlState n) (if n = 16 ∨ n = 17 then 2 else 0)) s

/-- VBAK measured (R449). -/
def State.measureVbak (s : State) (mv : Nat) : State :=
  s.setFields [(Reg.embVbakMvVbakMv, min mv 65535), (Reg.embStatusVbakLow, bit01 (decide (mv < 2000)))]

/-- Step 2: the directory, the log and the rings found, the power-cycle count committed before the first record, and an expiry recorded
(R410, R419, R457). -/
def State.kindleMantel (s : State) (f : KindlingFind) : State :=
  let s1 := match s.dirNewest with
    | some p => s.takeDirectory p
    | none => { s with mantel := { s.mantel with dir := ⟨0, 0, false, false, 0, 0, s.dirNext 255⟩ } }
  let s2 := (((List.range 8).foldl State.findSlot s1.findLog).findRings.deliveredSlots f).setFld Reg.mntStatusReady 1
  let s3 := ((s2.countWrap Reg.ashCyclesCycles).dirCommit id).dirErase
  if s3.fireguard.unlogged then
    { s3 with fireguard := { s3.fireguard with unlogged := false } }.record 0x002 0x01 true
      [s3.fld Reg.fgdLastGuard, s3.fld Reg.fgdLastEarly]
  else s3

/-! Parameters -/

/-- The entries of a parameter payload: page, byte offset, value (R411). -/
def paramEntries (payload : List Byte) : List (Nat × Nat × Nat) :=
  (List.range (payload.length / 8)).map fun i =>
    (field payload (8 * i) 2 % 0x400, 4 * field payload (8 * i + 2) 2, field payload (8 * i + 4) 4)

/-- The page is assigned and defines the offset (R412). -/
def paramDefined (page off : Nat) : Bool :=
  pageAssigned page && (decide (off = 0x000) || decide (off = 0x01C) || decide (regFields page off ≠ []))

/-- One parameter entry, written by the secure world or skipped with a record (R412); nothing follows a write that has reset the
unit. -/
def State.applyParam (s : State) (seq : Nat) (e : Nat × Nat × Nat) : State :=
  if s.kindling ≠ .full then s
  else if paramDefined e.1 e.2.1 then s.regWrite .tenderSecure e.1 e.2.1 (BitVec.ofNat 32 e.2.2)
  else s.record 0x005 0x01 false [seq, e.1, e.2.1 / 4]

/-- A SerDes group with a configured port is switched on (R433 step 6). -/
def State.groupOn (s : State) (g : Nat) : State :=
  if (List.range 20).any fun x => decide (s.fld (Reg.chmXControlMode (20 * g + x)) ≠ 0) then
    s.setFld (Reg.pwrPdControlState (16 + g)) 0
  else s

/-- Step 6 (R412, R433). -/
def State.kindleParams (s : State) : State :=
  let s1 := match s.newestParam with
    | some i =>
      let b := s.flashBytes (paramBase + i * 0x1000) 0x1000
      (paramEntries ((b.drop 16).take (field b 8 2))).foldl (fun (t : State) e => t.applyParam (s.paramSeqAt i) e) s
    | none => s
  ((s1.groupOn 0).groupOn 1).macsOut

/-! The package of the active bank -/

/-- The words of the package in a program bank (R223, R399). -/
def State.bankPackage (s : State) (bank : Nat) : List W36 :=
  let base := bankBase bank
  let n := min 0x800000 (wbits (pword (unpackWords (s.flashBytes base 18) 4) 2) 0 32)
  unpackWords (s.flashBytes base ((n + 1) / 2 * 9)) n

/-- A program bank holds no package. -/
def State.bankBlank (s : State) (bank : Nat) : Bool := s.pageErased (bankBase bank / 512)

/-- What is checked of a package read at Kindling: that it can be read, and its DIGEST (R433 step 8). -/
def packageFails (ws : List W36) : Option Refuse := firstRefusal [checkFormat ws, checkCrc ws, checkDigest ws]

/-- The program that the active bank holds: an EDIT applies to the FULL package in the other bank (R222, R240; DEDUCED, log 42). -/
def State.bankProgram (s : State) : Except Refuse Program :=
  let bank := s.mantel.dir.activeBank
  let ws := s.bankPackage bank
  match packageFails ws with
  | some r => .error r
  | none =>
    if isEdit ws then
      let other := s.bankPackage (1 - bank)
      let base := buildProgram other Program.empty
      match (if s.bankBlank (1 - bank) || (packageFails other).isSome || isEdit other then some ⟨0x06, 0xFF, 5⟩
        else checkBase ws true base) with
      | some r => .error r
      | none => .ok (buildProgram ws base)
    else .ok (buildProgram ws Program.empty)

/-- A program placed in the active program area, its code in the local stores (R190, R433, R537). -/
def State.placeProgram (s : State) (p : Program) : State :=
  let s1 := { s with bellows := { s.bellows with active := some p, area := 0 } }
  let s2 := if 0x200 ≤ s1.fld Reg.edtProgBaseProgBase then s1.writeArea 0 p else s1
  (s2.loadProgram p).loadCode.editVersions

/-- A package that is not loaded: no program, and a record (R433). -/
def State.bankRefused (s : State) (r : Refuse) : State :=
  ({ s with bellows := { s.bellows with active := none }, started := false }.setFld Reg.blwStatusLoaded 0).record 0x015 0x02 false
    [s.mantel.dir.activeBank, r.reason]

/-- Step 8 (R433). -/
def State.kindlePackage (s : State) : State :=
  if s.bankBlank s.mantel.dir.activeBank then s
  else
    match s.bankProgram with
    | .ok p => s.placeProgram p
    | .error r => s.bankRefused r

/-! KINDLING_START -/

/-- Steps 5 to 8, once Sweep has passed (R433): without TEN the unit is Doused (R516). -/
def State.kindleRest (s : State) (f : KindlingFind) : State :=
  let s1 := (s.kindleFit f).hobStart
  let s2 := s1.kindleComponent f 1
  if !s2.compUp 1 then { s2.douse with kindling := .none }
  else
    let s3 := ([2, 3, 4, 5].foldl (fun t c => t.kindleComponent f c) s2).kindleParams
    if s3.kindling ≠ .full then s3
    else
      let s4 := s3.assignEngines
      if s4.minimumService then s4.kindlePackage else s4

/-- Steps 3 and 4 (R433, R496). -/
def State.kindleBoot (s : State) (f : KindlingFind) : State :=
  if !f.pufOk then s.bootFails 1
  else
    let s1 := s.setFld Reg.secStatusPufOk 1
    let code := s1.imageFails f 0
    let s2 := s1.kindleComponent f 0
    if !s2.compUp 0 then s2.bootFails (bootStep (code.getD 0x2))
    else
      let s3 := s2.loadKnd.kindleComponent f 6
      match s3.kindleSweep f.sweep with
      | (true, s4) => s4.kindleRest f
      | (false, s4) => { s4.douse with kindling := .none }

/-- Kindling runs from its start (R433). -/
def State.kindle (s : State) (f : KindlingFind) : State :=
  let s1 := ({ s with
    kindling := .full
    fit := ⟨f.chimney, f.hob, f.grate, f.mantel, [], [], [], [], []⟩
    pins := { s.pins with resetN := true, pfailN := true } }.setMode modeKindling)
  ((s1.kindleDomains.measureVbak f.vbakMv).kindleMantel f).kindleBoot f

/-- KINDLING_START may run: supplies and REFCLK valid, and no Kindling has begun (R427, R525); that RESET_N and PFAIL_N are high
is what the command says. -/
def State.mayKindle (s : State) : Bool :=
  s.pins.mainValid && s.pins.refclkOk && decide (s.kindling = .none) &&
    (decide (s.mode = modeKindling) || decide (s.mode = modeEmber))

/-- KINDLING_START (R433, R525). -/
def execKindlingStart (f : KindlingFind) (s : State) : Result := .next (if s.mayKindle then s.kindle f else s)

/-! KINDLING_END -/

/-- Torn retain slots erased before Kindling ends (R414). -/
def State.eraseTorn (s : State) : State :=
  (List.range 8).foldl (fun t i =>
    if t.slotState i = 2 then ((slotBlocks i).foldl State.eraseBlock t).setSlot i 0 0 else t) s

/-- The image of a resumed unit: each word restored with its current value (R111, R436). -/
def State.resumeImage (s : State) : State :=
  let ws := (s.hearth.copyA ++ s.hearth.copyB).map Prod.fst
  (ws.foldl (fun t w => t.initWord w (s.readCur w)) s).freshPlanes

/-- Steps 7 and 8 in resume form (R433): the program, its code from the DRAM program area, and the code of a staged EDIT. -/
def State.resumeLoad (s : State) : State :=
  let s1 := { s with bellows := { s.bellows with rollback := none } }.setFld Reg.edtStatusRollbackAvail 0
  let s2 := ([0, 1, 2].foldl (fun t k => t.setCls k ClassRt.reset) s1).assignEngines
  if !s2.minimumService then s2
  else
  match s2.bellows.active with
  | none => s2.kindlePackage
  | some p =>
    match packageFails (s2.bankPackage s2.mantel.dir.activeBank) with
    | some r => s2.bankRefused r
    | none =>
      let s3 := (s2.loadProgram p).loadCode.editVersions
      match s3.bellows.shadow with
      | some q => s3.writeRuns q
      | none => s3

/-- The restart kind, and whether Kindling ends in Held (R427, R435, R436). -/
def State.kindleStart (s : State) : State × Bool :=
  match s.bellows.active with
  | none => (s, true)
  | some p =>
    let short := s.shortfallOf p
    let s1 := s.noteShort short
    if short.any id then ({ s1 with started := false }, true)
    else if s.kindling = .resume ∧ s.started then
      ((s1.resumeImage.startKind 1).setFld Reg.pwrStatusLastRestart 3,
        decide (s.bankedFrom = some modeHeld) || s.bit Reg.pwrControlStartHeld)
    else if s.bit Reg.pwrControlStartHeld ∨ (s.kindling = .resume ∧ s.bankedFrom = some modeHeld) then (s1, true)
    else
      match s1.startProgram with
      | some t => (t, false)
      | none => (s1.raise Reg.pwrEventRestartRefused, true)

/-- The partner shows a claim (R327). -/
def State.partnerClaims (s : State) : Bool :=
  s.erair.up && (match s.erair.partner with | some h => decide (5 ≤ h.role) && decide (h.role ≤ 7) | none => false)

/-- The unit leaves Kindling in its mode and role (R327, R426, R427, R433 step 10). -/
def State.kindleTo (s : State) (held : Bool) : State :=
  let s1 := { s with kindling := .none, bankedFrom := none }.setMode (if held then modeHeld else modeStandby)
  let s2 := s1.setRoleState (if s1.partnerClaims || decide (s1.fld Reg.eraStatusLine = 3) then 2 else 1) causeKindling
  s2.classStates.hobRoleChange.grateUpdate

/-- Kindling ends (R427, R433). -/
def State.kindlingEnd (s : State) : State :=
  let s1 := (if s.kindling = .resume then s.resumeLoad else s).eraseTorn
  if !s1.minimumService then { s1.douse with kindling := .none, bankedFrom := none }
  else
    let (s2, held) := s1.kindleStart
    s2.kindleTo held

/-- KINDLING_END (R433). -/
def execKindlingEnd (s : State) : Result :=
  .next (if s.mode = modeKindling ∧ s.kindling ≠ .none then s.kindlingEnd else s)

end Sys2Proof.Machine
end

