-- ==== Sys2Proof/Machine/Poker.lean ====
section
/-! DEFINITION. Poker (R464-R472, R476): its requests and answers, the core registers, memory accesses, injected
instructions, authentication and the sandbox. -/

namespace Sys2Proof.Machine

/-! Answers -/

/-- ACK codes of R465. -/
inductive Ack where
  | ok
  | wait
  | refused
  | auth
  | fault
  | parity
  deriving DecidableEq, Repr

/-- The code of an ACK (R465). -/
def Ack.code (a : Ack) : Nat :=
  match a with
  | .ok => 1
  | .wait => 2
  | .refused => 3
  | .auth => 4
  | .fault => 5
  | .parity => 6

/-- The number of ones in a word is odd. -/
def oddOnes {n : Nat} (w : BitVec n) : Bool := (List.range n).foldl (fun b i => b ^^ w.getLsbD i) false

/-- An answer as it is shifted out, first bit highest: the ACK, the data, and the bit that makes their parity even (R464). -/
def answerBits (a : Ack) (data : W36) : BitVec 40 :=
  let body := BitVec.ofNat 3 a.code ++ data
  body ++ BitVec.ofBool (oddOnes body)

/-- An answer (R464). -/
def State.answer (s : State) (a : Ack) (data : W36) : State := s.send (.poker (answerBits a data))

/-- PK_RQ_N: low while a core has a halt that the debugger has not read (R464). -/
def State.pkRqN (s : State) : Bool := !s.cores.any fun c => c.2.halted && c.2.haltUnread

/-- A refusal: nothing else happens (R465). -/
def State.pokerNo (s : State) : State := s.answer .refused 0

/-- A request served (R476): refused while DISABLE is set; with AUTH_ALL it needs authentication, but for `free` ones. A
unit without its main domain answers nothing. -/
def State.poker_ (s : State) (free : Bool) (k : State → State) : State :=
  if !s.mainUp then s
  else if s.bit Reg.pkrControlDisable then s.pokerNo
  else if s.bit Reg.pkrControlAuthAll && !free && !s.poker.auth then s.answer .auth 0
  else k s

/-- POKER_ID (R466). -/
def execPokerId (s : State) : Result :=
  .next (s.poker_ false fun t => t.answer .ok (BitVec.ofNat 36 (t.regWord false 0x008 0x000)))

/-- The core of a SELECT number (R466). -/
def selectable (n : Nat) : Option CoreId :=
  if h : n < 144 then some (.engine ⟨n, h⟩) else if n = 0x100 then some .tender else none

/-- POKER_SELECT (R466). -/
def execPokerSelect (core : Nat) (s : State) : Result :=
  .next (s.poker_ false fun t =>
    if (selectable core).isSome then { t with poker := { t.poker with sel := core } }.answer .ok 0 else t.pokerNo)

/-- The selected core (R466). -/
def State.selected (s : State) : CoreId := (selectable s.poker.sel).getD .tender

/-- The selected core shows and takes nothing without authentication: the Tender in the secure world (R469). -/
def State.hidden (s : State) : Bool := !isEngine s.selected && (s.at .tender).inSecure && !s.poker.auth

/-! Core registers -/

/-- Registers that may be read from any core at any time (R467). -/
def snapReg (n : Nat) : Bool := decide (n = 0x23 ∨ n = 0x24 ∨ (0x28 ≤ n ∧ n ≤ 0x2F))

/-- Registers that the table names (R467). -/
def pokerReg (n : Nat) : Bool :=
  decide (n ≤ 0x25) || decide (0x28 ≤ n ∧ n ≤ 0x2F) || decide (0x30 ≤ n ∧ n ≤ 0x3B) || decide (n = 0x40 ∨ n = 0x41 ∨ n = 0x44 ∨ n = 0x45)

/-- STATE (R467). The spec says that a BRK with BRK_HALT reports its number and not where: the model shows it in bits [25:10]
while the halt cause is BRK (R145; DESIGN CHOICE, log 61). -/
def State.haltState (s : State) (c : CoreId) : Nat :=
  let x := s.at c
  bit01 x.halted + 2 * bit01 (match x.run with | some r => r.sandbox | none => false) + 4 * (if x.halted then x.haltCause else 0) +
    2 ^ 10 * (if x.halted ∧ x.haltCause = 5 then x.brkNum % 2 ^ 16 else 0)

/-- A core register but DATA, as READ shows it (R467). -/
def State.coreReg (s : State) (c : CoreId) (n : Nat) : W36 :=
  let x := s.at c
  if n ≤ 31 then x.reg (BitVec.ofNat 5 n)
  else if n = 0x20 then x.pc
  else if n = 0x21 then x.psw
  else if n = 0x23 then BitVec.ofNat 36 (s.haltState c)
  else BitVec.ofNat 36 (x.dbgReg n)

/-- ADDR goes on by 1 (R467). -/
def State.nextAddr (s : State) (c : CoreId) : State :=
  s.mapCore c fun x => { x with dbg := Sparse.put x.dbg 0 0x40 (Sparse.get x.dbg 0 0x40 + 1) }

/-- A fault of an injected instruction or a memory access: the fault registers hold the detail (R465, R470). -/
def State.pokerFault (s : State) (c : CoreId) (t : Trap) : State :=
  (s.mapCore c fun x => x.setFault t.cause t.fpc t.faddr x.bank.w31 t.lds t.imprecise false).answer .fault 0

/-- The world whose rights a memory access has: the normal one without authentication (R469). -/
def State.asNormal (s : State) (c : CoreId) : State :=
  if isEngine c || s.poker.auth then s else s.mapCore c fun x => x.setPswBit 1 false

/-- A fault of a memory access at `a`; UNCORRECTABLE is imprecise (R88). -/
def State.accessFault (s : State) (c : CoreId) (cause : Nat) (a : W36) : State :=
  let pc := (s.at c).pc
  s.pokerFault c ⟨cause, pc, pc, a, decide (cause = 0x09), false⟩

/-- The breakpoints of a memory access at `a` on the halted core (R467): COUNT goes down, or the halt has that breakpoint for its
cause; the access is made in either case. -/
def State.dataBreak (s : State) (c : CoreId) (kind : Nat) (a : W36) : State :=
  let (y, hit) := (s.at c).breaks kind a 1
  let t := s.setCore (coreKey c) y
  match hit with
  | none => t
  | some n => t.haltCore (coreKey c) (1 + n)

/-- The word at ADDR read for Poker; an engine's uncorrectable local-store word fails the engine (R31). -/
def State.dataLoad (s : State) (c : CoreId) (sp : Space) (a : W36) : State :=
  let (v, b, u) := (s.asNormal c).loadWord c sp a.toNat
  let t := u.mapCore c fun x => { x with psw := (s.at c).psw }
  if b then
    let u := ((t.loadBad c ((t.at c).loadAt a [a.toNat] [] true)).nextAddr c).accessFault c 0x09 a
    match c with
    | .engine e => if sp = .ls then u.islandFails e.val else u
    | .tender => u
  else (t.nextAddr c).answer .ok v

/-- Poker's access to a word beyond local store goes over the Flue on VC3 (R19): a load. -/
def State.pokerAsks (s : State) (c : CoreId) (a : W36) (n : Nat) : State :=
  if a.toNat < lsSize then s else if isEngine c && (s.at c).sandboxed then s else s.flueAsk nodePoker .vc3 a.toNat n

/-- The same: a store. -/
def State.pokerSends (s : State) (c : CoreId) (a : W36) (v : W36) : State :=
  if a.toNat < lsSize then s else if isEngine c && (s.at c).sandboxed then s else s.flueSend nodePoker .vc3 .store a.toNat [v]

/-- READ of DATA: a load of the word at ADDR through the core's own checks (R81, R467), after the posted stores that a load of
the core waits for (R8, R78). -/
def State.readData (s : State) (c : CoreId) : State :=
  let a := Sparse.get (s.at c).dbg 0 0x40
  match (s.asNormal c).loadSpace c a 1 with
  | none => ((s.asNormal c).noteWorldBy c a 1 3 |>.setCore (coreKey c) (s.at c) |>.nextAddr c).accessFault c 0x04 a
  | some sp =>
    match s.drainsUntil c (Store.blocks sp a.toNat 1) (s.at c).stores.length with
    | some t => ((t.dataBreak c 1 a).pokerAsks c a 1).dataLoad c sp a
    | none => s.answer .wait 0

/-- A word stored for Poker, complete at once (R467); none while the store must wait. A write of OWNER is ignored (R10). -/
def State.dataStore (s : State) (c : CoreId) (sp : Space) (a : W36) (v : W36) : Option State :=
  if sp = .page ∧ offOf a.toNat = 0x01C then some s
  else
  match sp, c with
  | .ls, _ => some (s.mapCore c fun x => x.storeLs a.toNat [v])
  | _, .engine e => some (s.engineStore e.val a.toNat (s.at c).instance? v)
  | _, .tender => s.tenderWord ((s.at c).inSecure && s.poker.auth) a.toNat v

/-- WRITE of DATA: a store of the word at ADDR through the core's own checks (R81, R467), after the core's posted
stores. -/
def State.writeData (s : State) (c : CoreId) (v : W36) : State :=
  let a := Sparse.get (s.at c).dbg 0 0x40
  match (s.asNormal c).storeSpace c a 1 with
  | none => ((s.asNormal c).noteWorldBy c a 1 3 |>.setCore (coreKey c) (s.at c) |>.nextAddr c).accessFault c 0x05 a
  | some sp =>
    match (s.drains c (s.at c).stores.length).bind fun t => ((t.dataBreak c 2 a).pokerSends c a v).dataStore c sp a v with
    | some t => (t.nextAddr c).answer .ok 0
    | none => s.answer .wait 0

/-- POKER_READ (R466, R467, R469): STATE counts as read by the debugger (R464). -/
def execPokerRead (n : BitVec 8) (s : State) : Result :=
  .next (s.poker_ false fun t =>
    let c := t.selected
    if !pokerReg n.toNat || !(snapReg n.toNat || (t.at c).halted) then t.pokerNo
    else if n.toNat = 0x23 then
      (t.mapCore c fun x => { x with haltUnread := false }).answer .ok (t.coreReg c 0x23)
    else if n.toNat = 0x41 then t.readData c
    else t.answer .ok (if t.hidden then 0 else t.coreReg c n.toNat))

/-- A breakpoint register or TRACE_LIMIT, which Poker writes on an engine only where it may halt it (R468). -/
def breakReg (n : Nat) : Bool := decide (n = 0x25) || decide (0x30 ≤ n ∧ n ≤ 0x3B)

/-- A core register but DATA written: PSW takes what SYSW could write (R61), CTL its one bit. -/
def State.setCoreReg (s : State) (c : CoreId) (n : Nat) (w : W36) : State :=
  s.mapCore c fun x =>
    if n ≤ 31 then x.setReg (BitVec.ofNat 5 n) w
    else if n = 0x20 then { x with pc := w }
    else if n = 0x21 then
      (if isEngine c then x else (x.setPswBit 0 (w.toNat.testBit 0)).setPswBit 2 (w.toNat.testBit 2))
    else if n = 0x22 then x.setDbg n (w.toNat % 2)
    else x.setDbg n w.toNat

/-- POKER_WRITE (R466-R469). -/
def execPokerWrite (n : BitVec 8) (w : W36) (s : State) : Result :=
  .next (s.poker_ false fun t =>
    let c := t.selected
    if !pokerReg n.toNat || snapReg n.toNat || !(t.at c).halted then t.pokerNo
    else if breakReg n.toNat && isEngine c && !t.mayHalt c then t.pokerNo
    else if n.toNat = 0x41 then t.writeData c w
    else if t.hidden && decide (n.toNat < 0x22) then t.answer .auth 0
    else (t.setCoreReg c n.toNat w).answer .ok 0)

/-! Halt and resume -/

/-- POKER_HALT (R468, R469): the halt is requested; CORE_HALT_TAKEN carries it out. -/
def execPokerHalt (s : State) : Result :=
  .next (s.poker_ false fun t =>
    let c := t.selected
    if isEngine c && !t.mayHalt c then t.pokerNo
    else if (t.at c).halted then t.answer .ok 0
    else (t.mapCore c fun x => { x with haltReq := true, haltCause := 0 }).answer .ok 0)

/-- A halted core runs on: TRACE restarts at 0, and the breakpoint that halted it is passed once (R466, log 44). -/
def Core.resume (x : Core) : Core :=
  ({ x with halted := false, haltReq := false, haltUnread := false }.setDbg 0x24 0).setDbg dbgOver
    (if 1 ≤ x.haltCause ∧ x.haltCause ≤ 4 then x.haltCause else 0)

/-- POKER_RESUME (R466). -/
def execPokerResume (s : State) : Result :=
  .next (s.poker_ false fun t =>
    let c := t.selected
    if (t.at c).halted then ((t.mapCore c Core.resume).refreshHalted).answer .ok 0 else t.pokerNo)

/-! Injected instructions -/

/-- The operands of format A in a word (R66). -/
def fieldsA (w : W36) : OpA := ⟨BitVec.ofNat 5 (bitsOf w.toNat 23 5), BitVec.ofNat 5 (bitsOf w.toNat 18 5), BitVec.ofNat 5 (bitsOf w.toNat 13 5), BitVec.ofNat 13 w.toNat⟩

/-- The operands of format I in a word (R66). -/
def fieldsI (w : W36) : OpI := ⟨BitVec.ofNat 5 (bitsOf w.toNat 23 5), BitVec.ofNat 5 (bitsOf w.toNat 18 5), BitVec.ofNat 18 w.toNat⟩

/-- The operands of format B in a word (R66). -/
def fieldsB (w : W36) : OpB := ⟨BitVec.ofNat 5 (bitsOf w.toNat 23 5), BitVec.ofNat 5 (bitsOf w.toNat 18 5), BitVec.ofNat 5 (bitsOf w.toNat 13 5), BitVec.ofNat 13 w.toNat⟩

/-- The operands of format J in a word (R66). -/
def fieldsJ (w : W36) : OpJ := ⟨BitVec.ofNat 28 w.toNat⟩

/-- The system group and NOP by opcode (R71, R143). -/
def sysOp (w : W36) : Option Op :=
  match opcodeOf w with
  | 0x01 => some (opNop (fieldsA w))
  | 0x02 => some (opSys (fieldsI w))
  | 0x03 => some (opSysw (fieldsI w))
  | 0x04 => some (opSvc (fieldsI w))
  | 0x05 => some (opBrk (fieldsI w))
  | 0x06 => some (opRete (fieldsA w))
  | 0x07 => some (opWfi (fieldsA w))
  | 0x08 => some (opFence (fieldsA w))
  | _ => none

/-- The integer, address and move instructions by opcode (R147, R152). -/
def intOp (w : W36) : Option Op :=
  match opcodeOf w with
  | 0x10 => some (opAdd (fieldsA w))
  | 0x11 => some (opAddi (fieldsI w))
  | 0x12 => some (opSub (fieldsA w))
  | 0x13 => some (opAdds (fieldsA w))
  | 0x14 => some (opSubs (fieldsA w))
  | 0x15 => some (opMul (fieldsA w))
  | 0x16 => some (if (fieldsA w).x.toNat.testBit 0 then opMulhu (fieldsA w) else opMulh (fieldsA w))
  | 0x17 => some (if (fieldsA w).x.toNat.testBit 0 then opDivu (fieldsA w) else opDiv (fieldsA w))
  | 0x18 => some (if (fieldsA w).x.toNat.testBit 0 then opRemu (fieldsA w) else opRem (fieldsA w))
  | 0x19 => some (opAnd (fieldsA w))
  | 0x1A => some (opOr (fieldsA w))
  | 0x1B => some (opXor (fieldsA w))
  | 0x1C => some (opAndi (fieldsI w))
  | 0x1D => some (opOri (fieldsI w))
  | 0x1E => some (opXori (fieldsI w))
  | 0x1F => some (opShl (fieldsA w))
  | 0x20 => some (opShr (fieldsA w))
  | 0x21 => some (opSar (fieldsA w))
  | 0x22 => some (opMin (fieldsA w))
  | 0x23 => some (opMax (fieldsA w))
  | 0x24 => some (opAddp (fieldsA w))
  | 0x25 => some (opSubp (fieldsA w))
  | 0x27 => some (opSel (fieldsA w))
  | 0x28 => some (opMov (fieldsA w))
  | 0x29 => some (opAdda (fieldsI w))
  | 0x2A => some (opAddar (fieldsA w))
  | 0x2B => some (opSuba (fieldsA w))
  | 0x2D => some (opMovp (fieldsA w))
  | 0x2E => some (opShla (fieldsA w))
  | _ => none

/-- The compares, loads, stores and image instructions by opcode (R153, R154, R159). -/
def otherOp (w : W36) : Option Op :=
  match opcodeOf w with
  | 0x30 => some (opCeq (fieldsA w))
  | 0x31 => some (opCne (fieldsA w))
  | 0x32 => some (opClt (fieldsA w))
  | 0x33 => some (opCle (fieldsA w))
  | 0x34 => some (opCltu (fieldsA w))
  | 0x35 => some (opCleu (fieldsA w))
  | 0x36 => some (opCeqi (fieldsI w))
  | 0x37 => some (opClti (fieldsI w))
  | 0x38 => some (opCgti (fieldsI w))
  | 0x39 => some (opFceq (fieldsA w))
  | 0x3A => some (opFclt (fieldsA w))
  | 0x3B => some (opFcle (fieldsA w))
  | 0x40 => some (opLdw (fieldsI w))
  | 0x41 => some (opStw (fieldsI w))
  | 0x42 => some (opLdp (fieldsI w))
  | 0x43 => some (opStp (fieldsI w))
  | 0x44 => some (opLdwx (fieldsA w))
  | 0x45 => some (opStwx (fieldsA w))
  | 0x50 => some (opLdb (fieldsB w))
  | 0x51 => some (opLdbp (fieldsB w))
  | 0x52 => some (opRedge (fieldsB w))
  | 0x53 => some (opFedge (fieldsB w))
  | 0x54 => some (opChgb (fieldsB w))
  | 0x55 => some (opStb (fieldsB w))
  | 0x56 => some (opSetb (fieldsB w))
  | 0x57 => some (opClrb (fieldsB w))
  | 0x58 => some (opLdwp (fieldsB w))
  | 0x59 => some (opChgw (fieldsB w))
  | 0x5A => some (opTstb (fieldsA w))
  | 0x5B => some (opInsb (fieldsA w))
  | 0x5C => some (opPopc (fieldsA w))
  | 0x5D => some (opFfs (fieldsA w))
  | _ => none

/-- The float, branch, quality and time instructions by opcode (R163, R168, R171, R172). -/
def lateOp (w : W36) : Option Op :=
  match opcodeOf w with
  | 0x70 => some (opFadd (fieldsA w))
  | 0x71 => some (opFsub (fieldsA w))
  | 0x72 => some (opFmul (fieldsA w))
  | 0x73 => some (opFdiv (fieldsA w))
  | 0x74 => some (opFsqrt (fieldsA w))
  | 0x75 => some (opFmin (fieldsA w))
  | 0x76 => some (opFmax (fieldsA w))
  | 0x77 => some (opFabs (fieldsA w))
  | 0x78 => some (opFneg (fieldsA w))
  | 0x79 => some (opFcvtif (fieldsA w))
  | 0x7A => some (opFcvtfi (fieldsA w))
  | 0x80 => some (opJump (fieldsJ w))
  | 0x81 => some (opCall (fieldsJ w))
  | 0x82 => some (opBz (fieldsI w))
  | 0x83 => some (opBnz (fieldsI w))
  | 0x84 => some (opJr (fieldsA w))
  | 0x85 => some (opCallr (fieldsA w))
  | 0x86 => some (opRet (fieldsA w))
  | 0x87 => some (opBend (fieldsA w))
  | 0x90 => some (opQget (fieldsA w))
  | 0x91 => some (opQset (fieldsA w))
  | 0x92 => some (opQseti (fieldsI w))
  | 0x93 => some (opQori (fieldsI w))
  | 0x94 => some (opQclri (fieldsI w))
  | 0x95 => some (opQmrg (fieldsA w))
  | 0x96 => some (opQval (fieldsA w))
  | 0x97 => some (opQgood (fieldsA w))
  | 0x98 => some (opQsel (fieldsA w))
  | 0xA0 => some (opRdtime (fieldsA w))
  | 0xA1 => some (opRdbound (fieldsA w))
  | 0xA2 => some (opRdcyc (fieldsA w))
  | 0xA3 => some (opRdper (fieldsA w))
  | 0xA4 => some (opRdfull (fieldsA w))
  | 0xA5 => some (opRdcnt (fieldsA w))
  | _ => none

/-- The action of an instruction word of one word: ILLEGAL where no instruction is assigned (R71); none for format L, which
INJECT refuses (R470). -/
def wordOp (w : W36) : Option Op :=
  if opcodeOf w = 0x26 ∨ opcodeOf w = 0x2C then none
  else some (((sysOp w).orElse fun _ => (intOp w).orElse fun _ => (otherOp w).orElse fun _ => lateOp w).getD fun s c => s.illegal c)

/-- An instruction on a core that transfers control: a taken branch, a jump, a call or a return (R470). -/
def Core.transfers (x : Core) (w : W36) : Bool :=
  let op := opcodeOf w
  if op = 0x82 then decide (val (x.reg (fieldsI w).a) = 0)
  else if op = 0x83 then decide (val (x.reg (fieldsI w).a) ≠ 0)
  else decide (op = 0x06) || decide (0x80 ≤ op ∧ op ≤ 0x87)

/-- An instruction injected on a halted core whose pending writes have landed (R470): the load-delay slot that the core
stands in is kept for the core's own next instruction, and a locked-up Tender stays locked up (R94). -/
def State.injectOp (s : State) (c : CoreId) (w : W36) (op : Op) : State :=
  let x := s.at c
  match op (s.mapCore c Core.endSlot) c with
  | .done t next _ =>
    (t.mapCore c fun y => { y with
      pc := if x.transfers w then next else y.pc
      slot := x.slot, afterLoad := x.afterLoad
      issue := if x.issue = .lockedUp then .lockedUp else y.issue }).answer .ok 0
  | .trap t e => (t.mapCore c fun y => { y with slot := x.slot, afterLoad := x.afterLoad }).pokerFault c e
  | .stopped _ => s.answer .wait 0

/-- POKER_INJECT (R470). -/
def execPokerInject (w : W36) (s : State) : Result :=
  .next (s.poker_ false fun t =>
    let c := t.selected
    match wordOp w with
    | none => t.pokerNo
    | some op =>
      if !(t.at c).halted then t.pokerNo
      else if t.hidden then t.answer .auth 0
      else
        match t.land c (t.at c).loads.length (t.at c).loads with
        | (some e, u) => u.pokerFault c e
        | (none, u) => u.injectOp c w op)

/-! Authentication -/

/-- A fresh challenge of 8 words (R471); its words are free (log 2). -/
def State.freshChallenge (s : State) : State :=
  { s with
    poker := { s.poker with challenge := (List.range 8).map fun i => BitVec.ofNat 32 (Config.freeNat (s.freeCtr + i)), chalRead := 0, response := [] }
    freeCtr := s.freeCtr + 8 }

/-- POKER_CHALLENGE (R471, R500): refused without a debug key and during the lockout. A read past the eighth word begins a
new challenge. -/
def execPokerChallenge (s : State) : Result :=
  .next (s.poker_ true fun t =>
    if t.fuses.debugKey.isNone || t.poker.lockout then t.pokerNo
    else
      let u := if t.poker.chalRead < t.poker.challenge.length then t else t.freshChallenge
      { u with poker := { u.poker with chalRead := u.poker.chalRead + 1 } }.answer .ok
        (BitVec.ofNat 36 (u.poker.challenge.getD u.poker.chalRead 0).toNat))

/-- The hash of the debug key (R471, R500): a vendor key, or that of an OEM slot that is valid. -/
def State.debugKeyHash (s : State) : Option (List W32) :=
  match s.fuses.debugKey with
  | some 4 => some Config.vendorKeyHash
  | some n => if s.slotValid n then some (Sparse.get s.fuses.hashes [] n) else none
  | none => none

/-- The response verifies under the debug key over the challenge and the device ID (R471). -/
def State.responseOk (s : State) (sig : List W32) : Bool :=
  match s.debugKeyHash with
  | some h => ecdsaVerify h ((s.poker.challenge.flatMap fun w => beBytes 4 w.toNat) ++ Config.deviceId) sig
  | none => false

/-- The response is complete: access, or a failure with its event and record; the third in a row locks challenges out
(R471). -/
def State.authEnd (s : State) (good : Bool) : State :=
  let p := { s.poker with challenge := [], chalRead := 0, response := [] }
  if good then { s with poker := { p with auth := true, failures := 0 } }.setFld Reg.pkrStatusAuth 1
  else
    let n := s.poker.failures + 1
    (({ s with poker := { p with failures := n, lockout := decide (3 ≤ n) } }.raise Reg.pkrEventAuthFail).record 0x008 0x01 true [n])

/-- POKER_RESPONSE (R471): refused before a whole challenge has been read. -/
def execPokerResponse (w : W36) (s : State) : Result :=
  .next (s.poker_ true fun t =>
    if t.poker.challenge = [] ∨ t.poker.chalRead < 8 then t.pokerNo
    else
      let sig := t.poker.response ++ [BitVec.ofNat 32 w.toNat]
      if sig.length < 24 then { t with poker := { t.poker with response := sig } }.answer .ok 0
      else (t.authEnd (t.responseOk sig)).answer .ok 0)

/-- POKER_DEAUTH (R471). -/
def execPokerDeauth (s : State) : Result :=
  .next (s.poker_ false fun t => ({ t with poker := { t.poker with auth := false } }.setFld Reg.pkrStatusAuth 0).answer .ok 0)

/-- POKER_AUTH_LOCKOUT_END (R471). -/
def execPokerAuthLockoutEnd (s : State) : Result :=
  .next (if s.poker.lockout then { s with poker := { s.poker with lockout := false, failures := 0 } } else s)

/-! Sandbox -/

/-- SANDBOX on engine `e` is refused (R472): no DRAM or no area, no such block or instance, or too many granules; or `e` is
neither a spare nor the sandbox that runs. -/
def State.sandboxRefused (s : State) (e b i : Nat) : Bool :=
  !s.hasDram || decide (s.fld Reg.pkrSandboxBaseSbBase = 0) ||
    (match s.poker.sandbox with | some (f, _, _) => decide (f ≠ e) | none => decide (s.engState e ≠ 2)) ||
    (match s.desc b with
      | some d => (d.inst && decide (d.itab.length ≤ i)) || decide (2048 < (d.sandboxGranules (d.sandboxInst i)).length)
      | none => true)

/-- POKER_SANDBOX (R472): the snapshot is due at the end of the next Solve of the block's class. -/
def execPokerSandbox (s : State) : Result :=
  .next (s.poker_ false fun t =>
    match t.selected with
    | .tender => t.pokerNo
    | .engine e =>
      let b := (t.core e.val).dbgReg 0x44
      let i := (t.core e.val).dbgReg 0x45
      if t.sandboxRefused e.val b i then t.pokerNo
      else { t with poker := { t.poker with sandbox := some (e.val, b, i), snapDue := true } }.answer .ok 0)

/-- POKER_SANDBOX_END (R466): the engine is a spare again. -/
def execPokerSandboxEnd (s : State) : Result :=
  .next (s.poker_ false fun t =>
    match t.poker.sandbox with
    | none => t.pokerNo
    | some (e, _, _) =>
      let u := if t.engState e = 5 then t.setEngState e 2 else t
      ({ (u.idleEngine e).refreshHalted with poker := { u.poker with sandbox := none, snapDue := false } }.setFld
        Reg.pkrStatusSandbox 0).answer .ok 0)

/-! Requests as they are shifted in -/

/-- The operation of command bits [11:8] with the register of bits [7:0] and the data (R466); a number without an operation is refused
(DESIGN CHOICE, log 154). -/
def State.pokerOp (s : State) (command : BitVec 12) (data : W36) : Result :=
  match (command.toNat / 256) with
  | 0x0 => execPokerId s
  | 0x1 => execPokerSelect data.toNat s
  | 0x2 => execPokerRead (BitVec.ofNat 8 command.toNat) s
  | 0x3 => execPokerWrite (BitVec.ofNat 8 command.toNat) data s
  | 0x4 => execPokerHalt s
  | 0x5 => execPokerResume s
  | 0x6 => execPokerInject data s
  | 0x7 => execPokerChallenge s
  | 0x8 => execPokerResponse data s
  | 0x9 => execPokerDeauth s
  | 0xA => execPokerSandbox s
  | 0xB => execPokerSandboxEnd s
  | _ => .next (s.poker_ false State.pokerNo)

/-- A request of 50 bits, most significant bit first: the start bit, the command, the data, and a parity bit that makes command and data
even (R464). With a wrong parity the answer is PARITY and nothing else happens (R465); without its start bit it is no request. -/
def State.pokerRequest (s : State) (bits : BitVec 50) : Result :=
  if !bits.getLsbD 49 || !s.mainUp then .next s
  else if oddOnes (bits.extractLsb' 0 49) then .next (s.answer .parity 0)
  else s.pokerOp (bits.extractLsb' 37 12) (bits.extractLsb' 1 36)

end Sys2Proof.Machine
end

