-- ==== Sys2Proof/Machine/Uart.lean ====
section
/-! DEFINITION. The service UART: who is served (R489, R492), the answer frames (R490) and the commands (R491). -/

namespace Sys2Proof.Machine

/-- The STATUS byte of an answer (R490). -/
inductive UartStatus where
  | ok
  | discarded
  | bad
  | busy
  | level
  deriving DecidableEq, Repr

/-- The code of a STATUS (R490). -/
def UartStatus.code (u : UartStatus) : Byte :=
  match u with
  | .ok => 0
  | .discarded => 1
  | .bad => 2
  | .busy => 3
  | .level => 4

/-- The UART is served: TEN runs, outside Ember and the deep stage of Banked (R45, R443, R489). -/
def State.uartServed (s : State) : Bool :=
  s.mainUp && s.compUp 1 && s.tenderUp && !(decide (s.mode = modeBanked) && decide (s.fld Reg.pwrStatusBankStage = 2))

/-- The bytes inside a frame, with the flag and the escape byte escaped (R490). -/
def stuffed (bs : List Byte) : List Byte := bs.flatMap fun b => if b = 0x7E ∨ b = 0x7D then [0x7D, b ^^^ 0x20] else [b]

/-- A frame: CMD, TAG, LEN, the payload and their CRC-32C, between flags (R490). -/
def uartFrame (cmd : Nat) (tag : Byte) (payload : List Byte) : List Byte :=
  let body := [BitVec.ofNat 8 cmd, tag] ++ beBytes 2 payload.length ++ payload
  [0x7E] ++ stuffed (body ++ beBytes 4 (crc32c body)) ++ [0x7E]

/-- An answer frame to command `cmd` (R490). -/
def State.uartAnswer (s : State) (cmd : Nat) (tag : Byte) (u : UartStatus) (payload : List Byte) : State :=
  let s1 := if u = .discarded ∨ u = .level then s.uartDiscard else s
  s1.send (.uart (uartFrame (cmd + 0x80) tag (u.code :: payload)))

/-- The reply of a world to a message, whose length and bytes the world's software gives (log 41). -/
def State.freeReply (s : State) : List Byte × State :=
  let (n, t) := s.draw 4089
  t.drawBytes (n + 8)

/-- A message BLOCK that waits for its world is answered: the world has replied (R491; log 41). -/
def State.uartReplied (s : State) : State :=
  match s.uartWait with
  | none => s
  | some tag =>
    let (reply, t) := s.freeReply
    { t with uartWait := none }.uartAnswer 0x06 tag .ok ((0 : Byte) :: reply)

/-- A request served under TEN_SVC.LEVEL (R489, R492): `need` is the level that the command needs, `zeros` what a refusal
carries after its STATUS. A request behind a message that waits for its world is served once that one has been answered (R490). -/
def State.uartServe (s : State) (cmd : Nat) (tag : Byte) (need : Nat) (zeros : List Byte) (k : State → State) : State :=
  if !s.uartServed then s
  else
    let t := s.uartReplied
    if t.svcLevel < need then t.uartAnswer cmd tag .level zeros
    else k t

/-- A register as the UART reads it for IDENT, most significant byte first (R490, R491). -/
def State.identWord (s : State) (page off : Nat) : List Byte := beBytes 4 (s.regWord false page off)

/-- IDENT (R491). -/
def execIdent (tag : Byte) (s : State) : Result :=
  .next (s.uartServe 0x01 tag 1 [] fun t =>
    t.uartAnswer 0x01 tag .ok (t.identWord 0x000 0x004 ++ t.identWord 0x001 0x00C ++ t.identWord 0x016 0x00C ++
      t.identWord 0x015 0x00C))

/-- A register address that the UART takes (R491). -/
def uartRegOk (page off : Nat) : Bool :=
  decide (page < 0x400) && decide (off < 0x1000) && decide (off % 4 = 0) && pageAssigned page

/-- REG_READ (R482, R489, R491). -/
def execRegRead (tag : Byte) (page off : Nat) (s : State) : Result :=
  .next (s.uartServe 0x02 tag 1 (List.replicate 4 0) fun t =>
    if !uartRegOk page off then t.uartAnswer 0x02 tag .bad (List.replicate 4 0)
    else if t.hostForbidden false page off then t.uartAnswer 0x02 tag .discarded (List.replicate 4 0)
    else
      let (v, t1) := t.readReg false page off
      t1.uartAnswer 0x02 tag .ok (beBytes 4 v))

/-- REG_WRITE (R482, R489, R491). -/
def execRegWrite (tag : Byte) (page off : Nat) (v : W32) (s : State) : Result :=
  .next (s.uartServe 0x03 tag 2 [] fun t =>
    if !uartRegOk page off then t.uartAnswer 0x03 tag .bad []
    else if t.hostForbidden true page off then t.uartAnswer 0x03 tag .discarded []
    else (t.regWrite .uart page off v).uartAnswer 0x03 tag .ok [])

/-- IMAGE_READ (R102, R135, R491). -/
def execImageRead (tag : Byte) (off count : Nat) (s : State) : Result :=
  .next (s.uartServe 0x04 tag 1 [] fun t =>
    if count = 0 ∨ 64 < count then t.uartAnswer 0x04 tag .bad []
    else
      let (ws, t1) := t.hostSlotsFrom off count
      t1.uartAnswer 0x04 tag .ok (ws.flatMap slotBytes))

/-- IMAGE_WRITE (R102, R136, R491): each slot is checked and queued on its own. -/
def execImageWrite (tag : Byte) (off : Nat) (slots : List (BitVec 64)) (s : State) : Result :=
  .next (s.uartServe 0x05 tag 2 [] fun t =>
    if slots.length = 0 ∨ 64 < slots.length then t.uartAnswer 0x05 tag .bad []
    else ((slots.zipIdx.foldl (fun u p => u.hostStore (off + p.2) p.1.toNat) t)).uartAnswer 0x05 tag .ok [])

/-- UART_BLOCK (R487, R488, R491): checked and delivered without a mailbox, and answered when done; a message is answered when its world
has replied. -/
def execUartBlock (tag : Byte) (b : Block) (s : State) : Result :=
  .next (s.uartServe 0x06 tag 2 [] fun t =>
    if b.data.length ≠ b.length then t.uartAnswer 0x06 tag .bad []
    else
      let (result, t1) := t.deliverBlock b fun u => u.send (.uartMessage b.kind b.data)
      let u : UartStatus := if result = 4 then .busy else .ok
      if result = 0 ∧ 3 ≤ b.kind then { t1 with uartWait := some tag }
      else t1.uartAnswer 0x06 tag u [BitVec.ofNat 8 result])

/-- LOG_READ (R417, R491). -/
def execLogRead (tag : Byte) (off len : Nat) (s : State) : Result :=
  .next (s.uartServe 0x07 tag 1 [] fun t =>
    if len = 0 ∨ 4096 < len ∨ ashLogSize < off + len then t.uartAnswer 0x07 tag .bad []
    else t.uartAnswer 0x07 tag .ok (t.flashBytes (ashLogBase + off) len))

/-! Requests as they arrive -/

/-- The bytes of a frame without its escapes (R490). -/
def unstuffed : List Byte → List Byte
  | [] => []
  | [b] => [b]
  | b :: c :: rest => if b = 0x7D then (c ^^^ 0x20) :: unstuffed rest else b :: unstuffed (c :: rest)

/-- CMD, TAG and payload of what lies between two flags; none where the CRC fails or the length does not match LEN (R490). -/
def uartBody (inside : List Byte) : Option (Nat × Byte × List Byte) :=
  let b := unstuffed inside
  let n := field b 2 2
  if b.length = n + 8 ∧ n ≤ 4112 ∧ field b (n + 4) 4 = crc32c (b.take (n + 4)) then
    some (field b 0 1, b.getD 1 0, (b.drop 4).take n)
  else none

/-- A request whose payload has the wrong length, or of a CMD that names no command (R490; DESIGN CHOICE for the latter, log 154). -/
def State.uartBad (s : State) (cmd : Nat) (tag : Byte) : State :=
  s.uartServe cmd tag 1 [] fun t => t.uartAnswer cmd tag .bad []

/-- The command that a request spells (R491). -/
def State.uartCommand (s : State) (cmd : Nat) (tag : Byte) (p : List Byte) : Result :=
  match cmd with
  | 0x01 => if p.length = 0 then execIdent tag s else .next (s.uartBad cmd tag)
  | 0x02 => if p.length = 4 then execRegRead tag (field p 0 2) (field p 2 2) s else .next (s.uartBad cmd tag)
  | 0x03 =>
    if p.length = 8 then execRegWrite tag (field p 0 2) (field p 2 2) (BitVec.ofNat 32 (field p 4 4)) s else .next (s.uartBad cmd tag)
  | 0x04 => if p.length = 5 then execImageRead tag (field p 0 4) (field p 4 1) s else .next (s.uartBad cmd tag)
  | 0x05 =>
    let n := field p 4 1
    if p.length = 5 + 8 * n then
      execImageWrite tag (field p 0 4) ((List.range n).map fun i => BitVec.ofNat 64 (leNat ((p.drop (5 + 8 * i)).take 8))) s
    else .next (s.uartBad cmd tag)
  | 0x06 =>
    if 11 ≤ p.length then
      execUartBlock tag ⟨field p 0 1, field p 1 4, field p 5 2, BitVec.ofNat 32 (field p 7 4), p.drop 11⟩ s
    else .next (s.uartBad cmd tag)
  | 0x07 => if p.length = 6 then execLogRead tag (field p 0 4) (field p 4 2) s else .next (s.uartBad cmd tag)
  | _ => .next (s.uartBad cmd tag)

/-- What lies between two flags has arrived (R490): a frame with a bad CRC or length is discarded, and nothing is answered. -/
def State.uartReceive (s : State) (inside : List Byte) : Result :=
  match uartBody inside with
  | some (cmd, tag, p) => s.uartCommand cmd tag p
  | none => .next s

end Sys2Proof.Machine
end

