-- ==== Sys2Proof/Machine/Dispatch.lean ====
section
/-! DEFINITION. The meaning of each command: one arm per constructor. -/

namespace Sys2Proof.Machine

/-- The effect of a command on everything but the queue. -/
def exec (i : Instr) (s : State) : Host.Outcome State Fault Refusal :=
  match i with
  | .registerWrite r page off v => Sys2Proof.Machine.execRegisterWrite r page off v s
  | .hostUnassignedAccess write page off => Sys2Proof.Machine.execHostUnassignedAccess write page off s
  | .ledgerBreak l => Sys2Proof.Machine.execLedgerBreak l s
  | .engineFailure e credits => Sys2Proof.Machine.execEngineFailure e credits s
  | .fbxEngineMapout r e v credits => Sys2Proof.Machine.execFbxEngineMapout r e v credits s
  | .spareLoadDone e => Sys2Proof.Machine.execSpareLoadDone e s
  | .fbxClusterMapout r n v => Sys2Proof.Machine.execFbxClusterMapout r n v s
  | .clusterDomainFault n => Sys2Proof.Machine.execClusterDomainFault n s
  | .drmMapout r v => Sys2Proof.Machine.execDrmMapout r v s
  | .drmReturn r v => Sys2Proof.Machine.execDrmReturn r v s
  | .resilverDone ch => Sys2Proof.Machine.execResilverDone ch s
  | .dramChannelFault ch => Sys2Proof.Machine.execDramChannelFault ch s
  | .chmPortMapout r x v => Sys2Proof.Machine.execChmPortMapout r x v s
  | .hobPortMapout r p v => Sys2Proof.Machine.execHobPortMapout r p v s
  | .nop c o => Sys2Proof.Machine.execNop c o s
  | .sys c o => Sys2Proof.Machine.execSys c o s
  | .sysw c o => Sys2Proof.Machine.execSysw c o s
  | .svc c o => Sys2Proof.Machine.execSvc c o s
  | .brk c o => Sys2Proof.Machine.execBrk c o s
  | .rete c o => Sys2Proof.Machine.execRete c o s
  | .wfi c o => Sys2Proof.Machine.execWfi c o s
  | .wfiWake => Sys2Proof.Machine.execWfiWake s
  | .fence c o => Sys2Proof.Machine.execFence c o s
  | .fenceDrained c => Sys2Proof.Machine.execFenceDrained c s
  | .add c o => Sys2Proof.Machine.execAdd c o s
  | .addi c o => Sys2Proof.Machine.execAddi c o s
  | .sub c o => Sys2Proof.Machine.execSub c o s
  | .adds c o => Sys2Proof.Machine.execAdds c o s
  | .subs c o => Sys2Proof.Machine.execSubs c o s
  | .mul c o => Sys2Proof.Machine.execMul c o s
  | .mulh c o => Sys2Proof.Machine.execMulh c o s
  | .mulhu c o => Sys2Proof.Machine.execMulhu c o s
  | .div c o => Sys2Proof.Machine.execDiv c o s
  | .divu c o => Sys2Proof.Machine.execDivu c o s
  | .rem c o => Sys2Proof.Machine.execRem c o s
  | .remu c o => Sys2Proof.Machine.execRemu c o s
  | .and_ c o => Sys2Proof.Machine.execAnd c o s
  | .or_ c o => Sys2Proof.Machine.execOr c o s
  | .xor_ c o => Sys2Proof.Machine.execXor c o s
  | .andi c o => Sys2Proof.Machine.execAndi c o s
  | .ori c o => Sys2Proof.Machine.execOri c o s
  | .xori c o => Sys2Proof.Machine.execXori c o s
  | .shl c o => Sys2Proof.Machine.execShl c o s
  | .shr c o => Sys2Proof.Machine.execShr c o s
  | .sar c o => Sys2Proof.Machine.execSar c o s
  | .min c o => Sys2Proof.Machine.execMin c o s
  | .max c o => Sys2Proof.Machine.execMax c o s
  | .addp c o => Sys2Proof.Machine.execAddp c o s
  | .subp c o => Sys2Proof.Machine.execSubp c o s
  | .liq c o => Sys2Proof.Machine.execLiq c o s
  | .sel c o => Sys2Proof.Machine.execSel c o s
  | .mov c o => Sys2Proof.Machine.execMov c o s
  | .adda c o => Sys2Proof.Machine.execAdda c o s
  | .addar c o => Sys2Proof.Machine.execAddar c o s
  | .suba c o => Sys2Proof.Machine.execSuba c o s
  | .li c o => Sys2Proof.Machine.execLi c o s
  | .movp c o => Sys2Proof.Machine.execMovp c o s
  | .shla c o => Sys2Proof.Machine.execShla c o s
  | .ceq c o => Sys2Proof.Machine.execCeq c o s
  | .cne c o => Sys2Proof.Machine.execCne c o s
  | .clt c o => Sys2Proof.Machine.execClt c o s
  | .cle c o => Sys2Proof.Machine.execCle c o s
  | .cltu c o => Sys2Proof.Machine.execCltu c o s
  | .cleu c o => Sys2Proof.Machine.execCleu c o s
  | .ceqi c o => Sys2Proof.Machine.execCeqi c o s
  | .clti c o => Sys2Proof.Machine.execClti c o s
  | .cgti c o => Sys2Proof.Machine.execCgti c o s
  | .fceq c o => Sys2Proof.Machine.execFceq c o s
  | .fclt c o => Sys2Proof.Machine.execFclt c o s
  | .fcle c o => Sys2Proof.Machine.execFcle c o s
  | .ldw c o => Sys2Proof.Machine.execLdw c o s
  | .stw c o => Sys2Proof.Machine.execStw c o s
  | .ldp c o => Sys2Proof.Machine.execLdp c o s
  | .stp c o => Sys2Proof.Machine.execStp c o s
  | .ldwx c o => Sys2Proof.Machine.execLdwx c o s
  | .stwx c o => Sys2Proof.Machine.execStwx c o s
  | .ldb c o => Sys2Proof.Machine.execLdb c o s
  | .ldbp c o => Sys2Proof.Machine.execLdbp c o s
  | .redge c o => Sys2Proof.Machine.execRedge c o s
  | .fedge c o => Sys2Proof.Machine.execFedge c o s
  | .chgb c o => Sys2Proof.Machine.execChgb c o s
  | .stb c o => Sys2Proof.Machine.execStb c o s
  | .setb c o => Sys2Proof.Machine.execSetb c o s
  | .clrb c o => Sys2Proof.Machine.execClrb c o s
  | .ldwp c o => Sys2Proof.Machine.execLdwp c o s
  | .chgw c o => Sys2Proof.Machine.execChgw c o s
  | .tstb c o => Sys2Proof.Machine.execTstb c o s
  | .insb c o => Sys2Proof.Machine.execInsb c o s
  | .popc c o => Sys2Proof.Machine.execPopc c o s
  | .ffs c o => Sys2Proof.Machine.execFfs c o s
  | .fadd c o => Sys2Proof.Machine.execFadd c o s
  | .fsub c o => Sys2Proof.Machine.execFsub c o s
  | .fmul c o => Sys2Proof.Machine.execFmul c o s
  | .fdiv c o => Sys2Proof.Machine.execFdiv c o s
  | .fsqrt c o => Sys2Proof.Machine.execFsqrt c o s
  | .fmin c o => Sys2Proof.Machine.execFmin c o s
  | .fmax c o => Sys2Proof.Machine.execFmax c o s
  | .fabs c o => Sys2Proof.Machine.execFabs c o s
  | .fneg c o => Sys2Proof.Machine.execFneg c o s
  | .fcvtif c o => Sys2Proof.Machine.execFcvtif c o s
  | .fcvtfi c o => Sys2Proof.Machine.execFcvtfi c o s
  | .jump c o => Sys2Proof.Machine.execJump c o s
  | .call c o => Sys2Proof.Machine.execCall c o s
  | .bz c o => Sys2Proof.Machine.execBz c o s
  | .bnz c o => Sys2Proof.Machine.execBnz c o s
  | .jr c o => Sys2Proof.Machine.execJr c o s
  | .callr c o => Sys2Proof.Machine.execCallr c o s
  | .ret c o => Sys2Proof.Machine.execRet c o s
  | .bend c o => Sys2Proof.Machine.execBend c o s
  | .qget c o => Sys2Proof.Machine.execQget c o s
  | .qset c o => Sys2Proof.Machine.execQset c o s
  | .qseti c o => Sys2Proof.Machine.execQseti c o s
  | .qori c o => Sys2Proof.Machine.execQori c o s
  | .qclri c o => Sys2Proof.Machine.execQclri c o s
  | .qmrg c o => Sys2Proof.Machine.execQmrg c o s
  | .qval c o => Sys2Proof.Machine.execQval c o s
  | .qgood c o => Sys2Proof.Machine.execQgood c o s
  | .qsel c o => Sys2Proof.Machine.execQsel c o s
  | .rdtime c o => Sys2Proof.Machine.execRdtime c o s
  | .rdbound c o => Sys2Proof.Machine.execRdbound c o s
  | .rdcyc c o => Sys2Proof.Machine.execRdcyc c o s
  | .rdper c o => Sys2Proof.Machine.execRdper c o s
  | .rdfull c o => Sys2Proof.Machine.execRdfull c o s
  | .rdcnt c o => Sys2Proof.Machine.execRdcnt c o s
  | .loadComplete c unc => Sys2Proof.Machine.execLoadComplete c unc s
  | .storeComplete c => Sys2Proof.Machine.execStoreComplete c s
  | .lockstepMismatch => Sys2Proof.Machine.execLockstepMismatch s
  | .interruptEntry source => Sys2Proof.Machine.execInterruptEntry source s
  | .nmiEntry => Sys2Proof.Machine.execNmiEntry s
  | .budgetExceeded e => Sys2Proof.Machine.execBudgetExceeded e s
  | .hostImageRead off len => Sys2Proof.Machine.execHostImageRead off len s
  | .hostImageWrite off data => Sys2Proof.Machine.execHostImageWrite off data s
  | .settleEnd k => Sys2Proof.Machine.execSettleEnd k s
  | .scrubRead found => Sys2Proof.Machine.execScrubRead found s
  | .hrtRetainCapture r v => Sys2Proof.Machine.execHrtRetainCapture r v s
  | .retainCaptureEnd => Sys2Proof.Machine.execRetainCaptureEnd s
  | .classBoundary k => Sys2Proof.Machine.execClassBoundary k s
  | .intakeComplete k => Sys2Proof.Machine.execIntakeComplete k s
  | .tierOpen k => Sys2Proof.Machine.execTierOpen k s
  | .tierToken k l => Sys2Proof.Machine.execTierToken k l s
  | .solveEnd k => Sys2Proof.Machine.execSolveEnd k s
  | .outlayEnd k => Sys2Proof.Machine.execOutlayEnd k s
  | .mirrorHandover k => Sys2Proof.Machine.execMirrorHandover k s
  | .stallResume r k v => Sys2Proof.Machine.execStallResume r k v s
  | .blwPeriodWrite r k v => Sys2Proof.Machine.execBlwPeriodWrite r k v s
  | .blwPhaseOffsetWrite r k v => Sys2Proof.Machine.execBlwPhaseOffsetWrite r k v s
  | .blwLockWrite r k v => Sys2Proof.Machine.execBlwLockWrite r k v s
  | .blockEnable r block => Sys2Proof.Machine.execBlockEnable r block s
  | .blockDisable r block => Sys2Proof.Machine.execBlockDisable r block s
  | .enableAllInstances r block => Sys2Proof.Machine.execEnableAllInstances r block s
  | .beginLoad r => Sys2Proof.Machine.execBeginLoad r s
  | .verify r => Sys2Proof.Machine.execVerify r s
  | .verifyDone mantelOk => Sys2Proof.Machine.execVerifyDone mantelOk s
  | .arm r => Sys2Proof.Machine.execArm r s
  | .disarm r => Sys2Proof.Machine.execDisarm r s
  | .rollbackArm r => Sys2Proof.Machine.execRollbackArm r s
  | .activateNow r => Sys2Proof.Machine.execActivateNow r s
  | .editDiscard r => Sys2Proof.Machine.execEditDiscard r s
  | .armMessage digest k cycle => Sys2Proof.Machine.execArmMessage digest k cycle s
  | .armAcknowledge => Sys2Proof.Machine.execArmAcknowledge s
  | .armAckTimeout => Sys2Proof.Machine.execArmAckTimeout s
  | .disarmMessage => Sys2Proof.Machine.execDisarmMessage s
  | .dtlsHandshake session h => Sys2Proof.Machine.execDtlsHandshake session h s
  | .dtlsKeyUpdate session => Sys2Proof.Machine.execDtlsKeyUpdate session s
  | .dtlsRecord session port head seq authentic frame => Sys2Proof.Machine.execDtlsRecord session port head seq authentic frame s
  | .sessionIdleTimeout session => Sys2Proof.Machine.execSessionIdleTimeout session s
  | .draughtBind session => Sys2Proof.Machine.execDraughtBind session s
  | .draughtIntake session => Sys2Proof.Machine.execDraughtIntake session s
  | .draughtAck session => Sys2Proof.Machine.execDraughtAck session s
  | .draughtEvent session => Sys2Proof.Machine.execDraughtEvent session s
  | .outlayRepeat station => Sys2Proof.Machine.execOutlayRepeat station s
  | .holdRepeat station => Sys2Proof.Machine.execHoldRepeat station s
  | .stnSelect r station => Sys2Proof.Machine.execStnSelect r station s
  | .closeSession r station => Sys2Proof.Machine.execCloseSession r station s
  | .stationDisable r station => Sys2Proof.Machine.execStationDisable r station s
  | .stationEnable r station => Sys2Proof.Machine.execStationEnable r station s
  | .clearCounters r station => Sys2Proof.Machine.execClearCounters r station s
  | .interrogateNow r station => Sys2Proof.Machine.execInterrogateNow r station s
  | .arpRequest x vlan target => Sys2Proof.Machine.execArpRequest x vlan target s
  | .ethLinkChange x up speed => Sys2Proof.Machine.execEthLinkChange x up speed s
  | .legacyConnect station => Sys2Proof.Machine.execLegacyConnect station s
  | .legacyRetry station => Sys2Proof.Machine.execLegacyRetry station s
  | .legacyKeyRenewal station => Sys2Proof.Machine.execLegacyKeyRenewal station s
  | .legacyApdu station apdu => Sys2Proof.Machine.execLegacyApdu station apdu s
  | .legacyActcon station ioa positive => Sys2Proof.Machine.execLegacyActcon station ioa positive s
  | .legacyActterm station => Sys2Proof.Machine.execLegacyActterm station s
  | .legacyTestFrame station => Sys2Proof.Machine.execLegacyTestFrame station s
  | .legacyT1Timeout station => Sys2Proof.Machine.execLegacyT1Timeout station s
  | .legacyInterrogationTimer station => Sys2Proof.Machine.execLegacyInterrogationTimer station s
  | .legacyClockSyncTimer station => Sys2Proof.Machine.execLegacyClockSyncTimer station s
  | .legacyNegHoldoffEnd station ioa => Sys2Proof.Machine.execLegacyNegHoldoffEnd station ioa s
  | .hobModeWrite r p v => Sys2Proof.Machine.execHobModeWrite r p v s
  | .hobModeChange p => Sys2Proof.Machine.execHobModeChange p s
  | .hobImageFrame p f => Sys2Proof.Machine.execHobImageFrame p f s
  | .hobAckFrame p f => Sys2Proof.Machine.execHobAckFrame p f s
  | .hobEventFrame p f => Sys2Proof.Machine.execHobEventFrame p f s
  | .hobForeignFrame p why => Sys2Proof.Machine.execHobForeignFrame p why s
  | .hobPeerFrame p f => Sys2Proof.Machine.execHobPeerFrame p f s
  | .hobStationWakeFrame p f => Sys2Proof.Machine.execHobStationWakeFrame p f s
  | .hobSleepVote p f => Sys2Proof.Machine.execHobSleepVote p f s
  | .hobFrameSent p => Sys2Proof.Machine.execHobFrameSent p s
  | .hobTxFailed p how => Sys2Proof.Machine.execHobTxFailed p how s
  | .hobBackoffEnd p b => Sys2Proof.Machine.execHobBackoffEnd p b s
  | .hobTxCancel r p v => Sys2Proof.Machine.execHobTxCancel r p v s
  | .hobRefGuard p => Sys2Proof.Machine.execHobRefGuard p s
  | .hobReferenceLaunch p => Sys2Proof.Machine.execHobReferenceLaunch p s
  | .hobReferenceLost p => Sys2Proof.Machine.execHobReferenceLost p s
  | .hobBusOff p => Sys2Proof.Machine.execHobBusOff p s
  | .hobBusOffRecovery p => Sys2Proof.Machine.execHobBusOffRecovery p s
  | .hobSleepRequest r p => Sys2Proof.Machine.execHobSleepRequest r p s
  | .hobVoteEnd p => Sys2Proof.Machine.execHobVoteEnd p s
  | .hobQuietWindowEnd p => Sys2Proof.Machine.execHobQuietWindowEnd p s
  | .hobSleepWake r p => Sys2Proof.Machine.execHobSleepWake r p s
  | .hobGroupWake g => Sys2Proof.Machine.execHobGroupWake g s
  | .hobBusWake p => Sys2Proof.Machine.execHobBusWake p s
  | .hobPortRestarted p => Sys2Proof.Machine.execHobPortRestarted p s
  | .hobSequencerFault q => Sys2Proof.Machine.execHobSequencerFault q s
  | .heartbeatTimer => Sys2Proof.Machine.execHeartbeatTimer s
  | .erairHeartbeat payload => Sys2Proof.Machine.execErairHeartbeat payload s
  | .erairLoss => Sys2Proof.Machine.execErairLoss s
  | .erairLinkUp roundTripNs partnerTime => Sys2Proof.Machine.execErairLinkUp roundTripNs partnerTime s
  | .laneFailure l => Sys2Proof.Machine.execLaneFailure l s
  | .laneRetrainDone lanes => Sys2Proof.Machine.execLaneRetrainDone lanes s
  | .erairRecord words => Sys2Proof.Machine.execErairRecord words s
  | .erairAck k cycle applied => Sys2Proof.Machine.execErairAck k cycle applied s
  | .recordResendTimeout k cycle => Sys2Proof.Machine.execRecordResendTimeout k cycle s
  | .ackTimeout k => Sys2Proof.Machine.execAckTimeout k s
  | .timeOkTimeout => Sys2Proof.Machine.execTimeOkTimeout s
  | .eraSync r => Sys2Proof.Machine.execEraSync r s
  | .eraDesync r => Sys2Proof.Machine.execEraDesync r s
  | .eraSwap r => Sys2Proof.Machine.execEraSwap r s
  | .syncStart => Sys2Proof.Machine.execSyncStart s
  | .versionMessage m => Sys2Proof.Machine.execVersionMessage m s
  | .copyCell granule current previous => Sys2Proof.Machine.execCopyCell granule current previous s
  | .syncDone x => Sys2Proof.Machine.execSyncDone x s
  | .listenTimeout => Sys2Proof.Machine.execListenTimeout s
  | .handover => Sys2Proof.Machine.execHandover s
  | .aliveOutToggle => Sys2Proof.Machine.execAliveOutToggle s
  | .partnerAliveEdge intervalUs => Sys2Proof.Machine.execPartnerAliveEdge intervalUs s
  | .lineDead => Sys2Proof.Machine.execLineDead s
  | .witnessProbeTimer => Sys2Proof.Machine.execWitnessProbeTimer s
  | .witnessProbe w => Sys2Proof.Machine.execWitnessProbe w s
  | .witnessAnswer w => Sys2Proof.Machine.execWitnessAnswer w s
  | .witnessClaimNotice w => Sys2Proof.Machine.execWitnessClaimNotice w s
  | .witnessDead => Sys2Proof.Machine.execWitnessDead s
  | .claimNoticeTimer => Sys2Proof.Machine.execClaimNoticeTimer s
  | .swapPoint => Sys2Proof.Machine.execSwapPoint s
  | .swapDemote => Sys2Proof.Machine.execSwapDemote s
  | .release cycles => Sys2Proof.Machine.execRelease cycles s
  | .tspSample r d hi => Sys2Proof.Machine.execTspSample r d hi s
  | .tspAdjust r d hi => Sys2Proof.Machine.execTspAdjust r d hi s
  | .tspSelect r v => Sys2Proof.Machine.execTspSelect r v s
  | .tspHoldover d => Sys2Proof.Machine.execTspHoldover d s
  | .tspBleedEnd => Sys2Proof.Machine.execTspBleedEnd s
  | .tspSysRead r => Sys2Proof.Machine.execTspSysRead r s
  | .tspDomainRead r d => Sys2Proof.Machine.execTspDomainRead r d s
  | .timedLaunch port => Sys2Proof.Machine.execTimedLaunch port s
  | .grateConfigWrite r n v => Sys2Proof.Machine.execGrateConfigWrite r n v s
  | .gratePairWrite r v => Sys2Proof.Machine.execGratePairWrite r v s
  | .grateInputChange n on => Sys2Proof.Machine.execGrateInputChange n on s
  | .grateOverload n => Sys2Proof.Machine.execGrateOverload n s
  | .grateThermal n => Sys2Proof.Machine.execGrateThermal n s
  | .grateRetry n => Sys2Proof.Machine.execGrateRetry n s
  | .grateFaultClear n => Sys2Proof.Machine.execGrateFaultClear n s
  | .grateSupplyChange g mv => Sys2Proof.Machine.execGrateSupplyChange g mv s
  | .mantelRead r found => Sys2Proof.Machine.execMantelRead r found s
  | .stage r => Sys2Proof.Machine.execStage r s
  | .commit r => Sys2Proof.Machine.execCommit r s
  | .commitErase r => Sys2Proof.Machine.execCommitErase r s
  | .erase r => Sys2Proof.Machine.execErase r s
  | .mantelDiscard r => Sys2Proof.Machine.execMantelDiscard r s
  | .paramAppend r => Sys2Proof.Machine.execParamAppend r s
  | .retainCommit r => Sys2Proof.Machine.execRetainCommit r s
  | .mantelOpDone => Sys2Proof.Machine.execMantelOpDone s
  | .backgroundErase block => Sys2Proof.Machine.execBackgroundErase block s
  | .privilegedCommitDone => Sys2Proof.Machine.execPrivilegedCommitDone s
  | .ashFlush r => Sys2Proof.Machine.execAshFlush r s
  | .ashFlushDone => Sys2Proof.Machine.execAshFlushDone s
  | .ashClear r => Sys2Proof.Machine.execAshClear r s
  | .ashClearDone => Sys2Proof.Machine.execAshClearDone s
  | .pwrHold r => Sys2Proof.Machine.execPwrHold r s
  | .pwrRun r => Sys2Proof.Machine.execPwrRun r s
  | .pwrBank r => Sys2Proof.Machine.execPwrBank r s
  | .pwrRake r => Sys2Proof.Machine.execPwrRake r s
  | .pwrRakeOff r => Sys2Proof.Machine.execPwrRakeOff r s
  | .pwrWake r => Sys2Proof.Machine.execPwrWake r s
  | .pwrReset r => Sys2Proof.Machine.execPwrReset r s
  | .pdRequest r n v => Sys2Proof.Machine.execPdRequest r n v s
  | .pdSwitchDone n => Sys2Proof.Machine.execPdSwitchDone n s
  | .secOwnerWrite r n own => Sys2Proof.Machine.execSecOwnerWrite r n own s
  | .mainSupplyValid => Sys2Proof.Machine.execMainSupplyValid s
  | .brownOut => Sys2Proof.Machine.execBrownOut s
  | .resetPin => Sys2Proof.Machine.execResetPin s
  | .kindlingStart f => Sys2Proof.Machine.execKindlingStart f s
  | .kindlingEnd => Sys2Proof.Machine.execKindlingEnd s
  | .powerFail src => Sys2Proof.Machine.execPowerFail src s
  | .pfRecovered => Sys2Proof.Machine.execPfRecovered s
  | .pfCommitsDone => Sys2Proof.Machine.execPfCommitsDone s
  | .bankDeepStage => Sys2Proof.Machine.execBankDeepStage s
  | .wakePin => Sys2Proof.Machine.execWakePin s
  | .perstRise => Sys2Proof.Machine.execPerstRise s
  | .rakeEnd f => Sys2Proof.Machine.execRakeEnd f s
  | .emberAlarm => Sys2Proof.Machine.execEmberAlarm s
  | .emberHalt r v => Sys2Proof.Machine.execEmberHalt r v s
  | .emberTickSet r hi => Sys2Proof.Machine.execEmberTickSet r hi s
  | .emberAlarmSet r hi => Sys2Proof.Machine.execEmberAlarmSet r hi s
  | .oscFail => Sys2Proof.Machine.execOscFail s
  | .emberPor => Sys2Proof.Machine.execEmberPor s
  | .vbakMeasure mv => Sys2Proof.Machine.execVbakMeasure mv s
  | .emberUnlock => Sys2Proof.Machine.execEmberUnlock s
  | .clockLoss => Sys2Proof.Machine.execClockLoss s
  | .clockRestored => Sys2Proof.Machine.execClockRestored s
  | .fgdConfigWrite r g v => Sys2Proof.Machine.execFgdConfigWrite r g v s
  | .fgdService r v => Sys2Proof.Machine.execFgdService r v s
  | .guardExpiry g => Sys2Proof.Machine.execGuardExpiry g s
  | .hardTimerExpiry => Sys2Proof.Machine.execHardTimerExpiry s
  | .sweepRequest r v => Sys2Proof.Machine.execSweepRequest r v s
  | .sweepTestDone pass signature => Sys2Proof.Machine.execSweepTestDone pass signature s
  | .pokerId => Sys2Proof.Machine.execPokerId s
  | .pokerSelect core => Sys2Proof.Machine.execPokerSelect core s
  | .pokerRead n => Sys2Proof.Machine.execPokerRead n s
  | .pokerWrite n w => Sys2Proof.Machine.execPokerWrite n w s
  | .pokerHalt => Sys2Proof.Machine.execPokerHalt s
  | .coreHaltTaken c => Sys2Proof.Machine.execCoreHaltTaken c s
  | .pokerResume => Sys2Proof.Machine.execPokerResume s
  | .pokerInject w => Sys2Proof.Machine.execPokerInject w s
  | .pokerChallenge => Sys2Proof.Machine.execPokerChallenge s
  | .pokerResponse w => Sys2Proof.Machine.execPokerResponse w s
  | .pokerDeauth => Sys2Proof.Machine.execPokerDeauth s
  | .pokerAuthLockoutEnd => Sys2Proof.Machine.execPokerAuthLockoutEnd s
  | .pokerSandbox => Sys2Proof.Machine.execPokerSandbox s
  | .pokerSandboxEnd => Sys2Proof.Machine.execPokerSandboxEnd s
  | .mailboxDoorbell m b tag => Sys2Proof.Machine.execMailboxDoorbell m b tag s
  | .mailboxBlockDone m => Sys2Proof.Machine.execMailboxBlockDone m s
  | .mailboxReply m data => Sys2Proof.Machine.execMailboxReply m data s
  | .mailboxAck m => Sys2Proof.Machine.execMailboxAck m s
  | .pciSwInt r v => Sys2Proof.Machine.execPciSwInt r v s
  | .pciSwClear r v => Sys2Proof.Machine.execPciSwClear r v s
  | .pcieDlActive speed width => Sys2Proof.Machine.execPcieDlActive speed width s
  | .pcieLinkDown => Sys2Proof.Machine.execPcieLinkDown s
  | .ident tag => Sys2Proof.Machine.execIdent tag s
  | .regRead tag page off => Sys2Proof.Machine.execRegRead tag page off s
  | .regWrite tag page off v => Sys2Proof.Machine.execRegWrite tag page off v s
  | .imageRead tag off count => Sys2Proof.Machine.execImageRead tag off count s
  | .imageWrite tag off slots => Sys2Proof.Machine.execImageWrite tag off slots s
  | .uartBlock tag b => Sys2Proof.Machine.execUartBlock tag b s
  | .logRead tag off len => Sys2Proof.Machine.execLogRead tag off len s
  | .ownerWrite r page v => Sys2Proof.Machine.execOwnerWrite r page v s
  | .secLsSplitWrite r v => Sys2Proof.Machine.execSecLsSplitWrite r v s
  | .secDramRangeWrite r limit v => Sys2Proof.Machine.execSecDramRangeWrite r limit v s
  | .tenRomExit r v => Sys2Proof.Machine.execTenRomExit r v s
  | .programOemSlot r arg => Sys2Proof.Machine.execProgramOemSlot r arg s
  | .revokeOemSlot r arg => Sys2Proof.Machine.execRevokeOemSlot r arg s
  | .blowOemCosign r => Sys2Proof.Machine.execBlowOemCosign r s
  | .setDebugKey r arg => Sys2Proof.Machine.execSetDebugKey r arg s
  | .advanceAntiRollback r arg target => Sys2Proof.Machine.execAdvanceAntiRollback r arg target s
  | .fuseDone programmed => Sys2Proof.Machine.execFuseDone programmed s
  | .rlnBegin r => Sys2Proof.Machine.execRlnBegin r s
  | .rlnFinalize r => Sys2Proof.Machine.execRlnFinalize r s
  | .rlnCheckDone => Sys2Proof.Machine.execRlnCheckDone s
  | .rlnActivate r => Sys2Proof.Machine.execRlnActivate r s
  | .rlnAbort r => Sys2Proof.Machine.execRlnAbort r s
  | .rlnSlotWritten m => Sys2Proof.Machine.execRlnSlotWritten m s
  | .componentStarted comp => Sys2Proof.Machine.execComponentStarted comp s
  | .componentStartTimeout comp => Sys2Proof.Machine.execComponentStartTimeout comp s
  | .illegalOpcode c w => Sys2Proof.Machine.execIllegalOpcode c w s
  | .granuleCopyRequest granule => Sys2Proof.Machine.execGranuleCopyRequest granule s
  | .erairCellCrcError c => Sys2Proof.Machine.execErairCellCrcError c s
  | .hobBusError p inc => Sys2Proof.Machine.execHobBusError p inc s
  | .ptpEventMessage x message => Sys2Proof.Machine.execPtpEventMessage x message s
  | .ethFrameDiscard x why => Sys2Proof.Machine.execEthFrameDiscard x why s
  | .hostAccessDiscard write page off size => Sys2Proof.Machine.execHostAccessDiscard write page off size s
  | .perstFall => Sys2Proof.Machine.execPerstFall s
  | .legacyTlsHandshake station tls13 outcome => Sys2Proof.Machine.execLegacyTlsHandshake station tls13 outcome s
  | .legacyConnectionLost station => Sys2Proof.Machine.execLegacyConnectionLost station s
  | .legacyT0Timeout station => Sys2Proof.Machine.execLegacyT0Timeout station s
  | .legacyT2Timeout station => Sys2Proof.Machine.execLegacyT2Timeout station s

end Sys2Proof.Machine
end

