-- ==== Sys2Proof/Machine/Fabric.lean ====
section
/-! DEFINITION. The Flue in one tick (R20-R24, R26): packets reach their nodes, responses go back, each arbiter grants one packet,
and flits in transit reach their slots. The arbiters are those of the 16 cluster gates and of the hub (log 47). -/

namespace Sys2Proof.Machine

/-- The number of the hub's arbiter; a cluster gate's is its cluster's. -/
def hubArbiter : Nat := 16

/-- The arbiter at the end of a link; none where the link ends at a node. -/
def arbiterOf (i : Nat) : Option Nat :=
  if i < 144 then some (i / 9)
  else if i < 0x1000 then some hubArbiter
  else if i < 0x2000 then none
  else if i < 0x3000 then some hubArbiter
  else some (i - 0x3000)

/-- The link on which a packet to node `n` leaves an arbiter. -/
def outLink (arb n : Nat) : Nat :=
  if arb = hubArbiter then (if n < 144 then 0x3000 + n / 9 else 0x1000 + n)
  else if n < 144 ∧ n / 9 = arb then 0x1000 + n else 0x2000 + arb

/-- The numbers of the links that hold a packet. -/
def State.busyLinks (s : State) : List Nat :=
  (s.cores.filter fun e => !e.2.link.sent.isEmpty).map (·.1) ++ (s.flue.links.filter fun e => !e.2.sent.isEmpty).map (·.1)

/-! Packets whose request has been answered -/

/-- A packet of a core's load or store that is outstanding no more: its request or its response (R25, R31, R91). -/
def State.stale (s : State) (p : Packet) : Bool :=
  match p.header.kind with
  | .load => decide (p.header.src ≤ tenderKey) && decide ((s.core p.header.src).requests .load p.header.dest = 0)
  | .store => decide (p.header.src ≤ tenderKey) && decide ((s.core p.header.src).requests .store p.header.dest = 0)
  | .response a => decide (p.header.dest.toNat ≤ tenderKey) &&
      decide ((s.core p.header.dest.toNat).requests .load a = 0) && decide ((s.core p.header.dest.toNat).requests .store a = 0)
  | _ => false

/-- Such packets leave the Flue, their credits back at the senders. -/
def State.dropStale (s : State) : State :=
  (s.flue.links.map (·.1)).foldl (fun t i => t.setLink i ((t.link i).drop s.stale)) s

/-! Packets that reach their node -/

/-- A word as the target of a load sends it. -/
def State.flueWord (s : State) (a : Nat) : W36 := if dramBase ≤ a then s.dramWord a else if isPage a then 0 else s.hearthWord a

/-- The response to a request: the words asked for, or an acknowledgement, back to the source on the same channel (R24,
R25). -/
def State.flueRespond (s : State) (node : Nat) (p : Packet) : State :=
  let h := p.header
  let ws := if h.kind = .store then [] else (List.range (min 8 h.length)).map fun i => s.flueWord (h.dest.toNat + i)
  s.fluePost ⟨⟨BitVec.ofNat 36 h.src, node, h.channel, .response h.dest, ws.length⟩, payload ws⟩

/-- A response frees its slot, and the first request of its source that waits for one goes (R24). -/
def State.flueAnswered (s : State) (src : Nat) : State :=
  let t : State := { s with flue := { s.flue with awaited := Sparse.put s.flue.awaited 0 src (Sparse.get s.flue.awaited 0 src - 1) } }
  match t.flue.blocked.find? fun q => decide (q.header.src = src) with
  | some q => { t with flue := { t.flue with blocked := t.flue.blocked.erase q } }.flueIssue q
  | none => t

/-- A packet leaves its slots at the node where its link ends (R21): a request is answered, a response frees its slot; a core's
load or store completes by its command. -/
def State.flueReach (s : State) (i : Nat) (x : Sent) : State :=
  match (s.link i).leave fun y => decide (y = x) with
  | none => s
  | some l =>
    let t := s.setLink i l
    let h := x.packet.header
    if h.kind.expects then t.flueRespond (i - 0x1000) x.packet
    else match h.kind with
    | .response _ => if h.dest.toNat ≤ tenderKey then t else t.flueAnswered h.dest.toNat
    | _ => t

/-- The packets in the slots of a node. -/
def State.flueConsume (s : State) (i : Nat) : State :=
  ((s.link i).sent.filter fun x => x.arrived.isSome).foldl (fun t x => t.flueReach i x) s

/-! Arbitration -/

/-- The packet at the head of a channel in the slots of a link. -/
def Link.head (l : Link) (c : Channel4) : Option Sent :=
  (l.sent.find? fun x => decide (x.packet.header.channel = c)).filter (·.arrived.isSome)

/-- The channel of a place in the round of 4 to VC1, 3 to VC2 and 1 to VC3 (R22). -/
def roundChannel (i : Nat) : Channel4 := if i % 8 < 4 then .vc1 else if i % 8 < 7 then .vc2 else .vc3

/-- A packet can go on from an arbiter: its next link has the credits (R21). -/
def State.mayGo (s : State) (arb : Nat) (p : Packet) : Bool :=
  let l := s.link (outLink arb (s.target p.header))
  l.waiting.isEmpty && (l.launch p).isSome

/-- The packet at the head of a channel of an arbiter, with its link: of those at the heads of the channel on the links `is` that
can go on, the first to have arrived. With several links, the spec does not say which head is the channel's: the order of arrival
keeps R22's bound of 7 packets (DESIGN CHOICE, log 47). -/
def State.headOf (s : State) (arb : Nat) (is : List Nat) (c : Channel4) : Option (Nat × Sent) :=
  is.foldl (fun best i =>
    match ((s.link i).head c).filter fun x => s.mayGo arb x.packet with
    | none => best
    | some x =>
      match best with
      | none => some (i, x)
      | some b => if x.arrived.getD 0 < b.2.arrived.getD 0 then some (i, x) else some b) none

/-- A whole packet granted: it leaves its slots for the next link (R21, R22). -/
def State.grant (s : State) (arb : Nat) (g : Nat × Sent) : State :=
  match (s.link g.1).leave fun x => decide (x = g.2) with
  | some l =>
    let o := outLink arb (s.target g.2.packet.header)
    let t := s.setLink g.1 l
    t.setLink o ((t.link o).request g.2.packet)
  | none => s

/-- One grant of an arbiter (R22): VC0 first, else the next place of the round whose channel has a packet that can go. -/
def State.arbitrate (s : State) (arb : Nat) (is : List Nat) : State :=
  match s.headOf arb is .vc0 with
  | some g => s.grant arb g
  | none =>
    let at_ := Sparse.get s.flue.places 0 arb
    match (List.range 8).find? fun i => (s.headOf arb is (roundChannel (at_ + i))).isSome with
    | none => s
    | some i =>
      let t := match s.headOf arb is (roundChannel (at_ + i)) with | some g => s.grant arb g | none => s
      { t with flue := { t.flue with places := Sparse.put t.flue.places 0 arb ((at_ + i + 1) % 8) } }

/-- The flits in transit on a link reach their slots (R26): the packets of one tick arrive in the order of the links' numbers, those
of one link at the same place, in the order sent. -/
def State.flueArrive (s : State) (i : Nat) : State :=
  let l := s.link i
  let n := s.flue.arrivals
  let t := s.setLink i { l with sent := l.sent.map fun x => { x with arrived := some (x.arrived.getD n) } }
  { t with flue := { t.flue with arrivals := n + 1 } }

/-- The Flue in one tick. -/
def State.flueTick (s : State) : State :=
  match s.busyLinks with
  | [] => s
  | _ =>
    let s1 := s.dropStale
    let s2 := (s1.busyLinks.filter fun i => (arbiterOf i).isNone).foldl State.flueConsume s1
    let s3 := (List.range 17).foldl (fun t n => t.arbitrate n (t.busyLinks.filter fun i => decide (arbiterOf i = some n))) s2
    s3.busyLinks.foldl State.flueArrive s3

end Sys2Proof.Machine
end

