-- ==== Sys2Proof/Machine/Tick.lean ====
section
/-! DEFINITION. What one tick of 2 ns changes while no command waits (log 1): Turnspit's counters and bleed, the Bellows
count of ns, the elapsed time of the system guard, powered seconds, the Ember counter, the Flue, Mantel's banks (R408), arbitration on idle buses, the stream of
a synchronization, and the cells of Erair. -/

namespace Sys2Proof.Machine

/-- The increment of a Turnspit domain: INC_NS.INC_FRAC plus the signed FREQ (R368). -/
def State.domainInc (s : State) (d : Nat) : Int :=
  ((s.fld (Reg.tspNIncNsIncNs d) * 2 ^ 32 + s.fld (Reg.tspNIncFracIncFrac d) : Nat) : Int)
    + signed 32 (s.fld (Reg.tspNFreqFreq d))

/-- The switch offset one tick nearer to zero (R374). -/
def bleedStep (offset : Int) (bleed : Nat) : Int :=
  if 0 < offset then offset - min (bleed : Int) offset
  else if offset < 0 then offset + min (bleed : Int) (-offset)
  else 0

/-- Turnspit's tick (R368, R374). -/
def State.turnspitTick (s : State) : State :=
  if s.turnspitOn then
    { s with turnspit := { s.turnspit with
        ctrA := twos 96 ((s.turnspit.ctrA : Int) + s.domainInc 0)
        ctrB := twos 96 ((s.turnspit.ctrB : Int) + s.domainInc 1)
        offset := bleedStep s.turnspit.offset (s.fld Reg.tspBleedBleed) } }
  else s

/-- The main domain is powered: every mode but Ember (R425). -/
def State.powered (s : State) : Bool := s.pins.mainValid && decide (s.mode ≠ modeEmber)

/-- The Bellows count of ns since Kindling (R173). The spec does not say from which moment it runs: the model counts from the
unit reset, and a Kindling in resume form does not restart it (DESIGN CHOICE, log 66). -/
def State.bellowsTick (s : State) : State := { s with bellows := { s.bellows with ns := s.bellows.ns + Config.tickNs } }

/-- The Tender's cycles since reset leave out the ns in which its clock stands (R172, R443). -/
def State.tenderTick (s : State) : State :=
  if s.tenderClock then s
  else s.setCore tenderKey { s.core tenderKey with entryNs := (s.core tenderKey).entryNs + Config.tickNs }

/-- The system guard counts while it is on, not frozen and not expired; a guard found past its limit expires (R453, R455-R458;
log 152). -/
def State.guardTick (u : State) : State :=
  let s := [Sys2Proof.Guard.system, .cls 0, .cls 1, .cls 2].foldl State.guardLate u
  if s.bit Reg.fgdStatusSysOn && !s.bit Reg.fgdStatusExpired && !s.bit Reg.fgdStatusBankPause && s.pins.refclkOk then
    { s with fireguard := { s.fireguard with elapsed := s.fireguard.elapsed + Config.tickNs } }
  else s

/-- Powered seconds count while the main domain is powered (R419). -/
def State.secondsTick (s : State) : State :=
  let n := s.ashpit.secondsNs + Config.tickNs
  if n < 1000000000 then { s with ashpit := { s.ashpit with secondsNs := n } }
  else { s with ashpit := { s.ashpit with secondsNs := n - 1000000000 } }.countWrap Reg.ashSecondsSeconds

/-- The ticks that a crystal period counts at this position of the window of 2^20 ticks: one, and with EMB_TRIM one more or none at
|TRIM| positions spread evenly (R446; log 9). -/
def State.emberSteps (s : State) : Nat :=
  let trim := signed 8 (s.fld Reg.embTrimTrim)
  let mark := decide (s.ember.phase * trim.natAbs / 2 ^ 20 ≠ (s.ember.phase + 1) * trim.natAbs / 2 ^ 20)
  if !mark then 1 else if 0 < trim then 2 else 0

/-- A crystal period ends: the counter advances, and becoming equal to the alarm matches it where ALARM_EN says so (R446, R448). -/
def State.emberPeriod (s : State) : State :=
  let n := s.emberSteps
  let hit := (List.range n).any fun i => decide ((s.ember.tick + 1 + i) % 2 ^ 48 = s.ember.alarm)
  { s with ember := { s.ember with
      tick := (s.ember.tick + n) % 2 ^ 48
      phase := (s.ember.phase + 1) % 2 ^ 20
      matched := s.ember.matched || (hit && s.bit Reg.embControlAlarmEn) } }

/-- The Ember counter advances once per crystal period; whether a period ends in this tick is free (R446, log 9). A
halted or stopped counter stands (R447, R449). A match that no EMBER_ALARM has carried out is carried out now (R448; log 152). -/
def State.emberTick (u : State) : State :=
  let s := u.emberMatch
  if s.bit Reg.embStatusHalted || s.ember.stopped then s
  else
    let (b, t) := s.drawBit
    if b then t.emberPeriod else t

/-- The sequencers empty the RX FIFOs, and a pending frame starts arbitration on an idle bus (R298, R299, R303; log 1). -/
def State.busTick (s : State) : State := (s.hob.map Prod.fst).foldl State.hobDrain s

/-- The world that a message BLOCK of the UART waits for replies in some tick; in which is free (R491; log 41). -/
def State.uartTick (s : State) : State :=
  if s.uartWait.isNone then s
  else
    let (b, t) := s.drawBit
    if b then t.uartReplied else t

/-- A new clock of the power controller begins: requests are judged by SEC_OWNER as it stands now (R495). -/
def State.ownerTick (s : State) : State := { s with owners := [] }

/-- One tick of 2 ns (log 1). -/
def State.tick (s : State) : State :=
  if s.powered then s.ownerTick.turnspitTick.bellowsTick.tenderTick.guardTick.secondsTick.emberTick.mantelStart.flueTick.busTick.copyTick.erairTick.uartTick else s.emberTick

end Sys2Proof.Machine
end

