-- ==== Sys2Proof/Safety.lean ====
section
/-! DEFINITION. The terms that the statements use: the invariants of a run, when a requester's write or read takes effect,
and when an instruction issues. -/

namespace Sys2Proof.Machine

/-! Invariants -/

/-- The flash of Mantel is in its canonical form. -/
def State.memOk (s : State) : Bool := Memory.wf s.mantel.flash

/-- What the fuses have burned is never taken back (R498, R500): a programmed slot stays programmed or becomes revoked, a
revoked one stays revoked, the cosign fuse and the debug key stay, and no anti-rollback counter falls. -/
def Fuses.Later (f g : Fuses) : Prop :=
  (∀ i, Sparse.get f.slots 0 i = 2 → Sparse.get g.slots 0 i = 2) ∧
  (∀ i, Sparse.get f.slots 0 i = 1 → Sparse.get g.slots 0 i = 1 ∨ Sparse.get g.slots 0 i = 2) ∧
  (f.cosign = true → g.cosign = true) ∧
  (∀ k, f.debugKey = some k → g.debugKey = some k) ∧
  (∀ i, Sparse.get f.counters 0 i ≤ Sparse.get g.counters 0 i)

/-! Requesters -/

/-- A register write by `r` takes effect: the registers answer it, the page's domain is on, and R482 and R492 let `r` write
the page. -/
def State.mayWrite (s : State) (r : Requester) (page : Nat) : Bool :=
  s.answers r && !s.pageOff page &&
    (match r with
      | .tenderSecure => true
      | .tenderNormal => !s.bit (Reg.ownerWorld page)
      | .host => s.bit (Reg.ownerHostW page)
      | .uart => s.bit (Reg.ownerHostW page) && decide (s.svcLevel = 2))

/-- A register read by `r` takes effect (R482, R492). -/
def State.mayRead (s : State) (r : Requester) (page : Nat) : Bool :=
  s.answers r && !s.pageOff page &&
    (match r with
      | .tenderSecure => true
      | .tenderNormal => !s.bit (Reg.ownerWorld page)
      | .host => s.bit (Reg.ownerHostR page)
      | .uart => s.bit (Reg.ownerHostR page) && decide (s.svcLevel ≠ 0))

/-- The answer to a read: the host's is sent to it (R11). -/
def State.readAnswer (s : State) (r : Requester) (v : W32) : State :=
  if r = .host then s.send (.hostData (leBytes 4 v.toNat)) else s

/-! Instructions -/

/-- An instruction of `len` words at the pc of core `c` issues: the core runs, no uncorrectable load has been outstanding for
4 instructions, the fetch is allowed and reads no uncorrectable word, and no breakpoint stops it. -/
def State.ready (s : State) (c : CoreId) (len : Nat) : Bool :=
  s.issues c && decide (overdue (s.at c).loads = 0) && s.fetchOk c (s.at c).pc len && (s.fetchBad c (s.at c).pc len).isNone &&
    (s.at c).unwatched 0 (s.at c).pc len

/-- The loads that an instruction waits for, landed once it is fetched (R19, R72, R74, R75): the exception of the first that is
uncorrectable, if any, and the state. A register that the instruction sees in its load-delay slot is not waited for. -/
def State.waited (s : State) (c : CoreId) (srcs dests : List Reg) : Option Trap × State :=
  let x := (s.fetched c).at c
  (s.fetched c).land c (needed x.loads ((srcs.filter fun r => !x.slot.any fun p => decide (p.1 = r)) ++ dests)) x.loads

/-- The instruction at the pc of `s` retires, having taken the core's state from `u` with the registers `ws` written. -/
def State.wrote (s u : State) (c : CoreId) (len : Nat) (ws : List (Reg × W36)) : State :=
  (u.mapCore c fun x => x.setRegs ws).retire c (s.at c).pc (wordAt (s.at c).pc len) none

/-- The instruction at the pc of `s` retires in the state `u`, with the instruction at `next` following. -/
def State.went (s u : State) (c : CoreId) (next : W36) : State := u.retire c (s.at c).pc next none

/-- The instruction at the pc of `s` ends in an exception whose frame holds `ret` (R91, R92). -/
def State.trapped (s : State) (c : CoreId) (cause : Nat) (ret faddr : W36) : State :=
  s.take c ⟨cause, ret, (s.at c).pc, faddr, false, (s.at c).afterLoad⟩

/-- The load at the pc of `s` retires in the state `w`, its data in the registers at once; its slot sees the old values
(R74). -/
def State.gotLoad (s w : State) (c : CoreId) (ds : List (Reg × W36)) : State :=
  (w.mapCore c fun x => x.setRegs ds).retire c (s.at c).pc (wordAt (w.at c).pc 1) (some ((w.at c).slotOf (ds.map (·.1))))

/-- The posted stores of the core that `p` holds of complete, and `v` is the state then; the core stands where it stood
(R78, R162). -/
def State.settles (u : State) (c : CoreId) (p : Store → Bool) (v : State) : Prop :=
  u.drainsUntil c p (u.at c).stores.length = some v ∧ sameSpot (u.at c) (v.at c) = true

/-- As many outstanding loads land as leave room for one more among 4, without an exception, and `w` is the state then
(R24, R75). -/
def State.hasRoom (v : State) (c : CoreId) (w : State) : Prop :=
  v.land c ((v.at c).loads.length + 1 - loadSlots) (v.at c).loads = (none, w)

/-- As many posted stores complete as leave room for one more among 4, and `v` is the state then; the core stands where it
stood (R24, R78). -/
def State.takesStore (u : State) (c : CoreId) (v : State) : Prop :=
  u.drains c ((u.at c).stores.length + 1 - storeSlots) = some v ∧ sameSpot (u.at c) (v.at c) = true

/-- The load at the pc of `s` retires in the state `w`, outstanding, its packet on the core's link; its slot sees the old
values (R19, R74, R75). -/
def State.awaits (s w : State) (c : CoreId) (l : Load) : State :=
  (w.mapCore c fun x => x.awaits (coreKey c) l).retire c (s.at c).pc (wordAt (w.at c).pc 1)
    (some ((w.at c).slotOf (l.dests.map (·.1))))

/-- A store becomes the last posted one, its packet on the core's link (R19, R78). -/
def posted (u : State) (c : CoreId) (a : W36) (vs : List W36) (point : Option (BitVec 5)) : State :=
  u.mapCore c fun x => x.posts (coreKey c) a vs point

/-- A signed result of ADDS or SUBS with the quality `q` (R151). -/
def saturated (v : Int) (q : Nat) : W36 :=
  if v < -(2 ^ 31 : Int) then qw 0x80000000 (q % 8)
  else if (2 ^ 31 : Int) ≤ v then qw 0x7FFFFFFF (q % 8)
  else qw (twos 32 v) q

/-- P(r) of R150. -/
def pairOf (x : Core) (r : Reg) : Nat := val (x.seeQ (r + 1)) * 2 ^ 32 + val (x.seeQ r)

/-- A 64-bit result written to a register pair with the quality `q` (R150). -/
def pairWrite (d : Reg) (v q : Nat) : List (Reg × W36) := [(d, qw v q), (d + 1, qw (v / 2 ^ 32) q)]

/-- The loads that an instruction waits for land without an exception. -/
def State.lands (s : State) (c : CoreId) (srcs dests : List Reg) : Bool := (s.waited c srcs dests).1.isNone

/-- The state once the loads that an instruction waits for have landed. -/
def State.after (s : State) (c : CoreId) (srcs dests : List Reg) : State := (s.waited c srcs dests).2

/-- The instruction `i` computes registers from registers: once the loads that it waits for have landed, it writes the
registers `f` gives, and the instruction `len` words on follows. -/
def Computes (i : Instr) (c : CoreId) (len : Nat) (srcs dests : List Reg) (f : Core → List (Reg × W36)) : Prop :=
  ∀ s : State, s.ready c len = true → s.lands c srcs dests = true →
    exec i s = .next (s.wrote (s.after c srcs dests) c len (f ((s.after c srcs dests).at c)))

/-- The instruction `i` of `len` words ends in the precise exception `cause` at the pc, before anything else. -/
def Traps (i : Instr) (c : CoreId) (len cause : Nat) : Prop :=
  ∀ s : State, s.ready c len = true → exec i s = .next ((s.fetched c).trapped c cause (s.at c).pc (s.at c).pc)

/-! Frames -/

/-- The shape of an instruction that computes registers from registers: its core, its words, what it reads and writes. -/
structure RegForm where
  core : CoreId
  len : Nat
  srcs : List Reg
  dests : List Reg
  deriving DecidableEq, Repr

/-- The register instructions, in the forms that their encodings allow (R67, R147, R148, R149, R150, R152, R153, R159, R163,
R171). -/
def regForm (i : Instr) : Option RegForm :=
  match i with
  | .add c o | .sub c o | .mul c o | .mulh c o | .div c o | .rem c o | .and_ c o | .or_ c o | .xor_ c o
  | .min c o | .max c o | .adds c o | .subs c o | .addar c o | .suba c o | .ceq c o | .cne c o | .clt c o | .cle c o
  | .cltu c o | .cleu c o | .fceq c o | .fclt c o | .fcle c o | .fadd c o | .fsub c o | .fmul c o | .fdiv c o | .fmin c o
  | .fmax c o | .qset c o | .qmrg c o | .qsel c o =>
    if o.x = 0 then some ⟨c, 1, [o.a, o.b], [o.d]⟩ else none
  | .addi c o | .andi c o | .ori c o | .xori c o | .adda c o | .ceqi c o | .clti c o | .cgti c o =>
    some ⟨c, 1, [o.a], [o.d]⟩
  | .mulhu c o | .divu c o | .remu c o =>
    if o.x = 1 then some ⟨c, 1, [o.a, o.b], [o.d]⟩ else none
  | .liq c o | .li c o =>
    if o.a = 0 ∧ o.imm = 0 then some ⟨c, 2, [], [o.d]⟩ else none
  | .shl c o | .shr c o | .sar c o | .shla c o =>
    if o.x = 0 then some ⟨c, 1, [o.a, o.b], [o.d]⟩ else if o.x.toNat / 32 = 128 ∧ o.b = 0 then some ⟨c, 1, [o.a], [o.d]⟩ else none
  | .addp c o | .subp c o =>
    if o.x = 0 ∧ o.d.toNat % 2 = 0 ∧ o.a.toNat % 2 = 0 ∧ o.b.toNat % 2 = 0 then some ⟨c, 1, [o.a, o.a + 1, o.b, o.b + 1], [o.d, o.d + 1]⟩ else none
  | .sel c o =>
    if o.x.toNat < 32 then some ⟨c, 1, [BitVec.ofNat 5 o.x.toNat, o.a, o.b], [o.d]⟩ else none
  | .mov c o | .fsqrt c o | .fabs c o | .fneg c o | .fcvtif c o | .qget c o | .qval c o | .qgood c o =>
    if o.b = 0 ∧ o.x = 0 then some ⟨c, 1, [o.a], [o.d]⟩ else none
  | .movp c o =>
    if o.b = 0 ∧ o.x = 0 ∧ o.d.toNat % 2 = 0 ∧ o.a.toNat % 2 = 0 then some ⟨c, 1, [o.a, o.a + 1], [o.d, o.d + 1]⟩ else none
  | .fcvtfi c o =>
    if o.b = 0 ∧ o.x.toNat < 2 then some ⟨c, 1, [o.a], [o.d]⟩ else none
  | .qseti c o | .qori c o | .qclri c o =>
    if o.imm.toNat < 16 then some ⟨c, 1, [o.a], [o.d]⟩ else none
  | .tstb c o =>
    if isEngine c = true ∧ o.b = 0 ∧ o.x.toNat < 32 then some ⟨c, 1, [o.a], [o.d]⟩ else none
  | .insb c o =>
    if isEngine c = true ∧ o.x.toNat < 32 then some ⟨c, 1, [o.a, o.b], [o.d]⟩ else none
  | .popc c o | .ffs c o =>
    if isEngine c = true ∧ o.b = 0 ∧ o.x = 0 then some ⟨c, 1, [o.a], [o.d]⟩ else none
  | _ => none

/-- The shape of an instruction that stores: its core, what it reads, the address and the words from the core that it sees,
and the point of a point write. -/
structure StoreForm where
  core : CoreId
  srcs : List Reg
  addr : Core → W36
  words : Core → List W36
  point : Option (BitVec 5)

/-- The shape of an instruction that loads: its core, what it reads, the address from the core that it sees, its
destinations, and for a read of format B the view that it takes. -/
structure LoadForm where
  core : CoreId
  srcs : List Reg
  addr : Core → W36
  dests : List Reg
  view : Option View

/-- The load instructions, in the forms that their encodings allow (R67, R154, R158, R159). -/
def loadForm (i : Instr) : Option LoadForm :=
  match i with
  | .ldw c o => some ⟨c, [o.a], fun x => x.eaI o, [o.d], none⟩
  | .ldp c o => if o.d.toNat % 2 = 0 then some ⟨c, [o.a], fun x => x.eaI o, [o.d, o.d + 1], none⟩ else none
  | .ldwx c o => if o.x = 0 then some ⟨c, [o.a, o.b], fun x => x.eaX o, [o.d], none⟩ else none
  | .ldb c o => if isEngine c = true then some ⟨c, [o.base], fun x => x.eaB o, [o.d], some .word⟩ else none
  | .ldbp c o => if isEngine c = true then some ⟨c, [o.base], fun x => x.eaB o, [o.d], some .prev⟩ else none
  | .redge c o | .fedge c o | .chgb c o =>
    if isEngine c = true then some ⟨c, [o.base], fun x => x.eaB o, [o.d], some .both⟩ else none
  | .ldwp c o => if isEngine c = true ∧ o.bit = 0 then some ⟨c, [o.base], fun x => x.eaB o, [o.d], some .prev⟩ else none
  | .chgw c o => if isEngine c = true ∧ o.bit = 0 then some ⟨c, [o.base], fun x => x.eaB o, [o.d], some .both⟩ else none
  | _ => none

/-- The store instructions, in the forms that their encodings allow (R67, R154, R160). -/
def storeForm (i : Instr) : Option StoreForm :=
  match i with
  | .stw c o => some ⟨c, [o.a, o.d], fun x => x.eaI o, fun x => [x.see o.d], none⟩
  | .stp c o =>
    if o.d.toNat % 2 = 0 then
      some ⟨c, [o.a, o.d, o.d + 1], fun x => x.eaI o, fun x => [x.see o.d, x.see (o.d + 1)], none⟩
    else none
  | .stwx c o => if o.x = 0 then some ⟨c, [o.a, o.b, o.d], fun x => x.eaX o, fun x => [x.see o.d], none⟩ else none
  | .stb c o =>
    if isEngine c = true then some ⟨c, [o.base, o.d], fun x => x.eaB o, fun x => [x.seeQ o.d], some o.bit⟩ else none
  | .setb c o =>
    if isEngine c = true ∧ o.d = 0 then some ⟨c, [o.base], fun x => x.eaB o, fun _ => [0x800000001], some o.bit⟩ else none
  | .clrb c o =>
    if isEngine c = true ∧ o.d = 0 then some ⟨c, [o.base], fun x => x.eaB o, fun _ => [0x800000000], some o.bit⟩ else none
  | _ => none

/-- The core as the register form `f` sees it, once its loads have landed. -/
def State.seenBy (s : State) (f : RegForm) : Core := (s.after f.core f.srcs f.dests).at f.core

/-- The core as the store form `f` sees it, once its loads have landed. -/
def State.storeSeen (s : State) (f : StoreForm) : Core := (s.after f.core f.srcs []).at f.core

/-- The state in which the load form `f` looks, once its loads have landed. -/
def State.loadSeen (s : State) (f : LoadForm) : State := s.after f.core f.srcs f.dests

/-- A load of the form `f` may go to the space `sp`, no breakpoint stops it, and no posted store of the core must complete
first. -/
def State.loadGoes (s : State) (f : LoadForm) (sp : Space) : Bool :=
  let u := s.loadSeen f
  let a := f.addr (u.at f.core)
  decide (u.loadSpace f.core a f.dests.length = some sp) && (u.at f.core).unwatched 1 a f.dests.length &&
    (match f.view with
      | some v => u.viewOk f.core v a && !(u.at f.core).stores.any fun st => st.has a.toNat
      | none => !(u.at f.core).stores.any (Store.blocks sp a.toNat f.dests.length))

/-- A store of the form `f` may go to the space `sp`, and no breakpoint stops it. -/
def State.storeGoes (s : State) (f : StoreForm) (sp : Space) : Bool :=
  let x := s.storeSeen f
  decide ((s.after f.core f.srcs []).storeSpace f.core (f.addr x) (f.words x).length = some sp) &&
    x.unwatched 2 (f.addr x) (f.words x).length && (f.point.isNone || decide (sp = .hearth))

/-- No trace limit is set on the core (R467). -/
def State.untraced (s : State) (c : CoreId) : Bool := decide ((s.at c).dbgReg 0x25 = 0)

/-- Between `s` and `t` nothing but core `c` changes. -/
def State.sameBut (s t : State) (c : CoreId) : Prop :=
  (∀ k, k ≠ coreKey c → t.core k = s.core k) ∧ { t with cores := s.cores } = s

/-- Between the cores `x` and `y` of one number, what software sees beside general registers, local store, posted stores and
the pc stays: the PSW and the system registers. -/
def Core.sameSystem (x y : Core) : Prop := y.psw = x.psw ∧ y.sys = x.sys

end Sys2Proof.Machine
end

