-- ==== Sys2Proof/Certificates/Slice0/Obligations.lean ====
section
/-! DEFINITION. The statements about the model, from the numbered rules of the specification. -/

open Sys2Proof Sys2Proof.Machine

/-- A step carries out the command at the front of the queue with the queue's rest; the model's tick passes on an empty queue (R8, R10, R176). -/
def Obligations.StepTakesTheFrontCommand : Prop :=
  (∀ (c : Instr) (s : State) (rest : List Instr), step { s with pending := c :: rest } = exec c { s with pending := rest }) ∧
  (∀ (s : State), s.pending = [] → step s = .next s.tick)

/-- Every command answers a next state and leaves the queue as it is; a step takes exactly the front command (R8, R10, R87). -/
def Obligations.EveryCommandAnswersANextState : Prop :=
  (∀ (c : Instr) (s : State), ∃ t, exec c s = .next t ∧ t.pending = s.pending) ∧
  (∀ (c : Instr) (rest : List Instr) (s : State), ∃ t, step { s with pending := c :: rest } = .next t ∧ t.pending = rest)

/-- After reset the registers hold the values that their tables give, and the unit is in Kindling (R425, R10, R60, R95, R493, R107, R326, R511). -/
def Obligations.ResetStateIsAsStated : Prop :=
  (State.reset.pending = [] ∧ State.reset.mode = modeKindling ∧ State.reset.role = 0 ∧ State.reset.fld Reg.secLsSplitSplit = 8) ∧
  ((State.reset.at .tender).priv = true ∧ (State.reset.at .tender).inSecure = true ∧ (State.reset.at .tender).pswBit 2 = false ∧ (State.reset.at .tender).loads = [] ∧ (State.reset.at .tender).stores = []) ∧
  (State.reset.par 0 = 0 ∧ State.reset.par 1 = 0 ∧ State.reset.par 2 = 0 ∧ State.reset.rlnState = 0 ∧ State.reset.editState = 0 ∧ State.reset.bit Reg.tenStatusRom = true) ∧
  (∀ (p : Nat), State.reset.bit (Reg.ownerHostW p) = false ∧ State.reset.bit (Reg.ownerLock p) = false)

/-- The reset state keeps its flash in canonical form and its fuses are not earlier than themselves (R398, R500). -/
def Obligations.ResetMeetsTheInvariants : Prop :=
  (State.reset.memOk = true) ∧
  (Fuses.Later State.reset.fuses State.reset.fuses)

/-- Every step keeps the flash in its canonical form (R397, R398, R405). -/
def Obligations.FlashStaysCanonical : Prop :=
  (∀ (s : State) (t : State), s.memOk = true → step s = .next t → t.memOk = true)

/-- No step takes back what the fuses have burned (R498, R500). -/
def Obligations.FusesAreNeverTakenBack : Prop :=
  (∀ (f : Fuses) (s : State) (t : State), Fuses.Later f s.fuses → step s = .next t → Fuses.Later f t.fuses)

/-- A register instruction changes only its destination registers and what retirement notes (R56, R67, R72, R147, R152, R153, R163, R171). -/
def Obligations.RegisterInstructionsChangeOnlyTheirDestinations : Prop :=
  (∀ (i : Instr) (f : RegForm) (s : State), regForm i = some f → s.ready f.core f.len = true → s.lands f.core f.srcs f.dests = true → s.untraced f.core = true → ∃ t, exec i s = .next t ∧ (∀ q : Reg, q ∉ f.dests → (t.at f.core).reg q = (s.seenBy f).reg q) ∧ (t.at f.core).reg 0 = 0 ∧ (s.at f.core).sameSystem (t.at f.core) ∧ (t.at f.core).ls = (s.at f.core).ls ∧ (t.at f.core).stores = (s.at f.core).stores ∧ s.sameBut t f.core)

/-- A store changes only the words of local store that it names, or is posted and changes none (R56, R78, R81, R154, R160). -/
def Obligations.StoresChangeOnlyTheirWords : Prop :=
  (∀ (i : Instr) (f : StoreForm) (s : State), storeForm i = some f → s.ready f.core 1 = true → s.lands f.core f.srcs [] = true → s.storeGoes f .ls = true → s.untraced f.core = true → ∃ t, exec i s = .next t ∧ (∀ a : Nat, a < (f.addr (s.storeSeen f)).toNat ∨ (f.addr (s.storeSeen f)).toNat + (f.words (s.storeSeen f)).length ≤ a → (t.at f.core).lsWord a = (s.at f.core).lsWord a) ∧ (∀ n : Nat, n < (f.words (s.storeSeen f)).length → (t.at f.core).lsWord ((f.addr (s.storeSeen f)).toNat + n) = (f.words (s.storeSeen f)).getD n 0) ∧ (∀ q : Reg, (t.at f.core).reg q = (s.storeSeen f).reg q) ∧ (t.at f.core).stores = (s.at f.core).stores ∧ (s.at f.core).sameSystem (t.at f.core) ∧ s.sameBut t f.core) ∧
  (∀ (i : Instr) (f : StoreForm) (s : State) (sp : Space), storeForm i = some f → s.ready f.core 1 = true → s.lands f.core f.srcs [] = true → sp ≠ .ls → s.storeGoes f sp = true → s.untraced f.core = true → (s.storeSeen f).stores.length < 4 → ∃ t, exec i s = .next t ∧ (t.at f.core).ls = (s.at f.core).ls ∧ (t.at f.core).stores = (s.storeSeen f).stores ++ [⟨f.addr (s.storeSeen f), f.words (s.storeSeen f), f.point, (s.storeSeen f).inSecure, (s.storeSeen f).instance?⟩] ∧ (∀ q : Reg, (t.at f.core).reg q = (s.storeSeen f).reg q) ∧ (s.at f.core).sameSystem (t.at f.core) ∧ s.sameBut t f.core)

/-- Reads and writes of an assigned image word do what the pseudocode of R105 says (R105). -/
def Obligations.ImageWritesFollowThePseudocode : Prop :=
  (∀ (s : State) (w : Nat), ((s.copyBad false w = false ∧ s.copyBad true w = false)) → s.readCur w = s.hearth.copy (s.hearth.selOf w) w ∧ s.readPrev w = (if s.written w = true then s.hearth.copy (!s.hearth.selOf w) w else s.hearth.copy (s.hearth.selOf w) w)) ∧
  (∀ (s : State) (w : Nat) (v : W36), ((s.copyBad false w = false ∧ s.copyBad true w = false)) → s.wordClass w < 3 → v = s.readCur w → s.writeWord w v = s) ∧
  (∀ (s : State) (w : Nat) (v : W36), ((s.copyBad false w = false ∧ s.copyBad true w = false)) → s.wordClass w < 3 → v ≠ s.readCur w → s.written w = false → s.par (s.wordClass w) < 2 → (s.writeWord w v).readCur w = v ∧ (s.writeWord w v).readPrev w = s.readCur w ∧ (s.writeWord w v).written w = true ∧ (s.writeWord w v).hearth.selOf w = !s.hearth.selOf w) ∧
  (∀ (s : State) (w : Nat) (v : W36), ((s.copyBad false w = false ∧ s.copyBad true w = false)) → s.wordClass w < 3 → v ≠ s.readCur w → s.written w = true → s.par (s.wordClass w) < 2 → (s.writeWord w v).readCur w = v ∧ (s.writeWord w v).readPrev w = s.readPrev w ∧ (s.writeWord w v).written w = true ∧ (s.writeWord w v).hearth.selOf w = s.hearth.selOf w) ∧
  (∀ (s : State) (w : Nat) (v : W36) (x : Nat), ((s.copyBad false w = false ∧ s.copyBad true w = false)) → s.wordClass w < 3 → x ≠ w → (s.writeWord w v).readCur x = s.readCur x ∧ (s.writeWord w v).readPrev x = s.readPrev x ∧ (s.writeWord w v).written x = s.written x) ∧
  (∀ (s : State) (w : Nat) (v : W36) (k : Fin 3), ((s.copyBad false w = false ∧ s.copyBad true w = false)) → s.wordClass w < 3 → v ≠ s.readCur w → s.par 0 < 2 → s.par 1 < 2 → s.par 2 < 2 → ((s.writeWord w v).hearth.stirPlane k.val (s.par k.val)).at (w / 32) = true)

/-- A store of a word's current value changes nothing, whoever writes (R106). -/
def Obligations.SilentStoresChangeNothing : Prop :=
  (∀ (s : State) (w : Nat), ((s.copyBad false w = false ∧ s.copyBad true w = false)) → s.wordClass w < 3 → s.writeWord w (s.readCur w) = s) ∧
  (∀ (s : State) (w : Nat) (ws : List W36), (∀ n, n < ws.length → s.copyBad false (w + n) = false ∧ s.copyBad true (w + n) = false ∧ s.wordClass (w + n) < 3 ∧ ws.getD n 0 = s.readCur (w + n)) → s.writeWords w ws = s) ∧
  (∀ (s : State) (e : Nat) (a : Nat) (i : Option Nat) (w : Nat), w = imageWord a → ((s.copyBad false w = false ∧ s.copyBad true w = false)) → s.wordClass w < 3 → (match (s.core e).run with | some r => r.sandbox | none => false) = false → s.engineStore e a i (s.readCur w) = s) ∧
  (∀ (s : State) (w : Nat), ((s.copyBad false w = false ∧ s.copyBad true w = false)) → s.wordClass w < 3 → (s.readCur w).toNat.testBit 35 = false → s.poisonWord w = s) ∧
  (∀ (s : State) (w : Nat), ((s.copyBad false w = false ∧ s.copyBad true w = false)) → s.wordClass w < 3 → s.noIntake (s.wordClass w) = true → s.injectWrite w (s.readCur w) = s)

/-- An access that OWNER or the page map does not allow has only the fault, event or answer that the rules name (R12, R481, R482, R492). -/
def Obligations.RefusedAccessesChangeNothingElse : Prop :=
  (∀ (s : State) (page : Nat) (off : Nat) (v : W32), s.hostUp = true → ((s.mainUp = true ∧ pageAssigned page = true ∧ off ≠ 0x000 ∧ off ≠ 0x01C)) → s.bit (Reg.ownerHostW page) = false → exec (.registerWrite .host page off v) s = .next ((s.hostCarries .host page off v).ownerDiscard page off)) ∧
  (∀ (s : State) (page : Nat) (off : Nat) (v : W32), ((s.mainUp = true ∧ pageAssigned page = true ∧ off ≠ 0x000 ∧ off ≠ 0x01C)) → s.bit (Reg.ownerWorld page) = true → exec (.registerWrite .tenderNormal page off v) s = .next (s.worldFault 0x05 page off)) ∧
  (∀ (s : State) (page : Nat) (off : Nat) (v : W32), ((s.mainUp = true ∧ pageAssigned page = true ∧ off ≠ 0x000 ∧ off ≠ 0x01C)) → (s.bit (Reg.ownerHostW page) = false ∨ s.svcLevel ≠ 2) → exec (.registerWrite .uart page off v) s = .next (s.uartDiscard)) ∧
  (∀ (s : State) (page : Nat) (off : Nat) (v : W32), s.hostUp = true → pageAssigned page = false → page < 0x400 → exec (.registerWrite .host page off v) s = .next ((s.pciCapture page off).raise Reg.pciEventUnassigned)) ∧
  (∀ (s : State) (r : Requester) (page : Nat) (off : Nat) (v : W32), s.mainUp = true → pageAssigned page = false → (r = .tenderSecure ∨ r = .tenderNormal) → exec (.registerWrite r page off v) s = .next (s.unassignedFault 0x05 page off)) ∧
  (∀ (s : State) (r : Requester) (page : Nat) (v : W32), s.mainUp = true → pageAssigned page = true → (r ≠ .tenderSecure ∨ s.bit (Reg.ownerLock page) = true) → exec (.ownerWrite r page v) s = .next (s)) ∧
  (∀ (s : State) (c : CoreId) (a : W36), isPage a.toNat = true → pageAssigned (pageOf a.toNat) = false → s.loadSpace c a 1 = none ∧ s.storeSpace c a 1 = none)

/-- Each integer instruction writes its value and merged quality and the next one follows (R147, R142, R175, R51, R53, R70). -/
def Obligations.IntegerInstructionsComplete : Prop :=
  (∀ (c : CoreId) (o : OpA), o.x = 0 → Computes (.add c o) c 1 [o.a, o.b] [o.d] (fun x => [(o.d, qw (val (x.seeQ o.a) + val (x.seeQ o.b)) (mergeWs [x.seeQ o.a, x.seeQ o.b]))])) ∧
  (∀ (c : CoreId) (o : OpI), Computes (.addi c o) c 1 [o.a] [o.d] (fun x => [(o.d, qw (val (x.seeQ o.a) + val (immQ o.imm)) (mergeWs [x.seeQ o.a, immQ o.imm]))])) ∧
  (∀ (c : CoreId) (o : OpA), o.x = 0 → Computes (.sub c o) c 1 [o.a, o.b] [o.d] (fun x => [(o.d, qw (val (x.seeQ o.a) + 2 ^ 32 - val (x.seeQ o.b)) (mergeWs [x.seeQ o.a, x.seeQ o.b]))])) ∧
  (∀ (c : CoreId) (o : OpA), o.x = 0 → Computes (.mul c o) c 1 [o.a, o.b] [o.d] (fun x => [(o.d, qw (val (x.seeQ o.a) * val (x.seeQ o.b)) (mergeWs [x.seeQ o.a, x.seeQ o.b]))])) ∧
  (∀ (c : CoreId) (o : OpA), o.x = 0 → Computes (.mulh c o) c 1 [o.a, o.b] [o.d] (fun x => [(o.d, qw (twos 64 (sval (x.seeQ o.a) * sval (x.seeQ o.b)) / 2 ^ 32) (mergeWs [x.seeQ o.a, x.seeQ o.b]))])) ∧
  (∀ (c : CoreId) (o : OpA), o.x = 1 → Computes (.mulhu c o) c 1 [o.a, o.b] [o.d] (fun x => [(o.d, qw (val (x.seeQ o.a) * val (x.seeQ o.b) / 2 ^ 32) (mergeWs [x.seeQ o.a, x.seeQ o.b]))])) ∧
  (∀ (c : CoreId) (o : OpA), o.x = 0 → Computes (.div c o) c 1 [o.a, o.b] [o.d] (fun x => [(o.d, (vDiv (x.seeQ o.a) (x.seeQ o.b)).word [x.seeQ o.a, x.seeQ o.b])])) ∧
  (∀ (c : CoreId) (o : OpA), o.x = 1 → Computes (.divu c o) c 1 [o.a, o.b] [o.d] (fun x => [(o.d, (vDivu (x.seeQ o.a) (x.seeQ o.b)).word [x.seeQ o.a, x.seeQ o.b])])) ∧
  (∀ (c : CoreId) (o : OpA), o.x = 0 → Computes (.rem c o) c 1 [o.a, o.b] [o.d] (fun x => [(o.d, (vRem (x.seeQ o.a) (x.seeQ o.b)).word [x.seeQ o.a, x.seeQ o.b])])) ∧
  (∀ (c : CoreId) (o : OpA), o.x = 1 → Computes (.remu c o) c 1 [o.a, o.b] [o.d] (fun x => [(o.d, (vRemu (x.seeQ o.a) (x.seeQ o.b)).word [x.seeQ o.a, x.seeQ o.b])])) ∧
  (∀ (c : CoreId) (o : OpA), o.x = 0 → Computes (.and_ c o) c 1 [o.a, o.b] [o.d] (fun x => [(o.d, qw (val (x.seeQ o.a) &&& val (x.seeQ o.b)) (mergeWs [x.seeQ o.a, x.seeQ o.b]))])) ∧
  (∀ (c : CoreId) (o : OpA), o.x = 0 → Computes (.or_ c o) c 1 [o.a, o.b] [o.d] (fun x => [(o.d, qw (val (x.seeQ o.a) ||| val (x.seeQ o.b)) (mergeWs [x.seeQ o.a, x.seeQ o.b]))])) ∧
  (∀ (c : CoreId) (o : OpA), o.x = 0 → Computes (.xor_ c o) c 1 [o.a, o.b] [o.d] (fun x => [(o.d, qw (val (x.seeQ o.a) ^^^ val (x.seeQ o.b)) (mergeWs [x.seeQ o.a, x.seeQ o.b]))])) ∧
  (∀ (c : CoreId) (o : OpI), Computes (.andi c o) c 1 [o.a] [o.d] (fun x => [(o.d, qw (val (x.seeQ o.a) &&& val (immQ o.imm)) (mergeWs [x.seeQ o.a, immQ o.imm]))])) ∧
  (∀ (c : CoreId) (o : OpI), Computes (.ori c o) c 1 [o.a] [o.d] (fun x => [(o.d, qw (val (x.seeQ o.a) ||| val (immQ o.imm)) (mergeWs [x.seeQ o.a, immQ o.imm]))])) ∧
  (∀ (c : CoreId) (o : OpI), Computes (.xori c o) c 1 [o.a] [o.d] (fun x => [(o.d, qw (val (x.seeQ o.a) ^^^ val (immQ o.imm)) (mergeWs [x.seeQ o.a, immQ o.imm]))])) ∧
  (∀ (c : CoreId) (o : OpA), o.x = 0 → Computes (.min c o) c 1 [o.a, o.b] [o.d] (fun x => [(o.d, qw (if sval (x.seeQ o.a) ≤ sval (x.seeQ o.b) then val (x.seeQ o.a) else val (x.seeQ o.b)) (mergeWs [x.seeQ o.a, x.seeQ o.b]))])) ∧
  (∀ (c : CoreId) (o : OpA), o.x = 0 → Computes (.max c o) c 1 [o.a, o.b] [o.d] (fun x => [(o.d, qw (if sval (x.seeQ o.a) ≤ sval (x.seeQ o.b) then val (x.seeQ o.b) else val (x.seeQ o.a)) (mergeWs [x.seeQ o.a, x.seeQ o.b]))])) ∧
  (∀ (c : CoreId) (o : OpL), o.a = 0 → o.imm = 0 → Computes (.liq c o) c 2 [] [o.d] (fun _ => [(o.d, qw (val o.lit) 8)]))

/-- ADDS and SUBS clamp an out-of-range result to the nearer limit and clear V (R151). -/
def Obligations.SaturatingSumsClamp : Prop :=
  (∀ (c : CoreId) (o : OpA), o.x = 0 → Computes (.adds c o) c 1 [o.a, o.b] [o.d] (fun x => [(o.d, saturated (sval (x.seeQ o.a) + sval (x.seeQ o.b)) (mergeQ (qOf (x.seeQ o.a)) (qOf (x.seeQ o.b))))])) ∧
  (∀ (c : CoreId) (o : OpA), o.x = 0 → Computes (.subs c o) c 1 [o.a, o.b] [o.d] (fun x => [(o.d, saturated (sval (x.seeQ o.a) - sval (x.seeQ o.b)) (mergeQ (qOf (x.seeQ o.a)) (qOf (x.seeQ o.b))))]))

/-- Shifts and SHLA take their amount from val(b)[4:0] or from x[4:0], as x[12] says (R148). -/
def Obligations.ShiftAmountComesFromX12 : Prop :=
  (∀ (c : CoreId) (o : OpA), o.x = 0 → Computes (.shl c o) c 1 [o.a, o.b] [o.d] (fun x => [(o.d, qw (val (x.seeQ o.a) * 2 ^ (val (x.seeQ o.b) % 32)) (mergeWs [x.seeQ o.a, x.seeQ o.b]))])) ∧
  (∀ (c : CoreId) (o : OpA), o.x.toNat / 32 = 128 → o.b = 0 → Computes (.shl c o) c 1 [o.a] [o.d] (fun x => [(o.d, qw (val (x.seeQ o.a) * 2 ^ (o.x.toNat % 32)) (mergeWs [x.seeQ o.a, litQ (o.x.toNat % 32)]))])) ∧
  (∀ (c : CoreId) (o : OpA), o.x = 0 → Computes (.shr c o) c 1 [o.a, o.b] [o.d] (fun x => [(o.d, qw (val (x.seeQ o.a) / 2 ^ (val (x.seeQ o.b) % 32)) (mergeWs [x.seeQ o.a, x.seeQ o.b]))])) ∧
  (∀ (c : CoreId) (o : OpA), o.x.toNat / 32 = 128 → o.b = 0 → Computes (.shr c o) c 1 [o.a] [o.d] (fun x => [(o.d, qw (val (x.seeQ o.a) / 2 ^ (o.x.toNat % 32)) (mergeWs [x.seeQ o.a, litQ (o.x.toNat % 32)]))])) ∧
  (∀ (c : CoreId) (o : OpA), o.x = 0 → Computes (.sar c o) c 1 [o.a, o.b] [o.d] (fun x => [(o.d, qw (twos 32 (sval (x.seeQ o.a) / (2 ^ (val (x.seeQ o.b) % 32) : Nat))) (mergeWs [x.seeQ o.a, x.seeQ o.b]))])) ∧
  (∀ (c : CoreId) (o : OpA), o.x.toNat / 32 = 128 → o.b = 0 → Computes (.sar c o) c 1 [o.a] [o.d] (fun x => [(o.d, qw (twos 32 (sval (x.seeQ o.a) / (2 ^ (o.x.toNat % 32) : Nat))) (mergeWs [x.seeQ o.a, litQ (o.x.toNat % 32)]))])) ∧
  (∀ (c : CoreId) (o : OpA), o.x = 0 → Computes (.shla c o) c 1 [o.a, o.b] [o.d] (fun x => [(o.d, x.see o.a <<< (val (x.seeQ o.b) % 32))])) ∧
  (∀ (c : CoreId) (o : OpA), o.x.toNat / 32 = 128 → o.b = 0 → Computes (.shla c o) c 1 [o.a] [o.d] (fun x => [(o.d, x.see o.a <<< (o.x.toNat % 32))])) ∧
  (∀ (c : CoreId) (o : OpA), o.x ≠ 0 → (¬(o.x.toNat / 32 = 128 ∧ o.b = 0)) → Traps (.shl c o) c 1 0x01 ∧ Traps (.shr c o) c 1 0x01 ∧ Traps (.sar c o) c 1 0x01 ∧ Traps (.shla c o) c 1 0x01)

/-- ADDP and SUBP add and subtract 64-bit register pairs with one merged quality (R150). -/
def Obligations.PairSumsAreSixtyFourBit : Prop :=
  (∀ (c : CoreId) (o : OpA), o.x = 0 → o.d.toNat % 2 = 0 → o.a.toNat % 2 = 0 → o.b.toNat % 2 = 0 → Computes (.addp c o) c 1 [o.a, o.a + 1, o.b, o.b + 1] [o.d, o.d + 1] (fun x => pairWrite o.d ((pairOf x o.a + pairOf x o.b) % 2 ^ 64) (mergeWs [x.seeQ o.a, x.seeQ (o.a + 1), x.seeQ o.b, x.seeQ (o.b + 1)]))) ∧
  (∀ (c : CoreId) (o : OpA), o.x = 0 → o.d.toNat % 2 = 0 → o.a.toNat % 2 = 0 → o.b.toNat % 2 = 0 → Computes (.subp c o) c 1 [o.a, o.a + 1, o.b, o.b + 1] [o.d, o.d + 1] (fun x => pairWrite o.d ((pairOf x o.a + 2 ^ 64 - pairOf x o.b) % 2 ^ 64) (mergeWs [x.seeQ o.a, x.seeQ (o.a + 1), x.seeQ o.b, x.seeQ (o.b + 1)]))) ∧
  (∀ (c : CoreId) (o : OpA), (o.d.toNat % 2 = 1 ∨ o.a.toNat % 2 = 1 ∨ o.b.toNat % 2 = 1) → Traps (.addp c o) c 1 0x01 ∧ Traps (.subp c o) c 1 0x01) ∧
  (∀ (c : CoreId) (s : State), (s.sysRead c 0x001).toNat.testBit 1 = true)

/-- SEL takes value and quality from the condition and the selected operand alone (R149). -/
def Obligations.SelReadsOnlyWhatItSelects : Prop :=
  (∀ (c : CoreId) (o : OpA), o.x.toNat < 32 → Computes (.sel c o) c 1 [BitVec.ofNat 5 o.x.toNat, o.a, o.b] [o.d] (fun x => [(o.d, if val (x.seeQ (BitVec.ofNat 5 o.x.toNat)) ≠ 0 then qw (val (x.seeQ o.a)) (mergeQ (qOf (x.seeQ (BitVec.ofNat 5 o.x.toNat))) (qOf (x.seeQ o.a))) else qw (val (x.seeQ o.b)) (mergeQ (qOf (x.seeQ (BitVec.ofNat 5 o.x.toNat))) (qOf (x.seeQ o.b))))]))

/-- MOV, ADDA, ADDAR, SUBA, LI and MOVP write all 36 bits modulo 2^36 (R152, R52, R70). -/
def Obligations.AddressAndMoveInstructionsComplete : Prop :=
  (∀ (c : CoreId) (o : OpA), o.b = 0 → o.x = 0 → Computes (.mov c o) c 1 [o.a] [o.d] (fun x => [(o.d, x.see o.a)])) ∧
  (∀ (c : CoreId) (o : OpI), Computes (.adda c o) c 1 [o.a] [o.d] (fun x => [(o.d, x.see o.a + immP o.imm)])) ∧
  (∀ (c : CoreId) (o : OpA), o.x = 0 → Computes (.addar c o) c 1 [o.a, o.b] [o.d] (fun x => [(o.d, x.see o.a + x.see o.b)])) ∧
  (∀ (c : CoreId) (o : OpA), o.x = 0 → Computes (.suba c o) c 1 [o.a, o.b] [o.d] (fun x => [(o.d, x.see o.a - x.see o.b)])) ∧
  (∀ (c : CoreId) (o : OpL), o.a = 0 → o.imm = 0 → Computes (.li c o) c 2 [] [o.d] (fun _ => [(o.d, o.lit)])) ∧
  (∀ (c : CoreId) (o : OpA), o.b = 0 → o.x = 0 → o.d.toNat % 2 = 0 → o.a.toNat % 2 = 0 → Computes (.movp c o) c 1 [o.a, o.a + 1] [o.d, o.d + 1] (fun x => [(o.d, x.see o.a), (o.d + 1, x.see (o.a + 1))]))

/-- Each compare writes 1 or 0 with the merged quality (R153, R54, R142, R175). -/
def Obligations.ComparesWriteOneOrZero : Prop :=
  (∀ (c : CoreId) (o : OpA), o.x = 0 → Computes (.ceq c o) c 1 [o.a, o.b] [o.d] (fun x => [(o.d, qw (if val (x.seeQ o.a) = val (x.seeQ o.b) then 1 else 0) (mergeWs [x.seeQ o.a, x.seeQ o.b]))])) ∧
  (∀ (c : CoreId) (o : OpA), o.x = 0 → Computes (.cne c o) c 1 [o.a, o.b] [o.d] (fun x => [(o.d, qw (if val (x.seeQ o.a) ≠ val (x.seeQ o.b) then 1 else 0) (mergeWs [x.seeQ o.a, x.seeQ o.b]))])) ∧
  (∀ (c : CoreId) (o : OpA), o.x = 0 → Computes (.clt c o) c 1 [o.a, o.b] [o.d] (fun x => [(o.d, qw (if sval (x.seeQ o.a) < sval (x.seeQ o.b) then 1 else 0) (mergeWs [x.seeQ o.a, x.seeQ o.b]))])) ∧
  (∀ (c : CoreId) (o : OpA), o.x = 0 → Computes (.cle c o) c 1 [o.a, o.b] [o.d] (fun x => [(o.d, qw (if sval (x.seeQ o.a) ≤ sval (x.seeQ o.b) then 1 else 0) (mergeWs [x.seeQ o.a, x.seeQ o.b]))])) ∧
  (∀ (c : CoreId) (o : OpA), o.x = 0 → Computes (.cltu c o) c 1 [o.a, o.b] [o.d] (fun x => [(o.d, qw (if val (x.seeQ o.a) < val (x.seeQ o.b) then 1 else 0) (mergeWs [x.seeQ o.a, x.seeQ o.b]))])) ∧
  (∀ (c : CoreId) (o : OpA), o.x = 0 → Computes (.cleu c o) c 1 [o.a, o.b] [o.d] (fun x => [(o.d, qw (if val (x.seeQ o.a) ≤ val (x.seeQ o.b) then 1 else 0) (mergeWs [x.seeQ o.a, x.seeQ o.b]))])) ∧
  (∀ (c : CoreId) (o : OpI), Computes (.ceqi c o) c 1 [o.a] [o.d] (fun x => [(o.d, qw (if val (x.seeQ o.a) = val (immQ o.imm) then 1 else 0) (mergeWs [x.seeQ o.a, immQ o.imm]))])) ∧
  (∀ (c : CoreId) (o : OpI), Computes (.clti c o) c 1 [o.a] [o.d] (fun x => [(o.d, qw (if sval (x.seeQ o.a) < sval (immQ o.imm) then 1 else 0) (mergeWs [x.seeQ o.a, immQ o.imm]))])) ∧
  (∀ (c : CoreId) (o : OpI), Computes (.cgti c o) c 1 [o.a] [o.d] (fun x => [(o.d, qw (if sval (immQ o.imm) < sval (x.seeQ o.a) then 1 else 0) (mergeWs [x.seeQ o.a, immQ o.imm]))])) ∧
  (∀ (c : CoreId) (o : OpA), o.x = 0 → Computes (.fceq c o) c 1 [o.a, o.b] [o.d] (fun x => [(o.d, (vFceq (x.seeQ o.a) (x.seeQ o.b)).word [x.seeQ o.a, x.seeQ o.b])])) ∧
  (∀ (c : CoreId) (o : OpA), o.x = 0 → Computes (.fclt c o) c 1 [o.a, o.b] [o.d] (fun x => [(o.d, (vFclt (x.seeQ o.a) (x.seeQ o.b)).word [x.seeQ o.a, x.seeQ o.b])])) ∧
  (∀ (c : CoreId) (o : OpA), o.x = 0 → Computes (.fcle c o) c 1 [o.a, o.b] [o.d] (fun x => [(o.d, (vFcle (x.seeQ o.a) (x.seeQ o.b)).word [x.seeQ o.a, x.seeQ o.b])]))

/-- Each float instruction writes its rounded value and merged quality (R163, R165, R175, R142). -/
def Obligations.FloatInstructionsComplete : Prop :=
  (∀ (c : CoreId) (o : OpA), o.x = 0 → Computes (.fadd c o) c 1 [o.a, o.b] [o.d] (fun x => [(o.d, (vFadd (x.seeQ o.a) (x.seeQ o.b)).word [x.seeQ o.a, x.seeQ o.b])])) ∧
  (∀ (c : CoreId) (o : OpA), o.x = 0 → Computes (.fsub c o) c 1 [o.a, o.b] [o.d] (fun x => [(o.d, (vFsub (x.seeQ o.a) (x.seeQ o.b)).word [x.seeQ o.a, x.seeQ o.b])])) ∧
  (∀ (c : CoreId) (o : OpA), o.x = 0 → Computes (.fmul c o) c 1 [o.a, o.b] [o.d] (fun x => [(o.d, (vFmul (x.seeQ o.a) (x.seeQ o.b)).word [x.seeQ o.a, x.seeQ o.b])])) ∧
  (∀ (c : CoreId) (o : OpA), o.x = 0 → Computes (.fdiv c o) c 1 [o.a, o.b] [o.d] (fun x => [(o.d, (vFdiv (x.seeQ o.a) (x.seeQ o.b)).word [x.seeQ o.a, x.seeQ o.b])])) ∧
  (∀ (c : CoreId) (o : OpA), o.b = 0 → o.x = 0 → Computes (.fsqrt c o) c 1 [o.a] [o.d] (fun x => [(o.d, (vFsqrt (x.seeQ o.a)).word [x.seeQ o.a])])) ∧
  (∀ (c : CoreId) (o : OpA), o.x = 0 → Computes (.fmin c o) c 1 [o.a, o.b] [o.d] (fun x => [(o.d, (vFmin (x.seeQ o.a) (x.seeQ o.b)).word [x.seeQ o.a, x.seeQ o.b])])) ∧
  (∀ (c : CoreId) (o : OpA), o.x = 0 → Computes (.fmax c o) c 1 [o.a, o.b] [o.d] (fun x => [(o.d, (vFmax (x.seeQ o.a) (x.seeQ o.b)).word [x.seeQ o.a, x.seeQ o.b])])) ∧
  (∀ (c : CoreId) (o : OpA), o.b = 0 → o.x = 0 → Computes (.fabs c o) c 1 [o.a] [o.d] (fun x => [(o.d, (vFabs (x.seeQ o.a)).word [x.seeQ o.a])])) ∧
  (∀ (c : CoreId) (o : OpA), o.b = 0 → o.x = 0 → Computes (.fneg c o) c 1 [o.a] [o.d] (fun x => [(o.d, (vFneg (x.seeQ o.a)).word [x.seeQ o.a])])) ∧
  (∀ (c : CoreId) (o : OpA), o.b = 0 → o.x = 0 → Computes (.fcvtif c o) c 1 [o.a] [o.d] (fun x => [(o.d, (vFcvtif (x.seeQ o.a)).word [x.seeQ o.a])])) ∧
  (∀ (c : CoreId) (o : OpA), o.b = 0 → o.x.toNat < 2 → Computes (.fcvtfi c o) c 1 [o.a] [o.d] (fun x => [(o.d, (vFcvtfi (decide (o.x = 1)) (x.seeQ o.a)).word [x.seeQ o.a])]))

/-- Each quality instruction, and each bit instruction on registers, writes its table's word (R171, R159). -/
def Obligations.QualityAndBitInstructionsComplete : Prop :=
  (∀ (c : CoreId) (o : OpA), o.b = 0 → o.x = 0 → Computes (.qget c o) c 1 [o.a] [o.d] (fun x => [(o.d, qw (qOf (x.seeQ o.a)) 8)])) ∧
  (∀ (c : CoreId) (o : OpA), o.x = 0 → Computes (.qset c o) c 1 [o.a, o.b] [o.d] (fun x => [(o.d, qw (val (x.seeQ o.a)) (val (x.seeQ o.b)))])) ∧
  (∀ (c : CoreId) (o : OpI), o.imm.toNat < 16 → Computes (.qseti c o) c 1 [o.a] [o.d] (fun x => [(o.d, qw (val (x.seeQ o.a)) o.imm.toNat)])) ∧
  (∀ (c : CoreId) (o : OpI), o.imm.toNat < 16 → Computes (.qori c o) c 1 [o.a] [o.d] (fun x => [(o.d, qw (val (x.seeQ o.a)) (qOf (x.seeQ o.a) ||| o.imm.toNat))])) ∧
  (∀ (c : CoreId) (o : OpI), o.imm.toNat < 16 → Computes (.qclri c o) c 1 [o.a] [o.d] (fun x => [(o.d, qw (val (x.seeQ o.a)) (qOf (x.seeQ o.a) &&& (15 - o.imm.toNat)))])) ∧
  (∀ (c : CoreId) (o : OpA), o.x = 0 → Computes (.qmrg c o) c 1 [o.a, o.b] [o.d] (fun x => [(o.d, qw (val (x.seeQ o.a)) (mergeQ (qOf (x.seeQ o.a)) (qOf (x.seeQ o.b))))])) ∧
  (∀ (c : CoreId) (o : OpA), o.b = 0 → o.x = 0 → Computes (.qval c o) c 1 [o.a] [o.d] (fun x => [(o.d, qw (if (qOf (x.seeQ o.a)).testBit 3 then 1 else 0) 8)])) ∧
  (∀ (c : CoreId) (o : OpA), o.b = 0 → o.x = 0 → Computes (.qgood c o) c 1 [o.a] [o.d] (fun x => [(o.d, qw (if qOf (x.seeQ o.a) = 8 then 1 else 0) 8)])) ∧
  (∀ (c : CoreId) (o : OpA), o.x = 0 → Computes (.qsel c o) c 1 [o.a, o.b] [o.d] (fun x => [(o.d, if (qOf (x.seeQ o.a)).testBit 3 then x.seeQ o.a else x.seeQ o.b)])) ∧
  (∀ (c : CoreId) (o : OpA), isEngine c = true → o.b = 0 → o.x.toNat < 32 → Computes (.tstb c o) c 1 [o.a] [o.d] (fun x => [(o.d, qw (if (val (x.seeQ o.a)).testBit o.x.toNat then 1 else 0) (qOf (x.seeQ o.a)))])) ∧
  (∀ (c : CoreId) (o : OpA), isEngine c = true → o.x.toNat < 32 → Computes (.insb c o) c 1 [o.a, o.b] [o.d] (fun x => [(o.d, qw (withPoint (val (x.seeQ o.a)) o.x.toNat (val (x.seeQ o.b))) (mergeQ (qOf (x.seeQ o.a)) (qOf (x.seeQ o.b))))])) ∧
  (∀ (c : CoreId) (o : OpA), isEngine c = true → o.b = 0 → o.x = 0 → Computes (.popc c o) c 1 [o.a] [o.d] (fun x => [(o.d, qw (popCount (val (x.seeQ o.a))) (qOf (x.seeQ o.a)))])) ∧
  (∀ (c : CoreId) (o : OpA), isEngine c = true → o.b = 0 → o.x = 0 → Computes (.ffs c o) c 1 [o.a] [o.d] (fun x => [(o.d, qw (firstSet (val (x.seeQ o.a))) (qOf (x.seeQ o.a)))]))

/-- The time and cycle instructions write their value with Q = 0b1000 (R172, R173, R50). -/
def Obligations.TimeInstructionsComplete : Prop :=
  (∀ (s : State) (c : CoreId) (o : OpA), s.ready c 1 = true → s.lands c [] [o.d, o.d + 1] = true → (o.a = 0 ∧ o.b = 0 ∧ o.x = 0) → o.d.toNat % 2 = 0 → exec (.rdtime c o) s = .next (s.wrote (s.after c [] [o.d, o.d + 1]).coreTime.2 c 1 [(o.d, qw (s.after c [] [o.d, o.d + 1]).coreTime.1 8), (o.d + 1, qw ((s.after c [] [o.d, o.d + 1]).coreTime.1 / 2 ^ 32) 8)])) ∧
  (∀ (s : State) (c : CoreId) (o : OpA) (k : Nat), s.ready c 1 = true → s.lands c [] [o.d, o.d + 1] = true → s.timeClass c o = some k → o.d.toNat % 2 = 0 → exec (.rdbound c o) s = .next (s.wrote (s.after c [] [o.d, o.d + 1]) c 1 [(o.d, qw ((s.after c [] [o.d, o.d + 1]).boundTime k) 8), (o.d + 1, qw ((s.after c [] [o.d, o.d + 1]).boundTime k / 2 ^ 32) 8)])) ∧
  (∀ (s : State) (c : CoreId) (o : OpA) (k : Nat), s.ready c 1 = true → s.lands c [] [o.d, o.d + 1] = true → s.timeClass c o = some k → o.d.toNat % 2 = 0 → exec (.rdcyc c o) s = .next (s.wrote (s.after c [] [o.d, o.d + 1]) c 1 [(o.d, qw ((s.after c [] [o.d, o.d + 1]).cycle k) 8), (o.d + 1, qw ((s.after c [] [o.d, o.d + 1]).cycle k / 2 ^ 32) 8)])) ∧
  (∀ (s : State) (c : CoreId) (o : OpA) (k : Nat), s.ready c 1 = true → s.lands c [] [o.d] = true → s.timeClass c o = some k → exec (.rdper c o) s = .next (s.wrote (s.after c [] [o.d]) c 1 [(o.d, qw ((s.after c [] [o.d]).periodUs k) 8)])) ∧
  (∀ (s : State) (c : CoreId) (o : OpA) (k : Nat), s.ready c 1 = true → s.lands c [] [o.d] = true → s.timeClass c o = some k → exec (.rdfull c o) s = .next (s.wrote (s.after c [] [o.d]) c 1 [(o.d, qw ((s.after c [] [o.d]).fld (Reg.blwClStatusFull k)) 8)])) ∧
  (∀ (s : State), s.coreTime.1 ≤ s.now ∧ s.now ≤ s.coreTime.1 + 4) ∧
  (∀ (s : State) (c : CoreId) (o : OpA), s.ready c 1 = true → s.lands c [] [o.d] = true → (o.a = 0 ∧ o.b = 0 ∧ o.x = 0) → exec (.rdcnt c o) s = .next (s.wrote (s.after c [] [o.d]) c 1 [(o.d, qw ((s.after c [] [o.d]).coreCycles c) 8)]))

/-- A non-zero unused field raises ILLEGAL, as does an opcode that the core does not have (R67, R71, R97, R144). -/
def Obligations.UnusedFieldsRaiseIllegal : Prop :=
  (∀ (c : CoreId) (o : OpA), o.x ≠ 0 → Traps (.add c o) c 1 0x01 ∧ Traps (.sub c o) c 1 0x01 ∧ Traps (.adds c o) c 1 0x01 ∧ Traps (.subs c o) c 1 0x01 ∧ Traps (.mul c o) c 1 0x01 ∧ Traps (.and_ c o) c 1 0x01 ∧ Traps (.or_ c o) c 1 0x01 ∧ Traps (.xor_ c o) c 1 0x01 ∧ Traps (.min c o) c 1 0x01 ∧ Traps (.max c o) c 1 0x01 ∧ Traps (.addp c o) c 1 0x01 ∧ Traps (.subp c o) c 1 0x01) ∧
  (∀ (c : CoreId) (o : OpA), o.x ≠ 0 → Traps (.addar c o) c 1 0x01 ∧ Traps (.suba c o) c 1 0x01 ∧ Traps (.ceq c o) c 1 0x01 ∧ Traps (.cne c o) c 1 0x01 ∧ Traps (.clt c o) c 1 0x01 ∧ Traps (.cle c o) c 1 0x01 ∧ Traps (.cltu c o) c 1 0x01 ∧ Traps (.cleu c o) c 1 0x01 ∧ Traps (.fceq c o) c 1 0x01 ∧ Traps (.fclt c o) c 1 0x01 ∧ Traps (.fcle c o) c 1 0x01 ∧ Traps (.fadd c o) c 1 0x01 ∧ Traps (.fsub c o) c 1 0x01 ∧ Traps (.fmul c o) c 1 0x01 ∧ Traps (.fdiv c o) c 1 0x01 ∧ Traps (.fmin c o) c 1 0x01 ∧ Traps (.fmax c o) c 1 0x01 ∧ Traps (.qset c o) c 1 0x01 ∧ Traps (.qmrg c o) c 1 0x01 ∧ Traps (.qsel c o) c 1 0x01 ∧ Traps (.ldwx c o) c 1 0x01 ∧ Traps (.stwx c o) c 1 0x01) ∧
  (∀ (c : CoreId) (o : OpA), (o.b ≠ 0 ∨ o.x ≠ 0) → Traps (.mov c o) c 1 0x01 ∧ Traps (.movp c o) c 1 0x01 ∧ Traps (.fsqrt c o) c 1 0x01 ∧ Traps (.fabs c o) c 1 0x01 ∧ Traps (.fneg c o) c 1 0x01 ∧ Traps (.fcvtif c o) c 1 0x01 ∧ Traps (.qget c o) c 1 0x01 ∧ Traps (.qval c o) c 1 0x01 ∧ Traps (.qgood c o) c 1 0x01 ∧ Traps (.popc c o) c 1 0x01 ∧ Traps (.ffs c o) c 1 0x01 ∧ Traps (.jr c o) c 1 0x01 ∧ Traps (.callr c o) c 1 0x01) ∧
  (∀ (c : CoreId) (o : OpA), (o.d ≠ 0 ∨ o.a ≠ 0 ∨ o.b ≠ 0 ∨ o.x ≠ 0) → Traps (.nop c o) c 1 0x01 ∧ Traps (.ret c o) c 1 0x01 ∧ Traps (.bend c o) c 1 0x01 ∧ Traps (.rete c o) c 1 0x01 ∧ Traps (.wfi c o) c 1 0x01 ∧ Traps (.fence c o) c 1 0x01) ∧
  (∀ (c : CoreId) (o : OpI), 16 ≤ o.imm.toNat → Traps (.qseti c o) c 1 0x01 ∧ Traps (.qori c o) c 1 0x01 ∧ Traps (.qclri c o) c 1 0x01) ∧
  (∀ (c : CoreId) (o : OpI), o.d ≠ 0 → Traps (.bz c o) c 1 0x01 ∧ Traps (.bnz c o) c 1 0x01 ∧ Traps (.svc c o) c 1 0x01 ∧ Traps (.brk c o) c 1 0x01) ∧
  (∀ (c : CoreId) (o : OpL), (o.a ≠ 0 ∨ o.imm ≠ 0) → Traps (.liq c o) c 2 0x01 ∧ Traps (.li c o) c 2 0x01) ∧
  (∀ (o : OpB) (p : OpA), Traps (.ldb .tender o) .tender 1 0x01 ∧ Traps (.ldbp .tender o) .tender 1 0x01 ∧ Traps (.redge .tender o) .tender 1 0x01 ∧ Traps (.fedge .tender o) .tender 1 0x01 ∧ Traps (.chgb .tender o) .tender 1 0x01 ∧ Traps (.stb .tender o) .tender 1 0x01 ∧ Traps (.setb .tender o) .tender 1 0x01 ∧ Traps (.clrb .tender o) .tender 1 0x01 ∧ Traps (.ldwp .tender o) .tender 1 0x01 ∧ Traps (.chgw .tender o) .tender 1 0x01 ∧ Traps (.tstb .tender p) .tender 1 0x01 ∧ Traps (.insb .tender p) .tender 1 0x01 ∧ Traps (.popc .tender p) .tender 1 0x01 ∧ Traps (.ffs .tender p) .tender 1 0x01 ∧ Traps (.bend .tender p) .tender 1 0x01) ∧
  (∀ (e : Fin 144) (o : OpI), Traps (.svc (.engine e) o) (.engine e) 1 0x01) ∧
  (∀ (s : State) (c : CoreId) (o : OpI), s.ready c 1 = true → (o.d ≠ 0 ∨ 0x400 ≤ o.imm.toNat) → s.privileged c = true → ((s.at c).inSecure = true ∨ secureSys (o.imm.toNat % 0x400) = false) → exec (.sysw c o) s = .next ((s.fetched c).trapped c 0x01 (s.at c).pc (s.at c).pc)) ∧
  (∀ (s : State) (c : CoreId) (w : W36), s.ready c 1 = true → opAssigned (opcodeOf w) = false → exec (.illegalOpcode c w) s = .next ((s.fetched c).trapped c 0x01 (s.at c).pc (s.at c).pc))

/-- Each load delivers its words, from local store at once and else as an outstanding load (R154, R73, R74, R75, R78, R81, R88, R158, R159, R162). -/
def Obligations.LoadsComplete : Prop :=
  (∀ (s : State) (c : CoreId) (o : OpI), s.ready c 1 = true → s.lands c [o.a] [o.d] = true → (s.after c [o.a] [o.d]).loadSpace c (((s.after c [o.a] [o.d]).at c).eaI o) 1 = some .ls → ((s.after c [o.a] [o.d]).at c).unwatched 1 (((s.after c [o.a] [o.d]).at c).eaI o) 1 = true → ((s.after c [o.a] [o.d]).loadWords c .ls (((s.after c [o.a] [o.d]).at c).eaI o).toNat 1).2.1 = false → exec (.ldw c o) s = .next (s.gotLoad ((s.after c [o.a] [o.d]).loadWords c .ls (((s.after c [o.a] [o.d]).at c).eaI o).toNat 1).2.2 c ([o.d].zip ((s.after c [o.a] [o.d]).loadWords c .ls (((s.after c [o.a] [o.d]).at c).eaI o).toNat 1).1))) ∧
  (∀ (s : State) (c : CoreId) (o : OpI), s.ready c 1 = true → s.lands c [o.a] [o.d] = true → (s.after c [o.a] [o.d]).loadSpace c (((s.after c [o.a] [o.d]).at c).eaI o) 1 = some .ls → ((s.after c [o.a] [o.d]).at c).unwatched 1 (((s.after c [o.a] [o.d]).at c).eaI o) 1 = true → ((s.after c [o.a] [o.d]).loadWords c .ls (((s.after c [o.a] [o.d]).at c).eaI o).toNat 1).2.1 = true → exec (.ldw c o) s = .next (((s.after c [o.a] [o.d]).loadWords c .ls (((s.after c [o.a] [o.d]).at c).eaI o).toNat 1).2.2.take c ((((s.after c [o.a] [o.d]).loadWords c .ls (((s.after c [o.a] [o.d]).at c).eaI o).toNat 1).2.2.at c).loadAt (((s.after c [o.a] [o.d]).at c).eaI o) [((((s.after c [o.a] [o.d]).at c).eaI o)).toNat] [] true).trap)) ∧
  (∀ (s : State) (c : CoreId) (o : OpI) (sp : Space) (X : State) (w : State), s.ready c 1 = true → s.lands c [o.a] [o.d] = true → sp ≠ .ls → (s.after c [o.a] [o.d]).loadSpace c (((s.after c [o.a] [o.d]).at c).eaI o) 1 = some sp → ((s.after c [o.a] [o.d]).at c).unwatched 1 (((s.after c [o.a] [o.d]).at c).eaI o) 1 = true → (s.after c [o.a] [o.d]).settles c (Store.blocks sp (((s.after c [o.a] [o.d]).at c).eaI o).toNat 1) X → (X.loadWords c sp (((s.after c [o.a] [o.d]).at c).eaI o).toNat 1).2.2.hasRoom c w → exec (.ldw c o) s = .next (s.awaits w c ((((X.loadWords c sp (((s.after c [o.a] [o.d]).at c).eaI o).toNat 1).2.2).at c).loadAt (((s.after c [o.a] [o.d]).at c).eaI o) ((List.range 1).map ((((s.after c [o.a] [o.d]).at c).eaI o).toNat + ·)) ([o.d].zip (X.loadWords c sp (((s.after c [o.a] [o.d]).at c).eaI o).toNat 1).1) (X.loadWords c sp (((s.after c [o.a] [o.d]).at c).eaI o).toNat 1).2.1))) ∧
  (∀ (s : State) (c : CoreId) (o : OpI), s.ready c 1 = true → s.lands c [o.a] [o.d, o.d + 1] = true → o.d.toNat % 2 = 0 → (s.after c [o.a] [o.d, o.d + 1]).loadSpace c (((s.after c [o.a] [o.d, o.d + 1]).at c).eaI o) 2 = some .ls → ((s.after c [o.a] [o.d, o.d + 1]).at c).unwatched 1 (((s.after c [o.a] [o.d, o.d + 1]).at c).eaI o) 2 = true → ((s.after c [o.a] [o.d, o.d + 1]).loadWords c .ls (((s.after c [o.a] [o.d, o.d + 1]).at c).eaI o).toNat 2).2.1 = false → exec (.ldp c o) s = .next (s.gotLoad ((s.after c [o.a] [o.d, o.d + 1]).loadWords c .ls (((s.after c [o.a] [o.d, o.d + 1]).at c).eaI o).toNat 2).2.2 c ([o.d, o.d + 1].zip ((s.after c [o.a] [o.d, o.d + 1]).loadWords c .ls (((s.after c [o.a] [o.d, o.d + 1]).at c).eaI o).toNat 2).1))) ∧
  (∀ (s : State) (c : CoreId) (o : OpI), s.ready c 1 = true → s.lands c [o.a] [o.d, o.d + 1] = true → o.d.toNat % 2 = 0 → (s.after c [o.a] [o.d, o.d + 1]).loadSpace c (((s.after c [o.a] [o.d, o.d + 1]).at c).eaI o) 2 = some .ls → ((s.after c [o.a] [o.d, o.d + 1]).at c).unwatched 1 (((s.after c [o.a] [o.d, o.d + 1]).at c).eaI o) 2 = true → ((s.after c [o.a] [o.d, o.d + 1]).loadWords c .ls (((s.after c [o.a] [o.d, o.d + 1]).at c).eaI o).toNat 2).2.1 = true → exec (.ldp c o) s = .next (((s.after c [o.a] [o.d, o.d + 1]).loadWords c .ls (((s.after c [o.a] [o.d, o.d + 1]).at c).eaI o).toNat 2).2.2.take c ((((s.after c [o.a] [o.d, o.d + 1]).loadWords c .ls (((s.after c [o.a] [o.d, o.d + 1]).at c).eaI o).toNat 2).2.2.at c).loadAt (((s.after c [o.a] [o.d, o.d + 1]).at c).eaI o) [((((s.after c [o.a] [o.d, o.d + 1]).at c).eaI o)).toNat] [] true).trap)) ∧
  (∀ (s : State) (c : CoreId) (o : OpI) (sp : Space) (X : State) (w : State), s.ready c 1 = true → s.lands c [o.a] [o.d, o.d + 1] = true → o.d.toNat % 2 = 0 → sp ≠ .ls → (s.after c [o.a] [o.d, o.d + 1]).loadSpace c (((s.after c [o.a] [o.d, o.d + 1]).at c).eaI o) 2 = some sp → ((s.after c [o.a] [o.d, o.d + 1]).at c).unwatched 1 (((s.after c [o.a] [o.d, o.d + 1]).at c).eaI o) 2 = true → (s.after c [o.a] [o.d, o.d + 1]).settles c (Store.blocks sp (((s.after c [o.a] [o.d, o.d + 1]).at c).eaI o).toNat 2) X → (X.loadWords c sp (((s.after c [o.a] [o.d, o.d + 1]).at c).eaI o).toNat 2).2.2.hasRoom c w → exec (.ldp c o) s = .next (s.awaits w c ((((X.loadWords c sp (((s.after c [o.a] [o.d, o.d + 1]).at c).eaI o).toNat 2).2.2).at c).loadAt (((s.after c [o.a] [o.d, o.d + 1]).at c).eaI o) ((List.range 2).map ((((s.after c [o.a] [o.d, o.d + 1]).at c).eaI o).toNat + ·)) ([o.d, o.d + 1].zip (X.loadWords c sp (((s.after c [o.a] [o.d, o.d + 1]).at c).eaI o).toNat 2).1) (X.loadWords c sp (((s.after c [o.a] [o.d, o.d + 1]).at c).eaI o).toNat 2).2.1))) ∧
  (∀ (s : State) (c : CoreId) (o : OpA), s.ready c 1 = true → s.lands c [o.a, o.b] [o.d] = true → o.x = 0 → (s.after c [o.a, o.b] [o.d]).loadSpace c (((s.after c [o.a, o.b] [o.d]).at c).eaX o) 1 = some .ls → ((s.after c [o.a, o.b] [o.d]).at c).unwatched 1 (((s.after c [o.a, o.b] [o.d]).at c).eaX o) 1 = true → ((s.after c [o.a, o.b] [o.d]).loadWords c .ls (((s.after c [o.a, o.b] [o.d]).at c).eaX o).toNat 1).2.1 = false → exec (.ldwx c o) s = .next (s.gotLoad ((s.after c [o.a, o.b] [o.d]).loadWords c .ls (((s.after c [o.a, o.b] [o.d]).at c).eaX o).toNat 1).2.2 c ([o.d].zip ((s.after c [o.a, o.b] [o.d]).loadWords c .ls (((s.after c [o.a, o.b] [o.d]).at c).eaX o).toNat 1).1))) ∧
  (∀ (s : State) (c : CoreId) (o : OpA), s.ready c 1 = true → s.lands c [o.a, o.b] [o.d] = true → o.x = 0 → (s.after c [o.a, o.b] [o.d]).loadSpace c (((s.after c [o.a, o.b] [o.d]).at c).eaX o) 1 = some .ls → ((s.after c [o.a, o.b] [o.d]).at c).unwatched 1 (((s.after c [o.a, o.b] [o.d]).at c).eaX o) 1 = true → ((s.after c [o.a, o.b] [o.d]).loadWords c .ls (((s.after c [o.a, o.b] [o.d]).at c).eaX o).toNat 1).2.1 = true → exec (.ldwx c o) s = .next (((s.after c [o.a, o.b] [o.d]).loadWords c .ls (((s.after c [o.a, o.b] [o.d]).at c).eaX o).toNat 1).2.2.take c ((((s.after c [o.a, o.b] [o.d]).loadWords c .ls (((s.after c [o.a, o.b] [o.d]).at c).eaX o).toNat 1).2.2.at c).loadAt (((s.after c [o.a, o.b] [o.d]).at c).eaX o) [((((s.after c [o.a, o.b] [o.d]).at c).eaX o)).toNat] [] true).trap)) ∧
  (∀ (s : State) (c : CoreId) (o : OpA) (sp : Space) (X : State) (w : State), s.ready c 1 = true → s.lands c [o.a, o.b] [o.d] = true → o.x = 0 → sp ≠ .ls → (s.after c [o.a, o.b] [o.d]).loadSpace c (((s.after c [o.a, o.b] [o.d]).at c).eaX o) 1 = some sp → ((s.after c [o.a, o.b] [o.d]).at c).unwatched 1 (((s.after c [o.a, o.b] [o.d]).at c).eaX o) 1 = true → (s.after c [o.a, o.b] [o.d]).settles c (Store.blocks sp (((s.after c [o.a, o.b] [o.d]).at c).eaX o).toNat 1) X → (X.loadWords c sp (((s.after c [o.a, o.b] [o.d]).at c).eaX o).toNat 1).2.2.hasRoom c w → exec (.ldwx c o) s = .next (s.awaits w c ((((X.loadWords c sp (((s.after c [o.a, o.b] [o.d]).at c).eaX o).toNat 1).2.2).at c).loadAt (((s.after c [o.a, o.b] [o.d]).at c).eaX o) ((List.range 1).map ((((s.after c [o.a, o.b] [o.d]).at c).eaX o).toNat + ·)) ([o.d].zip (X.loadWords c sp (((s.after c [o.a, o.b] [o.d]).at c).eaX o).toNat 1).1) (X.loadWords c sp (((s.after c [o.a, o.b] [o.d]).at c).eaX o).toNat 1).2.1))) ∧
  (∀ (s : State) (c : CoreId) (o : OpB) (X : State) (w : State), s.ready c 1 = true → s.lands c [o.base] [o.d] = true → isEngine c = true → (s.after c [o.base] [o.d]).viewOk c .word (((s.after c [o.base] [o.d]).at c).eaB o) = true → ((s.after c [o.base] [o.d]).at c).unwatched 1 (((s.after c [o.base] [o.d]).at c).eaB o) 1 = true → ((s.after c [o.base] [o.d]).settles c (fun st => st.has (((s.after c [o.base] [o.d]).at c).eaB o).toNat) X) → X.hasRoom c w → exec (.ldb c o) s = .next (s.awaits w c ((X.at c).loadAt (((s.after c [o.base] [o.d]).at c).eaB o) (View.covers .word (((s.after c [o.base] [o.d]).at c).eaB o).toNat) [(o.d, qw (if (val (X.hearthLoad c (((s.after c [o.base] [o.d]).at c).eaB o).toNat)).testBit o.bit.toNat then 1 else 0) (qOf (X.hearthLoad c (((s.after c [o.base] [o.d]).at c).eaB o).toNat)))] (X.viewBad c .word (((s.after c [o.base] [o.d]).at c).eaB o))))) ∧
  (∀ (s : State) (c : CoreId) (o : OpB) (X : State) (w : State), s.ready c 1 = true → s.lands c [o.base] [o.d] = true → isEngine c = true → (s.after c [o.base] [o.d]).viewOk c .prev (((s.after c [o.base] [o.d]).at c).eaB o) = true → ((s.after c [o.base] [o.d]).at c).unwatched 1 (((s.after c [o.base] [o.d]).at c).eaB o) 1 = true → ((s.after c [o.base] [o.d]).settles c (fun st => st.has (((s.after c [o.base] [o.d]).at c).eaB o).toNat) X) → X.hasRoom c w → exec (.ldbp c o) s = .next (s.awaits w c ((X.at c).loadAt (((s.after c [o.base] [o.d]).at c).eaB o) (View.covers .prev (((s.after c [o.base] [o.d]).at c).eaB o).toNat) [(o.d, qw (if (val (X.hearthLoad c (prevAddr (((s.after c [o.base] [o.d]).at c).eaB o).toNat))).testBit o.bit.toNat then 1 else 0) (qOf (X.hearthLoad c (prevAddr (((s.after c [o.base] [o.d]).at c).eaB o).toNat))))] (X.viewBad c .prev (((s.after c [o.base] [o.d]).at c).eaB o))))) ∧
  (∀ (s : State) (c : CoreId) (o : OpB) (X : State) (w : State), s.ready c 1 = true → s.lands c [o.base] [o.d] = true → isEngine c = true → (s.after c [o.base] [o.d]).viewOk c .both (((s.after c [o.base] [o.d]).at c).eaB o) = true → ((s.after c [o.base] [o.d]).at c).unwatched 1 (((s.after c [o.base] [o.d]).at c).eaB o) 1 = true → ((s.after c [o.base] [o.d]).settles c (fun st => st.has (((s.after c [o.base] [o.d]).at c).eaB o).toNat) X) → X.hasRoom c w → exec (.redge c o) s = .next (s.awaits w c ((X.at c).loadAt (((s.after c [o.base] [o.d]).at c).eaB o) (View.covers .both (((s.after c [o.base] [o.d]).at c).eaB o).toNat) [(o.d, qw (if (val (X.hearthLoad c (((s.after c [o.base] [o.d]).at c).eaB o).toNat)).testBit o.bit.toNat ∧ ¬(val (X.hearthLoad c (prevAddr (((s.after c [o.base] [o.d]).at c).eaB o).toNat))).testBit o.bit.toNat then 1 else 0) (mergeQ (qOf (X.hearthLoad c (((s.after c [o.base] [o.d]).at c).eaB o).toNat)) (qOf (X.hearthLoad c (prevAddr (((s.after c [o.base] [o.d]).at c).eaB o).toNat)))))] (X.viewBad c .both (((s.after c [o.base] [o.d]).at c).eaB o))))) ∧
  (∀ (s : State) (c : CoreId) (o : OpB) (X : State) (w : State), s.ready c 1 = true → s.lands c [o.base] [o.d] = true → isEngine c = true → (s.after c [o.base] [o.d]).viewOk c .both (((s.after c [o.base] [o.d]).at c).eaB o) = true → ((s.after c [o.base] [o.d]).at c).unwatched 1 (((s.after c [o.base] [o.d]).at c).eaB o) 1 = true → ((s.after c [o.base] [o.d]).settles c (fun st => st.has (((s.after c [o.base] [o.d]).at c).eaB o).toNat) X) → X.hasRoom c w → exec (.fedge c o) s = .next (s.awaits w c ((X.at c).loadAt (((s.after c [o.base] [o.d]).at c).eaB o) (View.covers .both (((s.after c [o.base] [o.d]).at c).eaB o).toNat) [(o.d, qw (if ¬(val (X.hearthLoad c (((s.after c [o.base] [o.d]).at c).eaB o).toNat)).testBit o.bit.toNat ∧ (val (X.hearthLoad c (prevAddr (((s.after c [o.base] [o.d]).at c).eaB o).toNat))).testBit o.bit.toNat then 1 else 0) (mergeQ (qOf (X.hearthLoad c (((s.after c [o.base] [o.d]).at c).eaB o).toNat)) (qOf (X.hearthLoad c (prevAddr (((s.after c [o.base] [o.d]).at c).eaB o).toNat)))))] (X.viewBad c .both (((s.after c [o.base] [o.d]).at c).eaB o))))) ∧
  (∀ (s : State) (c : CoreId) (o : OpB) (X : State) (w : State), s.ready c 1 = true → s.lands c [o.base] [o.d] = true → isEngine c = true → (s.after c [o.base] [o.d]).viewOk c .both (((s.after c [o.base] [o.d]).at c).eaB o) = true → ((s.after c [o.base] [o.d]).at c).unwatched 1 (((s.after c [o.base] [o.d]).at c).eaB o) 1 = true → ((s.after c [o.base] [o.d]).settles c (fun st => st.has (((s.after c [o.base] [o.d]).at c).eaB o).toNat) X) → X.hasRoom c w → exec (.chgb c o) s = .next (s.awaits w c ((X.at c).loadAt (((s.after c [o.base] [o.d]).at c).eaB o) (View.covers .both (((s.after c [o.base] [o.d]).at c).eaB o).toNat) [(o.d, qw (if (val (X.hearthLoad c (((s.after c [o.base] [o.d]).at c).eaB o).toNat)).testBit o.bit.toNat ≠ (val (X.hearthLoad c (prevAddr (((s.after c [o.base] [o.d]).at c).eaB o).toNat))).testBit o.bit.toNat then 1 else 0) (mergeQ (qOf (X.hearthLoad c (((s.after c [o.base] [o.d]).at c).eaB o).toNat)) (qOf (X.hearthLoad c (prevAddr (((s.after c [o.base] [o.d]).at c).eaB o).toNat)))))] (X.viewBad c .both (((s.after c [o.base] [o.d]).at c).eaB o))))) ∧
  (∀ (s : State) (c : CoreId) (o : OpB) (X : State) (w : State), s.ready c 1 = true → s.lands c [o.base] [o.d] = true → isEngine c = true → (s.after c [o.base] [o.d]).viewOk c .prev (((s.after c [o.base] [o.d]).at c).eaB o) = true → ((s.after c [o.base] [o.d]).at c).unwatched 1 (((s.after c [o.base] [o.d]).at c).eaB o) 1 = true → ((s.after c [o.base] [o.d]).settles c (fun st => st.has (((s.after c [o.base] [o.d]).at c).eaB o).toNat) X) → X.hasRoom c w → o.bit = 0 → exec (.ldwp c o) s = .next (s.awaits w c ((X.at c).loadAt (((s.after c [o.base] [o.d]).at c).eaB o) (View.covers .prev (((s.after c [o.base] [o.d]).at c).eaB o).toNat) [(o.d, (X.hearthLoad c (prevAddr (((s.after c [o.base] [o.d]).at c).eaB o).toNat)))] (X.viewBad c .prev (((s.after c [o.base] [o.d]).at c).eaB o))))) ∧
  (∀ (s : State) (c : CoreId) (o : OpB) (X : State) (w : State), s.ready c 1 = true → s.lands c [o.base] [o.d] = true → isEngine c = true → (s.after c [o.base] [o.d]).viewOk c .both (((s.after c [o.base] [o.d]).at c).eaB o) = true → ((s.after c [o.base] [o.d]).at c).unwatched 1 (((s.after c [o.base] [o.d]).at c).eaB o) 1 = true → ((s.after c [o.base] [o.d]).settles c (fun st => st.has (((s.after c [o.base] [o.d]).at c).eaB o).toNat) X) → X.hasRoom c w → o.bit = 0 → exec (.chgw c o) s = .next (s.awaits w c ((X.at c).loadAt (((s.after c [o.base] [o.d]).at c).eaB o) (View.covers .both (((s.after c [o.base] [o.d]).at c).eaB o).toNat) [(o.d, qw (if val (X.hearthLoad c (((s.after c [o.base] [o.d]).at c).eaB o).toNat) ≠ val (X.hearthLoad c (prevAddr (((s.after c [o.base] [o.d]).at c).eaB o).toNat)) then 1 else 0) (mergeQ (qOf (X.hearthLoad c (((s.after c [o.base] [o.d]).at c).eaB o).toNat)) (qOf (X.hearthLoad c (prevAddr (((s.after c [o.base] [o.d]).at c).eaB o).toNat)))))] (X.viewBad c .both (((s.after c [o.base] [o.d]).at c).eaB o))))) ∧
  (∀ (c : CoreId) (o : OpI) (s : State), s.ready c 1 = true → s.lands c [o.a] [o.d] = true → (s.loadGoes ⟨c, [o.a], fun x => x.eaI o, [o.d], none⟩ .ls = true) → ((s.after c [o.a] [o.d]).loadWords c .ls (((s.after c [o.a] [o.d]).at c).eaI o).toNat 1).2.1 = false → ∃ t, exec (.ldw c o) s = .next t ∧ (t.at c).pc = wordAt (s.at c).pc 1 ∧ (∀ i, i < 1 → ([o.d].getD i 0) ≠ 0 → (t.at c).reg ([o.d].getD i 0) = ((s.after c [o.a] [o.d]).loadWords c .ls (((s.after c [o.a] [o.d]).at c).eaI o).toNat 1).1.getD i 0) ∧ (∀ q : Reg, q ∉ ([o.d] : List Reg) → (t.at c).reg q = ((s.after c [o.a] [o.d]).at c).reg q)) ∧
  (∀ (c : CoreId) (o : OpI) (sp : Space) (s : State), sp ≠ .ls → s.ready c 1 = true → s.lands c [o.a] [o.d] = true → (s.loadGoes ⟨c, [o.a], fun x => x.eaI o, [o.d], none⟩ sp = true) → ((s.after c [o.a] [o.d]).at c).loads.length < 4 → ∃ t l, exec (.ldw c o) s = .next t ∧ (t.at c).pc = wordAt (s.at c).pc 1 ∧ (t.at c).loads.getLast? = some l ∧ l.addr = (((s.after c [o.a] [o.d]).at c).eaI o) ∧ l.dests.map (·.1) = [o.d] ∧ (∀ q : Reg, (t.at c).reg q = ((s.after c [o.a] [o.d]).at c).reg q)) ∧
  (∀ (c : CoreId) (o : OpI) (s : State), o.d.toNat % 2 = 0 → s.ready c 1 = true → s.lands c [o.a] [o.d, o.d + 1] = true → (s.loadGoes ⟨c, [o.a], fun x => x.eaI o, [o.d, o.d + 1], none⟩ .ls = true) → ((s.after c [o.a] [o.d, o.d + 1]).loadWords c .ls (((s.after c [o.a] [o.d, o.d + 1]).at c).eaI o).toNat 2).2.1 = false → ∃ t, exec (.ldp c o) s = .next t ∧ (t.at c).pc = wordAt (s.at c).pc 1 ∧ (∀ i, i < 2 → ([o.d, o.d + 1].getD i 0) ≠ 0 → (t.at c).reg ([o.d, o.d + 1].getD i 0) = ((s.after c [o.a] [o.d, o.d + 1]).loadWords c .ls (((s.after c [o.a] [o.d, o.d + 1]).at c).eaI o).toNat 2).1.getD i 0) ∧ (∀ q : Reg, q ∉ ([o.d, o.d + 1] : List Reg) → (t.at c).reg q = ((s.after c [o.a] [o.d, o.d + 1]).at c).reg q)) ∧
  (∀ (c : CoreId) (o : OpI) (sp : Space) (s : State), o.d.toNat % 2 = 0 → sp ≠ .ls → s.ready c 1 = true → s.lands c [o.a] [o.d, o.d + 1] = true → (s.loadGoes ⟨c, [o.a], fun x => x.eaI o, [o.d, o.d + 1], none⟩ sp = true) → ((s.after c [o.a] [o.d, o.d + 1]).at c).loads.length < 4 → ∃ t l, exec (.ldp c o) s = .next t ∧ (t.at c).pc = wordAt (s.at c).pc 1 ∧ (t.at c).loads.getLast? = some l ∧ l.addr = (((s.after c [o.a] [o.d, o.d + 1]).at c).eaI o) ∧ l.dests.map (·.1) = [o.d, o.d + 1] ∧ (∀ q : Reg, (t.at c).reg q = ((s.after c [o.a] [o.d, o.d + 1]).at c).reg q)) ∧
  (∀ (c : CoreId) (o : OpA) (s : State), o.x = 0 → s.ready c 1 = true → s.lands c [o.a, o.b] [o.d] = true → (s.loadGoes ⟨c, [o.a, o.b], fun x => x.eaX o, [o.d], none⟩ .ls = true) → ((s.after c [o.a, o.b] [o.d]).loadWords c .ls (((s.after c [o.a, o.b] [o.d]).at c).eaX o).toNat 1).2.1 = false → ∃ t, exec (.ldwx c o) s = .next t ∧ (t.at c).pc = wordAt (s.at c).pc 1 ∧ (∀ i, i < 1 → ([o.d].getD i 0) ≠ 0 → (t.at c).reg ([o.d].getD i 0) = ((s.after c [o.a, o.b] [o.d]).loadWords c .ls (((s.after c [o.a, o.b] [o.d]).at c).eaX o).toNat 1).1.getD i 0) ∧ (∀ q : Reg, q ∉ ([o.d] : List Reg) → (t.at c).reg q = ((s.after c [o.a, o.b] [o.d]).at c).reg q)) ∧
  (∀ (c : CoreId) (o : OpA) (sp : Space) (s : State), o.x = 0 → sp ≠ .ls → s.ready c 1 = true → s.lands c [o.a, o.b] [o.d] = true → (s.loadGoes ⟨c, [o.a, o.b], fun x => x.eaX o, [o.d], none⟩ sp = true) → ((s.after c [o.a, o.b] [o.d]).at c).loads.length < 4 → ∃ t l, exec (.ldwx c o) s = .next t ∧ (t.at c).pc = wordAt (s.at c).pc 1 ∧ (t.at c).loads.getLast? = some l ∧ l.addr = (((s.after c [o.a, o.b] [o.d]).at c).eaX o) ∧ l.dests.map (·.1) = [o.d] ∧ (∀ q : Reg, (t.at c).reg q = ((s.after c [o.a, o.b] [o.d]).at c).reg q)) ∧
  (∀ (c : CoreId) (o : OpB) (sp : Space) (s : State), isEngine c = true → sp ≠ .ls → s.ready c 1 = true → s.lands c [o.base] [o.d] = true → (s.loadGoes ⟨c, [o.base], fun x => x.eaB o, [o.d], some .word⟩ sp = true) → ((s.after c [o.base] [o.d]).at c).loads.length < 4 → ∃ t l, exec (.ldb c o) s = .next t ∧ (t.at c).pc = wordAt (s.at c).pc 1 ∧ (t.at c).loads.getLast? = some l ∧ l.addr = (((s.after c [o.base] [o.d]).at c).eaB o) ∧ l.dests.map (·.1) = [o.d] ∧ (∀ q : Reg, (t.at c).reg q = ((s.after c [o.base] [o.d]).at c).reg q)) ∧
  (∀ (c : CoreId) (o : OpB) (sp : Space) (s : State), isEngine c = true → sp ≠ .ls → s.ready c 1 = true → s.lands c [o.base] [o.d] = true → (s.loadGoes ⟨c, [o.base], fun x => x.eaB o, [o.d], some .prev⟩ sp = true) → ((s.after c [o.base] [o.d]).at c).loads.length < 4 → ∃ t l, exec (.ldbp c o) s = .next t ∧ (t.at c).pc = wordAt (s.at c).pc 1 ∧ (t.at c).loads.getLast? = some l ∧ l.addr = (((s.after c [o.base] [o.d]).at c).eaB o) ∧ l.dests.map (·.1) = [o.d] ∧ (∀ q : Reg, (t.at c).reg q = ((s.after c [o.base] [o.d]).at c).reg q)) ∧
  (∀ (c : CoreId) (o : OpB) (sp : Space) (s : State), isEngine c = true → sp ≠ .ls → s.ready c 1 = true → s.lands c [o.base] [o.d] = true → (s.loadGoes ⟨c, [o.base], fun x => x.eaB o, [o.d], some .both⟩ sp = true) → ((s.after c [o.base] [o.d]).at c).loads.length < 4 → ∃ t l, exec (.redge c o) s = .next t ∧ (t.at c).pc = wordAt (s.at c).pc 1 ∧ (t.at c).loads.getLast? = some l ∧ l.addr = (((s.after c [o.base] [o.d]).at c).eaB o) ∧ l.dests.map (·.1) = [o.d] ∧ (∀ q : Reg, (t.at c).reg q = ((s.after c [o.base] [o.d]).at c).reg q)) ∧
  (∀ (c : CoreId) (o : OpB) (sp : Space) (s : State), isEngine c = true → sp ≠ .ls → s.ready c 1 = true → s.lands c [o.base] [o.d] = true → (s.loadGoes ⟨c, [o.base], fun x => x.eaB o, [o.d], some .both⟩ sp = true) → ((s.after c [o.base] [o.d]).at c).loads.length < 4 → ∃ t l, exec (.fedge c o) s = .next t ∧ (t.at c).pc = wordAt (s.at c).pc 1 ∧ (t.at c).loads.getLast? = some l ∧ l.addr = (((s.after c [o.base] [o.d]).at c).eaB o) ∧ l.dests.map (·.1) = [o.d] ∧ (∀ q : Reg, (t.at c).reg q = ((s.after c [o.base] [o.d]).at c).reg q)) ∧
  (∀ (c : CoreId) (o : OpB) (sp : Space) (s : State), isEngine c = true → sp ≠ .ls → s.ready c 1 = true → s.lands c [o.base] [o.d] = true → (s.loadGoes ⟨c, [o.base], fun x => x.eaB o, [o.d], some .both⟩ sp = true) → ((s.after c [o.base] [o.d]).at c).loads.length < 4 → ∃ t l, exec (.chgb c o) s = .next t ∧ (t.at c).pc = wordAt (s.at c).pc 1 ∧ (t.at c).loads.getLast? = some l ∧ l.addr = (((s.after c [o.base] [o.d]).at c).eaB o) ∧ l.dests.map (·.1) = [o.d] ∧ (∀ q : Reg, (t.at c).reg q = ((s.after c [o.base] [o.d]).at c).reg q)) ∧
  (∀ (c : CoreId) (o : OpB) (sp : Space) (s : State), isEngine c = true → o.bit = 0 → sp ≠ .ls → s.ready c 1 = true → s.lands c [o.base] [o.d] = true → (s.loadGoes ⟨c, [o.base], fun x => x.eaB o, [o.d], some .prev⟩ sp = true) → ((s.after c [o.base] [o.d]).at c).loads.length < 4 → ∃ t l, exec (.ldwp c o) s = .next t ∧ (t.at c).pc = wordAt (s.at c).pc 1 ∧ (t.at c).loads.getLast? = some l ∧ l.addr = (((s.after c [o.base] [o.d]).at c).eaB o) ∧ l.dests.map (·.1) = [o.d] ∧ (∀ q : Reg, (t.at c).reg q = ((s.after c [o.base] [o.d]).at c).reg q)) ∧
  (∀ (c : CoreId) (o : OpB) (sp : Space) (s : State), isEngine c = true → o.bit = 0 → sp ≠ .ls → s.ready c 1 = true → s.lands c [o.base] [o.d] = true → (s.loadGoes ⟨c, [o.base], fun x => x.eaB o, [o.d], some .both⟩ sp = true) → ((s.after c [o.base] [o.d]).at c).loads.length < 4 → ∃ t l, exec (.chgw c o) s = .next t ∧ (t.at c).pc = wordAt (s.at c).pc 1 ∧ (t.at c).loads.getLast? = some l ∧ l.addr = (((s.after c [o.base] [o.d]).at c).eaB o) ∧ l.dests.map (·.1) = [o.d] ∧ (∀ q : Reg, (t.at c).reg q = ((s.after c [o.base] [o.d]).at c).reg q))

/-- Each store writes local store at once and else is posted, unchanged, as the last of the store buffer (R154, R78, R81, R112, R160, R52). -/
def Obligations.StoresComplete : Prop :=
  (∀ (s : State) (c : CoreId) (o : OpI), s.ready c 1 = true → s.lands c [o.a, o.d] [] = true → (s.after c [o.a, o.d] []).storeSpace c (((s.after c [o.a, o.d] []).at c).eaI o) 1 = some .ls → ((s.after c [o.a, o.d] []).at c).unwatched 2 (((s.after c [o.a, o.d] []).at c).eaI o) 1 = true → exec (.stw c o) s = .next (s.went ((s.after c [o.a, o.d] []).mapCore c fun x => x.storeLs (((s.after c [o.a, o.d] []).at c).eaI o).toNat [((s.after c [o.a, o.d] []).at c).see o.d]) c (wordAt (s.at c).pc 1))) ∧
  (∀ (s : State) (c : CoreId) (o : OpI) (sp : Space), s.ready c 1 = true → s.lands c [o.a, o.d] [] = true → sp ≠ .ls → (s.after c [o.a, o.d] []).storeSpace c (((s.after c [o.a, o.d] []).at c).eaI o) 1 = some sp → ((s.after c [o.a, o.d] []).at c).unwatched 2 (((s.after c [o.a, o.d] []).at c).eaI o) 1 = true → ((s.after c [o.a, o.d] []).at c).stores.length < 4 → exec (.stw c o) s = .next (s.went (posted (s.after c [o.a, o.d] []) c (((s.after c [o.a, o.d] []).at c).eaI o) [((s.after c [o.a, o.d] []).at c).see o.d] none) c (wordAt (s.at c).pc 1))) ∧
  (∀ (s : State) (c : CoreId) (o : OpI), s.ready c 1 = true → s.lands c [o.a, o.d, o.d + 1] [] = true → o.d.toNat % 2 = 0 → (s.after c [o.a, o.d, o.d + 1] []).storeSpace c (((s.after c [o.a, o.d, o.d + 1] []).at c).eaI o) 2 = some .ls → ((s.after c [o.a, o.d, o.d + 1] []).at c).unwatched 2 (((s.after c [o.a, o.d, o.d + 1] []).at c).eaI o) 2 = true → exec (.stp c o) s = .next (s.went ((s.after c [o.a, o.d, o.d + 1] []).mapCore c fun x => x.storeLs (((s.after c [o.a, o.d, o.d + 1] []).at c).eaI o).toNat [((s.after c [o.a, o.d, o.d + 1] []).at c).see o.d, ((s.after c [o.a, o.d, o.d + 1] []).at c).see (o.d + 1)]) c (wordAt (s.at c).pc 1))) ∧
  (∀ (s : State) (c : CoreId) (o : OpI) (sp : Space), s.ready c 1 = true → s.lands c [o.a, o.d, o.d + 1] [] = true → o.d.toNat % 2 = 0 → sp ≠ .ls → (s.after c [o.a, o.d, o.d + 1] []).storeSpace c (((s.after c [o.a, o.d, o.d + 1] []).at c).eaI o) 2 = some sp → ((s.after c [o.a, o.d, o.d + 1] []).at c).unwatched 2 (((s.after c [o.a, o.d, o.d + 1] []).at c).eaI o) 2 = true → ((s.after c [o.a, o.d, o.d + 1] []).at c).stores.length < 4 → exec (.stp c o) s = .next (s.went (posted (s.after c [o.a, o.d, o.d + 1] []) c (((s.after c [o.a, o.d, o.d + 1] []).at c).eaI o) [((s.after c [o.a, o.d, o.d + 1] []).at c).see o.d, ((s.after c [o.a, o.d, o.d + 1] []).at c).see (o.d + 1)] none) c (wordAt (s.at c).pc 1))) ∧
  (∀ (s : State) (c : CoreId) (o : OpA), s.ready c 1 = true → s.lands c [o.a, o.b, o.d] [] = true → o.x = 0 → (s.after c [o.a, o.b, o.d] []).storeSpace c (((s.after c [o.a, o.b, o.d] []).at c).eaX o) 1 = some .ls → ((s.after c [o.a, o.b, o.d] []).at c).unwatched 2 (((s.after c [o.a, o.b, o.d] []).at c).eaX o) 1 = true → exec (.stwx c o) s = .next (s.went ((s.after c [o.a, o.b, o.d] []).mapCore c fun x => x.storeLs (((s.after c [o.a, o.b, o.d] []).at c).eaX o).toNat [((s.after c [o.a, o.b, o.d] []).at c).see o.d]) c (wordAt (s.at c).pc 1))) ∧
  (∀ (s : State) (c : CoreId) (o : OpA) (sp : Space), s.ready c 1 = true → s.lands c [o.a, o.b, o.d] [] = true → o.x = 0 → sp ≠ .ls → (s.after c [o.a, o.b, o.d] []).storeSpace c (((s.after c [o.a, o.b, o.d] []).at c).eaX o) 1 = some sp → ((s.after c [o.a, o.b, o.d] []).at c).unwatched 2 (((s.after c [o.a, o.b, o.d] []).at c).eaX o) 1 = true → ((s.after c [o.a, o.b, o.d] []).at c).stores.length < 4 → exec (.stwx c o) s = .next (s.went (posted (s.after c [o.a, o.b, o.d] []) c (((s.after c [o.a, o.b, o.d] []).at c).eaX o) [((s.after c [o.a, o.b, o.d] []).at c).see o.d] none) c (wordAt (s.at c).pc 1))) ∧
  (∀ (s : State) (c : CoreId) (o : OpB), s.ready c 1 = true → s.lands c [o.base, o.d] [] = true → isEngine c = true → (s.after c [o.base, o.d] []).storeSpace c (((s.after c [o.base, o.d] []).at c).eaB o) 1 = some .hearth → ((s.after c [o.base, o.d] []).at c).unwatched 2 (((s.after c [o.base, o.d] []).at c).eaB o) 1 = true → ((s.after c [o.base, o.d] []).at c).stores.length < 4 → exec (.stb c o) s = .next (s.went (posted (s.after c [o.base, o.d] []) c (((s.after c [o.base, o.d] []).at c).eaB o) [((s.after c [o.base, o.d] []).at c).seeQ o.d] (some o.bit)) c (wordAt (s.at c).pc 1))) ∧
  (∀ (s : State) (c : CoreId) (o : OpB), s.ready c 1 = true → s.lands c [o.base] [] = true → isEngine c = true → o.d = 0 → (s.after c [o.base] []).storeSpace c (((s.after c [o.base] []).at c).eaB o) 1 = some .hearth → ((s.after c [o.base] []).at c).unwatched 2 (((s.after c [o.base] []).at c).eaB o) 1 = true → ((s.after c [o.base] []).at c).stores.length < 4 → exec (.setb c o) s = .next (s.went (posted (s.after c [o.base] []) c (((s.after c [o.base] []).at c).eaB o) [0x800000001] (some o.bit)) c (wordAt (s.at c).pc 1))) ∧
  (∀ (s : State) (c : CoreId) (o : OpB), s.ready c 1 = true → s.lands c [o.base] [] = true → isEngine c = true → o.d = 0 → (s.after c [o.base] []).storeSpace c (((s.after c [o.base] []).at c).eaB o) 1 = some .hearth → ((s.after c [o.base] []).at c).unwatched 2 (((s.after c [o.base] []).at c).eaB o) 1 = true → ((s.after c [o.base] []).at c).stores.length < 4 → exec (.clrb c o) s = .next (s.went (posted (s.after c [o.base] []) c (((s.after c [o.base] []).at c).eaB o) [0x800000000] (some o.bit)) c (wordAt (s.at c).pc 1)))

/-- A load or store that its region does not permit faults as a whole (R81, R82, R158). -/
def Obligations.AccessesThatAreNotAllowedFault : Prop :=
  (∀ (s : State) (c : CoreId) (o : OpI), s.ready c 1 = true → s.lands c [o.a] [o.d] = true → (s.after c [o.a] [o.d]).loadSpace c (((s.after c [o.a] [o.d]).at c).eaI o) 1 = none → exec (.ldw c o) s = .next (((s.after c [o.a] [o.d]).noteWorld c (((s.after c [o.a] [o.d]).at c).eaI o) 1).trapped c 0x04 (((s.after c [o.a] [o.d]).noteWorld c (((s.after c [o.a] [o.d]).at c).eaI o) 1).at c).pc (((s.after c [o.a] [o.d]).at c).eaI o))) ∧
  (∀ (s : State) (c : CoreId) (o : OpI), s.ready c 1 = true → s.lands c [o.a] [o.d, o.d + 1] = true → o.d.toNat % 2 = 0 → (s.after c [o.a] [o.d, o.d + 1]).loadSpace c (((s.after c [o.a] [o.d, o.d + 1]).at c).eaI o) 2 = none → exec (.ldp c o) s = .next (((s.after c [o.a] [o.d, o.d + 1]).noteWorld c (((s.after c [o.a] [o.d, o.d + 1]).at c).eaI o) 2).trapped c 0x04 (((s.after c [o.a] [o.d, o.d + 1]).noteWorld c (((s.after c [o.a] [o.d, o.d + 1]).at c).eaI o) 2).at c).pc (((s.after c [o.a] [o.d, o.d + 1]).at c).eaI o))) ∧
  (∀ (s : State) (c : CoreId) (o : OpA), s.ready c 1 = true → s.lands c [o.a, o.b] [o.d] = true → o.x = 0 → (s.after c [o.a, o.b] [o.d]).loadSpace c (((s.after c [o.a, o.b] [o.d]).at c).eaX o) 1 = none → exec (.ldwx c o) s = .next (((s.after c [o.a, o.b] [o.d]).noteWorld c (((s.after c [o.a, o.b] [o.d]).at c).eaX o) 1).trapped c 0x04 (((s.after c [o.a, o.b] [o.d]).noteWorld c (((s.after c [o.a, o.b] [o.d]).at c).eaX o) 1).at c).pc (((s.after c [o.a, o.b] [o.d]).at c).eaX o))) ∧
  (∀ (s : State) (c : CoreId) (o : OpI), s.ready c 1 = true → s.lands c [o.a, o.d] [] = true → (s.after c [o.a, o.d] []).storeSpace c (((s.after c [o.a, o.d] []).at c).eaI o) 1 = none → exec (.stw c o) s = .next (((s.after c [o.a, o.d] []).noteWorld c (((s.after c [o.a, o.d] []).at c).eaI o) 1).trapped c 0x05 (((s.after c [o.a, o.d] []).noteWorld c (((s.after c [o.a, o.d] []).at c).eaI o) 1).at c).pc (((s.after c [o.a, o.d] []).at c).eaI o))) ∧
  (∀ (s : State) (c : CoreId) (o : OpI), s.ready c 1 = true → s.lands c [o.a, o.d, o.d + 1] [] = true → o.d.toNat % 2 = 0 → (s.after c [o.a, o.d, o.d + 1] []).storeSpace c (((s.after c [o.a, o.d, o.d + 1] []).at c).eaI o) 2 = none → exec (.stp c o) s = .next (((s.after c [o.a, o.d, o.d + 1] []).noteWorld c (((s.after c [o.a, o.d, o.d + 1] []).at c).eaI o) 2).trapped c 0x05 (((s.after c [o.a, o.d, o.d + 1] []).noteWorld c (((s.after c [o.a, o.d, o.d + 1] []).at c).eaI o) 2).at c).pc (((s.after c [o.a, o.d, o.d + 1] []).at c).eaI o))) ∧
  (∀ (s : State) (c : CoreId) (o : OpA), s.ready c 1 = true → s.lands c [o.a, o.b, o.d] [] = true → o.x = 0 → (s.after c [o.a, o.b, o.d] []).storeSpace c (((s.after c [o.a, o.b, o.d] []).at c).eaX o) 1 = none → exec (.stwx c o) s = .next (((s.after c [o.a, o.b, o.d] []).noteWorld c (((s.after c [o.a, o.b, o.d] []).at c).eaX o) 1).trapped c 0x05 (((s.after c [o.a, o.b, o.d] []).noteWorld c (((s.after c [o.a, o.b, o.d] []).at c).eaX o) 1).at c).pc (((s.after c [o.a, o.b, o.d] []).at c).eaX o))) ∧
  (∀ (s : State) (c : CoreId) (o : OpB), s.ready c 1 = true → s.lands c [o.base, o.d] [] = true → isEngine c = true → (s.after c [o.base, o.d] []).storeSpace c (((s.after c [o.base, o.d] []).at c).eaB o) 1 ≠ some .hearth → exec (.stb c o) s = .next (((s.after c [o.base, o.d] []).noteWorld c (((s.after c [o.base, o.d] []).at c).eaB o) 1).trapped c 0x05 (((s.after c [o.base, o.d] []).noteWorld c (((s.after c [o.base, o.d] []).at c).eaB o) 1).at c).pc (((s.after c [o.base, o.d] []).at c).eaB o))) ∧
  (∀ (s : State) (c : CoreId) (o : OpB), s.ready c 1 = true → s.lands c [o.base] [o.d] = true → isEngine c = true → (s.after c [o.base] [o.d]).viewOk c .word (((s.after c [o.base] [o.d]).at c).eaB o) = false → exec (.ldb c o) s = .next (((s.after c [o.base] [o.d]).noteWorld c (((s.after c [o.base] [o.d]).at c).eaB o) 1).trapped c 0x04 (((s.after c [o.base] [o.d]).noteWorld c (((s.after c [o.base] [o.d]).at c).eaB o) 1).at c).pc (((s.after c [o.base] [o.d]).at c).eaB o)))

/-- Jumps, branches, calls, returns, NOP and the end of a block take the core where R85, R168 and R170 say (R168, R85, R84, R170, R54, R71). -/
def Obligations.ControlTransfersComplete : Prop :=
  (∀ (s : State) (c : CoreId) (o : OpA), s.ready c 1 = true → (o.d = 0 ∧ o.a = 0 ∧ o.b = 0 ∧ o.x = 0) → exec (.nop c o) s = .next (s.went (s.fetched c) c (wordAt (s.at c).pc 1))) ∧
  (∀ (s : State) (c : CoreId) (o : OpI), s.ready c 1 = true → s.lands c [o.a] [] = true → o.d = 0 → exec (.bz c o) s = .next (if val (((s.after c [o.a] []).at c).see o.a) = 0 then s.went (s.after c [o.a] []) c ((s.after c [o.a] []).relative c (signed 18 o.imm.toNat)) else s.went (s.after c [o.a] []) c (wordAt (s.at c).pc 1))) ∧
  (∀ (s : State) (c : CoreId) (o : OpI), s.ready c 1 = true → s.lands c [o.a] [] = true → o.d = 0 → exec (.bnz c o) s = .next (if val (((s.after c [o.a] []).at c).see o.a) ≠ 0 then s.went (s.after c [o.a] []) c ((s.after c [o.a] []).relative c (signed 18 o.imm.toNat)) else s.went (s.after c [o.a] []) c (wordAt (s.at c).pc 1))) ∧
  (∀ (s : State) (c : CoreId) (o : OpA), s.ready c 1 = true → s.lands c [o.a] [] = true → o.d = 0 → o.b = 0 → o.x = 0 → exec (.jr c o) s = .next (s.went (s.after c [o.a] []) c (((s.after c [o.a] []).at c).see o.a))) ∧
  (∀ (s : State) (c : CoreId) (o : OpJ), s.ready c 1 = true → s.lands c [31] [31] = true → ((s.after c [31] [31]).at c).bank.stkLo.toNat + 3 ≤ (((s.after c [31] [31]).at c).see 31).toNat → (((s.after c [31] [31]).at c).see 31).toNat ≤ ((s.after c [31] [31]).at c).bank.stkHi.toNat → whole ((s.after c [31] [31]).lsWritable c) (((s.after c [31] [31]).at c).see 31 + BitVec.ofInt 36 (-1)) 1 = true → ((s.after c [31] [31]).at c).unwatched 2 (((s.after c [31] [31]).at c).see 31 + BitVec.ofInt 36 (-1)) 1 = true → exec (.call c o) s = .next (s.went ((s.after c [31] [31]).mapCore c fun x => (x.setLs (((s.after c [31] [31]).at c).see 31 + BitVec.ofInt 36 (-1)).toNat (wordAt x.pc 1)).setReg 31 (((s.after c [31] [31]).at c).see 31 + BitVec.ofInt 36 (-1))) c ((s.after c [31] [31]).targetJ c o))) ∧
  (∀ (s : State) (c : CoreId) (o : OpA), s.ready c 1 = true → s.lands c [o.a, 31] [31] = true → o.d = 0 → o.b = 0 → o.x = 0 → ((s.after c [o.a, 31] [31]).at c).bank.stkLo.toNat + 3 ≤ (((s.after c [o.a, 31] [31]).at c).see 31).toNat → (((s.after c [o.a, 31] [31]).at c).see 31).toNat ≤ ((s.after c [o.a, 31] [31]).at c).bank.stkHi.toNat → whole ((s.after c [o.a, 31] [31]).lsWritable c) (((s.after c [o.a, 31] [31]).at c).see 31 + BitVec.ofInt 36 (-1)) 1 = true → ((s.after c [o.a, 31] [31]).at c).unwatched 2 (((s.after c [o.a, 31] [31]).at c).see 31 + BitVec.ofInt 36 (-1)) 1 = true → exec (.callr c o) s = .next (s.went ((s.after c [o.a, 31] [31]).mapCore c fun x => (x.setLs (((s.after c [o.a, 31] [31]).at c).see 31 + BitVec.ofInt 36 (-1)).toNat (wordAt x.pc 1)).setReg 31 (((s.after c [o.a, 31] [31]).at c).see 31 + BitVec.ofInt 36 (-1))) c (((s.after c [o.a, 31] [31]).at c).see o.a))) ∧
  (∀ (s : State) (c : CoreId) (o : OpA), s.ready c 1 = true → s.lands c [31] [31] = true → (o.d = 0 ∧ o.a = 0 ∧ o.b = 0 ∧ o.x = 0) → ((s.after c [31] [31]).at c).bank.stkLo.toNat + 2 ≤ (((s.after c [31] [31]).at c).see 31).toNat → (((s.after c [31] [31]).at c).see 31).toNat + 1 ≤ ((s.after c [31] [31]).at c).bank.stkHi.toNat → (s.after c [31] [31]).loadSpace c (((s.after c [31] [31]).at c).see 31) 1 = some .ls → (((List.range 1).any fun i => ((s.after c [31] [31]).at c).lsBad.contains ((((s.after c [31] [31]).at c).see 31).toNat + i)) = false) → ((s.after c [31] [31]).at c).unwatched 1 (((s.after c [31] [31]).at c).see 31) 1 = true → exec (.ret c o) s = .next (s.went ((s.after c [31] [31]).mapCore c fun x => x.setReg 31 (wordAt (((s.after c [31] [31]).at c).see 31) 1)) c ((s.after c [31] [31]).lsRead (coreKey c) (((s.after c [31] [31]).at c).see 31).toNat))) ∧
  (∀ (s : State) (c : CoreId) (o : OpA) (e : Fin 144), s.ready c 1 = true → c = .engine e → (s.at c).loads = [] → (o.d = 0 ∧ o.a = 0 ∧ o.b = 0 ∧ o.x = 0) → exec (.bend c o) s = .next (s.went ((s.fetched c).endBlock e.val) c (((s.fetched c).endBlock e.val).at c).pc))

/-- J goes to the address after it plus disp28, modulo 2^36 (R69). -/
def Obligations.JumpTargetsAreRelative : Prop :=
  (∀ (c : CoreId) (o : OpJ) (s : State), s.ready c 1 = true → exec (.jump c o) s = .next (s.went s c (BitVec.ofInt 36 (((s.at c).pc.toNat : Int) + 1 + o.disp.toInt)))) ∧
  (∀ (o : OpJ), -134217728 ≤ o.disp.toInt ∧ o.disp.toInt ≤ 134217727) ∧
  ((BitVec.ofInt 28 (-134217728)).toInt = -134217728 ∧ (BitVec.ofInt 28 134217727).toInt = 134217727)

/-- A push or pop outside the stack window raises its fault and moves nothing (R84, R85). -/
def Obligations.StackChecksFault : Prop :=
  (∀ (s : State) (c : CoreId) (o : OpJ), s.ready c 1 = true → s.lands c [31] [31] = true → (¬(((s.after c [31] [31]).at c).bank.stkLo.toNat + 3 ≤ (((s.after c [31] [31]).at c).see 31).toNat ∧ (((s.after c [31] [31]).at c).see 31).toNat ≤ ((s.after c [31] [31]).at c).bank.stkHi.toNat)) → exec (.call c o) s = .next ((s.after c [31] [31]).trapped c 0x06 ((s.after c [31] [31]).at c).pc (((s.after c [31] [31]).at c).see 31 + BitVec.ofInt 36 (-1)))) ∧
  (∀ (s : State) (c : CoreId) (o : OpA), s.ready c 1 = true → s.lands c [o.a, 31] [31] = true → o.d = 0 → o.b = 0 → o.x = 0 → (¬(((s.after c [o.a, 31] [31]).at c).bank.stkLo.toNat + 3 ≤ (((s.after c [o.a, 31] [31]).at c).see 31).toNat ∧ (((s.after c [o.a, 31] [31]).at c).see 31).toNat ≤ ((s.after c [o.a, 31] [31]).at c).bank.stkHi.toNat)) → exec (.callr c o) s = .next ((s.after c [o.a, 31] [31]).trapped c 0x06 ((s.after c [o.a, 31] [31]).at c).pc (((s.after c [o.a, 31] [31]).at c).see 31 + BitVec.ofInt 36 (-1)))) ∧
  (∀ (s : State) (c : CoreId) (o : OpA), s.ready c 1 = true → s.lands c [31] [31] = true → (o.d = 0 ∧ o.a = 0 ∧ o.b = 0 ∧ o.x = 0) → (¬(((s.after c [31] [31]).at c).bank.stkLo.toNat + 2 ≤ (((s.after c [31] [31]).at c).see 31).toNat ∧ (((s.after c [31] [31]).at c).see 31).toNat + 1 ≤ ((s.after c [31] [31]).at c).bank.stkHi.toNat)) → exec (.ret c o) s = .next ((s.after c [31] [31]).trapped c 0x07 ((s.after c [31] [31]).at c).pc (((s.after c [31] [31]).at c).see 31))) ∧
  (∀ (s : State) (c : CoreId) (o : OpA), s.ready c 1 = true → s.lands c [31] [31] = true → (o.d = 0 ∧ o.a = 0 ∧ o.b = 0 ∧ o.x = 0) → s.privileged c = true → (¬(((s.after c [31] [31]).at c).bank.stkLo.toNat ≤ (((s.after c [31] [31]).at c).see 31).toNat ∧ (((s.after c [31] [31]).at c).see 31).toNat + 2 ≤ ((s.after c [31] [31]).at c).bank.stkHi.toNat)) → exec (.rete c o) s = .next ((s.after c [31] [31]).trapped c 0x07 ((s.after c [31] [31]).at c).pc (((s.after c [31] [31]).at c).see 31)))

/-- SYS, SYSW, SVC, BRK, RETE, WFI, FENCE and a word of no assigned opcode have their effects (R62, R85, R92, R143, R144, R146, R61). -/
def Obligations.SystemInstructionsComplete : Prop :=
  (∀ (s : State) (c : CoreId) (w : W36), s.ready c 1 = true → opAssigned (opcodeOf w) = false → exec (.illegalOpcode c w) s = .next ((s.fetched c).take c ⟨0x01, (s.at c).pc, (s.at c).pc, (s.at c).pc, false, (s.at c).afterLoad⟩)) ∧
  (∀ (s : State) (c : CoreId) (o : OpI), s.ready c 1 = true → s.lands c [] [o.d] = true → o.a = 0 → o.imm.toNat < 0x400 → exec (.sys c o) s = .next (s.wrote (s.after c [] [o.d]) c 1 [(o.d, (s.after c [] [o.d]).sysRead c o.imm.toNat)])) ∧
  (∀ (s : State) (c : CoreId) (o : OpI), s.ready c 1 = true → s.lands c [o.a] [31] = true → o.d = 0 → o.imm.toNat < 0x400 → s.privileged c = true → ((s.at c).inSecure = true ∨ secureSys o.imm.toNat = false) → ((s.after c [o.a] [31]).sysWrite ((s.after c [o.a] [31]).at c) o.imm.toNat (((s.after c [o.a] [31]).at c).see o.a)).isSome = true → exec (.sysw c o) s = .next (s.went ((s.after c [o.a] [31]).setCore (coreKey c) (((s.after c [o.a] [31]).sysWrite ((s.after c [o.a] [31]).at c) o.imm.toNat (((s.after c [o.a] [31]).at c).see o.a)).getD ((s.after c [o.a] [31]).at c))) c (wordAt (s.at c).pc 1))) ∧
  (∀ (s : State) (c : CoreId) (o : OpI), s.ready c 1 = true → c = .tender → (o.d = 0 ∧ o.a = 0 ∧ o.imm.toNat < 0x10000) → exec (.svc c o) s = .next ((s.fetched c).trapped c 0x0C (wordAt (s.at c).pc 1) (s.at c).pc)) ∧
  (∀ (s : State) (c : CoreId) (o : OpI), s.ready c 1 = true → (o.d = 0 ∧ o.a = 0 ∧ o.imm.toNat < 0x10000) → bitOf ((s.at c).dbgReg 0x22) 0 = false → exec (.brk c o) s = .next ((s.fetched c).trapped c 0x0B (wordAt (s.at c).pc 1) (s.at c).pc)) ∧
  (∀ (s : State) (c : CoreId) (o : OpI), s.ready c 1 = true → (o.d = 0 ∧ o.a = 0 ∧ o.imm.toNat < 0x10000) → bitOf ((s.at c).dbgReg 0x22) 0 = true → s.mayHalt c = true → exec (.brk c o) s = .next (s.went (((s.fetched c).mapCore c fun x => { x with brkNum := o.imm.toNat }).haltCore (coreKey c) 5) c (wordAt (s.at c).pc 1))) ∧
  (∀ (s : State) (c : CoreId) (o : OpA), s.ready c 1 = true → s.lands c [31] [31] = true → (o.d = 0 ∧ o.a = 0 ∧ o.b = 0 ∧ o.x = 0) → s.privileged c = true → ((s.after c [31] [31]).at c).bank.stkLo.toNat ≤ (((s.after c [31] [31]).at c).see 31).toNat → (((s.after c [31] [31]).at c).see 31).toNat + 2 ≤ ((s.after c [31] [31]).at c).bank.stkHi.toNat → (s.after c [31] [31]).loadSpace c (((s.after c [31] [31]).at c).see 31) 2 = some .ls → (((List.range 2).any fun i => ((s.after c [31] [31]).at c).lsBad.contains ((((s.after c [31] [31]).at c).see 31).toNat + i)) = false) → ((s.after c [31] [31]).at c).unwatched 1 (((s.after c [31] [31]).at c).see 31) 2 = true → exec (.rete c o) s = .next (s.went ((s.after c [31] [31]).mapCore c fun x => { x.setReg 31 (wordAt (((s.after c [31] [31]).at c).see 31) 2) with psw := frameView ((s.after c [31] [31]).lsRead (coreKey c) (((s.after c [31] [31]).at c).see 31).toNat) }) c ((s.after c [31] [31]).lsRead (coreKey c) ((((s.after c [31] [31]).at c).see 31).toNat + 1)))) ∧
  (∀ (s : State) (c : CoreId) (o : OpA), s.ready c 1 = true → (o.d = 0 ∧ o.a = 0 ∧ o.b = 0 ∧ o.x = 0) → s.privileged c = true → exec (.wfi c o) s = .next (s.went ((s.fetched c).mapCore c fun x => { x with issue := .wfiWait }) c (wordAt (s.at c).pc 1))) ∧
  (∀ (s : State) (c : CoreId) (o : OpA), s.ready c 1 = true → (o.d = 0 ∧ o.a = 0 ∧ o.b = 0 ∧ o.x = 0) → (s.at c).stores = [] → exec (.fence c o) s = .next (s.went (s.fetched c) c (wordAt (s.at c).pc 1))) ∧
  (∀ (s : State) (c : CoreId) (o : OpA), s.ready c 1 = true → (o.d = 0 ∧ o.a = 0 ∧ o.b = 0 ∧ o.x = 0) → (s.at c).stores ≠ [] → exec (.fence c o) s = .next (s.went ((s.fetched c).mapCore c fun x => { x with issue := .fenceWait }) c (wordAt (s.at c).pc 1)))

/-- RETE and SYSW raise PRIV without privilege; SVC completes whatever PRIV and WORLD are (R96). -/
def Obligations.PrivilegedInstructionsTrapInUserMode : Prop :=
  (∀ (s : State) (c : CoreId) (o : OpA), s.ready c 1 = true → (o.d = 0 ∧ o.a = 0 ∧ o.b = 0 ∧ o.x = 0) → s.privileged c = false → exec (.rete c o) s = .next ((s.fetched c).trapped c 0x02 (s.at c).pc (s.at c).pc)) ∧
  (∀ (s : State) (c : CoreId) (o : OpI), s.ready c 1 = true → s.privileged c = false → exec (.sysw c o) s = .next ((s.fetched c).trapped c 0x02 (s.at c).pc (s.at c).pc)) ∧
  (∀ (s : State) (c : CoreId) (o : OpI), s.ready c 1 = true → s.lands c [o.a] [31] = true → o.d = 0 → o.imm.toNat = 0x004 → c = .tender → (s.at c).priv = true → exec (.sysw c o) s = .next (s.went ((s.after c [o.a] [31]).mapCore c fun x => (x.setPswBit 0 ((((s.after c [o.a] [31]).at c).see o.a).toNat.testBit 0)).setPswBit 2 ((((s.after c [o.a] [31]).at c).see o.a).toNat.testBit 2)) c (wordAt (s.at c).pc 1))) ∧
  (∀ (s : State) (c : CoreId) (o : OpA), s.ready c 1 = true → s.lands c [31] [31] = true → (o.d = 0 ∧ o.a = 0 ∧ o.b = 0 ∧ o.x = 0) → c = .tender → (s.at c).priv = true → ((s.after c [31] [31]).at c).reteOk (((s.after c [31] [31]).at c).see 31).toNat = true → (s.after c [31] [31]).loadSpace c (((s.after c [31] [31]).at c).see 31) 2 = some .ls → (((List.range 2).any fun i => ((s.after c [31] [31]).at c).lsBad.contains ((((s.after c [31] [31]).at c).see 31).toNat + i)) = false) → ((s.after c [31] [31]).at c).unwatched 1 (((s.after c [31] [31]).at c).see 31) 2 = true → exec (.rete c o) s = .next (s.went ((s.after c [31] [31]).mapCore c fun x => { x.setReg 31 (wordAt (((s.after c [31] [31]).at c).see 31) 2) with psw := frameView ((s.after c [31] [31]).lsRead (coreKey c) (((s.after c [31] [31]).at c).see 31).toNat) }) c ((s.after c [31] [31]).lsRead (coreKey c) ((((s.after c [31] [31]).at c).see 31).toNat + 1)))) ∧
  (∀ (s : State) (c : CoreId) (o : OpI), s.ready c 1 = true → (o.d = 0 ∧ o.a = 0 ∧ o.imm.toNat < 0x10000) → c = .tender → ((s.at c).priv = false ∨ (s.at c).priv = true) → ((s.at c).inSecure = false ∨ (s.at c).inSecure = true) → exec (.svc c o) s = .next ((s.fetched c).trapped c 0x0C (wordAt (s.at c).pc 1) (s.at c).pc))

/-- Loads return, stores complete, waits end, interrupts are taken, a core halts (R25, R73, R89, R92, R94, R143, R146, R210, R469). -/
def Obligations.CoreEventsComplete : Prop :=
  (∀ (s : State) (c : CoreId) (i : Nat) (t : State) (l : Load), s.pick (s.loadNext (coreKey c)) = (some i, t) → (t.at c).loads[i]? = some l → l.bad = false → exec (.loadComplete c false) s = .next ((t.mapCore c fun x => { x.answers .load l.addr with loads := (t.at c).loads.eraseIdx i }).mapCore c fun x => x.setRegs l.dests)) ∧
  (∀ (s : State) (c : CoreId) (i : Nat) (t : State) (l : Load), s.pick (s.loadNext (coreKey c)) = (some i, t) → (t.at c).loads[i]? = some l → l.age ≤ 5 → exec (.loadComplete c true) s = .next (((((t.spoilDram (l.covers.filterMap (t.dramOf c))).mapCore c fun x => { x.answers .load l.addr with loads := (t.at c).loads.eraseIdx i }).loadBad c { l with bad := true }).take c ⟨0x09, l.pc, l.pc, l.addr, true, l.inSlot⟩))) ∧
  (∀ (s : State) (c : CoreId) (i : Nat) (t : State) (l : Load), s.pick (s.loadNext (coreKey c)) = (some i, t) → (t.at c).loads[i]? = some l → l.bad = true → exec (.loadComplete c false) s = .next ((((t.mapCore c fun x => { x.answers .load l.addr with loads := (t.at c).loads.eraseIdx i }).loadBad c l).take c ⟨0x09, l.pc, l.pc, l.addr, true, l.inSlot⟩))) ∧
  (∀ (s : State) (c : CoreId) (t : State), (s.storeNext (coreKey c)).isEmpty = false → s.drain c = some t → exec (.storeComplete c) s = .next (t.afterStore c)) ∧
  (∀ (s : State) (c : CoreId) (t : State), (s.at c).issue = .fenceWait → s.drains c (s.at c).stores.length = some t → (t.at c).issue = .fenceWait → exec (.fenceDrained c) s = .next (t.mapCore c fun x => { x with issue := .running })) ∧
  (∀ (s : State), s.tenderClock = true → (s.at .tender).issue = .wfiWait → (s.irqFor (s.at .tender).inSecure ≠ 0 ∨ s.fireguard.nmi = true) → exec (.wfiWake) s = .next (s.mapCore .tender fun x => { x with issue := .running })) ∧
  (∀ (s : State) (source : Fin 64) (w : Bool), s.sourceWorld source.val = some w → s.atBoundary = true → (s.at .tender).pswBit 2 = true → s.sourcePending source.val = true → ((s.at .tender).issue = .running ∨ w = (s.at .tender).inSecure) → ((s.at .tender).loads.all (fun l => !l.bad) = true) → exec (.interruptEntry source) s = .next (s.tenderTrap ⟨0x10, (s.at .tender).pc, (s.at .tender).pc, (s.at .tender).pc, false, false⟩ w)) ∧
  (∀ (s : State), s.atBoundary = true → s.fireguard.nmi = true → (s.at .tender).pswBit 3 = false → ((s.at .tender).loads.all (fun l => !l.bad) = true) → exec (.nmiEntry) s = .next ({ s with fireguard := { s.fireguard with nmi := false } }.tenderTrap ⟨0x11, (s.at .tender).pc, (s.at .tender).pc, (s.at .tender).pc, false, false⟩ true)) ∧
  (∀ (s : State), s.tenderClock = true → s.tenderUp = true → exec (.lockstepMismatch) s = .next ((s.mapCore .tender fun x => x.lockUp x.pc x.psw false false).raise Reg.tenEventLockstep)) ∧
  (∀ (s : State) (e : Fin 144), s.overBudget e = true → (s.core e.val).halted = false → (s.core e.val).issue = .running → exec (.budgetExceeded e) s = .next (s.take (.engine e) ⟨0x0A, (s.core e.val).pc, (s.core e.val).pc, (s.core e.val).pc, false, (s.core e.val).afterLoad⟩)) ∧
  (∀ (s : State) (c : CoreId), s.mainUp = true → (s.at c).haltReq = true → (s.at c).halted = false → (s.at c).between = true → s.mayHalt c = true → exec (.coreHaltTaken c) s = .next (s.haltCore (coreKey c) (s.at c).haltCause))

/-- Host reads and writes of the image, settles, scrubs, captures and granule copies have their effects (R108, R127, R132, R136, R137, R138). -/
def Obligations.HearthCommandsComplete : Prop :=
  (∀ (s : State) (off : Nat) (len : Nat), s.hostUp = true → exec (.hostImageRead off len) s = .next ((s.hostBytes off len).2.send (.hostData (s.hostBytes off len).1))) ∧
  (∀ (s : State) (off : Nat) (data : List Byte), s.hostUp = true → exec (.hostImageWrite off data) s = .next (s.hostWrite off data)) ∧
  (∀ (s : State) (k : Fin 3), s.fldBit Reg.hrtStatusSettling k.val = true → exec (.settleEnd k) s = .next ((((s.settle k.val).setFldBit Reg.hrtStatusSettling k.val false).setFld (Reg.hrtClFlipSettled k.val) 1).onCls k.val (fun rt => { rt with settled := true }) |>.checkFinish k.val)) ∧
  (∀ (s : State) (found : Ecc), s.mainUp = true → s.bit Reg.hrtControlScrub = true → exec (.scrubRead found) s = .next (s.scrub found)) ∧
  (∀ (s : State) (r : Requester) (v : W32), s.mayWrite r 0x014 = true → bitOf v.toNat 0 = true → s.bit Reg.hrtStatusCaptureBusy = false → exec (.hrtRetainCapture r v) s = .next (s.startCapture)) ∧
  (∀ (s : State), s.bit Reg.hrtStatusCaptureBusy = true → s.endCapture.mantel.pf ≠ 1 → s.endCapture.raking = none → s.endCapture.edit.captureDue = false → exec (.retainCaptureEnd) s = .next ({ s.endCapture with edit := { s.endCapture.edit with captureDue := false } })) ∧
  (∀ (s : State) (granule : Nat), (s.role = 6 ∨ s.role = 7) → granule < 294912 → exec (.granuleCopyRequest granule) s = .next (((granuleWords granule 1).foldl (fun t w => ((t.viewRead w false 5).2.viewRead w true 5).2) s).sendGranule granule))

/-- Each phase of a class's cycle ends where its command says and the next begins (R184, R193, R194, R339). -/
def Obligations.CycleCommandsComplete : Prop :=
  (∀ (s : State) (k : Fin 3) (n : Nat × Nat), s.cycles = true → s.arriving k.val = some n → exec (.classBoundary k) s = .next ((s.flips [0, 1, 2] k.val n.2).1.foldl (fun u j => u.openIntake j n.2) (s.flips [0, 1, 2] k.val n.2).2)) ∧
  (∀ (s : State) (n : Nat × Nat), s.cycles = true → s.arriving 0 = some n → (s.meetBoundary 0 n.1 n.2).1 = true → (s.meetBoundary 0 n.1 n.2).2.due 1 0 n.2 = none → (s.meetBoundary 0 n.1 n.2).2.due 2 0 n.2 = none → exec (.classBoundary 0) s = .next ((s.meetBoundary 0 n.1 n.2).2.openIntake 0 n.2)) ∧
  (∀ (s : State) (n : Nat × Nat), s.cycles = true → s.arriving 0 = some n → (s.meetBoundary 0 n.1 n.2).1 = false → (s.meetBoundary 0 n.1 n.2).2.due 1 0 n.2 = none → (s.meetBoundary 0 n.1 n.2).2.due 2 0 n.2 = none → exec (.classBoundary 0) s = .next ((s.meetBoundary 0 n.1 n.2).2)) ∧
  (∀ (s : State) (k : Fin 3), s.cycles = false → exec (.classBoundary k) s = .next (s.standbyBoundary k.val)) ∧
  (∀ (s : State) (k : Nat) (n : Nat) (b : Nat), s.meetBoundary k n b = (if ((((((s.noteBoundary k n b).takeover k).hobBoundaryCancel k).latchClass k b).ageClass k b).cls k).finished = true then (true, ((((((s.noteBoundary k n b).takeover k).hobBoundaryCancel k).latchClass k b).ageClass k b).launchOutputs k b).flipCycle k n b) else (false, (((((s.noteBoundary k n b).takeover k).hobBoundaryCancel k).latchClass k b).ageClass k b).overrun k n))) ∧
  (∀ (s : State) (k : Fin 3), s.fld (Reg.blwClStatusPhase k.val) = 1 → exec (.intakeComplete k) s = .next (s.openSolve k.val)) ∧
  (∀ (s : State) (k : Fin 3) (t : TierRt), s.fld (Reg.blwClStatusPhase k.val) = 2 → (s.cls k.val).openTier = none → (s.cls k.val).nextTier = some t → exec (.tierOpen k) s = .next (s.openTier k.val t)) ∧
  (∀ (s : State) (k : Fin 3) (l : Fin 128) (t : Nat), ((s.cls k.val).inflight.find? (fun x => decide (x.2 = l.val)) = some (t, l.val)) → exec (.tierToken k l) s = .next ((s.tokenArrives k.val t l.val).returnToken k.val t l.val)) ∧
  (∀ (s : State) (k : Fin 3), s.fld (Reg.blwClStatusPhase k.val) = 2 → (s.cls k.val).tiersClosed = true → exec (.solveEnd k) s = .next (s.endSolve k.val)) ∧
  (∀ (s : State) (k : Fin 3), s.fld (Reg.blwClStatusPhase k.val) = 3 → exec (.outlayEnd k) s = .next (s.endOutlay k)) ∧
  (∀ (s : State) (k : Fin 3), s.fld (Reg.blwClStatusPhase k.val) = 4 → exec (.mirrorHandover k) s = .next (s.handOver k.val))

/-- Period, phase, lock, resume and block commands act once the page may be written (R177, R178, R180, R208, R211, R220). -/
def Obligations.BellowsRegisterCommandsComplete : Prop :=
  (∀ (s : State) (r : Requester) (k : Fin 3) (v : W32), s.mayWrite r (0x010 + k.val) = true → bitOf v.toNat 3 = true → (s.cls k.val).stalledNow = true → exec (.stallResume r k v) s = .next (s.blwControl k.val v.toNat)) ∧
  (∀ (s : State) (r : Requester) (k : Fin 3) (v : W32), s.mayWrite r (0x010 + k.val) = true → exec (.blwLockWrite r k v) s = .next (s.blwControl k.val v.toNat)) ∧
  (∀ (s : State) (r : Requester) (k : Fin 3) (v : W32), s.mayWrite r (0x010 + k.val) = true → s.mode = modeHeld → periodGood k.val (bitsOf v.toNat 0 26) = true → s.fld (Reg.blwClPhaseOffsetPhaseOffset k.val) < bitsOf v.toNat 0 26 → exec (.blwPeriodWrite r k v) s = .next ((s.setFld (Reg.blwClPeriodPeriod k.val) (bitsOf v.toNat 0 26)).onCls k.val fun rt => { rt with jump := true })) ∧
  (∀ (s : State) (r : Requester) (k : Fin 3) (v : W32), s.mayWrite r (0x010 + k.val) = true → bitsOf v.toNat 0 26 < s.periodUs k.val → exec (.blwPhaseOffsetWrite r k v) s = .next (s.setFld (Reg.blwClPhaseOffsetPhaseOffset k.val) (bitsOf v.toNat 0 26))) ∧
  (∀ (s : State) (r : Requester) (block : BitVec 20) (d : Desc), s.mayWrite r 0x013 = true → s.desc block.toNat = some d → exec (.blockEnable r block) s = .next (s.enableBlock d)) ∧
  (∀ (s : State) (r : Requester) (block : BitVec 20) (d : Desc), s.mayWrite r 0x013 = true → s.desc block.toNat = some d → exec (.blockDisable r block) s = .next (s.disableBlock d)) ∧
  (∀ (s : State) (r : Requester) (block : BitVec 20) (d : Desc), s.mayWrite r 0x013 = true → s.desc block.toNat = some d → exec (.enableAllInstances r block) s = .next (s.enableInstances d))

/-- Failures and map-outs of engines, clusters, DRAM channels and ports take effect, and a link keeps its credit balance (R31, R33, R36, R37, R38, R39, R40, R41, R49, R290, R21, R48). -/
def Obligations.HardwareFailureCommandsComplete : Prop :=
  (∀ (s : State) (e : Fin 144) (credits : Fin 35), exec (.engineFailure e credits) s = .next (s.failEngine e.val credits)) ∧
  (∀ (s : State) (r : Requester) (e : Fin 144) (v : W32) (credits : Fin 35), s.mayWrite r (0x040 + e.val) = true → bitOf v.toNat 0 = true → exec (.fbxEngineMapout r e v credits) s = .next (s.failEngine e.val credits)) ∧
  (∀ (s : State) (e : Fin 144), s.engState e.val = 3 → exec (.spareLoadDone e) s = .next (s.spareLoaded e.val)) ∧
  (∀ (s : State) (r : Requester) (n : Fin 16) (v : W32), s.mayWrite r (0x020 + n.val) = true → bitOf v.toNat 0 = true → exec (.fbxClusterMapout r n v) s = .next (s.mapOutCluster n.val)) ∧
  (∀ (s : State) (n : Fin 16), exec (.clusterDomainFault n) s = .next (s.mapOutCluster n.val)) ∧
  (∀ (s : State) (r : Requester) (v : W32), s.mayWrite r 0x130 = true → bitsOf v.toNat 0 2 ≠ 0 → s.mayMapOut (bitsOf v.toNat 0 2) = true → exec (.drmMapout r v) s = .next (s.setChState (bitsOf v.toNat 0 2 - 1) 2)) ∧
  (∀ (s : State) (r : Requester) (v : W32) (ch : Fin 2), s.mayWrite r 0x130 = true → bitsOf v.toNat 2 2 = 2 ^ ch.val → s.bit Reg.drmConfigMirror = true → s.chState ch.val = 2 → exec (.drmReturn r v) s = .next (s.setChState ch.val 3)) ∧
  (∀ (s : State) (ch : Fin 2), s.chState ch.val = 3 → exec (.resilverDone ch) s = .next (s.setChState ch.val 1)) ∧
  (∀ (s : State) (ch : Fin 2), s.chState ch.val ≠ 0 → s.chState ch.val ≠ 2 → s.mode ≠ modeEmber → (s.bit Reg.drmConfigMirror = false ∨ s.chState (1 - ch.val) ≠ 1) → exec (.dramChannelFault ch) s = .next (s.requestHandover.douse)) ∧
  (∀ (s : State) (r : Requester) (x : Fin 40) (v : W32), s.mayWrite r (0x101 + x.val) = true → bitOf v.toNat 0 = true → exec (.chmPortMapout r x v) s = .next ((s.chmMapOut x.val).checkService)) ∧
  (∀ (s : State) (r : Requester) (p : Fin 192) (v : W32), s.mayWrite r (0x201 + p.val) = true → bitOf v.toNat 0 = true → exec (.hobPortMapout r p v) s = .next ((s.hobMapOut p.val).checkService)) ∧
  (∀ (s : State) (q : Fin 12), s.hobUp = true → s.fldBit Reg.hobStatusSeqUp q.val = true → exec (.hobSequencerFault q) s = .next ((s.hobSequencerStops q.val).checkService)) ∧
  (∀ (s : State) (l : Ledger), exec (.ledgerBreak l) s = .next (s.breakLedger l)) ∧
  (Link.reset.balanced = true ∧ State.reset.flueBalanced = true) ∧
  (∀ (s : State) (q : Packet), s.flueBalanced = true → (s.flueIssue q).flueBalanced = true) ∧
  (∀ (l : Link) (p : Packet), l.balanced = true → (l.request p).balanced = true) ∧
  (∀ (l : Link) (k : PacketKind) (a : W36) (n : Nat), l.balanced = true → (l.answered k a n).balanced = true ∧ (l.forget k).balanced = true) ∧
  (∀ (l : Link) (m : Link) (p : Packet), p.header.channel = .vc0 → l.launch p = some m → p.size ≤ l.own .vc0 ∧ m.own .vc0 + p.size = l.own .vc0 ∧ m.shared = l.shared)

/-- The edit commands take their edit from state to state (R231, R232, R234, R236, R238, R241, R242, R245). -/
def Obligations.EditCommandsComplete : Prop :=
  (∀ (s : State) (r : Requester), s.mayWrite r 0x015 = true → (s.editState = 0 ∨ s.editState = 6) → exec (.beginLoad r) s = .next (Sys2Proof.Machine.State.beginLoad s)) ∧
  (∀ (s : State) (r : Requester), s.mayWrite r 0x015 = true → s.editState = 1 → exec (.verify r) s = .next (s.setEdit 2)) ∧
  (∀ (s : State) (mantelOk : Bool), s.editState = 2 → exec (.verifyDone mantelOk) s = .next (match s.verifyPackage s.stagedWords with | some f => s.refusePackage f | none => if mantelOk = true then s.stageProgram s.stagedWords else s.refusePackage ⟨0x12, 0xFF, 0⟩)) ∧
  (∀ (s : State) (r : Requester), s.mayWrite r 0x015 = true → (s.editState = 1 ∨ s.editState = 3 ∨ s.editState = 6) → exec (.editDiscard r) s = .next (({ s.dropAsk with bellows := { s.dropAsk.bellows with shadow := none } }.setEdit 0).setFld Reg.edtStagedVersionVersion 0)) ∧
  (∀ (s : State) (r : Requester) (p : Program), s.mayWrite r 0x015 = true → s.bellows.shadow = some p → s.editState = 3 → s.role ≥ 5 → p.full = false → s.edit.partnerWait = false → s.actClass ≠ 3 → s.tooNear = false → exec (.arm r) s = .next (s.armOrAsk p.digest)) ∧
  (∀ (s : State) (r : Requester) (p : Program), s.mayWrite r 0x015 = true → s.bellows.rollback = some p → s.editState = 0 → s.role ≥ 5 → s.edit.partnerWait = false → s.actClass ≠ 3 → s.bit Reg.edtStatusRollbackAvail = true → s.rollbackAgrees = true → s.tooNear = false → exec (.rollbackArm r) s = .next (s.armOrAsk p.digest)) ∧
  (∀ (s : State) (r : Requester) (p : Program), s.mayWrite r 0x015 = true → s.bellows.shadow = some p → s.editState = 3 → s.mode = modeHeld → exec (.activateNow r) s = .next (if p.full = true then s.dropAsk.activateFull p else s.dropAsk.switchAll)) ∧
  (∀ (s : State) (r : Requester), s.mayWrite r 0x015 = true → s.editState = 4 → exec (.disarm r) s = .next (if s.role = 6 ∨ s.role = 7 then s.disarm.erairSend (.message 4 []) else s.disarm)) ∧
  (∀ (s : State) (digest : List W32) (k : Fin 3) (cycle : Nat), (s.role = 3 ∨ s.role = 4) → s.armMatches digest = true → exec (.armMessage digest k cycle) s = .next ((s.armSwitch k.val cycle).erairSend (.message 3 []))) ∧
  (∀ (s : State) (w : List W32 × Nat × Nat), s.erair.armWait = some w → s.edit.partnerWait = true → exec (.armAcknowledge) s = .next (s.armSwitch w.2.1 w.2.2)) ∧
  (∀ (s : State), s.edit.partnerWait = true → exec (.armAckTimeout) s = .next (({ s with edit := { s.edit with partnerWait := false }, erair := { s.erair with armWait := none } }.editRefuse 0x13).erairSend (.message 4 []))) ∧
  (∀ (s : State), (s.role = 3 ∨ s.role = 4) → s.editState = 4 → exec (.disarmMessage) s = .next (s.disarm))

/-- Sessions open, renew and close, and the frames of bound stations have their effects (R251, R253, R261, R262, R263, R268, R273, R274). -/
def Obligations.DraughtCommandsComplete : Prop :=
  (∀ (s : State) (i : Nat) (h : Handshake), s.chmOn = true → s.chmPortUp h.dg.port.val = true → s.vlanTakes h.dg.port.val h.dg.vlan = true → h.dg.size ≤ s.mtu h.dg.port.val → s.hasRole h.dg.port.val .stations = true → h.dg.udpPort.toNat = s.fld Reg.chmUdpPortPort → (((s.countWrap (Reg.chmXRxFramesRxFrames h.dg.port.val)).noteHandshake i h).rateExceeded = false ∨ h.cookieValid = true) → ((s.countWrap (Reg.chmXRxFramesRxFrames h.dg.port.val)).noteHandshake i h).takesHandshake h = true → exec (.dtlsHandshake i h) s = .next ((((((s.countWrap (Reg.chmXRxFramesRxFrames h.dg.port.val)).noteHandshake i h).closeSessionAt i).setSession i (((s.countWrap (Reg.chmXRxFramesRxFrames h.dg.port.val)).noteHandshake i h).newSession h)).sendDtls i h.dg.port.val (if h.finished = true then 3 else 2)).refreshSessions)) ∧
  (∀ (s : State) (i : Nat) (h : Handshake), s.chmOn = true → s.chmPortUp h.dg.port.val = true → s.vlanTakes h.dg.port.val h.dg.vlan = true → h.dg.size ≤ s.mtu h.dg.port.val → s.hasRole h.dg.port.val .stations = true → h.dg.udpPort.toNat = s.fld Reg.chmUdpPortPort → (((s.countWrap (Reg.chmXRxFramesRxFrames h.dg.port.val)).noteHandshake i h).rateExceeded = false ∨ h.cookieValid = true) → ((s.countWrap (Reg.chmXRxFramesRxFrames h.dg.port.val)).noteHandshake i h).takesHandshake h = false → exec (.dtlsHandshake i h) s = .next (((((((s.countWrap (Reg.chmXRxFramesRxFrames h.dg.port.val)).noteHandshake i h).unbind i).setSession i Session.none).sendDtls i h.dg.port.val 4).chmRaise 0 0 Reg.chmEventHandshakeFail).refreshSessions)) ∧
  (∀ (s : State) (i : Nat) (h : Handshake), s.chmOn = true → s.chmPortUp h.dg.port.val = true → s.vlanTakes h.dg.port.val h.dg.vlan = true → h.dg.size ≤ s.mtu h.dg.port.val → s.hasRole h.dg.port.val .stations = true → h.dg.udpPort.toNat = s.fld Reg.chmUdpPortPort → ((s.countWrap (Reg.chmXRxFramesRxFrames h.dg.port.val)).noteHandshake i h).rateExceeded = true → h.cookieValid = false → exec (.dtlsHandshake i h) s = .next (((s.countWrap (Reg.chmXRxFramesRxFrames h.dg.port.val)).noteHandshake i h).sendDtls i h.dg.port.val 1)) ∧
  (∀ (s : State) (i : Nat), 2 ≤ (s.session i).phase → (s.session i).keyDue s.bellows.ns = true → exec (.dtlsKeyUpdate i) s = .next ((s.setSession i { s.session i with rx := 0, tx := 0, top := 0, window := [], keyedNs := s.bellows.ns }).sendDtls i (s.session i).port 5)) ∧
  (∀ (s : State) (i : Nat) (dg : Datagram) (seq : Nat) (authentic : Bool) (frame : List Byte), s.chmOn = true → s.chmPortUp dg.port.val = true → s.vlanTakes dg.port.val dg.vlan = true → dg.size ≤ s.mtu dg.port.val → s.hasRole dg.port.val .stations = true → dg.udpPort.toNat = s.fld Reg.chmUdpPortPort → authentic = true → 2 ≤ (s.session i).phase → (s.session i).fresh seq = true → exec (.dtlsRecord i dg.port dg.head seq authentic frame) s = .next (((s.countWrap (Reg.chmXRxFramesRxFrames dg.port.val)).setSession i ((s.session i).accept dg seq s.bellows.ns)).passFrame i frame)) ∧
  (∀ (s : State) (i : Nat), (s.session i).heardNs + s.fld Reg.chmSessionIdleSeconds * 1000000000 ≤ s.bellows.ns → exec (.sessionIdleTimeout i) s = .next ((s.closeSessionAt i).refreshSessions)) ∧
  (∀ (s : State) (i : Nat) (stamp : Nat) (f : List Byte) (x : Session) (d : StationDecl), (s.session i).takeFrame 1 = some ((stamp, f), x) → s.draughtDecl (field f 2 3) = some d → ((s.setSession i x).stationEpoch 4 (field f 2 3) (field f 12 4)).bindResult x (some d) f = 0 → exec (.draughtBind i) s = .next (((((s.setSession i x).stationEpoch 4 (field f 2 3) (field f 12 4)).bindSession i (field f 2 3)).answerBind i (field f 2 3) 0 (some d)).sendHold d)) ∧
  (∀ (s : State) (i : Nat) (stamp : Nat) (f : List Byte) (x : Session), (s.session i).takeFrame 1 = some ((stamp, f), x) → ((s.setSession i x).stationEpoch 4 (field f 2 3) (field f 12 4)).bindResult x (s.draughtDecl (field f 2 3)) f ≠ 0 → exec (.draughtBind i) s = .next ((((s.setSession i x).stationEpoch 4 (field f 2 3) (field f 12 4)).answerBind i (field f 2 3) (((s.setSession i x).stationEpoch 4 (field f 2 3) (field f 12 4)).bindResult x (s.draughtDecl (field f 2 3)) f) (s.draughtDecl (field f 2 3))).chmRaise (field f 2 3) 1 Reg.chmEventBindRefused)) ∧
  (∀ (s : State) (i : Nat) (d : StationDecl) (stamp : Nat) (f : List Byte) (x : Session), (s.session i).takeFrame 2 = some ((stamp, f), x) → x.station.bind s.draughtDecl = some d → exec (.draughtIntake i) s = .next (((s.setSession i x).stationEpoch 4 d.num (field f 12 4)).intakeFrame d stamp f)) ∧
  (∀ (s : State) (i : Nat) (d : StationDecl) (stamp : Nat) (f : List Byte) (x : Session), (s.session i).takeFrame 4 = some ((stamp, f), x) → x.station.bind s.draughtDecl = some d → exec (.draughtAck i) s = .next (if field f 28 1 = 3 then ((s.setSession i x).stationEpoch 4 d.num (field f 12 4)).onStation d.num fun r => { r with outAck := field f 24 4 } else ((s.setSession i x).stationEpoch 4 d.num (field f 12 4)))) ∧
  (∀ (s : State) (i : Nat) (d : StationDecl) (stamp : Nat) (f : List Byte) (x : Session), (s.session i).takeFrame 6 = some ((stamp, f), x) → x.station.bind s.draughtDecl = some d → eventFrameGood d f = true → ((s.setSession i x).queueEvents d.num 0 (draughtEvents f)).1 = true → exec (.draughtEvent i) s = .next (((s.setSession i x).queueEvents d.num 0 (draughtEvents f)).2.sendAck d 6 (field f 8 4))) ∧
  (∀ (s : State) (n : Nat) (d : StationDecl), s.decl n = some d → s.drives = true → s.cannotSolve = false → d.outMode = true → (s.station n).outValid = true → s.reached d = true → d.kind = 1 → exec (.outlayRepeat n) s = .next (s.sendOutlayFrames d (s.station n).outSeq (s.station n).out)) ∧
  (∀ (s : State) (n : Nat) (d : StationDecl), s.decl n = some d → s.drives = true → s.cannotSolve = false → d.outMode = true → (s.station n).outValid = true → s.reached d = true → d.kind = 4 → exec (.outlayRepeat n) s = .next (s.sendBusFrames d (s.hobImageFrames d (s.station n).outSeq (s.station n).out) false)) ∧
  (∀ (s : State) (n : Nat) (d : StationDecl), s.decl n = some d → exec (.holdRepeat n) s = .next (s.sendHold d))

/-- The station page selects a station and commands it (R271, R288). -/
def Obligations.StationPageCommandsComplete : Prop :=
  (∀ (s : State) (r : Requester) (n : BitVec 17), s.mayWrite r 0x140 = true → exec (.stnSelect r n) s = .next (s.stationView n.toNat)) ∧
  (∀ (s : State) (r : Requester) (n : BitVec 17) (d : StationDecl), s.mayWrite r 0x140 = true → s.decl (n.toNat) = some d → ((s.station d.num).state = 0 ∨ (s.station d.num).state = 1) → exec (.stationDisable r n) s = .next ((s.onStation d.num fun t => { t with state := 3, aged := false, due := max t.due 2 }).refreshDropped)) ∧
  (∀ (s : State) (r : Requester) (n : BitVec 17) (d : StationDecl), s.mayWrite r 0x140 = true → s.decl (n.toNat) = some d → (s.station d.num).state = 2 → exec (.stationDisable r n) s = .next ((s.onStation d.num fun t => { t with state := 3, aged := false, due := max t.due 1 }).refreshDropped)) ∧
  (∀ (s : State) (r : Requester) (n : BitVec 17) (d : StationDecl), s.mayWrite r 0x140 = true → s.decl (n.toNat) = some d → (s.station d.num).state = 3 → exec (.stationEnable r n) s = .next (((s.onStation d.num fun t => { t with state := 0, aged := false, due := max t.due 1 }).refreshDropped).onStation d.num fun u => { u with waitFrom := none })) ∧
  (∀ (s : State) (r : Requester) (n : BitVec 17) (d : StationDecl), s.mayWrite r 0x140 = true → s.decl (n.toNat) = some d → exec (.clearCounters r n) s = .next (s.onStation d.num fun u => { u with drops := 0, restores := 0, stale := 0, dup := 0, bad := 0, layoutN := 0, abandoned := 0, overtaken := 0, rate := 0 })) ∧
  (∀ (s : State) (r : Requester) (n : BitVec 17) (d : StationDecl), s.mayWrite r 0x140 = true → s.decl (n.toNat) = some d → d.kind = 2 → s.drives = true → (s.station d.num).legacy = 4 → exec (.interrogateNow r n) s = .next (s.legacySendI d.num 8 0 20)) ∧
  (∀ (s : State) (r : Requester) (n : BitVec 17) (d : StationDecl) (i : Nat), s.mayWrite r 0x140 = true → s.decl (n.toNat) = some d → d.kind = 1 → (s.station d.num).session = some i → exec (.closeSession r n) s = .next ((s.closeSessionAt i).refreshSessions)) ∧
  (∀ (s : State) (r : Requester) (n : BitVec 17) (d : StationDecl), s.mayWrite r 0x140 = true → s.decl (n.toNat) = some d → d.kind = 1 → (s.station d.num).session = none → exec (.closeSession r n) s = .next (((s.unboundSessions d).foldl State.closeSessionAt s).refreshSessions)) ∧
  (∀ (s : State) (r : Requester) (n : BitVec 17) (d : StationDecl), s.mayWrite r 0x140 = true → s.decl (n.toNat) = some d → d.kind = 2 → (s.station d.num).legacy ≠ 0 → exec (.closeSession r n) s = .next ((s.legacySend d.num 2 0 0).legacyLost d))

/-- Ports answer address requests, follow their links, count discards and time PTP messages (R249, R250, R287). -/
def Obligations.EthernetPortCommandsComplete : Prop :=
  (∀ (s : State) (x : Fin 40) (vlan : Option (BitVec 12)) (addr : BitVec 128) (v6 : Bool), s.chmPortUp x.val = true → s.vlanTakes x.val vlan = true → s.compUp 2 = true → s.ownAddress x.val addr.toNat v6 = true → exec (.arpRequest x vlan ⟨addr, v6⟩) s = .next ((s.countWrap (Reg.chmXRxFramesRxFrames x.val)).sendEth x.val (.arp x.val addr.toNat))) ∧
  (∀ (s : State) (x : Fin 40) (vlan : Option (BitVec 12)) (addr : BitVec 128) (v6 : Bool), s.chmPortUp x.val = true → s.vlanTakes x.val vlan = false → exec (.arpRequest x vlan ⟨addr, v6⟩) s = .next ((s.countWrap (Reg.chmXRxFramesRxFrames x.val)).rxDrop x.val)) ∧
  (∀ (s : State) (x : Fin 40) (up : Bool) (speed : BitVec 2), s.chmPortUp x.val = true → s.bit (Reg.chmXStatusLink x.val) ≠ up → (up = true → modeSpeed (s.fld (Reg.chmXControlMode x.val)) speed.toNat = true) → exec (.ethLinkChange x up speed) s = .next ((s.setFields [(Reg.chmXStatusLink x.val, bit01 up), (Reg.chmXStatusSpeed x.val, if up = true then speed.toNat else 0)]).chmXRaise x.val 0 (Reg.chmXEventLinkChange x.val))) ∧
  (∀ (s : State) (x : Fin 40), s.chmPortUp x.val = true → exec (.ethFrameDiscard x .badFcs) s = .next (((s.countWrap (Reg.chmXRxFramesRxFrames x.val)).rxDrop x.val).chmXRaise x.val 1 (Reg.chmXEventRxFcs x.val))) ∧
  (∀ (s : State) (x : Fin 40), s.chmPortUp x.val = true → exec (.ethFrameDiscard x .overflow) s = .next (((s.countWrap (Reg.chmXRxFramesRxFrames x.val)).rxDrop x.val).chmXRaise x.val 2 (Reg.chmXEventRxOverflow x.val))) ∧
  (∀ (s : State) (x : Fin 40), s.chmPortUp x.val = true → exec (.ethFrameDiscard x .fragment) s = .next ((s.countWrap (Reg.chmXRxFramesRxFrames x.val)).rxDrop x.val)) ∧
  (∀ (s : State) (x : Fin 40) (tag : Option (BitVec 12)), s.chmPortUp x.val = true → s.vlanTakes x.val tag = false → exec (.ethFrameDiscard x (.vlan tag)) s = .next ((s.countWrap (Reg.chmXRxFramesRxFrames x.val)).rxDrop x.val)) ∧
  (∀ (s : State) (x : Fin 40) (size : Nat), s.chmPortUp x.val = true → s.mtu x.val < size → exec (.ethFrameDiscard x (.tooLong size)) s = .next ((s.countWrap (Reg.chmXRxFramesRxFrames x.val)).rxDrop x.val)) ∧
  (∀ (s : State) (x : Fin 40) (role : EthRole), s.chmPortUp x.val = true → s.hasRole x.val role = false → exec (.ethFrameDiscard x (.wrongRole role)) s = .next ((s.countWrap (Reg.chmXRxFramesRxFrames x.val)).rxDrop x.val))

/-- Legacy connections open, fail, carry APDUs and are interrogated (R278, R280, R282, R283, R284). -/
def Obligations.LegacyCommandsComplete : Prop :=
  (∀ (s : State) (n : Nat) (d : StationDecl), s.legacyDecl n = some d → s.chmOn = true → s.chmCoreUp n = true → (s.station n).legacy = 0 → (s.station n).retryS = 0 → s.role ≠ 0 → exec (.legacyConnect n) s = .next ((s.legacyOpenTcp d))) ∧
  (∀ (s : State) (n : Nat) (d : StationDecl), s.legacyDecl n = some d → s.chmOn = true → s.chmCoreUp n = true → (s.station n).legacy = 0 → (s.station n).retryS ≠ 0 → s.role ≠ 0 → exec (.legacyRetry n) s = .next ((s.legacyOpenTcp d))) ∧
  (∀ (s : State) (n : Nat) (v : Bool) (sup : Bool) (auth : Bool) (spki : List Byte) (d : StationDecl), s.legacyDecl n = some d → (s.station n).legacy = 1 → s.legacyUp n = true → sup = true → auth = true → identityOf spki = d.idHash → exec (.legacyTlsHandshake n v ⟨sup, auth, spki⟩) s = .next (if ((s.onStation n fun t => { t with legacy := 3, tls13 := v, retryS := 0, port := t.via }).refreshSessions).drives = true then ((s.onStation n fun t => { t with legacy := 3, tls13 := v, retryS := 0, port := t.via }).refreshSessions).legacyStart n else (s.onStation n fun t => { t with legacy := 3, tls13 := v, retryS := 0, port := t.via }).refreshSessions)) ∧
  (∀ (s : State) (n : Nat) (v : Bool) (sup : Bool) (auth : Bool) (spki : List Byte) (d : StationDecl), s.legacyDecl n = some d → (s.station n).legacy = 1 → s.legacyUp n = true → (sup = false ∨ auth = false ∨ identityOf spki ≠ d.idHash) → exec (.legacyTlsHandshake n v ⟨sup, auth, spki⟩) s = .next ((s.legacyClose d).chmRaise n 0 Reg.chmEventHandshakeFail)) ∧
  (∀ (s : State) (d : StationDecl) (x : Fin 40), s.openPort = some x.val → s.legacyOpenTcp d = (s.onStation d.num fun t => { t.freshLink with legacy := 1, via := x.val }).sendEth x.val (.tcpOpen d.num (s.route x.val ⟨BitVec.ofNat 128 d.addr, BitVec.ofNat 16 d.tcpPort⟩))) ∧
  (∀ (s : State) (n : Nat) (d : StationDecl), s.legacyDecl n = some d → (s.station n).legacy ≠ 0 → exec (.legacyConnectionLost n) s = .next ((s.onStation d.num fun t => { t.freshLink with legacy := 0, retryS := nextRetry d.t1 t.retryS }).refreshSessions)) ∧
  (∀ (s : State) (n : Nat) (d : StationDecl), s.legacyDecl n = some d → (s.station n).legacy = 1 → exec (.legacyT0Timeout n) s = .next ((s.legacySend d.num 2 0 0).legacyLost d)) ∧
  (∀ (s : State) (n : Nat) (d : StationDecl), s.legacyDecl n = some d → (s.station n).connected = true → (s.station n).tls13 = true → exec (.legacyKeyRenewal n) s = .next (s.legacySend n 12 0 0)) ∧
  (∀ (s : State) (n : Nat) (d : StationDecl), s.legacyDecl n = some d → (s.station n).connected = true → (s.station n).tls13 = false → exec (.legacyKeyRenewal n) s = .next ((((s.legacySend n 2 0 0).onStation n fun t => { t.freshLink with legacy := 0 }).legacyOpenTcp d).refreshSessions)) ∧
  (∀ (s : State) (n : Nat) (d : StationDecl) (octets : Nat) (sendSeq : Nat) (recvSeq : Nat) (typeId : Nat) (cause : Nat) (ca : Nat) (objects : List InfoObject), s.legacyDecl n = some d → (s.station n).connected = true → s.legacyUp n = true → sendSeq = (((s.countWrap (Reg.chmXRxFramesRxFrames (s.station n).via)).legacyHeard n).station d.num).recvSeq → exec (.legacyApdu n (.iFormat octets sendSeq recvSeq typeId cause ca objects)) s = .next ((((((s.countWrap (Reg.chmXRxFramesRxFrames (s.station n).via)).legacyHeard n).legacyAcked d.num recvSeq).onStation d.num fun t => { t with recvSeq := (t.recvSeq + 1) % 2 ^ 15, unsent := t.unsent + 1 }).takeAsdu d octets typeId cause ca objects).legacyAckDue d)) ∧
  (∀ (s : State) (n : Nat) (d : StationDecl) (recvSeq : Nat), s.legacyDecl n = some d → (s.station n).connected = true → s.legacyUp n = true → exec (.legacyApdu n (.sFormat recvSeq)) s = .next (((s.countWrap (Reg.chmXRxFramesRxFrames (s.station n).via)).legacyHeard n).legacyAcked d.num recvSeq)) ∧
  (∀ (s : State) (n : Nat) (d : StationDecl), s.legacyDecl n = some d → (s.station n).connected = true → s.legacyUp n = true → exec (.legacyApdu n .startdtCon) s = .next (((s.countWrap (Reg.chmXRxFramesRxFrames (s.station n).via)).legacyHeard n).legacyStarted d)) ∧
  (∀ (s : State) (n : Nat) (d : StationDecl), s.legacyDecl n = some d → (s.station n).connected = true → s.legacyUp n = true → exec (.legacyApdu n .stopdtCon) s = .next (((s.countWrap (Reg.chmXRxFramesRxFrames (s.station n).via)).legacyHeard n).onStation d.num fun t => { t with legacy := 3, uOut := if t.uOut = 2 then 0 else t.uOut })) ∧
  (∀ (s : State) (n : Nat) (d : StationDecl), s.legacyDecl n = some d → (s.station n).connected = true → s.legacyUp n = true → exec (.legacyApdu n .testfrAct) s = .next (((s.countWrap (Reg.chmXRxFramesRxFrames (s.station n).via)).legacyHeard n).legacySend d.num 6 0 0)) ∧
  (∀ (s : State) (n : Nat) (d : StationDecl), s.legacyDecl n = some d → (s.station n).connected = true → s.legacyUp n = true → exec (.legacyApdu n .testfrCon) s = .next (((s.countWrap (Reg.chmXRxFramesRxFrames (s.station n).via)).legacyHeard n).onStation d.num fun t => { t with testOut := false })) ∧
  (∀ (s : State) (n : Nat) (ioa : Nat) (positive : Bool) (d : StationDecl) (c : Nat × W32), s.legacyDecl n = some d → ((s.station n).pendingCmds.find? (fun c => decide (c.1 = ioa)) = some c) → positive = true → exec (.legacyActcon n ioa positive) s = .next ((s.legacyHeard n).onStation n fun u => { u with pendingCmds := (s.station n).pendingCmds.filter (fun c => decide (c.1 ≠ ioa)), confirmed := Sparse.insert (Sparse.erase u.confirmed ioa) ioa c.2 })) ∧
  (∀ (s : State) (n : Nat) (d : StationDecl), s.legacyDecl n = some d → (s.station n).interrogating = true → exec (.legacyActterm n) s = .next ((s.legacyHeard n).onStation n fun t => { t with interrogating := false, confirmed := if d.resend = true then [] else s.outputValues d })) ∧
  (∀ (s : State) (n : Nat) (d : StationDecl), s.legacyDecl n = some d → (s.station n).connected = true → exec (.legacyTestFrame n) s = .next ((s.onStation n fun t => { t with testOut := true }).legacySend n 5 0 0)) ∧
  (∀ (s : State) (n : Nat) (d : StationDecl), s.legacyDecl n = some d → (s.station n).connected = true → ((s.station n).testOut = true ∨ (s.station n).unacked ≠ 0 ∨ (s.station n).uOut ≠ 0) → exec (.legacyT1Timeout n) s = .next ((s.legacySend d.num 2 0 0).legacyLost d)) ∧
  (∀ (s : State) (n : Nat) (d : StationDecl), s.legacyDecl n = some d → (s.station n).connected = true → (s.station n).unsent ≠ 0 → exec (.legacyT2Timeout n) s = .next ((s.onStation n fun t => { t with unsent := 0 }).legacySend n 7 0 0)) ∧
  (∀ (s : State) (n : Nat) (d : StationDecl), s.legacyDecl n = some d → d.giS ≠ 0 → s.drives = true → (s.station n).legacy = 4 → exec (.legacyInterrogationTimer n) s = .next (s.legacySendI n 8 0 20)) ∧
  (∀ (s : State) (n : Nat) (d : StationDecl), s.legacyDecl n = some d → d.csMin ≠ 0 → s.drives = true → (s.station n).legacy = 4 → exec (.legacyClockSyncTimer n) s = .next (s.legacySendI n 9 0 (s.now - s.fld Reg.tspUtcOffsetSeconds * 1000000000))) ∧
  (∀ (s : State) (n : Nat) (ioa : Nat), exec (.legacyNegHoldoffEnd n ioa) s = .next (s.onStation n fun t => { t with negHold := t.negHold.filter fun i => decide (i ≠ ioa) }))

/-- A received bus frame has the effect of its kind on a port that receives (R296, R311, R312, R314, R317, R319, R320). -/
def Obligations.HobReceptionCompletes : Prop :=
  (∀ (s : State) (p : Fin 192) (f : CanFrame) (d : StationDecl), canDir f = 1 → canKind f = 0 → canCls f ≤ 2 → s.hobReceives p.val = true → f.late = false → (((s.countWrap (Reg.hobPRxFramesRxFrames p.val)).hobRxGood p.val).hobPort p.val).rx = [] → ((s.countWrap (Reg.hobPRxFramesRxFrames p.val)).hobRxGood p.val).fldBit Reg.hobStatusSeqUp (p.val / 16) = true → ((((s.countWrap (Reg.hobPRxFramesRxFrames p.val)).hobRxGood p.val).hobFifo p.val f).setHobPort p.val { (((s.countWrap (Reg.hobPRxFramesRxFrames p.val)).hobRxGood p.val).hobFifo p.val f).hobPort p.val with rx := [] }).hobDefined p.val f = true → (((((s.countWrap (Reg.hobPRxFramesRxFrames p.val)).hobRxGood p.val).hobFifo p.val f).setHobPort p.val { (((s.countWrap (Reg.hobPRxFramesRxFrames p.val)).hobRxGood p.val).hobFifo p.val f).hobPort p.val with rx := [] }).hobEpoch p.val f).hobEff p.val ≠ 4 → (((((s.countWrap (Reg.hobPRxFramesRxFrames p.val)).hobRxGood p.val).hobFifo p.val f).setHobPort p.val { (((s.countWrap (Reg.hobPRxFramesRxFrames p.val)).hobRxGood p.val).hobFifo p.val f).hobPort p.val with rx := [] }).hobEpoch p.val f).bit Reg.hobControlEnable = true → (((((s.countWrap (Reg.hobPRxFramesRxFrames p.val)).hobRxGood p.val).hobFifo p.val f).setHobPort p.val { (((s.countWrap (Reg.hobPRxFramesRxFrames p.val)).hobRxGood p.val).hobFifo p.val f).hobPort p.val with rx := [] }).hobEpoch p.val f).hobDecl p.val f = some d → f.payload.length = 64 → field f.payload 62 2 = d.layoutHash % 2 ^ 16 → field f.payload 6 1 / 16 = max 1 ((d.inCount + 11) / 12) → field f.payload 6 1 % 16 < field f.payload 6 1 / 16 → exec (.hobImageFrame p f) s = .next ((((((((s.countWrap (Reg.hobPRxFramesRxFrames p.val)).hobRxGood p.val).hobFifo p.val f).setHobPort p.val { (((s.countWrap (Reg.hobPRxFramesRxFrames p.val)).hobRxGood p.val).hobFifo p.val f).hobPort p.val with rx := [] }).hobEpoch p.val f).hobHeard d.num ((s.countWrap (Reg.hobPRxFramesRxFrames p.val)).hobRxGood p.val).now).assemble d ((s.countWrap (Reg.hobPRxFramesRxFrames p.val)).hobRxGood p.val).now ⟨field f.payload 4 2, field f.payload 6 1 % 16, field f.payload 6 1 / 16, unpackWords (f.payload.drop 8) (Nat.min 12 (d.inCount - 12 * (field f.payload 6 1 % 16))), (field f.payload 7 1).testBit 1⟩).hobPump p.val)) ∧
  (∀ (s : State) (p : Fin 192) (f : CanFrame), canDir f = 1 → canKind f = 0 → canCls f ≤ 2 → s.hobReceives p.val = true → f.late = true → exec (.hobImageFrame p f) s = .next (((s.countWrap (Reg.hobPRxFramesRxFrames p.val)).hobRxGood p.val).hobFifo p.val f)) ∧
  (∀ (s : State) (p : Fin 192) (f : CanFrame) (d : StationDecl), canDir f = 1 → canKind f = 1 → canCls f ≤ 2 → s.hobReceives p.val = true → f.late = false → (((s.countWrap (Reg.hobPRxFramesRxFrames p.val)).hobRxGood p.val).hobPort p.val).rx = [] → ((s.countWrap (Reg.hobPRxFramesRxFrames p.val)).hobRxGood p.val).fldBit Reg.hobStatusSeqUp (p.val / 16) = true → ((((s.countWrap (Reg.hobPRxFramesRxFrames p.val)).hobRxGood p.val).hobFifo p.val f).setHobPort p.val { (((s.countWrap (Reg.hobPRxFramesRxFrames p.val)).hobRxGood p.val).hobFifo p.val f).hobPort p.val with rx := [] }).hobDefined p.val f = true → (((((s.countWrap (Reg.hobPRxFramesRxFrames p.val)).hobRxGood p.val).hobFifo p.val f).setHobPort p.val { (((s.countWrap (Reg.hobPRxFramesRxFrames p.val)).hobRxGood p.val).hobFifo p.val f).hobPort p.val with rx := [] }).hobEpoch p.val f).hobEff p.val ≠ 4 → (((((s.countWrap (Reg.hobPRxFramesRxFrames p.val)).hobRxGood p.val).hobFifo p.val f).setHobPort p.val { (((s.countWrap (Reg.hobPRxFramesRxFrames p.val)).hobRxGood p.val).hobFifo p.val f).hobPort p.val with rx := [] }).hobEpoch p.val f).bit Reg.hobControlEnable = true → (((((s.countWrap (Reg.hobPRxFramesRxFrames p.val)).hobRxGood p.val).hobFifo p.val f).setHobPort p.val { (((s.countWrap (Reg.hobPRxFramesRxFrames p.val)).hobRxGood p.val).hobFifo p.val f).hobPort p.val with rx := [] }).hobEpoch p.val f).hobDecl p.val f = some d → f.payload.length = 64 → field f.payload 10 1 = 0 → exec (.hobAckFrame p f) s = .next ((((((((s.countWrap (Reg.hobPRxFramesRxFrames p.val)).hobRxGood p.val).hobFifo p.val f).setHobPort p.val { (((s.countWrap (Reg.hobPRxFramesRxFrames p.val)).hobRxGood p.val).hobFifo p.val f).hobPort p.val with rx := [] }).hobEpoch p.val f).hobHeard d.num ((s.countWrap (Reg.hobPRxFramesRxFrames p.val)).hobRxGood p.val).now).onStation d.num fun t => { t with outAck := field f.payload 8 2 }).hobPump p.val)) ∧
  (∀ (s : State) (p : Fin 192) (f : CanFrame) (d : StationDecl), canDir f = 1 → canKind f = 2 → canCls f ≤ 2 → s.hobReceives p.val = true → f.late = false → (((s.countWrap (Reg.hobPRxFramesRxFrames p.val)).hobRxGood p.val).hobPort p.val).rx = [] → ((s.countWrap (Reg.hobPRxFramesRxFrames p.val)).hobRxGood p.val).fldBit Reg.hobStatusSeqUp (p.val / 16) = true → ((((s.countWrap (Reg.hobPRxFramesRxFrames p.val)).hobRxGood p.val).hobFifo p.val f).setHobPort p.val { (((s.countWrap (Reg.hobPRxFramesRxFrames p.val)).hobRxGood p.val).hobFifo p.val f).hobPort p.val with rx := [] }).hobDefined p.val f = true → (((((s.countWrap (Reg.hobPRxFramesRxFrames p.val)).hobRxGood p.val).hobFifo p.val f).setHobPort p.val { (((s.countWrap (Reg.hobPRxFramesRxFrames p.val)).hobRxGood p.val).hobFifo p.val f).hobPort p.val with rx := [] }).hobEpoch p.val f).hobEff p.val ≠ 4 → (((((s.countWrap (Reg.hobPRxFramesRxFrames p.val)).hobRxGood p.val).hobFifo p.val f).setHobPort p.val { (((s.countWrap (Reg.hobPRxFramesRxFrames p.val)).hobRxGood p.val).hobFifo p.val f).hobPort p.val with rx := [] }).hobEpoch p.val f).bit Reg.hobControlEnable = true → (((((s.countWrap (Reg.hobPRxFramesRxFrames p.val)).hobRxGood p.val).hobFifo p.val f).setHobPort p.val { (((s.countWrap (Reg.hobPRxFramesRxFrames p.val)).hobRxGood p.val).hobFifo p.val f).hobPort p.val with rx := [] }).hobEpoch p.val f).hobDecl p.val f = some d → f.payload.length = 64 → d.events = true → ((hobEvents f.payload).any (fun r => decide (d.inCount ≤ r.1)) = false) → (((((((s.countWrap (Reg.hobPRxFramesRxFrames p.val)).hobRxGood p.val).hobFifo p.val f).setHobPort p.val { (((s.countWrap (Reg.hobPRxFramesRxFrames p.val)).hobRxGood p.val).hobFifo p.val f).hobPort p.val with rx := [] }).hobEpoch p.val f).hobHeard d.num ((s.countWrap (Reg.hobPRxFramesRxFrames p.val)).hobRxGood p.val).now).queueEvents d.num 2 (hobEvents f.payload)).1 = true → exec (.hobEventFrame p f) s = .next (((((((((s.countWrap (Reg.hobPRxFramesRxFrames p.val)).hobRxGood p.val).hobFifo p.val f).setHobPort p.val { (((s.countWrap (Reg.hobPRxFramesRxFrames p.val)).hobRxGood p.val).hobFifo p.val f).hobPort p.val with rx := [] }).hobEpoch p.val f).hobHeard d.num ((s.countWrap (Reg.hobPRxFramesRxFrames p.val)).hobRxGood p.val).now).queueEvents d.num 2 (hobEvents f.payload)).2.hobQueue d.hobPort [(((((((s.countWrap (Reg.hobPRxFramesRxFrames p.val)).hobRxGood p.val).hobFifo p.val f).setHobPort p.val { (((s.countWrap (Reg.hobPRxFramesRxFrames p.val)).hobRxGood p.val).hobFifo p.val f).hobPort p.val with rx := [] }).hobEpoch p.val f).hobHeard d.num ((s.countWrap (Reg.hobPRxFramesRxFrames p.val)).hobRxGood p.val).now).queueEvents d.num 2 (hobEvents f.payload)).2.hobAckFrame d (field f.payload 4 2) 2]).hobPump p.val)) ∧
  (∀ (s : State) (p : Fin 192) (why : Foreign), s.hobReceives p.val = true → ((s.countWrap (Reg.hobPRxFramesRxFrames p.val)).hobRxGood p.val).hobEff p.val ≠ 4 → exec (.hobForeignFrame p why) s = .next ((((s.countWrap (Reg.hobPRxFramesRxFrames p.val)).hobRxGood p.val).hobForeign p.val).hobPump p.val)) ∧
  (∀ (s : State) (p : Fin 192) (f : CanFrame), canDir f = 0 → s.hobReceives p.val = true → f.late = false → (((s.countWrap (Reg.hobPRxFramesRxFrames p.val)).hobRxGood p.val).hobPort p.val).rx = [] → ((s.countWrap (Reg.hobPRxFramesRxFrames p.val)).hobRxGood p.val).fldBit Reg.hobStatusSeqUp (p.val / 16) = true → ((((s.countWrap (Reg.hobPRxFramesRxFrames p.val)).hobRxGood p.val).hobFifo p.val f).setHobPort p.val { (((s.countWrap (Reg.hobPRxFramesRxFrames p.val)).hobRxGood p.val).hobFifo p.val f).hobPort p.val with rx := [] }).hobDefined p.val f = true → (((((s.countWrap (Reg.hobPRxFramesRxFrames p.val)).hobRxGood p.val).hobFifo p.val f).setHobPort p.val { (((s.countWrap (Reg.hobPRxFramesRxFrames p.val)).hobRxGood p.val).hobFifo p.val f).hobPort p.val with rx := [] }).hobEpoch p.val f).hobEff p.val ≠ 4 → (((((s.countWrap (Reg.hobPRxFramesRxFrames p.val)).hobRxGood p.val).hobFifo p.val f).setHobPort p.val { (((s.countWrap (Reg.hobPRxFramesRxFrames p.val)).hobRxGood p.val).hobFifo p.val f).hobPort p.val with rx := [] }).hobEpoch p.val f).bit Reg.hobControlEnable = true → exec (.hobPeerFrame p f) s = .next (((((((s.countWrap (Reg.hobPRxFramesRxFrames p.val)).hobRxGood p.val).hobFifo p.val f).setHobPort p.val { (((s.countWrap (Reg.hobPRxFramesRxFrames p.val)).hobRxGood p.val).hobFifo p.val f).hobPort p.val with rx := [] }).hobEpoch p.val f).hobFollow p.val f).hobPump p.val)) ∧
  (∀ (s : State) (p : Fin 192) (f : CanFrame), canDir f = 1 → canCls f = 3 → canKind f = 0 → field f.payload 4 1 = 0x14 → s.hobReceives p.val = true → f.late = false → (((s.countWrap (Reg.hobPRxFramesRxFrames p.val)).hobRxGood p.val).hobPort p.val).rx = [] → ((s.countWrap (Reg.hobPRxFramesRxFrames p.val)).hobRxGood p.val).fldBit Reg.hobStatusSeqUp (p.val / 16) = true → ((((s.countWrap (Reg.hobPRxFramesRxFrames p.val)).hobRxGood p.val).hobFifo p.val f).setHobPort p.val { (((s.countWrap (Reg.hobPRxFramesRxFrames p.val)).hobRxGood p.val).hobFifo p.val f).hobPort p.val with rx := [] }).hobDefined p.val f = true → (((((s.countWrap (Reg.hobPRxFramesRxFrames p.val)).hobRxGood p.val).hobFifo p.val f).setHobPort p.val { (((s.countWrap (Reg.hobPRxFramesRxFrames p.val)).hobRxGood p.val).hobFifo p.val f).hobPort p.val with rx := [] }).hobEpoch p.val f).hobEff p.val = 4 → exec (.hobStationWakeFrame p f) s = .next (((((((s.countWrap (Reg.hobPRxFramesRxFrames p.val)).hobRxGood p.val).hobFifo p.val f).setHobPort p.val { (((s.countWrap (Reg.hobPRxFramesRxFrames p.val)).hobRxGood p.val).hobFifo p.val f).hobPort p.val with rx := [] }).hobEpoch p.val f).hobCancelSleep p.val).hobPump p.val)) ∧
  (∀ (s : State) (p : Fin 192) (f : CanFrame), canDir f = 1 → canCls f = 3 → (field f.payload 4 1 = 0x11 ∨ field f.payload 4 1 = 0x12) → s.hobReceives p.val = true → f.late = false → (((s.countWrap (Reg.hobPRxFramesRxFrames p.val)).hobRxGood p.val).hobPort p.val).rx = [] → ((s.countWrap (Reg.hobPRxFramesRxFrames p.val)).hobRxGood p.val).fldBit Reg.hobStatusSeqUp (p.val / 16) = true → ((((s.countWrap (Reg.hobPRxFramesRxFrames p.val)).hobRxGood p.val).hobFifo p.val f).setHobPort p.val { (((s.countWrap (Reg.hobPRxFramesRxFrames p.val)).hobRxGood p.val).hobFifo p.val f).hobPort p.val with rx := [] }).hobDefined p.val f = true → (((((s.countWrap (Reg.hobPRxFramesRxFrames p.val)).hobRxGood p.val).hobFifo p.val f).setHobPort p.val { (((s.countWrap (Reg.hobPRxFramesRxFrames p.val)).hobRxGood p.val).hobFifo p.val f).hobPort p.val with rx := [] }).hobEpoch p.val f).hobEff p.val ≠ 4 → (((((s.countWrap (Reg.hobPRxFramesRxFrames p.val)).hobRxGood p.val).hobFifo p.val f).setHobPort p.val { (((s.countWrap (Reg.hobPRxFramesRxFrames p.val)).hobRxGood p.val).hobFifo p.val f).hobPort p.val with rx := [] }).hobEpoch p.val f).bit Reg.hobControlEnable = true → exec (.hobSleepVote p f) s = .next (((((((s.countWrap (Reg.hobPRxFramesRxFrames p.val)).hobRxGood p.val).hobFifo p.val f).setHobPort p.val { (((s.countWrap (Reg.hobPRxFramesRxFrames p.val)).hobRxGood p.val).hobFifo p.val f).hobPort p.val with rx := [] }).hobEpoch p.val f).hobStationControl p.val ((s.countWrap (Reg.hobPRxFramesRxFrames p.val)).hobRxGood p.val).now f).hobPump p.val))

/-- Transmission, cancels, references and error confinement of a port take effect (R297, R298, R300, R301, R304, R306). -/
def Obligations.HobTransmissionCompletes : Prop :=
  (∀ (s : State) (p : Fin 192) (b : Nat), (s.hobPort p.val).onBus = some b → exec (.hobFrameSent p) s = .next ((((if ((s.hobPort p.val).buf b).cancel ≠ 0 then (((s.setHobPort p.val ((s.hobPort p.val).setBuf b TxBuf.free)).countWrap (Reg.hobPTxFramesTxFrames p.val)).hobTxGood p.val).hobResult p.val b 1 ((s.hobPort p.val).buf b).cancel else (((s.setHobPort p.val ((s.hobPort p.val).setBuf b TxBuf.free)).countWrap (Reg.hobPTxFramesTxFrames p.val)).hobTxGood p.val)).send (.can p.val ((s.hobPort p.val).buf b).frame.ident ((if ((s.hobPort p.val).buf b).cancel ≠ 0 then (((s.setHobPort p.val ((s.hobPort p.val).setBuf b TxBuf.free)).countWrap (Reg.hobPTxFramesTxFrames p.val)).hobTxGood p.val).hobResult p.val b 1 ((s.hobPort p.val).buf b).cancel else (((s.setHobPort p.val ((s.hobPort p.val).setBuf b TxBuf.free)).countWrap (Reg.hobPTxFramesTxFrames p.val)).hobTxGood p.val)).hobBrs p.val) ((s.hobPort p.val).buf b).frame.payload)).hobControlSent p.val ((s.hobPort p.val).buf b).frame).hobPump p.val)) ∧
  (∀ (s : State) (p : Fin 192) (b : Nat), (s.hobPort p.val).onBus = some b → exec (.hobTxFailed p .arbitrationLost) s = .next (s.hobAttemptEnds p.val b false false)) ∧
  (∀ (s : State) (p : Fin 192) (b : Nat), (s.hobPort p.val).onBus = some b → exec (.hobTxFailed p .bitErrorAfterArbitration) s = .next ((((s.hobAttemptEnds p.val b true true).count (Reg.hobPCountersCollisions p.val)).hobPRaise p.val 8 (Reg.hobPEventCollision p.val)).hobTxError p.val)) ∧
  (∀ (s : State) (p : Fin 192) (b : Nat), (s.hobPort p.val).onBus = some b → exec (.hobTxFailed p .otherError) s = .next ((s.hobAttemptEnds p.val b true false).hobTxError p.val)) ∧
  (∀ (s : State) (p : Fin 192) (b : Fin 32), ((s.hobPort p.val).buf b.val).backoff = true → exec (.hobBackoffEnd p b) s = .next ((s.setHobPort p.val ((s.hobPort p.val).setBuf b.val { (s.hobPort p.val).buf b.val with backoff := false })).hobPump p.val)) ∧
  (∀ (s : State) (r : Requester) (p : Fin 192) (v : W32), s.mayWrite r (0x201 + p.val) = true → bitOf v.toNat 5 = true → ((s.hobPort p.val).buf (v.toNat % 32)).state = 2 → exec (.hobTxCancel r p v) s = .next (((s.setHobPort p.val ((s.hobPort p.val).setBuf (v.toNat % 32) { (s.hobPort p.val).buf (v.toNat % 32) with cancel := 1 })).hobResult p.val (v.toNat % 32) 0 1).hobPump p.val)) ∧
  (∀ (s : State) (r : Requester) (p : Fin 192) (v : W32), s.mayWrite r (0x201 + p.val) = true → bitOf v.toNat 5 = true → ((s.hobPort p.val).buf (v.toNat % 32)).state = 1 → exec (.hobTxCancel r p v) s = .next (((s.setHobPort p.val ((s.hobPort p.val).setBuf (v.toNat % 32) TxBuf.free)).hobResult p.val (v.toNat % 32) 2 1).hobPump p.val)) ∧
  (∀ (s : State) (p : Fin 192), s.hobTimeMaster p.val = true → exec (.hobRefGuard p) s = .next (s.setHobPort p.val { s.hobPort p.val with guard := true })) ∧
  (∀ (s : State) (p : Fin 192) (cycle : Nat) (time : Nat), s.hobTimeMaster p.val = true → s.hobSetTime p.val = some (cycle, time) → ((s.hobPort p.val).buf 0).state ≠ 1 → exec (.hobReferenceLaunch p) s = .next ((s.setHobPort p.val { s.hobPort p.val with launchAt := some time }).hobReference p.val time ((s.setHobPort p.val { s.hobPort p.val with launchAt := some time }).hobReferenceFrame cycle time))) ∧
  (∀ (s : State) (p : Fin 192), ((s.hobPort p.val).buf 0).state = 1 → exec (.hobReferenceLost p) s = .next ((s.hobLoseReference p.val).hobPump p.val)) ∧
  (∀ (s : State) (p : Fin 192), s.hobReceives p.val = true → exec (.hobBusOff p) s = .next ((s.setFld (Reg.hobPErrCountTec p.val) 255).hobEnterBusOff p.val)) ∧
  (∀ (s : State) (p : Fin 192), s.fld (Reg.hobPStatusErrState p.val) = 2 → s.bit (Reg.hobPControlAutoRecover p.val) = true → s.hobUp = true → exec (.hobBusOffRecovery p) s = .next ((s.hobRecover p.val).hobPump p.val)) ∧
  (∀ (s : State) (p : Fin 192) (inc : Nat), s.hobReceives p.val = true → ((s.setFld (Reg.hobPErrCountRec p.val) (Nat.min 255 (s.fld (Reg.hobPErrCountRec p.val) + inc))).hobErrState p.val).hobEff p.val ≠ 4 → exec (.hobBusError p inc) s = .next ((s.setFld (Reg.hobPErrCountRec p.val) (Nat.min 255 (s.fld (Reg.hobPErrCountRec p.val) + inc))).hobErrState p.val))

/-- Modes, votes, the quiet window, wakes and restarts of a port take effect (R293, R295, R319, R322). -/
def Obligations.HobModesAndSleepComplete : Prop :=
  (∀ (s : State) (r : Requester) (p : Fin 192) (v : W32), s.mayWrite r (0x201 + p.val) = true → exec (.hobModeWrite r p v) s = .next (s.hobWriteControl p.val v.toNat)) ∧
  (∀ (s : State) (p : Fin 192) (m : Nat), (s.hobPort p.val).modeReq = some m → (s.hobPort p.val).onBus = none → s.hobRestarting p.val = false → exec (.hobModeChange p) s = .next ((s.hobEnter p.val m).hobFirstHolds s p.val)) ∧
  (∀ (s : State) (r : Requester) (p : Fin 192), s.mayWrite r (0x201 + p.val) = true → s.drives = true → s.hobEff p.val = 1 → s.bit (Reg.hobPControlSleepOk p.val) = true → exec (.hobSleepRequest r p) s = .next ((((s.setHobPort p.val { s.hobPort p.val with votes := [], asking := true, confirming := false, aborting := false }).setFld (Reg.hobPSleepRequest p.val) 1).setHobEff p.val 3).hobControl p.val 1)) ∧
  (∀ (s : State) (p : Fin 192), (s.hobPort p.val).asking = true → s.hobEff p.val = 3 → s.hobAllYes p.val = true → exec (.hobVoteEnd p) s = .next ((s.setHobPort p.val { s.hobPort p.val with asking := false, confirming := true }).hobControl p.val 2)) ∧
  (∀ (s : State) (p : Fin 192), (s.hobPort p.val).asking = true → s.hobEff p.val = 3 → s.hobAllYes p.val = false → exec (.hobVoteEnd p) s = .next ((((s.setHobPort p.val { s.hobPort p.val with asking := false, aborting := true }).setHobEff p.val 1).hobPRaise p.val 5 (Reg.hobPEventSleepCancelled p.val)).hobControl p.val 3)) ∧
  (∀ (s : State) (p : Fin 192), s.hobEff p.val = 4 → exec (.hobQuietWindowEnd p) s = .next ((s.hobEnter p.val 5).hobPRaise p.val 4 (Reg.hobPEventSlept p.val))) ∧
  (∀ (s : State) (r : Requester) (p : Fin 192), s.mayWrite r (0x201 + p.val) = true → s.hobEff p.val = 5 → exec (.hobSleepWake r p) s = .next ((s.setHobPort p.val { s.hobPort p.val with modeReq := some 1 }).hobGroup (p.val / 8))) ∧
  (∀ (s : State) (p : Fin 192), s.fldBit Reg.hobGroupStandbyStandby (p.val / 8) = false → s.hobEff p.val = 5 → exec (.hobBusWake p) s = .next ((s.setHobPort p.val { s.hobPort p.val with modeReq := some 1 }).hobGroup (p.val / 8))) ∧
  (∀ (s : State) (p : Fin 192), s.hobRestarting p.val = true → exec (.hobPortRestarted p) s = .next (if ((((s.hobEnter p.val (s.hobTarget p.val)).hobPRaise p.val 6 (Reg.hobPEventWoke p.val)).hobStations p.val).foldl (fun t d => t.onStation d.num fun u => { u with outNew := none, ageFrom := u.ageFrom.map fun _ => s.now }) ((s.hobEnter p.val (s.hobTarget p.val)).hobPRaise p.val 6 (Reg.hobPEventWoke p.val))).hobListens = true then (((s.hobEnter p.val (s.hobTarget p.val)).hobPRaise p.val 6 (Reg.hobPEventWoke p.val)).hobStations p.val).foldl (fun t d => t.onStation d.num fun u => { u with outNew := none, ageFrom := u.ageFrom.map fun _ => s.now }) ((s.hobEnter p.val (s.hobTarget p.val)).hobPRaise p.val 6 (Reg.hobPEventWoke p.val)) else ((((s.hobEnter p.val (s.hobTarget p.val)).hobPRaise p.val 6 (Reg.hobPEventWoke p.val)).hobStations p.val).foldl (fun t d => t.onStation d.num fun u => { u with outNew := none, ageFrom := u.ageFrom.map fun _ => s.now }) ((s.hobEnter p.val (s.hobTarget p.val)).hobPRaise p.val 6 (Reg.hobPEventWoke p.val))).hobControl p.val 4)) ∧
  (∀ (s : State) (g : Fin 24), s.mode = 4 → exec (.hobGroupWake g) s = .next ({ s with pins := { s.pins with hbWake := withBit s.pins.hbWake g.val true } }.wake 3 (s.bit Reg.pwrBankHobWake))) ∧
  (∀ (s : State) (g : Fin 24), s.mode ≠ 4 → s.kindling ≠ .resume → s.hobUp = true → s.fldBit Reg.hobGroupStandbyStandby g.val = true → exec (.hobGroupWake g) s = .next ((List.range 8).foldl (fun t i => t.hobStartRestart (8 * g.val + i)) (({ s with pins := { s.pins with hbWake := withBit s.pins.hbWake g.val true } }.setFldBit Reg.hobGroupWakeWake g.val true).hobRaise (8 * g.val) 2 Reg.hobEventGroupWake)))

/-- The pair's heartbeats, link, lanes and records have their effects (R329, R330, R331, R332, R336, R337, R341). -/
def Obligations.ErairLinkCommandsComplete : Prop :=
  (∀ (s : State), s.role ≠ 0 → s.bit Reg.fgdStatusExpired = false → exec (.heartbeatTimer) s = .next (s.sendHeartbeat false)) ∧
  (∀ (s : State) (payload : List W36), s.erairOn = true → ((((s.noteHeartbeat (heartbeatOf payload)).noteClash (heartbeatOf payload)).heartbeatEpochs (heartbeatOf payload)).heartbeatRole s.erair.partner (heartbeatOf payload)).bit Reg.eraControlAutoSync = false → exec (.erairHeartbeat payload) s = .next (((((s.noteHeartbeat (heartbeatOf payload)).noteClash (heartbeatOf payload)).heartbeatEpochs (heartbeatOf payload)).heartbeatRole s.erair.partner (heartbeatOf payload)).tellRollback)) ∧
  (∀ (s : State) (payload : List W36), s.erairOn = true → ((((s.noteHeartbeat (heartbeatOf payload)).noteClash (heartbeatOf payload)).heartbeatEpochs (heartbeatOf payload)).heartbeatRole s.erair.partner (heartbeatOf payload)).bit Reg.eraControlAutoSync = true → exec (.erairHeartbeat payload) s = .next ((((((s.noteHeartbeat (heartbeatOf payload)).noteClash (heartbeatOf payload)).heartbeatEpochs (heartbeatOf payload)).heartbeatRole s.erair.partner (heartbeatOf payload)).tellVersions).tellRollback)) ∧
  (∀ (s : State), s.erair.up = true → ((((({ s with erair := { s.erair with up := false, cells := [] } } : State).setFields [(Reg.eraStatusPartner, 0), (Reg.eraStatusTimeOk, 0)]).count Reg.eraCountersLinkLosses).raise Reg.eraEventLinkLost).record 0x016 0x02 true [(((({ s with erair := { s.erair with up := false, cells := [] } } : State).setFields [(Reg.eraStatusPartner, 0), (Reg.eraStatusTimeOk, 0)]).count Reg.eraCountersLinkLosses).raise Reg.eraEventLinkLost).erair.lastHb]).role = 4 → (((((({ s with erair := { s.erair with up := false, cells := [] } } : State).setFields [(Reg.eraStatusPartner, 0), (Reg.eraStatusTimeOk, 0)]).count Reg.eraCountersLinkLosses).raise Reg.eraEventLinkLost).record 0x016 0x02 true [(((({ s with erair := { s.erair with up := false, cells := [] } } : State).setFields [(Reg.eraStatusPartner, 0), (Reg.eraStatusTimeOk, 0)]).count Reg.eraCountersLinkLosses).raise Reg.eraEventLinkLost).erair.lastHb]).lineOn = true ∨ ((((({ s with erair := { s.erair with up := false, cells := [] } } : State).setFields [(Reg.eraStatusPartner, 0), (Reg.eraStatusTimeOk, 0)]).count Reg.eraCountersLinkLosses).raise Reg.eraEventLinkLost).record 0x016 0x02 true [(((({ s with erair := { s.erair with up := false, cells := [] } } : State).setFields [(Reg.eraStatusPartner, 0), (Reg.eraStatusTimeOk, 0)]).count Reg.eraCountersLinkLosses).raise Reg.eraEventLinkLost).erair.lastHb]).witnessOn = true) → exec (.erairLoss) s = .next (((((({ s with erair := { s.erair with up := false, cells := [] } } : State).setFields [(Reg.eraStatusPartner, 0), (Reg.eraStatusTimeOk, 0)]).count Reg.eraCountersLinkLosses).raise Reg.eraEventLinkLost).record 0x016 0x02 true [(((({ s with erair := { s.erair with up := false, cells := [] } } : State).setFields [(Reg.eraStatusPartner, 0), (Reg.eraStatusTimeOk, 0)]).count Reg.eraCountersLinkLosses).raise Reg.eraEventLinkLost).erair.lastHb]).startConfirm)) ∧
  (∀ (s : State), s.erair.up = true → ((((({ s with erair := { s.erair with up := false, cells := [] } } : State).setFields [(Reg.eraStatusPartner, 0), (Reg.eraStatusTimeOk, 0)]).count Reg.eraCountersLinkLosses).raise Reg.eraEventLinkLost).record 0x016 0x02 true [(((({ s with erair := { s.erair with up := false, cells := [] } } : State).setFields [(Reg.eraStatusPartner, 0), (Reg.eraStatusTimeOk, 0)]).count Reg.eraCountersLinkLosses).raise Reg.eraEventLinkLost).erair.lastHb]).role ≠ 4 → exec (.erairLoss) s = .next (((((({ s with erair := { s.erair with up := false, cells := [] } } : State).setFields [(Reg.eraStatusPartner, 0), (Reg.eraStatusTimeOk, 0)]).count Reg.eraCountersLinkLosses).raise Reg.eraEventLinkLost).record 0x016 0x02 true [(((({ s with erair := { s.erair with up := false, cells := [] } } : State).setFields [(Reg.eraStatusPartner, 0), (Reg.eraStatusTimeOk, 0)]).count Reg.eraCountersLinkLosses).raise Reg.eraEventLinkLost).erair.lastHb]).desync 1)) ∧
  (∀ (s : State) (roundTripNs : Nat) (partnerTime : Nat), s.bit Reg.eraControlEnable = true → s.compUp 5 = true → s.domainOn 21 = true → s.hostUp = true → s.fld Reg.eraStatusLanes = 0 → exec (.erairLinkUp roundTripNs partnerTime) s = .next (((({ s with erair := { s.erair with up := true, roundTrip := roundTripNs, cells := [], told := [], versions := none } } : State).setFields ([(Reg.eraStatusLanes, 0xF)] ++ (List.range 4).map fun l => (Reg.eraLErrorsUp l, 1))).setOffset partnerTime).raise Reg.eraEventLinkUp)) ∧
  (∀ (s : State) (l : Fin 4), exec (.laneFailure l) s = .next ((s.setFldBit Reg.eraStatusLanes l.val false).setFld (Reg.eraLErrorsUp l.val) 0)) ∧
  (∀ (s : State) (lanes : BitVec 4), s.fit.chimney = true → lanes = 0xF → exec (.laneRetrainDone lanes) s = .next (s.setFields ([(Reg.eraStatusLanes, lanes.toNat)] ++ (List.range 4).map fun l => (Reg.eraLErrorsUp l, bitsOf lanes.toNat l 1)))) ∧
  (∀ (s : State) (lanes : BitVec 4), s.fit.chimney = true → (maskCount lanes.toNat = 1 ∨ maskCount lanes.toNat = 2) → exec (.laneRetrainDone lanes) s = .next ((s.setFields ([(Reg.eraStatusLanes, lanes.toNat)] ++ (List.range 4).map fun l => (Reg.eraLErrorsUp l, bitsOf lanes.toNat l 1))).raise Reg.eraEventLaneDegraded)) ∧
  (∀ (s : State) (l : Fin 4) (cell : List W36), s.fit.chimney = true → cellKept cell = false → exec (.erairCellCrcError ⟨l, cell⟩) s = .next (s.count (Reg.eraLErrorsCrcErrors l.val))) ∧
  (∀ (s : State) (words : List W36) (rec : CycleRecord), s.erairOn = true → recordIntact words = true → recordOf words = some rec → exec (.erairRecord words) s = .next (s.takeRecord rec)) ∧
  (∀ (s : State) (words : List W36), s.erairOn = true → recordIntact words = false → (s.role = 3 ∨ s.role = 4) → exec (.erairRecord words) s = .next (s.erairSend (.ack (bitsOf (words.getD 0 0).toNat 0 2) (low32 (words.getD 1 0)) 2))) ∧
  (∀ (s : State) (k : Fin 3) (cycle : W32) (applied : Bool) (o : Outstanding), s.findOutstanding k.val cycle.toNat = some o → applied = true → exec (.erairAck k cycle applied) s = .next (((({ s with erair := { s.erair with acked := Sparse.put s.erair.acked 0 o.cls (Sparse.get s.erair.acked 0 o.cls + 1) } }.setOutstanding (s.erair.outstanding.erase o)).setFld (Reg.eraClAppliedCycle k.val) cycle.toNat).releaseCycle k.val cycle.toNat).rakeCheck)) ∧
  (∀ (s : State) (k : Fin 3) (cycle : W32) (applied : Bool) (o : Outstanding), s.findOutstanding k.val cycle.toNat = some o → applied = false → exec (.erairAck k cycle applied) s = .next (s.resend o)) ∧
  (∀ (s : State) (k : Fin 3) (cycle : W32) (o : Outstanding), s.findOutstanding k.val cycle.toNat = some o → exec (.recordResendTimeout k cycle) s = .next (s.resend o)) ∧
  (∀ (s : State) (k : Fin 3), s.outstandingOf k.val ≠ 0 → exec (.ackTimeout k) s = .next (s.desync 2)) ∧
  (∀ (s : State), s.bit Reg.eraStatusTimeOk = false → exec (.timeOkTimeout) s = .next (s.desync 7))

/-- Synchronisation, takeover and the swap of a pair take effect (R341, R342, R343, R347, R354, R364). -/
def Obligations.PairSynchronisationCompletes : Prop :=
  (∀ (s : State) (r : Requester), s.mayWrite r 0x016 = true → s.role = 2 → exec (.eraSync r) s = .next (({ s with erair := { s.erair with syncAsked := true, told := s.versionArgs } }.erairSend (.message 9 [])).erairSend (.message 6 s.versionArgs))) ∧
  (∀ (s : State) (r : Requester), s.mayWrite r 0x016 = true → exec (.eraDesync r) s = .next (s.desync 6)) ∧
  (∀ (s : State) (m : VersionMsg), s.erairOn = true → (({ s with erair := { s.erair with versions := some m } } : State).tellVersions).checkSync m = none → exec (.versionMessage m) s = .next ({ (({ s with erair := { s.erair with versions := some m } } : State).tellVersions) with erair := { (({ s with erair := { s.erair with versions := some m } } : State).tellVersions).erair with refused := none } })) ∧
  (∀ (s : State) (m : VersionMsg) (reason : Nat), s.erairOn = true → (({ s with erair := { s.erair with versions := some m } } : State).tellVersions).syncRoles = true → (({ s with erair := { s.erair with versions := some m } } : State).tellVersions).syncRefusal m = some reason → exec (.versionMessage m) s = .next ((({ s with erair := { s.erair with versions := some m } } : State).tellVersions).refuseSync m reason)) ∧
  (∀ (s : State) (m : VersionMsg), s.erair.versions = some m → s.erairOn = true → s.erair.clash = false → s.syncRoles = true → s.syncWanted m = true → s.syncRefusal m = none → exec (.syncStart) s = .next (s.startSync m)) ∧
  (∀ (s : State) (granule : Nat) (current : List W36) (previous : List W36), s.role = 3 → s.erairOn = true → granule < 294912 → exec (.copyCell granule current previous) s = .next ((s.storeGranule granule current previous).markCopied granule)) ∧
  (∀ (s : State) (granule : Nat) (current : List W36) (previous : List W36), s.role = 4 → s.erairOn = true → granule < 294912 → exec (.copyCell granule current previous) s = .next (s.storeGranule granule current previous)) ∧
  (∀ (s : State) (x : SyncStates), s.copyDone = true → s.role = 6 → exec (.syncDone x) s = .next (s.closeCopy.synced 7)) ∧
  (∀ (s : State) (x : SyncStates), s.copyDone = true → s.role = 3 → exec (.syncDone x) s = .next ((s.loadStates x).synced 4)) ∧
  (∀ (s : State), s.role = 1 → s.erair.clash = false → exec (.listenTimeout) s = .next (s.claimAlone)) ∧
  (∀ (s : State), s.mayTakeOver = true → exec (.handover) s = .next (s.takeOver)) ∧
  (∀ (s : State) (cycles : List W32), s.role = 4 → s.erair.clash = false → exec (.release cycles) s = .next (s.takeOver.raise Reg.eraEventSwapDone)) ∧
  (∀ (s : State) (r : Requester), s.mayWrite r 0x016 = true → s.role = 7 → s.erair.swap = none → s.nextBoundary s.shortestClass (s.now + 1000000) ≤ s.now + 1000000000 → exec (.eraSwap r) s = .next ({ s with erair := { s.erair with swap := some ⟨1, s.shortestClass, s.nextBoundary s.shortestClass (s.now + 1000000), s.now + 1000000000⟩ } })) ∧
  (∀ (s : State) (w : Swap), s.erair.swap = some w → w.phase = 1 → w.point ≤ s.now → s.now < w.point + Config.tickNs → s.othersFinished w.cls = true → exec (.swapPoint) s = .next ([0, 1, 2].foldl (fun t k => t.launchOutputs k t.now) { s with erair := { s.erair with swap := some { w with phase := 2 } } })) ∧
  (∀ (s : State) (w : Swap), s.erair.swap = some w → w.phase = 1 → w.point + Config.tickNs ≤ s.now → w.latest < s.nextBoundary w.cls (s.now + 1) → exec (.swapPoint) s = .next (s.refuseSwap)) ∧
  (∀ (s : State) (w : Swap), s.erair.swap = some w → w.phase = 2 → s.claimant = true → (s.outputsLeft = true ∨ w.point + s.periodUs w.cls * 500 ≤ s.now) → exec (.swapDemote) s = .next ({ (s.demoteAs 0 (s.fld Reg.dmpEpochEpoch)).erairSend (.message 5 ([0, 1, 2].map fun k => s.fld (Reg.blwClCycleLoCycleLo k))) with erair := { ((s.demoteAs 0 (s.fld Reg.dmpEpochEpoch)).erairSend (.message 5 ([0, 1, 2].map fun k => s.fld (Reg.blwClCycleLoCycleLo k)))).erair with postSwap := true } }))

/-- The alive lines and the witness give their evidence (R355, R356, R357, R358). -/
def Obligations.PartnerEvidenceCommandsComplete : Prop :=
  (∀ (s : State), s.role ≠ 0 → s.bit Reg.fgdStatusExpired = false → s.pins.aliveNs + s.aliveInterval ≤ s.bellows.ns → exec (.aliveOutToggle) s = .next ({ s with pins := { s.pins with aliveOut := !s.pins.aliveOut, aliveNs := s.bellows.ns } }.grateUpdate)) ∧
  (∀ (s : State) (intervalUs : Nat), s.bit Reg.grtPairPartnerEn = true → s.erair.confirming = false → ((edgePattern intervalUs :: s.erair.edges).take 3) = [2, 2, 2] → exec (.partnerAliveEdge intervalUs) s = .next ({ s with erair := { s.erair with edges := [2, 2, 2] } }.setFld Reg.eraStatusLine 2)) ∧
  (∀ (s : State), s.bit Reg.grtPairPartnerEn = true → exec (.lineDead) s = .next (({ s with erair := { s.erair with edges := [], lineResult := 1 } }.setFld Reg.eraStatusLine 1).confirm)) ∧
  (∀ (s : State), s.erair.up = false → s.witnessOn = true → (s.claimant = true ∨ s.role = 4) → exec (.witnessProbeTimer) s = .next ({ s with erair := { s.erair with probes := s.erair.probes + 1 } }.sendWitness 1)) ∧
  (∀ (s : State) (dg : Datagram) (bs : List Byte), s.chmPortUp dg.port.val = true → s.vlanTakes dg.port.val dg.vlan = true → dg.size ≤ s.mtu dg.port.val → s.hasRole dg.port.val .witness = true → dg.udpPort.toNat = s.fld Reg.eraWitnessPortPort → (s.countWrap (Reg.chmXRxFramesRxFrames dg.port.val)).witnessGood 1 bs = true → exec (.witnessProbe ⟨dg, bs⟩) s = .next (((s.countWrap (Reg.chmXRxFramesRxFrames dg.port.val)).witnessSeen bs).sendWitness 2)) ∧
  (∀ (s : State) (dg : Datagram) (bs : List Byte), s.chmPortUp dg.port.val = true → s.vlanTakes dg.port.val dg.vlan = true → dg.size ≤ s.mtu dg.port.val → s.hasRole dg.port.val .witness = true → dg.udpPort.toNat = s.fld Reg.eraWitnessPortPort → (s.countWrap (Reg.chmXRxFramesRxFrames dg.port.val)).witnessGood 2 bs = true → ¬5 ≤ witnessRole bs → exec (.witnessAnswer ⟨dg, bs⟩) s = .next (({ (s.countWrap (Reg.chmXRxFramesRxFrames dg.port.val)).witnessSeen bs with erair := { ((s.countWrap (Reg.chmXRxFramesRxFrames dg.port.val)).witnessSeen bs).erair with witResult := 2 } } : State).confirm)) ∧
  (∀ (s : State) (dg : Datagram) (bs : List Byte), s.chmPortUp dg.port.val = true → s.vlanTakes dg.port.val dg.vlan = true → dg.size ≤ s.mtu dg.port.val → s.hasRole dg.port.val .witness = true → dg.udpPort.toNat = s.fld Reg.eraWitnessPortPort → (s.countWrap (Reg.chmXRxFramesRxFrames dg.port.val)).witnessGood 2 bs = true → 5 ≤ witnessRole bs → exec (.witnessAnswer ⟨dg, bs⟩) s = .next (({ ((s.countWrap (Reg.chmXRxFramesRxFrames dg.port.val)).witnessSeen bs).evidence with erair := { ((s.countWrap (Reg.chmXRxFramesRxFrames dg.port.val)).witnessSeen bs).evidence.erair with witResult := 2 } } : State).confirm)) ∧
  (∀ (s : State) (dg : Datagram) (bs : List Byte), s.chmPortUp dg.port.val = true → s.vlanTakes dg.port.val dg.vlan = true → dg.size ≤ s.mtu dg.port.val → s.hasRole dg.port.val .witness = true → dg.udpPort.toNat = s.fld Reg.eraWitnessPortPort → (s.countWrap (Reg.chmXRxFramesRxFrames dg.port.val)).witnessGood 3 bs = true → exec (.witnessClaimNotice ⟨dg, bs⟩) s = .next ((s.countWrap (Reg.chmXRxFramesRxFrames dg.port.val)).witnessSeen bs)) ∧
  (∀ (s : State), s.erair.confirming = true → s.witnessOn = true → 3 ≤ s.erair.probes → s.erair.witResult = 0 → exec (.witnessDead) s = .next ({ s with erair := { s.erair with witResult := 1 } }.confirm)) ∧
  (∀ (s : State), s.claimant = true → 0 < s.erair.notices → exec (.claimNoticeTimer) s = .next ({ s with erair := { s.erair with notices := s.erair.notices - 1 } }.sendWitness 3))

/-- Samples, adjusts, switches, reads and timed launches of Turnspit take effect (R369, R370, R371, R375, R378, R379, R381). -/
def Obligations.TurnspitCommandsComplete : Prop :=
  (∀ (s : State) (port : Fin 232), s.turnspitOn = true → exec (.timedLaunch port) s = .next (s.launchDue port.val)) ∧
  (∀ (s : State) (r : Requester) (d : Fin 2) (hi : W32), s.mayWrite r 0x018 = true → s.turnspitOn = true → s.compUp 4 = true → exec (.tspSample r d hi) s = .next ((s.setFld (Reg.tspNOffsetHiOffsetHi d.val) hi.toNat).tspSample d.val (hiLo hi.toNat (s.fld (Reg.tspNOffsetLoOffsetLo d.val))))) ∧
  (∀ (s : State) (r : Requester) (d : Fin 2) (hi : W32), s.mayWrite r 0x018 = true → s.turnspitOn = true → exec (.tspAdjust r d hi) s = .next ((s.setFld (Reg.tspNAdjustHiAdjustHi d.val) hi.toNat).stepDomain d.val (hiLo hi.toNat (s.fld (Reg.tspNAdjustLoAdjustLo d.val))))) ∧
  (∀ (s : State) (r : Requester) (v : W32), s.mayWrite r 0x018 = true → s.turnspitOn = true → exec (.tspSelect r v) s = .next ((s.setFld Reg.tspControlAutoSwitch (bitsOf v.toNat 1 1)).tspSelectTo (bitsOf v.toNat 0 1))) ∧
  (∀ (s : State) (d : Fin 2), s.turnspitOn = true → s.compUp 4 = true → s.fld (tspStateFld d.val) = 1 → exec (.tspHoldover d) s = .next (s.tspHold d.val)) ∧
  (∀ (s : State), s.turnspitOn = true → s.turnspit.offset.natAbs ≤ s.fld Reg.tspBleedBleed → exec (.tspBleedEnd) s = .next ({ s with turnspit := { s.turnspit with offset := 0 } })) ∧
  (∀ (s : State) (r : Requester), s.mayRead r 0x018 = true → s.turnspitOn = true → exec (.tspSysRead r) s = .next (s.tspReadSys.2.readAnswer r s.tspReadSys.1)) ∧
  (∀ (s : State) (r : Requester) (d : Fin 2), s.mayRead r 0x018 = true → s.turnspitOn = true → exec (.tspDomainRead r d) s = .next ((s.tspReadDomain d.val).2.readAnswer r (s.tspReadDomain d.val).1)) ∧
  (∀ (s : State) (x : Fin 40) (m : PtpMessage), s.chmPortUp x.val = true → m.sent = false → s.bit (Reg.chmXControlPtp x.val) = true → s.turnspitOn = true → s.vlanTakes x.val m.vlan = true → exec (.ptpEventMessage x m) s = .next ((s.countWrap (Reg.chmXRxFramesRxFrames x.val)).ptpStamp x.val m)) ∧
  (∀ (s : State) (x : Fin 40) (m : PtpMessage), s.chmPortUp x.val = true → m.sent = true → s.bit (Reg.chmXControlPtp x.val) = true → s.turnspitOn = true → s.vlanTakes x.val m.vlan = true → exec (.ptpEventMessage x m) s = .next ((s.countWrap (Reg.chmXTxFramesTxFrames x.val)).ptpStamp x.val m)) ∧
  (∀ (s : State) (x : Fin 40) (m : PtpMessage), s.chmPortUp x.val = true → m.sent = false → s.vlanTakes x.val m.vlan = false → exec (.ptpEventMessage x m) s = .next ((s.countWrap (Reg.chmXRxFramesRxFrames x.val)).rxDrop x.val))

/-- Channel configuration, the pair lines, inputs, protection and supplies of Grate take effect (R386, R387, R392, R393, R394). -/
def Obligations.GrateCommandsComplete : Prop :=
  (∀ (s : State) (r : Requester) (n : Fin 16) (v : W32), s.mayWrite r 0x019 = true → s.isAliveOut n.val = false → s.isPartnerAlive n.val = false → (s.channel n.val).declared = false → configGood v = true → exec (.grateConfigWrite r n v) s = .next ((s.setFields [(Reg.grtGConfigMode n.val, bitsOf v.toNat 0 3), (Reg.grtGConfigOn n.val, bitsOf v.toNat 3 9), (Reg.grtGConfigOff n.val, bitsOf v.toNat 12 9), (Reg.grtGConfigFilter n.val, bitsOf v.toNat 21 10), (Reg.grtGConfigSafe n.val, bitsOf v.toNat 31 1)]).grateOne n.val)) ∧
  (∀ (s : State) (r : Requester) (v : W32), s.mayWrite r 0x019 = true → Sparse.get s.rwlSet false pairLockKey = false → s.pairGood v = true → exec (.gratePairWrite r v) s = .next (({ s with rwlSet := Sparse.put s.rwlSet false pairLockKey true }.setFields [(Reg.grtPairAliveOut, bitsOf v.toNat 0 4), (Reg.grtPairAliveEn, bitsOf v.toNat 4 1), (Reg.grtPairPartner, bitsOf v.toNat 5 4), (Reg.grtPairPartnerEn, bitsOf v.toNat 9 1)] |>.setFld Reg.eraStatusLine (bitsOf v.toNat 9 1)).grateUpdate)) ∧
  (∀ (s : State) (n : Fin 16) (on : Bool), s.fit.grate = true → s.mainUp = true → (s.bit Reg.grtControlEnable = true ∨ s.isPartnerAlive n.val = true) → (s.fld (Reg.grtGConfigMode n.val) = 1 ∨ s.fld (Reg.grtGConfigMode n.val) = 2) → exec (.grateInputChange n on) s = .next (if s.fldBit Reg.grtInStateInState n.val = on then s.setFldBit Reg.grtInStateInState n.val on else (s.setFldBit Reg.grtInStateInState n.val on).wake 4 ((s.setFldBit Reg.grtInStateInState n.val on).fldBit Reg.pwrGrateWakeMask n.val))) ∧
  (∀ (s : State) (n : Fin 16), s.fldBit Reg.grtOutStateOutState n.val = true → exec (.grateOverload n) s = .next (((((s.setChannel n.val { s.channel n.val with retry := false }).setFldBit Reg.grtFaultFault n.val true).setFldBit Reg.grtOutStateOutState n.val false).grtCapture n.val 3).raise Reg.grtEventOverload)) ∧
  (∀ (s : State) (n : Fin 16), s.fldBit Reg.grtOutStateOutState n.val = true → exec (.grateThermal n) s = .next (((((s.setChannel n.val { s.channel n.val with retry := false }).setFldBit Reg.grtFaultFault n.val true).setFldBit Reg.grtOutStateOutState n.val false).grtCapture n.val 4).raise Reg.grtEventThermal)) ∧
  (∀ (s : State) (n : Fin 16), s.fldBit Reg.grtFaultFault n.val = true → (s.channel n.val).cmd = true → exec (.grateRetry n) s = .next ((s.setChannel n.val { s.channel n.val with retry := true }).grateOne n.val)) ∧
  (∀ (s : State) (n : Fin 16), (s.channel n.val).retry = true → s.fldBit Reg.grtOutStateOutState n.val = true → exec (.grateFaultClear n) s = .next ((s.setFldBit Reg.grtFaultFault n.val false).setChannel n.val { s.channel n.val with retry := false })) ∧
  (∀ (s : State) (mv : Nat), s.fit.grate = true → supplyState (s.fld Reg.grtStatusSupplyA) mv ≠ s.fld Reg.grtStatusSupplyA → exec (.grateSupplyChange 0 mv) s = .next (((((s.setFld Reg.grtSupplyAMvMv (Nat.min mv 65535)).setFld Reg.grtStatusSupplyA (supplyState (s.fld Reg.grtStatusSupplyA) mv)).grtCapture 0 1).raise Reg.grtEventSupplyA).grateUpdate)) ∧
  (∀ (s : State) (mv : Nat), s.fit.grate = true → supplyState (s.fld Reg.grtStatusSupplyA) mv = s.fld Reg.grtStatusSupplyA → exec (.grateSupplyChange 0 mv) s = .next ((s.setFld Reg.grtSupplyAMvMv (Nat.min mv 65535))))

/-- The Mantel commands and the ends of commits and erases take effect; the event log flushes and clears (R404, R405, R412, R413, R418, R421). -/
def Obligations.MantelAndAshpitCommandsComplete : Prop :=
  (∀ (s : State) (found : Ecc) (p : Nat) (part : Partition), s.mayWrite .tenderSecure 0x005 = true → s.mantel.op = none → s.fld Reg.mntLenLen ≠ 0 → s.fld Reg.mntLenLen ≤ 4096 → partitionOf (s.fld Reg.mntAddrAddr) (s.fld Reg.mntLenLen) = some (p, part) → s.bufOk true (s.mantelCommand 1 true (eccCode found)).buf (s.fld Reg.mntAddrAddr) (s.fld Reg.mntLenLen) = true → s.bankBusy (bankOf (s.fld Reg.mntAddrAddr)) = false → exec (.mantelRead .tenderSecure found) s = .next (s.readNow (s.mantelCommand 1 true (eccCode found)) p)) ∧
  (∀ (s : State) (p : Nat) (part : Partition), s.mayWrite .tenderSecure 0x005 = true → s.mantel.op = none → s.fld Reg.mntLenLen ≠ 0 → partitionOf (s.fld Reg.mntAddrAddr) (s.fld Reg.mntLenLen) = some (p, part) → part.staged = true → s.bufOk true (s.mantelCommand 2 true 0).buf (s.fld Reg.mntAddrAddr) (s.fld Reg.mntLenLen) = true → (s.commitBuf p).bytes = [] → (s.fld Reg.mntAddrAddr + s.fld Reg.mntLenLen - 1) / 0x10000 = s.fld Reg.mntAddrAddr / 0x10000 → exec (.stage .tenderSecure) s = .next ((s.setCommitBuf p ⟨s.fld Reg.mntAddrAddr / 0x10000, stageBytes [] (s.fld Reg.mntAddrAddr) (((quadBytes ((List.range ((s.fld Reg.mntAddrAddr % 4 + s.fld Reg.mntLenLen + 3) / 4)).map fun i => s.bufWord ((s.mantelCommand 2 true 0).buf + i))).drop (s.fld Reg.mntAddrAddr % 4)).take (s.fld Reg.mntLenLen))⟩).mntEnd 0)) ∧
  (∀ (s : State) (p : Nat) (part : Partition), s.mayWrite .tenderSecure 0x005 = true → s.mantel.op = none → partitionOf (s.fld Reg.mntAddrAddr) 1 = some (p, part) → part.staged = true → (s.commitBuf p).bytes ≠ [] → (s.commitBuf p).pages.all s.pageErased = true → exec (.commit .tenderSecure) s = .next (s.mntRun (s.mantelCommand 3 true 0))) ∧
  (∀ (s : State) (p : Nat) (part : Partition), s.mayWrite .tenderSecure 0x005 = true → s.mantel.op = none → partitionOf (s.fld Reg.mntAddrAddr) 1 = some (p, part) → part.staged = true → (s.commitBuf p).bytes ≠ [] → exec (.commitErase .tenderSecure) s = .next (s.mntRun (s.mantelCommand 4 true 0))) ∧
  (∀ (s : State) (p : Nat) (part : Partition), s.mayWrite .tenderSecure 0x005 = true → s.mantel.op = none → partitionOf (s.fld Reg.mntAddrAddr) 1 = some (p, part) → part.staged = true → exec (.erase .tenderSecure) s = .next (s.mntRun (s.mantelCommand 5 true 0))) ∧
  (∀ (s : State) (p : Nat) (part : Partition), s.mayWrite .tenderSecure 0x005 = true → s.mantel.op = none → partitionOf (s.fld Reg.mntAddrAddr) 1 = some (p, part) → part.staged = true → exec (.mantelDiscard .tenderSecure) s = .next ((s.setCommitBuf p CommitBuf.empty).mntEnd 0)) ∧
  (∀ (s : State), s.mayWrite .tenderSecure 0x005 = true → s.mantel.op = none → 8 ≤ s.fld Reg.mntLenLen → s.fld Reg.mntLenLen ≤ 4080 → s.fld Reg.mntLenLen % 8 = 0 → s.bufOk true (s.mantelCommand 7 true 0).buf paramBase (s.fld Reg.mntLenLen) = true → exec (.paramAppend .tenderSecure) s = .next (s.mntRun { s.mantelCommand 7 true 0 with addr := paramBase, data := s.getBytes (s.mantelCommand 7 true 0).buf paramBase (s.fld Reg.mntLenLen) })) ∧
  (∀ (s : State), s.mayWrite .tenderSecure 0x005 = true → s.mantel.op = none → s.bit Reg.hrtStatusCaptureValid = true → s.freeSlot.isNone = false → exec (.retainCommit .tenderSecure) s = .next ((s.mntRun { s.mantelCommand 8 true 0 with addr := retainSlotBase 0 }).retainNext)) ∧
  (∀ (s : State) (o : MantelOp), (s.mantelStart).opRunning = some o → exec (.mantelOpDone) s = .next ((((s.mantelStart).setHolder ((s.mantelStart).opBank o) 0).opDone o).mantelStart.readHeld)) ∧
  (∀ (s : State) (o : MantelOp) (rest : List MantelOp), (s.mantelStart).opRunning = none → (s.mantelStart).devRunning = some (o, rest) → exec (.mantelOpDone) s = .next ((({ (s.mantelStart) with mantel := { (s.mantelStart).mantel with dev := rest } }.setHolder 1 0).retainDone o).mantelStart.readHeld)) ∧
  (∀ (s : State) (block : Fin 2048), (s.mantelStart).mayErase block.val = true → inLog block.val = false → exec (.backgroundErase block) s = .next ((({ (((s.mantelStart).eraseBlock block.val).setHolder (bankOf (block.val * 0x10000)) 0) with mantel := { (((s.mantelStart).eraseBlock block.val).setHolder (bankOf (block.val * 0x10000)) 0).mantel with background := (((s.mantelStart).eraseBlock block.val).setHolder (bankOf (block.val * 0x10000)) 0).mantel.background.filter (fun x => x ≠ block.val) } } : State).slotErased block.val).mantelStart.readHeld)) ∧
  (∀ (s : State) (block : Fin 2048), (s.mantelStart).mayErase block.val = true → inLog block.val = true → exec (.backgroundErase block) s = .next (((({ (((s.mantelStart).eraseBlock block.val).setHolder (bankOf (block.val * 0x10000)) 0) with mantel := { (((s.mantelStart).eraseBlock block.val).setHolder (bankOf (block.val * 0x10000)) 0).mantel with background := (((s.mantelStart).eraseBlock block.val).setHolder (bankOf (block.val * 0x10000)) 0).mantel.background.filter (fun x => x ≠ block.val) } } : State).slotErased block.val).ashGoOn).mantelStart.readHeld)) ∧
  (∀ (s : State) (c : PrivCommit), (s.mantelStart).privRunning = some c → exec (.privilegedCommitDone) s = .next ((({ (s.mantelStart) with mantel := { (s.mantelStart).mantel with priv := (s.mantelStart).mantel.priv.erase c } }.setHolder (bankOf c.addr) 0).privDone c).mantelStart.readHeld)) ∧
  (∀ (s : State) (r : Requester), s.mayWrite r 0x006 = true → s.fld Reg.ashFillFill ≠ 0 → exec (.ashFlush r) s = .next (s.ashStartFlush)) ∧
  (∀ (s : State) (r : Requester), s.mayWrite r 0x006 = true → s.fld Reg.ashFillFill = 0 → exec (.ashFlush r) s = .next (s.raise Reg.ashEventFlushed)) ∧
  (∀ (s : State), (s.mantelStart).holder 7 = 3 → exec (.ashFlushDone) s = .next ((((s.mantelStart).setHolder 7 0).ashEndFlush).mantelStart.readHeld)) ∧
  (∀ (s : State), s.mayWrite .tenderSecure 0x006 = true → exec (.ashClear .tenderSecure) s = .next (s.ashStartClear)) ∧
  (∀ (s : State), (s.mantelStart).clearEnds = true → exec (.ashClearDone) s = .next ((s.mantelStart).ashEndClear.mantelStart.readHeld))

/-- HOLD, RUN, RESET, BANK, WAKE and RAKE act in the modes that allow them (R427, R429, R433, R442, R443, R444). -/
def Obligations.ModeCommandsComplete : Prop :=
  (∀ (s : State) (r : Requester), s.mayWrite r 0x001 = true → s.bit Reg.pwrStatusTransition = false → (s.mode = 2 ∨ s.mode = 3) → (([0, 1, 2].all fun k => (s.cls k).finished) = true) → exec (.pwrHold r) s = .next (s.enterHeld)) ∧
  (∀ (s : State) (r : Requester), s.mayWrite r 0x001 = true → s.bit Reg.pwrStatusTransition = false → (s.mode = 2 ∨ s.mode = 3) → (([0, 1, 2].all fun k => (s.cls k).finished) = false) → exec (.pwrHold r) s = .next (s.setFld Reg.pwrStatusTransition 1)) ∧
  (∀ (s : State) (r : Requester) (p : Program), s.mayWrite r 0x001 = true → s.bit Reg.pwrStatusTransition = false → s.mode = 5 → s.engineHalted = false → s.bellows.active = some p → (s.shortfallOf p).any id = false → s.started = true → exec (.pwrRun r) s = .next ((s.noteShort (s.shortfallOf p)).leaveHeld)) ∧
  (∀ (s : State) (r : Requester) (p : Program) (t : State), s.mayWrite r 0x001 = true → s.bit Reg.pwrStatusTransition = false → s.mode = 5 → s.engineHalted = false → s.bellows.active = some p → (s.shortfallOf p).any id = false → s.started = false → (s.noteShort (s.shortfallOf p)).startProgram = some t → exec (.pwrRun r) s = .next (t.leaveHeld)) ∧
  (∀ (s : State) (r : Requester), s.mayWrite r 0x001 = true → s.bit Reg.pwrStatusTransition = false → 1 ≤ s.mode → s.mode ≤ 7 → exec (.pwrReset r) s = .next (s.resetUnit Reg.pwrResetCauseCommand)) ∧
  (∀ (s : State) (r : Requester), s.mayWrite r 0x001 = true → s.bit Reg.pwrStatusTransition = false → (s.mode = 3 ∨ s.mode = 5) → s.engineHalted = false → exec (.pwrBank r) s = .next (s.bank)) ∧
  (∀ (s : State) (r : Requester), s.mayWrite r 0x001 = true → s.bit Reg.pwrStatusTransition = false → s.mode = 4 → s.fld Reg.pwrStatusBankStage = 1 → exec (.pwrWake r) s = .next (s.wake 5 true)) ∧
  (∀ (s : State) (r : Requester), s.mayWrite r 0x001 = true → s.bit Reg.pwrStatusTransition = false → (s.mode = 2 ∨ s.mode = 3 ∨ s.mode = 5) → s.engineHalted = false → exec (.pwrRake r) s = .next (s.rake false)) ∧
  (∀ (s : State) (r : Requester), s.mayWrite r 0x001 = true → s.bit Reg.pwrStatusTransition = false → (s.mode = 2 ∨ s.mode = 3 ∨ s.mode = 5) → s.engineHalted = false → exec (.pwrRakeOff r) s = .next (s.rake true)) ∧
  (∀ (s : State), s.mode = 4 → s.fld Reg.pwrStatusBankStage = 1 → s.fld Reg.pwrBankDeepMs ≠ 0 → exec (.bankDeepStage) s = .next (s.deepStage)) ∧
  (∀ (s : State) (f : SweepFind) (k : Raking), s.raking = some k → k.phase = 3 → s.mantel.dev = [] → exec (.rakeEnd f) s = .next (s.rakeDone k f)) ∧
  (∀ (s : State) (f : KindlingFind), s.mayKindle = true → exec (.kindlingStart f) s = .next (s.kindle f)) ∧
  (∀ (s : State), s.mode = 1 → s.kindling ≠ .none → exec (.kindlingEnd) s = .next (s.kindlingEnd))

/-- Power domains switch on and off, and the secure world owns them (R430, R431, R495). -/
def Obligations.PowerDomainCommandsComplete : Prop :=
  (∀ (s : State) (n : Fin 24) (v : W32), s.mayWrite .tenderSecure 0x001 = true → bitsOf v.toNat 0 2 = 0 → n.val < 22 → exec (.pdRequest .tenderSecure n v) s = .next ({ s.pdOn n.val with owners := (n.val, (s.pdOn n.val).ownedAtStart n.val) :: (s.pdOn n.val).owners }.setBit (Reg.pwrPdControlSecOwner n.val) (bitOf v.toNat 4))) ∧
  (∀ (s : State) (n : Fin 24) (v : W32), s.mayWrite .tenderSecure 0x001 = true → (bitsOf v.toNat 0 2 = 1 ∨ bitsOf v.toNat 0 2 = 2) → n.val < 22 → s.domainBusy n.val = false → s.domainMode n.val = false → exec (.pdRequest .tenderSecure n v) s = .next ({ s.pdOff n.val (bitsOf v.toNat 0 2) with owners := (n.val, (s.pdOff n.val (bitsOf v.toNat 0 2)).ownedAtStart n.val) :: (s.pdOff n.val (bitsOf v.toNat 0 2)).owners }.setBit (Reg.pwrPdControlSecOwner n.val) (bitOf v.toNat 4))) ∧
  (∀ (s : State) (n : Fin 24) (own : Bool), s.mayWrite .tenderSecure 0x001 = true → exec (.secOwnerWrite .tenderSecure n own) s = .next ({ s with owners := (n.val, s.ownedAtStart n.val) :: s.owners }.setBit (Reg.pwrPdControlSecOwner n.val) own)) ∧
  (∀ (s : State) (n : Fin 24), s.fld (Reg.pwrPdControlState n.val) = 3 → s.fld (Reg.pwrPdControlReq n.val) = 0 → exec (.pdSwitchDone n) s = .next (s.domainUp n.val)) ∧
  (∀ (s : State) (n : Fin 24), s.fld (Reg.pwrPdControlState n.val) = 3 → s.fld (Reg.pwrPdControlReq n.val) = 2 → exec (.pdSwitchDone n) s = .next (s.cutDomain n.val))

/-- Supplies, clocks, pins, wakes and power-fail have their effects (R415, R438, R440, R441, R444, R457, R459, R502, R524, R525). -/
def Obligations.SupplyResetAndWakeEventsComplete : Prop :=
  (∀ (s : State), s.pins.mainValid = true → exec (.brownOut) s = .next (s.loseSupply)) ∧
  (∀ (s : State), s.pins.mainValid = false → s.pins.resetN = true → exec (.mainSupplyValid) s = .next (({ s with pins := { s.pins with mainValid := true }, ember := { s.ember with onVbak := false } } : State).setFld Reg.pwrStatusMode 1)) ∧
  (∀ (s : State), s.mode ≠ 0 → exec (.resetPin) s = .next ({ s.resetUnit Reg.pwrResetCauseResetN with pins := { (s.resetUnit Reg.pwrResetCauseResetN).pins with resetN := false } })) ∧
  (∀ (s : State), s.mode ≠ 0 → s.pins.refclkOk = true → exec (.clockLoss) s = .next ({ (s.settleOps.resetState survivesReset).setFld Reg.pwrResetCausePowerOn 0 with pins := { ((s.settleOps.resetState survivesReset).setFld Reg.pwrResetCausePowerOn 0).pins with refclkOk := false } })) ∧
  (∀ (s : State), s.pins.refclkOk = false → exec (.clockRestored) s = .next ({ s with pins := { s.pins with refclkOk := true } }.setFld Reg.pwrResetCauseClockLoss 1)) ∧
  (∀ (s : State), s.bit Reg.fgdStatusExpired = true → exec (.hardTimerExpiry) s = .next (s.resetUnit Reg.pwrResetCauseFireguard)) ∧
  (∀ (s : State), (s.wake 1 true).bit Reg.embControlWakePwron = false → exec (.wakePin) s = .next (s.wake 1 true)) ∧
  (∀ (s : State), s.pins.perstN = false → exec (.perstRise) s = .next ((({ s with pins := { s.pins with perstN := true, wakeN := true }, pcie := { s.pcie with trained := true } } : State).wake 2 (s.bit Reg.pwrBankPerstWake)).setBit Reg.pciWakeReportDeviceFirst (({ s with pins := { s.pins with perstN := true, wakeN := true }, pcie := { s.pcie with trained := true } } : State).wake 2 (s.bit Reg.pwrBankPerstWake)).pcie.deviceFirst)) ∧
  (∀ (s : State), s.mainUp = true → ((s.setFld Reg.pwrStatusPf 1).raise Reg.pwrEventPowerFail).mantel.pf = 0 → exec (.powerFail .monitor) s = .next (((s.setFld Reg.pwrStatusPf 1).raise Reg.pwrEventPowerFail).startPf 2)) ∧
  (∀ (s : State), s.mainUp = true → exec (.powerFail .pin) s = .next (({ s with pins := { s.pins with pfailN := false } } : State).powerFail 1)) ∧
  (∀ (s : State), s.bit Reg.pwrStatusPf = true → exec (.pfRecovered) s = .next (({ s with pins := { s.pins with pfailN := true } }.setFld Reg.pwrStatusPf 0).raise Reg.pwrEventPfRecovered)) ∧
  (∀ (s : State), s.mantel.pf = 2 → s.pfCommitted = true → exec (.pfCommitsDone) s = .next (s.endPf))

/-- The Ember clock, its alarm, its oscillator and its backup supply have their effects (R445, R447, R448, R449). -/
def Obligations.EmberCommandsComplete : Prop :=
  (∀ (s : State) (r : Requester) (v : W32), s.mayWrite r 0x003 = true → s.ember.locked = false → exec (.emberHalt r v) s = .next (s.setFields [(Reg.embControlHalt, bitsOf v.toNat 0 1), (Reg.embControlAlarmEn, bitsOf v.toNat 1 1), (Reg.embControlAlarmPwron, bitsOf v.toNat 2 1), (Reg.embControlWakePwron, bitsOf v.toNat 3 1), (Reg.embStatusHalted, bitsOf v.toNat 0 1)])) ∧
  (∀ (s : State) (r : Requester) (hi : W32), s.mayWrite r 0x003 = true → s.ember.locked = false → s.bit Reg.embStatusHalted = true → exec (.emberTickSet r hi) s = .next ({ s with ember := { s.ember with tick := hi.toNat % 2 ^ 16 * 2 ^ 32 + s.fld Reg.embTickSetLoSetLo, phase := 0 } }.setFields [(Reg.embTickSetHiSetHi, hi.toNat), (Reg.embStatusLost, 0)])) ∧
  (∀ (s : State) (r : Requester) (hi : W32), s.mayWrite r 0x003 = true → s.ember.locked = false → exec (.emberAlarmSet r hi) s = .next ({ s with ember := { s.ember with alarm := hi.toNat % 2 ^ 16 * 2 ^ 32 + s.fld Reg.embAlarmLoAlarmLo } }.setFld Reg.embAlarmHiAlarmHi hi.toNat)) ∧
  (∀ (s : State), s.ember.matched = true → exec (.emberAlarm) s = .next (if (({ s with ember := { s.ember with matched := false } }.embRaise 0 Reg.embEventAlarm).wake 0 (s.bit Reg.pwrBankAlarmWake)).bit Reg.embControlAlarmPwron = true then (({ s with ember := { s.ember with matched := false } }.embRaise 0 Reg.embEventAlarm).wake 0 (s.bit Reg.pwrBankAlarmWake)).setPwron else (({ s with ember := { s.ember with matched := false } }.embRaise 0 Reg.embEventAlarm).wake 0 (s.bit Reg.pwrBankAlarmWake)))) ∧
  (∀ (s : State), exec (.oscFail) s = .next (({ s with ember := { s.ember with stopped := true } }.setFld Reg.embStatusLost 1).embRaise 2 Reg.embEventOscFail)) ∧
  (∀ (s : State), s.pins.mainValid = false → exec (.emberPor) s = .next ({ s with regs := s.regs.filter fun e => decide (keyPage e.1 ≠ 0x003), ember := ⟨0, 0, 0, true, true, false, false⟩ })) ∧
  (∀ (s : State) (mv : Nat), s.pins.mainValid = true → exec (.vbakMeasure mv) s = .next (s.setFields [(Reg.embVbakMvVbakMv, Nat.min mv 65535), (Reg.embStatusVbakLow, bit01 (decide (mv < 2000)))])) ∧
  (∀ (s : State), s.pins.mainValid = true → exec (.emberUnlock) s = .next ({ s with ember := { s.ember with locked := false } }))

/-- Guards are configured, serviced and expire; a requested test runs and ends (R454, R455, R457, R460, R461). -/
def Obligations.GuardAndSweepCommandsComplete : Prop :=
  (∀ (s : State) (r : Requester) (v : W32), s.mayWrite r 0x002 = true → s.bit Reg.fgdStatusSysOn = false → bitsOf v.toNat 16 16 ≠ 0 → bitsOf v.toNat 0 16 < bitsOf v.toNat 16 16 → exec (.fgdConfigWrite r .system v) s = .next ({ s with fireguard := { s.fireguard with elapsed := 0 } }.setFields [(Reg.fgdSysConfigWmin, bitsOf v.toNat 0 16), (Reg.fgdSysConfigWmax, bitsOf v.toNat 16 16), (Reg.fgdStatusSysOn, 1)])) ∧
  (∀ (s : State) (r : Requester) (k : Fin 3) (v : W32), s.mayWrite r 0x002 = true → s.fldBit Reg.fgdStatusClOn k.val = false → 2 ≤ bitsOf v.toNat 4 8 → exec (.fgdConfigWrite r (.cls k) v) s = .next (((s.setFields [(Reg.fgdClConfigWmin16 k.val, bitsOf v.toNat 0 4), (Reg.fgdClConfigWmaxp k.val, bitsOf v.toNat 4 8)]).setFldBit Reg.fgdStatusClOn k.val true).guardPause k.val)) ∧
  (∀ (s : State) (r : Requester) (v : W32), s.mayWrite r 0x002 = true → s.bit Reg.fgdStatusSysOn = true → s.bit Reg.fgdStatusExpired = false → v.toNat = 0xC3A5 → s.fld Reg.fgdSysConfigWmin * 100000 ≤ s.fireguard.elapsed → s.fireguard.elapsed < s.fld Reg.fgdSysConfigWmax * 100000 → exec (.fgdService r v) s = .next ({ s with fireguard := { s.fireguard with elapsed := 0 } })) ∧
  (∀ (s : State), s.guardCounts .system = true → s.fld Reg.fgdSysConfigWmax * 100000 ≤ s.fireguard.elapsed → exec (.guardExpiry .system) s = .next (s.guardExpires 1 false)) ∧
  (∀ (s : State) (r : Requester) (v : W32), s.mayWrite r 0x002 = true → s.bit Reg.fgdStatusSysOn = true → s.bit Reg.fgdStatusExpired = false → s.fld Reg.fgdSysConfigWmax * 100000 ≤ s.fireguard.elapsed → exec (.fgdService r v) s = .next (s.guardExpires 1 false)) ∧
  (∀ (s : State) (k : Fin 3) (m : Nat × Bool), s.guardCounts (.cls k) = true → s.fireguard.since.getD k.val none = some m → s.guardLimit k.val ≤ s.bellows.ns - m.1 → exec (.guardExpiry (.cls k)) s = .next (s.guardExpires (2 + k.val) false)) ∧
  (∀ (s : State) (r : Requester) (v : W32), s.mayWrite r 0x004 = true → bitOf v.toNat 12 = true → s.fld (Reg.rlnVerState 6) = 1 → s.sweepTest = none → bitsOf v.toNat 4 8 < sweepTargets (bitsOf v.toNat 0 4) → s.outOfService (bitsOf v.toNat 0 4) (bitsOf v.toNat 4 8) = true → exec (.sweepRequest r v) s = .next (({ s with sweepTest := some (bitsOf v.toNat 0 4, bitsOf v.toNat 4 8) }.flueSend nodeSweep .vc3 .dispatch (sweepNode (bitsOf v.toNat 0 4) (bitsOf v.toNat 4 8)) []).setFields [(Reg.swpStatusBusy, 1), (Reg.swpResultDone, 0), (Reg.swpResultPass, 0), (Reg.swpResultAborted, 0), (Reg.swpResultKind, bitsOf v.toNat 0 4), (Reg.swpResultIndex, bitsOf v.toNat 4 8)])) ∧
  (∀ (s : State) (pass : Bool) (signature : W32) (kind : Nat) (i : Nat), s.sweepTest = some (kind, i) → kind ≠ 1 → exec (.sweepTestDone pass signature) s = .next (if pass = true then (({ s with sweepTest := none }.setFields [(Reg.swpStatusBusy, 0), (Reg.swpResultDone, 1), (Reg.swpResultPass, bit01 pass), (Reg.swpSignatureSignature, signature.toNat)]).raise Reg.swpEventDone) else (({ s with sweepTest := none }.setFields [(Reg.swpStatusBusy, 0), (Reg.swpResultDone, 1), (Reg.swpResultPass, bit01 pass), (Reg.swpSignatureSignature, signature.toNat)]).raise Reg.swpEventDone).raise Reg.swpEventFail)) ∧
  (∀ (s : State) (pass : Bool) (signature : W32) (i : Nat), s.sweepTest = some (1, i) → exec (.sweepTestDone pass signature) s = .next ((if pass = true then (({ s with sweepTest := none }.setFields [(Reg.swpStatusBusy, 0), (Reg.swpResultDone, 1), (Reg.swpResultPass, bit01 pass), (Reg.swpSignatureSignature, signature.toNat)]).raise Reg.swpEventDone) else (({ s with sweepTest := none }.setFields [(Reg.swpStatusBusy, 0), (Reg.swpResultDone, 1), (Reg.swpResultPass, bit01 pass), (Reg.swpSignatureSignature, signature.toNat)]).raise Reg.swpEventDone).raise Reg.swpEventFail).engineTested i pass))

/-- Each request of Poker, accepted, has its effect and is answered OK with its data (R466, R467, R468, R470, R471, R472). -/
def Obligations.PokerRequestsComplete : Prop :=
  (∀ (s : State), ((s.mainUp = true ∧ s.bit Reg.pkrControlDisable = false ∧ (s.bit Reg.pkrControlAuthAll = false ∨ s.poker.auth = true))) → exec (.pokerId) s = .next (s.answer .ok (BitVec.ofNat 36 (s.regWord false 0x008 0x000)))) ∧
  (∀ (s : State) (core : Nat), ((s.mainUp = true ∧ s.bit Reg.pkrControlDisable = false ∧ (s.bit Reg.pkrControlAuthAll = false ∨ s.poker.auth = true))) → (selectable core).isSome = true → exec (.pokerSelect core) s = .next ({ s with poker := { s.poker with sel := core } }.answer .ok 0)) ∧
  (∀ (s : State) (n : BitVec 8), ((s.mainUp = true ∧ s.bit Reg.pkrControlDisable = false ∧ (s.bit Reg.pkrControlAuthAll = false ∨ s.poker.auth = true))) → pokerReg n.toNat = true → (snapReg n.toNat = true ∨ (s.at s.selected).halted = true) → n.toNat ≠ 0x23 → n.toNat ≠ 0x41 → exec (.pokerRead n) s = .next (s.answer .ok (if s.hidden = true then 0 else s.coreReg s.selected n.toNat))) ∧
  (∀ (s : State), ((s.mainUp = true ∧ s.bit Reg.pkrControlDisable = false ∧ (s.bit Reg.pkrControlAuthAll = false ∨ s.poker.auth = true))) → exec (.pokerRead 0x23) s = .next ((s.mapCore s.selected fun x => { x with haltUnread := false }).answer .ok (s.coreReg s.selected 0x23))) ∧
  (∀ (s : State), ((s.mainUp = true ∧ s.bit Reg.pkrControlDisable = false ∧ (s.bit Reg.pkrControlAuthAll = false ∨ s.poker.auth = true))) → (s.at s.selected).halted = true → exec (.pokerRead 0x41) s = .next (s.readData s.selected)) ∧
  (∀ (s : State) (n : BitVec 8) (w : W36), ((s.mainUp = true ∧ s.bit Reg.pkrControlDisable = false ∧ (s.bit Reg.pkrControlAuthAll = false ∨ s.poker.auth = true))) → pokerReg n.toNat = true → snapReg n.toNat = false → (s.at s.selected).halted = true → (breakReg n.toNat = false ∨ isEngine s.selected = false ∨ s.mayHalt s.selected = true) → n.toNat ≠ 0x41 → (s.hidden = false ∨ 0x22 ≤ n.toNat) → exec (.pokerWrite n w) s = .next ((s.setCoreReg s.selected n.toNat w).answer .ok 0)) ∧
  (∀ (s : State) (w : W36), ((s.mainUp = true ∧ s.bit Reg.pkrControlDisable = false ∧ (s.bit Reg.pkrControlAuthAll = false ∨ s.poker.auth = true))) → (s.at s.selected).halted = true → exec (.pokerWrite 0x41 w) s = .next (s.writeData s.selected w)) ∧
  (∀ (s : State), ((s.mainUp = true ∧ s.bit Reg.pkrControlDisable = false ∧ (s.bit Reg.pkrControlAuthAll = false ∨ s.poker.auth = true))) → (isEngine s.selected = false ∨ s.mayHalt s.selected = true) → (s.at s.selected).halted = false → exec (.pokerHalt) s = .next ((s.mapCore s.selected fun x => { x with haltReq := true, haltCause := 0 }).answer .ok 0)) ∧
  (∀ (s : State), ((s.mainUp = true ∧ s.bit Reg.pkrControlDisable = false ∧ (s.bit Reg.pkrControlAuthAll = false ∨ s.poker.auth = true))) → (s.at s.selected).halted = true → exec (.pokerResume) s = .next (((s.mapCore s.selected Core.resume).refreshHalted).answer .ok 0)) ∧
  (∀ (s : State) (w : W36), ((s.mainUp = true ∧ s.bit Reg.pkrControlDisable = false ∧ (s.bit Reg.pkrControlAuthAll = false ∨ s.poker.auth = true))) → (wordOp w).isSome = true → (s.at s.selected).halted = true → s.hidden = false → (s.land s.selected (s.at s.selected).loads.length (s.at s.selected).loads).1.isNone = true → exec (.pokerInject w) s = .next (match wordOp w with | some op => (s.land s.selected (s.at s.selected).loads.length (s.at s.selected).loads).2.injectOp s.selected w op | none => s)) ∧
  (∀ (s : State), ((s.mainUp = true ∧ s.bit Reg.pkrControlDisable = false)) → s.fuses.debugKey.isSome = true → s.poker.lockout = false → s.poker.chalRead < s.poker.challenge.length → exec (.pokerChallenge) s = .next ({ s with poker := { s.poker with chalRead := s.poker.chalRead + 1 } }.answer .ok (BitVec.ofNat 36 (s.poker.challenge.getD s.poker.chalRead 0).toNat))) ∧
  (∀ (s : State), ((s.mainUp = true ∧ s.bit Reg.pkrControlDisable = false)) → s.fuses.debugKey.isSome = true → s.poker.lockout = false → s.poker.challenge.length ≤ s.poker.chalRead → exec (.pokerChallenge) s = .next ({ s.freshChallenge with poker := { s.freshChallenge.poker with chalRead := 1 } }.answer .ok (BitVec.ofNat 36 (s.freshChallenge.poker.challenge.getD 0 0).toNat))) ∧
  (∀ (s : State) (w : W36), ((s.mainUp = true ∧ s.bit Reg.pkrControlDisable = false)) → s.poker.challenge ≠ [] → 8 ≤ s.poker.chalRead → s.poker.response.length < 23 → exec (.pokerResponse w) s = .next ({ s with poker := { s.poker with response := s.poker.response ++ [BitVec.ofNat 32 w.toNat] } }.answer .ok 0)) ∧
  (∀ (s : State) (w : W36), ((s.mainUp = true ∧ s.bit Reg.pkrControlDisable = false)) → s.poker.challenge ≠ [] → 8 ≤ s.poker.chalRead → 23 ≤ s.poker.response.length → exec (.pokerResponse w) s = .next ((s.authEnd (s.responseOk (s.poker.response ++ [BitVec.ofNat 32 w.toNat]))).answer .ok 0)) ∧
  (∀ (s : State), ((s.mainUp = true ∧ s.bit Reg.pkrControlDisable = false ∧ (s.bit Reg.pkrControlAuthAll = false ∨ s.poker.auth = true))) → exec (.pokerDeauth) s = .next (({ s with poker := { s.poker with auth := false } }.setFld Reg.pkrStatusAuth 0).answer .ok 0)) ∧
  (∀ (s : State), s.poker.lockout = true → exec (.pokerAuthLockoutEnd) s = .next ({ s with poker := { s.poker with lockout := false, failures := 0 } })) ∧
  (∀ (s : State) (e : Fin 144), ((s.mainUp = true ∧ s.bit Reg.pkrControlDisable = false ∧ (s.bit Reg.pkrControlAuthAll = false ∨ s.poker.auth = true))) → s.selected = .engine e → s.sandboxRefused e.val ((s.core e.val).dbgReg 0x44) ((s.core e.val).dbgReg 0x45) = false → exec (.pokerSandbox) s = .next ({ s with poker := { s.poker with sandbox := some (e.val, (s.core e.val).dbgReg 0x44, (s.core e.val).dbgReg 0x45), snapDue := true } }.answer .ok 0)) ∧
  (∀ (s : State) (x : Nat × Nat × Nat), ((s.mainUp = true ∧ s.bit Reg.pkrControlDisable = false ∧ (s.bit Reg.pkrControlAuthAll = false ∨ s.poker.auth = true))) → s.poker.sandbox = some x → exec (.pokerSandboxEnd) s = .next (({ ((if s.engState x.1 = 5 then s.setEngState x.1 2 else s).idleEngine x.1).refreshHalted with poker := { ((if s.engState x.1 = 5 then s.setEngState x.1 2 else s).idleEngine x.1).refreshHalted.poker with sandbox := none, snapDue := false } }.setFld Reg.pkrStatusSandbox 0).answer .ok 0))

/-- Mailboxes, software sources, the link and discarded host accesses take effect (R12, R482, R485, R487, R502, R506, R525). -/
def Obligations.HostInterfaceCommandsComplete : Prop :=
  (∀ (s : State) (write : Bool) (page : Nat) (off : Nat), s.hostUp = true → pageAssigned page = false → page < 0x400 → exec (.hostUnassignedAccess write page off) s = .next (((s.pciCapture page off).raise Reg.pciEventUnassigned).hostZeros write 4)) ∧
  (∀ (s : State) (write : Bool) (page : Nat) (off : Nat) (size : Nat), s.hostUp = true → barPage page = false → (size ≠ 4 ∨ off % 4 ≠ 0) → exec (.hostAccessDiscard write page off size) s = .next (((s.pciCapture page off).raise Reg.pciEventBadSize).hostZeros write size)) ∧
  (∀ (s : State) (write : Bool) (page : Nat) (off : Nat), s.hostUp = true → barPage page = false → off % 4 = 0 → pageAssigned page = true → s.hostForbidden write page off = true → exec (.hostAccessDiscard write page off 4) s = .next ((s.ownerDiscard page off).hostZeros write 4)) ∧
  (∀ (s : State) (page : Nat) (off : Nat), s.hostUp = true → barPage page = false → off % 4 = 0 → pageAssigned page = true → s.hostForbidden false page off = false → exec (.hostAccessDiscard false page off 4) s = .next ((((s.readReg false page off).2.flueAsk nodeHost .vc3 (regAddr page off) 1).send (.hostData (leBytes 4 (s.readReg false page off).1))))) ∧
  (∀ (s : State) (page : Nat) (off : Nat) (size : Nat), s.hostUp = true → barPage page = true → exec (.hostAccessDiscard false page off size) s = .next (s.send (.hostData (s.barRead page off size)))) ∧
  (∀ (s : State) (m : Fin 16) (b : Block) (tag : W32), s.hostUp = true → (s.mailbox m.val).state = 1 → exec (.mailboxDoorbell m b tag) s = .next (s.setMailbox m.val { s.mailbox m.val with tag := tag })) ∧
  (∀ (s : State) (m : Fin 16) (b : Block) (tag : W32), s.hostUp = true → (s.mailbox m.val).state ≠ 1 → blockCheck b = 0 → 3 ≤ b.kind → exec (.mailboxDoorbell m b tag) s = .next ((s.send (.mailMessage m.val b.kind (b.data.take b.length))).setMailbox m.val ⟨1, 0, tag, b⟩)) ∧
  (∀ (s : State) (m : Fin 16) (b : Block) (tag : W32), s.hostUp = true → (s.mailbox m.val).state ≠ 1 → blockCheck b = 0 → b.kind < 3 → (s.deliverBlock b id).1 = 0 → exec (.mailboxDoorbell m b tag) s = .next ({ (s.deliverBlock b id).2.setMailbox m.val ⟨1, 0, tag, b⟩ with mailOrder := ((s.deliverBlock b id).2.setMailbox m.val ⟨1, 0, tag, b⟩).mailOrder ++ [m.val] })) ∧
  (∀ (s : State) (m : Fin 16) (rest : List Nat), s.mailOrder = m.val :: rest → exec (.mailboxBlockDone m) s = .next (({ s with mailOrder := rest }.setMailbox m.val { ({ s with mailOrder := rest } : State).mailbox m.val with state := 2 }).becamePending s 0)) ∧
  (∀ (s : State) (m : Fin 16) (data : List Byte), s.mailWaits m.val = true → exec (.mailboxReply m data) s = .next ((s.setMailbox m.val { s.mailbox m.val with state := 3, block := { (s.mailbox m.val).block with data := data } }).becamePending s 0)) ∧
  (∀ (s : State) (m : Fin 16), s.hostUp = true → (s.mailbox m.val).state ≠ 1 → exec (.mailboxAck m) s = .next ((s.setMailbox m.val { s.mailbox m.val with state := 0 }).recheck 0)) ∧
  (∀ (s : State) (r : Requester) (v : W32), s.mayWrite r 0x131 = true → exec (.pciSwInt r v) s = .next (s.swInt (bitsOf v.toNat 0 5))) ∧
  (∀ (s : State) (r : Requester) (v : W32), s.mayWrite r 0x131 = true → exec (.pciSwClear r v) s = .next (s.swClear v.toNat)) ∧
  (∀ (s : State) (speed : BitVec 3) (width : BitVec 3), s.hostUp = true → s.pins.perstN = true → exec (.pcieDlActive speed width) s = .next ((s.setFields [(Reg.pciStatusSpeed, speed.toNat), (Reg.pciStatusWidth, width.toNat), (Reg.pciStatusDlActive, 1), (Reg.pciStatusPower, 0)]).tellWake)) ∧
  (∀ (s : State), s.bit Reg.pciStatusDlActive = true → exec (.pcieLinkDown) s = .next ((s.setFld Reg.pciStatusDlActive 0).raise Reg.pciEventLinkDown)) ∧
  (∀ (s : State), s.pins.perstN = true → exec (.perstFall) s = .next ({ s.linkDown.setFields [(Reg.pciStatusSpeed, 0), (Reg.pciStatusWidth, 0), (Reg.pciStatusPower, 0)] with pins := { s.linkDown.pins with perstN := false }, pcie := { State.reset.pcie with pmeEn := s.linkDown.pcie.pmeEn, pmeStatus := s.linkDown.pcie.pmeStatus } }))

/-- The service UART serves each command whose level and operands allow it (R491). -/
def Obligations.UartCommandsComplete : Prop :=
  (∀ (s : State) (tag : Byte), ((s.uartServed = true ∧ 1 ≤ (s.uartReplied).svcLevel)) → exec (.ident tag) s = .next ((s.uartReplied).uartAnswer 0x01 tag .ok ((s.uartReplied).identWord 0x000 0x004 ++ (s.uartReplied).identWord 0x001 0x00C ++ (s.uartReplied).identWord 0x016 0x00C ++ (s.uartReplied).identWord 0x015 0x00C))) ∧
  (∀ (s : State) (tag : Byte) (page : Nat) (off : Nat), ((s.uartServed = true ∧ 1 ≤ (s.uartReplied).svcLevel)) → uartRegOk page off = true → (s.uartReplied).hostForbidden false page off = false → exec (.regRead tag page off) s = .next (((s.uartReplied).readReg false page off).2.uartAnswer 0x02 tag .ok (beBytes 4 ((s.uartReplied).readReg false page off).1))) ∧
  (∀ (s : State) (tag : Byte) (page : Nat) (off : Nat) (v : W32), ((s.uartServed = true ∧ 2 ≤ (s.uartReplied).svcLevel)) → uartRegOk page off = true → (s.uartReplied).hostForbidden true page off = false → exec (.regWrite tag page off v) s = .next (((s.uartReplied).regWrite .uart page off v).uartAnswer 0x03 tag .ok [])) ∧
  (∀ (s : State) (tag : Byte) (off : Nat) (count : Nat), ((s.uartServed = true ∧ 1 ≤ (s.uartReplied).svcLevel)) → 1 ≤ count → count ≤ 64 → exec (.imageRead tag off count) s = .next (((s.uartReplied).hostSlotsFrom off count).2.uartAnswer 0x04 tag .ok (((s.uartReplied).hostSlotsFrom off count).1.flatMap slotBytes))) ∧
  (∀ (s : State) (tag : Byte) (off : Nat) (slots : List (BitVec 64)), ((s.uartServed = true ∧ 2 ≤ (s.uartReplied).svcLevel)) → 1 ≤ slots.length → slots.length ≤ 64 → exec (.imageWrite tag off slots) s = .next ((slots.zipIdx.foldl (fun u p => u.hostStore (off + p.2) p.1.toNat) (s.uartReplied)).uartAnswer 0x05 tag .ok [])) ∧
  (∀ (s : State) (tag : Byte) (b : Block), ((s.uartServed = true ∧ 2 ≤ (s.uartReplied).svcLevel)) → b.data.length = b.length → blockCheck b = 0 → 3 ≤ b.kind → exec (.uartBlock tag b) s = .next ({ (s.uartReplied).send (.uartMessage b.kind b.data) with uartWait := some tag })) ∧
  (∀ (s : State) (tag : Byte) (b : Block), ((s.uartServed = true ∧ 2 ≤ (s.uartReplied).svcLevel)) → b.data.length = b.length → blockCheck b = 0 → b.kind < 3 → (((s.uartReplied).deliverBlock b fun u => u.send (.uartMessage b.kind b.data)).1 = 0) → exec (.uartBlock tag b) s = .next (((s.uartReplied).deliverBlock b fun u => u.send (.uartMessage b.kind b.data)).2.uartAnswer 0x06 tag .ok [0])) ∧
  (∀ (s : State) (tag : Byte) (off : Nat) (len : Nat), ((s.uartServed = true ∧ 1 ≤ (s.uartReplied).svcLevel)) → 1 ≤ len → len ≤ 4096 → off + len ≤ ashLogSize → exec (.logRead tag off len) s = .next ((s.uartReplied).uartAnswer 0x07 tag .ok ((s.uartReplied).flashBytes (ashLogBase + off) len))) ∧
  (∀ (s : State), s.uartWait = none → s.uartReplied = s) ∧
  (∀ (s : State) (tag : Byte), s.uartWait = some tag → s.uartReplied = { s.freeReply.2 with uartWait := none }.uartAnswer 0x06 tag .ok (0 :: s.freeReply.1))

/-- OWNER, the secure partition and range, the ROM exit and the fuse commands take effect (R481, R493, R494, R496, R500). -/
def Obligations.SecurityCommandsComplete : Prop :=
  (∀ (s : State) (page : Nat) (v : W32), s.mainUp = true → pageAssigned page = true → s.pageOff page = false → s.bit (Reg.ownerLock page) = false → (page ≠ 0x003 ∨ s.ember.locked = false) → exec (.ownerWrite .tenderSecure page v) s = .next (s.setFields [(Reg.ownerWorld page, bitsOf v.toNat 0 1), (Reg.ownerHostR page, bitsOf v.toNat 1 1), (Reg.ownerHostW page, bitsOf v.toNat 2 1), (Reg.ownerLock page, bitsOf v.toNat 3 1)])) ∧
  (∀ (s : State) (v : W32), s.mayWrite .tenderSecure 0x009 = true → bitsOf v.toNat 0 4 ≠ 0 → bitsOf v.toNat 0 4 ≤ 11 → Sparse.get s.rwlSet false ((0x009 * 0x1000 + 0x020) * 32) = false → exec (.secLsSplitWrite .tenderSecure v) s = .next ({ s with rwlSet := Sparse.put s.rwlSet false ((0x009 * 0x1000 + 0x020) * 32) true }.setFld Reg.secLsSplitSplit (bitsOf v.toNat 0 4))) ∧
  (∀ (s : State) (limit : Bool) (v : W32), s.mayWrite .tenderSecure 0x009 = true → (s.setFld (if limit then Reg.secDramLimitLimit else Reg.secDramBaseBase) (bitsOf v.toNat 0 16)).tables.any (s.setFld (if limit then Reg.secDramLimitLimit else Reg.secDramBaseBase) (bitsOf v.toNat 0 16)).tableInRange = false → exec (.secDramRangeWrite .tenderSecure limit v) s = .next (s.setFld (if limit then Reg.secDramLimitLimit else Reg.secDramBaseBase) (bitsOf v.toNat 0 16))) ∧
  (∀ (s : State) (v : W32), s.mayWrite .tenderSecure 0x000 = true → bitOf v.toNat 0 = true → s.romOn = true → exec (.tenRomExit .tenderSecure v) s = .next ((s.setCore tenderKey { s.core tenderKey with ls := Sparse.clear (s.core tenderKey).ls 0 0x2000, pc := s.kndEntry }).setFld Reg.tenStatusRom 0)) ∧
  (∀ (s : State) (arg : BitVec 7), s.mayWrite .tenderSecure 0x009 = true → s.fuses.op = none → s.fuseRefused 1 arg.toNat 0 = false → exec (.programOemSlot .tenderSecure arg) s = .next (s.fuseBegin 1 arg.toNat 0)) ∧
  (∀ (s : State) (arg : BitVec 7), s.mayWrite .tenderSecure 0x009 = true → s.fuses.op = none → s.fuseRefused 2 arg.toNat 0 = false → exec (.revokeOemSlot .tenderSecure arg) s = .next (s.fuseBegin 2 arg.toNat 0)) ∧
  (∀ (s : State), s.mayWrite .tenderSecure 0x009 = true → s.fuses.op = none → s.fuseRefused 3 0 0 = false → exec (.blowOemCosign .tenderSecure) s = .next (s.fuseBegin 3 0 0)) ∧
  (∀ (s : State) (arg : BitVec 7), s.mayWrite .tenderSecure 0x009 = true → s.fuses.op = none → s.fuseRefused 4 arg.toNat 0 = false → exec (.setDebugKey .tenderSecure arg) s = .next (s.fuseBegin 4 arg.toNat 0)) ∧
  (∀ (s : State) (arg : BitVec 7) (target : BitVec 7), s.mayWrite .tenderSecure 0x009 = true → s.fuses.op = none → s.fuseRefused 5 arg.toNat target.toNat = false → exec (.advanceAntiRollback .tenderSecure arg target) s = .next (s.fuseBegin 5 arg.toNat target.toNat)) ∧
  (∀ (s : State) (o : Nat × Nat × Nat), s.fuses.op = some o → exec (.fuseDone true) s = .next ({ s with fuses := s.fuses.program o.1 o.2.1 o.2.2 }.fuseEnd o.1 o.2.1 0)) ∧
  (∀ (s : State) (o : Nat × Nat × Nat), s.fuses.op = some o → exec (.fuseDone false) s = .next (s.fuseEnd o.1 o.2.1 2))

/-- An image is received, checked, activated and started, step by step (R511, R513, R514). -/
def Obligations.ReliningCommandsComplete : Prop :=
  (∀ (s : State) (r : Requester), s.mayWrite r 0x007 = true → s.hasDram = true → s.fld Reg.rlnComponentComponent ≠ 7 → s.rlnState ≠ 2 → s.rlnState ≠ 4 → s.otherDown (s.fld Reg.rlnComponentComponent) = false → exec (.rlnBegin r) s = .next (s.rlnBegin (s.fld Reg.rlnComponentComponent))) ∧
  (∀ (s : State) (r : Requester), s.mayWrite r 0x007 = true → (s.rlnState = 1 ∨ s.rlnState = 5) → exec (.rlnFinalize r) s = .next (s.setRln 2)) ∧
  (∀ (s : State), s.rlnState = 2 → exec (.rlnCheckDone) s = .next (s.rlnCheck)) ∧
  (∀ (s : State) (r : Requester), s.mayWrite r 0x007 = true → s.rlnMayNot = false → exec (.rlnActivate r) s = .next (s.rlnActivate)) ∧
  (∀ (s : State) (r : Requester), s.mayWrite r 0x007 = true → s.rlnState ≠ 4 → exec (.rlnAbort r) s = .next (({ s with relining := { s.relining with pages := [] } }.setRln 0).setFields [(Reg.rlnReceivedReceived, 0), (Reg.rlnStagedVersion, 0), (Reg.rlnStagedSecver, 0)])) ∧
  (∀ (s : State) (m : Bool), s.rlnState = 4 → s.relining.restarting = none → s.mantel.pf = 0 → exec (.rlnSlotWritten m) s = .next ((if m = true then s.rlnMatch s.relining.comp (hdrLength s.stagedHeader) else s.rlnMismatch s.relining.comp (hdrLength s.stagedHeader)).readHeld)) ∧
  (∀ (s : State) (comp : Fin 7), s.relining.restarting = some comp.val → exec (.componentStarted comp) s = .next (s.rlnStarted comp.val)) ∧
  (∀ (s : State) (comp : Fin 7), s.relining.restarting = some comp.val → comp.val ≠ 6 → exec (.componentStartTimeout comp) s = .next (({ s with relining := { s.relining with restarting := none } }.rlnDown comp.val 6).downComponent comp.val))

/-- A register write completes: it is the command of its register, or writes the fields that its access types let it write (R10, R12, R482). -/
def Obligations.RegisterWritesActOnceOpen : Prop :=
  (∀ (s : State) (r : Requester) (page : Nat) (off : Nat) (v : W32), s.mayWrite r page = true → barPage page = false → pageAssigned page = true → off ≠ 0x000 → off ≠ 0x01C → ((s.hostCarries r page off v).writeOpLow r page off v).isNone = true → ((s.hostCarries r page off v).writeOpHigh r page off v).isNone = true → ((s.hostCarries r page off v).writeOpMany r page off v).isNone = true → exec (.registerWrite r page off v) s = .next ((s.hostCarries r page off v).plainWrite r page off v.toNat)) ∧
  (∀ (s : State) (r : Requester) (page : Nat) (v : W32), s.mainUp = true → barPage page = false → pageAssigned page = true → exec (.registerWrite r page 0x000 v) s = .next (s)) ∧
  (∀ (r : Requester) (f : Fld) (v : W32) (s : State), f ∈ [Reg.pwrGrateWakeMask, Reg.mntAddrAddr, Reg.mntBufLoBufLo, Reg.rlnComponentComponent, Reg.blwBlockQueryBlock, Reg.edtActClassClass, Reg.edtActCycleLoCycleLo, Reg.edtActCycleHiCycleHi, Reg.eraWitnessPortPort, Reg.chmUdpPortPort, Reg.chmHandshakeRateRate, Reg.chmSessionIdleSeconds] → s.mayWrite r f.page = true → exec (.registerWrite r f.page f.off v) s = .next ((s.hostCarries r f.page f.off v).setFld f (bitsOf v.toNat f.lo f.width))) ∧
  (∀ (r : Requester) (f : Fld) (v : W32) (s : State), f ∈ [Reg.tenEventEnableEnables, Reg.pwrEventEnableEnables, Reg.fgdEventEnableEnables, Reg.swpEventEnableEnables, Reg.mntEventEnableEnables, Reg.ashEventEnableEnables, Reg.rlnEventEnableEnables, Reg.pkrEventEnableEnables, Reg.secEventEnableEnables, Reg.blwEventEnableEnables, Reg.hrtEventEnableEnables, Reg.edtEventEnableEnables, Reg.eraEventEnableEnables, Reg.dmpEventEnableEnables, Reg.grtEventEnableEnables, Reg.chmEventEnableEnables, Reg.hobEventEnableEnables, Reg.pciEventEnableEnables] → s.mayWrite r f.page = true → exec (.registerWrite r f.page 0x014 v) s = .next (((s.hostCarries r f.page 0x014 v).setFld f (bitsOf v.toNat 0 f.width)).becamePending (s.hostCarries r f.page 0x014 v) ((pageSource f.page).getD 0))) ∧
  (∀ (s : State) (r : Requester) (v : W32), s.mayWrite r 0x015 = true → Sparse.get s.rwlSet false (rwlKey 0x015 0x008) = false → exec (.registerWrite r 0x015 0x008 v) s = .next ({ (s.hostCarries r 0x015 0x008 v).setFld Reg.edtControlRequireSig (bitsOf v.toNat 0 1) with rwlSet := Sparse.put s.rwlSet false (rwlKey 0x015 0x008) true })) ∧
  (∀ (s : State) (r : Requester) (v : W32), s.mayWrite r 0x015 = true → Sparse.get s.rwlSet false (rwlKey 0x015 0x008) = true → exec (.registerWrite r 0x015 0x008 v) s = .next (s.hostCarries r 0x015 0x008 v)) ∧
  (∀ (r : Requester) (v : W32) (s : State), s.mayWrite r 0x014 = true → ∃ t, exec (.registerWrite r 0x014 0x010 v) s = .next t ∧ t.fld Reg.hrtEventCorrected = s.fld Reg.hrtEventCorrected - (s.fld Reg.hrtEventCorrected &&& bitsOf v.toNat 0 1)) ∧
  (∀ (r : Requester) (page : Nat) (v : W32) (s : State), (r ≠ .host ∨ barPage page = false) → exec (.registerWrite r page 0x01C v) s = exec (.ownerWrite r page v) s) ∧
  (∀ (r : Requester) (v : W32) (s : State), s.answers r = true → exec (.registerWrite r 0x131 0x028 v) s = exec (.pciSwInt r v) (s.hostCarries r 0x131 0x028 v)) ∧
  (∀ (r : Requester) (v : W32) (s : State), s.answers r = true → exec (.registerWrite r 0x131 0x02C v) s = exec (.pciSwClear r v) (s.hostCarries r 0x131 0x02C v))
end

