-- ==== Sys2Proof/Laws/Sparse.lean ====
section
/-! SUPPORT. The laws of sparse stores: a read after a write, and that every operation keeps the canonical form. -/

namespace Sys2Proof.Machine

variable {α : Type}

theorem Sparse.get_erase_same (m : Sparse α) (d : α) (k : Nat) : Sparse.get (Sparse.erase m k) d k = d := by
  induction m with
  | nil => rfl
  | cons e rest ih =>
    obtain ⟨a, v⟩ := e
    by_cases h : a = k <;> simp [Sparse.erase, Sparse.get, h, ih]

theorem Sparse.get_erase_other (m : Sparse α) (d : α) {k j : Nat} (h : j ≠ k) :
    Sparse.get (Sparse.erase m k) d j = Sparse.get m d j := by
  induction m with
  | nil => rfl
  | cons e rest ih =>
    obtain ⟨a, v⟩ := e
    by_cases ha : a = k
    · subst ha; simp [Sparse.erase, Sparse.get, ih, Ne.symm h]
    · by_cases hj : a = j
      · subst hj; simp [Sparse.erase, Sparse.get, ha]
      · simp [Sparse.erase, Sparse.get, ha, hj, ih]

theorem Sparse.get_insert_same (m : Sparse α) (d : α) (k : Nat) (v : α) (hm : ∀ e ∈ m, e.1 ≠ k) :
    Sparse.get (Sparse.insert m k v) d k = v := by
  induction m with
  | nil => simp [Sparse.insert, Sparse.get]
  | cons e rest ih =>
    obtain ⟨a, u⟩ := e
    by_cases h : k < a
    · simp [Sparse.insert, Sparse.get, h]
    · have ha : a ≠ k := hm (a, u) (by simp)
      simp [Sparse.insert, Sparse.get, h, ha, ih fun e he => hm e (by simp [he])]

theorem Sparse.get_insert_other (m : Sparse α) (d : α) {k j : Nat} (v : α) (h : j ≠ k) :
    Sparse.get (Sparse.insert m k v) d j = Sparse.get m d j := by
  induction m with
  | nil => simp [Sparse.insert, Sparse.get, Ne.symm h]
  | cons e rest ih =>
    obtain ⟨a, u⟩ := e
    by_cases hk : k < a
    · simp [Sparse.insert, Sparse.get, hk, Ne.symm h]
    · by_cases hj : a = j
      · subst hj; simp [Sparse.insert, Sparse.get, hk]
      · simp [Sparse.insert, Sparse.get, hk, hj, ih]

theorem Sparse.erase_no_key (m : Sparse α) (k : Nat) : ∀ e ∈ Sparse.erase m k, e.1 ≠ k := by
  induction m with
  | nil => simp [Sparse.erase]
  | cons e rest ih =>
    obtain ⟨a, u⟩ := e
    by_cases h : a = k
    · simpa [Sparse.erase, h] using ih
    · simp only [Sparse.erase, h, if_false, List.mem_cons, forall_eq_or_imp]
      exact ⟨h, ih⟩

/-- A read of the key just written gives the value written. -/
@[simp] theorem Sparse.get_put_same [DecidableEq α] (m : Sparse α) (d : α) (k : Nat) (v : α) :
    Sparse.get (Sparse.put m d k v) d k = v := by
  unfold Sparse.put
  split
  · next h => rw [Sparse.get_erase_same, h]
  · exact Sparse.get_insert_same _ _ _ _ (Sparse.erase_no_key m k)

/-- A write leaves every other key alone. -/
theorem Sparse.get_put_other [DecidableEq α] (m : Sparse α) (d c : α) {k j : Nat} (v : α) (h : j ≠ k) :
    Sparse.get (Sparse.put m d k v) c j = Sparse.get m c j := by
  unfold Sparse.put
  split
  · exact Sparse.get_erase_other m c h
  · rw [Sparse.get_insert_other _ _ _ h, Sparse.get_erase_other m c h]

theorem Sparse.above_cons {a : Nat} {e : Nat × α} {m : Sparse α} :
    Sparse.above a (e :: m) = true ↔ a < e.1 ∧ Sparse.above a m = true := by
  unfold Sparse.above; rw [List.all_cons, Bool.and_eq_true, decide_eq_true_eq]

theorem Sparse.above_erase {m : Sparse α} {a k : Nat} (h : Sparse.above a m = true) : Sparse.above a (Sparse.erase m k) = true := by
  induction m with
  | nil => simp [Sparse.erase, Sparse.above]
  | cons e rest ih =>
    obtain ⟨b, u⟩ := e
    rw [Sparse.above_cons] at h
    by_cases hb : b = k
    · simpa only [Sparse.erase, hb, if_true] using ih h.2
    · simp only [Sparse.erase, hb, if_false]
      exact Sparse.above_cons.2 ⟨h.1, ih h.2⟩

theorem Sparse.above_insert {m : Sparse α} {a k : Nat} {v : α} (h : Sparse.above a m = true) (hk : a < k) :
    Sparse.above a (Sparse.insert m k v) = true := by
  induction m with
  | nil => simp [Sparse.insert, Sparse.above, hk]
  | cons e rest ih =>
    obtain ⟨b, u⟩ := e
    by_cases hb : k < b
    · simp only [Sparse.insert, hb, if_true]
      exact Sparse.above_cons.2 ⟨hk, h⟩
    · simp only [Sparse.insert, hb, if_false]
      exact Sparse.above_cons.2 ⟨(Sparse.above_cons.1 h).1, ih (Sparse.above_cons.1 h).2⟩

theorem Sparse.above_trans {m : Sparse α} {a b : Nat} (h : Sparse.above a m = true) (hb : b ≤ a) : Sparse.above b m = true := by
  simp only [Sparse.above, List.all_eq_true, decide_eq_true_eq] at *
  exact fun e he => Nat.lt_of_le_of_lt hb (h e he)

theorem Sparse.above_filter {m : Sparse α} {a : Nat} (p : Nat × α → Bool) (h : Sparse.above a m = true) :
    Sparse.above a (m.filter p) = true := by
  simp only [Sparse.above, List.all_eq_true, List.mem_filter] at *
  exact fun e he => h e he.1

theorem Sparse.wf_erase [DecidableEq α] {d : α} {m : Sparse α} {k : Nat} (h : Sparse.wf d m = true) :
    Sparse.wf d (Sparse.erase m k) = true := by
  induction m with
  | nil => exact h
  | cons e rest ih =>
    obtain ⟨a, u⟩ := e
    simp only [Sparse.wf, Bool.and_eq_true] at h
    by_cases ha : a = k
    · simpa [Sparse.erase, ha] using ih h.2
    · simp [Sparse.erase, ha, Sparse.wf, Sparse.above_erase h.1.1, ih h.2]
      simpa using h.1.2

theorem Sparse.wf_insert [DecidableEq α] {d : α} {m : Sparse α} {k : Nat} {v : α} (h : Sparse.wf d m = true) (hv : v ≠ d)
    (hm : ∀ e ∈ m, e.1 ≠ k) : Sparse.wf d (Sparse.insert m k v) = true := by
  induction m with
  | nil => simp [Sparse.insert, Sparse.wf, Sparse.above, hv]
  | cons e rest ih =>
    obtain ⟨a, u⟩ := e
    have h0 := h
    simp only [Sparse.wf, Bool.and_eq_true] at h
    by_cases hk : k < a
    · have hab : Sparse.above k ((a, u) :: rest) = true :=
        Sparse.above_cons.2 ⟨hk, Sparse.above_trans h.1.1 (Nat.le_of_lt hk)⟩
      simp only [Sparse.insert, hk, if_true, Sparse.wf, Bool.and_eq_true]
      exact ⟨⟨hab, by simpa using hv⟩, h⟩
    · have ha : a ≠ k := hm (a, u) (by simp)
      have hlt : a < k := by omega
      simp only [Sparse.insert, hk, if_false, Sparse.wf, Bool.and_eq_true]
      exact ⟨⟨Sparse.above_insert h.1.1 hlt, h.1.2⟩, ih h.2 fun e he => hm e (by simp [he])⟩

/-- A write keeps the canonical form. -/
theorem Sparse.wf_put [DecidableEq α] {d : α} {m : Sparse α} (k : Nat) (v : α) (h : Sparse.wf d m = true) :
    Sparse.wf d (Sparse.put m d k v) = true := by
  unfold Sparse.put
  split
  · exact Sparse.wf_erase h
  · next hv => exact Sparse.wf_insert (Sparse.wf_erase h) hv (Sparse.erase_no_key m k)

/-- A run of writes keeps the canonical form. -/
theorem Sparse.wf_putMany [DecidableEq α] {d : α} (vs : List α) : ∀ {m : Sparse α} (k : Nat), Sparse.wf d m = true →
    Sparse.wf d (Sparse.putMany m d k vs) = true := by
  induction vs with
  | nil => exact fun _ h => h
  | cons v rest ih => exact fun k h => ih (k + 1) (Sparse.wf_put k v h)

theorem Sparse.wf_filter [DecidableEq α] {d : α} {m : Sparse α} (p : Nat × α → Bool) (h : Sparse.wf d m = true) :
    Sparse.wf d (m.filter p) = true := by
  induction m with
  | nil => exact h
  | cons e rest ih =>
    obtain ⟨a, u⟩ := e
    simp only [Sparse.wf, Bool.and_eq_true] at h
    by_cases hp : p (a, u) = true
    · simp only [List.filter_cons_of_pos hp, Sparse.wf, Bool.and_eq_true]
      exact ⟨⟨Sparse.above_filter p h.1.1, h.1.2⟩, ih h.2⟩
    · simpa [List.filter_cons, hp] using ih h.2

/-- A cleared range keeps the canonical form. -/
theorem Sparse.wf_clear [DecidableEq α] {d : α} {m : Sparse α} (lo hi : Nat) (h : Sparse.wf d m = true) :
    Sparse.wf d (Sparse.clear m lo hi) = true := Sparse.wf_filter _ h

/-- What holds of every entry and of the value written holds of every entry after the write. -/
theorem Sparse.all_put [DecidableEq α] {p : Nat × α → Bool} {m : Sparse α} {d : α} {k : Nat} {v : α} (hm : m.all p = true)
    (hv : p (k, v) = true) : (Sparse.put m d k v).all p = true := by
  have he : (Sparse.erase m k).all p = true := by
    induction m with
    | nil => rfl
    | cons e rest ih =>
      obtain ⟨a, u⟩ := e
      simp only [List.all_cons, Bool.and_eq_true] at hm
      by_cases h : a = k <;> simp [Sparse.erase, h, ih hm.2, hm.1]
  have hi : ∀ l : Sparse α, l.all p = true → (Sparse.insert l k v).all p = true := by
    intro l hl
    induction l with
    | nil => simpa [Sparse.insert] using hv
    | cons e rest ih =>
      obtain ⟨a, u⟩ := e
      simp only [List.all_cons, Bool.and_eq_true] at hl
      by_cases h : k < a <;> simp [Sparse.insert, h, hv, hl, ih hl.2]
  unfold Sparse.put
  split
  · exact he
  · exact hi _ he

/-- What holds of every entry and of the default holds of what any key reads as. -/
theorem Sparse.get_of_all {p : α → Bool} {m : Sparse α} {d : α} (hm : m.all (fun e => p e.2) = true) (hd : p d = true) (k : Nat) :
    p (Sparse.get m d k) = true := by
  induction m with
  | nil => exact hd
  | cons e rest ih =>
    obtain ⟨a, u⟩ := e
    simp only [List.all_cons, Bool.and_eq_true] at hm
    by_cases h : a = k <;> simp [Sparse.get, h, hm.1, ih hm.2]

end Sys2Proof.Machine
end

