-- ==== Sys2Proof/Laws/State.lean ====
section
/-! SUPPORT. What each update of the state leaves in each field: one lemma per field per update, true by unfolding. -/

namespace Sys2Proof.Machine

variable (s : State)

/-! `State.setFld` -/

@[simp] theorem State.setFld_pending (f : Fld) (v : Nat) : (s.setFld f v).pending = s.pending := rfl
@[simp] theorem State.setFld_out (f : Fld) (v : Nat) : (s.setFld f v).out = s.out := rfl
@[simp] theorem State.setFld_freeCtr (f : Fld) (v : Nat) : (s.setFld f v).freeCtr = s.freeCtr := rfl
@[simp] theorem State.setFld_regs (f : Fld) (v : Nat) : (s.setFld f v).regs = Sparse.put s.regs f.reset f.key (v % 2 ^ f.width) := rfl
@[simp] theorem State.setFld_rwlSet (f : Fld) (v : Nat) : (s.setFld f v).rwlSet = s.rwlSet := rfl
@[simp] theorem State.setFld_pins (f : Fld) (v : Nat) : (s.setFld f v).pins = s.pins := rfl
@[simp] theorem State.setFld_fit (f : Fld) (v : Nat) : (s.setFld f v).fit = s.fit := rfl
@[simp] theorem State.setFld_kindling (f : Fld) (v : Nat) : (s.setFld f v).kindling = s.kindling := rfl
@[simp] theorem State.setFld_bankedFrom (f : Fld) (v : Nat) : (s.setFld f v).bankedFrom = s.bankedFrom := rfl
@[simp] theorem State.setFld_raking (f : Fld) (v : Nat) : (s.setFld f v).raking = s.raking := rfl
@[simp] theorem State.setFld_owners (f : Fld) (v : Nat) : (s.setFld f v).owners = s.owners := rfl
@[simp] theorem State.setFld_started (f : Fld) (v : Nat) : (s.setFld f v).started = s.started := rfl
@[simp] theorem State.setFld_cores (f : Fld) (v : Nat) : (s.setFld f v).cores = s.cores := rfl
@[simp] theorem State.setFld_loaded (f : Fld) (v : Nat) : (s.setFld f v).loaded = s.loaded := rfl
@[simp] theorem State.setFld_hearth (f : Fld) (v : Nat) : (s.setFld f v).hearth = s.hearth := rfl
@[simp] theorem State.setFld_dram (f : Fld) (v : Nat) : (s.setFld f v).dram = s.dram := rfl
@[simp] theorem State.setFld_dramBad (f : Fld) (v : Nat) : (s.setFld f v).dramBad = s.dramBad := rfl
@[simp] theorem State.setFld_flue (f : Fld) (v : Nat) : (s.setFld f v).flue = s.flue := rfl
@[simp] theorem State.setFld_bellows (f : Fld) (v : Nat) : (s.setFld f v).bellows = s.bellows := rfl
@[simp] theorem State.setFld_blaze (f : Fld) (v : Nat) : (s.setFld f v).blaze = s.blaze := rfl
@[simp] theorem State.setFld_glow (f : Fld) (v : Nat) : (s.setFld f v).glow = s.glow := rfl
@[simp] theorem State.setFld_smoulder (f : Fld) (v : Nat) : (s.setFld f v).smoulder = s.smoulder := rfl
@[simp] theorem State.setFld_edit (f : Fld) (v : Nat) : (s.setFld f v).edit = s.edit := rfl
@[simp] theorem State.setFld_sessions (f : Fld) (v : Nat) : (s.setFld f v).sessions = s.sessions := rfl
@[simp] theorem State.setFld_stations (f : Fld) (v : Nat) : (s.setFld f v).stations = s.stations := rfl
@[simp] theorem State.setFld_addrTable (f : Fld) (v : Nat) : (s.setFld f v).addrTable = s.addrTable := rfl
@[simp] theorem State.setFld_handshakes (f : Fld) (v : Nat) : (s.setFld f v).handshakes = s.handshakes := rfl
@[simp] theorem State.setFld_hob (f : Fld) (v : Nat) : (s.setFld f v).hob = s.hob := rfl
@[simp] theorem State.setFld_erair (f : Fld) (v : Nat) : (s.setFld f v).erair = s.erair := rfl
@[simp] theorem State.setFld_turnspit (f : Fld) (v : Nat) : (s.setFld f v).turnspit = s.turnspit := rfl
@[simp] theorem State.setFld_grate (f : Fld) (v : Nat) : (s.setFld f v).grate = s.grate := rfl
@[simp] theorem State.setFld_mantel (f : Fld) (v : Nat) : (s.setFld f v).mantel = s.mantel := rfl
@[simp] theorem State.setFld_ashpit (f : Fld) (v : Nat) : (s.setFld f v).ashpit = s.ashpit := rfl
@[simp] theorem State.setFld_ember (f : Fld) (v : Nat) : (s.setFld f v).ember = s.ember := rfl
@[simp] theorem State.setFld_fireguard (f : Fld) (v : Nat) : (s.setFld f v).fireguard = s.fireguard := rfl
@[simp] theorem State.setFld_sweepTest (f : Fld) (v : Nat) : (s.setFld f v).sweepTest = s.sweepTest := rfl
@[simp] theorem State.setFld_poker (f : Fld) (v : Nat) : (s.setFld f v).poker = s.poker := rfl
@[simp] theorem State.setFld_mailboxes (f : Fld) (v : Nat) : (s.setFld f v).mailboxes = s.mailboxes := rfl
@[simp] theorem State.setFld_mailOrder (f : Fld) (v : Nat) : (s.setFld f v).mailOrder = s.mailOrder := rfl
@[simp] theorem State.setFld_uartWait (f : Fld) (v : Nat) : (s.setFld f v).uartWait = s.uartWait := rfl
@[simp] theorem State.setFld_pcie (f : Fld) (v : Nat) : (s.setFld f v).pcie = s.pcie := rfl
@[simp] theorem State.setFld_fuses (f : Fld) (v : Nat) : (s.setFld f v).fuses = s.fuses := rfl
@[simp] theorem State.setFld_relining (f : Fld) (v : Nat) : (s.setFld f v).relining = s.relining := rfl

/-! `State.send` -/

@[simp] theorem State.send_pending (o : Output) : (s.send o).pending = s.pending := rfl
@[simp] theorem State.send_out (o : Output) : (s.send o).out = s.out ++ [o] := rfl
@[simp] theorem State.send_freeCtr (o : Output) : (s.send o).freeCtr = s.freeCtr := rfl
@[simp] theorem State.send_regs (o : Output) : (s.send o).regs = s.regs := rfl
@[simp] theorem State.send_rwlSet (o : Output) : (s.send o).rwlSet = s.rwlSet := rfl
@[simp] theorem State.send_pins (o : Output) : (s.send o).pins = s.pins := rfl
@[simp] theorem State.send_fit (o : Output) : (s.send o).fit = s.fit := rfl
@[simp] theorem State.send_kindling (o : Output) : (s.send o).kindling = s.kindling := rfl
@[simp] theorem State.send_bankedFrom (o : Output) : (s.send o).bankedFrom = s.bankedFrom := rfl
@[simp] theorem State.send_raking (o : Output) : (s.send o).raking = s.raking := rfl
@[simp] theorem State.send_owners (o : Output) : (s.send o).owners = s.owners := rfl
@[simp] theorem State.send_started (o : Output) : (s.send o).started = s.started := rfl
@[simp] theorem State.send_cores (o : Output) : (s.send o).cores = s.cores := rfl
@[simp] theorem State.send_loaded (o : Output) : (s.send o).loaded = s.loaded := rfl
@[simp] theorem State.send_hearth (o : Output) : (s.send o).hearth = s.hearth := rfl
@[simp] theorem State.send_dram (o : Output) : (s.send o).dram = s.dram := rfl
@[simp] theorem State.send_dramBad (o : Output) : (s.send o).dramBad = s.dramBad := rfl
@[simp] theorem State.send_flue (o : Output) : (s.send o).flue = s.flue := rfl
@[simp] theorem State.send_bellows (o : Output) : (s.send o).bellows = s.bellows := rfl
@[simp] theorem State.send_blaze (o : Output) : (s.send o).blaze = s.blaze := rfl
@[simp] theorem State.send_glow (o : Output) : (s.send o).glow = s.glow := rfl
@[simp] theorem State.send_smoulder (o : Output) : (s.send o).smoulder = s.smoulder := rfl
@[simp] theorem State.send_edit (o : Output) : (s.send o).edit = s.edit := rfl
@[simp] theorem State.send_sessions (o : Output) : (s.send o).sessions = s.sessions := rfl
@[simp] theorem State.send_stations (o : Output) : (s.send o).stations = s.stations := rfl
@[simp] theorem State.send_addrTable (o : Output) : (s.send o).addrTable = s.addrTable := rfl
@[simp] theorem State.send_handshakes (o : Output) : (s.send o).handshakes = s.handshakes := rfl
@[simp] theorem State.send_hob (o : Output) : (s.send o).hob = s.hob := rfl
@[simp] theorem State.send_erair (o : Output) : (s.send o).erair = s.erair := rfl
@[simp] theorem State.send_turnspit (o : Output) : (s.send o).turnspit = s.turnspit := rfl
@[simp] theorem State.send_grate (o : Output) : (s.send o).grate = s.grate := rfl
@[simp] theorem State.send_mantel (o : Output) : (s.send o).mantel = s.mantel := rfl
@[simp] theorem State.send_ashpit (o : Output) : (s.send o).ashpit = s.ashpit := rfl
@[simp] theorem State.send_ember (o : Output) : (s.send o).ember = s.ember := rfl
@[simp] theorem State.send_fireguard (o : Output) : (s.send o).fireguard = s.fireguard := rfl
@[simp] theorem State.send_sweepTest (o : Output) : (s.send o).sweepTest = s.sweepTest := rfl
@[simp] theorem State.send_poker (o : Output) : (s.send o).poker = s.poker := rfl
@[simp] theorem State.send_mailboxes (o : Output) : (s.send o).mailboxes = s.mailboxes := rfl
@[simp] theorem State.send_mailOrder (o : Output) : (s.send o).mailOrder = s.mailOrder := rfl
@[simp] theorem State.send_uartWait (o : Output) : (s.send o).uartWait = s.uartWait := rfl
@[simp] theorem State.send_pcie (o : Output) : (s.send o).pcie = s.pcie := rfl
@[simp] theorem State.send_fuses (o : Output) : (s.send o).fuses = s.fuses := rfl
@[simp] theorem State.send_relining (o : Output) : (s.send o).relining = s.relining := rfl

/-! `State.setDram` -/

@[simp] theorem State.setDram_pending (a : Nat) (v : W36) : (s.setDram a v).pending = s.pending := rfl
@[simp] theorem State.setDram_out (a : Nat) (v : W36) : (s.setDram a v).out = s.out := rfl
@[simp] theorem State.setDram_freeCtr (a : Nat) (v : W36) : (s.setDram a v).freeCtr = s.freeCtr := rfl
@[simp] theorem State.setDram_regs (a : Nat) (v : W36) : (s.setDram a v).regs = s.regs := rfl
@[simp] theorem State.setDram_rwlSet (a : Nat) (v : W36) : (s.setDram a v).rwlSet = s.rwlSet := rfl
@[simp] theorem State.setDram_pins (a : Nat) (v : W36) : (s.setDram a v).pins = s.pins := rfl
@[simp] theorem State.setDram_fit (a : Nat) (v : W36) : (s.setDram a v).fit = s.fit := rfl
@[simp] theorem State.setDram_kindling (a : Nat) (v : W36) : (s.setDram a v).kindling = s.kindling := rfl
@[simp] theorem State.setDram_bankedFrom (a : Nat) (v : W36) : (s.setDram a v).bankedFrom = s.bankedFrom := rfl
@[simp] theorem State.setDram_raking (a : Nat) (v : W36) : (s.setDram a v).raking = s.raking := rfl
@[simp] theorem State.setDram_owners (a : Nat) (v : W36) : (s.setDram a v).owners = s.owners := rfl
@[simp] theorem State.setDram_started (a : Nat) (v : W36) : (s.setDram a v).started = s.started := rfl
@[simp] theorem State.setDram_cores (a : Nat) (v : W36) : (s.setDram a v).cores = s.cores := rfl
@[simp] theorem State.setDram_loaded (a : Nat) (v : W36) : (s.setDram a v).loaded = s.loaded := rfl
@[simp] theorem State.setDram_hearth (a : Nat) (v : W36) : (s.setDram a v).hearth = s.hearth := rfl
@[simp] theorem State.setDram_dram (a : Nat) (v : W36) : (s.setDram a v).dram = Sparse.put s.dram 0 a v := rfl
@[simp] theorem State.setDram_dramBad (a : Nat) (v : W36) : (s.setDram a v).dramBad = s.dramBad.filter (· ≠ a) := rfl
@[simp] theorem State.setDram_flue (a : Nat) (v : W36) : (s.setDram a v).flue = s.flue := rfl
@[simp] theorem State.setDram_bellows (a : Nat) (v : W36) : (s.setDram a v).bellows = s.bellows := rfl
@[simp] theorem State.setDram_blaze (a : Nat) (v : W36) : (s.setDram a v).blaze = s.blaze := rfl
@[simp] theorem State.setDram_glow (a : Nat) (v : W36) : (s.setDram a v).glow = s.glow := rfl
@[simp] theorem State.setDram_smoulder (a : Nat) (v : W36) : (s.setDram a v).smoulder = s.smoulder := rfl
@[simp] theorem State.setDram_edit (a : Nat) (v : W36) : (s.setDram a v).edit = s.edit := rfl
@[simp] theorem State.setDram_sessions (a : Nat) (v : W36) : (s.setDram a v).sessions = s.sessions := rfl
@[simp] theorem State.setDram_stations (a : Nat) (v : W36) : (s.setDram a v).stations = s.stations := rfl
@[simp] theorem State.setDram_addrTable (a : Nat) (v : W36) : (s.setDram a v).addrTable = s.addrTable := rfl
@[simp] theorem State.setDram_handshakes (a : Nat) (v : W36) : (s.setDram a v).handshakes = s.handshakes := rfl
@[simp] theorem State.setDram_hob (a : Nat) (v : W36) : (s.setDram a v).hob = s.hob := rfl
@[simp] theorem State.setDram_erair (a : Nat) (v : W36) : (s.setDram a v).erair = s.erair := rfl
@[simp] theorem State.setDram_turnspit (a : Nat) (v : W36) : (s.setDram a v).turnspit = s.turnspit := rfl
@[simp] theorem State.setDram_grate (a : Nat) (v : W36) : (s.setDram a v).grate = s.grate := rfl
@[simp] theorem State.setDram_mantel (a : Nat) (v : W36) : (s.setDram a v).mantel = s.mantel := rfl
@[simp] theorem State.setDram_ashpit (a : Nat) (v : W36) : (s.setDram a v).ashpit = s.ashpit := rfl
@[simp] theorem State.setDram_ember (a : Nat) (v : W36) : (s.setDram a v).ember = s.ember := rfl
@[simp] theorem State.setDram_fireguard (a : Nat) (v : W36) : (s.setDram a v).fireguard = s.fireguard := rfl
@[simp] theorem State.setDram_sweepTest (a : Nat) (v : W36) : (s.setDram a v).sweepTest = s.sweepTest := rfl
@[simp] theorem State.setDram_poker (a : Nat) (v : W36) : (s.setDram a v).poker = s.poker := rfl
@[simp] theorem State.setDram_mailboxes (a : Nat) (v : W36) : (s.setDram a v).mailboxes = s.mailboxes := rfl
@[simp] theorem State.setDram_mailOrder (a : Nat) (v : W36) : (s.setDram a v).mailOrder = s.mailOrder := rfl
@[simp] theorem State.setDram_uartWait (a : Nat) (v : W36) : (s.setDram a v).uartWait = s.uartWait := rfl
@[simp] theorem State.setDram_pcie (a : Nat) (v : W36) : (s.setDram a v).pcie = s.pcie := rfl
@[simp] theorem State.setDram_fuses (a : Nat) (v : W36) : (s.setDram a v).fuses = s.fuses := rfl
@[simp] theorem State.setDram_relining (a : Nat) (v : W36) : (s.setDram a v).relining = s.relining := rfl

/-! `State.setCore` -/

@[simp] theorem State.setCore_pending (k : Nat) (x : Core) : (s.setCore k x).pending = s.pending := rfl
@[simp] theorem State.setCore_out (k : Nat) (x : Core) : (s.setCore k x).out = s.out := rfl
@[simp] theorem State.setCore_freeCtr (k : Nat) (x : Core) : (s.setCore k x).freeCtr = s.freeCtr := rfl
@[simp] theorem State.setCore_regs (k : Nat) (x : Core) : (s.setCore k x).regs = s.regs := rfl
@[simp] theorem State.setCore_rwlSet (k : Nat) (x : Core) : (s.setCore k x).rwlSet = s.rwlSet := rfl
@[simp] theorem State.setCore_pins (k : Nat) (x : Core) : (s.setCore k x).pins = s.pins := rfl
@[simp] theorem State.setCore_fit (k : Nat) (x : Core) : (s.setCore k x).fit = s.fit := rfl
@[simp] theorem State.setCore_kindling (k : Nat) (x : Core) : (s.setCore k x).kindling = s.kindling := rfl
@[simp] theorem State.setCore_bankedFrom (k : Nat) (x : Core) : (s.setCore k x).bankedFrom = s.bankedFrom := rfl
@[simp] theorem State.setCore_raking (k : Nat) (x : Core) : (s.setCore k x).raking = s.raking := rfl
@[simp] theorem State.setCore_owners (k : Nat) (x : Core) : (s.setCore k x).owners = s.owners := rfl
@[simp] theorem State.setCore_started (k : Nat) (x : Core) : (s.setCore k x).started = s.started := rfl
@[simp] theorem State.setCore_cores (k : Nat) (x : Core) : (s.setCore k x).cores = Sparse.put s.cores (Core.reset k) k x := rfl
@[simp] theorem State.setCore_loaded (k : Nat) (x : Core) : (s.setCore k x).loaded = s.loaded := rfl
@[simp] theorem State.setCore_hearth (k : Nat) (x : Core) : (s.setCore k x).hearth = s.hearth := rfl
@[simp] theorem State.setCore_dram (k : Nat) (x : Core) : (s.setCore k x).dram = s.dram := rfl
@[simp] theorem State.setCore_dramBad (k : Nat) (x : Core) : (s.setCore k x).dramBad = s.dramBad := rfl
@[simp] theorem State.setCore_flue (k : Nat) (x : Core) : (s.setCore k x).flue = s.flue := rfl
@[simp] theorem State.setCore_bellows (k : Nat) (x : Core) : (s.setCore k x).bellows = s.bellows := rfl
@[simp] theorem State.setCore_blaze (k : Nat) (x : Core) : (s.setCore k x).blaze = s.blaze := rfl
@[simp] theorem State.setCore_glow (k : Nat) (x : Core) : (s.setCore k x).glow = s.glow := rfl
@[simp] theorem State.setCore_smoulder (k : Nat) (x : Core) : (s.setCore k x).smoulder = s.smoulder := rfl
@[simp] theorem State.setCore_edit (k : Nat) (x : Core) : (s.setCore k x).edit = s.edit := rfl
@[simp] theorem State.setCore_sessions (k : Nat) (x : Core) : (s.setCore k x).sessions = s.sessions := rfl
@[simp] theorem State.setCore_stations (k : Nat) (x : Core) : (s.setCore k x).stations = s.stations := rfl
@[simp] theorem State.setCore_addrTable (k : Nat) (x : Core) : (s.setCore k x).addrTable = s.addrTable := rfl
@[simp] theorem State.setCore_handshakes (k : Nat) (x : Core) : (s.setCore k x).handshakes = s.handshakes := rfl
@[simp] theorem State.setCore_hob (k : Nat) (x : Core) : (s.setCore k x).hob = s.hob := rfl
@[simp] theorem State.setCore_erair (k : Nat) (x : Core) : (s.setCore k x).erair = s.erair := rfl
@[simp] theorem State.setCore_turnspit (k : Nat) (x : Core) : (s.setCore k x).turnspit = s.turnspit := rfl
@[simp] theorem State.setCore_grate (k : Nat) (x : Core) : (s.setCore k x).grate = s.grate := rfl
@[simp] theorem State.setCore_mantel (k : Nat) (x : Core) : (s.setCore k x).mantel = s.mantel := rfl
@[simp] theorem State.setCore_ashpit (k : Nat) (x : Core) : (s.setCore k x).ashpit = s.ashpit := rfl
@[simp] theorem State.setCore_ember (k : Nat) (x : Core) : (s.setCore k x).ember = s.ember := rfl
@[simp] theorem State.setCore_fireguard (k : Nat) (x : Core) : (s.setCore k x).fireguard = s.fireguard := rfl
@[simp] theorem State.setCore_sweepTest (k : Nat) (x : Core) : (s.setCore k x).sweepTest = s.sweepTest := rfl
@[simp] theorem State.setCore_poker (k : Nat) (x : Core) : (s.setCore k x).poker = s.poker := rfl
@[simp] theorem State.setCore_mailboxes (k : Nat) (x : Core) : (s.setCore k x).mailboxes = s.mailboxes := rfl
@[simp] theorem State.setCore_mailOrder (k : Nat) (x : Core) : (s.setCore k x).mailOrder = s.mailOrder := rfl
@[simp] theorem State.setCore_uartWait (k : Nat) (x : Core) : (s.setCore k x).uartWait = s.uartWait := rfl
@[simp] theorem State.setCore_pcie (k : Nat) (x : Core) : (s.setCore k x).pcie = s.pcie := rfl
@[simp] theorem State.setCore_fuses (k : Nat) (x : Core) : (s.setCore k x).fuses = s.fuses := rfl
@[simp] theorem State.setCore_relining (k : Nat) (x : Core) : (s.setCore k x).relining = s.relining := rfl

/-! `State.setStation` -/

@[simp] theorem State.setStation_pending (n : Nat) (x : StationRt) : (s.setStation n x).pending = s.pending := rfl
@[simp] theorem State.setStation_out (n : Nat) (x : StationRt) : (s.setStation n x).out = s.out := rfl
@[simp] theorem State.setStation_freeCtr (n : Nat) (x : StationRt) : (s.setStation n x).freeCtr = s.freeCtr := rfl
@[simp] theorem State.setStation_regs (n : Nat) (x : StationRt) : (s.setStation n x).regs = s.regs := rfl
@[simp] theorem State.setStation_rwlSet (n : Nat) (x : StationRt) : (s.setStation n x).rwlSet = s.rwlSet := rfl
@[simp] theorem State.setStation_pins (n : Nat) (x : StationRt) : (s.setStation n x).pins = s.pins := rfl
@[simp] theorem State.setStation_fit (n : Nat) (x : StationRt) : (s.setStation n x).fit = s.fit := rfl
@[simp] theorem State.setStation_kindling (n : Nat) (x : StationRt) : (s.setStation n x).kindling = s.kindling := rfl
@[simp] theorem State.setStation_bankedFrom (n : Nat) (x : StationRt) : (s.setStation n x).bankedFrom = s.bankedFrom := rfl
@[simp] theorem State.setStation_raking (n : Nat) (x : StationRt) : (s.setStation n x).raking = s.raking := rfl
@[simp] theorem State.setStation_owners (n : Nat) (x : StationRt) : (s.setStation n x).owners = s.owners := rfl
@[simp] theorem State.setStation_started (n : Nat) (x : StationRt) : (s.setStation n x).started = s.started := rfl
@[simp] theorem State.setStation_cores (n : Nat) (x : StationRt) : (s.setStation n x).cores = s.cores := rfl
@[simp] theorem State.setStation_loaded (n : Nat) (x : StationRt) : (s.setStation n x).loaded = s.loaded := rfl
@[simp] theorem State.setStation_hearth (n : Nat) (x : StationRt) : (s.setStation n x).hearth = s.hearth := rfl
@[simp] theorem State.setStation_dram (n : Nat) (x : StationRt) : (s.setStation n x).dram = s.dram := rfl
@[simp] theorem State.setStation_dramBad (n : Nat) (x : StationRt) : (s.setStation n x).dramBad = s.dramBad := rfl
@[simp] theorem State.setStation_flue (n : Nat) (x : StationRt) : (s.setStation n x).flue = s.flue := rfl
@[simp] theorem State.setStation_bellows (n : Nat) (x : StationRt) : (s.setStation n x).bellows = s.bellows := rfl
@[simp] theorem State.setStation_blaze (n : Nat) (x : StationRt) : (s.setStation n x).blaze = s.blaze := rfl
@[simp] theorem State.setStation_glow (n : Nat) (x : StationRt) : (s.setStation n x).glow = s.glow := rfl
@[simp] theorem State.setStation_smoulder (n : Nat) (x : StationRt) : (s.setStation n x).smoulder = s.smoulder := rfl
@[simp] theorem State.setStation_edit (n : Nat) (x : StationRt) : (s.setStation n x).edit = s.edit := rfl
@[simp] theorem State.setStation_sessions (n : Nat) (x : StationRt) : (s.setStation n x).sessions = s.sessions := rfl
@[simp] theorem State.setStation_stations (n : Nat) (x : StationRt) : (s.setStation n x).stations = Sparse.put s.stations StationRt.fresh n x := rfl
@[simp] theorem State.setStation_addrTable (n : Nat) (x : StationRt) : (s.setStation n x).addrTable = s.addrTable := rfl
@[simp] theorem State.setStation_handshakes (n : Nat) (x : StationRt) : (s.setStation n x).handshakes = s.handshakes := rfl
@[simp] theorem State.setStation_hob (n : Nat) (x : StationRt) : (s.setStation n x).hob = s.hob := rfl
@[simp] theorem State.setStation_erair (n : Nat) (x : StationRt) : (s.setStation n x).erair = s.erair := rfl
@[simp] theorem State.setStation_turnspit (n : Nat) (x : StationRt) : (s.setStation n x).turnspit = s.turnspit := rfl
@[simp] theorem State.setStation_grate (n : Nat) (x : StationRt) : (s.setStation n x).grate = s.grate := rfl
@[simp] theorem State.setStation_mantel (n : Nat) (x : StationRt) : (s.setStation n x).mantel = s.mantel := rfl
@[simp] theorem State.setStation_ashpit (n : Nat) (x : StationRt) : (s.setStation n x).ashpit = s.ashpit := rfl
@[simp] theorem State.setStation_ember (n : Nat) (x : StationRt) : (s.setStation n x).ember = s.ember := rfl
@[simp] theorem State.setStation_fireguard (n : Nat) (x : StationRt) : (s.setStation n x).fireguard = s.fireguard := rfl
@[simp] theorem State.setStation_sweepTest (n : Nat) (x : StationRt) : (s.setStation n x).sweepTest = s.sweepTest := rfl
@[simp] theorem State.setStation_poker (n : Nat) (x : StationRt) : (s.setStation n x).poker = s.poker := rfl
@[simp] theorem State.setStation_mailboxes (n : Nat) (x : StationRt) : (s.setStation n x).mailboxes = s.mailboxes := rfl
@[simp] theorem State.setStation_mailOrder (n : Nat) (x : StationRt) : (s.setStation n x).mailOrder = s.mailOrder := rfl
@[simp] theorem State.setStation_uartWait (n : Nat) (x : StationRt) : (s.setStation n x).uartWait = s.uartWait := rfl
@[simp] theorem State.setStation_pcie (n : Nat) (x : StationRt) : (s.setStation n x).pcie = s.pcie := rfl
@[simp] theorem State.setStation_fuses (n : Nat) (x : StationRt) : (s.setStation n x).fuses = s.fuses := rfl
@[simp] theorem State.setStation_relining (n : Nat) (x : StationRt) : (s.setStation n x).relining = s.relining := rfl

/-! `State.setHobPort` -/

@[simp] theorem State.setHobPort_pending (p : Nat) (h : HobPort) : (s.setHobPort p h).pending = s.pending := rfl
@[simp] theorem State.setHobPort_out (p : Nat) (h : HobPort) : (s.setHobPort p h).out = s.out := rfl
@[simp] theorem State.setHobPort_freeCtr (p : Nat) (h : HobPort) : (s.setHobPort p h).freeCtr = s.freeCtr := rfl
@[simp] theorem State.setHobPort_regs (p : Nat) (h : HobPort) : (s.setHobPort p h).regs = s.regs := rfl
@[simp] theorem State.setHobPort_rwlSet (p : Nat) (h : HobPort) : (s.setHobPort p h).rwlSet = s.rwlSet := rfl
@[simp] theorem State.setHobPort_pins (p : Nat) (h : HobPort) : (s.setHobPort p h).pins = s.pins := rfl
@[simp] theorem State.setHobPort_fit (p : Nat) (h : HobPort) : (s.setHobPort p h).fit = s.fit := rfl
@[simp] theorem State.setHobPort_kindling (p : Nat) (h : HobPort) : (s.setHobPort p h).kindling = s.kindling := rfl
@[simp] theorem State.setHobPort_bankedFrom (p : Nat) (h : HobPort) : (s.setHobPort p h).bankedFrom = s.bankedFrom := rfl
@[simp] theorem State.setHobPort_raking (p : Nat) (h : HobPort) : (s.setHobPort p h).raking = s.raking := rfl
@[simp] theorem State.setHobPort_owners (p : Nat) (h : HobPort) : (s.setHobPort p h).owners = s.owners := rfl
@[simp] theorem State.setHobPort_started (p : Nat) (h : HobPort) : (s.setHobPort p h).started = s.started := rfl
@[simp] theorem State.setHobPort_cores (p : Nat) (h : HobPort) : (s.setHobPort p h).cores = s.cores := rfl
@[simp] theorem State.setHobPort_loaded (p : Nat) (h : HobPort) : (s.setHobPort p h).loaded = s.loaded := rfl
@[simp] theorem State.setHobPort_hearth (p : Nat) (h : HobPort) : (s.setHobPort p h).hearth = s.hearth := rfl
@[simp] theorem State.setHobPort_dram (p : Nat) (h : HobPort) : (s.setHobPort p h).dram = s.dram := rfl
@[simp] theorem State.setHobPort_dramBad (p : Nat) (h : HobPort) : (s.setHobPort p h).dramBad = s.dramBad := rfl
@[simp] theorem State.setHobPort_flue (p : Nat) (h : HobPort) : (s.setHobPort p h).flue = s.flue := rfl
@[simp] theorem State.setHobPort_bellows (p : Nat) (h : HobPort) : (s.setHobPort p h).bellows = s.bellows := rfl
@[simp] theorem State.setHobPort_blaze (p : Nat) (h : HobPort) : (s.setHobPort p h).blaze = s.blaze := rfl
@[simp] theorem State.setHobPort_glow (p : Nat) (h : HobPort) : (s.setHobPort p h).glow = s.glow := rfl
@[simp] theorem State.setHobPort_smoulder (p : Nat) (h : HobPort) : (s.setHobPort p h).smoulder = s.smoulder := rfl
@[simp] theorem State.setHobPort_edit (p : Nat) (h : HobPort) : (s.setHobPort p h).edit = s.edit := rfl
@[simp] theorem State.setHobPort_sessions (p : Nat) (h : HobPort) : (s.setHobPort p h).sessions = s.sessions := rfl
@[simp] theorem State.setHobPort_stations (p : Nat) (h : HobPort) : (s.setHobPort p h).stations = s.stations := rfl
@[simp] theorem State.setHobPort_addrTable (p : Nat) (h : HobPort) : (s.setHobPort p h).addrTable = s.addrTable := rfl
@[simp] theorem State.setHobPort_handshakes (p : Nat) (h : HobPort) : (s.setHobPort p h).handshakes = s.handshakes := rfl
@[simp] theorem State.setHobPort_hob (p : Nat) (h : HobPort) : (s.setHobPort p h).hob = Sparse.put s.hob HobPort.reset p h := rfl
@[simp] theorem State.setHobPort_erair (p : Nat) (h : HobPort) : (s.setHobPort p h).erair = s.erair := rfl
@[simp] theorem State.setHobPort_turnspit (p : Nat) (h : HobPort) : (s.setHobPort p h).turnspit = s.turnspit := rfl
@[simp] theorem State.setHobPort_grate (p : Nat) (h : HobPort) : (s.setHobPort p h).grate = s.grate := rfl
@[simp] theorem State.setHobPort_mantel (p : Nat) (h : HobPort) : (s.setHobPort p h).mantel = s.mantel := rfl
@[simp] theorem State.setHobPort_ashpit (p : Nat) (h : HobPort) : (s.setHobPort p h).ashpit = s.ashpit := rfl
@[simp] theorem State.setHobPort_ember (p : Nat) (h : HobPort) : (s.setHobPort p h).ember = s.ember := rfl
@[simp] theorem State.setHobPort_fireguard (p : Nat) (h : HobPort) : (s.setHobPort p h).fireguard = s.fireguard := rfl
@[simp] theorem State.setHobPort_sweepTest (p : Nat) (h : HobPort) : (s.setHobPort p h).sweepTest = s.sweepTest := rfl
@[simp] theorem State.setHobPort_poker (p : Nat) (h : HobPort) : (s.setHobPort p h).poker = s.poker := rfl
@[simp] theorem State.setHobPort_mailboxes (p : Nat) (h : HobPort) : (s.setHobPort p h).mailboxes = s.mailboxes := rfl
@[simp] theorem State.setHobPort_mailOrder (p : Nat) (h : HobPort) : (s.setHobPort p h).mailOrder = s.mailOrder := rfl
@[simp] theorem State.setHobPort_uartWait (p : Nat) (h : HobPort) : (s.setHobPort p h).uartWait = s.uartWait := rfl
@[simp] theorem State.setHobPort_pcie (p : Nat) (h : HobPort) : (s.setHobPort p h).pcie = s.pcie := rfl
@[simp] theorem State.setHobPort_fuses (p : Nat) (h : HobPort) : (s.setHobPort p h).fuses = s.fuses := rfl
@[simp] theorem State.setHobPort_relining (p : Nat) (h : HobPort) : (s.setHobPort p h).relining = s.relining := rfl

/-! `State.setChannel` -/

@[simp] theorem State.setChannel_pending (n : Nat) (x : Channel) : (s.setChannel n x).pending = s.pending := rfl
@[simp] theorem State.setChannel_out (n : Nat) (x : Channel) : (s.setChannel n x).out = s.out := rfl
@[simp] theorem State.setChannel_freeCtr (n : Nat) (x : Channel) : (s.setChannel n x).freeCtr = s.freeCtr := rfl
@[simp] theorem State.setChannel_regs (n : Nat) (x : Channel) : (s.setChannel n x).regs = s.regs := rfl
@[simp] theorem State.setChannel_rwlSet (n : Nat) (x : Channel) : (s.setChannel n x).rwlSet = s.rwlSet := rfl
@[simp] theorem State.setChannel_pins (n : Nat) (x : Channel) : (s.setChannel n x).pins = s.pins := rfl
@[simp] theorem State.setChannel_fit (n : Nat) (x : Channel) : (s.setChannel n x).fit = s.fit := rfl
@[simp] theorem State.setChannel_kindling (n : Nat) (x : Channel) : (s.setChannel n x).kindling = s.kindling := rfl
@[simp] theorem State.setChannel_bankedFrom (n : Nat) (x : Channel) : (s.setChannel n x).bankedFrom = s.bankedFrom := rfl
@[simp] theorem State.setChannel_raking (n : Nat) (x : Channel) : (s.setChannel n x).raking = s.raking := rfl
@[simp] theorem State.setChannel_owners (n : Nat) (x : Channel) : (s.setChannel n x).owners = s.owners := rfl
@[simp] theorem State.setChannel_started (n : Nat) (x : Channel) : (s.setChannel n x).started = s.started := rfl
@[simp] theorem State.setChannel_cores (n : Nat) (x : Channel) : (s.setChannel n x).cores = s.cores := rfl
@[simp] theorem State.setChannel_loaded (n : Nat) (x : Channel) : (s.setChannel n x).loaded = s.loaded := rfl
@[simp] theorem State.setChannel_hearth (n : Nat) (x : Channel) : (s.setChannel n x).hearth = s.hearth := rfl
@[simp] theorem State.setChannel_dram (n : Nat) (x : Channel) : (s.setChannel n x).dram = s.dram := rfl
@[simp] theorem State.setChannel_dramBad (n : Nat) (x : Channel) : (s.setChannel n x).dramBad = s.dramBad := rfl
@[simp] theorem State.setChannel_flue (n : Nat) (x : Channel) : (s.setChannel n x).flue = s.flue := rfl
@[simp] theorem State.setChannel_bellows (n : Nat) (x : Channel) : (s.setChannel n x).bellows = s.bellows := rfl
@[simp] theorem State.setChannel_blaze (n : Nat) (x : Channel) : (s.setChannel n x).blaze = s.blaze := rfl
@[simp] theorem State.setChannel_glow (n : Nat) (x : Channel) : (s.setChannel n x).glow = s.glow := rfl
@[simp] theorem State.setChannel_smoulder (n : Nat) (x : Channel) : (s.setChannel n x).smoulder = s.smoulder := rfl
@[simp] theorem State.setChannel_edit (n : Nat) (x : Channel) : (s.setChannel n x).edit = s.edit := rfl
@[simp] theorem State.setChannel_sessions (n : Nat) (x : Channel) : (s.setChannel n x).sessions = s.sessions := rfl
@[simp] theorem State.setChannel_stations (n : Nat) (x : Channel) : (s.setChannel n x).stations = s.stations := rfl
@[simp] theorem State.setChannel_addrTable (n : Nat) (x : Channel) : (s.setChannel n x).addrTable = s.addrTable := rfl
@[simp] theorem State.setChannel_handshakes (n : Nat) (x : Channel) : (s.setChannel n x).handshakes = s.handshakes := rfl
@[simp] theorem State.setChannel_hob (n : Nat) (x : Channel) : (s.setChannel n x).hob = s.hob := rfl
@[simp] theorem State.setChannel_erair (n : Nat) (x : Channel) : (s.setChannel n x).erair = s.erair := rfl
@[simp] theorem State.setChannel_turnspit (n : Nat) (x : Channel) : (s.setChannel n x).turnspit = s.turnspit := rfl
@[simp] theorem State.setChannel_grate (n : Nat) (x : Channel) : (s.setChannel n x).grate = Sparse.put s.grate Channel.reset n x := rfl
@[simp] theorem State.setChannel_mantel (n : Nat) (x : Channel) : (s.setChannel n x).mantel = s.mantel := rfl
@[simp] theorem State.setChannel_ashpit (n : Nat) (x : Channel) : (s.setChannel n x).ashpit = s.ashpit := rfl
@[simp] theorem State.setChannel_ember (n : Nat) (x : Channel) : (s.setChannel n x).ember = s.ember := rfl
@[simp] theorem State.setChannel_fireguard (n : Nat) (x : Channel) : (s.setChannel n x).fireguard = s.fireguard := rfl
@[simp] theorem State.setChannel_sweepTest (n : Nat) (x : Channel) : (s.setChannel n x).sweepTest = s.sweepTest := rfl
@[simp] theorem State.setChannel_poker (n : Nat) (x : Channel) : (s.setChannel n x).poker = s.poker := rfl
@[simp] theorem State.setChannel_mailboxes (n : Nat) (x : Channel) : (s.setChannel n x).mailboxes = s.mailboxes := rfl
@[simp] theorem State.setChannel_mailOrder (n : Nat) (x : Channel) : (s.setChannel n x).mailOrder = s.mailOrder := rfl
@[simp] theorem State.setChannel_uartWait (n : Nat) (x : Channel) : (s.setChannel n x).uartWait = s.uartWait := rfl
@[simp] theorem State.setChannel_pcie (n : Nat) (x : Channel) : (s.setChannel n x).pcie = s.pcie := rfl
@[simp] theorem State.setChannel_fuses (n : Nat) (x : Channel) : (s.setChannel n x).fuses = s.fuses := rfl
@[simp] theorem State.setChannel_relining (n : Nat) (x : Channel) : (s.setChannel n x).relining = s.relining := rfl

/-! `State.setMailbox` -/

@[simp] theorem State.setMailbox_pending (n : Nat) (b : Mailbox) : (s.setMailbox n b).pending = s.pending := rfl
@[simp] theorem State.setMailbox_out (n : Nat) (b : Mailbox) : (s.setMailbox n b).out = s.out := rfl
@[simp] theorem State.setMailbox_freeCtr (n : Nat) (b : Mailbox) : (s.setMailbox n b).freeCtr = s.freeCtr := rfl
@[simp] theorem State.setMailbox_regs (n : Nat) (b : Mailbox) : (s.setMailbox n b).regs = s.regs := rfl
@[simp] theorem State.setMailbox_rwlSet (n : Nat) (b : Mailbox) : (s.setMailbox n b).rwlSet = s.rwlSet := rfl
@[simp] theorem State.setMailbox_pins (n : Nat) (b : Mailbox) : (s.setMailbox n b).pins = s.pins := rfl
@[simp] theorem State.setMailbox_fit (n : Nat) (b : Mailbox) : (s.setMailbox n b).fit = s.fit := rfl
@[simp] theorem State.setMailbox_kindling (n : Nat) (b : Mailbox) : (s.setMailbox n b).kindling = s.kindling := rfl
@[simp] theorem State.setMailbox_bankedFrom (n : Nat) (b : Mailbox) : (s.setMailbox n b).bankedFrom = s.bankedFrom := rfl
@[simp] theorem State.setMailbox_raking (n : Nat) (b : Mailbox) : (s.setMailbox n b).raking = s.raking := rfl
@[simp] theorem State.setMailbox_owners (n : Nat) (b : Mailbox) : (s.setMailbox n b).owners = s.owners := rfl
@[simp] theorem State.setMailbox_started (n : Nat) (b : Mailbox) : (s.setMailbox n b).started = s.started := rfl
@[simp] theorem State.setMailbox_cores (n : Nat) (b : Mailbox) : (s.setMailbox n b).cores = s.cores := rfl
@[simp] theorem State.setMailbox_loaded (n : Nat) (b : Mailbox) : (s.setMailbox n b).loaded = s.loaded := rfl
@[simp] theorem State.setMailbox_hearth (n : Nat) (b : Mailbox) : (s.setMailbox n b).hearth = s.hearth := rfl
@[simp] theorem State.setMailbox_dram (n : Nat) (b : Mailbox) : (s.setMailbox n b).dram = s.dram := rfl
@[simp] theorem State.setMailbox_dramBad (n : Nat) (b : Mailbox) : (s.setMailbox n b).dramBad = s.dramBad := rfl
@[simp] theorem State.setMailbox_flue (n : Nat) (b : Mailbox) : (s.setMailbox n b).flue = s.flue := rfl
@[simp] theorem State.setMailbox_bellows (n : Nat) (b : Mailbox) : (s.setMailbox n b).bellows = s.bellows := rfl
@[simp] theorem State.setMailbox_blaze (n : Nat) (b : Mailbox) : (s.setMailbox n b).blaze = s.blaze := rfl
@[simp] theorem State.setMailbox_glow (n : Nat) (b : Mailbox) : (s.setMailbox n b).glow = s.glow := rfl
@[simp] theorem State.setMailbox_smoulder (n : Nat) (b : Mailbox) : (s.setMailbox n b).smoulder = s.smoulder := rfl
@[simp] theorem State.setMailbox_edit (n : Nat) (b : Mailbox) : (s.setMailbox n b).edit = s.edit := rfl
@[simp] theorem State.setMailbox_sessions (n : Nat) (b : Mailbox) : (s.setMailbox n b).sessions = s.sessions := rfl
@[simp] theorem State.setMailbox_stations (n : Nat) (b : Mailbox) : (s.setMailbox n b).stations = s.stations := rfl
@[simp] theorem State.setMailbox_addrTable (n : Nat) (b : Mailbox) : (s.setMailbox n b).addrTable = s.addrTable := rfl
@[simp] theorem State.setMailbox_handshakes (n : Nat) (b : Mailbox) : (s.setMailbox n b).handshakes = s.handshakes := rfl
@[simp] theorem State.setMailbox_hob (n : Nat) (b : Mailbox) : (s.setMailbox n b).hob = s.hob := rfl
@[simp] theorem State.setMailbox_erair (n : Nat) (b : Mailbox) : (s.setMailbox n b).erair = s.erair := rfl
@[simp] theorem State.setMailbox_turnspit (n : Nat) (b : Mailbox) : (s.setMailbox n b).turnspit = s.turnspit := rfl
@[simp] theorem State.setMailbox_grate (n : Nat) (b : Mailbox) : (s.setMailbox n b).grate = s.grate := rfl
@[simp] theorem State.setMailbox_mantel (n : Nat) (b : Mailbox) : (s.setMailbox n b).mantel = s.mantel := rfl
@[simp] theorem State.setMailbox_ashpit (n : Nat) (b : Mailbox) : (s.setMailbox n b).ashpit = s.ashpit := rfl
@[simp] theorem State.setMailbox_ember (n : Nat) (b : Mailbox) : (s.setMailbox n b).ember = s.ember := rfl
@[simp] theorem State.setMailbox_fireguard (n : Nat) (b : Mailbox) : (s.setMailbox n b).fireguard = s.fireguard := rfl
@[simp] theorem State.setMailbox_sweepTest (n : Nat) (b : Mailbox) : (s.setMailbox n b).sweepTest = s.sweepTest := rfl
@[simp] theorem State.setMailbox_poker (n : Nat) (b : Mailbox) : (s.setMailbox n b).poker = s.poker := rfl
@[simp] theorem State.setMailbox_mailboxes (n : Nat) (b : Mailbox) : (s.setMailbox n b).mailboxes = Sparse.put s.mailboxes Mailbox.free n b := rfl
@[simp] theorem State.setMailbox_mailOrder (n : Nat) (b : Mailbox) : (s.setMailbox n b).mailOrder = s.mailOrder := rfl
@[simp] theorem State.setMailbox_uartWait (n : Nat) (b : Mailbox) : (s.setMailbox n b).uartWait = s.uartWait := rfl
@[simp] theorem State.setMailbox_pcie (n : Nat) (b : Mailbox) : (s.setMailbox n b).pcie = s.pcie := rfl
@[simp] theorem State.setMailbox_fuses (n : Nat) (b : Mailbox) : (s.setMailbox n b).fuses = s.fuses := rfl
@[simp] theorem State.setMailbox_relining (n : Nat) (b : Mailbox) : (s.setMailbox n b).relining = s.relining := rfl

/-! `State.setSession` -/

@[simp] theorem State.setSession_pending (i : Nat) (x : Session) : (s.setSession i x).pending = s.pending := rfl
@[simp] theorem State.setSession_out (i : Nat) (x : Session) : (s.setSession i x).out = s.out := rfl
@[simp] theorem State.setSession_freeCtr (i : Nat) (x : Session) : (s.setSession i x).freeCtr = s.freeCtr := rfl
@[simp] theorem State.setSession_regs (i : Nat) (x : Session) : (s.setSession i x).regs = s.regs := rfl
@[simp] theorem State.setSession_rwlSet (i : Nat) (x : Session) : (s.setSession i x).rwlSet = s.rwlSet := rfl
@[simp] theorem State.setSession_pins (i : Nat) (x : Session) : (s.setSession i x).pins = s.pins := rfl
@[simp] theorem State.setSession_fit (i : Nat) (x : Session) : (s.setSession i x).fit = s.fit := rfl
@[simp] theorem State.setSession_kindling (i : Nat) (x : Session) : (s.setSession i x).kindling = s.kindling := rfl
@[simp] theorem State.setSession_bankedFrom (i : Nat) (x : Session) : (s.setSession i x).bankedFrom = s.bankedFrom := rfl
@[simp] theorem State.setSession_raking (i : Nat) (x : Session) : (s.setSession i x).raking = s.raking := rfl
@[simp] theorem State.setSession_owners (i : Nat) (x : Session) : (s.setSession i x).owners = s.owners := rfl
@[simp] theorem State.setSession_started (i : Nat) (x : Session) : (s.setSession i x).started = s.started := rfl
@[simp] theorem State.setSession_cores (i : Nat) (x : Session) : (s.setSession i x).cores = s.cores := rfl
@[simp] theorem State.setSession_loaded (i : Nat) (x : Session) : (s.setSession i x).loaded = s.loaded := rfl
@[simp] theorem State.setSession_hearth (i : Nat) (x : Session) : (s.setSession i x).hearth = s.hearth := rfl
@[simp] theorem State.setSession_dram (i : Nat) (x : Session) : (s.setSession i x).dram = s.dram := rfl
@[simp] theorem State.setSession_dramBad (i : Nat) (x : Session) : (s.setSession i x).dramBad = s.dramBad := rfl
@[simp] theorem State.setSession_flue (i : Nat) (x : Session) : (s.setSession i x).flue = s.flue := rfl
@[simp] theorem State.setSession_bellows (i : Nat) (x : Session) : (s.setSession i x).bellows = s.bellows := rfl
@[simp] theorem State.setSession_blaze (i : Nat) (x : Session) : (s.setSession i x).blaze = s.blaze := rfl
@[simp] theorem State.setSession_glow (i : Nat) (x : Session) : (s.setSession i x).glow = s.glow := rfl
@[simp] theorem State.setSession_smoulder (i : Nat) (x : Session) : (s.setSession i x).smoulder = s.smoulder := rfl
@[simp] theorem State.setSession_edit (i : Nat) (x : Session) : (s.setSession i x).edit = s.edit := rfl
@[simp] theorem State.setSession_sessions (i : Nat) (x : Session) : (s.setSession i x).sessions = Sparse.put s.sessions Session.none i x := rfl
@[simp] theorem State.setSession_stations (i : Nat) (x : Session) : (s.setSession i x).stations = s.stations := rfl
@[simp] theorem State.setSession_addrTable (i : Nat) (x : Session) : (s.setSession i x).addrTable = s.addrTable := rfl
@[simp] theorem State.setSession_handshakes (i : Nat) (x : Session) : (s.setSession i x).handshakes = s.handshakes := rfl
@[simp] theorem State.setSession_hob (i : Nat) (x : Session) : (s.setSession i x).hob = s.hob := rfl
@[simp] theorem State.setSession_erair (i : Nat) (x : Session) : (s.setSession i x).erair = s.erair := rfl
@[simp] theorem State.setSession_turnspit (i : Nat) (x : Session) : (s.setSession i x).turnspit = s.turnspit := rfl
@[simp] theorem State.setSession_grate (i : Nat) (x : Session) : (s.setSession i x).grate = s.grate := rfl
@[simp] theorem State.setSession_mantel (i : Nat) (x : Session) : (s.setSession i x).mantel = s.mantel := rfl
@[simp] theorem State.setSession_ashpit (i : Nat) (x : Session) : (s.setSession i x).ashpit = s.ashpit := rfl
@[simp] theorem State.setSession_ember (i : Nat) (x : Session) : (s.setSession i x).ember = s.ember := rfl
@[simp] theorem State.setSession_fireguard (i : Nat) (x : Session) : (s.setSession i x).fireguard = s.fireguard := rfl
@[simp] theorem State.setSession_sweepTest (i : Nat) (x : Session) : (s.setSession i x).sweepTest = s.sweepTest := rfl
@[simp] theorem State.setSession_poker (i : Nat) (x : Session) : (s.setSession i x).poker = s.poker := rfl
@[simp] theorem State.setSession_mailboxes (i : Nat) (x : Session) : (s.setSession i x).mailboxes = s.mailboxes := rfl
@[simp] theorem State.setSession_mailOrder (i : Nat) (x : Session) : (s.setSession i x).mailOrder = s.mailOrder := rfl
@[simp] theorem State.setSession_uartWait (i : Nat) (x : Session) : (s.setSession i x).uartWait = s.uartWait := rfl
@[simp] theorem State.setSession_pcie (i : Nat) (x : Session) : (s.setSession i x).pcie = s.pcie := rfl
@[simp] theorem State.setSession_fuses (i : Nat) (x : Session) : (s.setSession i x).fuses = s.fuses := rfl
@[simp] theorem State.setSession_relining (i : Nat) (x : Session) : (s.setSession i x).relining = s.relining := rfl

/-! `State.onHearth` -/

@[simp] theorem State.onHearth_pending (f : Hearth → Hearth) : (s.onHearth f).pending = s.pending := rfl
@[simp] theorem State.onHearth_out (f : Hearth → Hearth) : (s.onHearth f).out = s.out := rfl
@[simp] theorem State.onHearth_freeCtr (f : Hearth → Hearth) : (s.onHearth f).freeCtr = s.freeCtr := rfl
@[simp] theorem State.onHearth_regs (f : Hearth → Hearth) : (s.onHearth f).regs = s.regs := rfl
@[simp] theorem State.onHearth_rwlSet (f : Hearth → Hearth) : (s.onHearth f).rwlSet = s.rwlSet := rfl
@[simp] theorem State.onHearth_pins (f : Hearth → Hearth) : (s.onHearth f).pins = s.pins := rfl
@[simp] theorem State.onHearth_fit (f : Hearth → Hearth) : (s.onHearth f).fit = s.fit := rfl
@[simp] theorem State.onHearth_kindling (f : Hearth → Hearth) : (s.onHearth f).kindling = s.kindling := rfl
@[simp] theorem State.onHearth_bankedFrom (f : Hearth → Hearth) : (s.onHearth f).bankedFrom = s.bankedFrom := rfl
@[simp] theorem State.onHearth_raking (f : Hearth → Hearth) : (s.onHearth f).raking = s.raking := rfl
@[simp] theorem State.onHearth_owners (f : Hearth → Hearth) : (s.onHearth f).owners = s.owners := rfl
@[simp] theorem State.onHearth_started (f : Hearth → Hearth) : (s.onHearth f).started = s.started := rfl
@[simp] theorem State.onHearth_cores (f : Hearth → Hearth) : (s.onHearth f).cores = s.cores := rfl
@[simp] theorem State.onHearth_loaded (f : Hearth → Hearth) : (s.onHearth f).loaded = s.loaded := rfl
@[simp] theorem State.onHearth_hearth (f : Hearth → Hearth) : (s.onHearth f).hearth = f s.hearth := rfl
@[simp] theorem State.onHearth_dram (f : Hearth → Hearth) : (s.onHearth f).dram = s.dram := rfl
@[simp] theorem State.onHearth_dramBad (f : Hearth → Hearth) : (s.onHearth f).dramBad = s.dramBad := rfl
@[simp] theorem State.onHearth_flue (f : Hearth → Hearth) : (s.onHearth f).flue = s.flue := rfl
@[simp] theorem State.onHearth_bellows (f : Hearth → Hearth) : (s.onHearth f).bellows = s.bellows := rfl
@[simp] theorem State.onHearth_blaze (f : Hearth → Hearth) : (s.onHearth f).blaze = s.blaze := rfl
@[simp] theorem State.onHearth_glow (f : Hearth → Hearth) : (s.onHearth f).glow = s.glow := rfl
@[simp] theorem State.onHearth_smoulder (f : Hearth → Hearth) : (s.onHearth f).smoulder = s.smoulder := rfl
@[simp] theorem State.onHearth_edit (f : Hearth → Hearth) : (s.onHearth f).edit = s.edit := rfl
@[simp] theorem State.onHearth_sessions (f : Hearth → Hearth) : (s.onHearth f).sessions = s.sessions := rfl
@[simp] theorem State.onHearth_stations (f : Hearth → Hearth) : (s.onHearth f).stations = s.stations := rfl
@[simp] theorem State.onHearth_addrTable (f : Hearth → Hearth) : (s.onHearth f).addrTable = s.addrTable := rfl
@[simp] theorem State.onHearth_handshakes (f : Hearth → Hearth) : (s.onHearth f).handshakes = s.handshakes := rfl
@[simp] theorem State.onHearth_hob (f : Hearth → Hearth) : (s.onHearth f).hob = s.hob := rfl
@[simp] theorem State.onHearth_erair (f : Hearth → Hearth) : (s.onHearth f).erair = s.erair := rfl
@[simp] theorem State.onHearth_turnspit (f : Hearth → Hearth) : (s.onHearth f).turnspit = s.turnspit := rfl
@[simp] theorem State.onHearth_grate (f : Hearth → Hearth) : (s.onHearth f).grate = s.grate := rfl
@[simp] theorem State.onHearth_mantel (f : Hearth → Hearth) : (s.onHearth f).mantel = s.mantel := rfl
@[simp] theorem State.onHearth_ashpit (f : Hearth → Hearth) : (s.onHearth f).ashpit = s.ashpit := rfl
@[simp] theorem State.onHearth_ember (f : Hearth → Hearth) : (s.onHearth f).ember = s.ember := rfl
@[simp] theorem State.onHearth_fireguard (f : Hearth → Hearth) : (s.onHearth f).fireguard = s.fireguard := rfl
@[simp] theorem State.onHearth_sweepTest (f : Hearth → Hearth) : (s.onHearth f).sweepTest = s.sweepTest := rfl
@[simp] theorem State.onHearth_poker (f : Hearth → Hearth) : (s.onHearth f).poker = s.poker := rfl
@[simp] theorem State.onHearth_mailboxes (f : Hearth → Hearth) : (s.onHearth f).mailboxes = s.mailboxes := rfl
@[simp] theorem State.onHearth_mailOrder (f : Hearth → Hearth) : (s.onHearth f).mailOrder = s.mailOrder := rfl
@[simp] theorem State.onHearth_uartWait (f : Hearth → Hearth) : (s.onHearth f).uartWait = s.uartWait := rfl
@[simp] theorem State.onHearth_pcie (f : Hearth → Hearth) : (s.onHearth f).pcie = s.pcie := rfl
@[simp] theorem State.onHearth_fuses (f : Hearth → Hearth) : (s.onHearth f).fuses = s.fuses := rfl
@[simp] theorem State.onHearth_relining (f : Hearth → Hearth) : (s.onHearth f).relining = s.relining := rfl

/-! `State.setBlockRt` -/

@[simp] theorem State.setBlockRt_pending (b : Nat) (r : BlockRt) : (s.setBlockRt b r).pending = s.pending := rfl
@[simp] theorem State.setBlockRt_out (b : Nat) (r : BlockRt) : (s.setBlockRt b r).out = s.out := rfl
@[simp] theorem State.setBlockRt_freeCtr (b : Nat) (r : BlockRt) : (s.setBlockRt b r).freeCtr = s.freeCtr := rfl
@[simp] theorem State.setBlockRt_regs (b : Nat) (r : BlockRt) : (s.setBlockRt b r).regs = s.regs := rfl
@[simp] theorem State.setBlockRt_rwlSet (b : Nat) (r : BlockRt) : (s.setBlockRt b r).rwlSet = s.rwlSet := rfl
@[simp] theorem State.setBlockRt_pins (b : Nat) (r : BlockRt) : (s.setBlockRt b r).pins = s.pins := rfl
@[simp] theorem State.setBlockRt_fit (b : Nat) (r : BlockRt) : (s.setBlockRt b r).fit = s.fit := rfl
@[simp] theorem State.setBlockRt_kindling (b : Nat) (r : BlockRt) : (s.setBlockRt b r).kindling = s.kindling := rfl
@[simp] theorem State.setBlockRt_bankedFrom (b : Nat) (r : BlockRt) : (s.setBlockRt b r).bankedFrom = s.bankedFrom := rfl
@[simp] theorem State.setBlockRt_raking (b : Nat) (r : BlockRt) : (s.setBlockRt b r).raking = s.raking := rfl
@[simp] theorem State.setBlockRt_owners (b : Nat) (r : BlockRt) : (s.setBlockRt b r).owners = s.owners := rfl
@[simp] theorem State.setBlockRt_started (b : Nat) (r : BlockRt) : (s.setBlockRt b r).started = s.started := rfl
@[simp] theorem State.setBlockRt_cores (b : Nat) (r : BlockRt) : (s.setBlockRt b r).cores = s.cores := rfl
@[simp] theorem State.setBlockRt_loaded (b : Nat) (r : BlockRt) : (s.setBlockRt b r).loaded = s.loaded := rfl
@[simp] theorem State.setBlockRt_hearth (b : Nat) (r : BlockRt) : (s.setBlockRt b r).hearth = s.hearth := rfl
@[simp] theorem State.setBlockRt_dram (b : Nat) (r : BlockRt) : (s.setBlockRt b r).dram = s.dram := rfl
@[simp] theorem State.setBlockRt_dramBad (b : Nat) (r : BlockRt) : (s.setBlockRt b r).dramBad = s.dramBad := rfl
@[simp] theorem State.setBlockRt_flue (b : Nat) (r : BlockRt) : (s.setBlockRt b r).flue = s.flue := rfl
@[simp] theorem State.setBlockRt_bellows (b : Nat) (r : BlockRt) : (s.setBlockRt b r).bellows = { s.bellows with blocks := Sparse.put s.bellows.blocks BlockRt.fresh b r } := rfl
@[simp] theorem State.setBlockRt_blaze (b : Nat) (r : BlockRt) : (s.setBlockRt b r).blaze = s.blaze := rfl
@[simp] theorem State.setBlockRt_glow (b : Nat) (r : BlockRt) : (s.setBlockRt b r).glow = s.glow := rfl
@[simp] theorem State.setBlockRt_smoulder (b : Nat) (r : BlockRt) : (s.setBlockRt b r).smoulder = s.smoulder := rfl
@[simp] theorem State.setBlockRt_edit (b : Nat) (r : BlockRt) : (s.setBlockRt b r).edit = s.edit := rfl
@[simp] theorem State.setBlockRt_sessions (b : Nat) (r : BlockRt) : (s.setBlockRt b r).sessions = s.sessions := rfl
@[simp] theorem State.setBlockRt_stations (b : Nat) (r : BlockRt) : (s.setBlockRt b r).stations = s.stations := rfl
@[simp] theorem State.setBlockRt_addrTable (b : Nat) (r : BlockRt) : (s.setBlockRt b r).addrTable = s.addrTable := rfl
@[simp] theorem State.setBlockRt_handshakes (b : Nat) (r : BlockRt) : (s.setBlockRt b r).handshakes = s.handshakes := rfl
@[simp] theorem State.setBlockRt_hob (b : Nat) (r : BlockRt) : (s.setBlockRt b r).hob = s.hob := rfl
@[simp] theorem State.setBlockRt_erair (b : Nat) (r : BlockRt) : (s.setBlockRt b r).erair = s.erair := rfl
@[simp] theorem State.setBlockRt_turnspit (b : Nat) (r : BlockRt) : (s.setBlockRt b r).turnspit = s.turnspit := rfl
@[simp] theorem State.setBlockRt_grate (b : Nat) (r : BlockRt) : (s.setBlockRt b r).grate = s.grate := rfl
@[simp] theorem State.setBlockRt_mantel (b : Nat) (r : BlockRt) : (s.setBlockRt b r).mantel = s.mantel := rfl
@[simp] theorem State.setBlockRt_ashpit (b : Nat) (r : BlockRt) : (s.setBlockRt b r).ashpit = s.ashpit := rfl
@[simp] theorem State.setBlockRt_ember (b : Nat) (r : BlockRt) : (s.setBlockRt b r).ember = s.ember := rfl
@[simp] theorem State.setBlockRt_fireguard (b : Nat) (r : BlockRt) : (s.setBlockRt b r).fireguard = s.fireguard := rfl
@[simp] theorem State.setBlockRt_sweepTest (b : Nat) (r : BlockRt) : (s.setBlockRt b r).sweepTest = s.sweepTest := rfl
@[simp] theorem State.setBlockRt_poker (b : Nat) (r : BlockRt) : (s.setBlockRt b r).poker = s.poker := rfl
@[simp] theorem State.setBlockRt_mailboxes (b : Nat) (r : BlockRt) : (s.setBlockRt b r).mailboxes = s.mailboxes := rfl
@[simp] theorem State.setBlockRt_mailOrder (b : Nat) (r : BlockRt) : (s.setBlockRt b r).mailOrder = s.mailOrder := rfl
@[simp] theorem State.setBlockRt_uartWait (b : Nat) (r : BlockRt) : (s.setBlockRt b r).uartWait = s.uartWait := rfl
@[simp] theorem State.setBlockRt_pcie (b : Nat) (r : BlockRt) : (s.setBlockRt b r).pcie = s.pcie := rfl
@[simp] theorem State.setBlockRt_fuses (b : Nat) (r : BlockRt) : (s.setBlockRt b r).fuses = s.fuses := rfl
@[simp] theorem State.setBlockRt_relining (b : Nat) (r : BlockRt) : (s.setBlockRt b r).relining = s.relining := rfl

/-! `State.setMantelOp` -/

@[simp] theorem State.setMantelOp_pending (o : Option MantelOp) : (s.setMantelOp o).pending = s.pending := rfl
@[simp] theorem State.setMantelOp_out (o : Option MantelOp) : (s.setMantelOp o).out = s.out := rfl
@[simp] theorem State.setMantelOp_freeCtr (o : Option MantelOp) : (s.setMantelOp o).freeCtr = s.freeCtr := rfl
@[simp] theorem State.setMantelOp_regs (o : Option MantelOp) : (s.setMantelOp o).regs = s.regs := rfl
@[simp] theorem State.setMantelOp_rwlSet (o : Option MantelOp) : (s.setMantelOp o).rwlSet = s.rwlSet := rfl
@[simp] theorem State.setMantelOp_pins (o : Option MantelOp) : (s.setMantelOp o).pins = s.pins := rfl
@[simp] theorem State.setMantelOp_fit (o : Option MantelOp) : (s.setMantelOp o).fit = s.fit := rfl
@[simp] theorem State.setMantelOp_kindling (o : Option MantelOp) : (s.setMantelOp o).kindling = s.kindling := rfl
@[simp] theorem State.setMantelOp_bankedFrom (o : Option MantelOp) : (s.setMantelOp o).bankedFrom = s.bankedFrom := rfl
@[simp] theorem State.setMantelOp_raking (o : Option MantelOp) : (s.setMantelOp o).raking = s.raking := rfl
@[simp] theorem State.setMantelOp_owners (o : Option MantelOp) : (s.setMantelOp o).owners = s.owners := rfl
@[simp] theorem State.setMantelOp_started (o : Option MantelOp) : (s.setMantelOp o).started = s.started := rfl
@[simp] theorem State.setMantelOp_cores (o : Option MantelOp) : (s.setMantelOp o).cores = s.cores := rfl
@[simp] theorem State.setMantelOp_loaded (o : Option MantelOp) : (s.setMantelOp o).loaded = s.loaded := rfl
@[simp] theorem State.setMantelOp_hearth (o : Option MantelOp) : (s.setMantelOp o).hearth = s.hearth := rfl
@[simp] theorem State.setMantelOp_dram (o : Option MantelOp) : (s.setMantelOp o).dram = s.dram := rfl
@[simp] theorem State.setMantelOp_dramBad (o : Option MantelOp) : (s.setMantelOp o).dramBad = s.dramBad := rfl
@[simp] theorem State.setMantelOp_flue (o : Option MantelOp) : (s.setMantelOp o).flue = s.flue := rfl
@[simp] theorem State.setMantelOp_bellows (o : Option MantelOp) : (s.setMantelOp o).bellows = s.bellows := rfl
@[simp] theorem State.setMantelOp_blaze (o : Option MantelOp) : (s.setMantelOp o).blaze = s.blaze := rfl
@[simp] theorem State.setMantelOp_glow (o : Option MantelOp) : (s.setMantelOp o).glow = s.glow := rfl
@[simp] theorem State.setMantelOp_smoulder (o : Option MantelOp) : (s.setMantelOp o).smoulder = s.smoulder := rfl
@[simp] theorem State.setMantelOp_edit (o : Option MantelOp) : (s.setMantelOp o).edit = s.edit := rfl
@[simp] theorem State.setMantelOp_sessions (o : Option MantelOp) : (s.setMantelOp o).sessions = s.sessions := rfl
@[simp] theorem State.setMantelOp_stations (o : Option MantelOp) : (s.setMantelOp o).stations = s.stations := rfl
@[simp] theorem State.setMantelOp_addrTable (o : Option MantelOp) : (s.setMantelOp o).addrTable = s.addrTable := rfl
@[simp] theorem State.setMantelOp_handshakes (o : Option MantelOp) : (s.setMantelOp o).handshakes = s.handshakes := rfl
@[simp] theorem State.setMantelOp_hob (o : Option MantelOp) : (s.setMantelOp o).hob = s.hob := rfl
@[simp] theorem State.setMantelOp_erair (o : Option MantelOp) : (s.setMantelOp o).erair = s.erair := rfl
@[simp] theorem State.setMantelOp_turnspit (o : Option MantelOp) : (s.setMantelOp o).turnspit = s.turnspit := rfl
@[simp] theorem State.setMantelOp_grate (o : Option MantelOp) : (s.setMantelOp o).grate = s.grate := rfl
@[simp] theorem State.setMantelOp_mantel (o : Option MantelOp) : (s.setMantelOp o).mantel = { s.mantel with op := o } := rfl
@[simp] theorem State.setMantelOp_ashpit (o : Option MantelOp) : (s.setMantelOp o).ashpit = s.ashpit := rfl
@[simp] theorem State.setMantelOp_ember (o : Option MantelOp) : (s.setMantelOp o).ember = s.ember := rfl
@[simp] theorem State.setMantelOp_fireguard (o : Option MantelOp) : (s.setMantelOp o).fireguard = s.fireguard := rfl
@[simp] theorem State.setMantelOp_sweepTest (o : Option MantelOp) : (s.setMantelOp o).sweepTest = s.sweepTest := rfl
@[simp] theorem State.setMantelOp_poker (o : Option MantelOp) : (s.setMantelOp o).poker = s.poker := rfl
@[simp] theorem State.setMantelOp_mailboxes (o : Option MantelOp) : (s.setMantelOp o).mailboxes = s.mailboxes := rfl
@[simp] theorem State.setMantelOp_mailOrder (o : Option MantelOp) : (s.setMantelOp o).mailOrder = s.mailOrder := rfl
@[simp] theorem State.setMantelOp_uartWait (o : Option MantelOp) : (s.setMantelOp o).uartWait = s.uartWait := rfl
@[simp] theorem State.setMantelOp_pcie (o : Option MantelOp) : (s.setMantelOp o).pcie = s.pcie := rfl
@[simp] theorem State.setMantelOp_fuses (o : Option MantelOp) : (s.setMantelOp o).fuses = s.fuses := rfl
@[simp] theorem State.setMantelOp_relining (o : Option MantelOp) : (s.setMantelOp o).relining = s.relining := rfl

/-! `State.setCommitBuf` -/

@[simp] theorem State.setCommitBuf_pending (p : Nat) (b : CommitBuf) : (s.setCommitBuf p b).pending = s.pending := rfl
@[simp] theorem State.setCommitBuf_out (p : Nat) (b : CommitBuf) : (s.setCommitBuf p b).out = s.out := rfl
@[simp] theorem State.setCommitBuf_freeCtr (p : Nat) (b : CommitBuf) : (s.setCommitBuf p b).freeCtr = s.freeCtr := rfl
@[simp] theorem State.setCommitBuf_regs (p : Nat) (b : CommitBuf) : (s.setCommitBuf p b).regs = s.regs := rfl
@[simp] theorem State.setCommitBuf_rwlSet (p : Nat) (b : CommitBuf) : (s.setCommitBuf p b).rwlSet = s.rwlSet := rfl
@[simp] theorem State.setCommitBuf_pins (p : Nat) (b : CommitBuf) : (s.setCommitBuf p b).pins = s.pins := rfl
@[simp] theorem State.setCommitBuf_fit (p : Nat) (b : CommitBuf) : (s.setCommitBuf p b).fit = s.fit := rfl
@[simp] theorem State.setCommitBuf_kindling (p : Nat) (b : CommitBuf) : (s.setCommitBuf p b).kindling = s.kindling := rfl
@[simp] theorem State.setCommitBuf_bankedFrom (p : Nat) (b : CommitBuf) : (s.setCommitBuf p b).bankedFrom = s.bankedFrom := rfl
@[simp] theorem State.setCommitBuf_raking (p : Nat) (b : CommitBuf) : (s.setCommitBuf p b).raking = s.raking := rfl
@[simp] theorem State.setCommitBuf_owners (p : Nat) (b : CommitBuf) : (s.setCommitBuf p b).owners = s.owners := rfl
@[simp] theorem State.setCommitBuf_started (p : Nat) (b : CommitBuf) : (s.setCommitBuf p b).started = s.started := rfl
@[simp] theorem State.setCommitBuf_cores (p : Nat) (b : CommitBuf) : (s.setCommitBuf p b).cores = s.cores := rfl
@[simp] theorem State.setCommitBuf_loaded (p : Nat) (b : CommitBuf) : (s.setCommitBuf p b).loaded = s.loaded := rfl
@[simp] theorem State.setCommitBuf_hearth (p : Nat) (b : CommitBuf) : (s.setCommitBuf p b).hearth = s.hearth := rfl
@[simp] theorem State.setCommitBuf_dram (p : Nat) (b : CommitBuf) : (s.setCommitBuf p b).dram = s.dram := rfl
@[simp] theorem State.setCommitBuf_dramBad (p : Nat) (b : CommitBuf) : (s.setCommitBuf p b).dramBad = s.dramBad := rfl
@[simp] theorem State.setCommitBuf_flue (p : Nat) (b : CommitBuf) : (s.setCommitBuf p b).flue = s.flue := rfl
@[simp] theorem State.setCommitBuf_bellows (p : Nat) (b : CommitBuf) : (s.setCommitBuf p b).bellows = s.bellows := rfl
@[simp] theorem State.setCommitBuf_blaze (p : Nat) (b : CommitBuf) : (s.setCommitBuf p b).blaze = s.blaze := rfl
@[simp] theorem State.setCommitBuf_glow (p : Nat) (b : CommitBuf) : (s.setCommitBuf p b).glow = s.glow := rfl
@[simp] theorem State.setCommitBuf_smoulder (p : Nat) (b : CommitBuf) : (s.setCommitBuf p b).smoulder = s.smoulder := rfl
@[simp] theorem State.setCommitBuf_edit (p : Nat) (b : CommitBuf) : (s.setCommitBuf p b).edit = s.edit := rfl
@[simp] theorem State.setCommitBuf_sessions (p : Nat) (b : CommitBuf) : (s.setCommitBuf p b).sessions = s.sessions := rfl
@[simp] theorem State.setCommitBuf_stations (p : Nat) (b : CommitBuf) : (s.setCommitBuf p b).stations = s.stations := rfl
@[simp] theorem State.setCommitBuf_addrTable (p : Nat) (b : CommitBuf) : (s.setCommitBuf p b).addrTable = s.addrTable := rfl
@[simp] theorem State.setCommitBuf_handshakes (p : Nat) (b : CommitBuf) : (s.setCommitBuf p b).handshakes = s.handshakes := rfl
@[simp] theorem State.setCommitBuf_hob (p : Nat) (b : CommitBuf) : (s.setCommitBuf p b).hob = s.hob := rfl
@[simp] theorem State.setCommitBuf_erair (p : Nat) (b : CommitBuf) : (s.setCommitBuf p b).erair = s.erair := rfl
@[simp] theorem State.setCommitBuf_turnspit (p : Nat) (b : CommitBuf) : (s.setCommitBuf p b).turnspit = s.turnspit := rfl
@[simp] theorem State.setCommitBuf_grate (p : Nat) (b : CommitBuf) : (s.setCommitBuf p b).grate = s.grate := rfl
@[simp] theorem State.setCommitBuf_mantel (p : Nat) (b : CommitBuf) : (s.setCommitBuf p b).mantel = { s.mantel with bufs := Sparse.put s.mantel.bufs CommitBuf.empty p b } := rfl
@[simp] theorem State.setCommitBuf_ashpit (p : Nat) (b : CommitBuf) : (s.setCommitBuf p b).ashpit = s.ashpit := rfl
@[simp] theorem State.setCommitBuf_ember (p : Nat) (b : CommitBuf) : (s.setCommitBuf p b).ember = s.ember := rfl
@[simp] theorem State.setCommitBuf_fireguard (p : Nat) (b : CommitBuf) : (s.setCommitBuf p b).fireguard = s.fireguard := rfl
@[simp] theorem State.setCommitBuf_sweepTest (p : Nat) (b : CommitBuf) : (s.setCommitBuf p b).sweepTest = s.sweepTest := rfl
@[simp] theorem State.setCommitBuf_poker (p : Nat) (b : CommitBuf) : (s.setCommitBuf p b).poker = s.poker := rfl
@[simp] theorem State.setCommitBuf_mailboxes (p : Nat) (b : CommitBuf) : (s.setCommitBuf p b).mailboxes = s.mailboxes := rfl
@[simp] theorem State.setCommitBuf_mailOrder (p : Nat) (b : CommitBuf) : (s.setCommitBuf p b).mailOrder = s.mailOrder := rfl
@[simp] theorem State.setCommitBuf_uartWait (p : Nat) (b : CommitBuf) : (s.setCommitBuf p b).uartWait = s.uartWait := rfl
@[simp] theorem State.setCommitBuf_pcie (p : Nat) (b : CommitBuf) : (s.setCommitBuf p b).pcie = s.pcie := rfl
@[simp] theorem State.setCommitBuf_fuses (p : Nat) (b : CommitBuf) : (s.setCommitBuf p b).fuses = s.fuses := rfl
@[simp] theorem State.setCommitBuf_relining (p : Nat) (b : CommitBuf) : (s.setCommitBuf p b).relining = s.relining := rfl

/-! `State.setCompUp` -/

@[simp] theorem State.setCompUp_pending (c : Nat) (b : Bool) : (s.setCompUp c b).pending = s.pending := rfl
@[simp] theorem State.setCompUp_out (c : Nat) (b : Bool) : (s.setCompUp c b).out = s.out := rfl
@[simp] theorem State.setCompUp_freeCtr (c : Nat) (b : Bool) : (s.setCompUp c b).freeCtr = s.freeCtr := rfl
@[simp] theorem State.setCompUp_regs (c : Nat) (b : Bool) : (s.setCompUp c b).regs = s.regs := rfl
@[simp] theorem State.setCompUp_rwlSet (c : Nat) (b : Bool) : (s.setCompUp c b).rwlSet = s.rwlSet := rfl
@[simp] theorem State.setCompUp_pins (c : Nat) (b : Bool) : (s.setCompUp c b).pins = s.pins := rfl
@[simp] theorem State.setCompUp_fit (c : Nat) (b : Bool) : (s.setCompUp c b).fit = s.fit := rfl
@[simp] theorem State.setCompUp_kindling (c : Nat) (b : Bool) : (s.setCompUp c b).kindling = s.kindling := rfl
@[simp] theorem State.setCompUp_bankedFrom (c : Nat) (b : Bool) : (s.setCompUp c b).bankedFrom = s.bankedFrom := rfl
@[simp] theorem State.setCompUp_raking (c : Nat) (b : Bool) : (s.setCompUp c b).raking = s.raking := rfl
@[simp] theorem State.setCompUp_owners (c : Nat) (b : Bool) : (s.setCompUp c b).owners = s.owners := rfl
@[simp] theorem State.setCompUp_started (c : Nat) (b : Bool) : (s.setCompUp c b).started = s.started := rfl
@[simp] theorem State.setCompUp_cores (c : Nat) (b : Bool) : (s.setCompUp c b).cores = s.cores := rfl
@[simp] theorem State.setCompUp_loaded (c : Nat) (b : Bool) : (s.setCompUp c b).loaded = s.loaded := rfl
@[simp] theorem State.setCompUp_hearth (c : Nat) (b : Bool) : (s.setCompUp c b).hearth = s.hearth := rfl
@[simp] theorem State.setCompUp_dram (c : Nat) (b : Bool) : (s.setCompUp c b).dram = s.dram := rfl
@[simp] theorem State.setCompUp_dramBad (c : Nat) (b : Bool) : (s.setCompUp c b).dramBad = s.dramBad := rfl
@[simp] theorem State.setCompUp_flue (c : Nat) (b : Bool) : (s.setCompUp c b).flue = s.flue := rfl
@[simp] theorem State.setCompUp_bellows (c : Nat) (b : Bool) : (s.setCompUp c b).bellows = s.bellows := rfl
@[simp] theorem State.setCompUp_blaze (c : Nat) (b : Bool) : (s.setCompUp c b).blaze = s.blaze := rfl
@[simp] theorem State.setCompUp_glow (c : Nat) (b : Bool) : (s.setCompUp c b).glow = s.glow := rfl
@[simp] theorem State.setCompUp_smoulder (c : Nat) (b : Bool) : (s.setCompUp c b).smoulder = s.smoulder := rfl
@[simp] theorem State.setCompUp_edit (c : Nat) (b : Bool) : (s.setCompUp c b).edit = s.edit := rfl
@[simp] theorem State.setCompUp_sessions (c : Nat) (b : Bool) : (s.setCompUp c b).sessions = s.sessions := rfl
@[simp] theorem State.setCompUp_stations (c : Nat) (b : Bool) : (s.setCompUp c b).stations = s.stations := rfl
@[simp] theorem State.setCompUp_addrTable (c : Nat) (b : Bool) : (s.setCompUp c b).addrTable = s.addrTable := rfl
@[simp] theorem State.setCompUp_handshakes (c : Nat) (b : Bool) : (s.setCompUp c b).handshakes = s.handshakes := rfl
@[simp] theorem State.setCompUp_hob (c : Nat) (b : Bool) : (s.setCompUp c b).hob = s.hob := rfl
@[simp] theorem State.setCompUp_erair (c : Nat) (b : Bool) : (s.setCompUp c b).erair = s.erair := rfl
@[simp] theorem State.setCompUp_turnspit (c : Nat) (b : Bool) : (s.setCompUp c b).turnspit = s.turnspit := rfl
@[simp] theorem State.setCompUp_grate (c : Nat) (b : Bool) : (s.setCompUp c b).grate = s.grate := rfl
@[simp] theorem State.setCompUp_mantel (c : Nat) (b : Bool) : (s.setCompUp c b).mantel = s.mantel := rfl
@[simp] theorem State.setCompUp_ashpit (c : Nat) (b : Bool) : (s.setCompUp c b).ashpit = s.ashpit := rfl
@[simp] theorem State.setCompUp_ember (c : Nat) (b : Bool) : (s.setCompUp c b).ember = s.ember := rfl
@[simp] theorem State.setCompUp_fireguard (c : Nat) (b : Bool) : (s.setCompUp c b).fireguard = s.fireguard := rfl
@[simp] theorem State.setCompUp_sweepTest (c : Nat) (b : Bool) : (s.setCompUp c b).sweepTest = s.sweepTest := rfl
@[simp] theorem State.setCompUp_poker (c : Nat) (b : Bool) : (s.setCompUp c b).poker = s.poker := rfl
@[simp] theorem State.setCompUp_mailboxes (c : Nat) (b : Bool) : (s.setCompUp c b).mailboxes = s.mailboxes := rfl
@[simp] theorem State.setCompUp_mailOrder (c : Nat) (b : Bool) : (s.setCompUp c b).mailOrder = s.mailOrder := rfl
@[simp] theorem State.setCompUp_uartWait (c : Nat) (b : Bool) : (s.setCompUp c b).uartWait = s.uartWait := rfl
@[simp] theorem State.setCompUp_pcie (c : Nat) (b : Bool) : (s.setCompUp c b).pcie = s.pcie := rfl
@[simp] theorem State.setCompUp_fuses (c : Nat) (b : Bool) : (s.setCompUp c b).fuses = s.fuses := rfl
@[simp] theorem State.setCompUp_relining (c : Nat) (b : Bool) : (s.setCompUp c b).relining = { s.relining with running := Sparse.put s.relining.running false c b } := rfl

end Sys2Proof.Machine
end

