-- ==== Sys2Proof/Laws/Cores.lean ====
section
/-! SUPPORT. The laws of cores and registers, of register fields, and of who may write a register. -/

namespace Sys2Proof.Machine

/-! Cores -/

@[simp] theorem State.core_setCore_same (s : State) (k : Nat) (x : Core) : (s.setCore k x).core k = x :=
  Sparse.get_put_same _ _ _ _

theorem State.core_setCore_other (s : State) {k j : Nat} (x : Core) (h : j ≠ k) : (s.setCore k x).core j = s.core j :=
  Sparse.get_put_other _ _ _ _ h

@[simp] theorem State.at_mapCore (s : State) (c : CoreId) (f : Core → Core) : (s.mapCore c f).at c = f (s.at c) :=
  State.core_setCore_same _ _ _

theorem State.core_mapCore_other (s : State) (c : CoreId) (f : Core → Core) {k : Nat} (h : k ≠ coreKey c) :
    (s.mapCore c f).core k = s.core k := State.core_setCore_other _ _ h

theorem coreKey_inj {c d : CoreId} (h : coreKey c = coreKey d) : c = d := by
  cases c <;> cases d <;> simp_all [coreKey, tenderKey] <;> omega

theorem State.at_mapCore_other (s : State) {c d : CoreId} (f : Core → Core) (h : d ≠ c) : (s.mapCore c f).at d = s.at d :=
  State.core_mapCore_other _ _ _ fun hk => h (coreKey_inj hk)

/-! Registers of a core -/

@[simp] theorem Core.setBank_pc (x : Core) (b : Bank) : (x.setBank b).pc = x.pc := by unfold Core.setBank; split <;> rfl
@[simp] theorem Core.setBank_psw (x : Core) (b : Bank) : (x.setBank b).psw = x.psw := by unfold Core.setBank; split <;> rfl
@[simp] theorem Core.setBank_w (x : Core) (b : Bank) : (x.setBank b).w = x.w := by unfold Core.setBank; split <;> rfl
@[simp] theorem Core.bank_setBank (x : Core) (b : Bank) : (x.setBank b).bank = b := by
  unfold Core.setBank Core.bank Core.inSecure Core.pswBit; split <;> simp_all

@[simp] theorem Core.setReg_pc (x : Core) (r : Reg) (v : W36) : (x.setReg r v).pc = x.pc := by
  unfold Core.setReg; split; · rfl
  split <;> simp

@[simp] theorem Core.setReg_psw (x : Core) (r : Reg) (v : W36) : (x.setReg r v).psw = x.psw := by
  unfold Core.setReg; split; · rfl
  split <;> simp

@[simp] theorem Core.setRegs_pc (ws : List (Reg × W36)) : ∀ x : Core, (x.setRegs ws).pc = x.pc := by
  induction ws with
  | nil => intro x; rfl
  | cons p rest ih => intro x; exact (ih (x.setReg p.1 p.2)).trans (Core.setReg_pc _ _ _)

/-- w0 reads zero, and a write to it is discarded (R56). -/
@[simp] theorem Core.reg_zero (x : Core) : x.reg 0 = 0 := rfl
@[simp] theorem Core.setReg_zero (x : Core) (v : W36) : x.setReg 0 v = x := rfl

theorem Core.reg_setReg_same (x : Core) {r : Reg} (v : W36) (h : r ≠ 0) : (x.setReg r v).reg r = v := by
  unfold Core.setReg Core.reg
  by_cases h31 : r = 31
  · subst h31; simp
  · simp only [h, h31, if_false, Sparse.get_put_same]

theorem Core.reg_setReg_other (x : Core) {r q : Reg} (v : W36) (h : q ≠ r) : (x.setReg r v).reg q = x.reg q := by
  unfold Core.setReg Core.reg
  by_cases h0 : r = 0
  · simp only [h0, if_true]
  · by_cases h31 : r = 31
    · subst h31; simp only [h, h0, if_false, if_true, Core.setBank_w]
    · have hn : q.toNat ≠ r.toNat := fun e => h (BitVec.eq_of_toNat_eq e)
      simp only [h0, h31, if_false, Sparse.get_put_other _ _ _ _ hn]
      rfl

theorem Core.reg_setRegs_other (ws : List (Reg × W36)) : ∀ (x : Core) {q : Reg}, (∀ p ∈ ws, p.1 ≠ q) →
    (x.setRegs ws).reg q = x.reg q := by
  induction ws with
  | nil => intro x q _; rfl
  | cons p rest ih =>
    intro x q h
    exact (ih (x.setReg p.1 p.2) fun p' hp => h p' (by simp [hp])).trans
      (Core.reg_setReg_other _ _ (Ne.symm (h p (by simp))))

/-! Register fields -/

/-- A field just written reads as the low bits of what was written. -/
@[simp] theorem State.fld_setFld_same (s : State) (f : Fld) (v : Nat) : (s.setFld f v).fld f = v % 2 ^ f.width :=
  Sparse.get_put_same _ _ _ _

theorem State.fld_setFld_other (s : State) {f g : Fld} (v : Nat) (h : g.key ≠ f.key) : (s.setFld f v).fld g = s.fld g :=
  Sparse.get_put_other _ _ _ _ h

@[simp] theorem State.fld_setCore (s : State) (k : Nat) (x : Core) (f : Fld) : (s.setCore k x).fld f = s.fld f := rfl
@[simp] theorem State.fld_mapCore (s : State) (c : CoreId) (g : Core → Core) (f : Fld) : (s.mapCore c g).fld f = s.fld f := rfl
@[simp] theorem State.core_setFld (s : State) (f : Fld) (v k : Nat) : (s.setFld f v).core k = s.core k := rfl
@[simp] theorem State.fld_send (s : State) (o : Output) (f : Fld) : (s.send o).fld f = s.fld f := rfl

/-! Requesters -/

theorem State.writeAs_mayWrite {s : State} {r : Requester} {page : Nat} (h : s.mayWrite r page = true) (off : Nat)
    (k : State → State) : s.writeAs r page off k = k s := by
  unfold State.mayWrite at h
  unfold State.writeAs
  cases r <;> simp_all

theorem State.readAs_mayRead {s : State} {r : Requester} {page : Nat} (h : s.mayRead r page = true) (off : Nat)
    (k : State → W32 × State) : s.readAs r page off k = (k s).2.readAnswer r (k s).1 := by
  unfold State.mayRead at h
  unfold State.readAs State.readAnswer
  cases r <;> simp_all

theorem State.writeSecure_mayWrite {s : State} {page : Nat} (h : s.mayWrite .tenderSecure page = true) (off : Nat)
    (k : State → State) : s.writeSecure .tenderSecure page off k = k s := by
  unfold State.writeSecure
  rw [State.writeAs_mayWrite h]
  rfl

/-! Fetching -/

/-- A core that has fetched is as it was but for its link. -/
theorem State.at_fetched (s : State) (c : CoreId) : ∃ l : Link, (s.fetched c).at c = { s.at c with link := l } := by
  unfold State.fetched
  split
  · exact ⟨(s.at c).link, rfl⟩
  · exact ⟨_, State.at_mapCore _ _ _⟩

theorem State.core_fetched_other (s : State) (c : CoreId) {k : Nat} (h : k ≠ coreKey c) : (s.fetched c).core k = s.core k := by
  unfold State.fetched; split
  · rfl
  · exact State.core_mapCore_other _ _ _ h

@[simp] theorem State.fetched_w_at (s : State) (c : CoreId) : ((s.fetched c).at c).w = (s.at c).w := by
  obtain ⟨l, h⟩ := s.at_fetched c; rw [h]
@[simp] theorem State.fetched_secure_at (s : State) (c : CoreId) : ((s.fetched c).at c).secure = (s.at c).secure := by
  obtain ⟨l, h⟩ := s.at_fetched c; rw [h]
@[simp] theorem State.fetched_normal_at (s : State) (c : CoreId) : ((s.fetched c).at c).normal = (s.at c).normal := by
  obtain ⟨l, h⟩ := s.at_fetched c; rw [h]
@[simp] theorem State.fetched_pc_at (s : State) (c : CoreId) : ((s.fetched c).at c).pc = (s.at c).pc := by
  obtain ⟨l, h⟩ := s.at_fetched c; rw [h]
@[simp] theorem State.fetched_psw_at (s : State) (c : CoreId) : ((s.fetched c).at c).psw = (s.at c).psw := by
  obtain ⟨l, h⟩ := s.at_fetched c; rw [h]
@[simp] theorem State.fetched_sys_at (s : State) (c : CoreId) : ((s.fetched c).at c).sys = (s.at c).sys := by
  obtain ⟨l, h⟩ := s.at_fetched c; rw [h]
@[simp] theorem State.fetched_ls_at (s : State) (c : CoreId) : ((s.fetched c).at c).ls = (s.at c).ls := by
  obtain ⟨l, h⟩ := s.at_fetched c; rw [h]
@[simp] theorem State.fetched_slot_at (s : State) (c : CoreId) : ((s.fetched c).at c).slot = (s.at c).slot := by
  obtain ⟨l, h⟩ := s.at_fetched c; rw [h]
@[simp] theorem State.fetched_afterLoad_at (s : State) (c : CoreId) : ((s.fetched c).at c).afterLoad = (s.at c).afterLoad := by
  obtain ⟨l, h⟩ := s.at_fetched c; rw [h]
@[simp] theorem State.fetched_loads_at (s : State) (c : CoreId) : ((s.fetched c).at c).loads = (s.at c).loads := by
  obtain ⟨l, h⟩ := s.at_fetched c; rw [h]
@[simp] theorem State.fetched_stores_at (s : State) (c : CoreId) : ((s.fetched c).at c).stores = (s.at c).stores := by
  obtain ⟨l, h⟩ := s.at_fetched c; rw [h]
@[simp] theorem State.fetched_lsBad_at (s : State) (c : CoreId) : ((s.fetched c).at c).lsBad = (s.at c).lsBad := by
  obtain ⟨l, h⟩ := s.at_fetched c; rw [h]
@[simp] theorem State.fetched_entryNs_at (s : State) (c : CoreId) : ((s.fetched c).at c).entryNs = (s.at c).entryNs := by
  obtain ⟨l, h⟩ := s.at_fetched c; rw [h]
@[simp] theorem State.fetched_codeOf_at (s : State) (c : CoreId) : ((s.fetched c).at c).codeOf = (s.at c).codeOf := by
  obtain ⟨l, h⟩ := s.at_fetched c; rw [h]
@[simp] theorem State.fetched_brkNum_at (s : State) (c : CoreId) : ((s.fetched c).at c).brkNum = (s.at c).brkNum := by
  obtain ⟨l, h⟩ := s.at_fetched c; rw [h]
@[simp] theorem State.fetched_issue_at (s : State) (c : CoreId) : ((s.fetched c).at c).issue = (s.at c).issue := by
  obtain ⟨l, h⟩ := s.at_fetched c; rw [h]
@[simp] theorem State.fetched_halted_at (s : State) (c : CoreId) : ((s.fetched c).at c).halted = (s.at c).halted := by
  obtain ⟨l, h⟩ := s.at_fetched c; rw [h]
@[simp] theorem State.fetched_haltReq_at (s : State) (c : CoreId) : ((s.fetched c).at c).haltReq = (s.at c).haltReq := by
  obtain ⟨l, h⟩ := s.at_fetched c; rw [h]
@[simp] theorem State.fetched_haltCause_at (s : State) (c : CoreId) : ((s.fetched c).at c).haltCause = (s.at c).haltCause := by
  obtain ⟨l, h⟩ := s.at_fetched c; rw [h]
@[simp] theorem State.fetched_haltUnread_at (s : State) (c : CoreId) : ((s.fetched c).at c).haltUnread = (s.at c).haltUnread := by
  obtain ⟨l, h⟩ := s.at_fetched c; rw [h]
@[simp] theorem State.fetched_run_at (s : State) (c : CoreId) : ((s.fetched c).at c).run = (s.at c).run := by
  obtain ⟨l, h⟩ := s.at_fetched c; rw [h]
@[simp] theorem State.fetched_queue_at (s : State) (c : CoreId) : ((s.fetched c).at c).queue = (s.at c).queue := by
  obtain ⟨l, h⟩ := s.at_fetched c; rw [h]
@[simp] theorem State.fetched_dbg_at (s : State) (c : CoreId) : ((s.fetched c).at c).dbg = (s.at c).dbg := by
  obtain ⟨l, h⟩ := s.at_fetched c; rw [h]
@[simp] theorem State.fetched_pending (s : State) (c : CoreId) : (s.fetched c).pending = s.pending := by unfold State.fetched; split <;> rfl
@[simp] theorem State.fetched_out (s : State) (c : CoreId) : (s.fetched c).out = s.out := by unfold State.fetched; split <;> rfl
@[simp] theorem State.fetched_freeCtr (s : State) (c : CoreId) : (s.fetched c).freeCtr = s.freeCtr := by unfold State.fetched; split <;> rfl
@[simp] theorem State.fetched_regs (s : State) (c : CoreId) : (s.fetched c).regs = s.regs := by unfold State.fetched; split <;> rfl
@[simp] theorem State.fetched_rwlSet (s : State) (c : CoreId) : (s.fetched c).rwlSet = s.rwlSet := by unfold State.fetched; split <;> rfl
@[simp] theorem State.fetched_pins (s : State) (c : CoreId) : (s.fetched c).pins = s.pins := by unfold State.fetched; split <;> rfl
@[simp] theorem State.fetched_fit (s : State) (c : CoreId) : (s.fetched c).fit = s.fit := by unfold State.fetched; split <;> rfl
@[simp] theorem State.fetched_kindling (s : State) (c : CoreId) : (s.fetched c).kindling = s.kindling := by unfold State.fetched; split <;> rfl
@[simp] theorem State.fetched_bankedFrom (s : State) (c : CoreId) : (s.fetched c).bankedFrom = s.bankedFrom := by unfold State.fetched; split <;> rfl
@[simp] theorem State.fetched_raking (s : State) (c : CoreId) : (s.fetched c).raking = s.raking := by unfold State.fetched; split <;> rfl
@[simp] theorem State.fetched_owners (s : State) (c : CoreId) : (s.fetched c).owners = s.owners := by unfold State.fetched; split <;> rfl
@[simp] theorem State.fetched_started (s : State) (c : CoreId) : (s.fetched c).started = s.started := by unfold State.fetched; split <;> rfl
@[simp] theorem State.fetched_loaded (s : State) (c : CoreId) : (s.fetched c).loaded = s.loaded := by unfold State.fetched; split <;> rfl
@[simp] theorem State.fetched_hearth (s : State) (c : CoreId) : (s.fetched c).hearth = s.hearth := by unfold State.fetched; split <;> rfl
@[simp] theorem State.fetched_dram (s : State) (c : CoreId) : (s.fetched c).dram = s.dram := by unfold State.fetched; split <;> rfl
@[simp] theorem State.fetched_dramBad (s : State) (c : CoreId) : (s.fetched c).dramBad = s.dramBad := by unfold State.fetched; split <;> rfl
@[simp] theorem State.fetched_flue (s : State) (c : CoreId) : (s.fetched c).flue = s.flue := by unfold State.fetched; split <;> rfl
@[simp] theorem State.fetched_bellows (s : State) (c : CoreId) : (s.fetched c).bellows = s.bellows := by unfold State.fetched; split <;> rfl
@[simp] theorem State.fetched_blaze (s : State) (c : CoreId) : (s.fetched c).blaze = s.blaze := by unfold State.fetched; split <;> rfl
@[simp] theorem State.fetched_glow (s : State) (c : CoreId) : (s.fetched c).glow = s.glow := by unfold State.fetched; split <;> rfl
@[simp] theorem State.fetched_smoulder (s : State) (c : CoreId) : (s.fetched c).smoulder = s.smoulder := by unfold State.fetched; split <;> rfl
@[simp] theorem State.fetched_edit (s : State) (c : CoreId) : (s.fetched c).edit = s.edit := by unfold State.fetched; split <;> rfl
@[simp] theorem State.fetched_sessions (s : State) (c : CoreId) : (s.fetched c).sessions = s.sessions := by unfold State.fetched; split <;> rfl
@[simp] theorem State.fetched_stations (s : State) (c : CoreId) : (s.fetched c).stations = s.stations := by unfold State.fetched; split <;> rfl
@[simp] theorem State.fetched_addrTable (s : State) (c : CoreId) : (s.fetched c).addrTable = s.addrTable := by unfold State.fetched; split <;> rfl
@[simp] theorem State.fetched_handshakes (s : State) (c : CoreId) : (s.fetched c).handshakes = s.handshakes := by unfold State.fetched; split <;> rfl
@[simp] theorem State.fetched_hob (s : State) (c : CoreId) : (s.fetched c).hob = s.hob := by unfold State.fetched; split <;> rfl
@[simp] theorem State.fetched_erair (s : State) (c : CoreId) : (s.fetched c).erair = s.erair := by unfold State.fetched; split <;> rfl
@[simp] theorem State.fetched_turnspit (s : State) (c : CoreId) : (s.fetched c).turnspit = s.turnspit := by unfold State.fetched; split <;> rfl
@[simp] theorem State.fetched_grate (s : State) (c : CoreId) : (s.fetched c).grate = s.grate := by unfold State.fetched; split <;> rfl
@[simp] theorem State.fetched_mantel (s : State) (c : CoreId) : (s.fetched c).mantel = s.mantel := by unfold State.fetched; split <;> rfl
@[simp] theorem State.fetched_ashpit (s : State) (c : CoreId) : (s.fetched c).ashpit = s.ashpit := by unfold State.fetched; split <;> rfl
@[simp] theorem State.fetched_ember (s : State) (c : CoreId) : (s.fetched c).ember = s.ember := by unfold State.fetched; split <;> rfl
@[simp] theorem State.fetched_fireguard (s : State) (c : CoreId) : (s.fetched c).fireguard = s.fireguard := by unfold State.fetched; split <;> rfl
@[simp] theorem State.fetched_sweepTest (s : State) (c : CoreId) : (s.fetched c).sweepTest = s.sweepTest := by unfold State.fetched; split <;> rfl
@[simp] theorem State.fetched_poker (s : State) (c : CoreId) : (s.fetched c).poker = s.poker := by unfold State.fetched; split <;> rfl
@[simp] theorem State.fetched_mailboxes (s : State) (c : CoreId) : (s.fetched c).mailboxes = s.mailboxes := by unfold State.fetched; split <;> rfl
@[simp] theorem State.fetched_mailOrder (s : State) (c : CoreId) : (s.fetched c).mailOrder = s.mailOrder := by unfold State.fetched; split <;> rfl
@[simp] theorem State.fetched_uartWait (s : State) (c : CoreId) : (s.fetched c).uartWait = s.uartWait := by unfold State.fetched; split <;> rfl
@[simp] theorem State.fetched_pcie (s : State) (c : CoreId) : (s.fetched c).pcie = s.pcie := by unfold State.fetched; split <;> rfl
@[simp] theorem State.fetched_fuses (s : State) (c : CoreId) : (s.fetched c).fuses = s.fuses := by unfold State.fetched; split <;> rfl
@[simp] theorem State.fetched_relining (s : State) (c : CoreId) : (s.fetched c).relining = s.relining := by unfold State.fetched; split <;> rfl

@[simp] theorem State.fetched_unwatched (s : State) (c : CoreId) (kind : Nat) (a : W36) (len : Nat) :
    ((s.fetched c).at c).unwatched kind a len = (s.at c).unwatched kind a len := by
  obtain ⟨l, h⟩ := s.at_fetched c; rw [h]; rfl

@[simp] theorem State.fld_fetched (s : State) (c : CoreId) (f : Fld) : (s.fetched c).fld f = s.fld f := by
  unfold State.fld; rw [State.fetched_regs]

/-! Issue -/

/-- A Poker request that nothing refuses has its effect (R476). -/
theorem State.poker_open {s : State}
    (h : s.mainUp = true ∧ s.bit Reg.pkrControlDisable = false ∧ (s.bit Reg.pkrControlAuthAll = false ∨ s.poker.auth = true))
    (free : Bool) (k : State → State) : s.poker_ free k = k s := by
  obtain ⟨h1, h2, h3 | h3⟩ := h <;> simp [State.poker_, h1, h2, h3]

/-- A Poker request that needs no authentication has its effect (R476). -/
theorem State.poker_free {s : State} (h : s.mainUp = true ∧ s.bit Reg.pkrControlDisable = false) (k : State → State) :
    s.poker_ true k = k s := by
  obtain ⟨h1, h2⟩ := h
  simp [State.poker_, h1, h2]

/-- No load lands where none is asked to. -/
theorem State.land_none (s : State) (c : CoreId) (ls : List Load) : s.land c 0 ls = (none, s) := by cases ls <;> rfl

/-- An instruction that issues comes to what its action comes to. -/
theorem State.runOp_ready {s : State} {c : CoreId} {len : Nat} (h : s.ready c len = true) (op : Op) :
    s.runOp c len op = (op (s.fetched c) c).state c (s.at c).pc := by
  simp only [State.ready, Bool.and_eq_true, Option.isNone_iff_eq_none, decide_eq_true_eq] at h
  obtain ⟨⟨⟨⟨h1, h0⟩, h2⟩, h3⟩, h4⟩ := h
  unfold State.runOp State.issue
  rw [h0, State.land_none]
  unfold State.fetch State.watch
  simp [h1, h2, h3, h4]

/-- A landing that raises nothing leaves the pc. -/
theorem State.land_pc (c : CoreId) : ∀ (n : Nat) (ls : List Load) (s u : State), s.land c n ls = (none, u) →
    (u.at c).pc = (s.at c).pc := by
  intro n
  induction n with
  | zero => intro ls s u h; cases ls <;> (simp only [State.land, Prod.mk.injEq, true_and] at h; rw [h])
  | succ n ih =>
    intro ls s u h
    cases ls with
    | nil => simp only [State.land, Prod.mk.injEq, true_and] at h; rw [h]
    | cons l rest =>
      unfold State.land State.landOne at h
      by_cases hb : l.bad = true
      · simp [hb] at h
      · simp only [hb] at h
        refine (ih rest _ _ h).trans ?_
        simp only [State.at_mapCore, Core.setRegs_pc]
        rfl

theorem State.waited_of_lands {s : State} {c : CoreId} {srcs dests : List Reg} (h : s.lands c srcs dests = true) :
    s.waited c srcs dests = (none, s.after c srcs dests) := by
  simp only [State.lands, Option.isNone_iff_eq_none] at h
  exact Prod.ext h rfl

/-- An interlock whose loads land. -/
theorem State.interlock_waited {s u : State} {c : CoreId} {srcs dests : List Reg} (h : s.waited c srcs dests = (none, u))
    (k : State → Out) : (s.fetched c).interlock c srcs dests k = k u := by
  unfold State.waited at h
  unfold State.interlock
  simp only at h ⊢
  rw [h]

/-- Once the loads that it waits for have landed, a register instruction writes its registers and the next one follows. -/
theorem State.compute_waited {s u : State} {c : CoreId} {srcs dests : List Reg} (h : s.waited c srcs dests = (none, u))
    (len : Nat) (f : Core → List (Reg × W36)) :
    ((s.fetched c).compute c len srcs dests f).state c (s.at c).pc = s.wrote u c len (f (u.at c)) := by
  unfold State.compute
  rw [State.interlock_waited h]
  unfold State.fin Out.state State.wrote
  simp only [State.at_mapCore, Core.setRegs_pc]
  rw [State.land_pc c _ _ (s.fetched c) u h, State.fetched_pc_at]
  rfl

theorem State.interlock_lands {s : State} {c : CoreId} {srcs dests : List Reg} (h : s.lands c srcs dests = true)
    (k : State → Out) : (s.fetched c).interlock c srcs dests k = k (s.after c srcs dests) :=
  State.interlock_waited (State.waited_of_lands h) k

theorem State.after_pc {s : State} {c : CoreId} {srcs dests : List Reg} (h : s.lands c srcs dests = true) :
    ((s.after c srcs dests).at c).pc = (s.at c).pc :=
  (State.land_pc c _ _ _ _ (State.waited_of_lands h)).trans (State.fetched_pc_at s c)

theorem State.compute_lands {s : State} {c : CoreId} {srcs dests : List Reg} (h : s.lands c srcs dests = true)
    (len : Nat) (f : Core → List (Reg × W36)) :
    ((s.fetched c).compute c len srcs dests f).state c (s.at c).pc =
      s.wrote (s.after c srcs dests) c len (f ((s.after c srcs dests).at c)) :=
  State.compute_waited (State.waited_of_lands h) len f

/-- An access that no breakpoint stops. -/
theorem State.watch_unwatched {s : State} {c : CoreId} {kind : Nat} {a : W36} {len : Nat}
    (h : (s.at c).unwatched kind a len = true) (k : State → Out) : s.watch c kind a len k = k s := by
  unfold State.watch
  simp [h]

end Sys2Proof.Machine
end

