-- ==== Sys2Proof/Laws/Access.lean ====
section
/-! SUPPORT. What the shared operations of loads and stores come to, each said once. -/

namespace Sys2Proof.Machine

/-- Where no posted store is in the way, none completes. -/
theorem State.drainsUntil_none {u : State} {c : CoreId} {p : Store → Bool} (h : (u.at c).stores.any p = false) (n : Nat) :
    u.drainsUntil c p n = some u := by
  cases n <;> simp [State.drainsUntil, h]

/-- Stores that complete without moving the core let the instruction go on. -/
theorem State.afterThese_settles {u v : State} {c : CoreId} {p : Store → Bool} (h : u.settles c p v) (k : State → Out) :
    u.afterThese c p k = k v := by
  obtain ⟨h1, h2⟩ := h
  simp [State.afterThese, State.onward, h1, h2]

/-- With no posted store in the way an instruction goes on at once. -/
theorem State.afterThese_none {u : State} {c : CoreId} {p : Store → Bool} (h : (u.at c).stores.any p = false)
    (k : State → Out) : u.afterThese c p k = k u :=
  State.afterThese_settles ⟨State.drainsUntil_none h _, by simp [sameSpot]⟩ k

/-- No posted store is in the way of a load from local store. -/
theorem Store.blocks_ls (a n : Nat) (l : List Store) : l.any (Store.blocks .ls a n) = false := by
  simp [Store.blocks]

/-- A load from local store delivers at once, or raises UNCORRECTABLE (R73, R87). -/
theorem State.load_ls {u : State} {c : CoreId} {a : W36} {ds : List Reg} (h : u.loadSpace c a ds.length = some .ls)
    (hw : (u.at c).unwatched 1 a ds.length = true) :
    u.load c a ds =
      if (u.loadWords c .ls a.toNat ds.length).2.1 then
        .trap (u.loadWords c .ls a.toNat ds.length).2.2
          (((u.loadWords c .ls a.toNat ds.length).2.2.at c).loadAt a [a.toNat] [] true).trap
      else (u.loadWords c .ls a.toNat ds.length).2.2.loadNow c (ds.zip (u.loadWords c .ls a.toNat ds.length).1) := by
  unfold State.load
  simp only [h]
  rw [State.watch_unwatched hw, State.afterThese_none (Store.blocks_ls _ _ _)]
  simp

/-- A load from elsewhere waits for the stores in its way, and is outstanding (R75, R78, R162). -/
theorem State.load_far {u v : State} {c : CoreId} {a : W36} {ds : List Reg} {sp : Space} (hs : sp ≠ .ls)
    (h : u.loadSpace c a ds.length = some sp) (hw : (u.at c).unwatched 1 a ds.length = true)
    (hv : u.settles c (Store.blocks sp a.toNat ds.length) v) :
    u.load c a ds =
      (v.loadWords c sp a.toNat ds.length).2.2.outstand c
        (((v.loadWords c sp a.toNat ds.length).2.2.at c).loadAt a ((List.range ds.length).map (a.toNat + ·))
          (ds.zip (v.loadWords c sp a.toNat ds.length).1)
          (v.loadWords c sp a.toNat ds.length).2.1) := by
  unfold State.load
  simp only [h]
  rw [State.watch_unwatched hw, State.afterThese_settles hv]
  simp [hs]

/-- A load with room becomes the last outstanding one (R24, R75). -/
theorem State.outstand_room {v w : State} {c : CoreId} {l : Load} (h : v.hasRoom c w) :
    v.outstand c l =
      .done (w.mapCore c fun x => x.awaits (coreKey c) l) (wordAt (w.at c).pc 1) (some ((w.at c).slotOf (l.dests.map (·.1)))) := by
  unfold State.hasRoom at h
  unfold State.outstand
  rw [h]

/-- A read of format B that is allowed becomes outstanding (R158, R159, R162). -/
theorem State.imageLoad_view {u v : State} {c : CoreId} {k : View} {a : W36} {d : Reg} {f : W36 → W36 → W36}
    (h : u.viewOk c k a = true) (hw : (u.at c).unwatched 1 a 1 = true) (hv : u.settles c (fun st => st.has a.toNat) v) :
    u.imageLoad c k a d f =
      v.outstand c ((v.at c).loadAt a (View.covers k a.toNat)
        [(d, f (v.hearthLoad c a.toNat) (if k = .word then 0 else v.hearthLoad c (prevAddr a.toNat)))] (v.viewBad c k a)) := by
  unfold State.imageLoad
  simp only [h]
  rw [State.watch_unwatched hw, State.afterThese_settles hv]
  rfl

/-- What a load in local store leaves behind. -/
theorem State.loadNow_state {s w : State} {c : CoreId} {ds : List (Reg × W36)} :
    (w.loadNow c ds).state c (s.at c).pc = s.gotLoad w c ds := rfl

/-- A store with room in the buffer is posted (R24, R78). -/
theorem State.post_room {u v : State} {c : CoreId} {a : W36} {vs : List W36} {p : Option (BitVec 5)}
    (h : u.takesStore c v) : u.post c a vs p = (posted v c a vs p).fin c 1 := by
  obtain ⟨h1, h2⟩ := h
  unfold State.post State.afterDrains State.onward
  simp [h1, h2, posted]

/-- A store into local store stands at once (R78). -/
theorem State.store_ls {u : State} {c : CoreId} {a : W36} {vs : List W36} (h : u.storeSpace c a vs.length = some .ls)
    (hw : (u.at c).unwatched 2 a vs.length = true) :
    u.store c a vs = (u.mapCore c fun x => x.storeLs a.toNat vs).fin c 1 := by
  unfold State.store
  simp only [h]
  rw [State.watch_unwatched hw]

/-- A store elsewhere is posted. -/
theorem State.store_far {u : State} {c : CoreId} {a : W36} {vs : List W36} {sp : Space} (hs : sp ≠ .ls)
    (h : u.storeSpace c a vs.length = some sp) (hw : (u.at c).unwatched 2 a vs.length = true) :
    u.store c a vs = u.post c a vs none := by
  unfold State.store
  simp only [h]
  rw [State.watch_unwatched hw]

/-- A buffer with fewer than 4 posted stores takes one at once. -/
theorem State.takesStore_room {u : State} {c : CoreId} (h : (u.at c).stores.length < 4) : u.takesStore c u := by
  have : (u.at c).stores.length + 1 - storeSlots = 0 := by unfold storeSlots; omega
  refine ⟨?_, by simp [sameSpot]⟩
  rw [this]; rfl

/-- With fewer than 4 outstanding loads there is room for one more. -/
theorem State.hasRoom_few {v : State} {c : CoreId} (h : (v.at c).loads.length < 4) : v.hasRoom c v := by
  have : (v.at c).loads.length + 1 - loadSlots = 0 := by unfold loadSlots; omega
  unfold State.hasRoom
  rw [this, State.land_none]

/-- A point write with room in the buffer is posted (R160). -/
theorem State.pointStore_room {u v : State} {c : CoreId} {a : W36} {b : BitVec 5} {w : W36}
    (h : u.storeSpace c a 1 = some .hearth) (hw : (u.at c).unwatched 2 a 1 = true) (hv : u.takesStore c v) :
    u.pointStore c a b w = (posted v c a [w] (some b)).fin c 1 := by
  unfold State.pointStore
  simp only [h]
  rw [State.watch_unwatched hw, State.post_room hv]
  rfl

end Sys2Proof.Machine
end

