-- ==== Sys2Proof/Laws/Flue.lean ====
section
/-! SUPPORT. The laws of the Flue: every operation on a link keeps the credit balance of R48, and nothing stays outstanding once
all loads have landed. -/

namespace Sys2Proof.Machine

/-! Sums over the packets sent -/

/-- The credits of channel `c`'s own pool that packets hold. -/
def ownOut (sent : List Sent) (c : Channel4) : Nat :=
  ((sent.filter fun x => decide (x.packet.header.channel = c)).map (·.own)).sum

/-- The credits of the shared pool that packets hold. -/
def sharedOut (sent : List Sent) : Nat := (sent.map (·.shared)).sum

theorem foldl_add_eq {α : Type} (f : α → Nat) (l : List α) : ∀ n, l.foldl (fun n x => n + f x) n = n + (l.map f).sum := by
  induction l with
  | nil => intro n; simp
  | cons x rest ih => intro n; simp [ih, Nat.add_assoc]

/-- The balance of R48, as equations. -/
theorem Link.balanced_iff (l : Link) : l.balanced = true ↔
    (∀ c, l.own c + ownOut l.sent c = reserved c) ∧ l.shared + sharedOut l.sent = sharedPool := by
  simp only [Link.balanced, foldl_add_eq, Nat.zero_add, ownOut, sharedOut, List.all_eq_true, Bool.and_eq_true, decide_eq_true_eq]
  constructor
  · rintro ⟨h, hs⟩
    exact ⟨fun c => by cases c <;> exact h _ (by simp), hs⟩
  · rintro ⟨h, hs⟩
    exact ⟨fun c _ => h c, hs⟩

@[simp] theorem ownOut_nil (c : Channel4) : ownOut [] c = 0 := rfl
@[simp] theorem sharedOut_nil : sharedOut [] = 0 := rfl

theorem ownOut_cons (x : Sent) (l : List Sent) (c : Channel4) :
    ownOut (x :: l) c = (if x.packet.header.channel = c then x.own else 0) + ownOut l c := by
  unfold ownOut; by_cases h : x.packet.header.channel = c <;> simp [h]

theorem sharedOut_cons (x : Sent) (l : List Sent) : sharedOut (x :: l) = x.shared + sharedOut l := by simp [sharedOut]

theorem ownOut_append (l m : List Sent) (c : Channel4) : ownOut (l ++ m) c = ownOut l c + ownOut m c := by
  simp [ownOut]

theorem sharedOut_append (l m : List Sent) : sharedOut (l ++ m) = sharedOut l + sharedOut m := by simp [sharedOut]

theorem ownOut_erase {x : Sent} {l : List Sent} (h : x ∈ l) (c : Channel4) :
    ownOut l c = (if x.packet.header.channel = c then x.own else 0) + ownOut (l.erase x) c := by
  induction l with
  | nil => cases h
  | cons y rest ih =>
    by_cases hy : y = x
    · subst hy; simp [ownOut_cons]
    · have hx : x ∈ rest := by simpa [Ne.symm hy] using h
      rw [List.erase_cons_tail (by simpa using hy), ownOut_cons, ownOut_cons, ih hx]; omega

theorem sharedOut_erase {x : Sent} {l : List Sent} (h : x ∈ l) : sharedOut l = x.shared + sharedOut (l.erase x) := by
  induction l with
  | nil => cases h
  | cons y rest ih =>
    by_cases hy : y = x
    · subst hy; simp [sharedOut_cons]
    · have hx : x ∈ rest := by simpa [Ne.symm hy] using h
      rw [List.erase_cons_tail (by simpa using hy), sharedOut_cons, sharedOut_cons, ih hx]; omega

theorem ownOut_split (p : Sent → Bool) (l : List Sent) (c : Channel4) :
    ownOut l c = ownOut (l.filter p) c + ownOut (l.filter fun x => !p x) c := by
  induction l with
  | nil => simp
  | cons x rest ih => by_cases h : p x <;> simp [h, ownOut_cons, ih] <;> omega

theorem sharedOut_split (p : Sent → Bool) (l : List Sent) :
    sharedOut l = sharedOut (l.filter p) + sharedOut (l.filter fun x => !p x) := by
  induction l with
  | nil => simp
  | cons x rest ih => by_cases h : p x <;> simp [h, sharedOut_cons, ih] <;> omega

/-! The pools of a link -/

@[simp] theorem Link.setOwn_sent (l : Link) (c : Channel4) (n : Nat) : (l.setOwn c n).sent = l.sent := by cases c <;> rfl
@[simp] theorem Link.setOwn_shared (l : Link) (c : Channel4) (n : Nat) : (l.setOwn c n).shared = l.shared := by cases c <;> rfl

theorem Link.own_setOwn (l : Link) (c d : Channel4) (n : Nat) : (l.setOwn c n).own d = if d = c then n else l.own d := by
  cases c <;> cases d <;> rfl

@[simp] theorem Link.own_with (l : Link) (sh : Nat) (w : List Packet) (se : List Sent) (c : Channel4) :
    ({ l with shared := sh, waiting := w, sent := se } : Link).own c = l.own c := by cases c <;> rfl

theorem Link.credit_sent (l : Link) (x : Sent) : (l.credit x).sent = l.sent := by simp [Link.credit]
theorem Link.credit_shared (l : Link) (x : Sent) : (l.credit x).shared = l.shared + x.shared := rfl

theorem Link.credit_own (l : Link) (x : Sent) (c : Channel4) :
    (l.credit x).own c = l.own c + if x.packet.header.channel = c then x.own else 0 := by
  have h : (l.credit x).own c = (l.setOwn x.packet.header.channel (l.own x.packet.header.channel + x.own)).own c := by
    unfold Link.credit; cases c <;> rfl
  rw [h, Link.own_setOwn]
  by_cases hc : c = x.packet.header.channel
  · subst hc; simp
  · simp [hc, Ne.symm hc]

theorem Link.credits_own (xs : List Sent) : ∀ (l : Link) (c : Channel4), (xs.foldl Link.credit l).own c = l.own c + ownOut xs c := by
  induction xs with
  | nil => intro l c; simp
  | cons x rest ih => intro l c; rw [List.foldl_cons, ih, Link.credit_own, ownOut_cons]; omega

theorem Link.credits_shared (xs : List Sent) : ∀ l : Link, (xs.foldl Link.credit l).shared = l.shared + sharedOut xs := by
  induction xs with
  | nil => intro l; simp
  | cons x rest ih => intro l; rw [List.foldl_cons, ih, Link.credit_shared, sharedOut_cons]; omega

theorem Link.credits_sent (xs : List Sent) : ∀ l : Link, (xs.foldl Link.credit l).sent = l.sent := by
  induction xs with
  | nil => intro l; rfl
  | cons x rest ih => intro l; rw [List.foldl_cons, ih, Link.credit_sent]

/-! Every operation keeps the balance -/

theorem Link.balanced_launch {l m : Link} {p : Packet} (h : l.balanced = true) (hm : l.launch p = some m) : m.balanced = true := by
  rw [Link.balanced_iff] at h ⊢
  obtain ⟨ho, hs⟩ := h
  unfold Link.launch at hm
  dsimp only at hm
  split at hm
  · case isTrue hc =>
    cases hm
    have own_eq : ∀ c, (({ l.setOwn p.header.channel (l.own p.header.channel - min p.size (l.own p.header.channel)) with
        shared := l.shared - (p.size - min p.size (l.own p.header.channel)),
        sent := l.sent ++ [⟨p, min p.size (l.own p.header.channel), p.size - min p.size (l.own p.header.channel), none⟩] } : Link)).own c =
        (l.setOwn p.header.channel (l.own p.header.channel - min p.size (l.own p.header.channel))).own c := by
      intro c; cases c <;> rfl
    refine ⟨fun c => ?_, ?_⟩
    · rw [own_eq, Link.own_setOwn]
      have := ho c
      simp only [ownOut_append, ownOut_cons, ownOut_nil]
      by_cases hcc : c = p.header.channel
      · subst hcc; simp; omega
      · simp [hcc, Ne.symm hcc]; omega
    · simp only [sharedOut_append, sharedOut_cons, sharedOut_nil]
      omega
  · cases hm

/-- What waits is in no pool. -/
theorem Link.balanced_waiting (l : Link) (w : List Packet) : ({ l with waiting := w } : Link).balanced = l.balanced := rfl

theorem Link.balanced_pumpFrom (ps : List Packet) : ∀ {l : Link} {held : List Channel4}, l.balanced = true →
    (l.pumpFrom ps held).balanced = true := by
  induction ps with
  | nil => intro l held h; exact h
  | cons p rest ih =>
    intro l held h
    unfold Link.pumpFrom
    split
    · exact ih h
    · split
      · case h_1 m hm => exact ih (Link.balanced_launch h hm)
      · exact ih h

theorem Link.balanced_pump {l : Link} (h : l.balanced = true) : l.pump.balanced = true := Link.balanced_pumpFrom _ h

theorem Link.balanced_leave {l m : Link} {p : Sent → Bool} (h : l.balanced = true) (hm : l.leave p = some m) :
    m.balanced = true := by
  unfold Link.leave at hm
  cases hf : l.sent.find? p with
  | none => simp [hf] at hm
  | some x =>
    simp only [hf, Option.map_some] at hm
    cases hm
    refine Link.balanced_pump ?_
    rw [Link.balanced_iff] at h ⊢
    have hx := List.mem_of_find?_eq_some hf
    refine ⟨fun c => ?_, ?_⟩
    · have := h.1 c
      rw [ownOut_erase hx c] at this
      rw [Link.credit_own, Link.credit_sent]
      have e : ({ l with sent := l.sent.erase x } : Link).own c = l.own c := by cases c <;> rfl
      rw [e]; dsimp only; omega
    · have := h.2
      rw [sharedOut_erase hx] at this
      rw [Link.credit_shared, Link.credit_sent]; dsimp only; omega

theorem Link.balanced_drop {l : Link} (q : Packet → Bool) (h : l.balanced = true) : (l.drop q).balanced = true := by
  unfold Link.drop
  refine Link.balanced_pump ?_
  rw [Link.balanced_iff] at h ⊢
  refine ⟨fun c => ?_, ?_⟩
  · have := h.1 c
    rw [ownOut_split (fun x => q x.packet)] at this
    rw [Link.credits_own, Link.credits_sent]
    rw [show ∀ (w : List Packet) (se : List Sent), ({ l with waiting := w, sent := se } : Link).own c = l.own c from
      fun _ _ => by cases c <;> rfl]
    dsimp only; omega
  · have := h.2
    rw [sharedOut_split (fun x => q x.packet)] at this
    rw [Link.credits_shared, Link.credits_sent]
    dsimp only; omega

theorem Link.balanced_forget {l : Link} (k : PacketKind) (h : l.balanced = true) : (l.forget k).balanced = true :=
  Link.balanced_drop _ h

theorem Link.balanced_request {l : Link} (p : Packet) (h : l.balanced = true) : (l.request p).balanced = true :=
  Link.balanced_pump h

theorem Link.balanced_carry (k : PacketKind) (a : W36) (n : Nat) : ∀ {l : Link}, l.balanced = true →
    (l.carry k a n).balanced = true := by
  induction n with
  | zero => intro l h; exact h
  | succ n ih =>
    intro l h
    unfold Link.carry
    split
    · exact h
    · split
      · case h_1 m hm => exact ih (Link.balanced_leave h hm)
      · exact h

theorem Link.balanced_answered {l : Link} (k : PacketKind) (a : W36) (n : Nat) (h : l.balanced = true) :
    (l.answered k a n).balanced = true := by
  unfold Link.answered
  split
  · exact h
  · have hc := Link.balanced_carry k a (l.waiting.length + l.sent.length) h
    dsimp only
    split
    · case h_1 m hm => exact Link.balanced_leave hc hm
    · exact hc

/-- Flits that reach their slots hold the credits that they held (R21, R26). -/
theorem Link.balanced_arrive (l : Link) (f : Sent → Option Nat) :
    ({ l with sent := l.sent.map fun x => { x with arrived := f x } } : Link).balanced = l.balanced := by
  have e : ∀ (g : Sent → Sent), (∀ x, (g x).packet = x.packet ∧ (g x).own = x.own ∧ (g x).shared = x.shared) →
      ∀ xs : List Sent, (∀ c, ownOut (xs.map g) c = ownOut xs c) ∧ sharedOut (xs.map g) = sharedOut xs := by
    intro g hg xs
    induction xs with
    | nil => exact ⟨fun _ => rfl, rfl⟩
    | cons x rest ih =>
      obtain ⟨h1, h2, h3⟩ := hg x
      refine ⟨fun c => ?_, ?_⟩
      · rw [List.map_cons, ownOut_cons, ownOut_cons, h1, h2, ih.1 c]
      · rw [List.map_cons, sharedOut_cons, sharedOut_cons, h3, ih.2]
  obtain ⟨h1, h2⟩ := e (fun x => { x with arrived := f x }) (fun _ => ⟨rfl, rfl, rfl⟩) l.sent
  have ho : ∀ c, ({ l with sent := l.sent.map fun x => { x with arrived := f x } } : Link).own c = l.own c :=
    fun c => by cases c <;> rfl
  rw [Bool.eq_iff_iff, Link.balanced_iff, Link.balanced_iff]
  simp only [ho, h1, h2]

/-! Landing -/

theorem Core.setBank_loads (x : Core) (b : Bank) : (x.setBank b).loads = x.loads := by unfold Core.setBank; split <;> rfl

theorem Core.setReg_loads (x : Core) (r : Reg) (v : W36) : (x.setReg r v).loads = x.loads := by
  unfold Core.setReg; split; · rfl
  split
  · exact Core.setBank_loads _ _
  · rfl

theorem Core.setRegs_loads (ws : List (Reg × W36)) : ∀ x : Core, (x.setRegs ws).loads = x.loads := by
  induction ws with
  | nil => intro x; rfl
  | cons p rest ih => intro x; exact (ih (x.setReg p.1 p.2)).trans (Core.setReg_loads _ _ _)

/-- Once all outstanding loads have landed, none is outstanding. -/
@[simp] theorem Core.landAll_loads (c : Core) : c.landAll.loads = [] := by
  have key : ∀ (ls : List Load) (x : Core), (ls.foldl (fun x l => { (x.setRegs l.writes).answers .load l.addr with
      loads := x.loads.tail }) x).loads = x.loads.drop ls.length := by
    intro ls
    induction ls with
    | nil => intro x; rfl
    | cons l rest ih => intro x; rw [List.foldl_cons, ih]; simp
  have := key c.loads c
  simpa [Core.landAll] using this

/-- A link written with its balance keeps the balances of the Flue (R48). -/
theorem State.flueBalanced_setLink {s : State} {i : Nat} {l : Link} (h : s.flueBalanced = true) (hl : l.balanced = true) :
    (s.setLink i l).flueBalanced = true := by
  simp only [State.flueBalanced, Bool.and_eq_true] at h
  obtain ⟨⟨hc, hk⟩, ha⟩ := h
  unfold State.setLink
  split
  · have hs : (s.core i).slotsBalanced = true :=
      Sparse.get_of_all (p := Core.slotsBalanced) (List.all_eq_true.mpr fun e he => by
        have := List.all_eq_true.mp hc e he
        simp only [Bool.and_eq_true] at this
        exact this.2) rfl i
    simp only [State.flueBalanced, State.setCore, Bool.and_eq_true]
    refine ⟨⟨Sparse.all_put hc ?_, hk⟩, ha⟩
    simp only [Bool.and_eq_true]
    exact ⟨hl, hs⟩
  · simp only [State.flueBalanced, Bool.and_eq_true]
    exact ⟨⟨hc, Sparse.all_put hk hl⟩, ha⟩

/-- Every link of a balanced Flue is balanced. -/
theorem State.link_balanced {s : State} (h : s.flueBalanced = true) (i : Nat) : (s.link i).balanced = true := by
  simp only [State.flueBalanced, Bool.and_eq_true] at h
  unfold State.link
  split
  · exact Sparse.get_of_all (p := fun c : Core => c.link.balanced) (List.all_eq_true.mpr fun e he => by
      have := List.all_eq_true.mp h.1.1 e he
      simp only [Bool.and_eq_true] at this
      exact this.1) (by rfl) i
  · exact Sparse.get_of_all h.1.2 (by rfl) i

end Sys2Proof.Machine
end

