-- ==== Sys2Proof/Laws/Kept.lean ====
section
/-! SUPPORT. What every command and every tick keep, whatever they do: `Kept s t` says that `t` waits for the same commands as
`s`, that its fuses are later than those of `s`, and that the flash array is canonical where it was. -/

namespace Sys2Proof.Machine

theorem Fuses.Later.refl (f : Fuses) : Fuses.Later f f := ⟨fun _ h => h, fun _ h => .inl h, fun h => h, fun _ h => h, fun _ => Nat.le_refl _⟩

theorem Fuses.Later.trans {f g k : Fuses} (h : Fuses.Later f g) (h' : Fuses.Later g k) : Fuses.Later f k := by
  obtain ⟨a1, a2, a3, a4, a5⟩ := h
  obtain ⟨b1, b2, b3, b4, b5⟩ := h'
  refine ⟨fun i x => b1 i (a1 i x), fun i x => ?_, fun x => b3 (a3 x), fun q x => b4 q (a4 q x), fun i => Nat.le_trans (a5 i) (b5 i)⟩
  cases a2 i x with
  | inl y => exact b2 i y
  | inr y => exact .inr (b1 i y)

/-- `t` is a state that an operation may leave behind from `s`. -/
structure Kept (s t : State) : Prop where
  pending : t.pending = s.pending
  fuses : Fuses.Later s.fuses t.fuses
  flash : Memory.wf s.mantel.flash = true → Memory.wf t.mantel.flash = true

theorem Kept.refl (s : State) : Kept s s := ⟨rfl, Fuses.Later.refl _, fun h => h⟩
theorem Kept.trans {s t u : State} (h : Kept s t) (h' : Kept t u) : Kept s u :=
  ⟨h'.pending.trans h.pending, h.fuses.trans h'.fuses, fun x => h'.flash (h.flash x)⟩

theorem Kept.ite {s a b : State} {c : Prop} [Decidable c] (ha : Kept s a) (hb : Kept s b) : Kept s (if c then a else b) := by
  split <;> assumption

theorem Kept.upd {s t : State} (h : Kept s t) {x_mantel : Mantel} (hm : x_mantel.flash = t.mantel.flash) {x_out x_freeCtr x_regs x_rwlSet x_pins x_fit x_kindling x_bankedFrom x_raking x_owners x_started x_cores x_loaded x_hearth x_dram x_dramBad x_flue x_bellows x_blaze x_glow x_smoulder x_edit x_sessions x_stations x_addrTable x_handshakes x_hob x_erair x_turnspit x_grate x_ashpit x_ember x_fireguard x_sweepTest x_poker x_mailboxes x_mailOrder x_uartWait x_pcie x_relining} : Kept s (State.mk t.pending x_out x_freeCtr x_regs x_rwlSet x_pins x_fit x_kindling x_bankedFrom x_raking x_owners x_started x_cores x_loaded x_hearth x_dram x_dramBad x_flue x_bellows x_blaze x_glow x_smoulder x_edit x_sessions x_stations x_addrTable x_handshakes x_hob x_erair x_turnspit x_grate x_mantel x_ashpit x_ember x_fireguard x_sweepTest x_poker x_mailboxes x_mailOrder x_uartWait x_pcie t.fuses x_relining) :=
  ⟨h.pending, h.fuses, fun x => by have := h.flash x; rw [← hm] at this; exact this⟩

theorem Kept.updFlash {s t : State} (h : Kept s t) {x_mantel : Mantel} (hm : Memory.wf t.mantel.flash = true → Memory.wf x_mantel.flash = true) {x_out x_freeCtr x_regs x_rwlSet x_pins x_fit x_kindling x_bankedFrom x_raking x_owners x_started x_cores x_loaded x_hearth x_dram x_dramBad x_flue x_bellows x_blaze x_glow x_smoulder x_edit x_sessions x_stations x_addrTable x_handshakes x_hob x_erair x_turnspit x_grate x_ashpit x_ember x_fireguard x_sweepTest x_poker x_mailboxes x_mailOrder x_uartWait x_pcie x_relining} : Kept s (State.mk t.pending x_out x_freeCtr x_regs x_rwlSet x_pins x_fit x_kindling x_bankedFrom x_raking x_owners x_started x_cores x_loaded x_hearth x_dram x_dramBad x_flue x_bellows x_blaze x_glow x_smoulder x_edit x_sessions x_stations x_addrTable x_handshakes x_hob x_erair x_turnspit x_grate x_mantel x_ashpit x_ember x_fireguard x_sweepTest x_poker x_mailboxes x_mailOrder x_uartWait x_pcie t.fuses x_relining) :=
  ⟨h.pending, h.fuses, fun x => hm (h.flash x)⟩

theorem Memory.wf_putMany {m : List Host.Cell} (a : Nat) (bs : List Byte) (h : Memory.wf m = true) :
    Memory.wf (Sparse.putMany m erasedByte a bs) = true := Sparse.wf_putMany bs a h
theorem Memory.wf_clear {m : List Host.Cell} (a b : Nat) (h : Memory.wf m = true) :
    Memory.wf (Sparse.clear m a b) = true := Sparse.wf_clear a b h

theorem Kept.snd {s u : State} {α : Type} {p : α × State} {v : α} (h : p = (v, u)) (hp : Kept s p.2) : Kept s u := by subst h; exact hp
theorem Kept.snd2 {s u : State} {α β : Type} {p : α × β × State} {v : α} {w : β} (h : p = (v, w, u)) (hp : Kept s p.2.2) : Kept s u := by subst h; exact hp

theorem Kept.foldl {s : State} {α : Type} {f : State → α → State} {l : List α} {t : State} (h : Kept s t)
    (hf : ∀ t x, Kept s t → Kept s (f t x)) : Kept s (l.foldl f t) := by
  induction l generalizing t with
  | nil => exact h
  | cons a l ih => exact ih (hf _ _ h)

/-- A command answers such a state. -/
def KeptR (s : State) (r : Host.Outcome State Fault Refusal) : Prop := ∀ t, r = .next t → Kept s t
theorem KeptR.next {s t : State} (h : Kept s t) : KeptR s (.next t) := fun _ e => by cases e; exact h
theorem KeptR.ite {s : State} {a b} {c : Prop} [Decidable c] (ha : KeptR s a) (hb : KeptR s b) : KeptR s (if c then a else b) := by
  split <;> assumption

/-- An instruction leaves such a state. -/
def KeptOut (s : State) (o : Out) : Prop := match o with | .done u _ _ => Kept s u | .trap u _ => Kept s u | .stopped u => Kept s u
theorem KeptOut.done {s u : State} {a b} (h : Kept s u) : KeptOut s (.done u a b) := h
theorem KeptOut.trap {s u : State} {a} (h : Kept s u) : KeptOut s (.trap u a) := h
theorem KeptOut.stopped {s u : State} (h : Kept s u) : KeptOut s (.stopped u) := h
theorem KeptOut.ite {s : State} {a b} {c : Prop} [Decidable c] (ha : KeptOut s a) (hb : KeptOut s b) : KeptOut s (if c then a else b) := by
  split <;> assumption

/-- Such a state, where there is one. -/
def KeptOpt (s : State) (o : Option State) : Prop := ∀ u, o = some u → Kept s u
theorem KeptOpt.some {s t : State} (h : Kept s t) : KeptOpt s (some t) := fun _ e => by cases e; exact h
theorem KeptOpt.none {s : State} : KeptOpt s none := fun _ e => by cases e
theorem KeptOpt.ite {s : State} {a b} {c : Prop} [Decidable c] (ha : KeptOpt s a) (hb : KeptOpt s b) : KeptOpt s (if c then a else b) := by
  split <;> assumption
theorem KeptOpt.get {s u : State} {o : Option State} (h : o = Option.some u) (hp : KeptOpt s o) : Kept s u := hp u h
theorem KeptOut.ofDone {s u : State} {o : Out} {a b} (h : o = .done u a b) (hp : KeptOut s o) : Kept s u := by subst h; exact hp
theorem KeptOut.ofTrap {s u : State} {o : Out} {a} (h : o = .trap u a) (hp : KeptOut s o) : Kept s u := by subst h; exact hp
theorem KeptOut.ofStop {s u : State} {o : Out} (h : o = .stopped u) (hp : KeptOut s o) : Kept s u := by subst h; exact hp
theorem KeptO3 {s u : State} {α β : Type} {a : α} {b : β} {o : Option (α × β × State)} (h : o = some (a, b, u)) (hp : ∀ v, o = some v → Kept s v.2.2) : Kept s u := hp _ h
theorem Kept.fst {s u : State} {α : Type} {p : State × α} {v : α} (h : p = (u, v)) (hp : Kept s p.1) : Kept s u := by subst h; exact hp
theorem Kept.foldl1 {s : State} {α β : Type} {f : State × β → α → State × β} {l : List α} {t : State × β} (h : Kept s t.1)
    (hf : ∀ t x, Kept s t.1 → Kept s (f t x).1) : Kept s (l.foldl f t).1 := by
  induction l generalizing t with
  | nil => exact h
  | cons a l ih => exact ih (hf _ _ h)
theorem Kept.foldl2 {s : State} {α β : Type} {f : β × State → α → β × State} {l : List α} {t : β × State} (h : Kept s t.2)
    (hf : ∀ t x, Kept s t.2 → Kept s (f t x).2) : Kept s (l.foldl f t).2 := by
  induction l generalizing t with
  | nil => exact h
  | cons a l ih => exact ih (hf _ _ h)

theorem Kept.updFuses {s t : State} {f : Fuses} (h : Kept s t) (hf : Fuses.Later t.fuses f) : Kept s { t with fuses := f } :=
  ⟨h.pending, h.fuses.trans hf, h.flash⟩

/-- The counters of the fuses, with one raised. -/
theorem Fuses.Later.counter {f : Fuses} {c v : Nat} (h : Sparse.get f.counters 0 c ≤ v) :
    Fuses.Later f { f with counters := Sparse.put f.counters 0 c v } := by
  refine ⟨fun _ x => x, fun _ x => .inl x, fun x => x, fun _ x => x, fun i => ?_⟩
  by_cases hi : i = c
  · subst hi; simpa using h
  · simp [Sparse.get_put_other _ _ _ _ hi]

/-- The slots of the fuses, with one moved on: from unprogrammed, or to revoked. -/
theorem Fuses.Later.slot {f : Fuses} {k v : Nat} (h1 : Sparse.get f.slots 0 k = 1 → v = 1 ∨ v = 2)
    (h2 : Sparse.get f.slots 0 k = 2 → v = 2) : Fuses.Later f { f with slots := Sparse.put f.slots 0 k v } := by
  refine ⟨fun i x => ?_, fun i x => ?_, fun x => x, fun _ x => x, fun _ => Nat.le_refl _⟩
  · by_cases hi : i = k
    · subst hi; simpa using h2 x
    · simpa [Sparse.get_put_other _ _ _ _ hi] using x
  · by_cases hi : i = k
    · subst hi; simpa using h1 x
    · simpa [Sparse.get_put_other _ _ _ _ hi] using Or.inl x

theorem Fuses.Later.program (f : Fuses) (op arg target : Nat) : Fuses.Later f (f.program op arg target) := by
  unfold Fuses.program
  split
  · exact Fuses.Later.slot (fun h => by omega) (fun h => by omega)
  · exact Fuses.Later.slot (fun _ => .inr rfl) (fun _ => rfl)
  · exact ⟨fun _ x => x, fun _ x => .inl x, fun _ => rfl, fun _ x => x, fun _ => Nat.le_refl _⟩
  · exact ⟨fun _ x => x, fun _ x => .inl x, fun x => x, fun k x => by simp [x], fun _ => Nat.le_refl _⟩
  · exact Fuses.Later.counter (by omega)

theorem KeptOpt.bind {s : State} {o : Option State} {f : State → Option State} (ho : KeptOpt s o)
    (hf : ∀ t, Kept s t → KeptOpt s (f t)) : KeptOpt s (o.bind f) := by
  cases o with
  | none => exact KeptOpt.none
  | some t => exact hf t (ho t rfl)
/-- The action of an instruction keeps what every state before it kept. -/
def KeptOp (op : Op) : Prop := ∀ s s' c, Kept s s' → KeptOut s (op s' c)
theorem KeptOp.out {op : Op} {s t : State} {c : CoreId} (h : KeptOp op) (hk : Kept s t) : KeptOut s (op t c) := h _ _ _ hk

theorem Kept.iteP {s a b : State} {c : Prop} [Decidable c] (ha : c → Kept s a) (hb : ¬c → Kept s b) : Kept s (if c then a else b) := by
  split
  · exact ha ‹_›
  · exact hb ‹_›
end Sys2Proof.Machine
end

