-- ==== Sys2Proof/Laws/KeptOps.lean ====
section
/-! SUPPORT. `Kept` for the shared operations, registers, the image and the cycles: one lemma per function, in the order of the model. -/

namespace Sys2Proof.Machine.Kept

theorem State_setFld {s0} {s : State} (f : Fld) (v : Nat) (hk : Kept s0 s) : Kept s0 (State.setFld s f v) := by
  unfold State.setFld
  with_reducible repeat' first
  | assumption
  | fail_if_no_progress refine upd ?_ ?_; rotate_left; exact rfl

theorem State_setBit {s0} {s : State} (f : Fld) (b : Bool) (hk : Kept s0 s) : Kept s0 (State.setBit s f b) := by
  unfold State.setBit
  with_reducible repeat' first
  | assumption
  | apply State_setFld

theorem State_setFldBit {s0} {s : State} (f : Fld) (i : Nat) (b : Bool) (hk : Kept s0 s) : Kept s0 (State.setFldBit s f i b) := by
  unfold State.setFldBit
  with_reducible repeat' first
  | assumption
  | apply State_setFld

theorem State_count {s0} {s : State} (f : Fld) (hk : Kept s0 s) : Kept s0 (State.count s f) := by
  unfold State.count
  with_reducible repeat' first
  | assumption
  | apply State_setFld

theorem State_countWrap {s0} {s : State} (f : Fld) (hk : Kept s0 s) : Kept s0 (State.countWrap s f) := by
  unfold State.countWrap
  with_reducible repeat' first
  | assumption
  | apply State_setFld

theorem State_send {s0} {s : State} (o : Output) (hk : Kept s0 s) : Kept s0 (State.send s o) := by
  unfold State.send
  with_reducible repeat' first
  | assumption
  | fail_if_no_progress refine upd ?_ ?_; rotate_left; exact rfl

theorem State_draw {s0} {s : State} (n : Nat) (hk : Kept s0 s) : Kept s0 (State.draw s n).2 := by
  unfold State.draw
  with_reducible repeat' first
  | assumption
  | fail_if_no_progress refine upd ?_ ?_; rotate_left; exact rfl

theorem State_drawBit {s0} {s : State} (hk : Kept s0 s) : Kept s0 (State.drawBit s).2 := by
  unfold State.drawBit
  with_reducible repeat' first
  | assumption
  | fail_if_no_progress refine upd ?_ ?_; rotate_left; exact rfl

theorem State_drawBytes {s0} {s : State} (n : Nat) (hk : Kept s0 s) : Kept s0 (State.drawBytes s n).2 := by
  unfold State.drawBytes
  with_reducible repeat' first
  | assumption
  | fail_if_no_progress refine upd ?_ ?_; rotate_left; exact rfl

theorem State_msixSend {s0} {s : State} (v : Nat) (hk : Kept s0 s) : Kept s0 (State.msixSend s v) := by
  unfold State.msixSend
  with_reducible repeat' first
  | assumption
  | apply ite
  | apply State_send

theorem State_message {s0} {s : State} (v : Nat) (hk : Kept s0 s) : Kept s0 (State.message s v) := by
  unfold State.message
  with_reducible repeat' first
  | assumption
  | apply ite
  | apply State_msixSend
  | fail_if_no_progress refine upd ?_ ?_; rotate_left; exact rfl

theorem State_msixRelease {s0} {s : State} (hk : Kept s0 s) : Kept s0 (State.msixRelease s) := by
  unfold State.msixRelease
  with_reducible repeat' first
  | assumption
  | (intro)
  | apply ite
  | apply State_msixSend
  | apply foldl
  | apply foldl1
  | apply foldl2
  | fail_if_no_progress refine upd ?_ ?_; rotate_left; exact rfl

theorem State_recheck {s0} {s : State} (v : Nat) (hk : Kept s0 s) : Kept s0 (State.recheck s v) := by
  unfold State.recheck
  with_reducible repeat' first
  | assumption
  | apply ite
  | apply State_message

theorem State_becamePending {s0} {s : State} (before : State) (v : Nat) (hk : Kept s0 s) : Kept s0 (State.becamePending s before v) := by
  unfold State.becamePending
  with_reducible repeat' first
  | assumption
  | apply ite
  | apply State_message

theorem State_raiseBit {s0} {s : State} (f : Fld) (i : Nat) (hk : Kept s0 s) : Kept s0 (State.raiseBit s f i) := by
  unfold State.raiseBit
  with_reducible repeat' first
  | assumption
  | apply State_becamePending
  | apply State_setFldBit
  | split

theorem State_raise {s0} {s : State} (f : Fld) (hk : Kept s0 s) : Kept s0 (State.raise s f) := by
  unfold State.raise
  with_reducible repeat' first
  | assumption
  | apply State_raiseBit

theorem State_setFields {s0} {s : State} (fs : List (Fld × Nat)) (hk : Kept s0 s) : Kept s0 (State.setFields s fs) := by
  unfold State.setFields
  with_reducible repeat' first
  | assumption
  | (intro)
  | apply State_setFld
  | apply foldl

theorem State_capture {s0} {s : State} (key : Fld) (fs : List (Fld × Nat)) (hk : Kept s0 s) : Kept s0 (State.capture s key fs) := by
  unfold State.capture
  with_reducible repeat' first
  | assumption
  | apply ite
  | apply State_setFields

theorem State_setMode {s0} {s : State} (m : Nat) (hk : Kept s0 s) : Kept s0 (State.setMode s m) := by
  unfold State.setMode
  with_reducible repeat' first
  | assumption
  | apply ite
  | apply State_raise
  | apply State_setFld

theorem State_setDram {s0} {s : State} (a : Nat) (v : W36) (hk : Kept s0 s) : Kept s0 (State.setDram s a v) := by
  unfold State.setDram
  with_reducible repeat' first
  | assumption
  | fail_if_no_progress refine upd ?_ ?_; rotate_left; exact rfl

theorem State_dramFail {s0} {s : State} (a : Nat) (hk : Kept s0 s) : Kept s0 (State.dramFail s a) := by
  unfold State.dramFail
  with_reducible repeat' first
  | assumption
  | apply State_capture

theorem State_blockRead {s0} {s : State} (a : Nat) (hk : Kept s0 s) : Kept s0 (State.blockRead s a).2 := by
  unfold State.blockRead
  with_reducible repeat' first
  | assumption
  | apply ite
  | apply State_dramFail
  | split

theorem State_dramAsked {s0} {s : State} (a : Nat) (n : Nat) (hk : Kept s0 s) : Kept s0 (State.dramAsked s a n) := by
  unfold State.dramAsked
  with_reducible repeat' first
  | assumption
  | apply ite
  | apply State_dramFail

theorem State_blockWrite {s0} {s : State} (a : Nat) (v : W36) (hk : Kept s0 s) : Kept s0 (State.blockWrite s a v) := by
  unfold State.blockWrite
  with_reducible repeat' first
  | assumption
  | apply ite
  | apply State_setDram
  | apply State_dramFail

theorem State_blockWrites {s0} {s : State} (a : Nat) (ws : List W36) (hk : Kept s0 s) : Kept s0 (s.blockWrites a ws) := by
  induction ws generalizing s a with
  | nil => exact hk
  | cons v l ih => exact ih _ (State_blockWrite _ _ hk)

theorem State_setCompUp {s0} {s : State} (c : Nat) (b : Bool) (hk : Kept s0 s) : Kept s0 (State.setCompUp s c b) := by
  unfold State.setCompUp
  with_reducible repeat' first
  | assumption
  | fail_if_no_progress refine upd ?_ ?_; rotate_left; exact rfl

theorem State_setCls {s0} {s : State} (k : Nat) (c : ClassRt) (hk : Kept s0 s) : Kept s0 (State.setCls s k c) := by
  unfold State.setCls
  with_reducible repeat' first
  | assumption
  | fail_if_no_progress refine upd ?_ ?_; rotate_left; exact rfl
  | split

theorem State_setCore {s0} {s : State} (key : Nat) (c : Core) (hk : Kept s0 s) : Kept s0 (State.setCore s key c) := by
  unfold State.setCore
  with_reducible repeat' first
  | assumption
  | fail_if_no_progress refine upd ?_ ?_; rotate_left; exact rfl

theorem State_setStation {s0} {s : State} (n : Nat) (t : StationRt) (hk : Kept s0 s) : Kept s0 (State.setStation s n t) := by
  unfold State.setStation
  with_reducible repeat' first
  | assumption
  | fail_if_no_progress refine upd ?_ ?_; rotate_left; exact rfl

theorem State_setHobPort {s0} {s : State} (p : Nat) (h : HobPort) (hk : Kept s0 s) : Kept s0 (State.setHobPort s p h) := by
  unfold State.setHobPort
  with_reducible repeat' first
  | assumption
  | fail_if_no_progress refine upd ?_ ?_; rotate_left; exact rfl

theorem State_setChannel {s0} {s : State} (n : Nat) (c : Channel) (hk : Kept s0 s) : Kept s0 (State.setChannel s n c) := by
  unfold State.setChannel
  with_reducible repeat' first
  | assumption
  | fail_if_no_progress refine upd ?_ ?_; rotate_left; exact rfl

theorem State_pick {s0} {s : State} (is : List Nat) (hk : Kept s0 s) : Kept s0 (State.pick s is).2 := by
  unfold State.pick
  with_reducible repeat' first
  | assumption
  | (intro)
  | apply ite
  | apply State_draw
  | refine snd (by assumption) ?_
  | refine snd2 (by assumption) ?_
  | refine fst (by assumption) ?_
  | refine KeptOpt.get (by assumption) ?_
  | refine KeptO3 (by assumption) ?_
  | fail_if_no_progress refine upd ?_ ?_; rotate_left; exact rfl
  | split

theorem State_setLink {s0} {s : State} (i : Nat) (l : Link) (hk : Kept s0 s) : Kept s0 (State.setLink s i l) := by
  unfold State.setLink
  with_reducible repeat' first
  | assumption
  | apply ite
  | apply State_setCore
  | apply State_reset
  | fail_if_no_progress refine upd ?_ ?_; rotate_left; exact rfl

theorem State_fluePost {s0} {s : State} (p : Packet) (hk : Kept s0 s) : Kept s0 (State.fluePost s p) := by
  unfold State.fluePost
  with_reducible repeat' first
  | assumption
  | apply ite
  | apply State_setLink

theorem State_flueIssue {s0} {s : State} (p : Packet) (hk : Kept s0 s) : Kept s0 (State.flueIssue s p) := by
  unfold State.flueIssue
  with_reducible repeat' first
  | assumption
  | (intro)
  | apply ite
  | apply State_fluePost
  | fail_if_no_progress refine upd ?_ ?_; rotate_left; exact rfl

theorem State_flueSend {s0} {s : State} (src : Nat) (ch : Channel4) (kind : PacketKind) (a : Nat) (ws : List W36) (hk : Kept s0 s) : Kept s0 (State.flueSend s src ch kind a ws) := by
  unfold State.flueSend
  with_reducible repeat' first
  | assumption
  | (intro)
  | apply ite
  | apply State_flueIssue
  | apply foldl

theorem State_flueAsk {s0} {s : State} (src : Nat) (ch : Channel4) (a : Nat) (n : Nat) (hk : Kept s0 s) : Kept s0 (State.flueAsk s src ch a n) := by
  unfold State.flueAsk
  with_reducible repeat' first
  | assumption
  | (intro)
  | apply ite
  | apply State_flueIssue
  | apply foldl

theorem State_flueStream {s0} {s : State} (src : Nat) (ch : Channel4) (a : Nat) (n : Nat) (hk : Kept s0 s) : Kept s0 (State.flueStream s src ch a n) := by
  unfold State.flueStream
  with_reducible repeat' first
  | assumption
  | apply ite
  | apply State_flueAsk

theorem State_putFlash {s0} {s : State} (a : Nat) (bs : List Byte) (hk : Kept s0 s) : Kept s0 (State.putFlash s a bs) :=
  updFlash hk (Memory.wf_putMany a bs)

theorem State_programFlash {s0} {s : State} (a : Nat) (bs : List Byte) (hk : Kept s0 s) : Kept s0 (State.programFlash s a bs) := by
  unfold State.programFlash
  with_reducible repeat' first
  | assumption
  | (intro)
  | apply ite
  | apply State_putFlash
  | apply foldl

theorem State_eraseBlock {s0} {s : State} (b : Nat) (hk : Kept s0 s) : Kept s0 (s.eraseBlock b) :=
  updFlash hk (Memory.wf_clear _ _)

theorem State_eraseBlocks {s0} {s : State} (b : Nat) (n : Nat) (hk : Kept s0 s) : Kept s0 (State.eraseBlocks s b n) := by
  unfold State.eraseBlocks
  with_reducible repeat' first
  | assumption
  | (intro)
  | apply State_eraseBlock
  | apply foldl

theorem State_dirCommit {s0} {s : State} (f : Directory → Directory) (hk : Kept s0 s) : Kept s0 (State.dirCommit s f) := by
  unfold State.dirCommit
  with_reducible repeat' first
  | assumption
  | apply ite
  | fail_if_no_progress refine upd ?_ ?_; rotate_left; exact rfl

theorem State_setAshHead {s0} {s : State} (h : Nat) (hk : Kept s0 s) : Kept s0 (State.setAshHead s h) := by
  unfold State.setAshHead
  with_reducible repeat' first
  | assumption
  | apply State_setFld
  | fail_if_no_progress refine upd ?_ ?_; rotate_left; exact rfl

theorem State_ashCapture {s0} {s : State} (src : Nat) (code : Nat) (hk : Kept s0 s) : Kept s0 (State.ashCapture s src code) := by
  unfold State.ashCapture
  with_reducible repeat' first
  | assumption
  | apply State_capture

theorem State_ashRefuse {s0} {s : State} (src : Nat) (code : Nat) (hk : Kept s0 s) : Kept s0 (State.ashRefuse s src code) := by
  unfold State.ashRefuse
  with_reducible repeat' first
  | assumption
  | apply ite
  | apply State_ashCapture
  | apply State_count
  | apply State_raise
  | apply State_setFld

theorem State_ashDrop {s0} {s : State} (src : Nat) (code : Nat) (hk : Kept s0 s) : Kept s0 (State.ashDrop s src code) := by
  unfold State.ashDrop
  with_reducible repeat' first
  | assumption
  | apply State_raise
  | apply State_ashCapture
  | apply State_count

theorem State_ashStartFlush {s0} {s : State} (hk : Kept s0 s) : Kept s0 (State.ashStartFlush s) := by
  unfold State.ashStartFlush
  with_reducible repeat' first
  | assumption
  | apply ite
  | apply State_setFld
  | apply State_setAshHead
  | fail_if_no_progress refine upd ?_ ?_; rotate_left; exact rfl

theorem State_ashCommitPage {s0} {s : State} (bs : List Byte) (hk : Kept s0 s) : Kept s0 (State.ashCommitPage s bs) := by
  unfold State.ashCommitPage
  with_reducible repeat' first
  | assumption
  | apply State_setAshHead
  | fail_if_no_progress refine upd ?_ ?_; rotate_left; exact rfl

theorem State_ashOwnPage {s0} {s : State} (bs : List Byte) (hk : Kept s0 s) : Kept s0 (State.ashOwnPage s bs) := by
  unfold State.ashOwnPage
  with_reducible repeat' first
  | assumption
  | apply ite
  | apply State_ashCommitPage
  | fail_if_no_progress refine upd ?_ ?_; rotate_left; exact rfl

theorem State_ashBuffer {s0} {s : State} (bs : List Byte) (hk : Kept s0 s) : Kept s0 (State.ashBuffer s bs) := by
  unfold State.ashBuffer
  with_reducible repeat' first
  | assumption
  | apply ite
  | apply State_ashStartFlush
  | apply State_flueSend
  | apply State_blockWrites
  | apply State_raise
  | apply State_setFld

theorem State_record {s0} {s : State} (src : Nat) (code : Nat) (named : Bool) (payload : List Nat) (hk : Kept s0 s) : Kept s0 (State.record s src code named payload) := by
  unfold State.record
  with_reducible repeat' first
  | assumption
  | apply ite
  | apply State_ashDrop
  | apply State_ashRefuse
  | apply State_ashOwnPage
  | apply State_countWrap
  | apply State_ashStartFlush
  | apply State_ashBuffer

theorem State_ashEndFlush {s0} {s : State} (hk : Kept s0 s) : Kept s0 (State.ashEndFlush s) := by
  unfold State.ashEndFlush
  with_reducible repeat' first
  | assumption
  | apply ite
  | apply State_ashStartFlush
  | apply State_programFlash
  | apply State_flueStream
  | apply State_blockWrites
  | apply State_dramAsked
  | apply State_raise
  | apply State_setFld
  | fail_if_no_progress refine upd ?_ ?_; rotate_left; exact rfl

theorem State_erairSend {s0} {s : State} (x : ErairItem) (hk : Kept s0 s) : Kept s0 (State.erairSend s x) := by
  unfold State.erairSend
  with_reducible repeat' first
  | assumption
  | apply ite
  | fail_if_no_progress refine upd ?_ ?_; rotate_left; exact rfl

theorem State_erairTick {s0} {s : State} (hk : Kept s0 s) : Kept s0 (State.erairTick s) := by
  unfold State.erairTick
  with_reducible repeat' first
  | assumption
  | (intro)
  | apply ite
  | apply State_send
  | refine snd (by assumption) ?_
  | refine snd2 (by assumption) ?_
  | refine fst (by assumption) ?_
  | refine KeptOpt.get (by assumption) ?_
  | refine KeptO3 (by assumption) ?_
  | fail_if_no_progress refine upd ?_ ?_; rotate_left; exact rfl
  | split

theorem State_onHearth {s0} {s : State} (f : Hearth → Hearth) (hk : Kept s0 s) : Kept s0 (State.onHearth s f) := by
  unfold State.onHearth
  with_reducible repeat' first
  | assumption
  | fail_if_no_progress refine upd ?_ ?_; rotate_left; exact rfl

theorem State_stirGranule {s0} {s : State} (j : Nat) (hk : Kept s0 s) : Kept s0 (State.stirGranule s j) := by
  unfold State.stirGranule
  with_reducible repeat' first
  | assumption
  | (intro)
  | apply State_onHearth

theorem State_repairWord {s0} {s : State} (w : Nat) (hk : Kept s0 s) : Kept s0 (State.repairWord s w) := by
  unfold State.repairWord
  with_reducible repeat' first
  | assumption
  | apply ite
  | apply State_onHearth

theorem State_storeWord {s0} {s : State} (w : Nat) (v : W36) (hk : Kept s0 s) : Kept s0 (State.storeWord s w v) := by
  unfold State.storeWord
  with_reducible repeat' first
  | assumption
  | apply ite
  | apply State_onHearth
  | apply State_stirGranule

theorem State_writeWord {s0} {s : State} (w : Nat) (v : W36) (hk : Kept s0 s) : Kept s0 (State.writeWord s w v) := by
  unfold State.writeWord
  with_reducible repeat' first
  | assumption
  | apply ite
  | apply State_repairWord
  | apply State_onHearth
  | apply State_storeWord

theorem State_writeWords {s0} {s : State} (a : Nat) (ws : List W36) (hk : Kept s0 s) : Kept s0 (s.writeWords a ws) := by
  induction ws generalizing s a with
  | nil => exact hk
  | cons v l ih => exact ih _ (State_writeWord _ _ hk)

theorem State_flip {s0} {s : State} (k : Nat) (hk : Kept s0 s) : Kept s0 (State.flip s k) := by
  unfold State.flip
  with_reducible repeat' first
  | assumption
  | (intro)
  | apply ite
  | apply State_onHearth
  | apply State_setFld

theorem State_settle {s0} {s : State} (k : Nat) (hk : Kept s0 s) : Kept s0 (State.settle s k) := by
  unfold State.settle
  with_reducible repeat' first
  | assumption
  | apply State_onHearth

theorem State_freshPlanes {s0} {s : State} (hk : Kept s0 s) : Kept s0 (State.freshPlanes s) := by
  unfold State.freshPlanes
  with_reducible repeat' first
  | assumption
  | apply State_onHearth

theorem State_initWord {s0} {s : State} (w : Nat) (v : W36) (hk : Kept s0 s) : Kept s0 (State.initWord s w v) := by
  unfold State.initWord
  with_reducible repeat' first
  | assumption
  | apply State_onHearth

theorem State_askGranule {s0} {s : State} (j : Nat) (hk : Kept s0 s) : Kept s0 (State.askGranule s j) := by
  unfold State.askGranule
  with_reducible repeat' first
  | assumption
  | (intro)
  | apply ite
  | apply State_onHearth
  | apply State_erairSend

theorem State_replaceWord {s0} {s : State} (w : Nat) (hk : Kept s0 s) : Kept s0 (State.replaceWord s w) := by
  unfold State.replaceWord
  with_reducible repeat' first
  | assumption
  | (intro)
  | apply ite
  | apply State_askGranule
  | apply State_writeWord
  | apply State_onHearth

theorem State_uncorrectableSeen {s0} {s : State} (off : Nat) (reader : Nat) (hk : Kept s0 s) : Kept s0 (State.uncorrectableSeen s off reader) := by
  unfold State.uncorrectableSeen
  with_reducible repeat' first
  | assumption
  | apply State_capture
  | apply State_count
  | apply State_raise
  | apply State_record

theorem State_uncorrectable {s0} {s : State} (w : Nat) (prev : Bool) (reader : Nat) (hk : Kept s0 s) : Kept s0 (State.uncorrectable s w prev reader) := by
  unfold State.uncorrectable
  with_reducible repeat' first
  | assumption
  | apply ite
  | apply State_onHearth
  | apply State_replaceWord
  | apply State_uncorrectableSeen

theorem State_viewRead {s0} {s : State} (w : Nat) (prev : Bool) (reader : Nat) (hk : Kept s0 s) : Kept s0 (State.viewRead s w prev reader).2 := by
  unfold State.viewRead
  with_reducible repeat' first
  | assumption
  | apply ite
  | apply State_uncorrectable
  | split

theorem State_deviceRead {s0} {s : State} (w : Nat) (reader : Nat) (hk : Kept s0 s) : Kept s0 (State.deviceRead s w reader).2 := by
  unfold State.deviceRead
  with_reducible repeat' first
  | assumption
  | apply ite
  | apply State_viewRead

theorem State_deviceReads {s0} {s : State} (ws : List Nat) (reader : Nat) (hk : Kept s0 s) : Kept s0 (State.deviceReads s ws reader).2 := by
  unfold State.deviceReads
  with_reducible repeat' first
  | assumption
  | (intro)
  | apply ite
  | apply State_deviceRead
  | apply foldl
  | apply foldl1
  | apply foldl2

theorem State_poisonWord {s0} {s : State} (w : Nat) (hk : Kept s0 s) : Kept s0 (State.poisonWord s w) := by
  unfold State.poisonWord
  with_reducible repeat' first
  | assumption
  | apply State_writeWord

theorem State_poisonWindows {s0} {s : State} (ws : List (Nat × Nat)) (hk : Kept s0 s) : Kept s0 (State.poisonWindows s ws) := by
  unfold State.poisonWindows
  with_reducible repeat' first
  | assumption
  | (intro)
  | apply State_poisonWord
  | apply foldl

theorem State_setInject {s0} {s : State} (q : List Inject) (hk : Kept s0 s) : Kept s0 (State.setInject s q) := by
  unfold State.setInject
  with_reducible repeat' first
  | assumption
  | apply State_setFld
  | apply State_onHearth

theorem State_injectWrite {s0} {s : State} (w : Nat) (v : W36) (hk : Kept s0 s) : Kept s0 (State.injectWrite s w v) := by
  unfold State.injectWrite
  with_reducible repeat' first
  | assumption
  | (intro)
  | apply ite
  | apply State_setInject
  | apply State_writeWord
  | apply State_onHearth

theorem State_letIn {s0} {s : State} (hk : Kept s0 s) : Kept s0 (State.letIn s) := by
  unfold State.letIn
  with_reducible repeat' first
  | assumption
  | (intro)
  | apply ite
  | apply State_injectWrite
  | apply State_onHearth
  | apply foldl

theorem State_applyInject {s0} {s : State} (k : Nat) (hk : Kept s0 s) : Kept s0 (State.applyInject s k) := by
  unfold State.applyInject
  with_reducible repeat' first
  | assumption
  | (intro)
  | apply ite
  | apply State_letIn
  | apply State_setInject
  | apply State_writeWord
  | apply foldl

theorem State_applyStopped {s0} {s : State} (hk : Kept s0 s) : Kept s0 (State.applyStopped s) := by
  unfold State.applyStopped
  with_reducible repeat' first
  | assumption
  | (intro)
  | apply ite
  | apply State_applyInject
  | apply foldl

theorem forcePair_snd (m : W36) (p : Option W36 × State) : (forcePair m p).2 = p.2 := rfl

theorem State_forceEntry {s0} {s : State} (w : Nat) (hk : Kept s0 s) : Kept s0 (s.forceEntry w).2 := by
  unfold State.forceEntry
  have h1 := State_blockRead (s.forceAt w) hk
  with_reducible split
  · exact hk
  with_reducible split
  · exact hk
  generalize s.forceAt w + 1 = b
  generalize s.blockRead (s.forceAt w) = z at *
  rcases z with ⟨_ | m, t⟩
  · exact h1
  · have h2 : Kept s0 (t.blockRead b).2 := State_blockRead b (s := t) h1
    show Kept s0 (forcePair m (t.blockRead b)).2
    rw [forcePair_snd]
    exact h2

theorem State_forced {s0} {s : State} (w : Nat) (v : W36) (hk : Kept s0 s) : Kept s0 (State.forced s w v).2 := by
  unfold State.forced
  with_reducible repeat' first
  | assumption
  | apply State_forceEntry
  | refine snd (by assumption) ?_
  | refine snd2 (by assumption) ?_
  | refine fst (by assumption) ?_
  | split

theorem State_forceWord {s0} {s : State} (w : Nat) (m : Nat) (f : Nat) (hk : Kept s0 s) : Kept s0 (State.forceWord s w m f) := by
  unfold State.forceWord
  with_reducible repeat' first
  | assumption
  | apply ite
  | apply State_deviceRead
  | apply State_writeWord

theorem State_applyForces {s0} {s : State} (k : Nat) (hk : Kept s0 s) : Kept s0 (State.applyForces s k) := by
  unfold State.applyForces
  with_reducible repeat' first
  | assumption
  | (intro)
  | apply ite
  | apply State_forceWord
  | apply State_forceEntry
  | apply foldl
  | apply foldl1
  | apply foldl2
  | refine snd (by assumption) ?_
  | refine snd2 (by assumption) ?_
  | refine fst (by assumption) ?_
  | refine KeptOpt.get (by assumption) ?_
  | refine KeptO3 (by assumption) ?_
  | fail_if_no_progress refine upd ?_ ?_; rotate_left; exact rfl
  | split

theorem State_substitute {s0} {s : State} (w : Nat) (hk : Kept s0 s) : Kept s0 (State.substitute s w).2 := by
  unfold State.substitute
  with_reducible repeat' first
  | assumption
  | (intro)
  | apply ite
  | apply State_deviceRead
  | apply State_blockRead
  | refine snd (by assumption) ?_
  | refine snd2 (by assumption) ?_
  | refine fst (by assumption) ?_
  | refine KeptOpt.get (by assumption) ?_
  | refine KeptO3 (by assumption) ?_
  | fail_if_no_progress refine upd ?_ ?_; rotate_left; exact rfl
  | split

theorem State_substForced {s0} {s : State} (w : Nat) (hk : Kept s0 s) : Kept s0 (State.substForced s w).2 := by
  unfold State.substForced
  with_reducible repeat' first
  | assumption
  | apply State_substitute
  | apply State_forced

theorem State_applySubst {s0} {s : State} (ws : List Nat) (hk : Kept s0 s) : Kept s0 (State.applySubst s ws) := by
  unfold State.applySubst
  with_reducible repeat' first
  | assumption
  | (intro)
  | apply State_substForced
  | apply State_writeWord
  | apply foldl

theorem State_solvedRead {s0} {s : State} (w : Nat) (reader : Nat) (hk : Kept s0 s) : Kept s0 (State.solvedRead s w reader).2 := by
  unfold State.solvedRead
  with_reducible repeat' first
  | assumption
  | apply ite
  | apply State_viewRead

theorem State_solvedReads {s0} {s : State} (ws : List Nat) (reader : Nat) (hk : Kept s0 s) : Kept s0 (State.solvedReads s ws reader).2 := by
  unfold State.solvedReads
  with_reducible repeat' first
  | assumption
  | (intro)
  | apply ite
  | apply State_solvedRead
  | apply foldl
  | apply foldl1
  | apply foldl2

theorem State_startCapture {s0} {s : State} (hk : Kept s0 s) : Kept s0 (State.startCapture s) := by
  unfold State.startCapture
  with_reducible repeat' first
  | assumption
  | (intro)
  | apply ite
  | apply State_solvedReads
  | apply State_onHearth
  | apply State_capture
  | apply State_setFields

theorem State_endCapture {s0} {s : State} (hk : Kept s0 s) : Kept s0 (State.endCapture s) := by
  unfold State.endCapture
  with_reducible repeat' first
  | assumption
  | apply State_raise
  | apply State_setFields

theorem State_setCycle {s0} {s : State} (k : Nat) (n : Nat) (hk : Kept s0 s) : Kept s0 (State.setCycle s k n) := by
  unfold State.setCycle
  with_reducible repeat' first
  | assumption
  | apply State_setFld

theorem State_ringPut {s0} {s : State} (k : Nat) (station : Nat) (kind : Nat) (hk : Kept s0 s) : Kept s0 (State.ringPut s k station kind) := by
  unfold State.ringPut
  with_reducible repeat' first
  | assumption
  | apply ite
  | apply State_onHearth
  | apply State_raise

theorem State_ringDispatch {s0} {s : State} (k : Nat) (hk : Kept s0 s) : Kept s0 (State.ringDispatch s k) := by
  unfold State.ringDispatch
  with_reducible repeat' first
  | assumption
  | apply State_onHearth

theorem State_zeroControl {s0} {s : State} (k : Nat) (i : Nat) (hk : Kept s0 s) : Kept s0 (State.zeroControl s k i) := by
  unfold State.zeroControl
  with_reducible repeat' first
  | assumption
  | (intro)
  | apply ite
  | apply State_onHearth

theorem State_zeroSystem {s0} {s : State} (a : Nat) (hk : Kept s0 s) : Kept s0 (State.zeroSystem s a) := by
  unfold State.zeroSystem
  with_reducible repeat' first
  | assumption
  | (intro)
  | apply ite
  | apply State_zeroControl
  | apply State_onHearth
  | apply State_capture
  | apply foldl
  | apply foldl1
  | apply foldl2
  | refine snd (by assumption) ?_
  | refine snd2 (by assumption) ?_
  | refine fst (by assumption) ?_
  | refine KeptOpt.get (by assumption) ?_
  | refine KeptO3 (by assumption) ?_
  | fail_if_no_progress refine upd ?_ ?_; rotate_left; exact rfl
  | split

theorem State_uncorrectableAt {s0} {s : State} (a : Nat) (reader : Nat) (hk : Kept s0 s) : Kept s0 (State.uncorrectableAt s a reader) := by
  unfold State.uncorrectableAt
  with_reducible repeat' first
  | assumption
  | apply State_uncorrectable
  | apply State_zeroSystem
  | apply State_uncorrectableSeen
  | split

theorem State_mapCore {s0} {s : State} (c : CoreId) (f : Core → Core) (hk : Kept s0 s) : Kept s0 (State.mapCore s c f) := by
  unfold State.mapCore
  with_reducible repeat' first
  | assumption
  | apply State_setCore

theorem State_tenderTrap {s0} {s : State} (t : Trap) (irqSecure : Bool) (hk : Kept s0 s) : Kept s0 (State.tenderTrap s t irqSecure) := by
  unfold State.tenderTrap
  with_reducible repeat' first
  | assumption
  | apply ite
  | apply State_setCore

theorem State_loadBad {s0} {s : State} (c : CoreId) (l : Load) (hk : Kept s0 s) : Kept s0 (State.loadBad s c l) := by
  unfold State.loadBad
  with_reducible repeat' first
  | assumption
  | (intro)
  | apply ite
  | apply State_uncorrectableAt
  | apply State_draw
  | apply foldl
  | apply foldl1
  | apply foldl2
  | refine snd (by assumption) ?_
  | refine snd2 (by assumption) ?_
  | refine fst (by assumption) ?_
  | refine KeptOpt.get (by assumption) ?_
  | refine KeptO3 (by assumption) ?_
  | fail_if_no_progress refine upd ?_ ?_; rotate_left; exact rfl
  | split

theorem State_landBad {s0} {s : State} (c : CoreId) (hk : Kept s0 s) : Kept s0 (State.landBad s c) := by
  unfold State.landBad
  with_reducible repeat' first
  | assumption
  | (intro)
  | apply State_loadBad
  | apply foldl

theorem State_tenderTakes {s0} {s : State} (t : Trap) (hk : Kept s0 s) : Kept s0 (State.tenderTakes s t) := by
  unfold State.tenderTakes
  with_reducible repeat' first
  | assumption
  | apply ite
  | apply State_landBad
  | apply State_tenderTrap

theorem State_pciCapture {s0} {s : State} (page : Nat) (off : Nat) (hk : Kept s0 s) : Kept s0 (State.pciCapture s page off) := by
  unfold State.pciCapture
  with_reducible repeat' first
  | assumption
  | apply ite
  | apply State_setFld

theorem State_secCapture {s0} {s : State} (page : Nat) (who : Nat) (hk : Kept s0 s) : Kept s0 (State.secCapture s page who) := by
  unfold State.secCapture
  with_reducible repeat' first
  | assumption
  | apply ite
  | apply State_setFields

theorem State_ownerDiscard {s0} {s : State} (page : Nat) (off : Nat) (hk : Kept s0 s) : Kept s0 (State.ownerDiscard s page off) := by
  unfold State.ownerDiscard
  with_reducible repeat' first
  | assumption
  | apply State_raise
  | apply State_pciCapture

theorem State_uartDiscard {s0} {s : State} (hk : Kept s0 s) : Kept s0 (State.uartDiscard s) := by
  unfold State.uartDiscard
  with_reducible repeat' first
  | assumption
  | apply State_count

theorem State_worldFault {s0} {s : State} (cause : Nat) (page : Nat) (off : Nat) (hk : Kept s0 s) : Kept s0 (State.worldFault s cause page off) := by
  unfold State.worldFault
  with_reducible repeat' first
  | assumption
  | apply State_tenderTrap
  | apply State_raise
  | apply State_secCapture

theorem State_writeAs {s0} {s : State} (r : Requester) (page : Nat) (off : Nat) (k : State → State) (hk : Kept s0 s) (h_k : ∀ z0, Kept s0 z0 → Kept s0 (k z0)) : Kept s0 (State.writeAs s r page off k) := by
  unfold State.writeAs
  with_reducible repeat' first
  | assumption
  | (intro)
  | apply ite
  | apply h_k
  | apply State_worldFault
  | apply State_ownerDiscard
  | apply State_uartDiscard
  | split

theorem State_readAs {s0} {s : State} (r : Requester) (page : Nat) (off : Nat) (k : State → W32 × State) (hk : Kept s0 s) (h_k : ∀ z0, Kept s0 z0 → Kept s0 (k z0).2) : Kept s0 (State.readAs s r page off k) := by
  unfold State.readAs
  with_reducible repeat' first
  | assumption
  | (intro)
  | apply ite
  | apply h_k
  | apply State_worldFault
  | apply State_send
  | apply State_ownerDiscard
  | apply State_uartDiscard
  | refine snd (by assumption) ?_
  | refine snd2 (by assumption) ?_
  | refine fst (by assumption) ?_
  | split

theorem State_writeSecure {s0} {s : State} (r : Requester) (page : Nat) (off : Nat) (k : State → State) (hk : Kept s0 s) (h_k : ∀ z0, Kept s0 z0 → Kept s0 (k z0)) : Kept s0 (State.writeSecure s r page off k) := by
  unfold State.writeSecure
  with_reducible repeat' first
  | assumption
  | (intro)
  | apply ite
  | apply h_k
  | apply State_writeAs

theorem State_setCommitBuf {s0} {s : State} (p : Nat) (b : CommitBuf) (hk : Kept s0 s) : Kept s0 (State.setCommitBuf s p b) := by
  unfold State.setCommitBuf
  with_reducible repeat' first
  | assumption
  | fail_if_no_progress refine upd ?_ ?_; rotate_left; exact rfl

theorem State_setMantelOp {s0} {s : State} (o : Option MantelOp) (hk : Kept s0 s) : Kept s0 (State.setMantelOp s o) := by
  unfold State.setMantelOp
  with_reducible repeat' first
  | assumption
  | fail_if_no_progress refine upd ?_ ?_; rotate_left; exact rfl

theorem State_setSlot {s0} {s : State} (i : Nat) (v : Nat) (seq : Nat) (hk : Kept s0 s) : Kept s0 (State.setSlot s i v seq) := by
  unfold State.setSlot
  with_reducible repeat' first
  | assumption
  | fail_if_no_progress refine upd ?_ ?_; rotate_left; exact rfl

theorem State_beginRetain {s0} {s : State} (o : MantelOp) (hk : Kept s0 s) : Kept s0 (State.beginRetain s o).2 := by
  unfold State.beginRetain
  with_reducible repeat' first
  | assumption
  | apply State_raise
  | apply State_setSlot
  | refine snd (by assumption) ?_
  | refine snd2 (by assumption) ?_
  | refine fst (by assumption) ?_
  | refine KeptOut.ofDone (by assumption) ?_
  | refine KeptOut.ofTrap (by assumption) ?_
  | refine KeptOut.ofStop (by assumption) ?_
  | split

theorem State_mntCapture {s0} {s : State} (code : Nat) (hk : Kept s0 s) : Kept s0 (State.mntCapture s code) := by
  unfold State.mntCapture
  with_reducible repeat' first
  | assumption
  | apply State_raise
  | apply State_capture

theorem State_mntEnd {s0} {s : State} (code : Nat) (hk : Kept s0 s) : Kept s0 (State.mntEnd s code) := by
  unfold State.mntEnd
  with_reducible repeat' first
  | assumption
  | apply ite
  | apply State_raise
  | apply State_setFields
  | apply State_setMantelOp
  | apply State_mntCapture

theorem State_mntBusy {s0} {s : State} (hk : Kept s0 s) : Kept s0 (State.mntBusy s) := by
  unfold State.mntBusy
  with_reducible repeat' first
  | assumption
  | apply State_mntCapture
  | apply State_setFld

theorem State_mntRun {s0} {s : State} (o : MantelOp) (hk : Kept s0 s) : Kept s0 (State.mntRun s o) := by
  unfold State.mntRun
  with_reducible repeat' first
  | assumption
  | apply State_setFields
  | apply State_setMantelOp

theorem State_setHolder {s0} {s : State} (b : Nat) (h : Nat) (hk : Kept s0 s) : Kept s0 (State.setHolder s b h) := by
  unfold State.setHolder
  with_reducible repeat' first
  | assumption
  | apply ite
  | fail_if_no_progress refine upd ?_ ?_; rotate_left; exact rfl

theorem State_takeBank {s0} {s : State} (b : Nat) (h : Nat) (hk : Kept s0 s) : Kept s0 (State.takeBank s b h) := by
  unfold State.takeBank
  with_reducible repeat' first
  | assumption
  | (intro)
  | apply ite
  | apply State_setHolder
  | apply State_mntEnd
  | apply State_beginRetain
  | apply State_setMantelOp
  | refine snd (by assumption) ?_
  | refine snd2 (by assumption) ?_
  | refine fst (by assumption) ?_
  | refine KeptOpt.get (by assumption) ?_
  | refine KeptO3 (by assumption) ?_
  | fail_if_no_progress refine upd ?_ ?_; rotate_left; exact rfl
  | split

theorem State_startOn {s0} {s : State} (b : Nat) (hk : Kept s0 s) : Kept s0 (State.startOn s b) := by
  unfold State.startOn
  with_reducible repeat' first
  | assumption
  | (intro)
  | apply ite
  | apply State_takeBank
  | refine snd (by assumption) ?_
  | refine snd2 (by assumption) ?_
  | refine fst (by assumption) ?_
  | refine KeptOpt.get (by assumption) ?_
  | refine KeptO3 (by assumption) ?_
  | fail_if_no_progress refine upd ?_ ?_; rotate_left; exact rfl
  | split

theorem State_mantelStart {s0} {s : State} (hk : Kept s0 s) : Kept s0 (State.mantelStart s) := by
  unfold State.mantelStart
  with_reducible repeat' first
  | assumption
  | apply ite
  | apply State_startOn
  | apply foldl

theorem State_retainNext {s0} {s : State} (hk : Kept s0 s) : Kept s0 (State.retainNext s) := by
  unfold State.retainNext
  with_reducible repeat' first
  | assumption
  | apply ite
  | apply State_startOn

theorem State_putBufWord {s0} {s : State} (a : Nat) (w : W36) (hk : Kept s0 s) : Kept s0 (State.putBufWord s a w) := by
  unfold State.putBufWord
  with_reducible repeat' first
  | assumption
  | apply ite
  | apply State_setCore
  | apply State_setDram

theorem State_putBuf {s0} {s : State} (a : Nat) (ws : List W36) (hk : Kept s0 s) : Kept s0 (s.putBuf a ws) := by
  induction ws generalizing s a with
  | nil => exact hk
  | cons v l ih => exact ih _ (State_putBufWord _ _ hk)

theorem State_putBytes {s0} {s : State} (buf : Nat) (addr : Nat) (bs : List Byte) (hk : Kept s0 s) : Kept s0 (State.putBytes s buf addr bs) := by
  unfold State.putBytes
  with_reducible repeat' first
  | assumption
  | (intro)
  | apply ite
  | apply State_putBuf

theorem State_readNow {s0} {s : State} (o : MantelOp) (p : Nat) (hk : Kept s0 s) : Kept s0 (State.readNow s o p) := by
  unfold State.readNow
  with_reducible repeat' first
  | assumption
  | (intro)
  | apply ite
  | apply State_putBytes
  | apply State_mntEnd
  | apply State_raise
  | apply State_count

theorem State_readBusy {s0} {s : State} (o : MantelOp) (hk : Kept s0 s) : Kept s0 (State.readBusy s o) := by
  unfold State.readBusy
  with_reducible repeat' first
  | assumption
  | (intro)
  | apply ite
  | apply State_putBytes
  | apply State_mntRun
  | apply State_mntEnd
  | refine snd (by assumption) ?_
  | refine snd2 (by assumption) ?_
  | refine fst (by assumption) ?_
  | refine KeptOpt.get (by assumption) ?_
  | refine KeptO3 (by assumption) ?_
  | fail_if_no_progress refine upd ?_ ?_; rotate_left; exact rfl
  | split

theorem State_readHeld {s0} {s : State} (hk : Kept s0 s) : Kept s0 (State.readHeld s) := by
  unfold State.readHeld
  with_reducible repeat' first
  | assumption
  | apply ite
  | apply State_readNow
  | split

theorem State_mntCommand {s0} {s : State} (r : Requester) (k : Bool → State → State) (hk : Kept s0 s) (h_k : ∀ z0 z1, Kept s0 z1 → Kept s0 (k z0 z1)) : Kept s0 (State.mntCommand s r k) := by
  unfold State.mntCommand
  with_reducible repeat' first
  | assumption
  | (intro)
  | apply ite
  | apply h_k
  | apply State_writeAs
  | apply State_mntBusy

theorem State_mantelReadOp {s0} {s : State} (secure : Bool) (found : Nat) (hk : Kept s0 s) : Kept s0 (State.mantelReadOp s secure found) := by
  unfold State.mantelReadOp
  with_reducible repeat' first
  | assumption
  | (intro)
  | apply ite
  | apply State_readBusy
  | apply State_readNow
  | apply State_mntEnd
  | refine snd (by assumption) ?_
  | refine snd2 (by assumption) ?_
  | refine fst (by assumption) ?_
  | refine KeptOpt.get (by assumption) ?_
  | refine KeptO3 (by assumption) ?_
  | fail_if_no_progress refine upd ?_ ?_; rotate_left; exact rfl
  | split

theorem of_execMantelRead {s0} (r : Requester) (found : Ecc) {s : State} (hk : Kept s0 s) : KeptR s0 (execMantelRead r found s) := by
  unfold execMantelRead
  with_reducible repeat' first
  | assumption
  | (intro)
  | apply State_mntCommand
  | apply State_mantelReadOp
  | apply KeptR.next

theorem State_stagePart {s0} {s : State} (secure : Bool) (n : Nat) (k : Nat → State → State) (hk : Kept s0 s) (h_k : ∀ z0 z1, Kept s0 z1 → Kept s0 (k z0 z1)) : Kept s0 (State.stagePart s secure n k) := by
  unfold State.stagePart
  with_reducible repeat' first
  | assumption
  | (intro)
  | apply ite
  | apply h_k
  | apply State_mntEnd
  | split

theorem State_stageOp {s0} {s : State} (secure : Bool) (hk : Kept s0 s) : Kept s0 (State.stageOp s secure) := by
  unfold State.stageOp
  with_reducible repeat' first
  | assumption
  | (intro)
  | apply ite
  | apply State_mntEnd
  | apply State_stagePart
  | apply State_setCommitBuf

theorem of_execStage {s0} (r : Requester) {s : State} (hk : Kept s0 s) : KeptR s0 (execStage r s) := by
  unfold execStage
  with_reducible repeat' first
  | assumption
  | (intro)
  | apply State_mntCommand
  | apply State_stageOp
  | apply KeptR.next

theorem State_commitOp {s0} {s : State} (secure : Bool) (hk : Kept s0 s) : Kept s0 (State.commitOp s secure) := by
  unfold State.commitOp
  with_reducible repeat' first
  | assumption
  | (intro)
  | apply ite
  | apply State_stagePart
  | apply State_mntEnd
  | apply State_mntRun

theorem of_execCommit {s0} (r : Requester) {s : State} (hk : Kept s0 s) : KeptR s0 (execCommit r s) := by
  unfold execCommit
  with_reducible repeat' first
  | assumption
  | (intro)
  | apply State_mntCommand
  | apply State_commitOp
  | apply KeptR.next

theorem State_commitEraseOp {s0} {s : State} (secure : Bool) (hk : Kept s0 s) : Kept s0 (State.commitEraseOp s secure) := by
  unfold State.commitEraseOp
  with_reducible repeat' first
  | assumption
  | (intro)
  | apply ite
  | apply State_stagePart
  | apply State_mntEnd
  | apply State_mntRun

theorem of_execCommitErase {s0} (r : Requester) {s : State} (hk : Kept s0 s) : KeptR s0 (execCommitErase r s) := by
  unfold execCommitErase
  with_reducible repeat' first
  | assumption
  | (intro)
  | apply State_mntCommand
  | apply State_commitEraseOp
  | apply KeptR.next

theorem State_eraseOp {s0} {s : State} (secure : Bool) (hk : Kept s0 s) : Kept s0 (State.eraseOp s secure) := by
  unfold State.eraseOp
  with_reducible repeat' first
  | assumption
  | (intro)
  | apply State_stagePart
  | apply State_mntRun

theorem of_execErase {s0} (r : Requester) {s : State} (hk : Kept s0 s) : KeptR s0 (execErase r s) := by
  unfold execErase
  with_reducible repeat' first
  | assumption
  | (intro)
  | apply State_mntCommand
  | apply State_eraseOp
  | apply KeptR.next

theorem State_discardOp {s0} {s : State} (secure : Bool) (hk : Kept s0 s) : Kept s0 (State.discardOp s secure) := by
  unfold State.discardOp
  with_reducible repeat' first
  | assumption
  | (intro)
  | apply State_stagePart
  | apply State_mntEnd
  | apply State_setCommitBuf

theorem of_execMantelDiscard {s0} (r : Requester) {s : State} (hk : Kept s0 s) : KeptR s0 (execMantelDiscard r s) := by
  unfold execMantelDiscard
  with_reducible repeat' first
  | assumption
  | (intro)
  | apply State_mntCommand
  | apply State_discardOp
  | apply KeptR.next

theorem State_programStaged {s0} {s : State} (p : Nat) (hk : Kept s0 s) : Kept s0 (State.programStaged s p) := by
  unfold State.programStaged
  with_reducible repeat' first
  | assumption
  | (intro)
  | apply State_setCommitBuf
  | apply State_programFlash
  | apply foldl

theorem State_eraseAt {s0} {s : State} (addr : Nat) (hk : Kept s0 s) : Kept s0 (State.eraseAt s addr) := by
  unfold State.eraseAt
  with_reducible repeat' first
  | assumption
  | apply ite
  | apply State_eraseBlock
  | apply State_setCommitBuf
  | split

theorem State_appendParam {s0} {s : State} (payload : List Byte) (hk : Kept s0 s) : Kept s0 (State.appendParam s payload) := by
  unfold State.appendParam
  with_reducible repeat' first
  | assumption
  | apply ite
  | apply State_eraseBlock
  | apply State_programFlash
  | apply State_setFld
  | fail_if_no_progress refine upd ?_ ?_; rotate_left; exact rfl

theorem State_paramOp {s0} {s : State} (secure : Bool) (hk : Kept s0 s) : Kept s0 (State.paramOp s secure) := by
  unfold State.paramOp
  with_reducible repeat' first
  | assumption
  | apply ite
  | apply State_mntEnd
  | apply State_mntRun

theorem of_execParamAppend {s0} (r : Requester) {s : State} (hk : Kept s0 s) : KeptR s0 (execParamAppend r s) := by
  unfold execParamAppend
  with_reducible repeat' first
  | assumption
  | (intro)
  | apply State_mntCommand
  | apply State_paramOp
  | apply KeptR.next

theorem State_findRings {s0} {s : State} (hk : Kept s0 s) : Kept s0 (State.findRings s) := by
  unfold State.findRings
  with_reducible repeat' first
  | assumption
  | apply State_setFld
  | fail_if_no_progress refine upd ?_ ?_; rotate_left; exact rfl
  | split
  | dsimp only

theorem State_mantelUp {s0} {s : State} (hk : Kept s0 s) : Kept s0 (State.mantelUp s) := by
  unfold State.mantelUp
  with_reducible repeat' first
  | assumption
  | (intro)
  | apply ite
  | apply State_findRings
  | apply State_setFields

theorem State_deviceRetain {s0} {s : State} (kind : Nat) (hk : Kept s0 s) : Kept s0 (State.deviceRetain s kind) := by
  unfold State.deviceRetain
  with_reducible repeat' first
  | assumption
  | apply ite
  | apply State_retainNext
  | apply State_raise
  | fail_if_no_progress refine upd ?_ ?_; rotate_left; exact rfl

theorem State_retainOp {s0} {s : State} (secure : Bool) (hk : Kept s0 s) : Kept s0 (State.retainOp s secure) := by
  unfold State.retainOp
  with_reducible repeat' first
  | assumption
  | apply ite
  | apply State_raise
  | apply State_mntEnd
  | apply State_retainNext
  | apply State_mntRun

theorem of_execRetainCommit {s0} (r : Requester) {s : State} (hk : Kept s0 s) : KeptR s0 (execRetainCommit r s) := by
  unfold execRetainCommit
  with_reducible repeat' first
  | assumption
  | (intro)
  | apply State_mntCommand
  | apply State_retainOp
  | apply KeptR.next

theorem State_retainDone {s0} {s : State} (o : MantelOp) (hk : Kept s0 s) : Kept s0 (State.retainDone s o) := by
  unfold State.retainDone
  with_reducible repeat' first
  | assumption
  | apply ite
  | apply State_setFld
  | apply State_setSlot
  | apply State_programFlash
  | apply State_raise
  | fail_if_no_progress refine upd ?_ ?_; rotate_left; exact rfl

theorem State_opDone {s0} {s : State} (o : MantelOp) (hk : Kept s0 s) : Kept s0 (State.opDone s o) := by
  unfold State.opDone
  with_reducible repeat' first
  | assumption
  | apply State_mntEnd
  | apply State_programStaged
  | apply State_eraseBlock
  | apply State_eraseAt
  | apply State_appendParam
  | apply State_retainDone
  | refine KeptOut.ofDone (by assumption) ?_
  | refine KeptOut.ofTrap (by assumption) ?_
  | refine KeptOut.ofStop (by assumption) ?_
  | split

theorem State_endOp {s0} {s : State} (o : MantelOp) (hk : Kept s0 s) : Kept s0 (State.endOp s o) := by
  unfold State.endOp
  with_reducible repeat' first
  | assumption
  | apply ite
  | apply State_opDone
  | apply State_readHeld
  | apply State_mantelStart
  | apply State_setHolder

theorem State_endDev {s0} {s : State} (o : MantelOp) (rest : List MantelOp) (hk : Kept s0 s) : Kept s0 (State.endDev s o rest) := by
  unfold State.endDev
  with_reducible repeat' first
  | assumption
  | apply ite
  | apply State_retainDone
  | apply State_readHeld
  | apply State_mantelStart
  | apply State_setHolder
  | fail_if_no_progress refine upd ?_ ?_; rotate_left; exact rfl

theorem of_execMantelOpDone {s0} {s : State} (hk : Kept s0 s) : KeptR s0 (execMantelOpDone s) := by
  unfold execMantelOpDone
  with_reducible repeat' first
  | assumption
  | (intro)
  | apply ite
  | apply State_endDev
  | apply State_endOp
  | apply State_mantelStart
  | apply KeptR.next
  | apply KeptR.ite
  | refine snd (by assumption) ?_
  | refine snd2 (by assumption) ?_
  | refine fst (by assumption) ?_
  | refine KeptOpt.get (by assumption) ?_
  | refine KeptO3 (by assumption) ?_
  | fail_if_no_progress refine upd ?_ ?_; rotate_left; exact rfl
  | split

theorem State_slotErased {s0} {s : State} (b : Nat) (hk : Kept s0 s) : Kept s0 (State.slotErased s b) := by
  unfold State.slotErased
  with_reducible repeat' first
  | assumption
  | apply ite
  | apply State_setSlot
  | split

theorem State_ashGoOn {s0} {s : State} (hk : Kept s0 s) : Kept s0 (State.ashGoOn s) := by
  unfold State.ashGoOn
  with_reducible repeat' first
  | assumption
  | apply ite
  | apply State_ashOwnPage
  | apply State_ashStartFlush
  | apply foldl
  | apply foldl1
  | apply foldl2
  | fail_if_no_progress refine upd ?_ ?_; rotate_left; exact rfl

theorem State_backErase {s0} {s : State} (b : Nat) (hk : Kept s0 s) : Kept s0 (State.backErase s b) := by
  unfold State.backErase
  with_reducible repeat' first
  | assumption
  | apply ite
  | apply State_ashGoOn
  | apply State_slotErased
  | apply State_setHolder
  | apply State_eraseBlock
  | fail_if_no_progress refine upd ?_ ?_; rotate_left; exact rfl

theorem of_execBackgroundErase {s0} (block : Fin 2048) {s : State} (hk : Kept s0 s) : KeptR s0 (execBackgroundErase block s) := by
  unfold execBackgroundErase
  with_reducible repeat' first
  | assumption
  | apply ite
  | apply State_backErase
  | apply State_readHeld
  | apply State_mantelStart
  | apply KeptR.next

theorem State_epochsDone {s0} {s : State} (highest : Nat) (hk : Kept s0 s) : Kept s0 (State.epochsDone s highest) := by
  unfold State.epochsDone
  with_reducible repeat' first
  | assumption
  | apply ite
  | apply State_setFld
  | apply State_raise

theorem State_privDone {s0} {s : State} (c : PrivCommit) (hk : Kept s0 s) : Kept s0 (State.privDone s c) := by
  unfold State.privDone
  with_reducible repeat' first
  | assumption
  | apply State_setFld
  | apply State_programFlash
  | apply State_epochsDone
  | apply State_eraseBlock
  | split

theorem State_endPriv {s0} {s : State} (c : PrivCommit) (hk : Kept s0 s) : Kept s0 (State.endPriv s c) := by
  unfold State.endPriv
  with_reducible repeat' first
  | assumption
  | apply ite
  | apply State_privDone
  | apply State_readHeld
  | apply State_mantelStart
  | apply State_setHolder
  | fail_if_no_progress refine upd ?_ ?_; rotate_left; exact rfl

theorem of_execPrivilegedCommitDone {s0} {s : State} (hk : Kept s0 s) : KeptR s0 (execPrivilegedCommitDone s) := by
  unfold execPrivilegedCommitDone
  with_reducible repeat' first
  | assumption
  | (intro)
  | apply ite
  | apply State_endPriv
  | apply State_mantelStart
  | apply KeptR.next
  | apply KeptR.ite
  | refine snd (by assumption) ?_
  | refine snd2 (by assumption) ?_
  | refine fst (by assumption) ?_
  | refine KeptOpt.get (by assumption) ?_
  | refine KeptO3 (by assumption) ?_
  | fail_if_no_progress refine upd ?_ ?_; rotate_left; exact rfl
  | split

theorem State_ashFlush {s0} {s : State} (hk : Kept s0 s) : Kept s0 (State.ashFlush s) := by
  unfold State.ashFlush
  with_reducible repeat' first
  | assumption
  | apply ite
  | apply State_raise
  | apply State_ashStartFlush

theorem of_execAshFlush {s0} (r : Requester) {s : State} (hk : Kept s0 s) : KeptR s0 (execAshFlush r s) := by
  unfold execAshFlush
  with_reducible repeat' first
  | assumption
  | (intro)
  | apply State_writeAs
  | apply State_ashFlush
  | apply KeptR.next

theorem State_endFlush {s0} {s : State} (hk : Kept s0 s) : Kept s0 (State.endFlush s) := by
  unfold State.endFlush
  with_reducible repeat' first
  | assumption
  | apply ite
  | apply State_readHeld
  | apply State_mantelStart
  | apply State_setHolder
  | apply State_ashEndFlush

theorem of_execAshFlushDone {s0} {s : State} (hk : Kept s0 s) : KeptR s0 (execAshFlushDone s) := by
  unfold execAshFlushDone
  with_reducible repeat' first
  | assumption
  | apply ite
  | apply State_endFlush
  | apply State_mantelStart
  | apply KeptR.next

theorem State_ashStartClear {s0} {s : State} (hk : Kept s0 s) : Kept s0 (State.ashStartClear s) := by
  unfold State.ashStartClear
  with_reducible repeat' first
  | assumption
  | (intro)
  | apply ite
  | apply State_record
  | apply State_setAshHead
  | apply State_dirCommit
  | apply State_setFields
  | fail_if_no_progress refine upd ?_ ?_; rotate_left; exact rfl

theorem of_execAshClear {s0} (r : Requester) {s : State} (hk : Kept s0 s) : KeptR s0 (execAshClear r s) := by
  unfold execAshClear
  with_reducible repeat' first
  | assumption
  | (intro)
  | apply State_writeSecure
  | apply State_ashStartClear
  | apply KeptR.next

theorem State_ashEndClear {s0} {s : State} (hk : Kept s0 s) : Kept s0 (State.ashEndClear s) := by
  unfold State.ashEndClear
  with_reducible repeat' first
  | assumption
  | (intro)
  | apply ite
  | apply State_ashGoOn
  | apply State_setHolder
  | apply State_eraseBlock
  | apply State_raise
  | apply State_setFld
  | apply foldl
  | apply foldl1
  | apply foldl2
  | fail_if_no_progress refine upd ?_ ?_; rotate_left; exact rfl

theorem of_execAshClearDone {s0} {s : State} (hk : Kept s0 s) : KeptR s0 (execAshClearDone s) := by
  unfold execAshClearDone
  with_reducible repeat' first
  | assumption
  | apply ite
  | apply State_ashEndClear
  | apply State_readHeld
  | apply State_mantelStart
  | apply KeptR.next

theorem State_commitSweep {s0} {s : State} (origin : Nat) (f : SweepFind) (hk : Kept s0 s) : Kept s0 (State.commitSweep s origin f) := by
  unfold State.commitSweep
  with_reducible repeat' first
  | assumption
  | (intro)
  | apply ite
  | refine snd (by assumption) ?_
  | refine snd2 (by assumption) ?_
  | refine fst (by assumption) ?_
  | refine KeptOpt.get (by assumption) ?_
  | refine KeptO3 (by assumption) ?_
  | fail_if_no_progress refine upd ?_ ?_; rotate_left; exact rfl

theorem State_zeroSecure {s0} {s : State} (hk : Kept s0 s) : Kept s0 (State.zeroSecure s) := by
  unfold State.zeroSecure
  with_reducible repeat' first
  | assumption
  | apply State_setCore
  | fail_if_no_progress refine upd ?_ ?_; rotate_left; exact rfl

theorem State_setEngState {s0} {s : State} (e : Nat) (v : Nat) (hk : Kept s0 s) : Kept s0 (State.setEngState s e v) := by
  unfold State.setEngState
  with_reducible repeat' first
  | assumption
  | apply State_setFld

theorem State_refreshFold {s0} {s : State} (e : Nat) (hk : Kept s0 s) : Kept s0 (State.refreshFold s e) := by
  unfold State.refreshFold
  with_reducible repeat' first
  | assumption
  | apply State_setFields
  | split

theorem State_refreshBlaze {s0} {s : State} (hk : Kept s0 s) : Kept s0 (State.refreshBlaze s) := by
  unfold State.refreshBlaze
  with_reducible repeat' first
  | assumption
  | apply State_setBit

theorem State_setFold {s0} {s : State} (e : Nat) (l : Nat) (b : Bool) (hk : Kept s0 s) : Kept s0 (State.setFold s e l b) := by
  unfold State.setFold
  with_reducible repeat' first
  | assumption
  | apply State_refreshBlaze
  | apply State_refreshFold
  | apply State_setFldBit

theorem State_fold {s0} {s : State} (l : Nat) (hk : Kept s0 s) : Kept s0 (State.fold s l) := by
  unfold State.fold
  with_reducible repeat' first
  | assumption
  | apply ite
  | apply State_setFold
  | apply State_raise
  | split

theorem State_unfold {s0} {s : State} (l : Nat) (hk : Kept s0 s) : Kept s0 (State.unfold s l) := by
  unfold State.unfold
  with_reducible repeat' first
  | assumption
  | (intro)
  | apply ite
  | apply State_setFold
  | apply foldl

theorem State_writeArea {s0} {s : State} (area : Nat) (p : Program) (hk : Kept s0 s) : Kept s0 (State.writeArea s area p) := by
  unfold State.writeArea
  with_reducible repeat' first
  | assumption
  | (intro)
  | apply ite
  | apply State_blockWrites
  | apply State_blockWrite
  | apply foldl
  | apply foldl1
  | apply foldl2
  | fail_if_no_progress refine upd ?_ ?_; rotate_left; exact rfl

theorem State_idleEngine {s0} {s : State} (e : Nat) (hk : Kept s0 s) : Kept s0 (State.idleEngine s e) := by
  unfold State.idleEngine
  with_reducible repeat' first
  | assumption
  | apply State_setCore

theorem State_setRole {s0} {s : State} (e : Nat) (l : Nat) (hk : Kept s0 s) : Kept s0 (State.setRole s e l) := by
  unfold State.setRole
  with_reducible repeat' first
  | assumption
  | apply State_setFields

theorem State_startSpare {s0} {s : State} (e : Nat) (l : Nat) (hk : Kept s0 s) : Kept s0 (State.startSpare s e l) := by
  unfold State.startSpare
  with_reducible repeat' first
  | assumption
  | apply ite
  | apply State_setRole
  | apply State_setEngState
  | apply State_setCore

theorem State_assignCluster {s0} {s : State} (n : Nat) (hk : Kept s0 s) : Kept s0 (State.assignCluster s n).1 := by
  unfold State.assignCluster
  with_reducible repeat' first
  | assumption
  | (intro)
  | apply State_setRole
  | apply State_setEngState
  | apply foldl
  | refine snd (by assumption) ?_
  | refine snd2 (by assumption) ?_
  | refine fst (by assumption) ?_
  | apply foldl1
  | apply foldl2
  | split
  | dsimp only

theorem State_assignEngines {s0} {s : State} (hk : Kept s0 s) : Kept s0 (State.assignEngines s) := by
  unfold State.assignEngines
  with_reducible repeat' first
  | assumption
  | (intro)
  | apply State_assignCluster
  | apply State_fold
  | apply foldl
  | refine snd (by assumption) ?_
  | refine snd2 (by assumption) ?_
  | refine fst (by assumption) ?_
  | apply foldl1

theorem State_refold {s0} {s : State} (hk : Kept s0 s) : Kept s0 (State.refold s) := by
  unfold State.refold
  with_reducible repeat' first
  | assumption
  | (intro)
  | apply ite
  | apply State_unfold
  | apply State_fold
  | apply foldl

theorem State_refreshRoles {s0} {s : State} (hk : Kept s0 s) : Kept s0 (State.refreshRoles s) := by
  unfold State.refreshRoles
  with_reducible repeat' first
  | assumption
  | (intro)
  | apply ite
  | apply State_setFld
  | apply State_refreshBlaze
  | apply foldl

theorem State_takeover {s0} {s : State} (k : Nat) (hk : Kept s0 s) : Kept s0 (State.takeover s k) := by
  unfold State.takeover
  with_reducible repeat' first
  | assumption
  | (intro)
  | apply ite
  | apply State_raise
  | apply State_setEngState
  | apply State_unfold
  | apply foldl
  | fail_if_no_progress refine upd ?_ ?_; rotate_left; exact rfl

theorem State_spareLoaded {s0} {s : State} (e : Nat) (hk : Kept s0 s) : Kept s0 (State.spareLoaded s e) := by
  unfold State.spareLoaded
  with_reducible repeat' first
  | assumption
  | apply ite
  | apply State_setCore
  | apply State_unfold
  | apply State_raise
  | apply State_setEngState
  | fail_if_no_progress refine upd ?_ ?_; rotate_left; exact rfl

theorem State_sandboxCopy {s0} {s : State} (hk : Kept s0 s) : Kept s0 (State.sandboxCopy s) := by
  unfold State.sandboxCopy
  with_reducible repeat' first
  | assumption
  | (intro)
  | apply State_blockWrites
  | apply foldl

theorem State_haltCore {s0} {s : State} (key : Nat) (cause : Nat) (hk : Kept s0 s) : Kept s0 (State.haltCore s key cause) := by
  unfold State.haltCore
  with_reducible repeat' first
  | assumption
  | apply State_raise
  | apply State_setFld
  | apply State_setCore

theorem State_onCls {s0} {s : State} (k : Nat) (f : ClassRt → ClassRt) (hk : Kept s0 s) : Kept s0 (State.onCls s k f) := by
  unfold State.onCls
  with_reducible repeat' first
  | assumption
  | apply State_setCls

theorem State_setBlockRt {s0} {s : State} (b : Nat) (r : BlockRt) (hk : Kept s0 s) : Kept s0 (State.setBlockRt s b r) := by
  unfold State.setBlockRt
  with_reducible repeat' first
  | assumption
  | fail_if_no_progress refine upd ?_ ?_; rotate_left; exact rfl

theorem State_setInstOff {s0} {s : State} (xs : List (Nat × Nat)) (hk : Kept s0 s) : Kept s0 (State.setInstOff s xs) := by
  unfold State.setInstOff
  with_reducible repeat' first
  | assumption
  | apply State_setFld
  | fail_if_no_progress refine upd ?_ ?_; rotate_left; exact rfl

theorem State_errEntry {s0} {s : State} (k : Nat) (e : ErrEntry) (hk : Kept s0 s) : Kept s0 (State.errEntry s k e) := by
  unfold State.errEntry
  with_reducible repeat' first
  | assumption
  | apply ite
  | apply State_setCls
  | apply State_raise
  | apply State_setFld

theorem State_blwCapture {s0} {s : State} (k : Nat) (block : Nat) (cause : Nat) (hk : Kept s0 s) : Kept s0 (State.blwCapture s k block cause) := by
  unfold State.blwCapture
  with_reducible repeat' first
  | assumption
  | apply State_capture

theorem State_logBlock {s0} {s : State} (k : Nat) (block : Nat) (op : Nat) (cause : Nat) (inst : Option Nat) (logical : Nat) (fault : Bool) (hk : Kept s0 s) : Kept s0 (State.logBlock s k block op cause inst logical fault) := by
  unfold State.logBlock
  with_reducible repeat' first
  | assumption
  | apply State_onCls

theorem State_reportFault {s0} {s : State} (k : Nat) (block : Nat) (inst : Option Nat) (cause : Nat) (logical : Nat) (hk : Kept s0 s) : Kept s0 (State.reportFault s k block inst cause logical) := by
  unfold State.reportFault
  with_reducible repeat' first
  | assumption
  | apply State_errEntry
  | apply State_onCls
  | apply State_record
  | apply State_raise
  | apply State_blwCapture

theorem State_markPoison {s0} {s : State} (k : Nat) (ws : List (Nat × Nat)) (hk : Kept s0 s) : Kept s0 (State.markPoison s k ws) := by
  unfold State.markPoison
  with_reducible repeat' first
  | assumption
  | apply State_onCls

theorem State_returnToken {s0} {s : State} (k : Nat) (tier : Nat) (l : Nat) (hk : Kept s0 s) : Kept s0 (State.returnToken s k tier l) := by
  unfold State.returnToken
  with_reducible repeat' first
  | assumption
  | apply State_onCls

theorem State_emitToken {s0} {s : State} (e : Nat) (k : Nat) (tier : Nat) (l : Nat) (hk : Kept s0 s) : Kept s0 (State.emitToken s e k tier l) := by
  unfold State.emitToken
  with_reducible repeat' first
  | assumption
  | (intro)
  | apply ite
  | apply State_onCls
  | apply State_setCore

theorem State_tokenArrives {s0} {s : State} (k : Nat) (tier : Nat) (l : Nat) (hk : Kept s0 s) : Kept s0 (State.tokenArrives s k tier l) := by
  unfold State.tokenArrives
  with_reducible repeat' first
  | assumption
  | (intro)
  | apply ite
  | apply State_setLink
  | apply State_setCore
  | refine snd (by assumption) ?_
  | refine snd2 (by assumption) ?_
  | refine fst (by assumption) ?_
  | refine KeptOpt.get (by assumption) ?_
  | refine KeptO3 (by assumption) ?_
  | fail_if_no_progress refine upd ?_ ?_; rotate_left; exact rfl
  | split
  | dsimp only

theorem State_flueDispatch {s0} {s : State} (e : Nat) (w : Work) (hk : Kept s0 s) : Kept s0 (State.flueDispatch s e w) := by
  unfold State.flueDispatch
  with_reducible repeat' first
  | assumption
  | apply ite
  | apply State_flueSend

theorem State_flueInstance {s0} {s : State} (e : Nat) (d : Desc) (inst : Option (Nat × Bool)) (hk : Kept s0 s) : Kept s0 (State.flueInstance s e d inst) := by
  unfold State.flueInstance
  with_reducible repeat' first
  | assumption
  | (intro)
  | apply ite
  | apply State_flueSend
  | refine snd (by assumption) ?_
  | refine snd2 (by assumption) ?_
  | refine fst (by assumption) ?_
  | refine KeptOpt.get (by assumption) ?_
  | refine KeptO3 (by assumption) ?_
  | fail_if_no_progress refine upd ?_ ?_; rotate_left; exact rfl
  | split

theorem State_enter {s0} {s : State} (e : Nat) (w : Work) (d : Desc) (inst : Option (Nat × Bool)) (hk : Kept s0 s) : Kept s0 (State.enter s e w d inst) := by
  unfold State.enter
  with_reducible repeat' first
  | assumption
  | (intro)
  | apply ite
  | apply State_flueInstance
  | apply State_setCore

theorem State_startWork {s0} {s : State} (e : Nat) (w : Work) (hk : Kept s0 s) : Kept s0 (State.startWork s e w) := by
  unfold State.startWork
  with_reducible repeat' first
  | assumption
  | apply State_enter
  | split

theorem State_nextWork {s0} {s : State} (e : Nat) (hk : Kept s0 s) : Kept s0 (State.nextWork s e) := by
  unfold State.nextWork
  with_reducible repeat' first
  | assumption
  | apply ite
  | apply State_startWork
  | apply State_setCore
  | split

theorem State_pushWork {s0} {s : State} (e : Nat) (w : Work) (hk : Kept s0 s) : Kept s0 (State.pushWork s e w) := by
  unfold State.pushWork
  with_reducible repeat' first
  | assumption
  | apply ite
  | apply State_nextWork
  | apply State_flueDispatch
  | apply State_setCore

theorem State_dispatchOne {s0} {s : State} (k : Nat) (tier : Nat) (l : Nat) (hk : Kept s0 s) : Kept s0 (State.dispatchOne s k tier l) := by
  unfold State.dispatchOne
  with_reducible repeat' first
  | assumption
  | (intro)
  | apply State_returnToken
  | apply State_onCls
  | apply State_pushWork
  | apply foldl
  | split
  | dsimp only

theorem State_clearFirstRun {s0} {s : State} (k : Nat) (tier : Nat) (ls : List Nat) (hk : Kept s0 s) : Kept s0 (State.clearFirstRun s k tier ls) := by
  unfold State.clearFirstRun
  with_reducible repeat' first
  | assumption
  | (intro)
  | apply ite
  | apply State_setBlockRt
  | apply foldl
  | split

theorem State_errDispatch {s0} {s : State} (k : Nat) (hk : Kept s0 s) : Kept s0 (State.errDispatch s k) := by
  unfold State.errDispatch
  with_reducible repeat' first
  | assumption
  | (intro)
  | apply State_setFields
  | apply State_ringDispatch
  | apply State_setCls
  | apply foldl

theorem State_errEnd {s0} {s : State} (k : Nat) (faulted : Bool) (hk : Kept s0 s) : Kept s0 (State.errEnd s k faulted) := by
  unfold State.errEnd
  with_reducible repeat' first
  | assumption
  | apply ite
  | apply State_setFld
  | apply State_onCls
  | apply State_raise

theorem State_taskEnd {s0} {s : State} (k : Nat) (d : Desc) (faulted : Bool) (hk : Kept s0 s) : Kept s0 (State.taskEnd s k d faulted) := by
  unfold State.taskEnd
  with_reducible repeat' first
  | assumption
  | apply ite
  | apply State_errEnd

theorem State_auditFault {s0} {s : State} (w : Work) (inst : Option Nat) (a : Nat) (old : W36) (new : W36) (hk : Kept s0 s) : Kept s0 (State.auditFault s w inst a old new) := by
  unfold State.auditFault
  with_reducible repeat' first
  | assumption
  | apply State_count
  | apply State_logBlock
  | apply State_setBlockRt
  | apply State_record
  | apply State_raise
  | apply State_blwCapture

theorem State_engineStore {s0} {s : State} (e : Nat) (a : Nat) (inst : Option Nat) (v : W36) (hk : Kept s0 s) : Kept s0 (State.engineStore s e a inst v) := by
  unfold State.engineStore
  with_reducible repeat' first
  | assumption
  | (intro)
  | apply ite
  | apply State_auditFault
  | apply State_writeWord
  | apply State_setCore
  | apply State_blockWrite
  | refine snd (by assumption) ?_
  | refine snd2 (by assumption) ?_
  | refine fst (by assumption) ?_
  | refine KeptOpt.get (by assumption) ?_
  | refine KeptO3 (by assumption) ?_
  | fail_if_no_progress refine upd ?_ ?_; rotate_left; exact rfl
  | split

theorem State_applyStore {s0} {s : State} (e : Nat) (st : Store) (hk : Kept s0 s) : Kept s0 (State.applyStore s e st) := by
  unfold State.applyStore
  with_reducible repeat' first
  | assumption
  | (intro)
  | apply ite
  | apply State_engineStore
  | apply foldl
  | apply foldl1
  | apply foldl2
  | refine snd (by assumption) ?_
  | refine snd2 (by assumption) ?_
  | refine fst (by assumption) ?_
  | refine KeptOpt.get (by assumption) ?_
  | refine KeptO3 (by assumption) ?_
  | fail_if_no_progress refine upd ?_ ?_; rotate_left; exact rfl
  | split

theorem State_drainOne {s0} {s : State} (e : Nat) (hk : Kept s0 s) : Kept s0 (State.drainOne s e) := by
  unfold State.drainOne
  with_reducible repeat' first
  | assumption
  | (intro)
  | apply ite
  | apply State_applyStore
  | apply State_pick
  | apply State_setCore
  | refine snd (by assumption) ?_
  | refine snd2 (by assumption) ?_
  | refine fst (by assumption) ?_
  | refine KeptOpt.get (by assumption) ?_
  | refine KeptO3 (by assumption) ?_
  | fail_if_no_progress refine upd ?_ ?_; rotate_left; exact rfl
  | split
  | dsimp only

theorem State_disableByFault {s0} {s : State} (d : Desc) (cause : Nat) (logical : Nat) (hk : Kept s0 s) : Kept s0 (State.disableByFault s d cause logical) := by
  unfold State.disableByFault
  with_reducible repeat' first
  | assumption
  | apply ite
  | apply State_logBlock
  | apply State_setBlockRt

theorem State_abandonSlices {s0} {s : State} (b : Nat) (hk : Kept s0 s) : Kept s0 (State.abandonSlices s b) := by
  unfold State.abandonSlices
  with_reducible repeat' first
  | assumption
  | (intro)
  | apply ite
  | apply State_setCore
  | apply State_returnToken
  | apply foldl

theorem State_blockFault {s0} {s : State} (w : Work) (d : Desc) (inst : Option Nat) (cause : Nat) (hk : Kept s0 s) : Kept s0 (State.blockFault s w d inst cause) := by
  unfold State.blockFault
  with_reducible repeat' first
  | assumption
  | apply ite
  | apply State_disableByFault
  | apply State_markPoison
  | apply State_taskEnd
  | apply State_reportFault

theorem State_faultReport {s0} {s : State} (e : Nat) (r : Running) (cause : Nat) (hk : Kept s0 s) : Kept s0 (State.faultReport s e r cause) := by
  unfold State.faultReport
  with_reducible repeat' first
  | assumption
  | (intro)
  | apply ite
  | apply State_blockFault
  | apply State_abandonSlices
  | apply State_nextWork
  | apply State_startWork
  | apply State_flueDispatch
  | apply State_returnToken
  | apply State_markPoison
  | apply State_reportFault
  | apply State_logBlock
  | apply State_setInstOff
  | apply State_raise
  | refine snd (by assumption) ?_
  | refine snd2 (by assumption) ?_
  | refine fst (by assumption) ?_
  | refine KeptOpt.get (by assumption) ?_
  | refine KeptO3 (by assumption) ?_
  | fail_if_no_progress refine upd ?_ ?_; rotate_left; exact rfl
  | split
  | dsimp only

theorem State_fbxCapture {s0} {s : State} (e : Nat) (cause : Nat) (pushed : Bool) (imprecise : Bool) (lds : Bool) (hk : Kept s0 s) : Kept s0 (State.fbxCapture s e cause pushed imprecise lds) := by
  unfold State.fbxCapture
  with_reducible repeat' first
  | assumption
  | apply State_capture

theorem State_flushStores {s0} {s : State} (e : Nat) (hk : Kept s0 s) : Kept s0 (State.flushStores s e) := by
  unfold State.flushStores
  with_reducible repeat' first
  | assumption
  | (intro)
  | apply State_draw
  | apply State_drainOne
  | apply State_setCore
  | apply foldl

theorem State_engineTrap {s0} {s : State} (e : Nat) (t : Trap) (hk : Kept s0 s) : Kept s0 (State.engineTrap s e t) := by
  unfold State.engineTrap
  with_reducible repeat' first
  | assumption
  | apply ite
  | apply State_flushStores
  | apply State_fbxCapture
  | apply State_haltCore
  | apply State_setCore
  | apply State_faultReport
  | split
  | dsimp only

theorem State_blockDone {s0} {s : State} (e : Nat) (r : Running) (hk : Kept s0 s) : Kept s0 (State.blockDone s e r) := by
  unfold State.blockDone
  with_reducible repeat' first
  | assumption
  | (intro)
  | apply ite
  | apply State_taskEnd
  | apply State_nextWork
  | apply State_emitToken
  | apply State_setCore
  | refine snd (by assumption) ?_
  | refine snd2 (by assumption) ?_
  | refine fst (by assumption) ?_
  | refine KeptOpt.get (by assumption) ?_
  | refine KeptO3 (by assumption) ?_
  | fail_if_no_progress refine upd ?_ ?_; rotate_left; exact rfl
  | split

theorem State_blockEnd {s0} {s : State} (e : Nat) (hk : Kept s0 s) : Kept s0 (State.blockEnd s e) := by
  unfold State.blockEnd
  with_reducible repeat' first
  | assumption
  | apply ite
  | apply State_haltCore
  | apply State_enter
  | apply State_blockDone
  | split

theorem State_importStep {s0} {s : State} (k : Nat) (hk : Kept s0 s) : Kept s0 (State.importStep s k) := by
  unfold State.importStep
  with_reducible repeat' first
  | assumption
  | (intro)
  | apply ite
  | apply State_solvedReads
  | apply State_writeWords
  | apply foldl
  | apply foldl1
  | apply foldl2
  | refine snd (by assumption) ?_
  | refine snd2 (by assumption) ?_
  | refine fst (by assumption) ?_
  | refine KeptOpt.get (by assumption) ?_
  | refine KeptO3 (by assumption) ?_
  | fail_if_no_progress refine upd ?_ ?_; rotate_left; exact rfl
  | split

theorem State_openTier {s0} {s : State} (k : Nat) (t : TierRt) (hk : Kept s0 s) : Kept s0 (State.openTier s k t) := by
  unfold State.openTier
  with_reducible repeat' first
  | assumption
  | (intro)
  | apply ite
  | apply State_setFld
  | apply State_setCls
  | apply State_errDispatch
  | apply State_dispatchOne
  | apply State_clearFirstRun
  | apply foldl

theorem State_loseBlock {s0} {s : State} (k : Nat) (l : Nat) (block : Nat) (insts : List Nat) (hk : Kept s0 s) : Kept s0 (State.loseBlock s k l block insts) := by
  unfold State.loseBlock
  with_reducible repeat' first
  | assumption
  | (intro)
  | apply ite
  | apply State_markPoison
  | apply State_reportFault
  | refine snd (by assumption) ?_
  | refine snd2 (by assumption) ?_
  | refine fst (by assumption) ?_
  | refine KeptOpt.get (by assumption) ?_
  | refine KeptO3 (by assumption) ?_
  | fail_if_no_progress refine upd ?_ ?_; rotate_left; exact rfl
  | split

theorem State_loseLogical {s0} {s : State} (k : Nat) (l : Nat) (hk : Kept s0 s) : Kept s0 (State.loseLogical s k l) := by
  unfold State.loseLogical
  with_reducible repeat' first
  | assumption
  | (intro)
  | apply ite
  | apply State_loseBlock
  | apply State_returnToken
  | apply foldl

theorem State_grtCapture {s0} {s : State} (n : Nat) (code : Nat) (hk : Kept s0 s) : Kept s0 (State.grtCapture s n code) := by
  unfold State.grtCapture
  with_reducible repeat' first
  | assumption
  | apply State_capture

theorem State_grateOne {s0} {s : State} (n : Nat) (hk : Kept s0 s) : Kept s0 (State.grateOne s n) := by
  unfold State.grateOne
  with_reducible repeat' first
  | assumption
  | apply ite
  | apply State_setChannel
  | apply State_setFldBit

theorem State_grateUpdate {s0} {s : State} (hk : Kept s0 s) : Kept s0 (State.grateUpdate s) := by
  unfold State.grateUpdate
  with_reducible repeat' first
  | assumption
  | (intro)
  | apply State_grateOne
  | apply foldl

theorem State_grateLaunch {s0} {s : State} (n : Nat) (on : Bool) (hk : Kept s0 s) : Kept s0 (State.grateLaunch s n on) := by
  unfold State.grateLaunch
  with_reducible repeat' first
  | assumption
  | apply State_grateOne
  | apply State_setChannel

theorem State_grateForget {s0} {s : State} (hk : Kept s0 s) : Kept s0 (State.grateForget s) := by
  unfold State.grateForget
  with_reducible repeat' first
  | assumption
  | (intro)
  | apply State_grateUpdate
  | apply State_setChannel
  | apply foldl

theorem State_declareChannel {s0} {s : State} (c : ChanDecl) (hk : Kept s0 s) : Kept s0 (State.declareChannel s c) := by
  unfold State.declareChannel
  with_reducible repeat' first
  | assumption
  | apply State_setFields
  | apply State_grateOne
  | apply State_setChannel

theorem State_grateLatch {s0} {s : State} (k : Nat) (hk : Kept s0 s) : Kept s0 (State.grateLatch s k) := by
  unfold State.grateLatch
  with_reducible repeat' first
  | assumption
  | (intro)
  | apply ite
  | apply State_setChannel
  | apply foldl

theorem State_grateIntake {s0} {s : State} (k : Nat) (hk : Kept s0 s) : Kept s0 (State.grateIntake s k) := by
  unfold State.grateIntake
  with_reducible repeat' first
  | assumption
  | (intro)
  | apply ite
  | apply State_substForced
  | apply State_writeWord
  | apply State_flueSend
  | apply foldl

theorem State_grateConfig {s0} {s : State} (n : Nat) (v : W32) (hk : Kept s0 s) : Kept s0 (State.grateConfig s n v) := by
  unfold State.grateConfig
  with_reducible repeat' first
  | assumption
  | apply ite
  | apply State_grtCapture
  | apply State_grateOne
  | apply State_setFields

theorem State_gratePair {s0} {s : State} (v : W32) (hk : Kept s0 s) : Kept s0 (State.gratePair s v) := by
  unfold State.gratePair
  with_reducible repeat' first
  | assumption
  | apply ite
  | apply State_grateUpdate
  | apply State_grtCapture
  | apply State_setFields
  | apply State_setFld
  | fail_if_no_progress refine upd ?_ ?_; rotate_left; exact rfl

theorem State_hobGroup {s0} {s : State} (g : Nat) (hk : Kept s0 s) : Kept s0 (State.hobGroup s g) := by
  unfold State.hobGroup
  with_reducible repeat' first
  | assumption
  | apply State_setFldBit

theorem State_setHobEff {s0} {s : State} (p : Nat) (m : Nat) (hk : Kept s0 s) : Kept s0 (State.setHobEff s p m) := by
  unfold State.setHobEff
  with_reducible repeat' first
  | assumption
  | apply ite
  | apply State_hobGroup
  | apply State_setHobPort
  | apply State_setFld

theorem State_hobPRaise {s0} {s : State} (p : Nat) (i : Nat) (f : Fld) (hk : Kept s0 s) : Kept s0 (State.hobPRaise s p i f) := by
  unfold State.hobPRaise
  with_reducible repeat' first
  | assumption
  | apply State_raise
  | apply State_capture

theorem State_hobRaise {s0} {s : State} (p : Nat) (i : Nat) (f : Fld) (hk : Kept s0 s) : Kept s0 (State.hobRaise s p i f) := by
  unfold State.hobRaise
  with_reducible repeat' first
  | assumption
  | apply State_raise
  | apply State_capture

theorem State_hobArbitrate {s0} {s : State} (p : Nat) (hk : Kept s0 s) : Kept s0 (State.hobArbitrate s p) := by
  unfold State.hobArbitrate
  with_reducible repeat' first
  | assumption
  | apply ite
  | apply State_setHobPort
  | split

theorem State_hobPump {s0} {s : State} (p : Nat) (hk : Kept s0 s) : Kept s0 (State.hobPump s p) := by
  unfold State.hobPump
  with_reducible repeat' first
  | assumption
  | apply State_hobArbitrate
  | apply State_setHobPort

theorem State_hobRelease {s0} {s : State} (p : Nat) (fs : List TxFrame) (hk : Kept s0 s) : Kept s0 (State.hobRelease s p fs) := by
  unfold State.hobRelease
  with_reducible repeat' first
  | assumption
  | (intro)
  | apply ite
  | apply State_hobPump
  | apply State_setHobPort

theorem State_tspRaise {s0} {s : State} (i : Nat) (f : Fld) (b : Nat) (port : Nat) (hk : Kept s0 s) : Kept s0 (State.tspRaise s i f b port) := by
  unfold State.tspRaise
  with_reducible repeat' first
  | assumption
  | apply State_raiseBit
  | apply State_capture

theorem State_setLaunchQ {s0} {s : State} (p : Nat) (q : List Launch) (hk : Kept s0 s) : Kept s0 (State.setLaunchQ s p q) := by
  unfold State.setLaunchQ
  with_reducible repeat' first
  | assumption
  | apply ite
  | fail_if_no_progress refine upd ?_ ?_; rotate_left; exact rfl

theorem State_noteLate {s0} {s : State} (port : Nat) (late : Nat) (l : Launch) (hk : Kept s0 s) : Kept s0 (State.noteLate s port late l) := by
  unfold State.noteLate
  with_reducible repeat' first
  | assumption
  | (intro)
  | apply ite
  | apply State_tspRaise
  | apply State_count
  | refine snd (by assumption) ?_
  | refine snd2 (by assumption) ?_
  | refine fst (by assumption) ?_
  | refine KeptOpt.get (by assumption) ?_
  | refine KeptO3 (by assumption) ?_
  | fail_if_no_progress refine upd ?_ ?_; rotate_left; exact rfl
  | split

theorem State_launchPast {s0} {s : State} (port : Nat) (late : Nat) (hk : Kept s0 s) : Kept s0 (State.launchPast s port late) := by
  unfold State.launchPast
  with_reducible repeat' first
  | assumption
  | (intro)
  | apply ite
  | apply State_noteLate
  | apply State_setLaunchQ
  | apply State_hobRelease
  | apply foldl

theorem State_launchDue {s0} {s : State} (port : Nat) (hk : Kept s0 s) : Kept s0 (State.launchDue s port) := by
  unfold State.launchDue
  with_reducible repeat' first
  | assumption
  | apply ite
  | apply State_launchPast

theorem State_hobLaunch {s0} {s : State} (p : Nat) (time : Option Nat) (fs : List TxFrame) (hk : Kept s0 s) : Kept s0 (State.hobLaunch s p time fs) := by
  unfold State.hobLaunch
  with_reducible repeat' first
  | assumption
  | (intro)
  | apply ite
  | apply State_launchDue
  | apply State_setLaunchQ

theorem State_hobQueue {s0} {s : State} (p : Nat) (fs : List TxFrame) (hk : Kept s0 s) : Kept s0 (State.hobQueue s p fs) := by
  unfold State.hobQueue
  with_reducible repeat' first
  | assumption
  | apply ite
  | apply State_hobLaunch
  | apply State_hobRelease

theorem State_hobResult {s0} {s : State} (p : Nat) (b : Nat) (result : Nat) (who : Nat) (hk : Kept s0 s) : Kept s0 (State.hobResult s p b result who) := by
  unfold State.hobResult
  with_reducible repeat' first
  | assumption
  | apply State_setFields

theorem State_hobCancel {s0} {s : State} (p : Nat) (b : Nat) (who : Nat) (hk : Kept s0 s) : Kept s0 (State.hobCancel s p b who) := by
  unfold State.hobCancel
  with_reducible repeat' first
  | assumption
  | apply State_hobResult
  | apply State_setHobPort
  | apply State_hobPump
  | split
  | dsimp only

theorem State_hobCancelImages {s0} {s : State} (p : Nat) (which : TxFrame → Bool) (hk : Kept s0 s) : Kept s0 (State.hobCancelImages s p which) := by
  unfold State.hobCancelImages
  with_reducible repeat' first
  | assumption
  | (intro)
  | apply ite
  | apply State_hobCancel
  | apply State_setLaunchQ
  | apply State_hobPump
  | apply State_setHobPort
  | apply foldl

theorem State_hobBoundaryCancel {s0} {s : State} (k : Nat) (hk : Kept s0 s) : Kept s0 (State.hobBoundaryCancel s k) := by
  unfold State.hobBoundaryCancel
  with_reducible repeat' first
  | assumption
  | (intro)
  | apply State_hobCancelImages
  | apply foldl

theorem State_hobErrState {s0} {s : State} (p : Nat) (hk : Kept s0 s) : Kept s0 (State.hobErrState s p) := by
  unfold State.hobErrState
  with_reducible repeat' first
  | assumption
  | apply ite
  | apply State_hobPRaise
  | apply State_setFld
  | split

theorem State_hobReturn {s0} {s : State} (p : Nat) (b : Nat) (backoff : Bool) (hk : Kept s0 s) : Kept s0 (State.hobReturn s p b backoff) := by
  unfold State.hobReturn
  with_reducible repeat' first
  | assumption
  | apply ite
  | apply State_hobResult
  | apply State_setHobPort

theorem State_hobLoseReference {s0} {s : State} (p : Nat) (hk : Kept s0 s) : Kept s0 (State.hobLoseReference s p) := by
  unfold State.hobLoseReference
  with_reducible repeat' first
  | assumption
  | apply State_setHobPort
  | apply State_hobPRaise
  | apply State_count

theorem State_hobAttemptEnds {s0} {s : State} (p : Nat) (b : Nat) (error : Bool) (backoff : Bool) (hk : Kept s0 s) : Kept s0 (State.hobAttemptEnds s p b error backoff) := by
  unfold State.hobAttemptEnds
  with_reducible repeat' first
  | assumption
  | apply ite
  | apply State_hobReturn
  | apply State_hobLoseReference

theorem State_hobEnterBusOff {s0} {s : State} (p : Nat) (hk : Kept s0 s) : Kept s0 (State.hobEnterBusOff s p) := by
  unfold State.hobEnterBusOff
  with_reducible repeat' first
  | assumption
  | apply ite
  | apply State_hobAttemptEnds
  | apply State_hobPRaise
  | apply State_setFld
  | split

theorem State_hobRecover {s0} {s : State} (p : Nat) (hk : Kept s0 s) : Kept s0 (State.hobRecover s p) := by
  unfold State.hobRecover
  with_reducible repeat' first
  | assumption
  | apply State_setFields

theorem State_hobTxError {s0} {s : State} (p : Nat) (hk : Kept s0 s) : Kept s0 (State.hobTxError s p) := by
  unfold State.hobTxError
  with_reducible repeat' first
  | assumption
  | apply ite
  | apply State_hobEnterBusOff
  | apply State_setFld
  | apply State_hobErrState

theorem State_hobTxGood {s0} {s : State} (p : Nat) (hk : Kept s0 s) : Kept s0 (State.hobTxGood s p) := by
  unfold State.hobTxGood
  with_reducible repeat' first
  | assumption
  | apply State_hobErrState
  | apply State_setFld

theorem State_hobRxGood {s0} {s : State} (p : Nat) (hk : Kept s0 s) : Kept s0 (State.hobRxGood s p) := by
  unfold State.hobRxGood
  with_reducible repeat' first
  | assumption
  | apply ite
  | apply State_draw
  | apply State_hobErrState
  | apply State_setFld

theorem State_hobControl {s0} {s : State} (p : Nat) (cmd : Nat) (hk : Kept s0 s) : Kept s0 (State.hobControl s p cmd) := by
  unfold State.hobControl
  with_reducible repeat' first
  | assumption
  | apply State_hobQueue

theorem State_hobDropCancel {s0} {s : State} (p : Nat) (hk : Kept s0 s) : Kept s0 (State.hobDropCancel s p) := by
  unfold State.hobDropCancel
  with_reducible repeat' first
  | assumption
  | (intro)
  | apply ite
  | apply State_hobResult
  | refine snd (by assumption) ?_
  | refine snd2 (by assumption) ?_
  | refine fst (by assumption) ?_
  | refine KeptOpt.get (by assumption) ?_
  | refine KeptO3 (by assumption) ?_
  | fail_if_no_progress refine upd ?_ ?_; rotate_left; exact rfl
  | split

theorem State_hobEnter {s0} {s : State} (p : Nat) (m : Nat) (hk : Kept s0 s) : Kept s0 (State.hobEnter s p m) := by
  unfold State.hobEnter
  with_reducible repeat' first
  | assumption
  | apply ite
  | apply State_hobDropCancel
  | apply State_setLaunchQ
  | apply State_hobPump
  | apply State_setHobEff
  | apply State_setHobPort
  | apply State_setFld

theorem State_hobApplyMode {s0} {s : State} (p : Nat) (hk : Kept s0 s) : Kept s0 (State.hobApplyMode s p) := by
  unfold State.hobApplyMode
  with_reducible repeat' first
  | assumption
  | apply ite
  | apply State_hobEnter
  | split
  | dsimp only

theorem State_hobRequest {s0} {s : State} (p : Nat) (m : Nat) (hk : Kept s0 s) : Kept s0 (State.hobRequest s p m) := by
  unfold State.hobRequest
  with_reducible repeat' first
  | assumption
  | apply ite
  | apply State_setHobPort

theorem State_hobRoleChange {s0} {s : State} (hk : Kept s0 s) : Kept s0 (State.hobRoleChange s) := by
  unfold State.hobRoleChange
  with_reducible repeat' first
  | assumption
  | (intro)
  | apply ite
  | apply State_hobRequest
  | apply foldl

theorem State_hobAllOff {s0} {s : State} (hk : Kept s0 s) : Kept s0 (State.hobAllOff s) := by
  unfold State.hobAllOff
  with_reducible repeat' first
  | assumption
  | (intro)
  | apply ite
  | apply State_hobEnter
  | apply foldl

theorem State_hobDemote {s0} {s : State} (hk : Kept s0 s) : Kept s0 (State.hobDemote s) := by
  unfold State.hobDemote
  with_reducible repeat' first
  | assumption
  | (intro)
  | apply ite
  | apply State_hobRoleChange
  | apply State_hobCancelImages
  | apply State_setHobPort
  | apply foldl

theorem State_hobMapOut {s0} {s : State} (p : Nat) (hk : Kept s0 s) : Kept s0 (State.hobMapOut s p) := by
  unfold State.hobMapOut
  with_reducible repeat' first
  | assumption
  | apply ite
  | apply State_hobDropCancel
  | apply State_setLaunchQ
  | apply State_setHobEff
  | apply State_setHobPort
  | apply State_setFld

theorem State_hobStart {s0} {s : State} (hk : Kept s0 s) : Kept s0 (State.hobStart s) := by
  unfold State.hobStart
  with_reducible repeat' first
  | assumption
  | (intro)
  | apply ite
  | apply State_hobMapOut
  | apply State_hobGroup
  | apply State_setFields
  | apply foldl

theorem State_hobStartRestart {s0} {s : State} (p : Nat) (hk : Kept s0 s) : Kept s0 (State.hobStartRestart s p) := by
  unfold State.hobStartRestart
  with_reducible repeat' first
  | assumption
  | apply ite
  | apply State_hobGroup
  | apply State_setHobPort

theorem State_onStation {s0} {s : State} (n : Nat) (f : StationRt → StationRt) (hk : Kept s0 s) : Kept s0 (State.onStation s n f) := by
  unfold State.onStation
  with_reducible repeat' first
  | assumption
  | apply State_setStation

theorem State_flueIntake {s0} {s : State} (d : StationDecl) (hk : Kept s0 s) : Kept s0 (State.flueIntake s d) := by
  unfold State.flueIntake
  with_reducible repeat' first
  | assumption
  | (intro)
  | apply ite
  | apply State_flueSend

theorem State_flueOutlay {s0} {s : State} (d : StationDecl) (hk : Kept s0 s) : Kept s0 (State.flueOutlay s d) := by
  unfold State.flueOutlay
  with_reducible repeat' first
  | assumption
  | apply ite
  | apply State_flueAsk

theorem State_setSession {s0} {s : State} (i : Nat) (x : Session) (hk : Kept s0 s) : Kept s0 (State.setSession s i x) := by
  unfold State.setSession
  with_reducible repeat' first
  | assumption
  | fail_if_no_progress refine upd ?_ ?_; rotate_left; exact rfl

theorem State_sendEth {s0} {s : State} (x : Nat) (o : Output) (hk : Kept s0 s) : Kept s0 (State.sendEth s x o) := by
  unfold State.sendEth
  with_reducible repeat' first
  | assumption
  | apply ite
  | apply State_send
  | apply State_countWrap

theorem State_sendOn {s0} {s : State} (i : Nat) (n : Nat) (frame : List Byte) (hk : Kept s0 s) : Kept s0 (State.sendOn s i n frame) := by
  unfold State.sendOn
  with_reducible repeat' first
  | assumption
  | apply ite
  | apply State_sendEth
  | apply State_setSession

theorem State_sendDtls {s0} {s : State} (i : Nat) (x : Nat) (what : Nat) (hk : Kept s0 s) : Kept s0 (State.sendDtls s i x what) := by
  unfold State.sendDtls
  with_reducible repeat' first
  | assumption
  | apply ite
  | apply State_sendEth

theorem State_sendDraught {s0} {s : State} (n : Nat) (frame : List Byte) (hk : Kept s0 s) : Kept s0 (State.sendDraught s n frame) := by
  unfold State.sendDraught
  with_reducible repeat' first
  | assumption
  | (intro)
  | apply ite
  | apply State_sendOn
  | refine snd (by assumption) ?_
  | refine snd2 (by assumption) ?_
  | refine fst (by assumption) ?_
  | refine KeptOpt.get (by assumption) ?_
  | refine KeptO3 (by assumption) ?_
  | fail_if_no_progress refine upd ?_ ?_; rotate_left; exact rfl
  | split

theorem State_sendOutlayFrames {s0} {s : State} (d : StationDecl) (seq : Nat) (ws : List W36) (hk : Kept s0 s) : Kept s0 (State.sendOutlayFrames s d seq ws) := by
  unfold State.sendOutlayFrames
  with_reducible repeat' first
  | assumption
  | (intro)
  | apply State_sendDraught
  | apply foldl

theorem State_sendAck {s0} {s : State} (d : StationDecl) (kind : Nat) (seq : Nat) (hk : Kept s0 s) : Kept s0 (State.sendAck s d kind seq) := by
  unfold State.sendAck
  with_reducible repeat' first
  | assumption
  | apply State_sendDraught

theorem State_sendBind {s0} {s : State} (d : StationDecl) (result : Nat) (hk : Kept s0 s) : Kept s0 (State.sendBind s d result) := by
  unfold State.sendBind
  with_reducible repeat' first
  | assumption
  | apply State_sendDraught

theorem State_hobCancelSleep {s0} {s : State} (p : Nat) (hk : Kept s0 s) : Kept s0 (State.hobCancelSleep s p) := by
  unfold State.hobCancelSleep
  with_reducible repeat' first
  | assumption
  | apply ite
  | apply State_setFld
  | apply State_setHobPort
  | apply State_hobPRaise
  | apply State_setHobEff
  | apply State_hobControl

theorem State_sendBusFrames {s0} {s : State} (d : StationDecl) (fs : List TxFrame) (differs : Bool) (hk : Kept s0 s) : Kept s0 (State.sendBusFrames s d fs differs) := by
  unfold State.sendBusFrames
  with_reducible repeat' first
  | assumption
  | apply ite
  | apply State_hobStartRestart
  | apply State_hobQueue
  | apply State_hobCancelSleep

theorem State_legacySend {s0} {s : State} (n : Nat) (kind : Nat) (ioa : Nat) (value : Nat) (hk : Kept s0 s) : Kept s0 (State.legacySend s n kind ioa value) := by
  unfold State.legacySend
  with_reducible repeat' first
  | assumption
  | apply ite
  | apply State_sendEth

theorem State_legacyPump {s0} {s : State} (n : Nat) (ws : List (Nat × Nat × Nat)) (hk : Kept s0 s) : Kept s0 (s.legacyPump n ws) := by
  induction ws generalizing s with
  | nil => exact State_onStation _ _ hk
  | cons v l ih =>
    obtain ⟨a, b, c⟩ := v
    exact ite (ih (State_legacySend _ _ _ _ (State_onStation _ _ hk))) (State_onStation _ _ hk)

theorem State_legacySendI {s0} {s : State} (n : Nat) (kind : Nat) (ioa : Nat) (value : Nat) (hk : Kept s0 s) : Kept s0 (State.legacySendI s n kind ioa value) := by
  unfold State.legacySendI
  with_reducible repeat' first
  | assumption
  | apply ite
  | apply State_legacyPump

theorem State_legacyCommands {s0} {s : State} (d : StationDecl) (ws : List W36) (hk : Kept s0 s) : Kept s0 (State.legacyCommands s d ws) := by
  unfold State.legacyCommands
  with_reducible repeat' first
  | assumption
  | (intro)
  | apply ite
  | apply State_legacySendI
  | apply State_onStation
  | apply foldl

end Sys2Proof.Machine.Kept
end

