-- ==== Sys2Proof/Laws/KeptCores.lean ====
section
/-! SUPPORT. `Kept` for the cores and their instructions: one lemma per function, in the order of the model. -/

namespace Sys2Proof.Machine.Kept

theorem State_legacyInterrogate {s0} {s : State} (n : Nat) (hk : Kept s0 s) : Kept s0 (State.legacyInterrogate s n) := by
  unfold State.legacyInterrogate
  with_reducible repeat' first
  | assumption
  | apply State_legacySendI
  | apply State_onStation

theorem State_legacyStart {s0} {s : State} (n : Nat) (hk : Kept s0 s) : Kept s0 (State.legacyStart s n) := by
  unfold State.legacyStart
  with_reducible repeat' first
  | assumption
  | (intro)
  | apply ite
  | apply State_legacySend
  | apply State_onStation

theorem State_legacyStop {s0} {s : State} (n : Nat) (hk : Kept s0 s) : Kept s0 (State.legacyStop s n) := by
  unfold State.legacyStop
  with_reducible repeat' first
  | assumption
  | (intro)
  | apply ite
  | apply State_legacySend
  | apply State_onStation

theorem State_legacyStartAll {s0} {s : State} (hk : Kept s0 s) : Kept s0 (State.legacyStartAll s) := by
  unfold State.legacyStartAll
  with_reducible repeat' first
  | assumption
  | (intro)
  | apply State_legacyStart
  | apply foldl

theorem State_legacyStopAll {s0} {s : State} (hk : Kept s0 s) : Kept s0 (State.legacyStopAll s) := by
  unfold State.legacyStopAll
  with_reducible repeat' first
  | assumption
  | (intro)
  | apply State_legacyStop
  | apply foldl

theorem State_fillBuf {s0} {s : State} (b : Nat) (n : Nat) (i : Nat) (ws : List W36) (hk : Kept s0 s) : Kept s0 (State.fillBuf s b n i ws) := by
  unfold State.fillBuf
  with_reducible repeat' first
  | assumption
  | apply ite
  | apply State_blockWrites

theorem State_sendImage {s0} {s : State} (d : StationDecl) (seq : Nat) (ws : List W36) (hk : Kept s0 s) : Kept s0 (State.sendImage s d seq ws) := by
  unfold State.sendImage
  with_reducible repeat' first
  | assumption
  | apply ite
  | apply State_onStation
  | apply State_sendOutlayFrames
  | apply State_legacyCommands
  | apply State_sendBusFrames

theorem State_sendHold {s0} {s : State} (d : StationDecl) (hk : Kept s0 s) : Kept s0 (State.sendHold s d) := by
  unfold State.sendHold
  with_reducible repeat' first
  | assumption
  | apply ite
  | apply State_sendDraught
  | apply State_hobQueue

theorem State_sendHolds {s0} {s : State} (hk : Kept s0 s) : Kept s0 (State.sendHolds s) := by
  unfold State.sendHolds
  with_reducible repeat' first
  | assumption
  | (intro)
  | apply State_sendHold
  | apply foldl

theorem State_startSettle {s0} {s : State} (k : Nat) (hk : Kept s0 s) : Kept s0 (State.startSettle s k) := by
  unfold State.startSettle
  with_reducible repeat' first
  | assumption
  | apply State_setFld
  | apply State_setFldBit
  | apply State_onCls

theorem State_abortBlocks {s0} {s : State} (k : Nat) (hk : Kept s0 s) : Kept s0 (State.abortBlocks s k) := by
  unfold State.abortBlocks
  with_reducible repeat' first
  | assumption
  | (intro)
  | apply ite
  | apply State_setCore
  | apply State_flushStores
  | apply State_onCls
  | apply State_nextWork
  | apply foldl
  | split
  | dsimp only

theorem State_cycleStats {s0} {s : State} (k : Nat) (hk : Kept s0 s) : Kept s0 (State.cycleStats s k) := by
  unfold State.cycleStats
  with_reducible repeat' first
  | assumption
  | apply State_setFields

theorem State_abortCycle {s0} {s : State} (k : Nat) (hk : Kept s0 s) : Kept s0 (State.abortCycle s k) := by
  unfold State.abortCycle
  with_reducible repeat' first
  | assumption
  | (intro)
  | apply ite
  | apply State_cycleStats
  | apply State_abortBlocks
  | apply State_startSettle
  | apply State_onCls
  | apply State_record
  | apply State_setFld

theorem State_guardPause {s0} {s : State} (k : Nat) (hk : Kept s0 s) : Kept s0 (State.guardPause s k) := by
  unfold State.guardPause
  with_reducible repeat' first
  | assumption
  | fail_if_no_progress refine upd ?_ ?_; rotate_left; exact rfl
  | split
  | dsimp only

theorem State_classStates {s0} {s : State} (hk : Kept s0 s) : Kept s0 (State.classStates s) := by
  unfold State.classStates
  with_reducible repeat' first
  | assumption
  | (intro)
  | apply ite
  | apply State_guardPause
  | apply State_applyStopped
  | apply State_setFld
  | apply foldl

theorem State_setRoleState {s0} {s : State} (r : Nat) (cause : Nat) (hk : Kept s0 s) : Kept s0 (State.setRoleState s r cause) := by
  unfold State.setRoleState
  with_reducible repeat' first
  | assumption
  | apply ite
  | apply State_record
  | apply State_setFields
  | apply State_setMode
  | apply State_hobRoleChange
  | apply State_classStates
  | apply State_grateForget
  | apply State_grateUpdate
  | fail_if_no_progress refine upd ?_ ?_; rotate_left; exact rfl

theorem State_releaseItems {s0} {s : State} (xs : List Held) (hk : Kept s0 s) : Kept s0 (State.releaseItems s xs) := by
  unfold State.releaseItems
  with_reducible repeat' first
  | assumption
  | (intro)
  | apply State_sendImage
  | apply State_grateLaunch
  | apply foldl
  | split

theorem State_releaseWaiting {s0} {s : State} (hk : Kept s0 s) : Kept s0 (State.releaseWaiting s) := by
  unfold State.releaseWaiting
  with_reducible repeat' first
  | assumption
  | (intro)
  | apply State_releaseItems
  | apply State_onCls
  | apply foldl

theorem State_discardHeld {s0} {s : State} (hk : Kept s0 s) : Kept s0 (State.discardHeld s) := by
  unfold State.discardHeld
  with_reducible repeat' first
  | assumption
  | (intro)
  | apply ite
  | apply State_launchDue
  | apply State_onCls
  | apply foldl
  | apply foldl1
  | apply foldl2
  | fail_if_no_progress refine upd ?_ ?_; rotate_left; exact rfl

theorem State_sendHeartbeat {s0} {s : State} (leaving : Bool) (hk : Kept s0 s) : Kept s0 (State.sendHeartbeat s leaving) := by
  unfold State.sendHeartbeat
  with_reducible repeat' first
  | assumption
  | apply ite
  | apply State_erairSend
  | fail_if_no_progress refine upd ?_ ?_; rotate_left; exact rfl

theorem State_eraLedger {s0} {s : State} (hk : Kept s0 s) : Kept s0 (State.eraLedger s) := by
  unfold State.eraLedger
  with_reducible repeat' first
  | assumption
  | apply State_setFields

theorem State_setOutstanding {s0} {s : State} (os : List Outstanding) (hk : Kept s0 s) : Kept s0 (State.setOutstanding s os) := by
  unfold State.setOutstanding
  with_reducible repeat' first
  | assumption
  | apply State_eraLedger
  | fail_if_no_progress refine upd ?_ ?_; rotate_left; exact rfl

theorem State_acknowledged {s0} {s : State} (o : Outstanding) (hk : Kept s0 s) : Kept s0 (State.acknowledged s o) := by
  unfold State.acknowledged
  with_reducible repeat' first
  | assumption
  | apply ite
  | apply State_setOutstanding
  | fail_if_no_progress refine upd ?_ ?_; rotate_left; exact rfl

theorem State_desyncOnly {s0} {s : State} (cause : Nat) (hk : Kept s0 s) : Kept s0 (State.desyncOnly s cause) := by
  unfold State.desyncOnly
  with_reducible repeat' first
  | assumption
  | apply ite
  | apply State_setOutstanding
  | apply State_releaseWaiting
  | apply State_setRoleState
  | apply State_erairSend
  | apply State_capture
  | apply State_raise
  | apply State_message
  | fail_if_no_progress refine upd ?_ ?_; rotate_left; exact rfl

theorem State_seeEpoch {s0} {s : State} (path : Nat) (station : Nat) (e : Nat) (hk : Kept s0 s) : Kept s0 (State.seeEpoch s path station e) := by
  unfold State.seeEpoch
  with_reducible repeat' first
  | assumption
  | apply ite
  | apply State_raise
  | apply State_setFields
  | apply State_dirCommit

theorem State_claim {s0} {s : State} (hk : Kept s0 s) : Kept s0 (State.claim s) := by
  unfold State.claim
  with_reducible repeat' first
  | assumption
  | apply State_raise
  | apply State_count
  | apply State_setFields
  | apply State_dirCommit
  | apply State_record

theorem State_swapSeen {s0} {s : State} (hk : Kept s0 s) : Kept s0 (State.swapSeen s) := by
  unfold State.swapSeen
  with_reducible repeat' first
  | assumption
  | apply ite
  | apply State_raise
  | fail_if_no_progress refine upd ?_ ?_; rotate_left; exact rfl

theorem State_demoteStop {s0} {s : State} (hk : Kept s0 s) : Kept s0 (State.demoteStop s) := by
  unfold State.demoteStop
  with_reducible repeat' first
  | assumption
  | apply ite
  | apply State_eraLedger
  | apply State_discardHeld
  | apply State_abortCycle
  | apply foldl
  | apply foldl1
  | apply foldl2
  | fail_if_no_progress refine upd ?_ ?_; rotate_left; exact rfl

theorem State_demoteSteps {s0} {s : State} (path : Nat) (epoch : Nat) (hk : Kept s0 s) : Kept s0 (State.demoteSteps s path epoch) := by
  unfold State.demoteSteps
  with_reducible repeat' first
  | assumption
  | apply ite
  | apply State_demoteStop
  | apply State_setRoleState
  | apply State_legacyStopAll
  | apply State_hobDemote
  | apply State_record
  | apply State_raise
  | apply State_count

theorem State_rakePhase {s0} {s : State} (p : Nat) (hk : Kept s0 s) : Kept s0 (State.rakePhase s p) := by
  unfold State.rakePhase
  with_reducible repeat' first
  | assumption
  | fail_if_no_progress refine upd ?_ ?_; rotate_left; exact rfl
  | split

theorem State_rakeRest {s0} {s : State} (hk : Kept s0 s) : Kept s0 (State.rakeRest s) := by
  unfold State.rakeRest
  with_reducible repeat' first
  | assumption
  | apply State_setRoleState
  | apply State_sendHeartbeat
  | apply State_ashStartFlush
  | apply State_startCapture
  | apply State_setFld
  | apply State_rakePhase

theorem State_rakeFree {s0} {s : State} (hk : Kept s0 s) : Kept s0 (State.rakeFree s) := by
  unfold State.rakeFree
  with_reducible repeat' first
  | assumption
  | apply ite
  | apply State_rakeRest
  | split

theorem State_demoteAs {s0} {s : State} (path : Nat) (epoch : Nat) (hk : Kept s0 s) : Kept s0 (State.demoteAs s path epoch) := by
  unfold State.demoteAs
  with_reducible repeat' first
  | assumption
  | apply State_rakeFree
  | apply State_demoteSteps

theorem State_rakeGo {s0} {s : State} (hk : Kept s0 s) : Kept s0 (State.rakeGo s) := by
  unfold State.rakeGo
  with_reducible repeat' first
  | assumption
  | apply ite
  | apply State_demoteAs
  | apply State_rakeFree
  | apply State_demoteStop
  | apply State_legacyStopAll
  | apply State_hobDemote
  | apply State_erairSend

theorem State_rakeCheck {s0} {s : State} (hk : Kept s0 s) : Kept s0 (State.rakeCheck s) := by
  unfold State.rakeCheck
  with_reducible repeat' first
  | assumption
  | apply ite
  | apply State_rakeGo
  | split

theorem State_desync {s0} {s : State} (cause : Nat) (hk : Kept s0 s) : Kept s0 (State.desync s cause) := by
  unfold State.desync
  with_reducible repeat' first
  | assumption
  | apply State_rakeCheck
  | apply State_desyncOnly

theorem State_enterHeld {s0} {s : State} (hk : Kept s0 s) : Kept s0 (State.enterHeld s) := by
  unfold State.enterHeld
  with_reducible repeat' first
  | assumption
  | (intro)
  | apply State_setMode
  | apply State_desync
  | apply State_setFld
  | apply State_applyInject
  | apply State_onCls
  | apply State_sendHolds
  | apply State_grateUpdate
  | apply State_classStates
  | apply foldl

theorem State_holdDue {s0} {s : State} (hk : Kept s0 s) : Kept s0 (State.holdDue s) := by
  unfold State.holdDue
  with_reducible repeat' first
  | assumption
  | apply ite
  | apply State_enterHeld

theorem State_demote {s0} {s : State} (path : Nat) (epoch : Nat) (hk : Kept s0 s) : Kept s0 (State.demote s path epoch) := by
  unfold State.demote
  with_reducible repeat' first
  | assumption
  | apply ite
  | apply State_demoteAs

theorem State_rivalEpoch {s0} {s : State} (path : Nat) (station : Nat) (e : Nat) (hk : Kept s0 s) : Kept s0 (State.rivalEpoch s path station e) := by
  unfold State.rivalEpoch
  with_reducible repeat' first
  | assumption
  | apply ite
  | apply State_swapSeen
  | apply State_seeEpoch
  | apply State_demote

theorem State_stationEpoch {s0} {s : State} (path : Nat) (station : Nat) (e : Nat) (hk : Kept s0 s) : Kept s0 (State.stationEpoch s path station e) := by
  unfold State.stationEpoch
  with_reducible repeat' first
  | assumption
  | (intro)
  | apply ite
  | apply State_demote
  | apply State_swapSeen
  | apply State_claim
  | apply State_seeEpoch
  | apply State_sendHolds
  | apply State_onStation
  | apply State_raise

theorem State_chmRaise {s0} {s : State} (n : Nat) (i : Nat) (f : Fld) (hk : Kept s0 s) : Kept s0 (State.chmRaise s n i f) := by
  unfold State.chmRaise
  with_reducible repeat' first
  | assumption
  | apply State_raise
  | apply State_capture

theorem State_segBad {s0} {s : State} (n : Nat) (hk : Kept s0 s) : Kept s0 (State.segBad s n) := by
  unfold State.segBad
  with_reducible repeat' first
  | assumption
  | apply State_chmRaise
  | apply State_onStation

theorem State_segLayout {s0} {s : State} (n : Nat) (hk : Kept s0 s) : Kept s0 (State.segLayout s n) := by
  unfold State.segLayout
  with_reducible repeat' first
  | assumption
  | apply State_chmRaise
  | apply State_onStation

theorem State_fillSegment {s0} {s : State} (n : Nat) (g : Segment) (hk : Kept s0 s) : Kept s0 (State.fillSegment s n g) := by
  unfold State.fillSegment
  with_reducible repeat' first
  | assumption
  | (intro)
  | apply ite
  | apply State_fillBuf
  | refine snd (by assumption) ?_
  | refine snd2 (by assumption) ?_
  | refine fst (by assumption) ?_
  | refine KeptOpt.get (by assumption) ?_
  | refine KeptO3 (by assumption) ?_
  | fail_if_no_progress refine upd ?_ ?_; rotate_left; exact rfl
  | split

theorem State_assemble {s0} {s : State} (d : StationDecl) (at_ : Nat) (g : Segment) (hk : Kept s0 s) : Kept s0 (State.assemble s d at_ g) := by
  unfold State.assemble
  with_reducible repeat' first
  | assumption
  | apply ite
  | apply State_fillSegment
  | apply State_segBad
  | apply State_setStation

theorem State_evqPut {s0} {s : State} (station : Nat) (word : Nat) (source : Nat) (time : Nat) (value : W36) (hk : Kept s0 s) : Kept s0 (State.evqPut s station word source time value) := by
  unfold State.evqPut
  with_reducible repeat' first
  | assumption
  | apply State_countWrap
  | apply State_blockWrites

theorem State_queueEvents {s0} {s : State} (n : Nat) (source : Nat) (recs : List (Nat × Nat × W36)) (hk : Kept s0 s) : Kept s0 (State.queueEvents s n source recs).2 := by
  unfold State.queueEvents
  with_reducible repeat' first
  | assumption
  | (intro)
  | apply ite
  | apply State_evqPut
  | apply State_chmRaise
  | apply foldl
  | apply foldl1
  | apply foldl2
  | split

theorem State_unbind {s0} {s : State} (i : Nat) (hk : Kept s0 s) : Kept s0 (State.unbind s i) := by
  unfold State.unbind
  with_reducible repeat' first
  | assumption
  | (intro)
  | apply ite
  | apply State_onStation
  | refine snd (by assumption) ?_
  | refine snd2 (by assumption) ?_
  | refine fst (by assumption) ?_
  | refine KeptOpt.get (by assumption) ?_
  | refine KeptO3 (by assumption) ?_
  | fail_if_no_progress refine upd ?_ ?_; rotate_left; exact rfl
  | split

theorem State_closeSessionAt {s0} {s : State} (i : Nat) (hk : Kept s0 s) : Kept s0 (State.closeSessionAt s i) := by
  unfold State.closeSessionAt
  with_reducible repeat' first
  | assumption
  | apply ite
  | apply State_unbind
  | apply State_sendDtls
  | apply State_setSession

theorem State_stateWord {s0} {s : State} (d : StationDecl) (changed : Bool) (hk : Kept s0 s) : Kept s0 (State.stateWord s d changed) := by
  unfold State.stateWord
  with_reducible repeat' first
  | assumption
  | apply ite
  | apply State_blockWrite

theorem State_refreshDropped {s0} {s : State} (hk : Kept s0 s) : Kept s0 (State.refreshDropped s) := by
  unfold State.refreshDropped
  with_reducible repeat' first
  | assumption
  | apply State_setFld

theorem State_commandState {s0} {s : State} (d : StationDecl) (v : Nat) (due : Nat) (hk : Kept s0 s) : Kept s0 (State.commandState s d v due) := by
  unfold State.commandState
  with_reducible repeat' first
  | assumption
  | (intro)
  | apply ite
  | apply State_refreshDropped
  | apply State_onStation

theorem State_setImageState {s0} {s : State} (d : StationDecl) (v : Nat) (hk : Kept s0 s) : Kept s0 (State.setImageState s d v) := by
  unfold State.setImageState
  with_reducible repeat' first
  | assumption
  | apply State_refreshDropped
  | apply State_stateWord
  | apply State_onStation

theorem State_ringEntry {s0} {s : State} (d : StationDecl) (kind : Nat) (hk : Kept s0 s) : Kept s0 (State.ringEntry s d kind) := by
  unfold State.ringEntry
  with_reducible repeat' first
  | assumption
  | apply ite
  | apply State_onStation
  | apply State_onCls
  | apply State_ringPut

theorem State_latchClass {s0} {s : State} (k : Nat) (bound : Nat) (hk : Kept s0 s) : Kept s0 (State.latchClass s k bound) := by
  unfold State.latchClass
  with_reducible repeat' first
  | assumption
  | (intro)
  | apply ite
  | apply State_fillBuf
  | apply State_onStation
  | apply foldl
  | apply foldl1
  | apply foldl2
  | refine snd (by assumption) ?_
  | refine snd2 (by assumption) ?_
  | refine fst (by assumption) ?_
  | refine KeptOpt.get (by assumption) ?_
  | refine KeptO3 (by assumption) ?_
  | fail_if_no_progress refine upd ?_ ?_; rotate_left; exact rfl
  | split
  | dsimp only

theorem State_writeInputs {s0} {s : State} (d : StationDecl) (ws : List W36) (hk : Kept s0 s) : Kept s0 (State.writeInputs s d ws) := by
  unfold State.writeInputs
  with_reducible repeat' first
  | assumption
  | (intro)
  | apply ite
  | apply State_flueIntake
  | apply State_writeWord
  | apply foldl

theorem State_applyImage {s0} {s : State} (d : StationDecl) (im : Image) (hk : Kept s0 s) : Kept s0 (State.applyImage s d im) := by
  unfold State.applyImage
  with_reducible repeat' first
  | assumption
  | apply ite
  | apply State_writeInputs
  | apply State_onStation
  | apply State_onCls
  | apply State_sendAck
  | apply State_hobQueue
  | apply State_ringEntry
  | apply State_setImageState

theorem State_applyLegacy {s0} {s : State} (d : StationDecl) (hk : Kept s0 s) : Kept s0 (State.applyLegacy s d) := by
  unfold State.applyLegacy
  with_reducible repeat' first
  | assumption
  | (intro)
  | apply ite
  | apply State_flueIntake
  | apply State_onStation
  | apply State_writeWord
  | apply foldl

theorem State_writeAged {s0} {s : State} (d : StationDecl) (b : Bool) (hk : Kept s0 s) : Kept s0 (State.writeAged s d b) := by
  unfold State.writeAged
  with_reducible repeat' first
  | assumption
  | (intro)
  | apply ite
  | apply State_flueIntake
  | apply State_onStation
  | apply State_writeWord
  | apply foldl

theorem State_substInputs {s0} {s : State} (d : StationDecl) (hk : Kept s0 s) : Kept s0 (State.substInputs s d) := by
  unfold State.substInputs
  with_reducible repeat' first
  | assumption
  | apply ite
  | apply State_flueIntake
  | apply State_applySubst

theorem State_dropStation {s0} {s : State} (d : StationDecl) (hk : Kept s0 s) : Kept s0 (State.dropStation s d) := by
  unfold State.dropStation
  with_reducible repeat' first
  | assumption
  | apply ite
  | apply State_substInputs
  | apply State_ringEntry
  | apply State_setImageState

theorem State_ageClass {s0} {s : State} (k : Nat) (bound : Nat) (hk : Kept s0 s) : Kept s0 (State.ageClass s k bound) := by
  unfold State.ageClass
  with_reducible repeat' first
  | assumption
  | (intro)
  | apply ite
  | apply State_onStation
  | apply foldl

theorem State_waitIntake {s0} {s : State} (d : StationDecl) (bound : Nat) (hk : Kept s0 s) : Kept s0 (State.waitIntake s d bound) := by
  unfold State.waitIntake
  with_reducible repeat' first
  | assumption
  | apply ite
  | apply State_onStation
  | apply State_dropStation
  | split

theorem State_liveIntake {s0} {s : State} (d : StationDecl) (bound : Nat) (hk : Kept s0 s) : Kept s0 (State.liveIntake s d bound) := by
  unfold State.liveIntake
  with_reducible repeat' first
  | assumption
  | apply ite
  | apply State_dropStation
  | apply State_writeAged

theorem State_legacyIntake {s0} {s : State} (d : StationDecl) (bound : Nat) (hk : Kept s0 s) : Kept s0 (State.legacyIntake s d bound) := by
  unfold State.legacyIntake
  with_reducible repeat' first
  | assumption
  | apply ite
  | apply State_liveIntake
  | apply State_waitIntake
  | apply State_substInputs
  | apply State_applyLegacy
  | apply State_ringEntry
  | apply State_setImageState

theorem State_stationIntake {s0} {s : State} (d : StationDecl) (bound : Nat) (hk : Kept s0 s) : Kept s0 (State.stationIntake s d bound) := by
  unfold State.stationIntake
  with_reducible repeat' first
  | assumption
  | (intro)
  | apply ite
  | apply State_legacyIntake
  | apply State_liveIntake
  | apply State_waitIntake
  | apply State_substInputs
  | apply State_applyImage
  | apply State_ringEntry
  | apply State_stateWord
  | apply State_onStation
  | refine snd (by assumption) ?_
  | refine snd2 (by assumption) ?_
  | refine fst (by assumption) ?_
  | refine KeptOpt.get (by assumption) ?_
  | refine KeptO3 (by assumption) ?_
  | fail_if_no_progress refine upd ?_ ?_; rotate_left; exact rfl
  | split

theorem State_chmXRaise {s0} {s : State} (x : Nat) (i : Nat) (f : Fld) (hk : Kept s0 s) : Kept s0 (State.chmXRaise s x i f) := by
  unfold State.chmXRaise
  with_reducible repeat' first
  | assumption
  | apply State_raise
  | apply State_capture

theorem State_rxDrop {s0} {s : State} (x : Nat) (hk : Kept s0 s) : Kept s0 (State.rxDrop s x) := by
  unfold State.rxDrop
  with_reducible repeat' first
  | assumption
  | apply State_count

theorem State_refreshSessions {s0} {s : State} (hk : Kept s0 s) : Kept s0 (State.refreshSessions s) := by
  unfold State.refreshSessions
  with_reducible repeat' first
  | assumption
  | apply State_setFields

theorem State_receive {s0} {s : State} (d : Datagram) (k : State → State) (h_k : ∀ t, Kept s0 t → Kept s0 (k t)) (hk : Kept s0 s) : Kept s0 (State.receive s d k) := by
  unfold State.receive
  with_reducible repeat' first
  | assumption
  | apply ite
  | apply State_rxDrop
  | apply State_countWrap
  | apply h_k

theorem State_handshakeFail {s0} {s : State} (i : Nat) (h : Handshake) (hk : Kept s0 s) : Kept s0 (State.handshakeFail s i h) := by
  unfold State.handshakeFail
  with_reducible repeat' first
  | assumption
  | apply ite
  | apply State_refreshSessions
  | apply State_unbind
  | apply State_chmRaise
  | apply State_sendDtls
  | apply State_setSession

theorem State_noteHandshake {s0} {s : State} (i : Nat) (h : Handshake) (hk : Kept s0 s) : Kept s0 (State.noteHandshake s i h) := by
  unfold State.noteHandshake
  with_reducible repeat' first
  | assumption
  | apply ite
  | fail_if_no_progress refine upd ?_ ?_; rotate_left; exact rfl

theorem State_handshake {s0} {s : State} (i : Nat) (h : Handshake) (hk : Kept s0 s) : Kept s0 (State.handshake s i h) := by
  unfold State.handshake
  with_reducible repeat' first
  | assumption
  | apply ite
  | apply State_handshakeFail
  | apply State_refreshSessions
  | apply State_closeSessionAt
  | apply State_sendDtls
  | apply State_setSession

theorem of_execDtlsHandshake {s0} (i : Nat) (h : Handshake) {s : State} (hk : Kept s0 s) : KeptR s0 (execDtlsHandshake i h s) := by
  unfold execDtlsHandshake
  with_reducible repeat' first
  | assumption
  | (intro)
  | apply ite
  | apply State_handshake
  | apply State_noteHandshake
  | apply State_receive
  | apply KeptR.next

theorem of_execDtlsKeyUpdate {s0} (i : Nat) {s : State} (hk : Kept s0 s) : KeptR s0 (execDtlsKeyUpdate i s) := by
  unfold execDtlsKeyUpdate
  with_reducible repeat' first
  | assumption
  | apply ite
  | apply State_sendDtls
  | apply State_setSession
  | apply KeptR.next
  | apply KeptR.ite

theorem State_passFrame {s0} {s : State} (i : Nat) (f : List Byte) (hk : Kept s0 s) : Kept s0 (State.passFrame s i f) := by
  unfold State.passFrame
  with_reducible repeat' first
  | assumption
  | (intro)
  | apply ite
  | apply State_segBad
  | apply State_setSession
  | apply State_onStation
  | apply foldl
  | apply foldl1
  | apply foldl2
  | refine snd (by assumption) ?_
  | refine snd2 (by assumption) ?_
  | refine fst (by assumption) ?_
  | refine KeptOpt.get (by assumption) ?_
  | refine KeptO3 (by assumption) ?_
  | fail_if_no_progress refine upd ?_ ?_; rotate_left; exact rfl
  | split
  | dsimp only

theorem of_execDtlsRecord {s0} (i : Nat) (port : Fin 40) (h : UdpHead) (seq : Nat) (authentic : Bool) (frame : List Byte) {s : State} (hk : Kept s0 s) : KeptR s0 (execDtlsRecord i port h seq authentic frame s) := by
  unfold execDtlsRecord
  with_reducible repeat' first
  | assumption
  | (intro)
  | apply ite
  | apply State_passFrame
  | apply State_receive
  | apply State_setSession
  | apply KeptR.next

theorem of_execSessionIdleTimeout {s0} (i : Nat) {s : State} (hk : Kept s0 s) : KeptR s0 (execSessionIdleTimeout i s) := by
  unfold execSessionIdleTimeout
  with_reducible repeat' first
  | assumption
  | apply ite
  | apply State_refreshSessions
  | apply State_closeSessionAt
  | apply KeptR.next

theorem State_answerBind {s0} {s : State} (i : Nat) (n : Nat) (result : Nat) (d : Option StationDecl) (hk : Kept s0 s) : Kept s0 (State.answerBind s i n result d) := by
  unfold State.answerBind
  with_reducible repeat' first
  | assumption
  | apply State_sendOn
  | refine KeptOut.ofDone (by assumption) ?_
  | refine KeptOut.ofTrap (by assumption) ?_
  | refine KeptOut.ofStop (by assumption) ?_
  | split

theorem State_bindSession {s0} {s : State} (i : Nat) (n : Nat) (hk : Kept s0 s) : Kept s0 (State.bindSession s i n) := by
  unfold State.bindSession
  with_reducible repeat' first
  | assumption
  | apply ite
  | apply State_closeSessionAt
  | apply State_refreshSessions
  | apply State_onStation
  | apply State_setSession
  | split

theorem of_execDraughtBind {s0} (i : Nat) {s : State} (hk : Kept s0 s) : KeptR s0 (execDraughtBind i s) := by
  unfold execDraughtBind
  with_reducible repeat' first
  | assumption
  | apply ite
  | apply State_setSession
  | apply State_stationEpoch
  | apply State_answerBind
  | apply State_bindSession
  | apply State_sendHold
  | apply State_chmRaise
  | apply KeptR.next
  | apply KeptR.ite
  | split

theorem State_boundFrame {s0} {s : State} (i kind : Nat) (hk : Kept s0 s) : ∀ u_, s.boundFrame i kind = some u_ → Kept s0 u_.2.2 := by
  intro u h
  unfold State.boundFrame at h
  split at h
  · cases h
  · split at h
    · cases h; exact State_setSession _ _ hk
    · cases h

theorem State_intakeFrame {s0} {s : State} (d : StationDecl) (stamp : Nat) (f : List Byte) (hk : Kept s0 s) : Kept s0 (State.intakeFrame s d stamp f) := by
  unfold State.intakeFrame
  with_reducible repeat' first
  | assumption
  | apply ite
  | apply State_assemble
  | apply State_segLayout
  | apply State_segBad

theorem of_execDraughtIntake {s0} (i : Nat) {s : State} (hk : Kept s0 s) : KeptR s0 (execDraughtIntake i s) := by
  unfold execDraughtIntake
  with_reducible repeat' first
  | assumption
  | (intro)
  | apply ite
  | apply State_intakeFrame
  | apply State_boundFrame
  | apply State_stationEpoch
  | apply KeptR.next
  | apply KeptR.ite
  | refine snd (by assumption) ?_
  | refine snd2 (by assumption) ?_
  | refine fst (by assumption) ?_
  | refine KeptOpt.get (by assumption) ?_
  | refine KeptO3 (by assumption) ?_
  | split

theorem of_execDraughtAck {s0} (i : Nat) {s : State} (hk : Kept s0 s) : KeptR s0 (execDraughtAck i s) := by
  unfold execDraughtAck
  with_reducible repeat' first
  | assumption
  | (intro)
  | apply ite
  | apply State_boundFrame
  | apply State_stationEpoch
  | apply State_onStation
  | apply KeptR.next
  | apply KeptR.ite
  | refine KeptOpt.get (by assumption) ?_
  | refine KeptO3 (by assumption) ?_
  | apply KeptOpt.bind
  | apply KeptOpt.some
  | exact KeptOpt.none
  | apply KeptOpt.ite
  | split

theorem of_execDraughtEvent {s0} (i : Nat) {s : State} (hk : Kept s0 s) : KeptR s0 (execDraughtEvent i s) := by
  unfold execDraughtEvent
  with_reducible repeat' first
  | assumption
  | (intro)
  | apply ite
  | apply State_boundFrame
  | apply State_queueEvents
  | apply State_sendAck
  | apply State_segBad
  | apply KeptR.next
  | apply KeptR.ite
  | refine snd (by assumption) ?_
  | refine snd2 (by assumption) ?_
  | refine fst (by assumption) ?_
  | refine KeptOpt.get (by assumption) ?_
  | refine KeptO3 (by assumption) ?_
  | apply KeptOpt.bind
  | apply KeptOpt.some
  | exact KeptOpt.none
  | apply KeptOpt.ite
  | split

theorem of_execOutlayRepeat {s0} (n : Nat) {s : State} (hk : Kept s0 s) : KeptR s0 (execOutlayRepeat n s) := by
  unfold execOutlayRepeat
  with_reducible repeat' first
  | assumption
  | apply ite
  | apply State_sendOutlayFrames
  | apply State_sendBusFrames
  | apply KeptR.next
  | apply KeptR.ite
  | split

theorem of_execHoldRepeat {s0} (n : Nat) {s : State} (hk : Kept s0 s) : KeptR s0 (execHoldRepeat n s) := by
  unfold execHoldRepeat
  with_reducible repeat' first
  | assumption
  | apply State_sendHold
  | apply KeptR.next
  | split

theorem State_stationView {s0} {s : State} (n : Nat) (hk : Kept s0 s) : Kept s0 (State.stationView s n) := by
  unfold State.stationView
  with_reducible repeat' first
  | assumption
  | apply ite
  | apply State_setFields

theorem of_execStnSelect {s0} (r : Requester) (n : BitVec 17) {s : State} (hk : Kept s0 s) : KeptR s0 (execStnSelect r n s) := by
  unfold execStnSelect
  with_reducible repeat' first
  | assumption
  | (intro)
  | apply State_writeAs
  | apply State_stationView
  | apply KeptR.next

theorem State_stnCommand {s0} {s : State} (r : Requester) (n : Nat) (op : Nat) (k : StationDecl → State → State) (hk : Kept s0 s) (h_k : ∀ z0 z1, Kept s0 z1 → Kept s0 (k z0 z1)) : Kept s0 (State.stnCommand s r n op k) := by
  unfold State.stnCommand
  with_reducible repeat' first
  | assumption
  | (intro)
  | apply h_k
  | apply State_writeAs
  | apply State_capture
  | split

theorem of_execStationDisable {s0} (r : Requester) (n : BitVec 17) {s : State} (hk : Kept s0 s) : KeptR s0 (execStationDisable r n s) := by
  unfold execStationDisable
  with_reducible repeat' first
  | assumption
  | (intro)
  | apply ite
  | apply State_stnCommand
  | apply State_commandState
  | apply KeptR.next
  | apply KeptR.ite
  | refine snd (by assumption) ?_
  | refine snd2 (by assumption) ?_
  | refine fst (by assumption) ?_
  | refine KeptOpt.get (by assumption) ?_
  | refine KeptO3 (by assumption) ?_
  | fail_if_no_progress refine upd ?_ ?_; rotate_left; exact rfl
  | split

theorem of_execStationEnable {s0} (r : Requester) (n : BitVec 17) {s : State} (hk : Kept s0 s) : KeptR s0 (execStationEnable r n s) := by
  unfold execStationEnable
  with_reducible repeat' first
  | assumption
  | (intro)
  | apply ite
  | apply State_stnCommand
  | apply State_commandState
  | apply State_onStation
  | apply KeptR.next

theorem of_execClearCounters {s0} (r : Requester) (n : BitVec 17) {s : State} (hk : Kept s0 s) : KeptR s0 (execClearCounters r n s) := by
  unfold execClearCounters
  with_reducible repeat' first
  | assumption
  | (intro)
  | apply State_stnCommand
  | apply State_onStation
  | apply KeptR.next

theorem of_execArpRequest {s0} (x : Fin 40) (vlan : Option (BitVec 12)) (target : IpTarget) {s : State} (hk : Kept s0 s) : KeptR s0 (execArpRequest x vlan target s) := by
  unfold execArpRequest
  with_reducible repeat' first
  | assumption
  | apply ite
  | apply State_rxDrop
  | apply State_sendEth
  | apply State_countWrap
  | apply KeptR.next

theorem State_setEthLink {s0} {s : State} (x : Nat) (up : Bool) (speed : Nat) (hk : Kept s0 s) : Kept s0 (State.setEthLink s x up speed) := by
  unfold State.setEthLink
  with_reducible repeat' first
  | assumption
  | apply ite
  | apply State_chmXRaise
  | apply State_setFields

theorem of_execEthLinkChange {s0} (x : Fin 40) (up : Bool) (speed : BitVec 2) {s : State} (hk : Kept s0 s) : KeptR s0 (execEthLinkChange x up speed s) := by
  unfold execEthLinkChange
  with_reducible repeat' first
  | assumption
  | apply ite
  | apply State_setEthLink
  | apply KeptR.next

theorem State_modeWritten {s0} {s : State} (before : State) (x : Nat) (hk : Kept s0 s) : Kept s0 (State.modeWritten s before x) := by
  unfold State.modeWritten
  with_reducible repeat' first
  | assumption
  | apply ite
  | apply State_setEthLink

theorem of_execEthFrameDiscard {s0} (x : Fin 40) (why : EthDiscard) {s : State} (hk : Kept s0 s) : KeptR s0 (execEthFrameDiscard x why s) := by
  unfold execEthFrameDiscard
  with_reducible repeat' first
  | assumption
  | apply ite
  | apply State_rxDrop
  | apply State_countWrap
  | apply State_chmXRaise
  | apply KeptR.next
  | apply KeptR.ite
  | split

theorem State_legacyOpenTcp {s0} {s : State} (d : StationDecl) (hk : Kept s0 s) : Kept s0 (State.legacyOpenTcp s d) := by
  unfold State.legacyOpenTcp
  with_reducible repeat' first
  | assumption
  | (intro)
  | apply ite
  | apply State_sendEth
  | apply State_onStation
  | refine snd (by assumption) ?_
  | refine snd2 (by assumption) ?_
  | refine fst (by assumption) ?_
  | refine KeptOpt.get (by assumption) ?_
  | refine KeptO3 (by assumption) ?_
  | fail_if_no_progress refine upd ?_ ?_; rotate_left; exact rfl
  | split

theorem State_legacyLost {s0} {s : State} (d : StationDecl) (hk : Kept s0 s) : Kept s0 (State.legacyLost s d) := by
  unfold State.legacyLost
  with_reducible repeat' first
  | assumption
  | apply State_refreshSessions
  | apply State_onStation

theorem State_legacyClose {s0} {s : State} (d : StationDecl) (hk : Kept s0 s) : Kept s0 (State.legacyClose s d) := by
  unfold State.legacyClose
  with_reducible repeat' first
  | assumption
  | apply ite
  | apply State_legacyLost
  | apply State_legacySend

theorem State_legacyPortLost {s0} {s : State} (x : Nat) (hk : Kept s0 s) : Kept s0 (State.legacyPortLost s x) := by
  unfold State.legacyPortLost
  with_reducible repeat' first
  | assumption
  | (intro)
  | apply ite
  | apply State_legacyLost
  | apply foldl

theorem of_execLegacyConnect {s0} (n : Nat) {s : State} (hk : Kept s0 s) : KeptR s0 (execLegacyConnect n s) := by
  unfold execLegacyConnect
  with_reducible repeat' first
  | assumption
  | (intro)
  | apply ite
  | apply State_legacyOpenTcp
  | apply KeptR.next
  | apply KeptR.ite
  | refine snd (by assumption) ?_
  | refine snd2 (by assumption) ?_
  | refine fst (by assumption) ?_
  | refine KeptOpt.get (by assumption) ?_
  | refine KeptO3 (by assumption) ?_
  | split

theorem of_execLegacyRetry {s0} (n : Nat) {s : State} (hk : Kept s0 s) : KeptR s0 (execLegacyRetry n s) := by
  unfold execLegacyRetry
  with_reducible repeat' first
  | assumption
  | (intro)
  | apply ite
  | apply State_legacyOpenTcp
  | apply KeptR.next
  | apply KeptR.ite
  | refine snd (by assumption) ?_
  | refine snd2 (by assumption) ?_
  | refine fst (by assumption) ?_
  | refine KeptOpt.get (by assumption) ?_
  | refine KeptO3 (by assumption) ?_
  | split

theorem of_execLegacyTlsHandshake {s0} (n : Nat) (tls13 : Bool) (o : TlsOutcome) {s : State} (hk : Kept s0 s) : KeptR s0 (execLegacyTlsHandshake n tls13 o s) := by
  unfold execLegacyTlsHandshake
  with_reducible repeat' first
  | assumption
  | (intro)
  | apply ite
  | apply State_legacyClose
  | apply State_refreshSessions
  | apply State_chmRaise
  | apply State_legacyStart
  | apply State_onStation
  | apply KeptR.next
  | apply KeptR.ite
  | refine snd (by assumption) ?_
  | refine snd2 (by assumption) ?_
  | refine fst (by assumption) ?_
  | refine KeptOpt.get (by assumption) ?_
  | refine KeptO3 (by assumption) ?_
  | split

theorem of_execLegacyConnectionLost {s0} (n : Nat) {s : State} (hk : Kept s0 s) : KeptR s0 (execLegacyConnectionLost n s) := by
  unfold execLegacyConnectionLost
  with_reducible repeat' first
  | assumption
  | apply ite
  | apply State_legacyLost
  | apply KeptR.next
  | apply KeptR.ite
  | split

theorem of_execLegacyT0Timeout {s0} (n : Nat) {s : State} (hk : Kept s0 s) : KeptR s0 (execLegacyT0Timeout n s) := by
  unfold execLegacyT0Timeout
  with_reducible repeat' first
  | assumption
  | (intro)
  | apply ite
  | apply State_legacyClose
  | apply KeptR.next
  | apply KeptR.ite
  | refine snd (by assumption) ?_
  | refine snd2 (by assumption) ?_
  | refine fst (by assumption) ?_
  | refine KeptOpt.get (by assumption) ?_
  | refine KeptO3 (by assumption) ?_
  | split

theorem of_execLegacyKeyRenewal {s0} (n : Nat) {s : State} (hk : Kept s0 s) : KeptR s0 (execLegacyKeyRenewal n s) := by
  unfold execLegacyKeyRenewal
  with_reducible repeat' first
  | assumption
  | (intro)
  | apply ite
  | apply State_legacyOpenTcp
  | apply State_refreshSessions
  | apply State_legacySend
  | apply State_onStation
  | apply KeptR.next
  | apply KeptR.ite
  | refine snd (by assumption) ?_
  | refine snd2 (by assumption) ?_
  | refine fst (by assumption) ?_
  | refine KeptOpt.get (by assumption) ?_
  | refine KeptO3 (by assumption) ?_
  | split

theorem State_takeObject {s0} {s : State} (d : StationDecl) (o : InfoObject) (hk : Kept s0 s) : Kept s0 (State.takeObject s d o) := by
  unfold State.takeObject
  with_reducible repeat' first
  | assumption
  | apply ite
  | apply State_segBad
  | apply State_onStation
  | apply State_queueEvents
  | refine snd (by assumption) ?_
  | refine snd2 (by assumption) ?_
  | refine fst (by assumption) ?_
  | split

theorem State_legacyHeard {s0} {s : State} (n : Nat) (hk : Kept s0 s) : Kept s0 (State.legacyHeard s n) := by
  unfold State.legacyHeard
  with_reducible repeat' first
  | assumption
  | apply State_onStation

theorem State_legacyAckDue {s0} {s : State} (d : StationDecl) (hk : Kept s0 s) : Kept s0 (State.legacyAckDue s d) := by
  unfold State.legacyAckDue
  with_reducible repeat' first
  | assumption
  | (intro)
  | apply ite
  | apply State_legacySend
  | apply State_onStation

theorem State_legacyAcked {s0} {s : State} (n : Nat) (recvSeq : Nat) (hk : Kept s0 s) : Kept s0 (State.legacyAcked s n recvSeq) := by
  unfold State.legacyAcked
  with_reducible repeat' first
  | assumption
  | (intro)
  | apply ite
  | apply State_legacyPump
  | apply State_onStation

theorem State_takeAsdu {s0} {s : State} (d : StationDecl) (octets : Nat) (typeId : Nat) (cause : Nat) (ca : Nat) (objects : List InfoObject) (hk : Kept s0 s) : Kept s0 (State.takeAsdu s d octets typeId cause ca objects) := by
  unfold State.takeAsdu
  with_reducible repeat' first
  | assumption
  | (intro)
  | apply ite
  | apply State_takeObject
  | apply State_segBad
  | apply State_legacySendI
  | apply foldl
  | apply foldl1
  | apply foldl2
  | refine snd (by assumption) ?_
  | refine snd2 (by assumption) ?_
  | refine fst (by assumption) ?_
  | refine KeptOpt.get (by assumption) ?_
  | refine KeptO3 (by assumption) ?_
  | fail_if_no_progress refine upd ?_ ?_; rotate_left; exact rfl
  | split

theorem State_legacyStarted {s0} {s : State} (d : StationDecl) (hk : Kept s0 s) : Kept s0 (State.legacyStarted s d) := by
  unfold State.legacyStarted
  with_reducible repeat' first
  | assumption
  | (intro)
  | apply ite
  | apply State_legacyInterrogate
  | apply State_legacySendI
  | apply State_onStation

theorem State_takeApdu {s0} {s : State} (d : StationDecl) (apdu : Apdu) (hk : Kept s0 s) : Kept s0 (State.takeApdu s d apdu) := by
  unfold State.takeApdu
  with_reducible repeat' first
  | assumption
  | (intro)
  | apply ite
  | apply State_legacyStarted
  | apply State_takeAsdu
  | apply State_legacyAcked
  | apply State_legacyAckDue
  | apply State_legacyClose
  | apply State_legacySend
  | apply State_onStation
  | refine snd (by assumption) ?_
  | refine snd2 (by assumption) ?_
  | refine fst (by assumption) ?_
  | refine KeptOpt.get (by assumption) ?_
  | refine KeptO3 (by assumption) ?_
  | fail_if_no_progress refine upd ?_ ?_; rotate_left; exact rfl
  | split

theorem of_execLegacyApdu {s0} (n : Nat) (apdu : Apdu) {s : State} (hk : Kept s0 s) : KeptR s0 (execLegacyApdu n apdu s) := by
  unfold execLegacyApdu
  with_reducible repeat' first
  | assumption
  | (intro)
  | apply ite
  | apply State_takeApdu
  | apply State_legacyHeard
  | apply State_countWrap
  | apply KeptR.next
  | apply KeptR.ite
  | refine snd (by assumption) ?_
  | refine snd2 (by assumption) ?_
  | refine fst (by assumption) ?_
  | refine KeptOpt.get (by assumption) ?_
  | refine KeptO3 (by assumption) ?_
  | split

theorem of_execLegacyActcon {s0} (n : Nat) (ioa : Nat) (positive : Bool) {s : State} (hk : Kept s0 s) : KeptR s0 (execLegacyActcon n ioa positive s) := by
  unfold execLegacyActcon
  with_reducible repeat' first
  | assumption
  | apply ite
  | apply State_legacyHeard
  | apply State_onStation
  | apply State_chmRaise
  | apply KeptR.next
  | apply KeptR.ite
  | split
  | dsimp only

theorem of_execLegacyActterm {s0} (n : Nat) {s : State} (hk : Kept s0 s) : KeptR s0 (execLegacyActterm n s) := by
  unfold execLegacyActterm
  with_reducible repeat' first
  | assumption
  | apply ite
  | apply State_onStation
  | apply State_legacyHeard
  | apply KeptR.next
  | apply KeptR.ite
  | split

theorem of_execLegacyTestFrame {s0} (n : Nat) {s : State} (hk : Kept s0 s) : KeptR s0 (execLegacyTestFrame n s) := by
  unfold execLegacyTestFrame
  with_reducible repeat' first
  | assumption
  | (intro)
  | apply ite
  | apply State_legacySend
  | apply State_onStation
  | apply KeptR.next
  | apply KeptR.ite
  | refine snd (by assumption) ?_
  | refine snd2 (by assumption) ?_
  | refine fst (by assumption) ?_
  | refine KeptOpt.get (by assumption) ?_
  | refine KeptO3 (by assumption) ?_
  | split

theorem of_execLegacyT1Timeout {s0} (n : Nat) {s : State} (hk : Kept s0 s) : KeptR s0 (execLegacyT1Timeout n s) := by
  unfold execLegacyT1Timeout
  with_reducible repeat' first
  | assumption
  | (intro)
  | apply ite
  | apply State_legacyClose
  | apply KeptR.next
  | apply KeptR.ite
  | refine snd (by assumption) ?_
  | refine snd2 (by assumption) ?_
  | refine fst (by assumption) ?_
  | refine KeptOpt.get (by assumption) ?_
  | refine KeptO3 (by assumption) ?_
  | split

theorem of_execLegacyT2Timeout {s0} (n : Nat) {s : State} (hk : Kept s0 s) : KeptR s0 (execLegacyT2Timeout n s) := by
  unfold execLegacyT2Timeout
  with_reducible repeat' first
  | assumption
  | (intro)
  | apply ite
  | apply State_legacySend
  | apply State_onStation
  | apply KeptR.next
  | apply KeptR.ite
  | refine snd (by assumption) ?_
  | refine snd2 (by assumption) ?_
  | refine fst (by assumption) ?_
  | refine KeptOpt.get (by assumption) ?_
  | refine KeptO3 (by assumption) ?_
  | split

theorem State_interrogateAgain {s0} {s : State} (n : Nat) (hk : Kept s0 s) : Kept s0 (State.interrogateAgain s n) := by
  unfold State.interrogateAgain
  with_reducible repeat' first
  | assumption
  | apply ite
  | apply State_legacySendI

theorem of_execLegacyInterrogationTimer {s0} (n : Nat) {s : State} (hk : Kept s0 s) : KeptR s0 (execLegacyInterrogationTimer n s) := by
  unfold execLegacyInterrogationTimer
  with_reducible repeat' first
  | assumption
  | apply ite
  | apply State_interrogateAgain
  | apply KeptR.next
  | apply KeptR.ite
  | split

theorem of_execLegacyClockSyncTimer {s0} (n : Nat) {s : State} (hk : Kept s0 s) : KeptR s0 (execLegacyClockSyncTimer n s) := by
  unfold execLegacyClockSyncTimer
  with_reducible repeat' first
  | assumption
  | apply ite
  | apply State_legacySendI
  | apply KeptR.next
  | apply KeptR.ite
  | split

theorem of_execLegacyNegHoldoffEnd {s0} (n : Nat) (ioa : Nat) {s : State} (hk : Kept s0 s) : KeptR s0 (execLegacyNegHoldoffEnd n ioa s) := by
  unfold execLegacyNegHoldoffEnd
  with_reducible repeat' first
  | assumption
  | apply State_onStation
  | apply KeptR.next

theorem of_execInterrogateNow {s0} (r : Requester) (n : BitVec 17) {s : State} (hk : Kept s0 s) : KeptR s0 (execInterrogateNow r n s) := by
  unfold execInterrogateNow
  with_reducible repeat' first
  | assumption
  | (intro)
  | apply ite
  | apply State_stnCommand
  | apply State_interrogateAgain
  | apply KeptR.next

theorem of_execCloseSession {s0} (r : Requester) (n : BitVec 17) {s : State} (hk : Kept s0 s) : KeptR s0 (execCloseSession r n s) := by
  unfold execCloseSession
  with_reducible repeat' first
  | assumption
  | (intro)
  | apply ite
  | apply State_legacyClose
  | apply State_stnCommand
  | apply State_refreshSessions
  | apply State_closeSessionAt
  | apply KeptR.next
  | apply KeptR.ite
  | apply foldl
  | apply foldl1
  | apply foldl2
  | refine snd (by assumption) ?_
  | refine snd2 (by assumption) ?_
  | refine fst (by assumption) ?_
  | refine KeptOpt.get (by assumption) ?_
  | refine KeptO3 (by assumption) ?_
  | fail_if_no_progress refine upd ?_ ?_; rotate_left; exact rfl
  | split

theorem State_closeSessions {s0} {s : State} (hk : Kept s0 s) : Kept s0 (State.closeSessions s) := by
  unfold State.closeSessions
  with_reducible repeat' first
  | assumption
  | (intro)
  | apply ite
  | apply State_refreshSessions
  | apply State_closeSessionAt
  | apply State_legacySend
  | apply State_onStation
  | apply foldl

theorem State_douse {s0} {s : State} (hk : Kept s0 s) : Kept s0 (State.douse s) := by
  unfold State.douse
  with_reducible repeat' first
  | assumption
  | apply ite
  | apply State_setOutstanding
  | apply State_sendHeartbeat
  | apply State_discardHeld
  | apply State_setRoleState
  | apply State_classStates
  | apply State_abortCycle
  | apply State_hobAllOff
  | apply State_grateUpdate
  | apply State_setMode
  | apply State_setFld
  | apply foldl
  | apply foldl1
  | apply foldl2
  | fail_if_no_progress refine upd ?_ ?_; rotate_left; exact rfl

theorem State_checkService {s0} {s : State} (hk : Kept s0 s) : Kept s0 (State.checkService s) := by
  unfold State.checkService
  with_reducible repeat' first
  | assumption
  | apply ite
  | apply State_douse

theorem State_requestHandover {s0} {s : State} (hk : Kept s0 s) : Kept s0 (State.requestHandover s) := by
  unfold State.requestHandover
  with_reducible repeat' first
  | assumption
  | apply ite
  | apply State_erairSend

theorem State_refreshHalted {s0} {s : State} (hk : Kept s0 s) : Kept s0 (State.refreshHalted s) := by
  unfold State.refreshHalted
  with_reducible repeat' first
  | assumption
  | apply State_setBit

theorem State_sandboxLost {s0} {s : State} (hk : Kept s0 s) : Kept s0 (State.sandboxLost s) := by
  unfold State.sandboxLost
  with_reducible repeat' first
  | assumption
  | apply ite
  | apply State_setEngState
  | apply State_refreshHalted
  | apply State_idleEngine
  | apply State_raise
  | apply State_setFld
  | fail_if_no_progress refine upd ?_ ?_; rotate_left; exact rfl
  | split

theorem State_sandboxOut {s0} {s : State} (n : Nat) (hk : Kept s0 s) : Kept s0 (State.sandboxOut s n) := by
  unfold State.sandboxOut
  with_reducible repeat' first
  | assumption
  | apply ite
  | apply State_sandboxLost
  | split

theorem State_sweepAbandon {s0} {s : State} (e : Nat) (hk : Kept s0 s) : Kept s0 (State.sweepAbandon s e) := by
  unfold State.sweepAbandon
  with_reducible repeat' first
  | assumption
  | apply ite
  | apply State_raise
  | apply State_setFields
  | fail_if_no_progress refine upd ?_ ?_; rotate_left; exact rfl

theorem State_loseHosted {s0} {s : State} (e : Nat) (hk : Kept s0 s) : Kept s0 (State.loseHosted s e) := by
  unfold State.loseHosted
  with_reducible repeat' first
  | assumption
  | (intro)
  | apply State_loseLogical
  | apply foldl

theorem State_engineOut {s0} {s : State} (e : Nat) (v : Nat) (hk : Kept s0 s) : Kept s0 (State.engineOut s e v) := by
  unfold State.engineOut
  with_reducible repeat' first
  | assumption
  | (intro)
  | apply ite
  | apply State_flushStores
  | apply State_idleEngine
  | apply State_setFold
  | apply State_setEngState
  | apply State_setLink
  | apply State_reset
  | apply foldl
  | apply foldl1
  | apply foldl2
  | fail_if_no_progress refine upd ?_ ?_; rotate_left; exact rfl

theorem State_rehost {s0} {s : State} (l : Nat) (hk : Kept s0 s) : Kept s0 (State.rehost s l) := by
  unfold State.rehost
  with_reducible repeat' first
  | assumption
  | apply ite
  | apply State_fold
  | split

theorem State_takeSpare {s0} {s : State} (n : Nat) (l : Nat) (hk : Kept s0 s) : Kept s0 (State.takeSpare s n l) := by
  unfold State.takeSpare
  with_reducible repeat' first
  | assumption
  | apply ite
  | apply State_startSpare
  | apply State_sweepAbandon
  | split

theorem State_failEngine {s0} {s : State} (e : Nat) (credits : Fin 35) (hk : Kept s0 s) : Kept s0 (State.failEngine s e credits) := by
  unfold State.failEngine
  with_reducible repeat' first
  | assumption
  | apply ite
  | apply State_takeSpare
  | apply State_rehost
  | apply State_engineOut
  | apply State_loseHosted
  | apply State_sweepAbandon
  | apply State_sandboxOut
  | apply State_refreshHalted
  | apply State_checkService
  | apply State_raise
  | apply State_setFld
  | apply foldl

theorem State_mapOutCluster {s0} {s : State} (n : Nat) (hk : Kept s0 s) : Kept s0 (State.mapOutCluster s n) := by
  unfold State.mapOutCluster
  with_reducible repeat' first
  | assumption
  | (intro)
  | apply ite
  | apply State_loseHosted
  | apply State_sandboxOut
  | apply State_engineOut
  | apply State_sweepAbandon
  | apply State_checkService
  | apply State_refreshHalted
  | apply State_rehost
  | apply foldl

theorem of_execEngineFailure {s0} (e : Fin 144) (credits : Fin 35) {s : State} (hk : Kept s0 s) : KeptR s0 (execEngineFailure e credits s) := by
  unfold execEngineFailure
  with_reducible repeat' first
  | assumption
  | apply ite
  | apply State_failEngine
  | apply KeptR.next

theorem of_execFbxEngineMapout {s0} (r : Requester) (e : Fin 144) (v : W32) (credits : Fin 35) {s : State} (hk : Kept s0 s) : KeptR s0 (execFbxEngineMapout r e v credits s) := by
  unfold execFbxEngineMapout
  with_reducible repeat' first
  | assumption
  | (intro)
  | apply ite
  | apply State_failEngine
  | apply State_writeAs
  | apply KeptR.next

theorem of_execSpareLoadDone {s0} (e : Fin 144) {s : State} (hk : Kept s0 s) : KeptR s0 (execSpareLoadDone e s) := by
  unfold execSpareLoadDone
  with_reducible repeat' first
  | assumption
  | apply State_spareLoaded
  | apply KeptR.next

theorem of_execFbxClusterMapout {s0} (r : Requester) (n : Fin 16) (v : W32) {s : State} (hk : Kept s0 s) : KeptR s0 (execFbxClusterMapout r n v s) := by
  unfold execFbxClusterMapout
  with_reducible repeat' first
  | assumption
  | (intro)
  | apply ite
  | apply State_writeAs
  | apply State_mapOutCluster
  | apply KeptR.next

theorem of_execClusterDomainFault {s0} (n : Fin 16) {s : State} (hk : Kept s0 s) : KeptR s0 (execClusterDomainFault n s) := by
  unfold execClusterDomainFault
  with_reducible repeat' first
  | assumption
  | apply State_mapOutCluster
  | apply KeptR.next

theorem State_setChState {s0} {s : State} (ch : Nat) (v : Nat) (hk : Kept s0 s) : Kept s0 (State.setChState s ch v) := by
  unfold State.setChState
  with_reducible repeat' first
  | assumption
  | apply State_setFld

theorem State_mapOutChannels {s0} {s : State} (bits : Nat) (hk : Kept s0 s) : Kept s0 (State.mapOutChannels s bits) := by
  unfold State.mapOutChannels
  with_reducible repeat' first
  | assumption
  | apply ite
  | apply State_setChState
  | apply State_capture

theorem State_returnChannels {s0} {s : State} (bits : Nat) (hk : Kept s0 s) : Kept s0 (State.returnChannels s bits) := by
  unfold State.returnChannels
  with_reducible repeat' first
  | assumption
  | (intro)
  | apply ite
  | apply State_setChState
  | apply foldl

theorem of_execDrmMapout {s0} (r : Requester) (v : W32) {s : State} (hk : Kept s0 s) : KeptR s0 (execDrmMapout r v s) := by
  unfold execDrmMapout
  with_reducible repeat' first
  | assumption
  | (intro)
  | apply State_writeAs
  | apply State_mapOutChannels
  | apply KeptR.next

theorem of_execDrmReturn {s0} (r : Requester) (v : W32) {s : State} (hk : Kept s0 s) : KeptR s0 (execDrmReturn r v s) := by
  unfold execDrmReturn
  with_reducible repeat' first
  | assumption
  | (intro)
  | apply State_writeAs
  | apply State_returnChannels
  | apply KeptR.next

theorem of_execResilverDone {s0} (ch : Fin 2) {s : State} (hk : Kept s0 s) : KeptR s0 (execResilverDone ch s) := by
  unfold execResilverDone
  with_reducible repeat' first
  | assumption
  | apply ite
  | apply State_setChState
  | apply KeptR.next
  | apply KeptR.ite

theorem of_execDramChannelFault {s0} (ch : Fin 2) {s : State} (hk : Kept s0 s) : KeptR s0 (execDramChannelFault ch s) := by
  unfold execDramChannelFault
  with_reducible repeat' first
  | assumption
  | apply ite
  | apply State_douse
  | apply State_requestHandover
  | apply KeptR.next
  | apply KeptR.ite

theorem State_chmMapOut {s0} {s : State} (x : Nat) (hk : Kept s0 s) : Kept s0 (State.chmMapOut s x) := by
  unfold State.chmMapOut
  with_reducible repeat' first
  | assumption
  | apply ite
  | apply State_legacyPortLost
  | apply State_chmXRaise
  | apply State_setFields
  | apply State_setFld

theorem of_execChmPortMapout {s0} (r : Requester) (x : Fin 40) (v : W32) {s : State} (hk : Kept s0 s) : KeptR s0 (execChmPortMapout r x v s) := by
  unfold execChmPortMapout
  with_reducible repeat' first
  | assumption
  | (intro)
  | apply ite
  | apply State_writeAs
  | apply State_checkService
  | apply State_chmMapOut
  | apply KeptR.next

theorem State_blwLedger {s0} {s : State} (kind : Nat) (block : Nat) (f : Fld) (payload : List Nat) (hk : Kept s0 s) : Kept s0 (State.blwLedger s kind block f payload) := by
  unfold State.blwLedger
  with_reducible repeat' first
  | assumption
  | apply ite
  | apply State_record
  | apply State_capture
  | apply State_raise

theorem State_breakLedger {s0} {s : State} (l : Ledger) (hk : Kept s0 s) : Kept s0 (State.breakLedger s l) := by
  unfold State.breakLedger
  with_reducible repeat' first
  | assumption
  | (intro)
  | apply ite
  | apply State_blwLedger
  | apply State_chmRaise
  | apply State_hobRaise
  | apply State_record
  | apply State_raise
  | apply State_count
  | refine snd (by assumption) ?_
  | refine snd2 (by assumption) ?_
  | refine fst (by assumption) ?_
  | refine KeptOpt.get (by assumption) ?_
  | refine KeptO3 (by assumption) ?_
  | fail_if_no_progress refine upd ?_ ?_; rotate_left; exact rfl
  | split

theorem of_execLedgerBreak {s0} (l : Ledger) {s : State} (hk : Kept s0 s) : KeptR s0 (execLedgerBreak l s) := by
  unfold execLedgerBreak
  with_reducible repeat' first
  | assumption
  | apply State_breakLedger
  | apply KeptR.next

theorem State_guardExpires {s0} {s : State} (guard : Nat) (early : Bool) (hk : Kept s0 s) : Kept s0 (State.guardExpires s guard early) := by
  unfold State.guardExpires
  with_reducible repeat' first
  | assumption
  | (intro)
  | apply ite
  | apply State_setFields
  | apply State_grateUpdate
  | apply State_legacyStopAll
  | apply State_hobDemote
  | apply State_abortCycle
  | apply State_discardHeld
  | apply State_raise
  | apply State_raiseBit
  | apply State_capture
  | apply foldl
  | fail_if_no_progress refine upd ?_ ?_; rotate_left; exact rfl

theorem State_guardLate {s0} {s : State} (g : Sys2Proof.Guard) (hk : Kept s0 s) : Kept s0 (State.guardLate s g) := by
  unfold State.guardLate
  with_reducible repeat' first
  | assumption
  | (intro)
  | apply ite
  | apply State_guardExpires

theorem State_guardService {s0} {s : State} (k : Nat) (hk : Kept s0 s) : Kept s0 (State.guardService s k) := by
  unfold State.guardService
  with_reducible repeat' first
  | assumption
  | apply ite
  | apply State_guardExpires
  | fail_if_no_progress refine upd ?_ ?_; rotate_left; exact rfl
  | split

theorem State_migrateWord {s0} {s : State} (w : Nat) (v : W36) (hk : Kept s0 s) : Kept s0 (State.migrateWord s w v) := by
  unfold State.migrateWord
  with_reducible repeat' first
  | assumption
  | apply ite
  | apply State_initWord
  | apply State_repairWord
  | apply State_onHearth
  | apply State_stirGranule

theorem State_migrateEntry {s0} {s : State} (m : Migration) (hk : Kept s0 s) : Kept s0 (State.migrateEntry s m) := by
  unfold State.migrateEntry
  with_reducible repeat' first
  | assumption
  | (intro)
  | apply ite
  | apply State_migrateWord
  | apply State_deviceReads
  | apply State_count
  | apply foldl
  | apply foldl1
  | apply foldl2
  | refine snd (by assumption) ?_
  | refine snd2 (by assumption) ?_
  | refine fst (by assumption) ?_
  | refine KeptOpt.get (by assumption) ?_
  | refine KeptO3 (by assumption) ?_
  | split

theorem State_migrate {s0} {s : State} (p : Program) (k : Nat) (hk : Kept s0 s) : Kept s0 (State.migrate s p k) := by
  unfold State.migrate
  with_reducible repeat' first
  | assumption
  | (intro)
  | apply State_migrateEntry
  | apply foldl

theorem State_classValues {s0} {s : State} (k : Nat) (c : ClassCfg) (hk : Kept s0 s) : Kept s0 (State.classValues s k c) := by
  unfold State.classValues
  with_reducible repeat' first
  | assumption
  | apply State_setFields

theorem State_declarePort {s0} {s : State} (q : PortDecl) (hk : Kept s0 s) : Kept s0 (State.declarePort s q) := by
  unfold State.declarePort
  with_reducible repeat' first
  | assumption
  | apply State_setFields

theorem State_forgetStation {s0} {s : State} (n : Nat) (hk : Kept s0 s) : Kept s0 (State.forgetStation s n) := by
  unfold State.forgetStation
  with_reducible repeat' first
  | assumption
  | (intro)
  | apply ite
  | apply State_closeSessionAt
  | apply State_legacySend
  | apply State_setStation
  | refine snd (by assumption) ?_
  | refine snd2 (by assumption) ?_
  | refine fst (by assumption) ?_
  | refine KeptOpt.get (by assumption) ?_
  | refine KeptO3 (by assumption) ?_
  | fail_if_no_progress refine upd ?_ ?_; rotate_left; exact rfl
  | split

theorem State_changeStation {s0} {s : State} (old : StationDecl) (new : StationDecl) (hk : Kept s0 s) : Kept s0 (State.changeStation s old new) := by
  unfold State.changeStation
  with_reducible repeat' first
  | assumption
  | apply ite
  | apply State_forgetStation
  | apply State_onStation
  | apply State_sendBind

theorem State_switchStations {s0} {s : State} (old : Program) (new : Program) (k : Nat) (hk : Kept s0 s) : Kept s0 (State.switchStations s old new k) := by
  unfold State.switchStations
  with_reducible repeat' first
  | assumption
  | (intro)
  | apply State_forgetStation
  | apply State_changeStation
  | apply foldl
  | split

theorem State_switchPorts {s0} {s : State} (old : Program) (new : Program) (k : Nat) (hk : Kept s0 s) : Kept s0 (State.switchPorts s old new k) := by
  unfold State.switchPorts
  with_reducible repeat' first
  | assumption
  | (intro)
  | apply State_declarePort
  | apply State_grateOne
  | apply State_setChannel
  | apply State_declareChannel
  | apply foldl

theorem State_errOn {s0} {s : State} (k : Nat) (hk : Kept s0 s) : Kept s0 (State.errOn s k) := by
  unfold State.errOn
  with_reducible repeat' first
  | assumption
  | (intro)
  | apply ite
  | apply State_onCls
  | apply State_setFld

theorem State_switchBlocks {s0} {s : State} (old : Program) (new : Program) (k : Nat) (hk : Kept s0 s) : Kept s0 (State.switchBlocks s old new k) := by
  unfold State.switchBlocks
  with_reducible repeat' first
  | assumption
  | (intro)
  | apply ite
  | apply State_errOn
  | apply State_setInstOff
  | apply State_setBlockRt
  | apply foldl
  | apply foldl1
  | apply foldl2
  | refine snd (by assumption) ?_
  | refine snd2 (by assumption) ?_
  | refine fst (by assumption) ?_
  | refine KeptOpt.get (by assumption) ?_
  | refine KeptO3 (by assumption) ?_
  | fail_if_no_progress refine upd ?_ ?_; rotate_left; exact rfl
  | split

theorem State_switchMap {s0} {s : State} (new : Program) (k : Nat) (hk : Kept s0 s) : Kept s0 (State.switchMap s new k) := by
  unfold State.switchMap
  with_reducible repeat' first
  | assumption
  | (intro)
  | apply ite
  | apply State_onHearth
  | apply foldl

theorem State_endStall {s0} {s : State} (k : Nat) (hk : Kept s0 s) : Kept s0 (State.endStall s k) := by
  unfold State.endStall
  with_reducible repeat' first
  | assumption
  | apply State_classStates
  | apply State_setFld
  | apply State_onCls

theorem State_firstSwitch {s0} {s : State} (new : Program) (hk : Kept s0 s) : Kept s0 (State.firstSwitch s new) := by
  unfold State.firstSwitch
  with_reducible repeat' first
  | assumption
  | apply ite
  | apply State_setFields
  | fail_if_no_progress refine upd ?_ ?_; rotate_left; exact rfl

theorem State_editVersions {s0} {s : State} (hk : Kept s0 s) : Kept s0 (State.editVersions s) := by
  unfold State.editVersions
  with_reducible repeat' first
  | assumption
  | apply State_setFields

theorem State_lastSwitch {s0} {s : State} (new : Program) (k : Nat) (hk : Kept s0 s) : Kept s0 (State.lastSwitch s new k) := by
  unfold State.lastSwitch
  with_reducible repeat' first
  | assumption
  | apply ite
  | apply State_refreshRoles
  | apply State_editVersions
  | apply State_setFields
  | fail_if_no_progress refine upd ?_ ?_; rotate_left; exact rfl

theorem State_loadCode {s0} {s : State} (hk : Kept s0 s) : Kept s0 (State.loadCode s) := by
  unfold State.loadCode
  with_reducible repeat' first
  | assumption
  | (intro)
  | apply ite
  | apply State_setCore
  | apply foldl

theorem State_switchCode {s0} {s : State} (k : Nat) (hk : Kept s0 s) : Kept s0 (State.switchCode s k) := by
  unfold State.switchCode
  with_reducible repeat' first
  | assumption
  | (intro)
  | apply ite
  | apply State_setCore
  | apply foldl
  | apply foldl1
  | apply foldl2
  | refine snd (by assumption) ?_
  | refine snd2 (by assumption) ?_
  | refine fst (by assumption) ?_
  | refine KeptOpt.get (by assumption) ?_
  | refine KeptO3 (by assumption) ?_
  | fail_if_no_progress refine upd ?_ ?_; rotate_left; exact rfl
  | split

theorem State_switchClass {s0} {s : State} (k : Nat) (n : Nat) (hk : Kept s0 s) : Kept s0 (State.switchClass s k n) := by
  unfold State.switchClass
  with_reducible repeat' first
  | assumption
  | (intro)
  | apply ite
  | apply State_switchCode
  | apply State_lastSwitch
  | apply State_firstSwitch
  | apply State_endStall
  | apply State_switchMap
  | apply State_switchBlocks
  | apply State_switchPorts
  | apply State_switchStations
  | apply State_classValues
  | apply State_refreshDropped
  | apply State_onCls
  | apply State_setFields
  | apply State_setFldBit
  | refine snd (by assumption) ?_
  | refine snd2 (by assumption) ?_
  | refine fst (by assumption) ?_
  | refine KeptOpt.get (by assumption) ?_
  | refine KeptO3 (by assumption) ?_
  | fail_if_no_progress refine upd ?_ ?_; rotate_left; exact rfl
  | split

theorem State_switchEnd {s0} {s : State} (hk : Kept s0 s) : Kept s0 (State.switchEnd s) := by
  unfold State.switchEnd
  with_reducible repeat' first
  | assumption
  | apply ite
  | apply State_startCapture
  | apply State_dirCommit
  | apply State_raise
  | apply State_setFld
  | apply State_record
  | fail_if_no_progress refine upd ?_ ?_; rotate_left; exact rfl

theorem State_switchAll {s0} {s : State} (hk : Kept s0 s) : Kept s0 (State.switchAll s) := by
  unfold State.switchAll
  with_reducible repeat' first
  | assumption
  | (intro)
  | apply State_switchEnd
  | apply State_migrate
  | apply State_switchClass
  | apply foldl
  | split

theorem State_restartCounts {s0} {s : State} (hk : Kept s0 s) : Kept s0 (State.restartCounts s) := by
  unfold State.restartCounts
  with_reducible repeat' first
  | assumption
  | (intro)
  | apply State_setCycle
  | apply State_onCls
  | apply foldl

theorem State_loadMap {s0} {s : State} (p : Program) (hk : Kept s0 s) : Kept s0 (State.loadMap s p) := by
  unfold State.loadMap
  with_reducible repeat' first
  | assumption
  | (intro)
  | apply State_onHearth

theorem State_noteShort {s0} {s : State} (short : List Bool) (hk : Kept s0 s) : Kept s0 (State.noteShort s short) := by
  unfold State.noteShort
  with_reducible repeat' first
  | assumption
  | apply ite
  | apply State_setFields
  | apply State_raise

theorem State_loadProgram {s0} {s : State} (p : Program) (hk : Kept s0 s) : Kept s0 (State.loadProgram s p) := by
  unfold State.loadProgram
  with_reducible repeat' first
  | assumption
  | (intro)
  | apply ite
  | apply State_noteShort
  | apply State_loadMap
  | apply State_restartCounts
  | apply State_forgetStation
  | apply State_declarePort
  | apply State_classValues
  | apply State_refreshDropped
  | apply State_declareChannel
  | apply State_grateUpdate
  | apply State_setInstOff
  | apply State_refreshRoles
  | apply State_refold
  | apply State_setChannel
  | apply State_setStation
  | apply State_setFld
  | apply foldl
  | apply foldl1
  | apply foldl2
  | fail_if_no_progress refine upd ?_ ?_; rotate_left; exact rfl

theorem State_coldImage {s0} {s : State} (hk : Kept s0 s) : Kept s0 (State.coldImage s) := by
  unfold State.coldImage
  with_reducible repeat' first
  | assumption
  | (intro)
  | apply ite
  | apply State_setInject
  | apply State_freshPlanes
  | apply State_onHearth

theorem State_startKind {s0} {s : State} (kind : Nat) (hk : Kept s0 s) : Kept s0 (State.startKind s kind) := by
  unfold State.startKind
  with_reducible repeat' first
  | assumption
  | (intro)
  | apply ite
  | apply State_onCls
  | apply State_setFld
  | apply foldl

theorem State_activateFull {s0} {s : State} (p : Program) (hk : Kept s0 s) : Kept s0 (State.activateFull s p) := by
  unfold State.activateFull
  with_reducible repeat' first
  | assumption
  | (intro)
  | apply ite
  | apply State_setFields
  | apply State_startKind
  | apply State_coldImage
  | apply State_loadCode
  | apply State_loadProgram
  | apply State_onCls
  | apply State_setFld
  | apply State_switchEnd
  | apply State_editVersions
  | apply State_sendHolds
  | apply foldl
  | fail_if_no_progress refine upd ?_ ?_; rotate_left; exact rfl

theorem State_pwrRefuse {s0} {s : State} (domain : Nat) (code : Nat) (op : Nat) (r : Requester) (hk : Kept s0 s) : Kept s0 (State.pwrRefuse s domain code op r) := by
  unfold State.pwrRefuse
  with_reducible repeat' first
  | assumption
  | apply State_raise
  | apply State_capture

theorem State_erairDown {s0} {s : State} (hk : Kept s0 s) : Kept s0 (State.erairDown s) := by
  unfold State.erairDown
  with_reducible repeat' first
  | assumption
  | apply State_setFields
  | fail_if_no_progress refine upd ?_ ?_; rotate_left; exact rfl

theorem State_loseContents {s0} {s : State} (n : Nat) (hk : Kept s0 s) : Kept s0 (State.loseContents s n) := by
  unfold State.loseContents
  with_reducible repeat' first
  | assumption
  | (intro)
  | apply ite
  | apply State_erairDown
  | apply foldl
  | fail_if_no_progress refine upd ?_ ?_; rotate_left; exact rfl

theorem State_cutDomain {s0} {s : State} (n : Nat) (hk : Kept s0 s) : Kept s0 (State.cutDomain s n) := by
  unfold State.cutDomain
  with_reducible repeat' first
  | assumption
  | apply State_setFld
  | apply State_loseContents
  | fail_if_no_progress refine upd ?_ ?_; rotate_left; exact rfl

theorem State_engineOn {s0} {s : State} (e : Nat) (hk : Kept s0 s) : Kept s0 (State.engineOn s e) := by
  unfold State.engineOn
  with_reducible repeat' first
  | assumption
  | apply ite
  | apply State_setEngState
  | apply State_setCore
  | apply State_drawBit

theorem State_clusterOn {s0} {s : State} (n : Nat) (hk : Kept s0 s) : Kept s0 (State.clusterOn s n) := by
  unfold State.clusterOn
  with_reducible repeat' first
  | assumption
  | (intro)
  | apply ite
  | apply State_engineOn
  | apply State_takeSpare
  | apply foldl

theorem State_macsOut {s0} {s : State} (hk : Kept s0 s) : Kept s0 (State.macsOut s) := by
  unfold State.macsOut
  with_reducible repeat' first
  | assumption
  | (intro)
  | apply ite
  | apply State_setFld
  | apply foldl

theorem State_domainUp {s0} {s : State} (n : Nat) (hk : Kept s0 s) : Kept s0 (State.domainUp s n) := by
  unfold State.domainUp
  with_reducible repeat' first
  | assumption
  | apply ite
  | apply State_macsOut
  | apply State_clusterOn
  | apply State_hobStart
  | apply State_setFld

theorem State_pdDenied {s0} {s : State} (r : Requester) (n : Nat) (v : Nat) (hk : Kept s0 s) : Kept s0 (State.pdDenied s r n v) := by
  unfold State.pdDenied
  with_reducible repeat' first
  | assumption
  | apply State_raise
  | apply State_secCapture
  | apply State_pwrRefuse
  | apply State_record
  | apply State_count

theorem State_pdOn {s0} {s : State} (n : Nat) (hk : Kept s0 s) : Kept s0 (State.pdOn s n) := by
  unfold State.pdOn
  with_reducible repeat' first
  | assumption
  | (intro)
  | apply ite
  | apply State_clusterOn
  | apply State_setFld
  | refine snd (by assumption) ?_
  | refine snd2 (by assumption) ?_
  | refine fst (by assumption) ?_
  | refine KeptOpt.get (by assumption) ?_
  | refine KeptO3 (by assumption) ?_
  | fail_if_no_progress refine upd ?_ ?_; rotate_left; exact rfl
  | split

theorem State_pdOff {s0} {s : State} (n : Nat) (v : Nat) (hk : Kept s0 s) : Kept s0 (State.pdOff s n v) := by
  unfold State.pdOff
  with_reducible repeat' first
  | assumption
  | apply ite
  | apply State_setFld
  | apply State_cutDomain

theorem State_pdRequest {s0} {s : State} (r : Requester) (n : Nat) (v : Nat) (hk : Kept s0 s) : Kept s0 (State.pdRequest s r n v) := by
  unfold State.pdRequest
  with_reducible repeat' first
  | assumption
  | apply ite
  | apply State_pdOn
  | apply State_pwrRefuse
  | apply State_pdDenied
  | apply State_pdOff

theorem State_secOwner {s0} {s : State} (r : Requester) (n : Nat) (own : Bool) (hk : Kept s0 s) : Kept s0 (State.secOwner s r n own) := by
  unfold State.secOwner
  with_reducible repeat' first
  | assumption
  | apply ite
  | apply State_setBit
  | fail_if_no_progress refine upd ?_ ?_; rotate_left; exact rfl

theorem of_execPdRequest {s0} (r : Requester) (n : Fin 24) (v : W32) {s : State} (hk : Kept s0 s) : KeptR s0 (execPdRequest r n v s) := by
  unfold execPdRequest
  with_reducible repeat' first
  | assumption
  | (intro)
  | apply State_writeAs
  | apply State_secOwner
  | apply State_pdRequest
  | apply KeptR.next

theorem of_execSecOwnerWrite {s0} (r : Requester) (n : Fin 24) (own : Bool) {s : State} (hk : Kept s0 s) : KeptR s0 (execSecOwnerWrite r n own s) := by
  unfold execSecOwnerWrite
  with_reducible repeat' first
  | assumption
  | (intro)
  | apply State_writeAs
  | apply State_secOwner
  | apply KeptR.next

theorem State_pdSwitched {s0} {s : State} (n : Nat) (hk : Kept s0 s) : Kept s0 (State.pdSwitched s n) := by
  unfold State.pdSwitched
  with_reducible repeat' first
  | assumption
  | apply State_domainUp
  | apply State_setFld
  | apply State_cutDomain
  | split

theorem of_execPdSwitchDone {s0} (n : Fin 24) {s : State} (hk : Kept s0 s) : KeptR s0 (execPdSwitchDone n s) := by
  unfold execPdSwitchDone
  with_reducible repeat' first
  | assumption
  | apply ite
  | apply State_pdSwitched
  | apply KeptR.next

theorem State_settleBank {s0} {s : State} (b : Nat) (hk : Kept s0 s) : Kept s0 (State.settleBank s b) := by
  unfold State.settleBank
  with_reducible repeat' first
  | assumption
  | (intro)
  | apply ite
  | apply State_privDone
  | apply State_backErase
  | apply State_opDone
  | apply State_retainDone
  | apply State_ashEndFlush
  | refine snd (by assumption) ?_
  | refine snd2 (by assumption) ?_
  | refine fst (by assumption) ?_
  | refine KeptOpt.get (by assumption) ?_
  | refine KeptO3 (by assumption) ?_
  | fail_if_no_progress refine upd ?_ ?_; rotate_left; exact rfl
  | split

theorem State_settleOps {s0} {s : State} (hk : Kept s0 s) : Kept s0 (State.settleOps s) := by
  unfold State.settleOps
  with_reducible repeat' first
  | assumption
  | apply ite
  | apply State_settleBank
  | apply foldl

theorem State_resetState {s0} {s : State} (keep : Nat → Bool) (hk : Kept s0 s) : Kept s0 (s.resetState keep) :=
  ⟨hk.pending, hk.fuses.trans (Fuses.Later.refl _), hk.flash⟩

theorem State_resetUnit {s0} {s : State} (cause : Fld) (hk : Kept s0 s) : Kept s0 (State.resetUnit s cause) := by
  unfold State.resetUnit
  with_reducible repeat' first
  | assumption
  | apply State_setFields
  | apply State_resetState
  | apply State_settleOps

theorem of_execResetPin {s0} {s : State} (hk : Kept s0 s) : KeptR s0 (execResetPin s) := by
  unfold execResetPin
  with_reducible repeat' first
  | assumption
  | apply ite
  | apply State_resetUnit
  | apply KeptR.next
  | apply KeptR.ite
  | fail_if_no_progress refine upd ?_ ?_; rotate_left; exact rfl

theorem of_execClockLoss {s0} {s : State} (hk : Kept s0 s) : KeptR s0 (execClockLoss s) := by
  unfold execClockLoss
  with_reducible repeat' first
  | assumption
  | apply ite
  | apply State_setFld
  | apply State_resetState
  | apply State_settleOps
  | apply KeptR.next
  | apply KeptR.ite
  | fail_if_no_progress refine upd ?_ ?_; rotate_left; exact rfl

theorem of_execClockRestored {s0} {s : State} (hk : Kept s0 s) : KeptR s0 (execClockRestored s) := by
  unfold execClockRestored
  with_reducible repeat' first
  | assumption
  | apply ite
  | apply State_setFld
  | apply KeptR.next
  | apply KeptR.ite
  | fail_if_no_progress refine upd ?_ ?_; rotate_left; exact rfl

theorem of_execHardTimerExpiry {s0} {s : State} (hk : Kept s0 s) : KeptR s0 (execHardTimerExpiry s) := by
  unfold execHardTimerExpiry
  with_reducible repeat' first
  | assumption
  | apply ite
  | apply State_resetUnit
  | apply KeptR.next

theorem State_embRaise {s0} {s : State} (i : Nat) (f : Fld) (hk : Kept s0 s) : Kept s0 (State.embRaise s i f) := by
  unfold State.embRaise
  with_reducible repeat' first
  | assumption
  | apply State_raise
  | apply State_capture

theorem State_loseSupply {s0} {s : State} (hk : Kept s0 s) : Kept s0 (State.loseSupply s) := by
  unfold State.loseSupply
  with_reducible repeat' first
  | assumption
  | (intro)
  | apply ite
  | apply State_embRaise
  | apply State_resetState
  | apply State_setFld
  | apply State_reset
  | fail_if_no_progress refine upd ?_ ?_; rotate_left; exact rfl

theorem of_execBrownOut {s0} {s : State} (hk : Kept s0 s) : KeptR s0 (execBrownOut s) := by
  unfold execBrownOut
  with_reducible repeat' first
  | assumption
  | apply ite
  | apply State_loseSupply
  | apply KeptR.next

theorem of_execMainSupplyValid {s0} {s : State} (hk : Kept s0 s) : KeptR s0 (execMainSupplyValid s) := by
  unfold execMainSupplyValid
  with_reducible repeat' first
  | assumption
  | apply ite
  | apply State_setFld
  | apply KeptR.next
  | apply KeptR.ite
  | fail_if_no_progress refine upd ?_ ?_; rotate_left; exact rfl

theorem State_warmImage {s0} {s : State} (ws : List W36) (hk : Kept s0 s) : Kept s0 (State.warmImage s ws) := by
  unfold State.warmImage
  with_reducible repeat' first
  | assumption
  | (intro)
  | apply ite
  | apply State_coldImage
  | apply State_initWord
  | apply foldl

theorem State_startProgram {s0} {s : State} (hk : Kept s0 s) : KeptOpt s0 s.startProgram := by
  have begun (t : State) (k : Nat) (h : Kept s0 t) : Kept s0 (({ t with started := true }.startKind k).setFld Reg.pwrStatusLastRestart k) :=
    State_setFld _ _ (State_startKind _ (upd h rfl))
  have cold := begun _ 2 (State_coldImage hk)
  intro u h
  unfold State.startProgram at h
  split at h
  · cases h; exact cold
  · cases h; exact begun _ 1 (State_warmImage _ hk)
  · cases h
  · cases h; exact cold

theorem State_pwrCommand {s0} {s : State} (r : Requester) (op : Nat) (modes : List Nat) (k : State → State) (hk : Kept s0 s) (h_k : ∀ z0, Kept s0 z0 → Kept s0 (k z0)) : Kept s0 (State.pwrCommand s r op modes k) := by
  unfold State.pwrCommand
  with_reducible repeat' first
  | assumption
  | (intro)
  | apply ite
  | apply h_k
  | apply State_writeAs
  | apply State_pwrRefuse

theorem State_hold {s0} {s : State} (hk : Kept s0 s) : Kept s0 (State.hold s) := by
  unfold State.hold
  with_reducible repeat' first
  | assumption
  | apply ite
  | apply State_enterHeld
  | apply State_setFld

theorem of_execPwrHold {s0} (r : Requester) {s : State} (hk : Kept s0 s) : KeptR s0 (execPwrHold r s) := by
  unfold execPwrHold
  with_reducible repeat' first
  | assumption
  | (intro)
  | apply State_pwrCommand
  | apply State_hold
  | apply KeptR.next

theorem State_leaveHeld {s0} {s : State} (hk : Kept s0 s) : Kept s0 (State.leaveHeld s) := by
  unfold State.leaveHeld
  with_reducible repeat' first
  | assumption
  | apply ite
  | apply State_classStates
  | apply State_grateUpdate
  | apply State_setMode

theorem State_run {s0} {s : State} (r : Requester) (hk : Kept s0 s) : Kept s0 (State.run s r) := by
  unfold State.run
  with_reducible repeat' first
  | assumption
  | (intro)
  | apply ite
  | apply State_leaveHeld
  | apply State_startProgram
  | apply State_pwrRefuse
  | apply State_noteShort
  | apply State_raise
  | refine snd (by assumption) ?_
  | refine snd2 (by assumption) ?_
  | refine fst (by assumption) ?_
  | refine KeptOpt.get (by assumption) ?_
  | refine KeptO3 (by assumption) ?_
  | fail_if_no_progress refine upd ?_ ?_; rotate_left; exact rfl
  | split

theorem of_execPwrRun {s0} (r : Requester) {s : State} (hk : Kept s0 s) : KeptR s0 (execPwrRun r s) := by
  unfold execPwrRun
  with_reducible repeat' first
  | assumption
  | (intro)
  | apply State_pwrCommand
  | apply State_run
  | apply KeptR.next

theorem of_execPwrReset {s0} (r : Requester) {s : State} (hk : Kept s0 s) : KeptR s0 (execPwrReset r s) := by
  unfold execPwrReset
  with_reducible repeat' first
  | assumption
  | (intro)
  | apply State_pwrCommand
  | apply State_resetUnit
  | apply KeptR.next

theorem State_bank {s0} {s : State} (hk : Kept s0 s) : Kept s0 (State.bank s) := by
  unfold State.bank
  with_reducible repeat' first
  | assumption
  | (intro)
  | apply State_setMode
  | apply State_closeSessions
  | apply State_desync
  | apply State_grateUpdate
  | apply State_classStates
  | apply State_hobAllOff
  | apply State_setRoleState
  | apply State_abortCycle
  | apply State_cutDomain
  | apply State_setFields
  | apply foldl
  | fail_if_no_progress refine upd ?_ ?_; rotate_left; exact rfl

theorem of_execPwrBank {s0} (r : Requester) {s : State} (hk : Kept s0 s) : KeptR s0 (execPwrBank r s) := by
  unfold execPwrBank
  with_reducible repeat' first
  | assumption
  | (intro)
  | apply State_pwrCommand
  | apply State_bank
  | apply KeptR.next

theorem State_deepStage {s0} {s : State} (hk : Kept s0 s) : Kept s0 (State.deepStage s) := by
  unfold State.deepStage
  with_reducible repeat' first
  | assumption
  | (intro)
  | apply State_cutDomain
  | apply State_setFields
  | apply foldl

theorem of_execBankDeepStage {s0} {s : State} (hk : Kept s0 s) : KeptR s0 (execBankDeepStage s) := by
  unfold execBankDeepStage
  with_reducible repeat' first
  | assumption
  | apply ite
  | apply State_deepStage
  | apply KeptR.next

theorem State_restoreDomains {s0} {s : State} (hk : Kept s0 s) : Kept s0 (State.restoreDomains s) := by
  unfold State.restoreDomains
  with_reducible repeat' first
  | assumption
  | (intro)
  | apply ite
  | apply State_hobStart
  | apply State_mantelUp
  | apply State_setFld
  | apply foldl

theorem State_resume {s0} {s : State} (hk : Kept s0 s) : Kept s0 (State.resume s) := by
  unfold State.resume
  with_reducible repeat' first
  | assumption
  | apply State_setFields
  | apply State_setMode
  | apply State_raise
  | apply State_restoreDomains
  | fail_if_no_progress refine upd ?_ ?_; rotate_left; exact rfl

theorem State_wake {s0} {s : State} (source : Nat) (enabled : Bool) (hk : Kept s0 s) : Kept s0 (State.wake s source enabled) := by
  unfold State.wake
  with_reducible repeat' first
  | assumption
  | apply ite
  | apply State_setFldBit
  | apply State_setFld
  | apply State_resume
  | fail_if_no_progress refine upd ?_ ?_; rotate_left; exact rfl

theorem of_execPwrWake {s0} (r : Requester) {s : State} (hk : Kept s0 s) : KeptR s0 (execPwrWake r s) := by
  unfold execPwrWake
  with_reducible repeat' first
  | assumption
  | (intro)
  | apply ite
  | apply State_pwrCommand
  | apply State_wake
  | apply State_pwrRefuse
  | apply KeptR.next

theorem of_execHobGroupWake {s0} (g : Fin 24) {s : State} (hk : Kept s0 s) : KeptR s0 (execHobGroupWake g s) := by
  unfold execHobGroupWake
  with_reducible repeat' first
  | assumption
  | (intro)
  | apply ite
  | apply State_wake
  | apply State_resume
  | apply State_hobStartRestart
  | apply State_hobRaise
  | apply State_setFldBit
  | apply KeptR.next
  | apply KeptR.ite
  | apply foldl
  | apply foldl1
  | apply foldl2
  | fail_if_no_progress refine upd ?_ ?_; rotate_left; exact rfl

theorem of_execGrateInputChange {s0} (n : Fin 16) (on : Bool) {s : State} (hk : Kept s0 s) : KeptR s0 (execGrateInputChange n on s) := by
  unfold execGrateInputChange
  with_reducible repeat' first
  | assumption
  | apply ite
  | apply State_setFldBit
  | apply State_wake
  | apply KeptR.next
  | apply KeptR.ite

theorem State_rake {s0} {s : State} (off : Bool) (hk : Kept s0 s) : Kept s0 (State.rake s off) := by
  unfold State.rake
  with_reducible repeat' first
  | assumption
  | apply ite
  | apply State_rakeCheck
  | apply State_classStates
  | apply State_abortCycle
  | apply State_grateUpdate
  | apply State_setMode
  | apply State_setFld
  | apply foldl
  | apply foldl1
  | apply foldl2
  | fail_if_no_progress refine upd ?_ ?_; rotate_left; exact rfl

theorem of_execPwrRake {s0} (r : Requester) {s : State} (hk : Kept s0 s) : KeptR s0 (execPwrRake r s) := by
  unfold execPwrRake
  with_reducible repeat' first
  | assumption
  | (intro)
  | apply State_pwrCommand
  | apply State_rake
  | apply KeptR.next

theorem of_execPwrRakeOff {s0} (r : Requester) {s : State} (hk : Kept s0 s) : KeptR s0 (execPwrRakeOff r s) := by
  unfold execPwrRakeOff
  with_reducible repeat' first
  | assumption
  | (intro)
  | apply State_pwrCommand
  | apply State_rake
  | apply KeptR.next

theorem State_commitAll {s0} {s : State} (hk : Kept s0 s) : Kept s0 (State.commitAll s) := by
  unfold State.commitAll
  with_reducible repeat' first
  | assumption
  | (intro)
  | apply ite
  | apply State_privDone
  | apply State_ashEndFlush
  | apply foldl
  | fail_if_no_progress refine upd ?_ ?_; rotate_left; exact rfl

theorem State_rakeDone {s0} {s : State} (k : Raking) (f : SweepFind) (hk : Kept s0 s) : Kept s0 (State.rakeDone s k f) := by
  unfold State.rakeDone
  with_reducible repeat' first
  | assumption
  | apply ite
  | apply State_commitAll
  | apply State_resetUnit
  | apply State_douse
  | apply State_rakePhase
  | apply State_zeroSecure
  | apply State_commitSweep
  | apply State_setFld

theorem of_execRakeEnd {s0} (f : SweepFind) {s : State} (hk : Kept s0 s) : KeptR s0 (execRakeEnd f s) := by
  unfold execRakeEnd
  with_reducible repeat' first
  | assumption
  | (intro)
  | apply ite
  | apply State_rakeDone
  | apply KeptR.next
  | apply KeptR.ite
  | refine snd (by assumption) ?_
  | refine snd2 (by assumption) ?_
  | refine fst (by assumption) ?_
  | refine KeptOpt.get (by assumption) ?_
  | refine KeptO3 (by assumption) ?_
  | fail_if_no_progress refine upd ?_ ?_; rotate_left; exact rfl
  | split

theorem State_setPwron {s0} {s : State} (hk : Kept s0 s) : Kept s0 (State.setPwron s) := by
  unfold State.setPwron
  with_reducible repeat' first
  | assumption
  | apply ite
  | apply State_setFld
  | apply State_resetUnit
  | split
  | dsimp only

theorem of_execWakePin {s0} {s : State} (hk : Kept s0 s) : KeptR s0 (execWakePin s) := by
  unfold execWakePin
  with_reducible repeat' first
  | assumption
  | apply ite
  | apply State_wake
  | apply State_setPwron
  | apply KeptR.next

theorem of_execPerstRise {s0} {s : State} (hk : Kept s0 s) : KeptR s0 (execPerstRise s) := by
  unfold execPerstRise
  with_reducible repeat' first
  | assumption
  | apply ite
  | apply State_wake
  | apply State_setBit
  | apply KeptR.next
  | apply KeptR.ite
  | fail_if_no_progress refine upd ?_ ?_; rotate_left; exact rfl

theorem State_rakeStop {s0} {s : State} (hk : Kept s0 s) : Kept s0 (State.rakeStop s) := by
  unfold State.rakeStop
  with_reducible repeat' first
  | assumption
  | fail_if_no_progress refine upd ?_ ?_; rotate_left; exact rfl
  | split

theorem State_setPf {s0} {s : State} (p : Nat) (hk : Kept s0 s) : Kept s0 (State.setPf s p) := by
  unfold State.setPf
  with_reducible repeat' first
  | assumption
  | fail_if_no_progress refine upd ?_ ?_; rotate_left; exact rfl

theorem State_pfHolds {s0} {s : State} (hk : Kept s0 s) : Kept s0 (State.pfHolds s) := by
  unfold State.pfHolds
  with_reducible repeat' first
  | assumption
  | (intro)
  | apply ite
  | apply State_setMantelOp
  | refine snd (by assumption) ?_
  | refine snd2 (by assumption) ?_
  | refine fst (by assumption) ?_
  | refine KeptOpt.get (by assumption) ?_
  | refine KeptO3 (by assumption) ?_
  | fail_if_no_progress refine upd ?_ ?_; rotate_left; exact rfl
  | split

theorem State_startPf {s0} {s : State} (source : Nat) (hk : Kept s0 s) : Kept s0 (State.startPf s source) := by
  unfold State.startPf
  with_reducible repeat' first
  | assumption
  | apply ite
  | apply State_pfHolds
  | apply State_setPf
  | apply State_rakeStop
  | apply State_mantelUp
  | apply State_startCapture
  | apply State_record
  | apply State_ashStartFlush
  | apply State_setFields
  | apply State_setFld
  | fail_if_no_progress refine upd ?_ ?_; rotate_left; exact rfl

theorem State_powerFail {s0} {s : State} (source : Nat) (hk : Kept s0 s) : Kept s0 (State.powerFail s source) := by
  unfold State.powerFail
  with_reducible repeat' first
  | assumption
  | apply ite
  | apply State_raise
  | apply State_setFld
  | apply State_startPf
  | fail_if_no_progress refine upd ?_ ?_; rotate_left; exact rfl

end Sys2Proof.Machine.Kept
end

