-- ==== Sys2Proof/Laws/KeptHost.lean ====
section
/-! SUPPORT. `Kept` for the host interface, stations and registers: one lemma per function, in the order of the model. -/

namespace Sys2Proof.Machine.Kept

theorem of_execPowerFail {s0} (src : PfSource) {s : State} (hk : Kept s0 s) : KeptR s0 (execPowerFail src s) := by
  unfold execPowerFail
  with_reducible repeat' first
  | assumption
  | apply ite
  | apply State_powerFail
  | apply KeptR.next
  | apply KeptR.ite
  | fail_if_no_progress refine upd ?_ ?_; rotate_left; exact rfl
  | split

theorem of_execPfRecovered {s0} {s : State} (hk : Kept s0 s) : KeptR s0 (execPfRecovered s) := by
  unfold execPfRecovered
  with_reducible repeat' first
  | assumption
  | apply ite
  | apply State_raise
  | apply State_setFld
  | apply KeptR.next
  | apply KeptR.ite
  | fail_if_no_progress refine upd ?_ ?_; rotate_left; exact rfl

theorem of_execRetainCaptureEnd {s0} {s : State} (hk : Kept s0 s) : KeptR s0 (execRetainCaptureEnd s) := by
  unfold execRetainCaptureEnd
  with_reducible repeat' first
  | assumption
  | apply ite
  | apply State_endCapture
  | apply State_rakePhase
  | apply State_deviceRetain
  | apply KeptR.next
  | apply KeptR.ite
  | fail_if_no_progress refine upd ?_ ?_; rotate_left; exact rfl

theorem State_pfPage {s0} {s : State} (hk : Kept s0 s) : Kept s0 (State.pfPage s) := by
  unfold State.pfPage
  with_reducible repeat' first
  | assumption
  | apply State_dirCommit
  | apply State_privDone
  | fail_if_no_progress refine upd ?_ ?_; rotate_left; exact rfl
  | split
  | dsimp only

theorem State_releaseOp {s0} {s : State} (hk : Kept s0 s) : Kept s0 (State.releaseOp s) := by
  unfold State.releaseOp
  with_reducible repeat' first
  | assumption
  | apply State_setMantelOp
  | split

theorem State_endPf {s0} {s : State} (hk : Kept s0 s) : Kept s0 (State.endPf s) := by
  unfold State.endPf
  with_reducible repeat' first
  | assumption
  | apply ite
  | apply State_releaseOp
  | apply State_pfPage
  | apply State_startPf
  | apply State_setPf
  | apply State_cutDomain
  | apply State_readHeld
  | apply State_retainNext
  | apply State_raise
  | apply State_setFld

theorem of_execPfCommitsDone {s0} {s : State} (hk : Kept s0 s) : KeptR s0 (execPfCommitsDone s) := by
  unfold execPfCommitsDone
  with_reducible repeat' first
  | assumption
  | apply ite
  | apply State_endPf
  | apply KeptR.next

theorem State_embWrite {s0} {s : State} (r : Requester) (off : Nat) (k : State → State) (hk : Kept s0 s) (h_k : ∀ z0, Kept s0 z0 → Kept s0 (k z0)) : Kept s0 (State.embWrite s r off k) := by
  unfold State.embWrite
  with_reducible repeat' first
  | assumption
  | (intro)
  | apply ite
  | apply h_k
  | apply State_writeAs

theorem of_execEmberHalt {s0} (r : Requester) (v : W32) {s : State} (hk : Kept s0 s) : KeptR s0 (execEmberHalt r v s) := by
  unfold execEmberHalt
  with_reducible repeat' first
  | assumption
  | (intro)
  | apply State_embWrite
  | apply State_setFields
  | apply KeptR.next

theorem State_embTickSet {s0} {s : State} (hi : Nat) (hk : Kept s0 s) : Kept s0 (State.embTickSet s hi) := by
  unfold State.embTickSet
  with_reducible repeat' first
  | assumption
  | apply ite
  | apply State_setFields
  | apply State_embRaise
  | fail_if_no_progress refine upd ?_ ?_; rotate_left; exact rfl

theorem State_embTickLo {s0} {s : State} (r : Requester) (v : W32) (hk : Kept s0 s) : Kept s0 (State.embTickLo s r v) := by
  unfold State.embTickLo
  with_reducible repeat' first
  | assumption
  | (intro)
  | apply ite
  | apply State_embWrite
  | apply State_embRaise
  | apply State_setFld

theorem of_execEmberTickSet {s0} (r : Requester) (hi : W32) {s : State} (hk : Kept s0 s) : KeptR s0 (execEmberTickSet r hi s) := by
  unfold execEmberTickSet
  with_reducible repeat' first
  | assumption
  | (intro)
  | apply State_embWrite
  | apply State_embTickSet
  | apply KeptR.next

theorem State_embAlarmSet {s0} {s : State} (hi : Nat) (hk : Kept s0 s) : Kept s0 (State.embAlarmSet s hi) := by
  unfold State.embAlarmSet
  with_reducible repeat' first
  | assumption
  | apply State_setFld
  | fail_if_no_progress refine upd ?_ ?_; rotate_left; exact rfl

theorem of_execEmberAlarmSet {s0} (r : Requester) (hi : W32) {s : State} (hk : Kept s0 s) : KeptR s0 (execEmberAlarmSet r hi s) := by
  unfold execEmberAlarmSet
  with_reducible repeat' first
  | assumption
  | (intro)
  | apply State_embWrite
  | apply State_embAlarmSet
  | apply KeptR.next

theorem State_emberMatch {s0} {s : State} (hk : Kept s0 s) : Kept s0 (State.emberMatch s) := by
  unfold State.emberMatch
  with_reducible repeat' first
  | assumption
  | (intro)
  | apply ite
  | apply State_setPwron
  | apply State_wake
  | apply State_embRaise
  | refine snd (by assumption) ?_
  | refine snd2 (by assumption) ?_
  | refine fst (by assumption) ?_
  | refine KeptOpt.get (by assumption) ?_
  | refine KeptO3 (by assumption) ?_
  | fail_if_no_progress refine upd ?_ ?_; rotate_left; exact rfl

theorem of_execEmberAlarm {s0} {s : State} (hk : Kept s0 s) : KeptR s0 (execEmberAlarm s) := by
  unfold execEmberAlarm
  with_reducible repeat' first
  | assumption
  | apply ite
  | apply State_emberMatch
  | apply KeptR.next

theorem of_execOscFail {s0} {s : State} (hk : Kept s0 s) : KeptR s0 (execOscFail s) := by
  unfold execOscFail
  with_reducible repeat' first
  | assumption
  | apply State_embRaise
  | apply State_setFld
  | apply KeptR.next
  | fail_if_no_progress refine upd ?_ ?_; rotate_left; exact rfl

theorem of_execEmberPor {s0} {s : State} (hk : Kept s0 s) : KeptR s0 (execEmberPor s) := by
  unfold execEmberPor
  with_reducible repeat' first
  | assumption
  | apply ite
  | apply KeptR.next
  | apply KeptR.ite
  | fail_if_no_progress refine upd ?_ ?_; rotate_left; exact rfl

theorem of_execVbakMeasure {s0} (mv : Nat) {s : State} (hk : Kept s0 s) : KeptR s0 (execVbakMeasure mv s) := by
  unfold execVbakMeasure
  with_reducible repeat' first
  | assumption
  | apply ite
  | apply State_setFields
  | apply KeptR.next

theorem of_execEmberUnlock {s0} {s : State} (hk : Kept s0 s) : KeptR s0 (execEmberUnlock s) := by
  unfold execEmberUnlock
  with_reducible repeat' first
  | assumption
  | apply ite
  | apply KeptR.next
  | apply KeptR.ite
  | fail_if_no_progress refine upd ?_ ?_; rotate_left; exact rfl

theorem State_flueRecord {s0} {s : State} (r : CycleRecord) (hk : Kept s0 s) : Kept s0 (State.flueRecord s r) := by
  unfold State.flueRecord
  with_reducible repeat' first
  | assumption
  | (intro)
  | apply ite
  | apply State_flueAsk
  | apply foldl
  | apply foldl1
  | apply foldl2
  | refine snd (by assumption) ?_
  | refine snd2 (by assumption) ?_
  | refine fst (by assumption) ?_
  | refine KeptOpt.get (by assumption) ?_
  | refine KeptO3 (by assumption) ?_
  | fail_if_no_progress refine upd ?_ ?_; rotate_left; exact rfl
  | split

theorem State_sendRecord {s0} {s : State} (k : Nat) (r : CycleRecord) (hk : Kept s0 s) : Kept s0 (State.sendRecord s k r) := by
  unfold State.sendRecord
  with_reducible repeat' first
  | assumption
  | apply ite
  | apply State_setOutstanding
  | apply State_erairSend
  | apply State_record
  | fail_if_no_progress refine upd ?_ ?_; rotate_left; exact rfl

theorem State_applyDelta {s0} {s : State} (d : Delta) (hk : Kept s0 s) : Kept s0 (State.applyDelta s d) := by
  unfold State.applyDelta
  with_reducible repeat' first
  | assumption
  | (intro)
  | apply ite
  | apply State_writeWord
  | apply State_flueSend
  | apply foldl
  | apply foldl1
  | apply foldl2
  | refine snd (by assumption) ?_
  | refine snd2 (by assumption) ?_
  | refine fst (by assumption) ?_
  | refine KeptOpt.get (by assumption) ?_
  | refine KeptO3 (by assumption) ?_
  | fail_if_no_progress refine upd ?_ ?_; rotate_left; exact rfl
  | split

theorem State_ringCopy {s0} {s : State} (k : Nat) (e : W36 × W36) (hk : Kept s0 s) : Kept s0 (State.ringCopy s k e) := by
  unfold State.ringCopy
  with_reducible repeat' first
  | assumption
  | apply ite
  | apply State_onHearth
  | apply State_raise

theorem State_applyEvent {s0} {s : State} (k : Nat) (e : W36 × W36) (hk : Kept s0 s) : Kept s0 (State.applyEvent s k e) := by
  unfold State.applyEvent
  with_reducible repeat' first
  | assumption
  | apply State_setImageState
  | apply State_ringCopy
  | split

theorem State_applyStation {s0} {s : State} (n : Nat) (seq : Nat) (bound : Nat) (hk : Kept s0 s) : Kept s0 (State.applyStation s n seq bound) := by
  unfold State.applyStation
  with_reducible repeat' first
  | assumption
  | apply ite
  | apply State_onStation
  | apply State_stateWord
  | apply State_setImageState
  | split

theorem State_applyBlock {s0} {s : State} (e : BlockEntry) (hk : Kept s0 s) : Kept s0 (State.applyBlock s e) := by
  unfold State.applyBlock
  with_reducible repeat' first
  | assumption
  | apply ite
  | apply State_setBlockRt
  | apply State_setInstOff
  | split

theorem State_setApplied {s0} {s : State} (k : Nat) (n : Nat) (hk : Kept s0 s) : Kept s0 (State.setApplied s k n) := by
  unfold State.setApplied
  with_reducible repeat' first
  | assumption
  | apply State_setFld
  | fail_if_no_progress refine upd ?_ ?_; rotate_left; exact rfl

theorem State_applyRecord {s0} {s : State} (r : CycleRecord) (hk : Kept s0 s) : Kept s0 (State.applyRecord s r) := by
  unfold State.applyRecord
  with_reducible repeat' first
  | assumption
  | (intro)
  | apply ite
  | apply State_setApplied
  | apply State_applyBlock
  | apply State_applyStation
  | apply State_applyEvent
  | apply State_applyDelta
  | apply State_switchEnd
  | apply State_switchClass
  | apply State_migrate
  | apply State_onCls
  | apply State_setCycle
  | apply State_settle
  | apply State_flip
  | apply State_erairSend
  | apply State_record
  | apply State_setFld
  | apply foldl
  | apply foldl1
  | apply foldl2
  | refine snd (by assumption) ?_
  | refine snd2 (by assumption) ?_
  | refine fst (by assumption) ?_
  | refine KeptOpt.get (by assumption) ?_
  | refine KeptO3 (by assumption) ?_
  | fail_if_no_progress refine upd ?_ ?_; rotate_left; exact rfl
  | split

theorem State_takeRecord {s0} {s : State} (r : CycleRecord) (hk : Kept s0 s) : Kept s0 (State.takeRecord s r) := by
  unfold State.takeRecord
  with_reducible repeat' first
  | assumption
  | (intro)
  | apply ite
  | apply State_applyRecord
  | apply State_desync
  | apply State_erairSend
  | refine snd (by assumption) ?_
  | refine snd2 (by assumption) ?_
  | refine fst (by assumption) ?_
  | refine KeptOpt.get (by assumption) ?_
  | refine KeptO3 (by assumption) ?_
  | fail_if_no_progress refine upd ?_ ?_; rotate_left; exact rfl
  | split

theorem State_takeWords {s0} {s : State} (ws : List W36) (hk : Kept s0 s) : Kept s0 (State.takeWords s ws) := by
  unfold State.takeWords
  with_reducible repeat' first
  | assumption
  | (intro)
  | apply ite
  | apply State_takeRecord
  | apply State_erairSend
  | refine snd (by assumption) ?_
  | refine snd2 (by assumption) ?_
  | refine fst (by assumption) ?_
  | refine KeptOpt.get (by assumption) ?_
  | refine KeptO3 (by assumption) ?_
  | fail_if_no_progress refine upd ?_ ?_; rotate_left; exact rfl
  | split

theorem State_storeGranule {s0} {s : State} (j : Nat) (cur : List W36) (prev : List W36) (hk : Kept s0 s) : Kept s0 (State.storeGranule s j cur prev) := by
  unfold State.storeGranule
  with_reducible repeat' first
  | assumption
  | (intro)
  | apply ite
  | apply State_repairWord
  | apply State_onHearth
  | apply State_flueSend
  | apply foldl

theorem State_markCopied {s0} {s : State} (j : Nat) (hk : Kept s0 s) : Kept s0 (State.markCopied s j) := by
  unfold State.markCopied
  with_reducible repeat' first
  | assumption
  | apply State_setFld
  | fail_if_no_progress refine upd ?_ ?_; rotate_left; exact rfl

theorem State_sendGranule {s0} {s : State} (j : Nat) (hk : Kept s0 s) : Kept s0 (State.sendGranule s j) := by
  unfold State.sendGranule
  with_reducible repeat' first
  | assumption
  | apply ite
  | apply State_erairSend
  | apply State_flueAsk

theorem State_copyTick {s0} {s : State} (hk : Kept s0 s) : Kept s0 (State.copyTick s) := by
  unfold State.copyTick
  with_reducible repeat' first
  | assumption
  | apply ite
  | apply State_markCopied
  | apply State_sendGranule
  | split

theorem State_loadRing {s0} {s : State} (k : Nat) (es : List (W36 × W36)) (ctl : List Nat) (hk : Kept s0 s) : Kept s0 (State.loadRing s k es ctl) := by
  unfold State.loadRing
  with_reducible repeat' first
  | assumption
  | (intro)
  | apply State_onHearth

theorem State_loadStates {s0} {s : State} (x : SyncStates) (hk : Kept s0 s) : Kept s0 (State.loadStates s x) := by
  unfold State.loadStates
  with_reducible repeat' first
  | assumption
  | (intro)
  | apply ite
  | apply State_onStation
  | apply State_setImageState
  | apply State_onCls
  | apply State_loadRing
  | apply State_setInstOff
  | apply State_setBlockRt
  | apply foldl
  | fail_if_no_progress refine upd ?_ ?_; rotate_left; exact rfl
  | split

theorem State_becomePrimary {s0} {s : State} (hk : Kept s0 s) : Kept s0 (State.becomePrimary s) := by
  unfold State.becomePrimary
  with_reducible repeat' first
  | assumption
  | apply State_legacyStartAll
  | apply State_setRoleState
  | apply State_claim

theorem State_claimAlone {s0} {s : State} (hk : Kept s0 s) : Kept s0 (State.claimAlone s) := by
  unfold State.claimAlone
  with_reducible repeat' first
  | assumption
  | apply State_sendHolds
  | apply State_becomePrimary

theorem State_inheritFaults {s0} {s : State} (k : Nat) (hk : Kept s0 s) : Kept s0 (State.inheritFaults s k) := by
  unfold State.inheritFaults
  with_reducible repeat' first
  | assumption
  | (intro)
  | apply ite
  | apply State_onCls
  | apply State_errEntry
  | apply foldl
  | split

theorem State_freshClasses {s0} {s : State} (hk : Kept s0 s) : Kept s0 (State.freshClasses s) := by
  unfold State.freshClasses
  with_reducible repeat' first
  | assumption
  | (intro)
  | apply State_setFields
  | apply State_inheritFaults
  | apply State_onCls
  | apply foldl

theorem State_takeOver {s0} {s : State} (hk : Kept s0 s) : Kept s0 (State.takeOver s) := by
  unfold State.takeOver
  with_reducible repeat' first
  | assumption
  | apply ite
  | apply State_becomePrimary
  | apply State_freshClasses
  | apply State_sendHolds
  | apply State_raise
  | fail_if_no_progress refine upd ?_ ?_; rotate_left; exact rfl

theorem State_noteBoundary {s0} {s : State} (k : Nat) (n : Nat) (b : Nat) (hk : Kept s0 s) : Kept s0 (State.noteBoundary s k n b) := by
  unfold State.noteBoundary
  with_reducible repeat' first
  | assumption
  | apply ite
  | apply State_setBit
  | apply State_setCls
  | apply State_raise

theorem State_launchFrames {s0} {s : State} (p : Nat) (b : Nat) (fs : List TxFrame) (hk : Kept s0 s) : Kept s0 (State.launchFrames s p b fs) := by
  unfold State.launchFrames
  with_reducible repeat' first
  | assumption
  | apply ite
  | apply State_hobQueue
  | apply State_hobLaunch

theorem State_launchImage {s0} {s : State} (d : StationDecl) (seq : Nat) (ws : List W36) (b : Nat) (hk : Kept s0 s) : Kept s0 (State.launchImage s d seq ws b) := by
  unfold State.launchImage
  with_reducible repeat' first
  | assumption
  | apply ite
  | apply State_onStation
  | apply State_launchFrames
  | apply State_sendBusFrames
  | apply State_sendImage

theorem State_launchOutputs {s0} {s : State} (k : Nat) (b : Nat) (hk : Kept s0 s) : Kept s0 (State.launchOutputs s k b) := by
  unfold State.launchOutputs
  with_reducible repeat' first
  | assumption
  | (intro)
  | apply State_launchImage
  | apply State_grateLaunch
  | apply State_onCls
  | apply foldl
  | split

theorem State_stall {s0} {s : State} (k : Nat) (hk : Kept s0 s) : Kept s0 (State.stall s k) := by
  unfold State.stall
  with_reducible repeat' first
  | assumption
  | apply State_onCls
  | apply State_abortCycle
  | apply State_record
  | apply State_raise
  | apply State_classStates
  | apply State_requestHandover

theorem State_overrun {s0} {s : State} (k : Nat) (n : Nat) (hk : Kept s0 s) : Kept s0 (State.overrun s k n) := by
  unfold State.overrun
  with_reducible repeat' first
  | assumption
  | apply ite
  | apply State_onCls
  | apply State_raise
  | apply State_setFld
  | apply State_count
  | apply State_record
  | apply State_stall

theorem State_takeResume {s0} {s : State} (k : Nat) (hk : Kept s0 s) : Kept s0 (State.takeResume s k) := by
  unfold State.takeResume
  with_reducible repeat' first
  | assumption
  | apply ite
  | apply State_onCls
  | apply State_endStall

theorem State_startRegs {s0} {s : State} (k : Nat) (n : Nat) (b : Nat) (full : Bool) (hk : Kept s0 s) : Kept s0 (State.startRegs s k n b full) := by
  unfold State.startRegs
  with_reducible repeat' first
  | assumption
  | apply State_setFields
  | apply State_setCycle

theorem State_substitutes {s0} {s : State} (k : Nat) (hk : Kept s0 s) : Kept s0 (State.substitutes s k) := by
  unfold State.substitutes
  with_reducible repeat' first
  | assumption
  | (intro)
  | apply ite
  | apply State_applySubst
  | apply foldl

theorem State_intake {s0} {s : State} (k : Nat) (b : Nat) (hk : Kept s0 s) : Kept s0 (State.intake s k b) := by
  unfold State.intake
  with_reducible repeat' first
  | assumption
  | (intro)
  | apply State_grateIntake
  | apply State_grateLatch
  | apply State_stationIntake
  | apply State_substitutes
  | apply State_applyForces
  | apply State_applyInject
  | apply foldl

theorem State_flipCycle {s0} {s : State} (k : Nat) (n : Nat) (b : Nat) (hk : Kept s0 s) : Kept s0 (State.flipCycle s k n b) := by
  unfold State.flipCycle
  with_reducible repeat' first
  | assumption
  | apply ite
  | apply State_startRegs
  | apply State_takeResume
  | apply State_switchClass
  | apply State_takeover
  | apply State_flip
  | apply State_setCls

theorem State_openIntake {s0} {s : State} (k : Nat) (b : Nat) (hk : Kept s0 s) : Kept s0 (State.openIntake s k b) := by
  unfold State.openIntake
  with_reducible repeat' first
  | assumption
  | (intro)
  | apply ite
  | apply State_intake
  | apply State_migrate
  | refine snd (by assumption) ?_
  | refine snd2 (by assumption) ?_
  | refine fst (by assumption) ?_
  | refine KeptOpt.get (by assumption) ?_
  | refine KeptO3 (by assumption) ?_
  | fail_if_no_progress refine upd ?_ ?_; rotate_left; exact rfl
  | split

theorem State_meetBoundary {s0} {s : State} (k : Nat) (n : Nat) (b : Nat) (hk : Kept s0 s) : Kept s0 (State.meetBoundary s k n b).2 := by
  unfold State.meetBoundary
  with_reducible repeat' first
  | assumption
  | apply ite
  | apply State_flipCycle
  | apply State_overrun
  | apply State_launchOutputs
  | apply State_noteBoundary
  | apply State_ageClass
  | apply State_latchClass
  | apply State_hobBoundaryCancel
  | apply State_takeover
  | split
  | dsimp only

theorem State_flips {s0} {s : State} (js : List Nat) (k b : Nat) (hk : Kept s0 s) : Kept s0 (s.flips js k b).2 := by
  induction js generalizing s with
  | nil => exact hk
  | cons j l ih =>
    unfold State.flips
    split
    · exact ih hk
    · exact ih (State_meetBoundary _ _ _ hk)

theorem State_standbyLatch {s0} {s : State} (k : Nat) (b : Nat) (hk : Kept s0 s) : Kept s0 (State.standbyLatch s k b) := by
  unfold State.standbyLatch
  with_reducible repeat' first
  | assumption
  | apply ite
  | apply State_ageClass
  | apply State_latchClass

theorem State_standbyBoundary {s0} {s : State} (k : Nat) (hk : Kept s0 s) : Kept s0 (State.standbyBoundary s k) := by
  unfold State.standbyBoundary
  with_reducible repeat' first
  | assumption
  | (intro)
  | apply ite
  | apply State_standbyLatch
  | apply State_onCls
  | apply State_takeover

theorem State_boundary {s0} {s : State} (k : Nat) (hk : Kept s0 s) : Kept s0 (State.boundary s k) := by
  unfold State.boundary
  with_reducible repeat' first
  | assumption
  | (intro)
  | apply ite
  | apply State_standbyBoundary
  | apply State_flips
  | apply State_openIntake
  | apply foldl
  | apply foldl1
  | apply foldl2
  | refine snd (by assumption) ?_
  | refine snd2 (by assumption) ?_
  | refine fst (by assumption) ?_
  | refine KeptOpt.get (by assumption) ?_
  | refine KeptO3 (by assumption) ?_
  | fail_if_no_progress refine upd ?_ ?_; rotate_left; exact rfl
  | split

theorem of_execClassBoundary {s0} (k : Fin 3) {s : State} (hk : Kept s0 s) : KeptR s0 (execClassBoundary k s) := by
  unfold execClassBoundary
  with_reducible repeat' first
  | assumption
  | apply State_boundary
  | apply KeptR.next

theorem State_openSolve {s0} {s : State} (k : Nat) (hk : Kept s0 s) : Kept s0 (State.openSolve s k) := by
  unfold State.openSolve
  with_reducible repeat' first
  | assumption
  | apply State_importStep
  | apply State_onCls
  | apply State_setFld

theorem of_execIntakeComplete {s0} (k : Fin 3) {s : State} (hk : Kept s0 s) : KeptR s0 (execIntakeComplete k s) := by
  unfold execIntakeComplete
  with_reducible repeat' first
  | assumption
  | apply ite
  | apply State_openSolve
  | apply KeptR.next
  | apply KeptR.ite

theorem of_execTierOpen {s0} (k : Fin 3) {s : State} (hk : Kept s0 s) : KeptR s0 (execTierOpen k s) := by
  unfold execTierOpen
  with_reducible repeat' first
  | assumption
  | apply ite
  | apply State_openTier
  | apply KeptR.next
  | apply KeptR.ite
  | split

theorem of_execTierToken {s0} (k : Fin 3) (l : Fin 128) {s : State} (hk : Kept s0 s) : KeptR s0 (execTierToken k l s) := by
  unfold execTierToken
  with_reducible repeat' first
  | assumption
  | (intro)
  | apply ite
  | apply State_tokenArrives
  | apply State_returnToken
  | apply KeptR.next
  | apply KeptR.ite
  | refine snd (by assumption) ?_
  | refine snd2 (by assumption) ?_
  | refine fst (by assumption) ?_
  | refine KeptOpt.get (by assumption) ?_
  | refine KeptO3 (by assumption) ?_
  | split

theorem State_sandboxSnap {s0} {s : State} (k : Nat) (hk : Kept s0 s) : Kept s0 (State.sandboxSnap s k) := by
  unfold State.sandboxSnap
  with_reducible repeat' first
  | assumption
  | apply ite
  | apply State_sandboxCopy
  | apply State_setEngState
  | apply State_idleEngine
  | apply State_enter
  | apply State_setCore
  | apply State_haltCore
  | apply State_setFld
  | fail_if_no_progress refine upd ?_ ?_; rotate_left; exact rfl
  | split

theorem State_endSolve {s0} {s : State} (k : Nat) (hk : Kept s0 s) : Kept s0 (State.endSolve s k) := by
  unfold State.endSolve
  with_reducible repeat' first
  | assumption
  | apply State_poisonWindows
  | apply State_startSettle
  | apply State_onCls
  | apply State_sandboxSnap
  | apply State_setFields

theorem of_execSolveEnd {s0} (k : Fin 3) {s : State} (hk : Kept s0 s) : KeptR s0 (execSolveEnd k s) := by
  unfold execSolveEnd
  with_reducible repeat' first
  | assumption
  | apply ite
  | apply State_endSolve
  | apply KeptR.next
  | apply KeptR.ite

theorem State_outputWord {s0} {s : State} (k : Nat) (w : Nat) (hk : Kept s0 s) : Kept s0 (State.outputWord s k w).2 := by
  unfold State.outputWord
  with_reducible repeat' first
  | assumption
  | apply ite
  | apply State_substForced
  | apply State_deviceRead
  | apply State_forced
  | refine snd (by assumption) ?_
  | refine snd2 (by assumption) ?_
  | refine fst (by assumption) ?_
  | split

theorem State_outputWords {s0} {s : State} (k : Nat) (ws : List Nat) (hk : Kept s0 s) : Kept s0 (State.outputWords s k ws).2 := by
  unfold State.outputWords
  with_reducible repeat' first
  | assumption
  | (intro)
  | apply State_outputWord
  | apply foldl
  | refine snd (by assumption) ?_
  | refine snd2 (by assumption) ?_
  | refine fst (by assumption) ?_
  | apply foldl1
  | apply foldl2

theorem State_outlayStation {s0} {s : State} (k : Nat) (d : StationDecl) (hk : Kept s0 s) : Kept s0 (State.outlayStation s k d).2 := by
  unfold State.outlayStation
  with_reducible repeat' first
  | assumption
  | (intro)
  | apply ite
  | apply State_outputWords
  | apply State_fillBuf
  | apply State_flueOutlay
  | apply State_onStation
  | refine snd (by assumption) ?_
  | refine snd2 (by assumption) ?_
  | refine fst (by assumption) ?_
  | refine KeptOpt.get (by assumption) ?_
  | refine KeptO3 (by assumption) ?_
  | fail_if_no_progress refine upd ?_ ?_; rotate_left; exact rfl
  | split
  | dsimp only

theorem State_outlayChannel {s0} {s : State} (k : Nat) (c : ChanDecl) (hk : Kept s0 s) : Kept s0 (State.outlayChannel s k c).2 := by
  unfold State.outlayChannel
  with_reducible repeat' first
  | assumption
  | apply ite
  | apply State_outputWord
  | apply State_flueAsk
  | refine snd (by assumption) ?_
  | refine snd2 (by assumption) ?_
  | refine fst (by assumption) ?_
  | refine KeptOpt.get (by assumption) ?_
  | refine KeptO3 (by assumption) ?_
  | split

theorem State_outlayItems {s0} {s : State} (k : Nat) (hk : Kept s0 s) : Kept s0 (State.outlayItems s k).2 := by
  unfold State.outlayItems
  with_reducible repeat' first
  | assumption
  | (intro)
  | apply State_outlayStation
  | apply State_outlayChannel
  | apply foldl
  | refine snd (by assumption) ?_
  | refine snd2 (by assumption) ?_
  | refine fst (by assumption) ?_
  | apply foldl1
  | apply foldl2

theorem State_queueOutputs {s0} {s : State} (k : Nat) (xs : List Held) (hk : Kept s0 s) : Kept s0 (State.queueOutputs s k xs) := by
  unfold State.queueOutputs
  with_reducible repeat' first
  | assumption
  | apply ite
  | apply State_onCls
  | apply State_releaseItems

theorem State_endOutlay {s0} {s : State} (k : Fin 3) (hk : Kept s0 s) : Kept s0 (State.endOutlay s k) := by
  unfold State.endOutlay
  with_reducible repeat' first
  | assumption
  | (intro)
  | apply ite
  | apply State_queueOutputs
  | apply State_outlayItems
  | apply State_flueRecord
  | apply State_onCls
  | apply State_record
  | apply State_setFld
  | refine snd (by assumption) ?_
  | refine snd2 (by assumption) ?_
  | refine fst (by assumption) ?_
  | refine KeptOpt.get (by assumption) ?_
  | refine KeptO3 (by assumption) ?_
  | fail_if_no_progress refine upd ?_ ?_; rotate_left; exact rfl
  | split

theorem of_execOutlayEnd {s0} (k : Fin 3) {s : State} (hk : Kept s0 s) : KeptR s0 (execOutlayEnd k s) := by
  unfold execOutlayEnd
  with_reducible repeat' first
  | assumption
  | apply ite
  | apply State_endOutlay
  | apply KeptR.next
  | apply KeptR.ite

theorem State_finishCycle {s0} {s : State} (k : Nat) (hk : Kept s0 s) : Kept s0 (State.finishCycle s k) := by
  unfold State.finishCycle
  with_reducible repeat' first
  | assumption
  | apply ite
  | apply State_switchEnd
  | apply State_guardService
  | apply State_holdDue
  | apply State_rakeCheck
  | apply State_cycleStats
  | apply State_applyStopped
  | apply State_setCls
  | apply State_setFld

theorem State_checkFinish {s0} {s : State} (k : Nat) (hk : Kept s0 s) : Kept s0 (State.checkFinish s k) := by
  unfold State.checkFinish
  with_reducible repeat' first
  | assumption
  | apply ite
  | apply State_finishCycle

theorem State_mirrorDone {s0} {s : State} (k : Nat) (hk : Kept s0 s) : Kept s0 (State.mirrorDone s k) := by
  unfold State.mirrorDone
  with_reducible repeat' first
  | assumption
  | apply State_checkFinish
  | apply State_setFld
  | apply State_onCls

theorem State_handOver {s0} {s : State} (k : Nat) (hk : Kept s0 s) : Kept s0 (State.handOver s k) := by
  unfold State.handOver
  with_reducible repeat' first
  | assumption
  | apply ite
  | apply State_mirrorDone
  | apply State_sendRecord
  | apply State_desync
  | split

theorem of_execMirrorHandover {s0} (k : Fin 3) {s : State} (hk : Kept s0 s) : KeptR s0 (execMirrorHandover k s) := by
  unfold execMirrorHandover
  with_reducible repeat' first
  | assumption
  | apply ite
  | apply State_handOver
  | apply KeptR.next
  | apply KeptR.ite

theorem of_execSettleEnd {s0} (k : Fin 3) {s : State} (hk : Kept s0 s) : KeptR s0 (execSettleEnd k s) := by
  unfold execSettleEnd
  with_reducible repeat' first
  | assumption
  | apply ite
  | apply State_checkFinish
  | apply State_onCls
  | apply State_setFld
  | apply State_setFldBit
  | apply State_settle
  | apply KeptR.next
  | apply KeptR.ite

theorem of_execHeartbeatTimer {s0} {s : State} (hk : Kept s0 s) : KeptR s0 (execHeartbeatTimer s) := by
  unfold execHeartbeatTimer
  with_reducible repeat' first
  | assumption
  | apply ite
  | apply State_sendHeartbeat
  | apply KeptR.next
  | apply KeptR.ite

theorem State_setOffset {s0} {s : State} (partnerTime : Nat) (hk : Kept s0 s) : Kept s0 (State.setOffset s partnerTime) := by
  unfold State.setOffset
  with_reducible repeat' first
  | assumption
  | apply State_setBit
  | apply State_setFld

theorem State_noteHeartbeat {s0} {s : State} (h : Heartbeat) (hk : Kept s0 s) : Kept s0 (State.noteHeartbeat s h) := by
  unfold State.noteHeartbeat
  with_reducible repeat' first
  | assumption
  | apply State_setOffset
  | apply State_setFields
  | fail_if_no_progress refine upd ?_ ?_; rotate_left; exact rfl

theorem State_noteClash {s0} {s : State} (h : Heartbeat) (hk : Kept s0 s) : Kept s0 (State.noteClash s h) := by
  unfold State.noteClash
  with_reducible repeat' first
  | assumption
  | apply ite
  | apply State_raise
  | apply State_capture
  | fail_if_no_progress refine upd ?_ ?_; rotate_left; exact rfl

theorem State_evidence {s0} {s : State} (hk : Kept s0 s) : Kept s0 (State.evidence s) := by
  unfold State.evidence
  with_reducible repeat' first
  | assumption
  | apply ite
  | apply State_setRoleState

theorem State_heartbeatEpochs {s0} {s : State} (h : Heartbeat) (hk : Kept s0 s) : Kept s0 (State.heartbeatEpochs s h) := by
  unfold State.heartbeatEpochs
  with_reducible repeat' first
  | assumption
  | apply ite
  | apply State_seeEpoch
  | apply State_evidence
  | apply State_rivalEpoch

theorem State_desyncWith {s0} {s : State} (hk : Kept s0 s) : Kept s0 (State.desyncWith s) := by
  unfold State.desyncWith
  with_reducible repeat' first
  | assumption
  | apply ite
  | apply State_desync
  | apply State_draw

theorem State_heartbeatRole {s0} {s : State} (prev : Option Heartbeat) (h : Heartbeat) (hk : Kept s0 s) : Kept s0 (State.heartbeatRole s prev h) := by
  unfold State.heartbeatRole
  with_reducible repeat' first
  | assumption
  | apply ite
  | apply State_desyncWith
  | apply State_takeOver
  | apply State_claimAlone
  | apply State_desync

theorem State_tellVersions {s0} {s : State} (hk : Kept s0 s) : Kept s0 (State.tellVersions s) := by
  unfold State.tellVersions
  with_reducible repeat' first
  | assumption
  | apply ite
  | apply State_erairSend
  | apply State_message
  | fail_if_no_progress refine upd ?_ ?_; rotate_left; exact rfl

theorem State_tellRollback {s0} {s : State} (hk : Kept s0 s) : Kept s0 (State.tellRollback s) := by
  unfold State.tellRollback
  with_reducible repeat' first
  | assumption
  | apply ite
  | apply State_erairSend
  | apply State_message
  | fail_if_no_progress refine upd ?_ ?_; rotate_left; exact rfl

theorem of_execErairHeartbeat {s0} (payload : List W36) {s : State} (hk : Kept s0 s) : KeptR s0 (execErairHeartbeat payload s) := by
  unfold execErairHeartbeat
  with_reducible repeat' first
  | assumption
  | apply ite
  | apply State_tellRollback
  | apply State_tellVersions
  | apply State_heartbeatRole
  | apply State_heartbeatEpochs
  | apply State_noteClash
  | apply State_noteHeartbeat
  | apply KeptR.next
  | apply KeptR.ite

theorem State_confirm {s0} {s : State} (hk : Kept s0 s) : Kept s0 (State.confirm s) := by
  unfold State.confirm
  with_reducible repeat' first
  | assumption
  | apply ite
  | apply State_desync
  | apply State_takeOver

theorem State_sendWitness {s0} {s : State} (kind : Nat) (hk : Kept s0 s) : Kept s0 (State.sendWitness s kind) := by
  unfold State.sendWitness
  with_reducible repeat' first
  | assumption
  | (intro)
  | apply ite
  | apply State_sendEth
  | refine snd (by assumption) ?_
  | refine snd2 (by assumption) ?_
  | refine fst (by assumption) ?_
  | refine KeptOpt.get (by assumption) ?_
  | refine KeptO3 (by assumption) ?_
  | fail_if_no_progress refine upd ?_ ?_; rotate_left; exact rfl
  | split

theorem State_startConfirm {s0} {s : State} (hk : Kept s0 s) : Kept s0 (State.startConfirm s) := by
  unfold State.startConfirm
  with_reducible repeat' first
  | assumption
  | apply ite
  | apply State_confirm
  | apply State_sendWitness
  | fail_if_no_progress refine upd ?_ ?_; rotate_left; exact rfl

theorem of_execErairLoss {s0} {s : State} (hk : Kept s0 s) : KeptR s0 (execErairLoss s) := by
  unfold execErairLoss
  with_reducible repeat' first
  | assumption
  | apply ite
  | apply State_raise
  | apply State_count
  | apply State_setFields
  | apply State_record
  | apply State_startConfirm
  | apply State_desync
  | apply KeptR.next
  | apply KeptR.ite
  | fail_if_no_progress refine upd ?_ ?_; rotate_left; exact rfl

theorem of_execErairLinkUp {s0} (roundTripNs : Nat) (partnerTime : Nat) {s : State} (hk : Kept s0 s) : KeptR s0 (execErairLinkUp roundTripNs partnerTime s) := by
  unfold execErairLinkUp
  with_reducible repeat' first
  | assumption
  | apply ite
  | apply State_setFields
  | apply State_raise
  | apply State_setOffset
  | apply KeptR.next
  | apply KeptR.ite
  | fail_if_no_progress refine upd ?_ ?_; rotate_left; exact rfl

theorem of_execLaneFailure {s0} (l : Fin 4) {s : State} (hk : Kept s0 s) : KeptR s0 (execLaneFailure l s) := by
  unfold execLaneFailure
  with_reducible repeat' first
  | assumption
  | apply State_setFld
  | apply State_setFldBit
  | apply KeptR.next

theorem of_execLaneRetrainDone {s0} (lanes : BitVec 4) {s : State} (hk : Kept s0 s) : KeptR s0 (execLaneRetrainDone lanes s) := by
  unfold execLaneRetrainDone
  with_reducible repeat' first
  | assumption
  | apply ite
  | apply State_setFields
  | apply State_raise
  | apply KeptR.next
  | apply KeptR.ite

theorem of_execErairCellCrcError {s0} (c : LaneCell) {s : State} (hk : Kept s0 s) : KeptR s0 (execErairCellCrcError c s) := by
  unfold execErairCellCrcError
  with_reducible repeat' first
  | assumption
  | apply ite
  | apply State_count
  | apply KeptR.next
  | apply KeptR.ite

theorem of_execErairRecord {s0} (words : List W36) {s : State} (hk : Kept s0 s) : KeptR s0 (execErairRecord words s) := by
  unfold execErairRecord
  with_reducible repeat' first
  | assumption
  | apply ite
  | apply State_takeWords
  | apply KeptR.next
  | apply KeptR.ite

theorem State_releaseCycle {s0} {s : State} (k : Nat) (cycle : Nat) (hk : Kept s0 s) : Kept s0 (State.releaseCycle s k cycle) := by
  unfold State.releaseCycle
  with_reducible repeat' first
  | assumption
  | apply State_releaseItems
  | apply State_onCls

theorem State_resend {s0} {s : State} (o : Outstanding) (hk : Kept s0 s) : Kept s0 (State.resend s o) := by
  unfold State.resend
  with_reducible repeat' first
  | assumption
  | apply ite
  | apply State_erairSend
  | apply State_record
  | apply State_count

theorem of_execErairAck {s0} (k : Fin 3) (cycle : W32) (applied : Bool) {s : State} (hk : Kept s0 s) : KeptR s0 (execErairAck k cycle applied s) := by
  unfold execErairAck
  with_reducible repeat' first
  | assumption
  | (intro)
  | apply ite
  | apply State_resend
  | apply State_releaseCycle
  | apply State_rakeCheck
  | apply State_acknowledged
  | apply State_setFld
  | apply KeptR.next
  | apply KeptR.ite
  | refine snd (by assumption) ?_
  | refine snd2 (by assumption) ?_
  | refine fst (by assumption) ?_
  | refine KeptOpt.get (by assumption) ?_
  | refine KeptO3 (by assumption) ?_
  | split

theorem of_execRecordResendTimeout {s0} (k : Fin 3) (cycle : W32) {s : State} (hk : Kept s0 s) : KeptR s0 (execRecordResendTimeout k cycle s) := by
  unfold execRecordResendTimeout
  with_reducible repeat' first
  | assumption
  | apply State_resend
  | apply KeptR.next
  | split

theorem of_execAckTimeout {s0} (k : Fin 3) {s : State} (hk : Kept s0 s) : KeptR s0 (execAckTimeout k s) := by
  unfold execAckTimeout
  with_reducible repeat' first
  | assumption
  | apply ite
  | apply State_desync
  | apply KeptR.next
  | apply KeptR.ite

theorem of_execTimeOkTimeout {s0} {s : State} (hk : Kept s0 s) : KeptR s0 (execTimeOkTimeout s) := by
  unfold execTimeOkTimeout
  with_reducible repeat' first
  | assumption
  | apply ite
  | apply State_desync
  | apply KeptR.next
  | apply KeptR.ite

theorem State_refuseSync {s0} {s : State} (m : VersionMsg) (reason : Nat) (hk : Kept s0 s) : Kept s0 (State.refuseSync s m reason) := by
  unfold State.refuseSync
  with_reducible repeat' first
  | assumption
  | apply ite
  | apply State_capture
  | apply State_raise
  | fail_if_no_progress refine upd ?_ ?_; rotate_left; exact rfl

theorem of_execVersionMessage {s0} (m : VersionMsg) {s : State} (hk : Kept s0 s) : KeptR s0 (execVersionMessage m s) := by
  unfold execVersionMessage
  with_reducible repeat' first
  | assumption
  | (intro)
  | apply ite
  | apply State_refuseSync
  | apply State_tellVersions
  | apply KeptR.next
  | apply KeptR.ite
  | refine snd (by assumption) ?_
  | refine snd2 (by assumption) ?_
  | refine fst (by assumption) ?_
  | refine KeptOpt.get (by assumption) ?_
  | refine KeptO3 (by assumption) ?_
  | fail_if_no_progress refine upd ?_ ?_; rotate_left; exact rfl
  | split
  | dsimp only

theorem of_execEraSync {s0} (r : Requester) {s : State} (hk : Kept s0 s) : KeptR s0 (execEraSync r s) := by
  unfold execEraSync
  with_reducible repeat' first
  | assumption
  | (intro)
  | apply ite
  | apply State_writeAs
  | apply State_erairSend
  | apply State_message
  | apply KeptR.next
  | apply KeptR.ite
  | fail_if_no_progress refine upd ?_ ?_; rotate_left; exact rfl

theorem of_execEraDesync {s0} (r : Requester) {s : State} (hk : Kept s0 s) : KeptR s0 (execEraDesync r s) := by
  unfold execEraDesync
  with_reducible repeat' first
  | assumption
  | (intro)
  | apply State_writeAs
  | apply State_desync
  | apply KeptR.next

theorem State_startSync {s0} {s : State} (m : VersionMsg) (hk : Kept s0 s) : Kept s0 (State.startSync s m) := by
  unfold State.startSync
  with_reducible repeat' first
  | assumption
  | apply ite
  | apply State_setOutstanding
  | apply State_setRoleState
  | apply State_setFld
  | fail_if_no_progress refine upd ?_ ?_; rotate_left; exact rfl

theorem of_execSyncStart {s0} {s : State} (hk : Kept s0 s) : KeptR s0 (execSyncStart s) := by
  unfold execSyncStart
  with_reducible repeat' first
  | assumption
  | (intro)
  | apply ite
  | apply State_startSync
  | apply State_refuseSync
  | apply KeptR.next
  | apply KeptR.ite
  | refine snd (by assumption) ?_
  | refine snd2 (by assumption) ?_
  | refine fst (by assumption) ?_
  | refine KeptOpt.get (by assumption) ?_
  | refine KeptO3 (by assumption) ?_
  | split

theorem of_execCopyCell {s0} (granule : Nat) (current : List W36) (previous : List W36) {s : State} (hk : Kept s0 s) : KeptR s0 (execCopyCell granule current previous s) := by
  unfold execCopyCell
  with_reducible repeat' first
  | assumption
  | apply ite
  | apply State_storeGranule
  | apply State_markCopied
  | apply KeptR.next
  | apply KeptR.ite

theorem State_closeCopy {s0} {s : State} (hk : Kept s0 s) : Kept s0 (State.closeCopy s) := by
  unfold State.closeCopy
  with_reducible repeat' first
  | assumption
  | apply ite
  | apply State_erairSend
  | apply State_draw
  | refine snd (by assumption) ?_
  | refine snd2 (by assumption) ?_
  | refine fst (by assumption) ?_
  | refine KeptOpt.get (by assumption) ?_
  | refine KeptO3 (by assumption) ?_
  | fail_if_no_progress refine upd ?_ ?_; rotate_left; exact rfl

theorem State_synced {s0} {s : State} (r : Nat) (hk : Kept s0 s) : Kept s0 (State.synced s r) := by
  unfold State.synced
  with_reducible repeat' first
  | assumption
  | apply ite
  | apply State_setRoleState
  | apply State_raise
  | apply State_setFld

theorem of_execSyncDone {s0} (x : SyncStates) {s : State} (hk : Kept s0 s) : KeptR s0 (execSyncDone x s) := by
  unfold execSyncDone
  with_reducible repeat' first
  | assumption
  | apply ite
  | apply State_synced
  | apply State_closeCopy
  | apply State_loadStates
  | apply KeptR.next
  | apply KeptR.ite

theorem of_execListenTimeout {s0} {s : State} (hk : Kept s0 s) : KeptR s0 (execListenTimeout s) := by
  unfold execListenTimeout
  with_reducible repeat' first
  | assumption
  | apply ite
  | apply State_claimAlone
  | apply KeptR.next
  | apply KeptR.ite

theorem of_execHandover {s0} {s : State} (hk : Kept s0 s) : KeptR s0 (execHandover s) := by
  unfold execHandover
  with_reducible repeat' first
  | assumption
  | apply ite
  | apply State_takeOver
  | apply KeptR.next
  | apply KeptR.ite

theorem of_execAliveOutToggle {s0} {s : State} (hk : Kept s0 s) : KeptR s0 (execAliveOutToggle s) := by
  unfold execAliveOutToggle
  with_reducible repeat' first
  | assumption
  | apply ite
  | apply State_grateUpdate
  | apply KeptR.next
  | apply KeptR.ite
  | fail_if_no_progress refine upd ?_ ?_; rotate_left; exact rfl

theorem State_lineClaimant {s0} {s : State} (hk : Kept s0 s) : Kept s0 (State.lineClaimant s) := by
  unfold State.lineClaimant
  with_reducible repeat' first
  | assumption
  | apply State_swapSeen
  | apply State_setFields
  | apply State_evidence
  | apply State_demote

theorem of_execPartnerAliveEdge {s0} (intervalUs : Nat) {s : State} (hk : Kept s0 s) : KeptR s0 (execPartnerAliveEdge intervalUs s) := by
  unfold execPartnerAliveEdge
  with_reducible repeat' first
  | assumption
  | apply ite
  | apply State_setFld
  | apply State_lineClaimant
  | apply State_confirm
  | apply KeptR.next
  | apply KeptR.ite
  | fail_if_no_progress refine upd ?_ ?_; rotate_left; exact rfl

theorem of_execLineDead {s0} {s : State} (hk : Kept s0 s) : KeptR s0 (execLineDead s) := by
  unfold execLineDead
  with_reducible repeat' first
  | assumption
  | apply ite
  | apply State_confirm
  | apply State_setFld
  | apply KeptR.next
  | apply KeptR.ite
  | fail_if_no_progress refine upd ?_ ?_; rotate_left; exact rfl

theorem of_execWitnessProbeTimer {s0} {s : State} (hk : Kept s0 s) : KeptR s0 (execWitnessProbeTimer s) := by
  unfold execWitnessProbeTimer
  with_reducible repeat' first
  | assumption
  | apply ite
  | apply State_sendWitness
  | apply KeptR.next
  | apply KeptR.ite
  | fail_if_no_progress refine upd ?_ ?_; rotate_left; exact rfl

theorem State_witnessSeen {s0} {s : State} (bs : List Byte) (hk : Kept s0 s) : Kept s0 (State.witnessSeen s bs) := by
  unfold State.witnessSeen
  with_reducible repeat' first
  | assumption
  | apply ite
  | apply State_rivalEpoch
  | apply State_seeEpoch

theorem State_receiveWitness {s0} {s : State} (d : Datagram) (kind : Nat) (bs : List Byte) (k : State → State) (h_k : ∀ t, Kept s0 t → Kept s0 (k t)) (hk : Kept s0 s) : Kept s0 (State.receiveWitness s d kind bs k) := by
  unfold State.receiveWitness
  with_reducible repeat' first
  | assumption
  | apply ite
  | apply State_witnessSeen
  | apply State_rxDrop
  | apply State_countWrap
  | apply h_k

theorem of_execWitnessProbe {s0} (w : WitnessIn) {s : State} (hk : Kept s0 s) : KeptR s0 (execWitnessProbe w s) := by
  unfold execWitnessProbe
  with_reducible repeat' first
  | assumption
  | (intro)
  | apply ite
  | apply State_receiveWitness
  | apply State_sendWitness
  | apply KeptR.next

theorem State_witnessAlive {s0} {s : State} (bs : List Byte) (hk : Kept s0 s) : Kept s0 (State.witnessAlive s bs) := by
  unfold State.witnessAlive
  with_reducible repeat' first
  | assumption
  | apply ite
  | apply State_confirm
  | apply State_evidence
  | fail_if_no_progress refine upd ?_ ?_; rotate_left; exact rfl

theorem of_execWitnessAnswer {s0} (w : WitnessIn) {s : State} (hk : Kept s0 s) : KeptR s0 (execWitnessAnswer w s) := by
  unfold execWitnessAnswer
  with_reducible repeat' first
  | assumption
  | (intro)
  | apply ite
  | apply State_witnessAlive
  | apply State_receiveWitness
  | apply KeptR.next

theorem of_execWitnessClaimNotice {s0} (w : WitnessIn) {s : State} (hk : Kept s0 s) : KeptR s0 (execWitnessClaimNotice w s) :=
  KeptR.next (State_receiveWitness _ _ _ _ (fun _ h => h) hk)

theorem of_execWitnessDead {s0} {s : State} (hk : Kept s0 s) : KeptR s0 (execWitnessDead s) := by
  unfold execWitnessDead
  with_reducible repeat' first
  | assumption
  | apply ite
  | apply State_confirm
  | apply KeptR.next
  | apply KeptR.ite
  | fail_if_no_progress refine upd ?_ ?_; rotate_left; exact rfl

theorem of_execClaimNoticeTimer {s0} {s : State} (hk : Kept s0 s) : KeptR s0 (execClaimNoticeTimer s) := by
  unfold execClaimNoticeTimer
  with_reducible repeat' first
  | assumption
  | apply ite
  | apply State_sendWitness
  | apply KeptR.next
  | apply KeptR.ite
  | fail_if_no_progress refine upd ?_ ?_; rotate_left; exact rfl

theorem State_refuseSwap {s0} {s : State} (hk : Kept s0 s) : Kept s0 (State.refuseSwap s) := by
  unfold State.refuseSwap
  with_reducible repeat' first
  | assumption
  | apply State_raise
  | fail_if_no_progress refine upd ?_ ?_; rotate_left; exact rfl

theorem of_execEraSwap {s0} (r : Requester) {s : State} (hk : Kept s0 s) : KeptR s0 (execEraSwap r s) := by
  unfold execEraSwap
  with_reducible repeat' first
  | assumption
  | (intro)
  | apply ite
  | apply State_writeAs
  | apply State_refuseSwap
  | apply KeptR.next
  | apply KeptR.ite
  | fail_if_no_progress refine upd ?_ ?_; rotate_left; exact rfl

theorem State_moveSwap {s0} {s : State} (w : Swap) (hk : Kept s0 s) : Kept s0 (State.moveSwap s w) := by
  unfold State.moveSwap
  with_reducible repeat' first
  | assumption
  | apply ite
  | apply State_refuseSwap
  | fail_if_no_progress refine upd ?_ ?_; rotate_left; exact rfl

theorem of_execSwapPoint {s0} {s : State} (hk : Kept s0 s) : KeptR s0 (execSwapPoint s) := by
  unfold execSwapPoint
  with_reducible repeat' first
  | assumption
  | (intro)
  | apply ite
  | apply State_moveSwap
  | apply State_launchOutputs
  | apply KeptR.next
  | apply KeptR.ite
  | apply foldl
  | apply foldl1
  | apply foldl2
  | refine snd (by assumption) ?_
  | refine snd2 (by assumption) ?_
  | refine fst (by assumption) ?_
  | refine KeptOpt.get (by assumption) ?_
  | refine KeptO3 (by assumption) ?_
  | fail_if_no_progress refine upd ?_ ?_; rotate_left; exact rfl
  | split

theorem of_execSwapDemote {s0} {s : State} (hk : Kept s0 s) : KeptR s0 (execSwapDemote s) := by
  unfold execSwapDemote
  with_reducible repeat' first
  | assumption
  | (intro)
  | apply ite
  | apply State_demoteAs
  | apply State_erairSend
  | apply State_message
  | apply KeptR.next
  | apply KeptR.ite
  | refine snd (by assumption) ?_
  | refine snd2 (by assumption) ?_
  | refine fst (by assumption) ?_
  | refine KeptOpt.get (by assumption) ?_
  | refine KeptO3 (by assumption) ?_
  | fail_if_no_progress refine upd ?_ ?_; rotate_left; exact rfl
  | split

theorem of_execRelease {s0} (_cycles : List W32) {s : State} (hk : Kept s0 s) : KeptR s0 (execRelease _cycles s) := by
  unfold execRelease
  with_reducible repeat' first
  | assumption
  | apply ite
  | apply State_raise
  | apply State_takeOver
  | apply KeptR.next
  | apply KeptR.ite

theorem State_hobAfterWrite {s0} {s : State} (p : Nat) (hk : Kept s0 s) : Kept s0 (State.hobAfterWrite s p) := by
  unfold State.hobAfterWrite
  with_reducible repeat' first
  | assumption
  | (intro)
  | apply ite
  | apply State_hobRequest
  | apply State_setHobPort

theorem State_hobWriteControl {s0} {s : State} (p : Nat) (v : Nat) (hk : Kept s0 s) : Kept s0 (State.hobWriteControl s p v) := by
  unfold State.hobWriteControl
  with_reducible repeat' first
  | assumption
  | apply ite
  | apply State_hobAfterWrite
  | apply State_hobRecover
  | apply State_setHobPort
  | apply State_capture
  | apply State_setFields

theorem of_execHobModeWrite {s0} (r : Requester) (p : Fin 192) (v : W32) {s : State} (hk : Kept s0 s) : KeptR s0 (execHobModeWrite r p v s) := by
  unfold execHobModeWrite
  with_reducible repeat' first
  | assumption
  | (intro)
  | apply State_writeAs
  | apply State_hobWriteControl
  | apply KeptR.next

theorem State_hobFirstHolds {s0} {s : State} (before : State) (p : Nat) (hk : Kept s0 s) : Kept s0 (State.hobFirstHolds s before p) := by
  unfold State.hobFirstHolds
  with_reducible repeat' first
  | assumption
  | apply ite
  | apply State_sendHold
  | apply foldl

theorem of_execHobModeChange {s0} (p : Fin 192) {s : State} (hk : Kept s0 s) : KeptR s0 (execHobModeChange p s) := by
  unfold execHobModeChange
  with_reducible repeat' first
  | assumption
  | apply ite
  | apply State_hobFirstHolds
  | apply State_hobApplyMode
  | apply KeptR.next

theorem State_hobDrop {s0} {s : State} (p : Nat) (hk : Kept s0 s) : Kept s0 (State.hobDrop s p) := by
  unfold State.hobDrop
  with_reducible repeat' first
  | assumption
  | apply State_count

theorem State_hobForeign {s0} {s : State} (p : Nat) (hk : Kept s0 s) : Kept s0 (State.hobForeign s p) := by
  unfold State.hobForeign
  with_reducible repeat' first
  | assumption
  | apply State_hobPRaise
  | apply State_hobDrop

theorem State_hobPeerEpoch {s0} {s : State} (f : CanFrame) (hk : Kept s0 s) : Kept s0 (State.hobPeerEpoch s f) := by
  unfold State.hobPeerEpoch
  with_reducible repeat' first
  | assumption
  | apply ite
  | apply State_rivalEpoch
  | apply State_setRoleState

theorem State_hobEpoch {s0} {s : State} (p : Nat) (f : CanFrame) (hk : Kept s0 s) : Kept s0 (State.hobEpoch s p f) := by
  unfold State.hobEpoch
  with_reducible repeat' first
  | assumption
  | apply ite
  | apply State_stationEpoch
  | apply State_hobPeerEpoch

theorem State_hobHeard {s0} {s : State} (n : Nat) (stamp : Nat) (hk : Kept s0 s) : Kept s0 (State.hobHeard s n stamp) := by
  unfold State.hobHeard
  with_reducible repeat' first
  | assumption
  | (intro)
  | apply ite
  | apply State_onStation

theorem State_hobImage {s0} {s : State} (d : StationDecl) (stamp : Nat) (f : CanFrame) (hk : Kept s0 s) : Kept s0 (State.hobImage s d stamp f) := by
  unfold State.hobImage
  with_reducible repeat' first
  | assumption
  | apply ite
  | apply State_hobHeard
  | apply State_assemble
  | apply State_segLayout
  | apply State_segBad

theorem State_hobAck {s0} {s : State} (d : StationDecl) (stamp : Nat) (f : CanFrame) (hk : Kept s0 s) : Kept s0 (State.hobAck s d stamp f) := by
  unfold State.hobAck
  with_reducible repeat' first
  | assumption
  | (intro)
  | apply ite
  | apply State_hobHeard
  | apply State_segBad
  | apply State_onStation

theorem State_hobEvent {s0} {s : State} (d : StationDecl) (stamp : Nat) (f : CanFrame) (hk : Kept s0 s) : Kept s0 (State.hobEvent s d stamp f) := by
  unfold State.hobEvent
  with_reducible repeat' first
  | assumption
  | (intro)
  | apply ite
  | apply State_hobHeard
  | apply State_queueEvents
  | apply State_segBad
  | apply State_hobQueue

theorem State_hobStationControl {s0} {s : State} (p : Nat) (stamp : Nat) (f : CanFrame) (hk : Kept s0 s) : Kept s0 (State.hobStationControl s p stamp f) := by
  unfold State.hobStationControl
  with_reducible repeat' first
  | assumption
  | (intro)
  | apply ite
  | apply State_hobHeard
  | apply State_setHobPort

theorem State_hobFollow {s0} {s : State} (p : Nat) (f : CanFrame) (hk : Kept s0 s) : Kept s0 (State.hobFollow s p f) := by
  unfold State.hobFollow
  with_reducible repeat' first
  | assumption
  | apply ite
  | apply State_setHobEff
  | apply State_setHobPort
  | apply State_hobPRaise

theorem State_hobTake {s0} {s : State} (p : Nat) (stamp : Nat) (f : CanFrame) (hk : Kept s0 s) : Kept s0 (State.hobTake s p stamp f) := by
  unfold State.hobTake
  with_reducible repeat' first
  | assumption
  | (intro)
  | apply ite
  | apply State_hobFollow
  | apply State_hobStationControl
  | apply State_hobEvent
  | apply State_hobAck
  | apply State_hobImage
  | apply State_hobEpoch
  | apply State_hobForeign
  | apply State_hobDrop
  | apply State_wake
  | apply State_hobCancelSleep
  | refine snd (by assumption) ?_
  | refine snd2 (by assumption) ?_
  | refine fst (by assumption) ?_
  | refine KeptOpt.get (by assumption) ?_
  | refine KeptO3 (by assumption) ?_
  | fail_if_no_progress refine upd ?_ ?_; rotate_left; exact rfl
  | split

theorem State_hobFifo {s0} {s : State} (p : Nat) (f : CanFrame) (hk : Kept s0 s) : Kept s0 (State.hobFifo s p f) := by
  unfold State.hobFifo
  with_reducible repeat' first
  | assumption
  | apply ite
  | apply State_setHobPort
  | apply State_hobPRaise
  | apply State_hobDrop

theorem State_hobDrain {s0} {s : State} (p : Nat) (hk : Kept s0 s) : Kept s0 (State.hobDrain s p) := by
  unfold State.hobDrain
  with_reducible repeat' first
  | assumption
  | (intro)
  | apply ite
  | apply State_hobTake
  | apply State_hobPump
  | apply State_setHobPort
  | apply foldl

theorem State_hobReceive {s0} {s : State} (p : Nat) (f : CanFrame) (hk : Kept s0 s) : Kept s0 (State.hobReceive s p f) := by
  unfold State.hobReceive
  with_reducible repeat' first
  | assumption
  | apply ite
  | apply State_hobDrain
  | apply State_hobFifo
  | apply State_hobRxGood
  | apply State_countWrap

theorem of_execHobImageFrame {s0} (p : Fin 192) (f : CanFrame) {s : State} (hk : Kept s0 s) : KeptR s0 (execHobImageFrame p f s) := by
  unfold execHobImageFrame
  with_reducible repeat' first
  | assumption
  | apply ite
  | apply State_hobReceive
  | apply KeptR.next
  | apply KeptR.ite

theorem of_execHobAckFrame {s0} (p : Fin 192) (f : CanFrame) {s : State} (hk : Kept s0 s) : KeptR s0 (execHobAckFrame p f s) := by
  unfold execHobAckFrame
  with_reducible repeat' first
  | assumption
  | apply ite
  | apply State_hobReceive
  | apply KeptR.next
  | apply KeptR.ite

theorem of_execHobEventFrame {s0} (p : Fin 192) (f : CanFrame) {s : State} (hk : Kept s0 s) : KeptR s0 (execHobEventFrame p f s) := by
  unfold execHobEventFrame
  with_reducible repeat' first
  | assumption
  | apply ite
  | apply State_hobReceive
  | apply KeptR.next
  | apply KeptR.ite

theorem of_execHobForeignFrame {s0} (p : Fin 192) (_why : Foreign) {s : State} (hk : Kept s0 s) : KeptR s0 (execHobForeignFrame p _why s) := by
  unfold execHobForeignFrame
  with_reducible repeat' first
  | assumption
  | apply ite
  | apply State_hobRxGood
  | apply State_countWrap
  | apply State_hobCancelSleep
  | apply State_hobPump
  | apply State_hobForeign
  | apply KeptR.next
  | apply KeptR.ite

theorem of_execHobPeerFrame {s0} (p : Fin 192) (f : CanFrame) {s : State} (hk : Kept s0 s) : KeptR s0 (execHobPeerFrame p f s) := by
  unfold execHobPeerFrame
  with_reducible repeat' first
  | assumption
  | apply ite
  | apply State_hobReceive
  | apply KeptR.next
  | apply KeptR.ite

theorem of_execHobStationWakeFrame {s0} (p : Fin 192) (f : CanFrame) {s : State} (hk : Kept s0 s) : KeptR s0 (execHobStationWakeFrame p f s) := by
  unfold execHobStationWakeFrame
  with_reducible repeat' first
  | assumption
  | apply ite
  | apply State_hobReceive
  | apply KeptR.next
  | apply KeptR.ite

theorem of_execHobSleepVote {s0} (p : Fin 192) (f : CanFrame) {s : State} (hk : Kept s0 s) : KeptR s0 (execHobSleepVote p f s) := by
  unfold execHobSleepVote
  with_reducible repeat' first
  | assumption
  | apply ite
  | apply State_hobReceive
  | apply KeptR.next
  | apply KeptR.ite

theorem State_hobControlSent {s0} {s : State} (p : Nat) (f : TxFrame) (hk : Kept s0 s) : Kept s0 (State.hobControlSent s p f) := by
  unfold State.hobControlSent
  with_reducible repeat' first
  | assumption
  | apply ite
  | apply State_setHobEff
  | apply State_setHobPort
  | apply State_setFld

theorem of_execHobFrameSent {s0} (p : Fin 192) {s : State} (hk : Kept s0 s) : KeptR s0 (execHobFrameSent p s) := by
  unfold execHobFrameSent
  with_reducible repeat' first
  | assumption
  | apply ite
  | apply State_hobTxGood
  | apply State_countWrap
  | apply State_setHobPort
  | apply State_hobResult
  | apply State_hobPump
  | apply State_hobControlSent
  | apply State_send
  | apply KeptR.next
  | apply KeptR.ite
  | split

theorem of_execHobTxFailed {s0} (p : Fin 192) (how : TxFailure) {s : State} (hk : Kept s0 s) : KeptR s0 (execHobTxFailed p how s) := by
  unfold execHobTxFailed
  with_reducible repeat' first
  | assumption
  | apply State_hobAttemptEnds
  | apply State_hobTxError
  | apply State_hobPRaise
  | apply State_count
  | apply KeptR.next
  | split

theorem of_execHobBackoffEnd {s0} (p : Fin 192) (b : Fin 32) {s : State} (hk : Kept s0 s) : KeptR s0 (execHobBackoffEnd p b s) := by
  unfold execHobBackoffEnd
  with_reducible repeat' first
  | assumption
  | apply ite
  | apply State_hobPump
  | apply State_setHobPort
  | apply KeptR.next
  | apply KeptR.ite

theorem of_execHobTxCancel {s0} (r : Requester) (p : Fin 192) (v : W32) {s : State} (hk : Kept s0 s) : KeptR s0 (execHobTxCancel r p v s) := by
  unfold execHobTxCancel
  with_reducible repeat' first
  | assumption
  | (intro)
  | apply ite
  | apply State_hobCancel
  | apply State_hobPump
  | apply State_writeAs
  | apply KeptR.next

theorem of_execHobRefGuard {s0} (p : Fin 192) {s : State} (hk : Kept s0 s) : KeptR s0 (execHobRefGuard p s) := by
  unfold execHobRefGuard
  with_reducible repeat' first
  | assumption
  | apply ite
  | apply State_setHobPort
  | apply KeptR.next
  | apply KeptR.ite

theorem State_hobReference {s0} {s : State} (p : Nat) (time : Nat) (f : TxFrame) (hk : Kept s0 s) : Kept s0 (State.hobReference s p time f) := by
  unfold State.hobReference
  with_reducible repeat' first
  | assumption
  | apply ite
  | apply State_hobLaunch
  | apply State_hobRelease

theorem of_execHobReferenceLaunch {s0} (p : Fin 192) {s : State} (hk : Kept s0 s) : KeptR s0 (execHobReferenceLaunch p s) := by
  unfold execHobReferenceLaunch
  with_reducible repeat' first
  | assumption
  | (intro)
  | apply ite
  | apply State_hobReference
  | apply State_hobLoseReference
  | apply State_setHobPort
  | apply KeptR.next
  | apply KeptR.ite
  | refine snd (by assumption) ?_
  | refine snd2 (by assumption) ?_
  | refine fst (by assumption) ?_
  | refine KeptOpt.get (by assumption) ?_
  | refine KeptO3 (by assumption) ?_
  | split

theorem of_execHobReferenceLost {s0} (p : Fin 192) {s : State} (hk : Kept s0 s) : KeptR s0 (execHobReferenceLost p s) := by
  unfold execHobReferenceLost
  with_reducible repeat' first
  | assumption
  | apply State_hobPump
  | apply State_hobLoseReference
  | apply State_hobAttemptEnds
  | apply KeptR.next
  | split

theorem of_execHobBusOff {s0} (p : Fin 192) {s : State} (hk : Kept s0 s) : KeptR s0 (execHobBusOff p s) := by
  unfold execHobBusOff
  with_reducible repeat' first
  | assumption
  | apply ite
  | apply State_hobEnterBusOff
  | apply State_setFld
  | apply KeptR.next
  | apply KeptR.ite

theorem of_execHobBusOffRecovery {s0} (p : Fin 192) {s : State} (hk : Kept s0 s) : KeptR s0 (execHobBusOffRecovery p s) := by
  unfold execHobBusOffRecovery
  with_reducible repeat' first
  | assumption
  | apply ite
  | apply State_hobPump
  | apply State_hobRecover
  | apply KeptR.next
  | apply KeptR.ite

theorem of_execHobBusError {s0} (p : Fin 192) (inc : Nat) {s : State} (hk : Kept s0 s) : KeptR s0 (execHobBusError p inc s) := by
  unfold execHobBusError
  with_reducible repeat' first
  | assumption
  | apply ite
  | apply State_hobErrState
  | apply State_setFld
  | apply State_hobPump
  | apply State_hobDrop
  | apply State_hobCancelSleep
  | apply KeptR.next
  | apply KeptR.ite

theorem of_execHobSleepRequest {s0} (r : Requester) (p : Fin 192) {s : State} (hk : Kept s0 s) : KeptR s0 (execHobSleepRequest r p s) := by
  unfold execHobSleepRequest
  with_reducible repeat' first
  | assumption
  | (intro)
  | apply ite
  | apply State_hobControl
  | apply State_setHobEff
  | apply State_writeAs
  | apply State_setHobPort
  | apply State_capture
  | apply State_setFld
  | apply KeptR.next

theorem of_execHobVoteEnd {s0} (p : Fin 192) {s : State} (hk : Kept s0 s) : KeptR s0 (execHobVoteEnd p s) := by
  unfold execHobVoteEnd
  with_reducible repeat' first
  | assumption
  | apply ite
  | apply State_hobControl
  | apply State_setHobPort
  | apply State_setHobEff
  | apply State_hobPRaise
  | apply KeptR.next
  | apply KeptR.ite

theorem of_execHobQuietWindowEnd {s0} (p : Fin 192) {s : State} (hk : Kept s0 s) : KeptR s0 (execHobQuietWindowEnd p s) := by
  unfold execHobQuietWindowEnd
  with_reducible repeat' first
  | assumption
  | apply ite
  | apply State_hobPRaise
  | apply State_hobEnter
  | apply KeptR.next
  | apply KeptR.ite

theorem of_execHobSleepWake {s0} (r : Requester) (p : Fin 192) {s : State} (hk : Kept s0 s) : KeptR s0 (execHobSleepWake r p s) := by
  unfold execHobSleepWake
  with_reducible repeat' first
  | assumption
  | (intro)
  | apply State_writeAs
  | apply State_hobStartRestart
  | apply KeptR.next

theorem of_execHobBusWake {s0} (p : Fin 192) {s : State} (hk : Kept s0 s) : KeptR s0 (execHobBusWake p s) := by
  unfold execHobBusWake
  with_reducible repeat' first
  | assumption
  | apply ite
  | apply State_hobStartRestart
  | apply KeptR.next
  | apply KeptR.ite

theorem of_execHobPortRestarted {s0} (p : Fin 192) {s : State} (hk : Kept s0 s) : KeptR s0 (execHobPortRestarted p s) := by
  unfold execHobPortRestarted
  with_reducible repeat' first
  | assumption
  | (intro)
  | apply ite
  | apply State_hobPRaise
  | apply State_hobEnter
  | apply State_onStation
  | apply State_hobControl
  | apply KeptR.next
  | apply KeptR.ite
  | apply foldl

theorem of_execHobPortMapout {s0} (r : Requester) (p : Fin 192) (v : W32) {s : State} (hk : Kept s0 s) : KeptR s0 (execHobPortMapout r p v s) := by
  unfold execHobPortMapout
  with_reducible repeat' first
  | assumption
  | (intro)
  | apply ite
  | apply State_writeAs
  | apply State_checkService
  | apply State_hobMapOut
  | apply KeptR.next

theorem State_hobSequencerStops {s0} {s : State} (q : Nat) (hk : Kept s0 s) : Kept s0 (State.hobSequencerStops s q) := by
  unfold State.hobSequencerStops
  with_reducible repeat' first
  | assumption
  | (intro)
  | apply State_hobRaise
  | apply State_setFldBit
  | apply State_hobMapOut
  | apply foldl

theorem of_execHobSequencerFault {s0} (q : Fin 12) {s : State} (hk : Kept s0 s) : KeptR s0 (execHobSequencerFault q s) := by
  unfold execHobSequencerFault
  with_reducible repeat' first
  | assumption
  | apply ite
  | apply State_checkService
  | apply State_hobSequencerStops
  | apply KeptR.next
  | apply KeptR.ite

theorem State_showSlot {s0} {s : State} (c : Nat) (hk : Kept s0 s) : Kept s0 (State.showSlot s c) := by
  unfold State.showSlot
  with_reducible repeat' first
  | assumption
  | apply State_setFields

theorem State_rlnRefuse {s0} {s : State} (reason : Nat) (comp : Nat) (hk : Kept s0 s) : Kept s0 (State.rlnRefuse s reason comp) := by
  unfold State.rlnRefuse
  with_reducible repeat' first
  | assumption
  | apply State_raise
  | apply State_capture

theorem State_setRln {s0} {s : State} (v : Nat) (hk : Kept s0 s) : Kept s0 (State.setRln s v) := by
  unfold State.setRln
  with_reducible repeat' first
  | assumption
  | apply State_setFld

theorem State_rlnCommand {s0} {s : State} (r : Requester) (k : State → State) (hk : Kept s0 s) (h_k : ∀ z0, Kept s0 z0 → Kept s0 (k z0)) : Kept s0 (State.rlnCommand s r k) := by
  unfold State.rlnCommand
  with_reducible repeat' first
  | assumption
  | (intro)
  | apply h_k
  | apply State_writeAs

theorem State_rlnBegin {s0} {s : State} (c : Nat) (hk : Kept s0 s) : Kept s0 (State.rlnBegin s c) := by
  unfold State.rlnBegin
  with_reducible repeat' first
  | assumption
  | apply State_setFields
  | apply State_setRln
  | fail_if_no_progress refine upd ?_ ?_; rotate_left; exact rfl

theorem State_rlnBeginOp {s0} {s : State} (hk : Kept s0 s) : Kept s0 (State.rlnBeginOp s) := by
  unfold State.rlnBeginOp
  with_reducible repeat' first
  | assumption
  | apply ite
  | apply State_rlnRefuse
  | apply State_rlnBegin

theorem of_execRlnBegin {s0} (r : Requester) {s : State} (hk : Kept s0 s) : KeptR s0 (execRlnBegin r s) := by
  unfold execRlnBegin
  with_reducible repeat' first
  | assumption
  | (intro)
  | apply State_rlnCommand
  | apply State_rlnBeginOp
  | apply KeptR.next

theorem State_rlnBlock {s0} {s : State} (off : Nat) (data : List Byte) (hk : Kept s0 s) : Kept s0 (State.rlnBlock s off data).2 := by
  unfold State.rlnBlock
  with_reducible repeat' first
  | assumption
  | apply ite
  | apply State_blockWrites
  | apply State_setFld
  | fail_if_no_progress refine upd ?_ ?_; rotate_left; exact rfl
  | split

theorem State_rlnFinalizeOp {s0} {s : State} (hk : Kept s0 s) : Kept s0 (State.rlnFinalizeOp s) := by
  unfold State.rlnFinalizeOp
  with_reducible repeat' first
  | assumption
  | apply ite
  | apply State_setRln
  | apply State_rlnRefuse

theorem of_execRlnFinalize {s0} (r : Requester) {s : State} (hk : Kept s0 s) : KeptR s0 (execRlnFinalize r s) := by
  unfold execRlnFinalize
  with_reducible repeat' first
  | assumption
  | (intro)
  | apply State_rlnCommand
  | apply State_rlnFinalizeOp
  | apply KeptR.next

theorem State_rlnAbortOp {s0} {s : State} (hk : Kept s0 s) : Kept s0 (State.rlnAbortOp s) := by
  unfold State.rlnAbortOp
  with_reducible repeat' first
  | assumption
  | apply ite
  | apply State_rlnRefuse
  | apply State_setFields
  | apply State_setRln
  | fail_if_no_progress refine upd ?_ ?_; rotate_left; exact rfl

theorem of_execRlnAbort {s0} (r : Requester) {s : State} (hk : Kept s0 s) : KeptR s0 (execRlnAbort r s) := by
  unfold execRlnAbort
  with_reducible repeat' first
  | assumption
  | (intro)
  | apply State_rlnCommand
  | apply State_rlnAbortOp
  | apply KeptR.next

theorem State_stagedRead {s0} {s : State} (n : Nat) (hk : Kept s0 s) : Kept s0 (State.stagedRead s n) := by
  unfold State.stagedRead
  with_reducible repeat' first
  | assumption
  | apply ite
  | apply State_flueStream
  | apply State_dramAsked

theorem State_showStaged {s0} {s : State} (hk : Kept s0 s) : Kept s0 (State.showStaged s) := by
  unfold State.showStaged
  with_reducible repeat' first
  | assumption
  | apply State_setFields

theorem State_rlnImageRefused {s0} {s : State} (reason : Nat) (other : Nat) (hk : Kept s0 s) : Kept s0 (State.rlnImageRefused s reason other) := by
  unfold State.rlnImageRefused
  with_reducible repeat' first
  | assumption
  | apply ite
  | apply State_setRln
  | apply State_capture
  | apply State_raise

theorem State_rlnCheck {s0} {u : State} (hk : Kept s0 u) : Kept s0 (State.rlnCheck u) := by
  unfold State.rlnCheck
  with_reducible repeat' first
  | assumption
  | (intro)
  | apply ite
  | apply State_rlnImageRefused
  | apply State_showStaged
  | apply State_stagedRead
  | apply State_setRln
  | apply State_raise
  | refine snd (by assumption) ?_
  | refine snd2 (by assumption) ?_
  | refine fst (by assumption) ?_
  | refine KeptOpt.get (by assumption) ?_
  | refine KeptO3 (by assumption) ?_
  | fail_if_no_progress refine upd ?_ ?_; rotate_left; exact rfl
  | split
  | dsimp only

theorem of_execRlnCheckDone {s0} {s : State} (hk : Kept s0 s) : KeptR s0 (execRlnCheckDone s) := by
  unfold execRlnCheckDone
  with_reducible repeat' first
  | assumption
  | apply ite
  | apply State_rlnCheck
  | apply KeptR.next

theorem State_rlnStep {s0} {s : State} (c : Nat) (step : Nat) (hk : Kept s0 s) : Kept s0 (State.rlnStep s c step) := by
  unfold State.rlnStep
  with_reducible repeat' first
  | assumption
  | apply State_record

theorem State_setSlotState {s0} {s : State} (c : Nat) (v : Nat) (cut : Bool) (hk : Kept s0 s) : Kept s0 (State.setSlotState s c v cut) := by
  unfold State.setSlotState
  with_reducible repeat' first
  | assumption
  | apply State_dirCommit
  | apply State_setFld

theorem State_rlnActivate {s0} {s : State} (hk : Kept s0 s) : Kept s0 (State.rlnActivate s) := by
  unfold State.rlnActivate
  with_reducible repeat' first
  | assumption
  | apply ite
  | apply State_rlnStep
  | apply State_setSlotState
  | apply State_setRln
  | apply State_desync
  | apply State_eraseBlocks

theorem of_execRlnActivate {s0} (r : Requester) {s : State} (hk : Kept s0 s) : KeptR s0 (execRlnActivate r s) := by
  unfold execRlnActivate
  with_reducible repeat' first
  | assumption
  | (intro)
  | apply ite
  | apply State_rlnCommand
  | apply State_rlnRefuse
  | apply State_rlnActivate
  | apply KeptR.next

theorem State_rlnDown {s0} {s : State} (c : Nat) (step : Nat) (hk : Kept s0 s) : Kept s0 (State.rlnDown s c step) := by
  unfold State.rlnDown
  with_reducible repeat' first
  | assumption
  | apply State_raise
  | apply State_setRln
  | apply State_rlnStep
  | apply State_setSlotState

theorem State_stopComponent {s0} {s : State} (c : Nat) (hk : Kept s0 s) : Kept s0 (State.stopComponent s c) := by
  unfold State.stopComponent
  with_reducible repeat' first
  | assumption
  | apply State_setCompUp
  | apply State_closeSessions
  | apply State_setFld
  | apply State_hobAllOff
  | apply State_erairDown
  | split

theorem State_downComponent {s0} {s : State} (c : Nat) (hk : Kept s0 s) : Kept s0 (State.downComponent s c) := by
  unfold State.downComponent
  with_reducible repeat' first
  | assumption
  | (intro)
  | apply ite
  | apply State_checkService
  | apply State_hobSequencerStops
  | apply foldl

theorem State_startComponent {s0} {s : State} (c : Nat) (hk : Kept s0 s) : Kept s0 (State.startComponent s c) := by
  unfold State.startComponent
  with_reducible repeat' first
  | assumption
  | apply ite
  | apply State_setCompUp
  | apply State_setFld
  | apply State_hobRoleChange
  | split

theorem State_rlnMismatch {s0} {s : State} (c : Nat) (len : Nat) (hk : Kept s0 s) : Kept s0 (State.rlnMismatch s c len) := by
  unfold State.rlnMismatch
  with_reducible repeat' first
  | assumption
  | apply ite
  | apply State_rlnDown
  | apply State_rlnStep
  | apply State_stagedRead
  | apply State_showSlot
  | apply State_programFlash
  | apply State_capture
  | apply State_drawBytes

theorem State_rlnMatch {s0} {s : State} (c : Nat) (len : Nat) (hk : Kept s0 s) : Kept s0 (State.rlnMatch s c len) := by
  unfold State.rlnMatch
  with_reducible repeat' first
  | assumption
  | apply ite
  | apply State_stopComponent
  | apply State_setSlotState
  | apply State_rlnStep
  | apply State_stagedRead
  | apply State_showSlot
  | apply State_commitAll
  | apply State_resetUnit
  | apply State_programFlash
  | fail_if_no_progress refine upd ?_ ?_; rotate_left; exact rfl

theorem of_execRlnSlotWritten {s0} (m : Bool) {s : State} (hk : Kept s0 s) : KeptR s0 (execRlnSlotWritten m s) := by
  unfold execRlnSlotWritten
  with_reducible repeat' first
  | assumption
  | (intro)
  | apply ite
  | apply State_rlnMatch
  | apply State_rlnMismatch
  | apply State_readHeld
  | apply KeptR.next

theorem State_advanceAtStart {s0} {s : State} (c : Nat) (hk : Kept s0 s) : Kept s0 (s.advanceAtStart c) := by
  unfold State.advanceAtStart
  refine iteP (fun h => ?_) (fun _ => hk)
  exact State_raise _ (State_raise _ (State_record _ _ _ _ (State_setFld _ _ (updFuses hk (Fuses.Later.counter (Nat.le_of_lt h.2.1))))))

theorem State_rlnStarted {s0} {s : State} (c : Nat) (hk : Kept s0 s) : Kept s0 (State.rlnStarted s c) := by
  unfold State.rlnStarted
  with_reducible repeat' first
  | assumption
  | apply ite
  | apply State_raise
  | apply State_downComponent
  | apply State_rlnDown
  | apply State_setRln
  | apply State_rlnStep
  | apply State_setSlotState
  | apply State_startComponent
  | apply State_advanceAtStart
  | fail_if_no_progress refine upd ?_ ?_; rotate_left; exact rfl
  | split
  | dsimp only

theorem of_execComponentStarted {s0} (comp : Fin 7) {s : State} (hk : Kept s0 s) : KeptR s0 (execComponentStarted comp s) := by
  unfold execComponentStarted
  with_reducible repeat' first
  | assumption
  | apply ite
  | apply State_rlnStarted
  | apply KeptR.next

theorem of_execComponentStartTimeout {s0} (comp : Fin 7) {s : State} (hk : Kept s0 s) : KeptR s0 (execComponentStartTimeout comp s) := by
  unfold execComponentStartTimeout
  with_reducible repeat' first
  | assumption
  | apply ite
  | apply State_downComponent
  | apply State_rlnDown
  | apply KeptR.next
  | apply KeptR.ite
  | fail_if_no_progress refine upd ?_ ?_; rotate_left; exact rfl

theorem State_editRefuse {s0} {s : State} (code : Nat) (hk : Kept s0 s) : Kept s0 (State.editRefuse s code) := by
  unfold State.editRefuse
  with_reducible repeat' first
  | assumption
  | apply ite
  | apply State_capture
  | apply State_raise

theorem State_setEdit {s0} {s : State} (v : Nat) (hk : Kept s0 s) : Kept s0 (State.setEdit s v) := by
  unfold State.setEdit
  with_reducible repeat' first
  | assumption
  | apply State_setFld

theorem State_edtCommand {s0} {s : State} (r : Requester) (k : State → State) (hk : Kept s0 s) (h_k : ∀ z0, Kept s0 z0 → Kept s0 (k z0)) : Kept s0 (State.edtCommand s r k) := by
  unfold State.edtCommand
  with_reducible repeat' first
  | assumption
  | (intro)
  | apply h_k
  | apply State_writeAs

theorem State_dropAsk {s0} {s : State} (hk : Kept s0 s) : Kept s0 (State.dropAsk s) := by
  unfold State.dropAsk
  with_reducible repeat' first
  | assumption
  | apply ite
  | apply State_erairSend
  | apply State_message
  | fail_if_no_progress refine upd ?_ ?_; rotate_left; exact rfl

theorem State_beginLoad {s0} {s : State} (hk : Kept s0 s) : Kept s0 (State.beginLoad s) := by
  unfold State.beginLoad
  have h1 : Kept s0 s.dropAsk := State_dropAsk hk
  with_reducible repeat' first
  | assumption
  | apply ite
  | apply State_eraseBlocks
  | apply State_setFields
  | fail_if_no_progress refine upd ?_ ?_; rotate_left; exact rfl

theorem of_execBeginLoad {s0} (r : Requester) {s : State} (hk : Kept s0 s) : KeptR s0 (execBeginLoad r s) := by
  unfold execBeginLoad
  with_reducible repeat' first
  | assumption
  | (intro)
  | apply ite
  | apply State_beginLoad
  | apply State_edtCommand
  | apply State_editRefuse
  | apply KeptR.next

theorem of_execVerify {s0} (r : Requester) {s : State} (hk : Kept s0 s) : KeptR s0 (execVerify r s) := by
  unfold execVerify
  with_reducible repeat' first
  | assumption
  | (intro)
  | apply ite
  | apply State_edtCommand
  | apply State_setEdit
  | apply State_editRefuse
  | apply KeptR.next

theorem State_stageRead {s0} {s : State} (hk : Kept s0 s) : Kept s0 (State.stageRead s) := by
  unfold State.stageRead
  with_reducible repeat' first
  | assumption
  | apply ite
  | apply State_dramAsked

theorem State_commitPackage {s0} {s : State} (ws : List W36) (hk : Kept s0 s) : Kept s0 (State.commitPackage s ws) := by
  unfold State.commitPackage
  with_reducible repeat' first
  | assumption
  | apply ite
  | apply State_programFlash
  | apply State_eraseBlocks

theorem State_writeRuns {s0} {s : State} (p : Program) (hk : Kept s0 s) : Kept s0 (State.writeRuns s p) := by
  unfold State.writeRuns
  with_reducible repeat' first
  | assumption
  | (intro)
  | apply ite
  | apply State_setCore
  | apply foldl

theorem State_refusePackage {s0} {s : State} (f : Refuse) (hk : Kept s0 s) : Kept s0 (State.refusePackage s f) := by
  unfold State.refusePackage
  with_reducible repeat' first
  | assumption
  | apply ite
  | apply State_stageRead
  | apply State_capture
  | apply State_setFields
  | apply State_raise
  | fail_if_no_progress refine upd ?_ ?_; rotate_left; exact rfl

theorem State_cutPackage {s0} {s : State} (ws : List W36) (hk : Kept s0 s) : Kept s0 (State.cutPackage s ws) := by
  unfold State.cutPackage
  with_reducible repeat' first
  | assumption
  | apply ite
  | apply State_refusePackage
  | apply State_eraseBlocks
  | apply State_programFlash
  | apply State_draw

theorem State_stageProgram {s0} {s : State} (ws : List W36) (hk : Kept s0 s) : Kept s0 (State.stageProgram s ws) := by
  unfold State.stageProgram
  with_reducible repeat' first
  | assumption
  | apply ite
  | apply State_cutPackage
  | apply State_writeRuns
  | apply State_commitPackage
  | apply State_stageRead
  | apply State_writeArea
  | apply State_setFields
  | apply State_raise
  | fail_if_no_progress refine upd ?_ ?_; rotate_left; exact rfl

theorem of_execVerifyDone {s0} (mantelOk : Bool) {s : State} (hk : Kept s0 s) : KeptR s0 (execVerifyDone mantelOk s) := by
  unfold execVerifyDone
  with_reducible repeat' first
  | assumption
  | apply ite
  | apply State_refusePackage
  | apply State_stageProgram
  | apply KeptR.next
  | apply KeptR.ite
  | split
  | dsimp only

theorem of_execEditDiscard {s0} (r : Requester) {s : State} (hk : Kept s0 s) : KeptR s0 (execEditDiscard r s) := by
  unfold execEditDiscard
  with_reducible repeat' first
  | assumption
  | (intro)
  | apply ite
  | apply State_dropAsk
  | apply State_edtCommand
  | apply State_setEdit
  | apply State_editRefuse
  | apply State_setFld
  | apply KeptR.next
  | apply KeptR.ite
  | fail_if_no_progress refine upd ?_ ?_; rotate_left; exact rfl

theorem State_armSwitch {s0} {s : State} (k : Nat) (cyc : Nat) (hk : Kept s0 s) : Kept s0 (State.armSwitch s k cyc) := by
  unfold State.armSwitch
  with_reducible repeat' first
  | assumption
  | apply ite
  | apply State_setEdit
  | apply State_setFields
  | fail_if_no_progress refine upd ?_ ?_; rotate_left; exact rfl

theorem State_armOrAsk {s0} {s : State} (digest : List W32) (hk : Kept s0 s) : Kept s0 (State.armOrAsk s digest) := by
  unfold State.armOrAsk
  with_reducible repeat' first
  | assumption
  | apply ite
  | apply State_armSwitch
  | apply State_erairSend
  | apply State_message
  | fail_if_no_progress refine upd ?_ ?_; rotate_left; exact rfl

theorem State_armCommand {s0} {s : State} (hk : Kept s0 s) : Kept s0 (State.armCommand s) := by
  unfold State.armCommand
  with_reducible repeat' first
  | assumption
  | apply ite
  | apply State_editRefuse
  | apply State_armOrAsk
  | split

theorem of_execArm {s0} (r : Requester) {s : State} (hk : Kept s0 s) : KeptR s0 (execArm r s) := by
  unfold execArm
  with_reducible repeat' first
  | assumption
  | (intro)
  | apply State_edtCommand
  | apply State_armCommand
  | apply KeptR.next

theorem State_rollbackCommand {s0} {s : State} (hk : Kept s0 s) : Kept s0 (State.rollbackCommand s) := by
  unfold State.rollbackCommand
  with_reducible repeat' first
  | assumption
  | apply ite
  | apply State_editRefuse
  | apply State_armOrAsk
  | split

theorem of_execRollbackArm {s0} (r : Requester) {s : State} (hk : Kept s0 s) : KeptR s0 (execRollbackArm r s) := by
  unfold execRollbackArm
  with_reducible repeat' first
  | assumption
  | (intro)
  | apply State_edtCommand
  | apply State_rollbackCommand
  | apply KeptR.next

theorem State_disarm {s0} {s : State} (hk : Kept s0 s) : Kept s0 (State.disarm s) := by
  unfold State.disarm
  with_reducible repeat' first
  | assumption
  | apply ite
  | apply State_setFields
  | apply State_setEdit
  | fail_if_no_progress refine upd ?_ ?_; rotate_left; exact rfl

theorem of_execDisarm {s0} (r : Requester) {s : State} (hk : Kept s0 s) : KeptR s0 (execDisarm r s) := by
  unfold execDisarm
  with_reducible repeat' first
  | assumption
  | (intro)
  | apply ite
  | apply State_disarm
  | apply State_edtCommand
  | apply State_editRefuse
  | apply State_erairSend
  | apply State_message
  | apply KeptR.next

theorem State_activateNow {s0} {s : State} (hk : Kept s0 s) : Kept s0 (State.activateNow s) := by
  unfold State.activateNow
  with_reducible repeat' first
  | assumption
  | (intro)
  | apply ite
  | apply State_dropAsk
  | apply State_editRefuse
  | apply State_activateFull
  | apply State_switchAll
  | refine snd (by assumption) ?_
  | refine snd2 (by assumption) ?_
  | refine fst (by assumption) ?_
  | refine KeptOpt.get (by assumption) ?_
  | refine KeptO3 (by assumption) ?_
  | fail_if_no_progress refine upd ?_ ?_; rotate_left; exact rfl
  | split

theorem of_execActivateNow {s0} (r : Requester) {s : State} (hk : Kept s0 s) : KeptR s0 (execActivateNow r s) := by
  unfold execActivateNow
  with_reducible repeat' first
  | assumption
  | (intro)
  | apply State_edtCommand
  | apply State_activateNow
  | apply KeptR.next

theorem of_execArmMessage {s0} (digest : List W32) (k : Fin 3) (cycle : Nat) {s : State} (hk : Kept s0 s) : KeptR s0 (execArmMessage digest k cycle s) := by
  unfold execArmMessage
  with_reducible repeat' first
  | assumption
  | apply ite
  | apply State_armSwitch
  | apply State_erairSend
  | apply State_message
  | apply KeptR.next
  | apply KeptR.ite

theorem of_execArmAcknowledge {s0} {s : State} (hk : Kept s0 s) : KeptR s0 (execArmAcknowledge s) := by
  unfold execArmAcknowledge
  with_reducible repeat' first
  | assumption
  | apply ite
  | apply State_armSwitch
  | apply KeptR.next
  | apply KeptR.ite
  | split

theorem of_execArmAckTimeout {s0} {s : State} (hk : Kept s0 s) : KeptR s0 (execArmAckTimeout s) := by
  unfold execArmAckTimeout
  with_reducible repeat' first
  | assumption
  | apply ite
  | apply State_editRefuse
  | apply State_erairSend
  | apply State_message
  | apply KeptR.next
  | apply KeptR.ite
  | fail_if_no_progress refine upd ?_ ?_; rotate_left; exact rfl

theorem of_execDisarmMessage {s0} {s : State} (hk : Kept s0 s) : KeptR s0 (execDisarmMessage s) := by
  unfold execDisarmMessage
  with_reducible repeat' first
  | assumption
  | apply ite
  | apply State_disarm
  | apply KeptR.next
  | apply KeptR.ite

theorem State_hostUnassigned {s0} {s : State} (page : Nat) (off : Nat) (hk : Kept s0 s) : Kept s0 (State.hostUnassigned s page off) := by
  unfold State.hostUnassigned
  with_reducible repeat' first
  | assumption
  | apply State_raise
  | apply State_pciCapture

theorem State_hostZeros {s0} {s : State} (write : Bool) (n : Nat) (hk : Kept s0 s) : Kept s0 (State.hostZeros s write n) := by
  unfold State.hostZeros
  with_reducible repeat' first
  | assumption
  | apply ite
  | apply State_send

theorem of_execHostUnassignedAccess {s0} (write : Bool) (page : Nat) (off : Nat) {s : State} (hk : Kept s0 s) : KeptR s0 (execHostUnassignedAccess write page off s) := by
  unfold execHostUnassignedAccess
  with_reducible repeat' first
  | assumption
  | apply ite
  | apply State_hostZeros
  | apply State_hostUnassigned
  | apply KeptR.next

theorem State_setMailbox {s0} {s : State} (m : Nat) (b : Mailbox) (hk : Kept s0 s) : Kept s0 (State.setMailbox s m b) := by
  unfold State.setMailbox
  with_reducible repeat' first
  | assumption
  | fail_if_no_progress refine upd ?_ ?_; rotate_left; exact rfl

theorem State_bankBytes {s0} {s : State} (a : Nat) (bs : List Byte) (hk : Kept s0 s) : Kept s0 (s.bankBytes a bs) :=
  updFlash hk (Memory.wf_putMany _ _)

theorem State_bankWords {s0} {s : State} (off : Nat) (ws : List W36) (hk : Kept s0 s) : Kept s0 (State.bankWords s off ws) := by
  unfold State.bankWords
  with_reducible repeat' first
  | assumption
  | apply ite
  | apply State_bankBytes

theorem State_editReceived {s0} {s : State} (off : Nat) (n : Nat) (hk : Kept s0 s) : Kept s0 (State.editReceived s off n) := by
  unfold State.editReceived
  with_reducible repeat' first
  | assumption
  | apply State_setFld
  | fail_if_no_progress refine upd ?_ ?_; rotate_left; exact rfl

theorem State_editBlock {s0} {s : State} (off : Nat) (data : List Byte) (hk : Kept s0 s) : Kept s0 (State.editBlock s off data).2 := by
  unfold State.editBlock
  with_reducible repeat' first
  | assumption
  | apply ite
  | apply State_editReceived
  | apply State_blockWrites
  | apply State_bankWords
  | split
  | dsimp only

theorem State_deliverBlock {s0} {s : State} (b : Block) (message : State → State) (hk : Kept s0 s) (h_message : ∀ z0, Kept s0 z0 → Kept s0 (message z0)) : Kept s0 (State.deliverBlock s b message).2 := by
  unfold State.deliverBlock
  with_reducible repeat' first
  | assumption
  | (intro)
  | apply ite
  | apply h_message
  | apply State_editBlock
  | apply State_rlnBlock
  | refine snd (by assumption) ?_
  | refine snd2 (by assumption) ?_
  | refine fst (by assumption) ?_
  | split

theorem of_execMailboxDoorbell {s0} (m : Fin 16) (b : Block) (tag : W32) {s : State} (hk : Kept s0 s) : KeptR s0 (execMailboxDoorbell m b tag s) := by
  unfold execMailboxDoorbell
  with_reducible repeat' first
  | assumption
  | (intro)
  | apply ite
  | apply State_setMailbox
  | apply State_deliverBlock
  | apply State_send
  | apply KeptR.next
  | apply KeptR.ite
  | refine snd (by assumption) ?_
  | refine snd2 (by assumption) ?_
  | refine fst (by assumption) ?_
  | fail_if_no_progress refine upd ?_ ?_; rotate_left; exact rfl

theorem of_execMailboxBlockDone {s0} (m : Fin 16) {s : State} (hk : Kept s0 s) : KeptR s0 (execMailboxBlockDone m s) := by
  unfold execMailboxBlockDone
  with_reducible repeat' first
  | assumption
  | apply ite
  | apply State_becamePending
  | apply State_setMailbox
  | apply KeptR.next
  | apply KeptR.ite
  | fail_if_no_progress refine upd ?_ ?_; rotate_left; exact rfl
  | split

theorem of_execMailboxReply {s0} (m : Fin 16) (data : List Byte) {s : State} (hk : Kept s0 s) : KeptR s0 (execMailboxReply m data s) := by
  unfold execMailboxReply
  with_reducible repeat' first
  | assumption
  | apply ite
  | apply State_becamePending
  | apply State_setMailbox
  | apply KeptR.next

theorem of_execMailboxAck {s0} (m : Fin 16) {s : State} (hk : Kept s0 s) : KeptR s0 (execMailboxAck m s) := by
  unfold execMailboxAck
  with_reducible repeat' first
  | assumption
  | apply ite
  | apply State_recheck
  | apply State_setMailbox
  | apply KeptR.next

theorem State_swInt {s0} {s : State} (i : Nat) (hk : Kept s0 s) : Kept s0 (State.swInt s i) := by
  unfold State.swInt
  with_reducible repeat' first
  | assumption
  | apply State_becamePending
  | apply State_setFldBit

theorem of_execPciSwInt {s0} (r : Requester) (v : W32) {s : State} (hk : Kept s0 s) : KeptR s0 (execPciSwInt r v s) := by
  unfold execPciSwInt
  with_reducible repeat' first
  | assumption
  | (intro)
  | apply State_writeAs
  | apply State_swInt
  | apply KeptR.next

end Sys2Proof.Machine.Kept
end

