-- ==== Sys2Proof/Laws/KeptUnits.lean ====
section
/-! SUPPORT. `Kept` for the pair, the units and their commands: one lemma per function, in the order of the model. -/

namespace Sys2Proof.Machine.Kept

theorem State_swClear {s0} {s : State} (v : Nat) (hk : Kept s0 s) : Kept s0 (State.swClear s v) := by
  unfold State.swClear
  with_reducible repeat' first
  | assumption
  | (intro)
  | apply ite
  | apply State_recheck
  | apply State_setFldBit
  | apply foldl

theorem of_execPciSwClear {s0} (r : Requester) (v : W32) {s : State} (hk : Kept s0 s) : KeptR s0 (execPciSwClear r v s) := by
  unfold execPciSwClear
  with_reducible repeat' first
  | assumption
  | (intro)
  | apply State_writeAs
  | apply State_swClear
  | apply KeptR.next

theorem State_tellWake {s0} {s : State} (hk : Kept s0 s) : Kept s0 (State.tellWake s) := by
  unfold State.tellWake
  with_reducible repeat' first
  | assumption
  | apply ite
  | apply State_raise
  | apply State_send
  | fail_if_no_progress refine upd ?_ ?_; rotate_left; exact rfl

theorem of_execPcieDlActive {s0} (speed : BitVec 3) (width : BitVec 3) {s : State} (hk : Kept s0 s) : KeptR s0 (execPcieDlActive speed width s) := by
  unfold execPcieDlActive
  with_reducible repeat' first
  | assumption
  | apply ite
  | apply State_tellWake
  | apply State_setFields
  | apply KeptR.next

theorem State_linkDown {s0} {s : State} (hk : Kept s0 s) : Kept s0 (State.linkDown s) := by
  unfold State.linkDown
  with_reducible repeat' first
  | assumption
  | apply ite
  | apply State_raise
  | apply State_setFld

theorem of_execPcieLinkDown {s0} {s : State} (hk : Kept s0 s) : KeptR s0 (execPcieLinkDown s) := by
  unfold execPcieLinkDown
  with_reducible repeat' first
  | assumption
  | apply State_linkDown
  | apply KeptR.next

theorem of_execPerstFall {s0} {s : State} (hk : Kept s0 s) : KeptR s0 (execPerstFall s) := by
  unfold execPerstFall
  with_reducible repeat' first
  | assumption
  | apply ite
  | apply State_setFields
  | apply State_linkDown
  | apply KeptR.next
  | apply KeptR.ite
  | fail_if_no_progress refine upd ?_ ?_; rotate_left; exact rfl

theorem State_ownerWrite {s0} {s : State} (r : Requester) (page : Nat) (v : Nat) (hk : Kept s0 s) : Kept s0 (State.ownerWrite s r page v) := by
  unfold State.ownerWrite
  with_reducible repeat' first
  | assumption
  | apply ite
  | apply State_setFields

theorem State_unassignedFault {s0} {s : State} (cause : Nat) (page : Nat) (off : Nat) (hk : Kept s0 s) : Kept s0 (State.unassignedFault s cause page off) := by
  unfold State.unassignedFault
  with_reducible repeat' first
  | assumption
  | apply ite
  | apply State_tenderTakes

theorem State_unassignedWrite {s0} {s : State} (r : Requester) (page : Nat) (off : Nat) (hk : Kept s0 s) : Kept s0 (State.unassignedWrite s r page off) := by
  unfold State.unassignedWrite
  with_reducible repeat' first
  | assumption
  | apply State_hostUnassigned
  | apply State_unassignedFault
  | split

theorem of_execOwnerWrite {s0} (r : Requester) (page : Nat) (v : W32) {s : State} (hk : Kept s0 s) : KeptR s0 (execOwnerWrite r page v s) := by
  unfold execOwnerWrite
  with_reducible repeat' first
  | assumption
  | apply ite
  | apply State_unassignedWrite
  | apply State_ownerWrite
  | apply KeptR.next

theorem State_lockOnce {s0} {s : State} (page : Nat) (off : Nat) (k : State → State) (hk : Kept s0 s) (h_k : ∀ z0, Kept s0 z0 → Kept s0 (k z0)) : Kept s0 (State.lockOnce s page off k) := by
  unfold State.lockOnce
  with_reducible repeat' first
  | assumption
  | (intro)
  | apply ite
  | apply h_k
  | fail_if_no_progress refine upd ?_ ?_; rotate_left; exact rfl

theorem of_execSecLsSplitWrite {s0} (r : Requester) (v : W32) {s : State} (hk : Kept s0 s) : KeptR s0 (execSecLsSplitWrite r v s) := by
  unfold execSecLsSplitWrite
  with_reducible repeat' first
  | assumption
  | (intro)
  | apply ite
  | apply State_writeSecure
  | apply State_lockOnce
  | apply State_setFld
  | apply KeptR.next

theorem State_moveRange {s0} {s : State} (f : Fld) (v : Nat) (hk : Kept s0 s) : Kept s0 (State.moveRange s f v) := by
  unfold State.moveRange
  with_reducible repeat' first
  | assumption
  | apply ite
  | apply State_setFld

theorem of_execSecDramRangeWrite {s0} (r : Requester) (limit : Bool) (v : W32) {s : State} (hk : Kept s0 s) : KeptR s0 (execSecDramRangeWrite r limit v s) := by
  unfold execSecDramRangeWrite
  with_reducible repeat' first
  | assumption
  | (intro)
  | apply ite
  | apply State_writeSecure
  | apply State_moveRange
  | apply KeptR.next

theorem State_romExit {s0} {s : State} (v : Nat) (hk : Kept s0 s) : Kept s0 (State.romExit s v) := by
  unfold State.romExit
  with_reducible repeat' first
  | assumption
  | apply ite
  | apply State_setCore
  | apply State_setFld

theorem of_execTenRomExit {s0} (r : Requester) (v : W32) {s : State} (hk : Kept s0 s) : KeptR s0 (execTenRomExit r v s) := by
  unfold execTenRomExit
  with_reducible repeat' first
  | assumption
  | (intro)
  | apply ite
  | apply State_romExit
  | apply State_writeSecure
  | apply KeptR.next

theorem State_fuseEnd {s0} {s : State} (op arg result : Nat) (hk : Kept s0 s) : Kept s0 (s.fuseEnd op arg result) :=
  State_raise _ (State_record _ _ _ _ (State_setFields _ (updFuses hk (Fuses.Later.refl _))))

theorem State_fuseBegin {s0} {s : State} (op arg target : Nat) (hk : Kept s0 s) : Kept s0 (s.fuseBegin op arg target) :=
  State_setFld _ _ (updFuses hk (Fuses.Later.refl _))

theorem State_fuseCommand {s0} {s : State} (r : Requester) (op : Nat) (arg : Nat) (target : Nat) (hk : Kept s0 s) : Kept s0 (State.fuseCommand s r op arg target) := by
  unfold State.fuseCommand
  with_reducible repeat' first
  | assumption
  | (intro)
  | apply ite
  | apply State_writeSecure
  | apply State_fuseEnd
  | apply State_fuseBegin

theorem of_execProgramOemSlot {s0} (r : Requester) (arg : BitVec 7) {s : State} (hk : Kept s0 s) : KeptR s0 (execProgramOemSlot r arg s) := by
  unfold execProgramOemSlot
  with_reducible repeat' first
  | assumption
  | apply State_fuseCommand
  | apply KeptR.next

theorem of_execRevokeOemSlot {s0} (r : Requester) (arg : BitVec 7) {s : State} (hk : Kept s0 s) : KeptR s0 (execRevokeOemSlot r arg s) := by
  unfold execRevokeOemSlot
  with_reducible repeat' first
  | assumption
  | apply State_fuseCommand
  | apply KeptR.next

theorem of_execBlowOemCosign {s0} (r : Requester) {s : State} (hk : Kept s0 s) : KeptR s0 (execBlowOemCosign r s) := by
  unfold execBlowOemCosign
  with_reducible repeat' first
  | assumption
  | apply State_fuseCommand
  | apply KeptR.next

theorem of_execSetDebugKey {s0} (r : Requester) (arg : BitVec 7) {s : State} (hk : Kept s0 s) : KeptR s0 (execSetDebugKey r arg s) := by
  unfold execSetDebugKey
  with_reducible repeat' first
  | assumption
  | apply State_fuseCommand
  | apply KeptR.next

theorem of_execAdvanceAntiRollback {s0} (r : Requester) (arg : BitVec 7) (target : BitVec 7) {s : State} (hk : Kept s0 s) : KeptR s0 (execAdvanceAntiRollback r arg target s) := by
  unfold execAdvanceAntiRollback
  with_reducible repeat' first
  | assumption
  | apply State_fuseCommand
  | apply KeptR.next

theorem of_execFuseDone {s0} (programmed : Bool) {s : State} (hk : Kept s0 s) : KeptR s0 (execFuseDone programmed s) := by
  unfold execFuseDone
  apply KeptR.next
  split
  · exact hk
  · exact ite (State_fuseEnd _ _ _ (updFuses hk (Fuses.Later.program _ _ _ _))) (State_fuseEnd _ _ _ hk)

theorem State_mailWrite {s0} {s : State} (m : Fin 16) (o v : Nat) (hk : Kept s0 s) : Kept s0 (State.mailWrite s m o v) := by
  have hd : ∀ t, execMailboxDoorbell m (s.mailbox m.val).block (s.mailbox m.val).tag s = .next t → Kept s0 t :=
    of_execMailboxDoorbell _ _ _ hk
  have ha : ∀ t, execMailboxAck m s = .next t → Kept s0 t := of_execMailboxAck _ hk
  unfold State.mailWrite
  with_reducible repeat' first
  | assumption
  | exact hd _ (by assumption)
  | exact ha _ (by assumption)
  | apply ite
  | apply State_setMailbox
  | apply State_recheck
  | split

theorem State_msixWrite {s0} {s : State} (v : Nat) (i : Nat) (w : Nat) (hk : Kept s0 s) : Kept s0 (State.msixWrite s v i w) := by
  unfold State.msixWrite
  with_reducible repeat' first
  | assumption
  | apply ite
  | apply State_msixRelease
  | fail_if_no_progress refine upd ?_ ?_; rotate_left; exact rfl

theorem State_bar4Write {s0} {s : State} (a : Nat) (v : Nat) (hk : Kept s0 s) : Kept s0 (State.bar4Write s a v) := by
  unfold State.bar4Write
  with_reducible repeat' first
  | assumption
  | apply ite
  | apply State_msixWrite
  | apply State_mailWrite

theorem State_pmcsrWrite {s0} {s : State} (v : Nat) (hk : Kept s0 s) : Kept s0 (State.pmcsrWrite s v) := by
  unfold State.pmcsrWrite
  with_reducible repeat' first
  | assumption
  | apply ite
  | apply State_msixRelease
  | apply State_setFld
  | fail_if_no_progress refine upd ?_ ?_; rotate_left; exact rfl

theorem State_configWrite {s0} {s : State} (off : Nat) (v : Nat) (hk : Kept s0 s) : Kept s0 (State.configWrite s off v) := by
  unfold State.configWrite
  with_reducible repeat' first
  | assumption
  | apply ite
  | apply State_pmcsrWrite
  | apply State_msixRelease
  | fail_if_no_progress refine upd ?_ ?_; rotate_left; exact rfl

theorem State_barWrite {s0} {s : State} (page : Nat) (off : Nat) (v : Nat) (hk : Kept s0 s) : Kept s0 (State.barWrite s page off v) := by
  unfold State.barWrite
  with_reducible repeat' first
  | assumption
  | apply ite
  | apply State_configWrite
  | apply State_bar4Write

theorem State_hostWord {s0} {s : State} (a : Nat) (hk : Kept s0 s) : Kept s0 (State.hostWord s a).2 := by
  unfold State.hostWord
  with_reducible repeat' first
  | assumption
  | (intro)
  | apply ite
  | apply State_uncorrectableAt
  | apply State_viewRead
  | refine snd (by assumption) ?_
  | refine snd2 (by assumption) ?_
  | refine fst (by assumption) ?_
  | refine KeptOpt.get (by assumption) ?_
  | refine KeptO3 (by assumption) ?_
  | fail_if_no_progress refine upd ?_ ?_; rotate_left; exact rfl
  | split
  | dsimp only

theorem State_hostSlot {s0} {s : State} (i : Nat) (hk : Kept s0 s) : Kept s0 (State.hostSlot s i).2 := by
  unfold State.hostSlot
  with_reducible repeat' first
  | assumption
  | apply ite
  | apply State_hostWord
  | split

theorem State_hostSlotsFrom {s0} {s : State} (i : Nat) (n : Nat) (hk : Kept s0 s) : Kept s0 (State.hostSlotsFrom s i n).2 := by
  unfold State.hostSlotsFrom
  with_reducible repeat' first
  | assumption
  | (intro)
  | apply State_hostSlot
  | apply foldl
  | refine snd (by assumption) ?_
  | refine snd2 (by assumption) ?_
  | refine fst (by assumption) ?_
  | apply foldl1
  | apply foldl2

theorem State_hostBytes {s0} {s : State} (off : Nat) (len : Nat) (hk : Kept s0 s) : Kept s0 (State.hostBytes s off len).2 := by
  unfold State.hostBytes
  with_reducible repeat' first
  | assumption
  | apply ite
  | apply State_hostSlotsFrom
  | apply State_flueAsk

theorem of_execHostImageRead {s0} (off : Nat) (len : Nat) {s : State} (hk : Kept s0 s) : KeptR s0 (execHostImageRead off len s) := by
  unfold execHostImageRead
  with_reducible repeat' first
  | assumption
  | apply ite
  | apply State_hostBytes
  | apply State_send
  | apply KeptR.next
  | apply KeptR.ite

theorem State_hostDiscard {s0} {s : State} (i : Nat) (hk : Kept s0 s) : Kept s0 (State.hostDiscard s i) := by
  unfold State.hostDiscard
  with_reducible repeat' first
  | assumption
  | apply State_raise
  | apply State_capture

theorem State_hostStore {s0} {s : State} (i : Nat) (slot : Nat) (hk : Kept s0 s) : Kept s0 (State.hostStore s i slot) := by
  unfold State.hostStore
  with_reducible repeat' first
  | assumption
  | apply ite
  | apply State_hostDiscard
  | apply State_injectWrite
  | apply State_writeWord
  | apply State_flueSend

theorem State_hostWrite {s0} {s : State} (off : Nat) (data : List Byte) (hk : Kept s0 s) : Kept s0 (State.hostWrite s off data) := by
  unfold State.hostWrite
  with_reducible repeat' first
  | assumption
  | (intro)
  | apply ite
  | apply State_hostStore
  | apply State_hostDiscard
  | apply foldl

theorem of_execHostImageWrite {s0} (off : Nat) (data : List Byte) {s : State} (hk : Kept s0 s) : KeptR s0 (execHostImageWrite off data s) := by
  unfold execHostImageWrite
  with_reducible repeat' first
  | assumption
  | apply ite
  | apply State_hostWrite
  | apply KeptR.next
  | apply KeptR.ite

theorem State_hearthCorrected {s0} {s : State} (hk : Kept s0 s) : Kept s0 (State.hearthCorrected s) := by
  unfold State.hearthCorrected
  with_reducible repeat' first
  | assumption
  | apply State_raise
  | apply State_count

theorem State_scrub {s0} {s : State} (found : Ecc) (hk : Kept s0 s) : Kept s0 (State.scrub s found) := by
  unfold State.scrub
  with_reducible repeat' first
  | assumption
  | apply ite
  | apply State_setFld
  | apply State_hearthCorrected
  | apply State_uncorrectableAt
  | apply State_replaceWord
  | apply State_onHearth
  | split
  | dsimp only

theorem of_execScrubRead {s0} (found : Ecc) {s : State} (hk : Kept s0 s) : KeptR s0 (execScrubRead found s) := by
  unfold execScrubRead
  with_reducible repeat' first
  | assumption
  | apply ite
  | apply State_scrub
  | apply KeptR.next
  | apply KeptR.ite

theorem of_execGranuleCopyRequest {s0} (granule : Nat) {s : State} (hk : Kept s0 s) : KeptR s0 (execGranuleCopyRequest granule s) := by
  unfold execGranuleCopyRequest
  with_reducible repeat' first
  | assumption
  | (intro)
  | apply ite
  | apply State_sendGranule
  | apply State_viewRead
  | apply KeptR.next
  | apply KeptR.ite
  | apply foldl

theorem of_execHrtRetainCapture {s0} (r : Requester) (v : W32) {s : State} (hk : Kept s0 s) : KeptR s0 (execHrtRetainCapture r v s) := by
  unfold execHrtRetainCapture
  with_reducible repeat' first
  | assumption
  | (intro)
  | apply ite
  | apply State_writeAs
  | apply State_startCapture
  | apply KeptR.next

theorem State_blwControl {s0} {s : State} (k : Nat) (v : Nat) (hk : Kept s0 s) : Kept s0 (State.blwControl s k v) := by
  unfold State.blwControl
  with_reducible repeat' first
  | assumption
  | apply ite
  | apply State_setFields
  | apply State_onCls

theorem of_execStallResume {s0} (r : Requester) (k : Fin 3) (v : W32) {s : State} (hk : Kept s0 s) : KeptR s0 (execStallResume r k v s) := by
  unfold execStallResume
  with_reducible repeat' first
  | assumption
  | (intro)
  | apply State_writeAs
  | apply State_blwControl
  | apply KeptR.next

theorem of_execBlwLockWrite {s0} (r : Requester) (k : Fin 3) (v : W32) {s : State} (hk : Kept s0 s) : KeptR s0 (execBlwLockWrite r k v s) := by
  unfold execBlwLockWrite
  with_reducible repeat' first
  | assumption
  | (intro)
  | apply State_writeAs
  | apply State_blwControl
  | apply KeptR.next

theorem State_blwPeriod {s0} {s : State} (k : Nat) (v : Nat) (hk : Kept s0 s) : Kept s0 (State.blwPeriod s k v) := by
  unfold State.blwPeriod
  with_reducible repeat' first
  | assumption
  | apply ite
  | apply State_onCls
  | apply State_setFld

theorem of_execBlwPeriodWrite {s0} (r : Requester) (k : Fin 3) (v : W32) {s : State} (hk : Kept s0 s) : KeptR s0 (execBlwPeriodWrite r k v s) := by
  unfold execBlwPeriodWrite
  with_reducible repeat' first
  | assumption
  | (intro)
  | apply State_writeAs
  | apply State_blwPeriod
  | apply KeptR.next

theorem State_blwOffset {s0} {s : State} (k : Nat) (v : Nat) (hk : Kept s0 s) : Kept s0 (State.blwOffset s k v) := by
  unfold State.blwOffset
  with_reducible repeat' first
  | assumption
  | apply ite
  | apply State_setFld

theorem of_execBlwPhaseOffsetWrite {s0} (r : Requester) (k : Fin 3) (v : W32) {s : State} (hk : Kept s0 s) : KeptR s0 (execBlwPhaseOffsetWrite r k v s) := by
  unfold execBlwPhaseOffsetWrite
  with_reducible repeat' first
  | assumption
  | (intro)
  | apply State_writeAs
  | apply State_blwOffset
  | apply KeptR.next

theorem State_onBlock {s0} {s : State} (b : Nat) (f : Desc → State → State) (hk : Kept s0 s) (h_f : ∀ z0 z1, Kept s0 z1 → Kept s0 (f z0 z1)) : Kept s0 (State.onBlock s b f) := by
  unfold State.onBlock
  with_reducible repeat' first
  | assumption
  | (intro)
  | apply h_f
  | apply State_capture
  | split

theorem State_enableBlock {s0} {s : State} (d : Desc) (hk : Kept s0 s) : Kept s0 (State.enableBlock s d) := by
  unfold State.enableBlock
  with_reducible repeat' first
  | assumption
  | apply ite
  | apply State_logBlock
  | apply State_setBlockRt
  | apply State_onCls
  | apply State_setFld

theorem of_execBlockEnable {s0} (r : Requester) (block : BitVec 20) {s : State} (hk : Kept s0 s) : KeptR s0 (execBlockEnable r block s) := by
  unfold execBlockEnable
  with_reducible repeat' first
  | assumption
  | (intro)
  | apply State_writeAs
  | apply State_onBlock
  | apply State_enableBlock
  | apply KeptR.next

theorem State_disableBlock {s0} {s : State} (d : Desc) (hk : Kept s0 s) : Kept s0 (State.disableBlock s d) := by
  unfold State.disableBlock
  with_reducible repeat' first
  | assumption
  | apply State_logBlock
  | apply State_setBlockRt

theorem of_execBlockDisable {s0} (r : Requester) (block : BitVec 20) {s : State} (hk : Kept s0 s) : KeptR s0 (execBlockDisable r block s) := by
  unfold execBlockDisable
  with_reducible repeat' first
  | assumption
  | (intro)
  | apply State_writeAs
  | apply State_onBlock
  | apply State_disableBlock
  | apply KeptR.next

theorem State_enableInstances {s0} {s : State} (d : Desc) (hk : Kept s0 s) : Kept s0 (State.enableInstances s d) := by
  unfold State.enableInstances
  with_reducible repeat' first
  | assumption
  | (intro)
  | apply ite
  | apply State_setBlockRt
  | apply State_setInstOff
  | apply State_logBlock
  | apply foldl

theorem of_execEnableAllInstances {s0} (r : Requester) (block : BitVec 20) {s : State} (hk : Kept s0 s) : KeptR s0 (execEnableAllInstances r block s) := by
  unfold execEnableAllInstances
  with_reducible repeat' first
  | assumption
  | (intro)
  | apply State_writeAs
  | apply State_onBlock
  | apply State_enableInstances
  | apply KeptR.next

theorem of_execGrateConfigWrite {s0} (r : Requester) (n : Fin 16) (v : W32) {s : State} (hk : Kept s0 s) : KeptR s0 (execGrateConfigWrite r n v s) := by
  unfold execGrateConfigWrite
  with_reducible repeat' first
  | assumption
  | (intro)
  | apply State_writeAs
  | apply State_grateConfig
  | apply KeptR.next

theorem of_execGratePairWrite {s0} (r : Requester) (v : W32) {s : State} (hk : Kept s0 s) : KeptR s0 (execGratePairWrite r v s) := by
  unfold execGratePairWrite
  with_reducible repeat' first
  | assumption
  | (intro)
  | apply State_writeAs
  | apply State_gratePair
  | apply KeptR.next

theorem State_grateProtect {s0} {s : State} (n : Nat) (i : Nat) (f : Fld) (hk : Kept s0 s) : Kept s0 (State.grateProtect s n i f) := by
  unfold State.grateProtect
  with_reducible repeat' first
  | assumption
  | apply ite
  | apply State_setFldBit
  | apply State_setChannel
  | apply State_raise
  | apply State_grtCapture

theorem of_execGrateOverload {s0} (n : Fin 16) {s : State} (hk : Kept s0 s) : KeptR s0 (execGrateOverload n s) := by
  unfold execGrateOverload
  with_reducible repeat' first
  | assumption
  | apply State_grateProtect
  | apply KeptR.next

theorem of_execGrateThermal {s0} (n : Fin 16) {s : State} (hk : Kept s0 s) : KeptR s0 (execGrateThermal n s) := by
  unfold execGrateThermal
  with_reducible repeat' first
  | assumption
  | apply State_grateProtect
  | apply KeptR.next

theorem of_execGrateRetry {s0} (n : Fin 16) {s : State} (hk : Kept s0 s) : KeptR s0 (execGrateRetry n s) := by
  unfold execGrateRetry
  with_reducible repeat' first
  | assumption
  | apply ite
  | apply State_grateOne
  | apply State_setChannel
  | apply KeptR.next
  | apply KeptR.ite

theorem of_execGrateFaultClear {s0} (n : Fin 16) {s : State} (hk : Kept s0 s) : KeptR s0 (execGrateFaultClear n s) := by
  unfold execGrateFaultClear
  with_reducible repeat' first
  | assumption
  | apply ite
  | apply State_setChannel
  | apply State_setFldBit
  | apply KeptR.next
  | apply KeptR.ite

theorem of_execGrateSupplyChange {s0} (g : Fin 2) (mv : Nat) {s : State} (hk : Kept s0 s) : KeptR s0 (execGrateSupplyChange g mv s) := by
  unfold execGrateSupplyChange
  with_reducible repeat' first
  | assumption
  | apply ite
  | apply State_setFld
  | apply State_grateUpdate
  | apply State_raise
  | apply State_grtCapture
  | apply KeptR.next
  | apply KeptR.ite

theorem State_fgdRefuse {s0} {s : State} (guard : Nat) (hk : Kept s0 s) : Kept s0 (State.fgdRefuse s guard) := by
  unfold State.fgdRefuse
  with_reducible repeat' first
  | assumption
  | apply ite
  | apply State_capture
  | apply State_raise

theorem State_fgdSysConfig {s0} {s : State} (v : Nat) (hk : Kept s0 s) : Kept s0 (State.fgdSysConfig s v) := by
  unfold State.fgdSysConfig
  with_reducible repeat' first
  | assumption
  | apply ite
  | apply State_fgdRefuse
  | apply State_setFields
  | fail_if_no_progress refine upd ?_ ?_; rotate_left; exact rfl

theorem State_fgdClConfig {s0} {s : State} (k : Nat) (v : Nat) (hk : Kept s0 s) : Kept s0 (State.fgdClConfig s k v) := by
  unfold State.fgdClConfig
  with_reducible repeat' first
  | assumption
  | apply ite
  | apply State_fgdRefuse
  | apply State_guardPause
  | apply State_setFields
  | apply State_setFldBit

theorem of_execFgdConfigWrite {s0} (r : Requester) (g : Guard) (v : W32) {s : State} (hk : Kept s0 s) : KeptR s0 (execFgdConfigWrite r g v s) := by
  unfold execFgdConfigWrite
  with_reducible repeat' first
  | assumption
  | (intro)
  | apply State_writeAs
  | apply State_fgdSysConfig
  | apply State_fgdClConfig
  | apply KeptR.next
  | split

theorem State_fgdService {s0} {s : State} (v : Nat) (hk : Kept s0 s) : Kept s0 (State.fgdService s v) := by
  unfold State.fgdService
  with_reducible repeat' first
  | assumption
  | apply ite
  | apply State_guardExpires
  | fail_if_no_progress refine upd ?_ ?_; rotate_left; exact rfl

theorem of_execFgdService {s0} (r : Requester) (v : W32) {s : State} (hk : Kept s0 s) : KeptR s0 (execFgdService r v s) := by
  unfold execFgdService
  with_reducible repeat' first
  | assumption
  | (intro)
  | apply State_writeAs
  | apply State_fgdService
  | apply KeptR.next

theorem of_execGuardExpiry {s0} (g : Sys2Proof.Guard) {s : State} (hk : Kept s0 s) : KeptR s0 (execGuardExpiry g s) := by
  unfold execGuardExpiry
  with_reducible repeat' first
  | assumption
  | apply ite
  | apply State_guardLate
  | apply KeptR.next

theorem State_swpRefuse {s0} {s : State} (code : Nat) (hk : Kept s0 s) : Kept s0 (State.swpRefuse s code) := by
  unfold State.swpRefuse
  with_reducible repeat' first
  | assumption
  | apply State_raise
  | apply State_capture

theorem State_swpRequest {s0} {s : State} (v : Nat) (hk : Kept s0 s) : Kept s0 (State.swpRequest s v) := by
  unfold State.swpRequest
  with_reducible repeat' first
  | assumption
  | apply ite
  | apply State_swpRefuse
  | apply State_flueSend
  | apply State_setFields
  | apply State_raise
  | fail_if_no_progress refine upd ?_ ?_; rotate_left; exact rfl

theorem of_execSweepRequest {s0} (r : Requester) (v : W32) {s : State} (hk : Kept s0 s) : KeptR s0 (execSweepRequest r v s) := by
  unfold execSweepRequest
  with_reducible repeat' first
  | assumption
  | (intro)
  | apply State_writeAs
  | apply State_swpRequest
  | apply KeptR.next

theorem State_engineTested {s0} {s : State} (e : Nat) (pass : Bool) (hk : Kept s0 s) : Kept s0 (State.engineTested s e pass) := by
  unfold State.engineTested
  with_reducible repeat' first
  | assumption
  | apply ite
  | apply State_setCore
  | apply State_checkService
  | apply State_setEngState

theorem of_execSweepTestDone {s0} (pass : Bool) (signature : W32) {s : State} (hk : Kept s0 s) : KeptR s0 (execSweepTestDone pass signature s) := by
  unfold execSweepTestDone
  with_reducible repeat' first
  | assumption
  | apply ite
  | apply State_raise
  | apply State_setFields
  | apply State_engineTested
  | apply KeptR.next
  | apply KeptR.ite
  | fail_if_no_progress refine upd ?_ ?_; rotate_left; exact rfl
  | split

theorem State_setLastOffset {s0} {s : State} (d : Nat) (o : ℤ) (hk : Kept s0 s) : Kept s0 (State.setLastOffset s d o) := by
  unfold State.setLastOffset
  with_reducible repeat' first
  | assumption
  | apply ite
  | fail_if_no_progress refine upd ?_ ?_; rotate_left; exact rfl

theorem State_setDomainCtr {s0} {s : State} (d : Nat) (v : ℤ) (hk : Kept s0 s) : Kept s0 (State.setDomainCtr s d v) := by
  unfold State.setDomainCtr
  with_reducible repeat' first
  | assumption
  | apply ite
  | fail_if_no_progress refine upd ?_ ?_; rotate_left; exact rfl

theorem of_execTimedLaunch {s0} (port : Fin 232) {s : State} (hk : Kept s0 s) : KeptR s0 (execTimedLaunch port s) := by
  unfold execTimedLaunch
  with_reducible repeat' first
  | assumption
  | apply ite
  | apply State_launchDue
  | apply KeptR.next

theorem State_stepClass {s0} {s : State} (before : Nat) (k : Nat) (hk : Kept s0 s) : Kept s0 (State.stepClass s before k) := by
  unfold State.stepClass
  with_reducible repeat' first
  | assumption
  | (intro)
  | apply ite
  | apply State_setCls

theorem State_stepCounter {s0} {s : State} (d : Nat) (size : Int) (hk : Kept s0 s) : Kept s0 (State.stepCounter s d size) := by
  unfold State.stepCounter
  with_reducible repeat' first
  | assumption
  | (intro)
  | apply ite
  | apply State_stepClass
  | apply State_setDomainCtr
  | apply State_launchPast
  | apply State_tspRaise
  | apply State_record
  | apply foldl

theorem State_tspContinue {s0} {s : State} (d : Nat) (hk : Kept s0 s) : Kept s0 (State.tspContinue s d) := by
  unfold State.tspContinue
  with_reducible repeat' first
  | assumption
  | apply ite
  | apply State_setFields
  | fail_if_no_progress refine upd ?_ ?_; rotate_left; exact rfl

theorem State_stepDomain {s0} {s : State} (d : Nat) (size : Int) (hk : Kept s0 s) : Kept s0 (State.stepDomain s d size) := by
  unfold State.stepDomain
  with_reducible repeat' first
  | assumption
  | (intro)
  | apply ite
  | apply State_tspContinue
  | apply State_stepCounter
  | apply State_setFld
  | refine snd (by assumption) ?_
  | refine snd2 (by assumption) ?_
  | refine fst (by assumption) ?_
  | refine KeptOpt.get (by assumption) ?_
  | refine KeptO3 (by assumption) ?_
  | fail_if_no_progress refine upd ?_ ?_; rotate_left; exact rfl
  | split

theorem State_servo {s0} {s : State} (d : Nat) (o : ℤ) (hk : Kept s0 s) : Kept s0 (State.servo s d o) := by
  unfold State.servo
  with_reducible repeat' first
  | assumption
  | apply ite
  | apply State_setFields
  | apply State_tspRaise

theorem State_tspSample {s0} {s : State} (d : Nat) (o : ℤ) (hk : Kept s0 s) : Kept s0 (State.tspSample s d o) := by
  unfold State.tspSample
  with_reducible repeat' first
  | assumption
  | apply ite
  | apply State_setFld
  | apply State_setLastOffset
  | apply State_stepDomain
  | apply State_servo

theorem State_tspWrite {s0} {s : State} (r : Requester) (off : Nat) (k : State → State) (hk : Kept s0 s) (h_k : ∀ z0, Kept s0 z0 → Kept s0 (k z0)) : Kept s0 (State.tspWrite s r off k) := by
  unfold State.tspWrite
  with_reducible repeat' first
  | assumption
  | (intro)
  | apply ite
  | apply h_k
  | apply State_writeAs

theorem State_tspOffsetHi {s0} {s : State} (d : Nat) (v : Nat) (hk : Kept s0 s) : Kept s0 (State.tspOffsetHi s d v) := by
  unfold State.tspOffsetHi
  with_reducible repeat' first
  | assumption
  | apply State_tspSample
  | apply State_setFld

theorem State_tspAdjustHi {s0} {s : State} (d : Nat) (v : Nat) (hk : Kept s0 s) : Kept s0 (State.tspAdjustHi s d v) := by
  unfold State.tspAdjustHi
  with_reducible repeat' first
  | assumption
  | apply State_stepDomain
  | apply State_setFld

theorem of_execTspSample {s0} (r : Requester) (d : Fin 2) (hi : W32) {s : State} (hk : Kept s0 s) : KeptR s0 (execTspSample r d hi s) := by
  unfold execTspSample
  with_reducible repeat' first
  | assumption
  | (intro)
  | apply ite
  | apply State_tspWrite
  | apply State_tspOffsetHi
  | apply KeptR.next

theorem of_execTspAdjust {s0} (r : Requester) (d : Fin 2) (hi : W32) {s : State} (hk : Kept s0 s) : KeptR s0 (execTspAdjust r d hi s) := by
  unfold execTspAdjust
  with_reducible repeat' first
  | assumption
  | (intro)
  | apply State_tspWrite
  | apply State_tspAdjustHi
  | apply KeptR.next

theorem State_tspSwitch {s0} {s : State} (d : Nat) (hk : Kept s0 s) : Kept s0 (State.tspSwitch s d) := by
  unfold State.tspSwitch
  with_reducible repeat' first
  | assumption
  | apply ite
  | apply State_tspContinue
  | apply State_tspRaise
  | fail_if_no_progress refine upd ?_ ?_; rotate_left; exact rfl

theorem State_tspSelectTo {s0} {s : State} (d : Nat) (hk : Kept s0 s) : Kept s0 (State.tspSelectTo s d) := by
  unfold State.tspSelectTo
  with_reducible repeat' first
  | assumption
  | apply ite
  | apply State_tspRaise
  | apply State_tspSwitch

theorem State_tspControl {s0} {s : State} (v : Nat) (hk : Kept s0 s) : Kept s0 (State.tspControl s v) := by
  unfold State.tspControl
  with_reducible repeat' first
  | assumption
  | apply State_tspSelectTo
  | apply State_setFld

theorem of_execTspSelect {s0} (r : Requester) (v : W32) {s : State} (hk : Kept s0 s) : KeptR s0 (execTspSelect r v s) := by
  unfold execTspSelect
  with_reducible repeat' first
  | assumption
  | (intro)
  | apply State_tspWrite
  | apply State_tspControl
  | apply KeptR.next

theorem State_tspHold {s0} {s : State} (d : Nat) (hk : Kept s0 s) : Kept s0 (State.tspHold s d) := by
  unfold State.tspHold
  with_reducible repeat' first
  | assumption
  | apply ite
  | apply State_tspRaise
  | apply State_setFld
  | apply State_tspSwitch

theorem of_execTspHoldover {s0} (d : Fin 2) {s : State} (hk : Kept s0 s) : KeptR s0 (execTspHoldover d s) := by
  unfold execTspHoldover
  with_reducible repeat' first
  | assumption
  | apply ite
  | apply State_tspHold
  | apply KeptR.next

theorem of_execTspBleedEnd {s0} {s : State} (hk : Kept s0 s) : KeptR s0 (execTspBleedEnd s) := by
  unfold execTspBleedEnd
  with_reducible repeat' first
  | assumption
  | apply ite
  | apply KeptR.next
  | apply KeptR.ite
  | fail_if_no_progress refine upd ?_ ?_; rotate_left; exact rfl

theorem State_tspReadSys {s0} {s : State} (hk : Kept s0 s) : Kept s0 (State.tspReadSys s).2 := by
  unfold State.tspReadSys
  with_reducible repeat' first
  | assumption
  | fail_if_no_progress refine upd ?_ ?_; rotate_left; exact rfl

theorem State_tspReadDomain {s0} {s : State} (d : Nat) (hk : Kept s0 s) : Kept s0 (State.tspReadDomain s d).2 := by
  unfold State.tspReadDomain
  with_reducible repeat' first
  | assumption
  | apply ite
  | fail_if_no_progress refine upd ?_ ?_; rotate_left; exact rfl

theorem State_tspRead {s0} {s : State} (r : Requester) (off : Nat) (k : State → W32 × State) (hk : Kept s0 s) (h_k : ∀ z0, Kept s0 z0 → Kept s0 (k z0).2) : Kept s0 (State.tspRead s r off k) := by
  unfold State.tspRead
  with_reducible repeat' first
  | assumption
  | (intro)
  | apply ite
  | apply h_k
  | apply State_readAs
  | split

theorem of_execTspSysRead {s0} (r : Requester) {s : State} (hk : Kept s0 s) : KeptR s0 (execTspSysRead r s) := by
  unfold execTspSysRead
  with_reducible repeat' first
  | assumption
  | (intro)
  | apply State_tspRead
  | apply State_tspReadSys
  | apply KeptR.next

theorem of_execTspDomainRead {s0} (r : Requester) (d : Fin 2) {s : State} (hk : Kept s0 s) : KeptR s0 (execTspDomainRead r d s) := by
  unfold execTspDomainRead
  with_reducible repeat' first
  | assumption
  | (intro)
  | apply State_tspRead
  | apply State_tspReadDomain
  | apply KeptR.next

theorem State_ptpStamp {s0} {s : State} (x : Nat) (m : PtpMessage) (hk : Kept s0 s) : Kept s0 (State.ptpStamp s x m) := by
  unfold State.ptpStamp
  with_reducible repeat' first
  | assumption
  | apply ite
  | apply State_send

theorem State_ptpSend {s0} {s : State} (x : Nat) (m : PtpMessage) (hk : Kept s0 s) : Kept s0 (State.ptpSend s x m) := by
  unfold State.ptpSend
  with_reducible repeat' first
  | assumption
  | apply ite
  | apply State_ptpStamp
  | apply State_countWrap

theorem of_execPtpEventMessage {s0} (x : Fin 40) (message : PtpMessage) {s : State} (hk : Kept s0 s) : KeptR s0 (execPtpEventMessage x message s) := by
  unfold execPtpEventMessage
  with_reducible repeat' first
  | assumption
  | apply ite
  | apply State_ptpSend
  | apply State_ptpStamp
  | apply State_rxDrop
  | apply State_message
  | apply State_countWrap
  | apply KeptR.next

theorem State_readReg {s0} {s : State} (secure : Bool) (page : Nat) (off : Nat) (hk : Kept s0 s) : Kept s0 (State.readReg s secure page off).2 := by
  unfold State.readReg
  with_reducible repeat' first
  | assumption
  | apply ite
  | apply State_tspReadSys
  | apply State_tspReadDomain
  | split

theorem State_addrStore {s0} {s : State} (x : Nat) (lo : Nat) (width : Nat) (v : Nat) (hk : Kept s0 s) : Kept s0 (State.addrStore s x lo width v) := by
  unfold State.addrStore
  with_reducible repeat' first
  | assumption
  | apply ite
  | fail_if_no_progress refine upd ?_ ?_; rotate_left; exact rfl

theorem State_writeEntry {s0} {s : State} (f : Fld) (v : Nat) (hk : Kept s0 s) : Kept s0 (State.writeEntry s f v) := by
  unfold State.writeEntry
  with_reducible repeat' first
  | assumption
  | apply ite
  | apply State_addrStore
  | apply State_setFld
  | fail_if_no_progress refine upd ?_ ?_; rotate_left; exact rfl

theorem State_writeField {s0} {s : State} (r : Requester) (fresh : Bool) (rf : RegField) (word : Nat) (hk : Kept s0 s) : Kept s0 (State.writeField s r fresh rf word) := by
  unfold State.writeField
  with_reducible repeat' first
  | assumption
  | apply ite
  | apply State_setFld
  | apply State_raise
  | apply State_secCapture
  | apply State_writeEntry
  | split

theorem State_writeFields {s0} {s : State} (r : Requester) (page : Nat) (off : Nat) (word : Nat) (hk : Kept s0 s) : Kept s0 (State.writeFields s r page off word) := by
  unfold State.writeFields
  with_reducible repeat' first
  | assumption
  | (intro)
  | apply ite
  | apply State_writeField
  | apply foldl
  | fail_if_no_progress refine upd ?_ ?_; rotate_left; exact rfl

theorem State_clearCapture {s0} {s : State} (page : Nat) (hk : Kept s0 s) : Kept s0 (State.clearCapture s page) := by
  unfold State.clearCapture
  with_reducible repeat' first
  | assumption
  | (intro)
  | apply ite
  | apply State_setFld
  | apply foldl

theorem State_clearWake {s0} {s : State} (page : Nat) (hk : Kept s0 s) : Kept s0 (State.clearWake s page) := by
  unfold State.clearWake
  with_reducible repeat' first
  | assumption
  | apply ite
  | apply State_setFields
  | fail_if_no_progress refine upd ?_ ?_; rotate_left; exact rfl

theorem State_recheckPage {s0} {s : State} (page : Nat) (hk : Kept s0 s) : Kept s0 (State.recheckPage s page) := by
  unfold State.recheckPage
  with_reducible repeat' first
  | assumption
  | apply State_recheck
  | split

theorem State_afterWrite {s0} {s : State} (before : State) (page : Nat) (off : Nat) (hk : Kept s0 s) : Kept s0 (State.afterWrite s before page off) := by
  unfold State.afterWrite
  with_reducible repeat' first
  | assumption
  | (intro)
  | apply ite
  | apply State_recheckPage
  | apply State_clearWake
  | apply State_clearCapture
  | apply State_modeWritten
  | apply State_grateUpdate
  | apply State_becamePending
  | refine snd (by assumption) ?_
  | refine snd2 (by assumption) ?_
  | refine fst (by assumption) ?_
  | refine KeptOpt.get (by assumption) ?_
  | refine KeptO3 (by assumption) ?_
  | fail_if_no_progress refine upd ?_ ?_; rotate_left; exact rfl
  | split

theorem State_plainWrite {s0} {s : State} (r : Requester) (page : Nat) (off : Nat) (word : Nat) (hk : Kept s0 s) : Kept s0 (State.plainWrite s r page off word) := by
  unfold State.plainWrite
  with_reducible repeat' first
  | assumption
  | apply ite
  | apply State_afterWrite
  | apply State_writeFields

theorem of_after {s0} {s : State} (o : Result) (hk : Kept s0 s) (ho : KeptR s0 o) : Kept s0 (after s o) := by
  unfold after
  split
  · exact ho _ rfl
  · exact hk

theorem State_blockCtl {s0} {s : State} (r : Requester) (v : W32) (hk : Kept s0 s) : Kept s0 (State.blockCtl s r v) := by
  unfold State.blockCtl
  with_reducible repeat' first
  | assumption
  | apply of_after
  | apply of_execBlockEnable
  | apply of_execBlockDisable
  | apply of_execEnableAllInstances
  | apply KeptR.next
  | split

theorem State_pwrOp {s0} {s : State} (r : Requester) (v : W32) (hk : Kept s0 s) : Kept s0 (State.pwrOp s r v) := by
  unfold State.pwrOp
  with_reducible repeat' first
  | assumption
  | apply of_after
  | apply of_execPwrHold
  | apply of_execPwrRun
  | apply of_execPwrBank
  | apply of_execPwrRake
  | apply of_execPwrRakeOff
  | apply of_execPwrWake
  | apply of_execPwrReset
  | apply KeptR.next
  | split

theorem State_drawEcc {s0} {s : State} (hk : Kept s0 s) : Kept s0 (State.drawEcc s).2 := by
  unfold State.drawEcc
  with_reducible repeat' first
  | assumption
  | apply ite
  | apply State_draw

theorem State_mntOp {s0} {s : State} (r : Requester) (v : W32) (hk : Kept s0 s) : Kept s0 (State.mntOp s r v) := by
  unfold State.mntOp
  with_reducible repeat' first
  | assumption
  | (intro)
  | apply State_drawEcc
  | apply of_after
  | apply of_execMantelRead
  | apply of_execStage
  | apply of_execCommit
  | apply of_execCommitErase
  | apply of_execErase
  | apply of_execMantelDiscard
  | apply of_execParamAppend
  | apply of_execRetainCommit
  | apply State_mntCommand
  | apply State_mntEnd
  | apply KeptR.next
  | refine snd (by assumption) ?_
  | refine snd2 (by assumption) ?_
  | refine fst (by assumption) ?_
  | split

theorem State_edtOp {s0} {s : State} (r : Requester) (v : W32) (hk : Kept s0 s) : Kept s0 (State.edtOp s r v) := by
  unfold State.edtOp
  with_reducible repeat' first
  | assumption
  | apply of_after
  | apply of_execBeginLoad
  | apply of_execVerify
  | apply of_execArm
  | apply of_execDisarm
  | apply of_execRollbackArm
  | apply of_execActivateNow
  | apply of_execEditDiscard
  | apply KeptR.next
  | split

theorem State_rlnOp {s0} {s : State} (r : Requester) (v : W32) (hk : Kept s0 s) : Kept s0 (State.rlnOp s r v) := by
  unfold State.rlnOp
  with_reducible repeat' first
  | assumption
  | apply of_after
  | apply of_execRlnBegin
  | apply of_execRlnFinalize
  | apply of_execRlnActivate
  | apply of_execRlnAbort
  | apply KeptR.next
  | split

theorem State_fuseOp {s0} {s : State} (r : Requester) (v : W32) (hk : Kept s0 s) : Kept s0 (State.fuseOp s r v) := by
  unfold State.fuseOp
  with_reducible repeat' first
  | assumption
  | apply ite
  | apply State_fuseCommand

theorem State_stnOp {s0} {s : State} (r : Requester) (v : W32) (hk : Kept s0 s) : Kept s0 (State.stnOp s r v) := by
  unfold State.stnOp
  with_reducible repeat' first
  | assumption
  | apply of_after
  | apply of_execCloseSession
  | apply of_execStationDisable
  | apply of_execStationEnable
  | apply of_execClearCounters
  | apply of_execInterrogateNow
  | apply KeptR.next
  | split

theorem State_eraOp {s0} {s : State} (r : Requester) (v : W32) (hk : Kept s0 s) : Kept s0 (State.eraOp s r v) := by
  unfold State.eraOp
  with_reducible repeat' first
  | assumption
  | apply of_after
  | apply of_execEraSync
  | apply of_execEraDesync
  | apply of_execEraSwap
  | apply KeptR.next
  | split

theorem State_hobSleep {s0} {s : State} (r : Requester) (p : Fin 192) (v : W32) (hk : Kept s0 s) : Kept s0 (State.hobSleep s r p v) := by
  unfold State.hobSleep
  with_reducible repeat' first
  | assumption
  | apply ite
  | apply of_after
  | apply of_execHobSleepRequest
  | apply of_execHobSleepWake

theorem State_drmOp {s0} {s : State} (r : Requester) (v : W32) (hk : Kept s0 s) : Kept s0 (State.drmOp s r v) := by
  unfold State.drmOp
  with_reducible repeat' first
  | assumption
  | apply of_after
  | apply of_execDrmMapout
  | apply of_execDrmReturn

theorem State_writeOpLow {s0} {s : State} (r : Requester) (page : Nat) (off : Nat) (v : W32) (hk : Kept s0 s) : KeptOpt s0 (State.writeOpLow s r page off v) := by
  unfold State.writeOpLow
  with_reducible repeat' first
  | assumption
  | (intro)
  | apply ite
  | apply State_fuseOp
  | apply State_rlnOp
  | apply State_mntOp
  | apply State_pwrOp
  | apply of_after
  | apply of_execSweepRequest
  | apply of_execFgdService
  | apply of_execFgdConfigWrite
  | apply of_execTenRomExit
  | apply of_execSecDramRangeWrite
  | apply of_execSecLsSplitWrite
  | apply of_execEmberAlarmSet
  | apply of_execEmberTickSet
  | apply State_embTickLo
  | apply of_execEmberHalt
  | apply of_execAshClear
  | apply of_execAshFlush
  | apply KeptOpt.some
  | exact KeptOpt.none
  | apply KeptOpt.ite
  | apply KeptOpt.bind
  | refine snd (by assumption) ?_
  | refine snd2 (by assumption) ?_
  | refine fst (by assumption) ?_
  | refine KeptOpt.get (by assumption) ?_
  | refine KeptO3 (by assumption) ?_
  | split

theorem State_writeOpHigh {s0} {s : State} (r : Requester) (page : Nat) (off : Nat) (v : W32) (hk : Kept s0 s) : KeptOpt s0 (State.writeOpHigh s r page off v) := by
  unfold State.writeOpHigh
  with_reducible repeat' first
  | assumption
  | (intro)
  | apply State_blockCtl
  | apply of_after
  | apply of_execHrtRetainCapture
  | apply State_edtOp
  | apply State_eraOp
  | apply of_execTspSelect
  | apply of_execTspSample
  | apply of_execTspAdjust
  | apply of_execGratePairWrite
  | apply State_drmOp
  | apply of_execPciSwInt
  | apply of_execPciSwClear
  | apply of_execStnSelect
  | apply State_stnOp
  | apply KeptR.next
  | refine KeptOpt.get (by assumption) ?_
  | refine KeptO3 (by assumption) ?_
  | apply KeptOpt.bind
  | apply KeptOpt.some
  | exact KeptOpt.none
  | split

theorem State_writeOpMany {s0} {s : State} (r : Requester) (page : Nat) (off : Nat) (v : W32) (hk : Kept s0 s) : KeptOpt s0 (State.writeOpMany s r page off v) := by
  unfold State.writeOpMany
  with_reducible repeat' first
  | assumption
  | apply ite
  | apply State_hobSleep
  | apply of_after
  | apply of_execGrateConfigWrite
  | apply of_execBlwPhaseOffsetWrite
  | apply of_execBlwPeriodWrite
  | apply of_execStallResume
  | apply of_execHobPortMapout
  | apply of_execHobTxCancel
  | apply of_execHobModeWrite
  | apply of_execPdRequest
  | apply of_execChmPortMapout
  | apply of_execFbxClusterMapout
  | apply of_execFbxEngineMapout
  | apply State_draw
  | apply KeptOpt.some
  | exact KeptOpt.none
  | apply KeptOpt.ite

theorem State_openWrite {s0} {s : State} (r : Requester) (page : Nat) (off : Nat) (v : W32) (hk : Kept s0 s) : Kept s0 (State.openWrite s r page off v) := by
  unfold State.openWrite
  with_reducible repeat' first
  | assumption
  | (intro)
  | apply ite
  | apply State_writeOpLow
  | apply State_writeOpHigh
  | apply State_writeOpMany
  | apply State_writeAs
  | apply State_plainWrite
  | apply KeptR.next
  | apply KeptR.ite
  | refine KeptOpt.get (by assumption) ?_
  | refine KeptO3 (by assumption) ?_
  | apply KeptOpt.bind
  | apply KeptOpt.some
  | exact KeptOpt.none
  | apply KeptOpt.ite
  | split

theorem State_hostCarries {s0} {s : State} (r : Requester) (page : Nat) (off : Nat) (v : W32) (hk : Kept s0 s) : Kept s0 (State.hostCarries s r page off v) := by
  unfold State.hostCarries
  with_reducible repeat' first
  | assumption
  | apply ite
  | apply State_flueSend

theorem State_regWrite {s0} {s : State} (r : Requester) (page : Nat) (off : Nat) (v : W32) (hk : Kept s0 s) : Kept s0 (State.regWrite s r page off v) := by
  unfold State.regWrite
  with_reducible repeat' first
  | assumption
  | (intro)
  | apply ite
  | apply State_hostCarries
  | apply State_openWrite
  | apply of_after
  | apply State_barWrite
  | apply of_execOwnerWrite
  | apply State_unassignedWrite
  | apply State_writeAs

theorem of_execRegisterWrite {s0} (r : Requester) (page : Nat) (off : Nat) (v : W32) {s : State} (hk : Kept s0 s) : KeptR s0 (execRegisterWrite r page off v s) := by
  unfold execRegisterWrite
  with_reducible repeat' first
  | assumption
  | apply State_regWrite
  | apply KeptR.next

theorem State_raiseTrap {s0} {s : State} (c : CoreId) (cause : Nat) (faddr : W36) (hk : Kept s0 s) : KeptOut s0 (State.raiseTrap s c cause faddr) := by
  unfold State.raiseTrap
  with_reducible repeat' first
  | assumption
  | apply KeptOut.done
  | apply KeptOut.trap

theorem State_illegal {s0} {s : State} (c : CoreId) (hk : Kept s0 s) : KeptOut s0 (State.illegal s c) := by
  unfold State.illegal
  with_reducible repeat' first
  | assumption
  | apply State_raiseTrap

theorem State_privTrap {s0} {s : State} (c : CoreId) (hk : Kept s0 s) : KeptOut s0 (State.privTrap s c) := by
  unfold State.privTrap
  with_reducible repeat' first
  | assumption
  | apply State_raiseTrap

theorem State_fin {s0} {s : State} (c : CoreId) (len : Nat) (hk : Kept s0 s) : KeptOut s0 (State.fin s c len) := by
  unfold State.fin
  with_reducible repeat' first
  | assumption
  | apply KeptOut.done

theorem State_noteWorldBy {s0} {s : State} (c : CoreId) (a : W36) (n : Nat) (who : Nat) (hk : Kept s0 s) : Kept s0 (State.noteWorldBy s c a n who) := by
  unfold State.noteWorldBy
  with_reducible repeat' first
  | assumption
  | (intro)
  | apply ite
  | apply State_secCapture
  | apply State_raise
  | refine snd (by assumption) ?_
  | refine snd2 (by assumption) ?_
  | refine fst (by assumption) ?_
  | refine KeptOpt.get (by assumption) ?_
  | refine KeptO3 (by assumption) ?_
  | fail_if_no_progress refine upd ?_ ?_; rotate_left; exact rfl
  | split

theorem State_noteWorld {s0} {s : State} (c : CoreId) (a : W36) (n : Nat) (hk : Kept s0 s) : Kept s0 (State.noteWorld s c a n) := by
  unfold State.noteWorld
  with_reducible repeat' first
  | assumption
  | apply ite
  | apply State_noteWorldBy

theorem State_haltNow {s0} {s : State} (c : CoreId) (cause : Nat) (hk : Kept s0 s) : Kept s0 (State.haltNow s c cause) := by
  unfold State.haltNow
  with_reducible repeat' first
  | assumption
  | apply ite
  | apply State_haltCore
  | apply State_mapCore

theorem State_watch {s0} {s : State} (c : CoreId) (kind : Nat) (a : W36) (len : Nat) (k : State → Out) (hk : Kept s0 s) (h_k : ∀ z0, Kept s0 z0 → KeptOut s0 (k z0)) : KeptOut s0 (State.watch s c kind a len k) := by
  unfold State.watch
  with_reducible repeat' first
  | assumption
  | (intro)
  | apply ite
  | apply h_k
  | apply State_setCore
  | apply State_haltCore
  | apply State_raiseTrap
  | apply State_haltNow
  | apply KeptOut.done
  | apply KeptOut.trap
  | apply KeptOut.stopped
  | apply KeptOut.ite
  | refine KeptOut.ofDone (by assumption) ?_
  | refine KeptOut.ofTrap (by assumption) ?_
  | refine KeptOut.ofStop (by assumption) ?_
  | split

theorem State_landOne {s0} {s : State} (c : CoreId) (l : Load) (rest : List Load) (hk : Kept s0 s) : Kept s0 (State.landOne s c l rest).2 := by
  unfold State.landOne
  with_reducible repeat' first
  | assumption
  | apply ite
  | apply State_mapCore
  | apply State_loadBad
  | split

theorem State_land {s0} {s : State} (c : CoreId) (n : Nat) (ls : List Load) (hk : Kept s0 s) : Kept s0 (s.land c n ls).2 := by
  induction n generalizing s ls with
  | zero => exact hk
  | succ k ih =>
    cases ls with
    | nil => exact hk
    | cons l rest =>
      have h1 := State_landOne c l rest hk
      rw [State.land]
      split
      · rename_i h; rw [h] at h1; exact h1
      · rename_i h; rw [h] at h1; exact ih rest h1

theorem State_interlock {s0} {s : State} (c : CoreId) (srcs : List Reg) (dests : List Reg) (k : State → Out) (hk : Kept s0 s) (h_k : ∀ z0, Kept s0 z0 → KeptOut s0 (k z0)) : KeptOut s0 (State.interlock s c srcs dests k) := by
  unfold State.interlock
  with_reducible repeat' first
  | assumption
  | (intro)
  | apply h_k
  | apply State_land
  | apply KeptOut.done
  | apply KeptOut.trap
  | apply KeptOut.stopped
  | refine snd (by assumption) ?_
  | refine snd2 (by assumption) ?_
  | refine fst (by assumption) ?_
  | refine KeptOut.ofDone (by assumption) ?_
  | refine KeptOut.ofTrap (by assumption) ?_
  | refine KeptOut.ofStop (by assumption) ?_
  | split
  | dsimp only

theorem State_compute {s0} {s : State} (c : CoreId) (len : Nat) (srcs : List Reg) (dests : List Reg) (f : Core → List (Reg × W36)) (hk : Kept s0 s) : KeptOut s0 (State.compute s c len srcs dests f) := by
  unfold State.compute
  with_reducible repeat' first
  | assumption
  | (intro)
  | apply State_interlock
  | apply State_fin
  | apply State_mapCore

theorem State_islandFails {s0} {s : State} (e : Nat) (hk : Kept s0 s) : Kept s0 (State.islandFails s e) := by
  unfold State.islandFails
  with_reducible repeat' first
  | assumption
  | apply ite
  | apply State_failEngine
  | apply State_draw

theorem State_take {s0} {s : State} (c : CoreId) (t : Trap) (hk : Kept s0 s) : Kept s0 (State.take s c t) := by
  unfold State.take
  with_reducible repeat' first
  | assumption
  | (intro)
  | apply ite
  | apply State_islandFails
  | apply State_engineTrap
  | apply State_tenderTakes
  | apply State_landBad
  | refine snd (by assumption) ?_
  | refine snd2 (by assumption) ?_
  | refine fst (by assumption) ?_
  | refine KeptOpt.get (by assumption) ?_
  | refine KeptO3 (by assumption) ?_
  | fail_if_no_progress refine upd ?_ ?_; rotate_left; exact rfl
  | split

theorem State_traceLimit {s0} {s : State} (c : CoreId) (hk : Kept s0 s) : Kept s0 (State.traceLimit s c) := by
  unfold State.traceLimit
  with_reducible repeat' first
  | assumption
  | apply ite
  | apply State_haltNow

theorem State_retire {s0} {s : State} (c : CoreId) (pc : W36) (next : W36) (slot : Option (List (Reg × W36))) (hk : Kept s0 s) : Kept s0 (State.retire s c pc next slot) := by
  unfold State.retire
  with_reducible repeat' first
  | assumption
  | apply State_traceLimit
  | apply State_mapCore

theorem Out_state {s0} {o : Out} (c : CoreId) (pc : W36) (h : KeptOut s0 o) : Kept s0 (Out.state o c pc) := by
  cases o
  · exact State_retire _ _ _ _ h
  · exact State_take _ _ h
  · exact h

theorem State_fetched {s0} {s : State} (c : CoreId) (hk : Kept s0 s) : Kept s0 (State.fetched s c) := by
  unfold State.fetched
  with_reducible repeat' first
  | assumption
  | (intro)
  | apply ite
  | apply State_mapCore

theorem State_badFetched {s0} {s : State} (c : CoreId) (a : Nat) (hk : Kept s0 s) : Kept s0 (State.badFetched s c a) := by
  unfold State.badFetched
  with_reducible repeat' first
  | assumption
  | apply ite
  | apply State_uncorrectableAt

theorem State_fetch {s0} {s : State} (c : CoreId) (len : Nat) (op : Op) (h_op : ∀ t c, Kept s0 t → KeptOut s0 (op t c)) (hk : Kept s0 s) : KeptOut s0 (State.fetch s c len op) := by
  unfold State.fetch
  with_reducible repeat' first
  | assumption
  | (intro)
  | apply ite
  | apply State_badFetched
  | apply State_fetched
  | apply State_watch
  | apply State_noteWorld
  | apply State_raiseTrap
  | apply h_op
  | apply KeptOut.done
  | apply KeptOut.trap
  | apply KeptOut.stopped
  | apply KeptOut.ite
  | refine snd (by assumption) ?_
  | refine snd2 (by assumption) ?_
  | refine fst (by assumption) ?_
  | refine KeptOpt.get (by assumption) ?_
  | refine KeptO3 (by assumption) ?_
  | refine KeptOut.ofDone (by assumption) ?_
  | refine KeptOut.ofTrap (by assumption) ?_
  | refine KeptOut.ofStop (by assumption) ?_
  | split

theorem State_issue {s0} {s : State} (c : CoreId) (len : Nat) (op : Op) (h_op : ∀ t c, Kept s0 t → KeptOut s0 (op t c)) (hk : Kept s0 s) : KeptOut s0 (State.issue s c len op) := by
  unfold State.issue
  with_reducible repeat' first
  | assumption
  | (intro)
  | apply ite
  | apply State_fetch
  | apply State_land
  | apply h_op
  | apply KeptOut.done
  | apply KeptOut.trap
  | apply KeptOut.stopped
  | apply KeptOut.ite
  | refine snd (by assumption) ?_
  | refine snd2 (by assumption) ?_
  | refine fst (by assumption) ?_
  | refine KeptOpt.get (by assumption) ?_
  | refine KeptO3 (by assumption) ?_
  | refine KeptOut.ofDone (by assumption) ?_
  | refine KeptOut.ofTrap (by assumption) ?_
  | refine KeptOut.ofStop (by assumption) ?_
  | split

theorem State_runOp {s0} {s : State} (c : CoreId) (len : Nat) (op : Op) (h_op : ∀ t c, Kept s0 t → KeptOut s0 (op t c)) (hk : Kept s0 s) : Kept s0 (State.runOp s c len op) := by
  unfold State.runOp
  with_reducible repeat' first
  | assumption
  | apply ite
  | apply State_issue
  | apply Out_state

theorem State_loadFault {s0} {s : State} (c : CoreId) (a : W36) (n : Nat) (hk : Kept s0 s) : KeptOut s0 (State.loadFault s c a n) := by
  unfold State.loadFault
  with_reducible repeat' first
  | assumption
  | apply ite
  | apply State_noteWorld
  | apply State_raiseTrap

theorem State_storeFault {s0} {s : State} (c : CoreId) (a : W36) (n : Nat) (hk : Kept s0 s) : KeptOut s0 (State.storeFault s c a n) := by
  unfold State.storeFault
  with_reducible repeat' first
  | assumption
  | apply ite
  | apply State_noteWorld
  | apply State_raiseTrap

theorem State_tenderHearth {s0} {s : State} (a : Nat) (v : W36) (hk : Kept s0 s) : KeptOpt s0 (State.tenderHearth s a v) := by
  unfold State.tenderHearth
  with_reducible repeat' first
  | assumption
  | (intro)
  | apply ite
  | apply State_onHearth
  | apply State_writeWord
  | apply State_injectWrite
  | apply KeptOpt.bind
  | apply KeptOpt.some
  | exact KeptOpt.none
  | apply KeptOpt.ite

theorem State_tenderPage {s0} {s : State} (secure : Bool) (a : Nat) (v : W36) (hk : Kept s0 s) : Kept s0 (State.tenderPage s secure a v) := by
  unfold State.tenderPage
  with_reducible repeat' first
  | assumption
  | apply ite
  | apply State_regWrite
  | apply State_raise
  | apply State_secCapture

theorem State_tenderWord {s0} {s : State} (secure : Bool) (a : Nat) (v : W36) (hk : Kept s0 s) : KeptOpt s0 (State.tenderWord s secure a v) := by
  unfold State.tenderWord
  with_reducible repeat' first
  | assumption
  | (intro)
  | apply ite
  | apply State_tenderHearth
  | apply State_tenderPage
  | apply State_setDram
  | apply KeptOpt.bind
  | apply KeptOpt.some
  | exact KeptOpt.none
  | apply KeptOpt.ite

theorem State_tenderWords {s0} {s : State} (secure : Bool) (a : Nat) (vs : List W36) (hk : Kept s0 s) : KeptOpt s0 (s.tenderWords secure a vs) := by
  induction vs generalizing s a with
  | nil => exact KeptOpt.some hk
  | cons v l ih => exact KeptOpt.bind (State_tenderWord _ _ _ hk) fun t h => ih _ h

theorem State_drain {s0} {s : State} (c : CoreId) (hk : Kept s0 s) : KeptOpt s0 (State.drain s c) := by
  unfold State.drain
  with_reducible repeat' first
  | assumption
  | (intro)
  | apply ite
  | apply State_tenderWords
  | apply State_drainOne
  | apply State_mapCore
  | apply State_pick
  | apply KeptOpt.some
  | exact KeptOpt.none
  | apply KeptOpt.ite
  | apply KeptOpt.bind
  | refine snd (by assumption) ?_
  | refine snd2 (by assumption) ?_
  | refine fst (by assumption) ?_
  | refine KeptOpt.get (by assumption) ?_
  | refine KeptO3 (by assumption) ?_
  | split

theorem State_drains {s0} {s : State} (c : CoreId) (n : Nat) (hk : Kept s0 s) : KeptOpt s0 (s.drains c n) := by
  induction n generalizing s with
  | zero => exact KeptOpt.some hk
  | succ k ih => exact KeptOpt.bind (State_drain _ hk) fun t h => ih h

theorem State_drainsUntil {s0} {s : State} (c : CoreId) (p : Store → Bool) (n : Nat) (hk : Kept s0 s) : KeptOpt s0 (s.drainsUntil c p n) := by
  induction n generalizing s with
  | zero => exact KeptOpt.some hk
  | succ k ih => exact KeptOpt.ite (KeptOpt.bind (State_drain _ hk) fun t h => ih h) (KeptOpt.some hk)

theorem State_onward {s0} {s : State} (c : CoreId) (drained : Option State) (k : State → Out) (hk : Kept s0 s) (h_drained : KeptOpt s0 drained) (h_k : ∀ t, Kept s0 t → KeptOut s0 (k t)) : KeptOut s0 (State.onward s c drained k) := by
  cases drained with
  | none => exact hk
  | some t => exact KeptOut.ite (h_k _ (h_drained _ rfl)) (KeptOut.stopped (h_drained _ rfl))

theorem State_afterDrains {s0} {s : State} (c : CoreId) (n : Nat) (k : State → Out) (hk : Kept s0 s) (h_k : ∀ t, Kept s0 t → KeptOut s0 (k t)) : KeptOut s0 (State.afterDrains s c n k) :=
  State_onward c _ k hk (State_drains c n hk) h_k

theorem State_afterThese {s0} {s : State} (c : CoreId) (p : Store → Bool) (k : State → Out) (hk : Kept s0 s) (h_k : ∀ t, Kept s0 t → KeptOut s0 (k t)) : KeptOut s0 (State.afterThese s c p k) :=
  State_onward c _ k hk (State_drainsUntil c p _ hk) h_k

theorem State_post {s0} {s : State} (c : CoreId) (a : W36) (vs : List W36) (point : Option (BitVec 5)) (hk : Kept s0 s) : KeptOut s0 (State.post s c a vs point) := by
  unfold State.post
  with_reducible repeat' first
  | assumption
  | (intro)
  | apply State_afterDrains
  | apply State_fin
  | apply State_mapCore

theorem State_store {s0} {s : State} (c : CoreId) (a : W36) (vs : List W36) (hk : Kept s0 s) : KeptOut s0 (State.store s c a vs) := by
  unfold State.store
  with_reducible repeat' first
  | assumption
  | (intro)
  | apply ite
  | apply State_post
  | apply State_storeFault
  | apply State_watch
  | apply State_fin
  | apply State_mapCore
  | apply KeptOut.done
  | apply KeptOut.trap
  | apply KeptOut.stopped
  | apply KeptOut.ite
  | refine snd (by assumption) ?_
  | refine snd2 (by assumption) ?_
  | refine fst (by assumption) ?_
  | refine KeptOpt.get (by assumption) ?_
  | refine KeptO3 (by assumption) ?_
  | refine KeptOut.ofDone (by assumption) ?_
  | refine KeptOut.ofTrap (by assumption) ?_
  | refine KeptOut.ofStop (by assumption) ?_
  | split

theorem State_loadWord {s0} {s : State} (c : CoreId) (sp : Space) (a : Nat) (hk : Kept s0 s) : Kept s0 (s.loadWord c sp a).2.2 := by
  have h1 := State_readReg (!isEngine c && (s.at c).inSecure) (pageOf a) (offOf a) hk
  unfold State.loadWord
  generalize (s.at c).forwarded sp a = f
  generalize s.readReg (!isEngine c && (s.at c).inSecure) (pageOf a) (offOf a) = p at *
  generalize s.lsRead (coreKey c) a = x1
  generalize s.hearthLoad c a = x2
  generalize s.hearthBad c a = x3
  generalize s.dramWord a = x4
  generalize (s.at c).lsBad.contains a = x5
  generalize s.dramBad.contains a = x6
  obtain ⟨v, t⟩ := p
  cases f with
  | some v => exact hk
  | none =>
    cases sp with
    | page => exact h1
    | _ => exact hk

theorem State_loadWords {s0} {s : State} (c : CoreId) (sp : Space) (a n : Nat) (hk : Kept s0 s) : Kept s0 (s.loadWords c sp a n).2.2 := by
  induction n generalizing s a with
  | zero => exact hk
  | succ k ih => exact ih _ (State_loadWord c sp a hk)

theorem State_outstand {s0} {s : State} (c : CoreId) (l : Load) (hk : Kept s0 s) : KeptOut s0 (State.outstand s c l) := by
  unfold State.outstand
  with_reducible repeat' first
  | assumption
  | apply State_land
  | apply State_mapCore
  | apply KeptOut.done
  | apply KeptOut.trap
  | apply KeptOut.stopped
  | refine snd (by assumption) ?_
  | refine snd2 (by assumption) ?_
  | refine fst (by assumption) ?_
  | split

theorem State_loadNow {s0} {s : State} (c : CoreId) (ds : List (Reg × W36)) (hk : Kept s0 s) : KeptOut s0 (State.loadNow s c ds) := by
  unfold State.loadNow
  with_reducible repeat' first
  | assumption
  | apply State_mapCore
  | apply KeptOut.done

theorem State_load {s0} {s : State} (c : CoreId) (a : W36) (dests : List Reg) (hk : Kept s0 s) : KeptOut s0 (State.load s c a dests) := by
  unfold State.load
  with_reducible repeat' first
  | assumption
  | (intro)
  | apply ite
  | apply State_loadNow
  | apply State_outstand
  | apply State_loadWords
  | apply State_afterThese
  | apply State_loadFault
  | apply State_watch
  | apply KeptOut.done
  | apply KeptOut.trap
  | apply KeptOut.stopped
  | apply KeptOut.ite
  | refine snd (by assumption) ?_
  | refine snd2 (by assumption) ?_
  | refine fst (by assumption) ?_
  | refine KeptOpt.get (by assumption) ?_
  | refine KeptO3 (by assumption) ?_
  | refine KeptOut.ofDone (by assumption) ?_
  | refine KeptOut.ofTrap (by assumption) ?_
  | refine KeptOut.ofStop (by assumption) ?_
  | split
  | dsimp only

theorem State_imageLoad {s0} {s : State} (c : CoreId) (v : View) (a : W36) (d : Reg) (f : W36 → W36 → W36) (hk : Kept s0 s) : KeptOut s0 (State.imageLoad s c v a d f) := by
  unfold State.imageLoad
  with_reducible repeat' first
  | assumption
  | (intro)
  | apply ite
  | apply State_outstand
  | apply State_afterThese
  | apply State_loadFault
  | apply State_watch
  | apply KeptOut.done
  | apply KeptOut.trap
  | apply KeptOut.stopped
  | apply KeptOut.ite

theorem State_pointStore {s0} {s : State} (c : CoreId) (a : W36) (bit : BitVec 5) (v : W36) (hk : Kept s0 s) : KeptOut s0 (State.pointStore s c a bit v) := by
  unfold State.pointStore
  with_reducible repeat' first
  | assumption
  | (intro)
  | apply ite
  | apply State_post
  | apply State_storeFault
  | apply State_watch
  | apply KeptOut.done
  | apply KeptOut.trap
  | apply KeptOut.stopped
  | apply KeptOut.ite

theorem of_opQ2 {s0} (f : W36 → W36 → Computed) (o : OpA) {c : State} (xx3 : CoreId) (hk : Kept s0 c) : KeptOut s0 (opQ2 f o c xx3) := by
  unfold opQ2
  with_reducible repeat' first
  | assumption
  | apply ite
  | apply State_illegal
  | apply State_compute
  | apply KeptOut.done
  | apply KeptOut.trap
  | apply KeptOut.stopped
  | apply KeptOut.ite

theorem of_opQ2x {s0} (sub : Nat) (f : W36 → W36 → Computed) (o : OpA) {xx3 : State} (xx4 : CoreId) (hk : Kept s0 xx3) : KeptOut s0 (opQ2x sub f o xx3 xx4) := by
  unfold opQ2x
  with_reducible repeat' first
  | assumption
  | apply ite
  | apply State_illegal
  | apply State_compute
  | apply KeptOut.done
  | apply KeptOut.trap
  | apply KeptOut.stopped
  | apply KeptOut.ite

theorem of_opQ1 {s0} (f : W36 → Computed) (o : OpA) {c : State} (xx3 : CoreId) (hk : Kept s0 c) : KeptOut s0 (opQ1 f o c xx3) := by
  unfold opQ1
  with_reducible repeat' first
  | assumption
  | apply ite
  | apply State_illegal
  | apply State_compute
  | apply KeptOut.done
  | apply KeptOut.trap
  | apply KeptOut.stopped
  | apply KeptOut.ite

theorem of_opQI {s0} (f : W36 → W36 → Computed) (o : OpI) {c : State} (xx3 : CoreId) (hk : Kept s0 c) : KeptOut s0 (opQI f o c xx3) := by
  unfold opQI
  with_reducible repeat' first
  | assumption
  | apply State_compute

theorem of_opShift {s0} (f : W36 → W36 → Computed) (o : OpA) {c : State} (xx3 : CoreId) (hk : Kept s0 c) : KeptOut s0 (opShift f o c xx3) := by
  unfold opShift
  with_reducible repeat' first
  | assumption
  | apply ite
  | apply State_illegal
  | apply State_compute
  | apply KeptOut.done
  | apply KeptOut.trap
  | apply KeptOut.stopped
  | apply KeptOut.ite

theorem of_opPair {s0} (f : Nat → Nat → Nat) (o : OpA) {c : State} (xx3 : CoreId) (hk : Kept s0 c) : KeptOut s0 (opPair f o c xx3) := by
  unfold opPair
  with_reducible repeat' first
  | assumption
  | apply ite
  | apply State_illegal
  | apply State_compute
  | apply KeptOut.done
  | apply KeptOut.trap
  | apply KeptOut.stopped
  | apply KeptOut.ite

theorem of_opP2 {s0} (f : W36 → W36 → W36) (o : OpA) {c : State} (xx3 : CoreId) (hk : Kept s0 c) : KeptOut s0 (opP2 f o c xx3) := by
  unfold opP2
  with_reducible repeat' first
  | assumption
  | apply ite
  | apply State_illegal
  | apply State_compute
  | apply KeptOut.done
  | apply KeptOut.trap
  | apply KeptOut.stopped
  | apply KeptOut.ite

theorem of_opW2 {s0} (f : W36 → W36 → W36) (o : OpA) {c : State} (xx3 : CoreId) (hk : Kept s0 c) : KeptOut s0 (opW2 f o c xx3) := by
  unfold opW2
  with_reducible repeat' first
  | assumption
  | apply ite
  | apply State_illegal
  | apply State_compute
  | apply KeptOut.done
  | apply KeptOut.trap
  | apply KeptOut.stopped
  | apply KeptOut.ite

theorem of_opW1 {s0} (f : W36 → W36) (o : OpA) {c : State} (xx3 : CoreId) (hk : Kept s0 c) : KeptOut s0 (opW1 f o c xx3) := by
  unfold opW1
  with_reducible repeat' first
  | assumption
  | apply ite
  | apply State_illegal
  | apply State_compute
  | apply KeptOut.done
  | apply KeptOut.trap
  | apply KeptOut.stopped
  | apply KeptOut.ite

theorem of_opWI {s0} (f : W36 → Nat → W36) (o : OpI) {c : State} (xx3 : CoreId) (hk : Kept s0 c) : KeptOut s0 (opWI f o c xx3) := by
  unfold opWI
  with_reducible repeat' first
  | assumption
  | apply ite
  | apply State_illegal
  | apply State_compute
  | apply KeptOut.done
  | apply KeptOut.trap
  | apply KeptOut.stopped
  | apply KeptOut.ite

theorem of_opLit {s0} (f : W36 → W36) (o : OpL) {c : State} (xx3 : CoreId) (hk : Kept s0 c) : KeptOut s0 (opLit f o c xx3) := by
  unfold opLit
  with_reducible repeat' first
  | assumption
  | apply ite
  | apply State_illegal
  | apply State_compute
  | apply KeptOut.done
  | apply KeptOut.trap
  | apply KeptOut.stopped
  | apply KeptOut.ite

theorem of_opAdd {s0} (o : OpA) {s : State} (c : CoreId) (hk : Kept s0 s) : KeptOut s0 (opAdd o s c) := by
  unfold opAdd
  with_reducible repeat' first
  | assumption
  | apply of_opQ2

theorem of_execAdd {s0} (c : CoreId) (o : OpA) {s : State} (hk : Kept s0 s) : KeptR s0 (execAdd c o s) := by
  unfold execAdd
  with_reducible repeat' first
  | assumption
  | (intro)
  | apply State_runOp
  | apply of_opAdd
  | apply KeptR.next

theorem of_opAddi {s0} (o : OpI) {s : State} (c : CoreId) (hk : Kept s0 s) : KeptOut s0 (opAddi o s c) := by
  unfold opAddi
  with_reducible repeat' first
  | assumption
  | apply of_opQI

theorem of_execAddi {s0} (c : CoreId) (o : OpI) {s : State} (hk : Kept s0 s) : KeptR s0 (execAddi c o s) := by
  unfold execAddi
  with_reducible repeat' first
  | assumption
  | (intro)
  | apply State_runOp
  | apply of_opAddi
  | apply KeptR.next

theorem of_opSub {s0} (o : OpA) {s : State} (c : CoreId) (hk : Kept s0 s) : KeptOut s0 (opSub o s c) := by
  unfold opSub
  with_reducible repeat' first
  | assumption
  | apply of_opQ2

theorem of_execSub {s0} (c : CoreId) (o : OpA) {s : State} (hk : Kept s0 s) : KeptR s0 (execSub c o s) := by
  unfold execSub
  with_reducible repeat' first
  | assumption
  | (intro)
  | apply State_runOp
  | apply of_opSub
  | apply KeptR.next

theorem of_opAdds {s0} (o : OpA) {s : State} (c : CoreId) (hk : Kept s0 s) : KeptOut s0 (opAdds o s c) := by
  unfold opAdds
  with_reducible repeat' first
  | assumption
  | apply of_opQ2

theorem of_execAdds {s0} (c : CoreId) (o : OpA) {s : State} (hk : Kept s0 s) : KeptR s0 (execAdds c o s) := by
  unfold execAdds
  with_reducible repeat' first
  | assumption
  | (intro)
  | apply State_runOp
  | apply of_opAdds
  | apply KeptR.next

theorem of_opSubs {s0} (o : OpA) {s : State} (c : CoreId) (hk : Kept s0 s) : KeptOut s0 (opSubs o s c) := by
  unfold opSubs
  with_reducible repeat' first
  | assumption
  | apply of_opQ2

theorem of_execSubs {s0} (c : CoreId) (o : OpA) {s : State} (hk : Kept s0 s) : KeptR s0 (execSubs c o s) := by
  unfold execSubs
  with_reducible repeat' first
  | assumption
  | (intro)
  | apply State_runOp
  | apply of_opSubs
  | apply KeptR.next

theorem of_opMul {s0} (o : OpA) {s : State} (c : CoreId) (hk : Kept s0 s) : KeptOut s0 (opMul o s c) := by
  unfold opMul
  with_reducible repeat' first
  | assumption
  | apply of_opQ2

theorem of_execMul {s0} (c : CoreId) (o : OpA) {s : State} (hk : Kept s0 s) : KeptR s0 (execMul c o s) := by
  unfold execMul
  with_reducible repeat' first
  | assumption
  | (intro)
  | apply State_runOp
  | apply of_opMul
  | apply KeptR.next

theorem of_opMulh {s0} (o : OpA) {s : State} (c : CoreId) (hk : Kept s0 s) : KeptOut s0 (opMulh o s c) := by
  unfold opMulh
  with_reducible repeat' first
  | assumption
  | apply of_opQ2x

theorem of_execMulh {s0} (c : CoreId) (o : OpA) {s : State} (hk : Kept s0 s) : KeptR s0 (execMulh c o s) := by
  unfold execMulh
  with_reducible repeat' first
  | assumption
  | (intro)
  | apply State_runOp
  | apply of_opMulh
  | apply KeptR.next

theorem of_opMulhu {s0} (o : OpA) {s : State} (c : CoreId) (hk : Kept s0 s) : KeptOut s0 (opMulhu o s c) := by
  unfold opMulhu
  with_reducible repeat' first
  | assumption
  | apply of_opQ2x

theorem of_execMulhu {s0} (c : CoreId) (o : OpA) {s : State} (hk : Kept s0 s) : KeptR s0 (execMulhu c o s) := by
  unfold execMulhu
  with_reducible repeat' first
  | assumption
  | (intro)
  | apply State_runOp
  | apply of_opMulhu
  | apply KeptR.next

theorem of_opDiv {s0} (o : OpA) {s : State} (c : CoreId) (hk : Kept s0 s) : KeptOut s0 (opDiv o s c) := by
  unfold opDiv
  with_reducible repeat' first
  | assumption
  | apply of_opQ2x

theorem of_execDiv {s0} (c : CoreId) (o : OpA) {s : State} (hk : Kept s0 s) : KeptR s0 (execDiv c o s) := by
  unfold execDiv
  with_reducible repeat' first
  | assumption
  | (intro)
  | apply State_runOp
  | apply of_opDiv
  | apply KeptR.next

theorem of_opDivu {s0} (o : OpA) {s : State} (c : CoreId) (hk : Kept s0 s) : KeptOut s0 (opDivu o s c) := by
  unfold opDivu
  with_reducible repeat' first
  | assumption
  | apply of_opQ2x

theorem of_execDivu {s0} (c : CoreId) (o : OpA) {s : State} (hk : Kept s0 s) : KeptR s0 (execDivu c o s) := by
  unfold execDivu
  with_reducible repeat' first
  | assumption
  | (intro)
  | apply State_runOp
  | apply of_opDivu
  | apply KeptR.next

theorem of_opRem {s0} (o : OpA) {s : State} (c : CoreId) (hk : Kept s0 s) : KeptOut s0 (opRem o s c) := by
  unfold opRem
  with_reducible repeat' first
  | assumption
  | apply of_opQ2x

theorem of_execRem {s0} (c : CoreId) (o : OpA) {s : State} (hk : Kept s0 s) : KeptR s0 (execRem c o s) := by
  unfold execRem
  with_reducible repeat' first
  | assumption
  | (intro)
  | apply State_runOp
  | apply of_opRem
  | apply KeptR.next

theorem of_opRemu {s0} (o : OpA) {s : State} (c : CoreId) (hk : Kept s0 s) : KeptOut s0 (opRemu o s c) := by
  unfold opRemu
  with_reducible repeat' first
  | assumption
  | apply of_opQ2x

theorem of_execRemu {s0} (c : CoreId) (o : OpA) {s : State} (hk : Kept s0 s) : KeptR s0 (execRemu c o s) := by
  unfold execRemu
  with_reducible repeat' first
  | assumption
  | (intro)
  | apply State_runOp
  | apply of_opRemu
  | apply KeptR.next

theorem of_opAnd {s0} (o : OpA) {s : State} (c : CoreId) (hk : Kept s0 s) : KeptOut s0 (opAnd o s c) := by
  unfold opAnd
  with_reducible repeat' first
  | assumption
  | apply of_opQ2

theorem of_execAnd {s0} (c : CoreId) (o : OpA) {s : State} (hk : Kept s0 s) : KeptR s0 (execAnd c o s) := by
  unfold execAnd
  with_reducible repeat' first
  | assumption
  | (intro)
  | apply State_runOp
  | apply of_opAnd
  | apply KeptR.next

theorem of_opOr {s0} (o : OpA) {s : State} (c : CoreId) (hk : Kept s0 s) : KeptOut s0 (opOr o s c) := by
  unfold opOr
  with_reducible repeat' first
  | assumption
  | apply of_opQ2

theorem of_execOr {s0} (c : CoreId) (o : OpA) {s : State} (hk : Kept s0 s) : KeptR s0 (execOr c o s) := by
  unfold execOr
  with_reducible repeat' first
  | assumption
  | (intro)
  | apply State_runOp
  | apply of_opOr
  | apply KeptR.next

theorem of_opXor {s0} (o : OpA) {s : State} (c : CoreId) (hk : Kept s0 s) : KeptOut s0 (opXor o s c) := by
  unfold opXor
  with_reducible repeat' first
  | assumption
  | apply of_opQ2

theorem of_execXor {s0} (c : CoreId) (o : OpA) {s : State} (hk : Kept s0 s) : KeptR s0 (execXor c o s) := by
  unfold execXor
  with_reducible repeat' first
  | assumption
  | (intro)
  | apply State_runOp
  | apply of_opXor
  | apply KeptR.next

theorem of_opAndi {s0} (o : OpI) {s : State} (c : CoreId) (hk : Kept s0 s) : KeptOut s0 (opAndi o s c) := by
  unfold opAndi
  with_reducible repeat' first
  | assumption
  | apply of_opQI

theorem of_execAndi {s0} (c : CoreId) (o : OpI) {s : State} (hk : Kept s0 s) : KeptR s0 (execAndi c o s) := by
  unfold execAndi
  with_reducible repeat' first
  | assumption
  | (intro)
  | apply State_runOp
  | apply of_opAndi
  | apply KeptR.next

theorem of_opOri {s0} (o : OpI) {s : State} (c : CoreId) (hk : Kept s0 s) : KeptOut s0 (opOri o s c) := by
  unfold opOri
  with_reducible repeat' first
  | assumption
  | apply of_opQI

theorem of_execOri {s0} (c : CoreId) (o : OpI) {s : State} (hk : Kept s0 s) : KeptR s0 (execOri c o s) := by
  unfold execOri
  with_reducible repeat' first
  | assumption
  | (intro)
  | apply State_runOp
  | apply of_opOri
  | apply KeptR.next

theorem of_opXori {s0} (o : OpI) {s : State} (c : CoreId) (hk : Kept s0 s) : KeptOut s0 (opXori o s c) := by
  unfold opXori
  with_reducible repeat' first
  | assumption
  | apply of_opQI

theorem of_execXori {s0} (c : CoreId) (o : OpI) {s : State} (hk : Kept s0 s) : KeptR s0 (execXori c o s) := by
  unfold execXori
  with_reducible repeat' first
  | assumption
  | (intro)
  | apply State_runOp
  | apply of_opXori
  | apply KeptR.next

theorem of_opShl {s0} (o : OpA) {s : State} (c : CoreId) (hk : Kept s0 s) : KeptOut s0 (opShl o s c) := by
  unfold opShl
  with_reducible repeat' first
  | assumption
  | apply of_opShift

theorem of_execShl {s0} (c : CoreId) (o : OpA) {s : State} (hk : Kept s0 s) : KeptR s0 (execShl c o s) := by
  unfold execShl
  with_reducible repeat' first
  | assumption
  | (intro)
  | apply State_runOp
  | apply of_opShl
  | apply KeptR.next

theorem of_opShr {s0} (o : OpA) {s : State} (c : CoreId) (hk : Kept s0 s) : KeptOut s0 (opShr o s c) := by
  unfold opShr
  with_reducible repeat' first
  | assumption
  | apply of_opShift

theorem of_execShr {s0} (c : CoreId) (o : OpA) {s : State} (hk : Kept s0 s) : KeptR s0 (execShr c o s) := by
  unfold execShr
  with_reducible repeat' first
  | assumption
  | (intro)
  | apply State_runOp
  | apply of_opShr
  | apply KeptR.next

theorem of_opSar {s0} (o : OpA) {s : State} (c : CoreId) (hk : Kept s0 s) : KeptOut s0 (opSar o s c) := by
  unfold opSar
  with_reducible repeat' first
  | assumption
  | apply of_opShift

theorem of_execSar {s0} (c : CoreId) (o : OpA) {s : State} (hk : Kept s0 s) : KeptR s0 (execSar c o s) := by
  unfold execSar
  with_reducible repeat' first
  | assumption
  | (intro)
  | apply State_runOp
  | apply of_opSar
  | apply KeptR.next

theorem of_opMin {s0} (o : OpA) {s : State} (c : CoreId) (hk : Kept s0 s) : KeptOut s0 (opMin o s c) := by
  unfold opMin
  with_reducible repeat' first
  | assumption
  | apply of_opQ2

theorem of_execMin {s0} (c : CoreId) (o : OpA) {s : State} (hk : Kept s0 s) : KeptR s0 (execMin c o s) := by
  unfold execMin
  with_reducible repeat' first
  | assumption
  | (intro)
  | apply State_runOp
  | apply of_opMin
  | apply KeptR.next

theorem of_opMax {s0} (o : OpA) {s : State} (c : CoreId) (hk : Kept s0 s) : KeptOut s0 (opMax o s c) := by
  unfold opMax
  with_reducible repeat' first
  | assumption
  | apply of_opQ2

theorem of_execMax {s0} (c : CoreId) (o : OpA) {s : State} (hk : Kept s0 s) : KeptR s0 (execMax c o s) := by
  unfold execMax
  with_reducible repeat' first
  | assumption
  | (intro)
  | apply State_runOp
  | apply of_opMax
  | apply KeptR.next

theorem of_opAddp {s0} (o : OpA) {s : State} (c : CoreId) (hk : Kept s0 s) : KeptOut s0 (opAddp o s c) := by
  unfold opAddp
  with_reducible repeat' first
  | assumption
  | apply of_opPair

theorem of_execAddp {s0} (c : CoreId) (o : OpA) {s : State} (hk : Kept s0 s) : KeptR s0 (execAddp c o s) := by
  unfold execAddp
  with_reducible repeat' first
  | assumption
  | (intro)
  | apply State_runOp
  | apply of_opAddp
  | apply KeptR.next

theorem of_opSubp {s0} (o : OpA) {s : State} (c : CoreId) (hk : Kept s0 s) : KeptOut s0 (opSubp o s c) := by
  unfold opSubp
  with_reducible repeat' first
  | assumption
  | apply of_opPair

theorem of_execSubp {s0} (c : CoreId) (o : OpA) {s : State} (hk : Kept s0 s) : KeptR s0 (execSubp c o s) := by
  unfold execSubp
  with_reducible repeat' first
  | assumption
  | (intro)
  | apply State_runOp
  | apply of_opSubp
  | apply KeptR.next

theorem of_opLiq {s0} (o : OpL) {s : State} (c : CoreId) (hk : Kept s0 s) : KeptOut s0 (opLiq o s c) := by
  unfold opLiq
  with_reducible repeat' first
  | assumption
  | apply of_opLit

theorem of_execLiq {s0} (c : CoreId) (o : OpL) {s : State} (hk : Kept s0 s) : KeptR s0 (execLiq c o s) := by
  unfold execLiq
  with_reducible repeat' first
  | assumption
  | (intro)
  | apply State_runOp
  | apply of_opLiq
  | apply KeptR.next

theorem of_opSel {s0} (o : OpA) {s : State} (c : CoreId) (hk : Kept s0 s) : KeptOut s0 (opSel o s c) := by
  unfold opSel
  with_reducible repeat' first
  | assumption
  | apply ite
  | apply State_illegal
  | apply State_compute
  | apply KeptOut.done
  | apply KeptOut.trap
  | apply KeptOut.stopped
  | apply KeptOut.ite

theorem of_execSel {s0} (c : CoreId) (o : OpA) {s : State} (hk : Kept s0 s) : KeptR s0 (execSel c o s) := by
  unfold execSel
  with_reducible repeat' first
  | assumption
  | (intro)
  | apply State_runOp
  | apply of_opSel
  | apply KeptR.next

theorem of_opMov {s0} (o : OpA) {s : State} (c : CoreId) (hk : Kept s0 s) : KeptOut s0 (opMov o s c) := by
  unfold opMov
  with_reducible repeat' first
  | assumption
  | apply ite
  | apply State_illegal
  | apply State_compute
  | apply KeptOut.done
  | apply KeptOut.trap
  | apply KeptOut.stopped
  | apply KeptOut.ite

theorem of_execMov {s0} (c : CoreId) (o : OpA) {s : State} (hk : Kept s0 s) : KeptR s0 (execMov c o s) := by
  unfold execMov
  with_reducible repeat' first
  | assumption
  | (intro)
  | apply State_runOp
  | apply of_opMov
  | apply KeptR.next

theorem of_opAdda {s0} (o : OpI) {s : State} (c : CoreId) (hk : Kept s0 s) : KeptOut s0 (opAdda o s c) := by
  unfold opAdda
  with_reducible repeat' first
  | assumption
  | apply State_compute

theorem of_execAdda {s0} (c : CoreId) (o : OpI) {s : State} (hk : Kept s0 s) : KeptR s0 (execAdda c o s) := by
  unfold execAdda
  with_reducible repeat' first
  | assumption
  | (intro)
  | apply State_runOp
  | apply of_opAdda
  | apply KeptR.next

theorem of_opAddar {s0} (o : OpA) {s : State} (c : CoreId) (hk : Kept s0 s) : KeptOut s0 (opAddar o s c) := by
  unfold opAddar
  with_reducible repeat' first
  | assumption
  | apply of_opP2

theorem of_execAddar {s0} (c : CoreId) (o : OpA) {s : State} (hk : Kept s0 s) : KeptR s0 (execAddar c o s) := by
  unfold execAddar
  with_reducible repeat' first
  | assumption
  | (intro)
  | apply State_runOp
  | apply of_opAddar
  | apply KeptR.next

theorem of_opSuba {s0} (o : OpA) {s : State} (c : CoreId) (hk : Kept s0 s) : KeptOut s0 (opSuba o s c) := by
  unfold opSuba
  with_reducible repeat' first
  | assumption
  | apply of_opP2

theorem of_execSuba {s0} (c : CoreId) (o : OpA) {s : State} (hk : Kept s0 s) : KeptR s0 (execSuba c o s) := by
  unfold execSuba
  with_reducible repeat' first
  | assumption
  | (intro)
  | apply State_runOp
  | apply of_opSuba
  | apply KeptR.next

theorem of_opLi {s0} (o : OpL) {s : State} (c : CoreId) (hk : Kept s0 s) : KeptOut s0 (opLi o s c) := by
  unfold opLi
  with_reducible repeat' first
  | assumption
  | apply of_opLit

theorem of_execLi {s0} (c : CoreId) (o : OpL) {s : State} (hk : Kept s0 s) : KeptR s0 (execLi c o s) := by
  unfold execLi
  with_reducible repeat' first
  | assumption
  | (intro)
  | apply State_runOp
  | apply of_opLi
  | apply KeptR.next

theorem of_opMovp {s0} (o : OpA) {s : State} (c : CoreId) (hk : Kept s0 s) : KeptOut s0 (opMovp o s c) := by
  unfold opMovp
  with_reducible repeat' first
  | assumption
  | apply ite
  | apply State_illegal
  | apply State_compute
  | apply KeptOut.done
  | apply KeptOut.trap
  | apply KeptOut.stopped
  | apply KeptOut.ite

theorem of_execMovp {s0} (c : CoreId) (o : OpA) {s : State} (hk : Kept s0 s) : KeptR s0 (execMovp c o s) := by
  unfold execMovp
  with_reducible repeat' first
  | assumption
  | (intro)
  | apply State_runOp
  | apply of_opMovp
  | apply KeptR.next

theorem of_opShla {s0} (o : OpA) {s : State} (c : CoreId) (hk : Kept s0 s) : KeptOut s0 (opShla o s c) := by
  unfold opShla
  with_reducible repeat' first
  | assumption
  | apply ite
  | apply State_illegal
  | apply State_compute
  | apply KeptOut.done
  | apply KeptOut.trap
  | apply KeptOut.stopped
  | apply KeptOut.ite

theorem of_execShla {s0} (c : CoreId) (o : OpA) {s : State} (hk : Kept s0 s) : KeptR s0 (execShla c o s) := by
  unfold execShla
  with_reducible repeat' first
  | assumption
  | (intro)
  | apply State_runOp
  | apply of_opShla
  | apply KeptR.next

theorem of_opCeq {s0} (o : OpA) {s : State} (c : CoreId) (hk : Kept s0 s) : KeptOut s0 (opCeq o s c) := by
  unfold opCeq
  with_reducible repeat' first
  | assumption
  | apply of_opQ2

theorem of_execCeq {s0} (c : CoreId) (o : OpA) {s : State} (hk : Kept s0 s) : KeptR s0 (execCeq c o s) := by
  unfold execCeq
  with_reducible repeat' first
  | assumption
  | (intro)
  | apply State_runOp
  | apply of_opCeq
  | apply KeptR.next

theorem of_opCne {s0} (o : OpA) {s : State} (c : CoreId) (hk : Kept s0 s) : KeptOut s0 (opCne o s c) := by
  unfold opCne
  with_reducible repeat' first
  | assumption
  | apply of_opQ2

theorem of_execCne {s0} (c : CoreId) (o : OpA) {s : State} (hk : Kept s0 s) : KeptR s0 (execCne c o s) := by
  unfold execCne
  with_reducible repeat' first
  | assumption
  | (intro)
  | apply State_runOp
  | apply of_opCne
  | apply KeptR.next

theorem of_opClt {s0} (o : OpA) {s : State} (c : CoreId) (hk : Kept s0 s) : KeptOut s0 (opClt o s c) := by
  unfold opClt
  with_reducible repeat' first
  | assumption
  | apply of_opQ2

theorem of_execClt {s0} (c : CoreId) (o : OpA) {s : State} (hk : Kept s0 s) : KeptR s0 (execClt c o s) := by
  unfold execClt
  with_reducible repeat' first
  | assumption
  | (intro)
  | apply State_runOp
  | apply of_opClt
  | apply KeptR.next

theorem of_opCle {s0} (o : OpA) {s : State} (c : CoreId) (hk : Kept s0 s) : KeptOut s0 (opCle o s c) := by
  unfold opCle
  with_reducible repeat' first
  | assumption
  | apply of_opQ2

theorem of_execCle {s0} (c : CoreId) (o : OpA) {s : State} (hk : Kept s0 s) : KeptR s0 (execCle c o s) := by
  unfold execCle
  with_reducible repeat' first
  | assumption
  | (intro)
  | apply State_runOp
  | apply of_opCle
  | apply KeptR.next

theorem of_opCltu {s0} (o : OpA) {s : State} (c : CoreId) (hk : Kept s0 s) : KeptOut s0 (opCltu o s c) := by
  unfold opCltu
  with_reducible repeat' first
  | assumption
  | apply of_opQ2

theorem of_execCltu {s0} (c : CoreId) (o : OpA) {s : State} (hk : Kept s0 s) : KeptR s0 (execCltu c o s) := by
  unfold execCltu
  with_reducible repeat' first
  | assumption
  | (intro)
  | apply State_runOp
  | apply of_opCltu
  | apply KeptR.next

theorem of_opCleu {s0} (o : OpA) {s : State} (c : CoreId) (hk : Kept s0 s) : KeptOut s0 (opCleu o s c) := by
  unfold opCleu
  with_reducible repeat' first
  | assumption
  | apply of_opQ2

theorem of_execCleu {s0} (c : CoreId) (o : OpA) {s : State} (hk : Kept s0 s) : KeptR s0 (execCleu c o s) := by
  unfold execCleu
  with_reducible repeat' first
  | assumption
  | (intro)
  | apply State_runOp
  | apply of_opCleu
  | apply KeptR.next

theorem of_opCeqi {s0} (o : OpI) {s : State} (c : CoreId) (hk : Kept s0 s) : KeptOut s0 (opCeqi o s c) := by
  unfold opCeqi
  with_reducible repeat' first
  | assumption
  | apply of_opQI

theorem of_execCeqi {s0} (c : CoreId) (o : OpI) {s : State} (hk : Kept s0 s) : KeptR s0 (execCeqi c o s) := by
  unfold execCeqi
  with_reducible repeat' first
  | assumption
  | (intro)
  | apply State_runOp
  | apply of_opCeqi
  | apply KeptR.next

theorem of_opClti {s0} (o : OpI) {s : State} (c : CoreId) (hk : Kept s0 s) : KeptOut s0 (opClti o s c) := by
  unfold opClti
  with_reducible repeat' first
  | assumption
  | apply of_opQI

theorem of_execClti {s0} (c : CoreId) (o : OpI) {s : State} (hk : Kept s0 s) : KeptR s0 (execClti c o s) := by
  unfold execClti
  with_reducible repeat' first
  | assumption
  | (intro)
  | apply State_runOp
  | apply of_opClti
  | apply KeptR.next

theorem of_opCgti {s0} (o : OpI) {s : State} (c : CoreId) (hk : Kept s0 s) : KeptOut s0 (opCgti o s c) := by
  unfold opCgti
  with_reducible repeat' first
  | assumption
  | apply of_opQI

theorem of_execCgti {s0} (c : CoreId) (o : OpI) {s : State} (hk : Kept s0 s) : KeptR s0 (execCgti c o s) := by
  unfold execCgti
  with_reducible repeat' first
  | assumption
  | (intro)
  | apply State_runOp
  | apply of_opCgti
  | apply KeptR.next

theorem of_opFceq {s0} (o : OpA) {s : State} (c : CoreId) (hk : Kept s0 s) : KeptOut s0 (opFceq o s c) := by
  unfold opFceq
  with_reducible repeat' first
  | assumption
  | apply of_opQ2

theorem of_execFceq {s0} (c : CoreId) (o : OpA) {s : State} (hk : Kept s0 s) : KeptR s0 (execFceq c o s) := by
  unfold execFceq
  with_reducible repeat' first
  | assumption
  | (intro)
  | apply State_runOp
  | apply of_opFceq
  | apply KeptR.next

theorem of_opFclt {s0} (o : OpA) {s : State} (c : CoreId) (hk : Kept s0 s) : KeptOut s0 (opFclt o s c) := by
  unfold opFclt
  with_reducible repeat' first
  | assumption
  | apply of_opQ2

theorem of_execFclt {s0} (c : CoreId) (o : OpA) {s : State} (hk : Kept s0 s) : KeptR s0 (execFclt c o s) := by
  unfold execFclt
  with_reducible repeat' first
  | assumption
  | (intro)
  | apply State_runOp
  | apply of_opFclt
  | apply KeptR.next

theorem of_opFcle {s0} (o : OpA) {s : State} (c : CoreId) (hk : Kept s0 s) : KeptOut s0 (opFcle o s c) := by
  unfold opFcle
  with_reducible repeat' first
  | assumption
  | apply of_opQ2

theorem of_execFcle {s0} (c : CoreId) (o : OpA) {s : State} (hk : Kept s0 s) : KeptR s0 (execFcle c o s) := by
  unfold execFcle
  with_reducible repeat' first
  | assumption
  | (intro)
  | apply State_runOp
  | apply of_opFcle
  | apply KeptR.next

theorem of_opFadd {s0} (o : OpA) {s : State} (c : CoreId) (hk : Kept s0 s) : KeptOut s0 (opFadd o s c) := by
  unfold opFadd
  with_reducible repeat' first
  | assumption
  | apply of_opQ2

theorem of_execFadd {s0} (c : CoreId) (o : OpA) {s : State} (hk : Kept s0 s) : KeptR s0 (execFadd c o s) := by
  unfold execFadd
  with_reducible repeat' first
  | assumption
  | (intro)
  | apply State_runOp
  | apply of_opFadd
  | apply KeptR.next

theorem of_opFsub {s0} (o : OpA) {s : State} (c : CoreId) (hk : Kept s0 s) : KeptOut s0 (opFsub o s c) := by
  unfold opFsub
  with_reducible repeat' first
  | assumption
  | apply of_opQ2

theorem of_execFsub {s0} (c : CoreId) (o : OpA) {s : State} (hk : Kept s0 s) : KeptR s0 (execFsub c o s) := by
  unfold execFsub
  with_reducible repeat' first
  | assumption
  | (intro)
  | apply State_runOp
  | apply of_opFsub
  | apply KeptR.next

theorem of_opFmul {s0} (o : OpA) {s : State} (c : CoreId) (hk : Kept s0 s) : KeptOut s0 (opFmul o s c) := by
  unfold opFmul
  with_reducible repeat' first
  | assumption
  | apply of_opQ2

theorem of_execFmul {s0} (c : CoreId) (o : OpA) {s : State} (hk : Kept s0 s) : KeptR s0 (execFmul c o s) := by
  unfold execFmul
  with_reducible repeat' first
  | assumption
  | (intro)
  | apply State_runOp
  | apply of_opFmul
  | apply KeptR.next

theorem of_opFdiv {s0} (o : OpA) {s : State} (c : CoreId) (hk : Kept s0 s) : KeptOut s0 (opFdiv o s c) := by
  unfold opFdiv
  with_reducible repeat' first
  | assumption
  | apply of_opQ2

theorem of_execFdiv {s0} (c : CoreId) (o : OpA) {s : State} (hk : Kept s0 s) : KeptR s0 (execFdiv c o s) := by
  unfold execFdiv
  with_reducible repeat' first
  | assumption
  | (intro)
  | apply State_runOp
  | apply of_opFdiv
  | apply KeptR.next

end Sys2Proof.Machine.Kept
end

