-- ==== Sys2Proof/Laws/KeptPower.lean ====
section
/-! SUPPORT. `Kept` for power, Kindling, Poker and the rest: one lemma per function, in the order of the model. -/

namespace Sys2Proof.Machine.Kept

theorem of_opFsqrt {s0} (o : OpA) {s : State} (c : CoreId) (hk : Kept s0 s) : KeptOut s0 (opFsqrt o s c) := by
  unfold opFsqrt
  with_reducible repeat' first
  | assumption
  | apply of_opQ1

theorem of_execFsqrt {s0} (c : CoreId) (o : OpA) {s : State} (hk : Kept s0 s) : KeptR s0 (execFsqrt c o s) := by
  unfold execFsqrt
  with_reducible repeat' first
  | assumption
  | (intro)
  | apply State_runOp
  | apply of_opFsqrt
  | apply KeptR.next

theorem of_opFmin {s0} (o : OpA) {s : State} (c : CoreId) (hk : Kept s0 s) : KeptOut s0 (opFmin o s c) := by
  unfold opFmin
  with_reducible repeat' first
  | assumption
  | apply of_opQ2

theorem of_execFmin {s0} (c : CoreId) (o : OpA) {s : State} (hk : Kept s0 s) : KeptR s0 (execFmin c o s) := by
  unfold execFmin
  with_reducible repeat' first
  | assumption
  | (intro)
  | apply State_runOp
  | apply of_opFmin
  | apply KeptR.next

theorem of_opFmax {s0} (o : OpA) {s : State} (c : CoreId) (hk : Kept s0 s) : KeptOut s0 (opFmax o s c) := by
  unfold opFmax
  with_reducible repeat' first
  | assumption
  | apply of_opQ2

theorem of_execFmax {s0} (c : CoreId) (o : OpA) {s : State} (hk : Kept s0 s) : KeptR s0 (execFmax c o s) := by
  unfold execFmax
  with_reducible repeat' first
  | assumption
  | (intro)
  | apply State_runOp
  | apply of_opFmax
  | apply KeptR.next

theorem of_opFabs {s0} (o : OpA) {s : State} (c : CoreId) (hk : Kept s0 s) : KeptOut s0 (opFabs o s c) := by
  unfold opFabs
  with_reducible repeat' first
  | assumption
  | apply of_opQ1

theorem of_execFabs {s0} (c : CoreId) (o : OpA) {s : State} (hk : Kept s0 s) : KeptR s0 (execFabs c o s) := by
  unfold execFabs
  with_reducible repeat' first
  | assumption
  | (intro)
  | apply State_runOp
  | apply of_opFabs
  | apply KeptR.next

theorem of_opFneg {s0} (o : OpA) {s : State} (c : CoreId) (hk : Kept s0 s) : KeptOut s0 (opFneg o s c) := by
  unfold opFneg
  with_reducible repeat' first
  | assumption
  | apply of_opQ1

theorem of_execFneg {s0} (c : CoreId) (o : OpA) {s : State} (hk : Kept s0 s) : KeptR s0 (execFneg c o s) := by
  unfold execFneg
  with_reducible repeat' first
  | assumption
  | (intro)
  | apply State_runOp
  | apply of_opFneg
  | apply KeptR.next

theorem of_opFcvtif {s0} (o : OpA) {s : State} (c : CoreId) (hk : Kept s0 s) : KeptOut s0 (opFcvtif o s c) := by
  unfold opFcvtif
  with_reducible repeat' first
  | assumption
  | apply of_opQ1

theorem of_execFcvtif {s0} (c : CoreId) (o : OpA) {s : State} (hk : Kept s0 s) : KeptR s0 (execFcvtif c o s) := by
  unfold execFcvtif
  with_reducible repeat' first
  | assumption
  | (intro)
  | apply State_runOp
  | apply of_opFcvtif
  | apply KeptR.next

theorem of_opFcvtfi {s0} (o : OpA) {s : State} (c : CoreId) (hk : Kept s0 s) : KeptOut s0 (opFcvtfi o s c) := by
  unfold opFcvtfi
  with_reducible repeat' first
  | assumption
  | apply ite
  | apply State_illegal
  | apply State_compute
  | apply KeptOut.done
  | apply KeptOut.trap
  | apply KeptOut.stopped
  | apply KeptOut.ite

theorem of_execFcvtfi {s0} (c : CoreId) (o : OpA) {s : State} (hk : Kept s0 s) : KeptR s0 (execFcvtfi c o s) := by
  unfold execFcvtfi
  with_reducible repeat' first
  | assumption
  | (intro)
  | apply State_runOp
  | apply of_opFcvtfi
  | apply KeptR.next

theorem of_opQget {s0} (o : OpA) {s : State} (c : CoreId) (hk : Kept s0 s) : KeptOut s0 (opQget o s c) := by
  unfold opQget
  with_reducible repeat' first
  | assumption
  | apply of_opW1

theorem of_execQget {s0} (c : CoreId) (o : OpA) {s : State} (hk : Kept s0 s) : KeptR s0 (execQget c o s) := by
  unfold execQget
  with_reducible repeat' first
  | assumption
  | (intro)
  | apply State_runOp
  | apply of_opQget
  | apply KeptR.next

theorem of_opQset {s0} (o : OpA) {s : State} (c : CoreId) (hk : Kept s0 s) : KeptOut s0 (opQset o s c) := by
  unfold opQset
  with_reducible repeat' first
  | assumption
  | apply of_opW2

theorem of_execQset {s0} (c : CoreId) (o : OpA) {s : State} (hk : Kept s0 s) : KeptR s0 (execQset c o s) := by
  unfold execQset
  with_reducible repeat' first
  | assumption
  | (intro)
  | apply State_runOp
  | apply of_opQset
  | apply KeptR.next

theorem of_opQseti {s0} (o : OpI) {s : State} (c : CoreId) (hk : Kept s0 s) : KeptOut s0 (opQseti o s c) := by
  unfold opQseti
  with_reducible repeat' first
  | assumption
  | apply of_opWI

theorem of_execQseti {s0} (c : CoreId) (o : OpI) {s : State} (hk : Kept s0 s) : KeptR s0 (execQseti c o s) := by
  unfold execQseti
  with_reducible repeat' first
  | assumption
  | (intro)
  | apply State_runOp
  | apply of_opQseti
  | apply KeptR.next

theorem of_opQori {s0} (o : OpI) {s : State} (c : CoreId) (hk : Kept s0 s) : KeptOut s0 (opQori o s c) := by
  unfold opQori
  with_reducible repeat' first
  | assumption
  | apply of_opWI

theorem of_execQori {s0} (c : CoreId) (o : OpI) {s : State} (hk : Kept s0 s) : KeptR s0 (execQori c o s) := by
  unfold execQori
  with_reducible repeat' first
  | assumption
  | (intro)
  | apply State_runOp
  | apply of_opQori
  | apply KeptR.next

theorem of_opQclri {s0} (o : OpI) {s : State} (c : CoreId) (hk : Kept s0 s) : KeptOut s0 (opQclri o s c) := by
  unfold opQclri
  with_reducible repeat' first
  | assumption
  | apply of_opWI

theorem of_execQclri {s0} (c : CoreId) (o : OpI) {s : State} (hk : Kept s0 s) : KeptR s0 (execQclri c o s) := by
  unfold execQclri
  with_reducible repeat' first
  | assumption
  | (intro)
  | apply State_runOp
  | apply of_opQclri
  | apply KeptR.next

theorem of_opQmrg {s0} (o : OpA) {s : State} (c : CoreId) (hk : Kept s0 s) : KeptOut s0 (opQmrg o s c) := by
  unfold opQmrg
  with_reducible repeat' first
  | assumption
  | apply of_opW2

theorem of_execQmrg {s0} (c : CoreId) (o : OpA) {s : State} (hk : Kept s0 s) : KeptR s0 (execQmrg c o s) := by
  unfold execQmrg
  with_reducible repeat' first
  | assumption
  | (intro)
  | apply State_runOp
  | apply of_opQmrg
  | apply KeptR.next

theorem of_opQval {s0} (o : OpA) {s : State} (c : CoreId) (hk : Kept s0 s) : KeptOut s0 (opQval o s c) := by
  unfold opQval
  with_reducible repeat' first
  | assumption
  | apply of_opW1

theorem of_execQval {s0} (c : CoreId) (o : OpA) {s : State} (hk : Kept s0 s) : KeptR s0 (execQval c o s) := by
  unfold execQval
  with_reducible repeat' first
  | assumption
  | (intro)
  | apply State_runOp
  | apply of_opQval
  | apply KeptR.next

theorem of_opQgood {s0} (o : OpA) {s : State} (c : CoreId) (hk : Kept s0 s) : KeptOut s0 (opQgood o s c) := by
  unfold opQgood
  with_reducible repeat' first
  | assumption
  | apply of_opW1

theorem of_execQgood {s0} (c : CoreId) (o : OpA) {s : State} (hk : Kept s0 s) : KeptR s0 (execQgood c o s) := by
  unfold execQgood
  with_reducible repeat' first
  | assumption
  | (intro)
  | apply State_runOp
  | apply of_opQgood
  | apply KeptR.next

theorem of_opQsel {s0} (o : OpA) {s : State} (c : CoreId) (hk : Kept s0 s) : KeptOut s0 (opQsel o s c) := by
  unfold opQsel
  with_reducible repeat' first
  | assumption
  | apply ite
  | apply of_opW2

theorem of_execQsel {s0} (c : CoreId) (o : OpA) {s : State} (hk : Kept s0 s) : KeptR s0 (execQsel c o s) := by
  unfold execQsel
  with_reducible repeat' first
  | assumption
  | (intro)
  | apply State_runOp
  | apply of_opQsel
  | apply KeptR.next

theorem of_opLdw {s0} (o : OpI) {s : State} (c : CoreId) (hk : Kept s0 s) : KeptOut s0 (opLdw o s c) := by
  unfold opLdw
  with_reducible repeat' first
  | assumption
  | (intro)
  | apply State_interlock
  | apply State_load

theorem of_execLdw {s0} (c : CoreId) (o : OpI) {s : State} (hk : Kept s0 s) : KeptR s0 (execLdw c o s) := by
  unfold execLdw
  with_reducible repeat' first
  | assumption
  | (intro)
  | apply State_runOp
  | apply of_opLdw
  | apply KeptR.next

theorem of_opStw {s0} (o : OpI) {s : State} (c : CoreId) (hk : Kept s0 s) : KeptOut s0 (opStw o s c) := by
  unfold opStw
  with_reducible repeat' first
  | assumption
  | (intro)
  | apply State_interlock
  | apply State_store

theorem of_execStw {s0} (c : CoreId) (o : OpI) {s : State} (hk : Kept s0 s) : KeptR s0 (execStw c o s) := by
  unfold execStw
  with_reducible repeat' first
  | assumption
  | (intro)
  | apply State_runOp
  | apply of_opStw
  | apply KeptR.next

theorem of_opLdp {s0} (o : OpI) {s : State} (c : CoreId) (hk : Kept s0 s) : KeptOut s0 (opLdp o s c) := by
  unfold opLdp
  with_reducible repeat' first
  | assumption
  | (intro)
  | apply ite
  | apply State_illegal
  | apply State_interlock
  | apply State_load
  | apply KeptOut.done
  | apply KeptOut.trap
  | apply KeptOut.stopped
  | apply KeptOut.ite

theorem of_execLdp {s0} (c : CoreId) (o : OpI) {s : State} (hk : Kept s0 s) : KeptR s0 (execLdp c o s) := by
  unfold execLdp
  with_reducible repeat' first
  | assumption
  | (intro)
  | apply State_runOp
  | apply of_opLdp
  | apply KeptR.next

theorem of_opStp {s0} (o : OpI) {s : State} (c : CoreId) (hk : Kept s0 s) : KeptOut s0 (opStp o s c) := by
  unfold opStp
  with_reducible repeat' first
  | assumption
  | (intro)
  | apply ite
  | apply State_illegal
  | apply State_interlock
  | apply State_store
  | apply KeptOut.done
  | apply KeptOut.trap
  | apply KeptOut.stopped
  | apply KeptOut.ite

theorem of_execStp {s0} (c : CoreId) (o : OpI) {s : State} (hk : Kept s0 s) : KeptR s0 (execStp c o s) := by
  unfold execStp
  with_reducible repeat' first
  | assumption
  | (intro)
  | apply State_runOp
  | apply of_opStp
  | apply KeptR.next

theorem of_opLdwx {s0} (o : OpA) {s : State} (c : CoreId) (hk : Kept s0 s) : KeptOut s0 (opLdwx o s c) := by
  unfold opLdwx
  with_reducible repeat' first
  | assumption
  | (intro)
  | apply ite
  | apply State_illegal
  | apply State_interlock
  | apply State_load
  | apply KeptOut.done
  | apply KeptOut.trap
  | apply KeptOut.stopped
  | apply KeptOut.ite

theorem of_execLdwx {s0} (c : CoreId) (o : OpA) {s : State} (hk : Kept s0 s) : KeptR s0 (execLdwx c o s) := by
  unfold execLdwx
  with_reducible repeat' first
  | assumption
  | (intro)
  | apply State_runOp
  | apply of_opLdwx
  | apply KeptR.next

theorem of_opStwx {s0} (o : OpA) {s : State} (c : CoreId) (hk : Kept s0 s) : KeptOut s0 (opStwx o s c) := by
  unfold opStwx
  with_reducible repeat' first
  | assumption
  | (intro)
  | apply ite
  | apply State_illegal
  | apply State_interlock
  | apply State_store
  | apply KeptOut.done
  | apply KeptOut.trap
  | apply KeptOut.stopped
  | apply KeptOut.ite

theorem of_execStwx {s0} (c : CoreId) (o : OpA) {s : State} (hk : Kept s0 s) : KeptR s0 (execStwx c o s) := by
  unfold execStwx
  with_reducible repeat' first
  | assumption
  | (intro)
  | apply State_runOp
  | apply of_opStwx
  | apply KeptR.next

theorem of_opView {s0} (v : View) (f : W36 → W36 → W36) (o : OpB) {xx3 : State} (xx4 : CoreId) (hk : Kept s0 xx3) : KeptOut s0 (opView v f o xx3 xx4) := by
  unfold opView
  with_reducible repeat' first
  | assumption
  | (intro)
  | apply ite
  | apply State_illegal
  | apply State_interlock
  | apply State_imageLoad
  | apply KeptOut.done
  | apply KeptOut.trap
  | apply KeptOut.stopped
  | apply KeptOut.ite

theorem of_opLdb {s0} (o : OpB) {s : State} (c : CoreId) (hk : Kept s0 s) : KeptOut s0 (opLdb o s c) := by
  unfold opLdb
  with_reducible repeat' first
  | assumption
  | apply of_opView

theorem of_execLdb {s0} (c : CoreId) (o : OpB) {s : State} (hk : Kept s0 s) : KeptR s0 (execLdb c o s) := by
  unfold execLdb
  with_reducible repeat' first
  | assumption
  | (intro)
  | apply State_runOp
  | apply of_opLdb
  | apply KeptR.next

theorem of_opLdbp {s0} (o : OpB) {s : State} (c : CoreId) (hk : Kept s0 s) : KeptOut s0 (opLdbp o s c) := by
  unfold opLdbp
  with_reducible repeat' first
  | assumption
  | apply of_opView

theorem of_execLdbp {s0} (c : CoreId) (o : OpB) {s : State} (hk : Kept s0 s) : KeptR s0 (execLdbp c o s) := by
  unfold execLdbp
  with_reducible repeat' first
  | assumption
  | (intro)
  | apply State_runOp
  | apply of_opLdbp
  | apply KeptR.next

theorem of_opRedge {s0} (o : OpB) {s : State} (c : CoreId) (hk : Kept s0 s) : KeptOut s0 (opRedge o s c) := by
  unfold opRedge
  with_reducible repeat' first
  | assumption
  | apply of_opView

theorem of_execRedge {s0} (c : CoreId) (o : OpB) {s : State} (hk : Kept s0 s) : KeptR s0 (execRedge c o s) := by
  unfold execRedge
  with_reducible repeat' first
  | assumption
  | (intro)
  | apply State_runOp
  | apply of_opRedge
  | apply KeptR.next

theorem of_opFedge {s0} (o : OpB) {s : State} (c : CoreId) (hk : Kept s0 s) : KeptOut s0 (opFedge o s c) := by
  unfold opFedge
  with_reducible repeat' first
  | assumption
  | apply of_opView

theorem of_execFedge {s0} (c : CoreId) (o : OpB) {s : State} (hk : Kept s0 s) : KeptR s0 (execFedge c o s) := by
  unfold execFedge
  with_reducible repeat' first
  | assumption
  | (intro)
  | apply State_runOp
  | apply of_opFedge
  | apply KeptR.next

theorem of_opChgb {s0} (o : OpB) {s : State} (c : CoreId) (hk : Kept s0 s) : KeptOut s0 (opChgb o s c) := by
  unfold opChgb
  with_reducible repeat' first
  | assumption
  | apply of_opView

theorem of_execChgb {s0} (c : CoreId) (o : OpB) {s : State} (hk : Kept s0 s) : KeptR s0 (execChgb c o s) := by
  unfold execChgb
  with_reducible repeat' first
  | assumption
  | (intro)
  | apply State_runOp
  | apply of_opChgb
  | apply KeptR.next

theorem of_opPoint {s0} (v : Core → W36) (srcs : List Reg) (o : OpB) {xx3 : State} (xx4 : CoreId) (hk : Kept s0 xx3) : KeptOut s0 (opPoint v srcs o xx3 xx4) := by
  unfold opPoint
  with_reducible repeat' first
  | assumption
  | (intro)
  | apply ite
  | apply State_illegal
  | apply State_interlock
  | apply State_pointStore
  | apply KeptOut.done
  | apply KeptOut.trap
  | apply KeptOut.stopped
  | apply KeptOut.ite

theorem of_opStb {s0} (o : OpB) {s : State} (c : CoreId) (hk : Kept s0 s) : KeptOut s0 (opStb o s c) := by
  unfold opStb
  with_reducible repeat' first
  | assumption
  | apply of_opPoint

theorem of_execStb {s0} (c : CoreId) (o : OpB) {s : State} (hk : Kept s0 s) : KeptR s0 (execStb c o s) := by
  unfold execStb
  with_reducible repeat' first
  | assumption
  | (intro)
  | apply State_runOp
  | apply of_opStb
  | apply KeptR.next

theorem of_opSetb {s0} (o : OpB) {s : State} (c : CoreId) (hk : Kept s0 s) : KeptOut s0 (opSetb o s c) := by
  unfold opSetb
  with_reducible repeat' first
  | assumption
  | apply ite
  | apply State_illegal
  | apply of_opPoint
  | apply KeptOut.done
  | apply KeptOut.trap
  | apply KeptOut.stopped
  | apply KeptOut.ite

theorem of_execSetb {s0} (c : CoreId) (o : OpB) {s : State} (hk : Kept s0 s) : KeptR s0 (execSetb c o s) := by
  unfold execSetb
  with_reducible repeat' first
  | assumption
  | (intro)
  | apply State_runOp
  | apply of_opSetb
  | apply KeptR.next

theorem of_opClrb {s0} (o : OpB) {s : State} (c : CoreId) (hk : Kept s0 s) : KeptOut s0 (opClrb o s c) := by
  unfold opClrb
  with_reducible repeat' first
  | assumption
  | apply ite
  | apply State_illegal
  | apply of_opPoint
  | apply KeptOut.done
  | apply KeptOut.trap
  | apply KeptOut.stopped
  | apply KeptOut.ite

theorem of_execClrb {s0} (c : CoreId) (o : OpB) {s : State} (hk : Kept s0 s) : KeptR s0 (execClrb c o s) := by
  unfold execClrb
  with_reducible repeat' first
  | assumption
  | (intro)
  | apply State_runOp
  | apply of_opClrb
  | apply KeptR.next

theorem of_opLdwp {s0} (o : OpB) {s : State} (c : CoreId) (hk : Kept s0 s) : KeptOut s0 (opLdwp o s c) := by
  unfold opLdwp
  with_reducible repeat' first
  | assumption
  | apply ite
  | apply State_illegal
  | apply of_opView
  | apply KeptOut.done
  | apply KeptOut.trap
  | apply KeptOut.stopped
  | apply KeptOut.ite

theorem of_execLdwp {s0} (c : CoreId) (o : OpB) {s : State} (hk : Kept s0 s) : KeptR s0 (execLdwp c o s) := by
  unfold execLdwp
  with_reducible repeat' first
  | assumption
  | (intro)
  | apply State_runOp
  | apply of_opLdwp
  | apply KeptR.next

theorem of_opChgw {s0} (o : OpB) {s : State} (c : CoreId) (hk : Kept s0 s) : KeptOut s0 (opChgw o s c) := by
  unfold opChgw
  with_reducible repeat' first
  | assumption
  | apply ite
  | apply State_illegal
  | apply of_opView
  | apply KeptOut.done
  | apply KeptOut.trap
  | apply KeptOut.stopped
  | apply KeptOut.ite

theorem of_execChgw {s0} (c : CoreId) (o : OpB) {s : State} (hk : Kept s0 s) : KeptR s0 (execChgw c o s) := by
  unfold execChgw
  with_reducible repeat' first
  | assumption
  | (intro)
  | apply State_runOp
  | apply of_opChgw
  | apply KeptR.next

theorem of_engineOnly {s0} (k : Op) {s : State} (c : CoreId) (hk : Kept s0 s) (h_k : ∀ z0 z1, Kept s0 z0 → KeptOut s0 (k z0 z1)) : KeptOut s0 (engineOnly k s c) := by
  unfold engineOnly
  with_reducible repeat' first
  | assumption
  | (intro)
  | apply ite
  | apply h_k
  | apply State_illegal
  | apply KeptOut.done
  | apply KeptOut.trap
  | apply KeptOut.stopped
  | apply KeptOut.ite

theorem of_opBit {s0} (srcs : List Reg) (f : Core → W36) (o : OpA) {xx3 : State} (xx4 : CoreId) (hk : Kept s0 xx3) : KeptOut s0 (opBit srcs f o xx3 xx4) := by
  unfold opBit
  with_reducible repeat' first
  | assumption
  | (intro)
  | apply ite
  | apply of_engineOnly
  | apply State_illegal
  | apply State_compute
  | apply KeptOut.done
  | apply KeptOut.trap
  | apply KeptOut.stopped
  | apply KeptOut.ite

theorem of_opTstb {s0} (o : OpA) {s : State} (c : CoreId) (hk : Kept s0 s) : KeptOut s0 (opTstb o s c) := by
  unfold opTstb
  with_reducible repeat' first
  | assumption
  | apply ite
  | apply State_illegal
  | apply of_opBit
  | apply KeptOut.done
  | apply KeptOut.trap
  | apply KeptOut.stopped
  | apply KeptOut.ite

theorem of_execTstb {s0} (c : CoreId) (o : OpA) {s : State} (hk : Kept s0 s) : KeptR s0 (execTstb c o s) := by
  unfold execTstb
  with_reducible repeat' first
  | assumption
  | (intro)
  | apply State_runOp
  | apply of_opTstb
  | apply KeptR.next

theorem of_opInsb {s0} (o : OpA) {s : State} (c : CoreId) (hk : Kept s0 s) : KeptOut s0 (opInsb o s c) := by
  unfold opInsb
  with_reducible repeat' first
  | assumption
  | apply of_opBit

theorem of_execInsb {s0} (c : CoreId) (o : OpA) {s : State} (hk : Kept s0 s) : KeptR s0 (execInsb c o s) := by
  unfold execInsb
  with_reducible repeat' first
  | assumption
  | (intro)
  | apply State_runOp
  | apply of_opInsb
  | apply KeptR.next

theorem of_opPopc {s0} (o : OpA) {s : State} (c : CoreId) (hk : Kept s0 s) : KeptOut s0 (opPopc o s c) := by
  unfold opPopc
  with_reducible repeat' first
  | assumption
  | (intro)
  | apply of_engineOnly
  | apply of_opW1

theorem of_execPopc {s0} (c : CoreId) (o : OpA) {s : State} (hk : Kept s0 s) : KeptR s0 (execPopc c o s) := by
  unfold execPopc
  with_reducible repeat' first
  | assumption
  | (intro)
  | apply State_runOp
  | apply of_opPopc
  | apply KeptR.next

theorem of_opFfs {s0} (o : OpA) {s : State} (c : CoreId) (hk : Kept s0 s) : KeptOut s0 (opFfs o s c) := by
  unfold opFfs
  with_reducible repeat' first
  | assumption
  | (intro)
  | apply of_engineOnly
  | apply of_opW1

theorem of_execFfs {s0} (c : CoreId) (o : OpA) {s : State} (hk : Kept s0 s) : KeptR s0 (execFfs c o s) := by
  unfold execFfs
  with_reducible repeat' first
  | assumption
  | (intro)
  | apply State_runOp
  | apply of_opFfs
  | apply KeptR.next

theorem of_opNop {s0} (o : OpA) {s : State} (c : CoreId) (hk : Kept s0 s) : KeptOut s0 (opNop o s c) := by
  unfold opNop
  with_reducible repeat' first
  | assumption
  | apply ite
  | apply State_fin
  | apply State_illegal
  | apply KeptOut.done
  | apply KeptOut.trap
  | apply KeptOut.stopped
  | apply KeptOut.ite

theorem of_execNop {s0} (c : CoreId) (o : OpA) {s : State} (hk : Kept s0 s) : KeptR s0 (execNop c o s) := by
  unfold execNop
  with_reducible repeat' first
  | assumption
  | (intro)
  | apply State_runOp
  | apply of_opNop
  | apply KeptR.next

theorem of_goTo {s0} {s : State} (a : W36) (hk : Kept s0 s) : KeptOut s0 (goTo s a) := by
  unfold goTo
  with_reducible repeat' first
  | assumption
  | apply KeptOut.done

theorem State_callTo {s0} {s : State} (c : CoreId) (target : W36) (hk : Kept s0 s) : KeptOut s0 (State.callTo s c target) := by
  have h : ∀ top : W36, KeptOut s0 (s.watch c 2 top 1 fun t =>
      goTo (t.mapCore c fun x => (x.setLs top.toNat (wordAt x.pc 1)).setReg 31 top) target) := fun top =>
    State_watch _ _ _ _ _ hk fun t ht => of_goTo _ (State_mapCore _ _ ht)
  unfold State.callTo
  extract_lets sp top
  clear_value top sp
  split
  · exact State_raiseTrap _ _ _ hk
  · split
    · exact State_storeFault _ _ _ hk
    · exact h top

theorem of_opJump {s0} (o : OpJ) {s : State} (c : CoreId) (hk : Kept s0 s) : KeptOut s0 (opJump o s c) := by
  unfold opJump
  with_reducible repeat' first
  | assumption
  | apply of_goTo

theorem of_execJump {s0} (c : CoreId) (o : OpJ) {s : State} (hk : Kept s0 s) : KeptR s0 (execJump c o s) := by
  unfold execJump
  with_reducible repeat' first
  | assumption
  | (intro)
  | apply State_runOp
  | apply of_opJump
  | apply KeptR.next

theorem of_opCall {s0} (o : OpJ) {s : State} (c : CoreId) (hk : Kept s0 s) : KeptOut s0 (opCall o s c) := by
  unfold opCall
  with_reducible repeat' first
  | assumption
  | (intro)
  | apply State_interlock
  | apply State_callTo

theorem of_execCall {s0} (c : CoreId) (o : OpJ) {s : State} (hk : Kept s0 s) : KeptR s0 (execCall c o s) := by
  unfold execCall
  with_reducible repeat' first
  | assumption
  | (intro)
  | apply State_runOp
  | apply of_opCall
  | apply KeptR.next

theorem of_opBranch {s0} (t : Nat → Bool) (o : OpI) {c : State} (xx3 : CoreId) (hk : Kept s0 c) : KeptOut s0 (opBranch t o c xx3) := by
  unfold opBranch
  with_reducible repeat' first
  | assumption
  | (intro)
  | apply ite
  | apply State_illegal
  | apply State_interlock
  | apply of_goTo
  | apply State_fin
  | apply KeptOut.done
  | apply KeptOut.trap
  | apply KeptOut.stopped
  | apply KeptOut.ite

theorem of_opBz {s0} (o : OpI) {s : State} (c : CoreId) (hk : Kept s0 s) : KeptOut s0 (opBz o s c) := by
  unfold opBz
  with_reducible repeat' first
  | assumption
  | apply of_opBranch

theorem of_execBz {s0} (c : CoreId) (o : OpI) {s : State} (hk : Kept s0 s) : KeptR s0 (execBz c o s) := by
  unfold execBz
  with_reducible repeat' first
  | assumption
  | (intro)
  | apply State_runOp
  | apply of_opBz
  | apply KeptR.next

theorem of_opBnz {s0} (o : OpI) {s : State} (c : CoreId) (hk : Kept s0 s) : KeptOut s0 (opBnz o s c) := by
  unfold opBnz
  with_reducible repeat' first
  | assumption
  | apply of_opBranch

theorem of_execBnz {s0} (c : CoreId) (o : OpI) {s : State} (hk : Kept s0 s) : KeptR s0 (execBnz c o s) := by
  unfold execBnz
  with_reducible repeat' first
  | assumption
  | (intro)
  | apply State_runOp
  | apply of_opBnz
  | apply KeptR.next

theorem of_opJr {s0} (o : OpA) {s : State} (c : CoreId) (hk : Kept s0 s) : KeptOut s0 (opJr o s c) := by
  unfold opJr
  with_reducible repeat' first
  | assumption
  | (intro)
  | apply ite
  | apply State_illegal
  | apply State_interlock
  | apply of_goTo
  | apply KeptOut.done
  | apply KeptOut.trap
  | apply KeptOut.stopped
  | apply KeptOut.ite

theorem of_execJr {s0} (c : CoreId) (o : OpA) {s : State} (hk : Kept s0 s) : KeptR s0 (execJr c o s) := by
  unfold execJr
  with_reducible repeat' first
  | assumption
  | (intro)
  | apply State_runOp
  | apply of_opJr
  | apply KeptR.next

theorem of_opCallr {s0} (o : OpA) {s : State} (c : CoreId) (hk : Kept s0 s) : KeptOut s0 (opCallr o s c) := by
  unfold opCallr
  with_reducible repeat' first
  | assumption
  | (intro)
  | apply ite
  | apply State_illegal
  | apply State_interlock
  | apply State_callTo
  | apply KeptOut.done
  | apply KeptOut.trap
  | apply KeptOut.stopped
  | apply KeptOut.ite

theorem of_execCallr {s0} (c : CoreId) (o : OpA) {s : State} (hk : Kept s0 s) : KeptR s0 (execCallr c o s) := by
  unfold execCallr
  with_reducible repeat' first
  | assumption
  | (intro)
  | apply State_runOp
  | apply of_opCallr
  | apply KeptR.next

theorem State_popWords {s0} {s : State} (c : CoreId) (a : W36) (n : Nat) (k : State → Out) (h_k : ∀ t, Kept s0 t → KeptOut s0 (k t)) (hk : Kept s0 s) : KeptOut s0 (State.popWords s c a n k) := by
  unfold State.popWords
  with_reducible repeat' first
  | assumption
  | (intro)
  | apply ite
  | apply State_loadFault
  | apply State_watch
  | apply h_k
  | apply KeptOut.done
  | apply KeptOut.trap
  | apply KeptOut.stopped
  | apply KeptOut.ite

theorem State_popReturn {s0} {s : State} (c : CoreId) (hk : Kept s0 s) : KeptOut s0 (State.popReturn s c) := by
  unfold State.popReturn
  with_reducible repeat' first
  | assumption
  | (intro)
  | apply ite
  | apply State_popWords
  | apply of_goTo
  | apply State_raiseTrap
  | apply State_mapCore
  | apply KeptOut.done
  | apply KeptOut.trap
  | apply KeptOut.stopped
  | apply KeptOut.ite

theorem of_opRet {s0} (o : OpA) {s : State} (c : CoreId) (hk : Kept s0 s) : KeptOut s0 (opRet o s c) := by
  unfold opRet
  with_reducible repeat' first
  | assumption
  | (intro)
  | apply ite
  | apply State_illegal
  | apply State_interlock
  | apply State_popReturn
  | apply KeptOut.done
  | apply KeptOut.trap
  | apply KeptOut.stopped
  | apply KeptOut.ite

theorem of_execRet {s0} (c : CoreId) (o : OpA) {s : State} (hk : Kept s0 s) : KeptR s0 (execRet c o s) := by
  unfold execRet
  with_reducible repeat' first
  | assumption
  | (intro)
  | apply State_runOp
  | apply of_opRet
  | apply KeptR.next

theorem State_endBlock {s0} {s : State} (e : Nat) (hk : Kept s0 s) : Kept s0 (State.endBlock s e) := by
  unfold State.endBlock
  with_reducible repeat' first
  | assumption
  | apply ite
  | apply State_blockEnd
  | apply State_setCore

theorem of_opBend {s0} (o : OpA) {s : State} (c : CoreId) (hk : Kept s0 s) : KeptOut s0 (opBend o s c) := by
  unfold opBend
  with_reducible repeat' first
  | assumption
  | apply ite
  | apply State_illegal
  | apply State_land
  | apply State_endBlock
  | apply of_goTo
  | apply KeptOut.done
  | apply KeptOut.trap
  | apply KeptOut.stopped
  | apply KeptOut.ite
  | refine snd (by assumption) ?_
  | refine snd2 (by assumption) ?_
  | refine fst (by assumption) ?_
  | refine KeptOut.ofDone (by assumption) ?_
  | refine KeptOut.ofTrap (by assumption) ?_
  | refine KeptOut.ofStop (by assumption) ?_
  | split

theorem of_execBend {s0} (c : CoreId) (o : OpA) {s : State} (hk : Kept s0 s) : KeptR s0 (execBend c o s) := by
  unfold execBend
  with_reducible repeat' first
  | assumption
  | (intro)
  | apply State_runOp
  | apply of_opBend
  | apply KeptR.next

theorem of_opSys {s0} (o : OpI) {s : State} (c : CoreId) (hk : Kept s0 s) : KeptOut s0 (opSys o s c) := by
  unfold opSys
  with_reducible repeat' first
  | assumption
  | (intro)
  | apply ite
  | apply State_illegal
  | apply State_interlock
  | apply State_fin
  | apply State_mapCore
  | apply KeptOut.done
  | apply KeptOut.trap
  | apply KeptOut.stopped
  | apply KeptOut.ite

theorem of_execSys {s0} (c : CoreId) (o : OpI) {s : State} (hk : Kept s0 s) : KeptR s0 (execSys c o s) := by
  unfold execSys
  with_reducible repeat' first
  | assumption
  | (intro)
  | apply State_runOp
  | apply of_opSys
  | apply KeptR.next

theorem of_opSysw {s0} (o : OpI) {s : State} (c : CoreId) (hk : Kept s0 s) : KeptOut s0 (opSysw o s c) := by
  unfold opSysw
  with_reducible repeat' first
  | assumption
  | (intro)
  | apply ite
  | apply State_illegal
  | apply State_privTrap
  | apply State_interlock
  | apply State_fin
  | apply State_setCore
  | apply KeptOut.done
  | apply KeptOut.trap
  | apply KeptOut.stopped
  | apply KeptOut.ite
  | refine KeptOut.ofDone (by assumption) ?_
  | refine KeptOut.ofTrap (by assumption) ?_
  | refine KeptOut.ofStop (by assumption) ?_
  | split

theorem of_execSysw {s0} (c : CoreId) (o : OpI) {s : State} (hk : Kept s0 s) : KeptR s0 (execSysw c o s) := by
  unfold execSysw
  with_reducible repeat' first
  | assumption
  | (intro)
  | apply State_runOp
  | apply of_opSysw
  | apply KeptR.next

theorem State_trapNext {s0} {s : State} (c : CoreId) (cause : Nat) (hk : Kept s0 s) : KeptOut s0 (State.trapNext s c cause) := by
  unfold State.trapNext
  with_reducible repeat' first
  | assumption
  | apply KeptOut.done
  | apply KeptOut.trap

theorem of_opSvc {s0} (o : OpI) {s : State} (c : CoreId) (hk : Kept s0 s) : KeptOut s0 (opSvc o s c) := by
  unfold opSvc
  with_reducible repeat' first
  | assumption
  | apply ite
  | apply State_illegal
  | apply State_trapNext
  | apply KeptOut.done
  | apply KeptOut.trap
  | apply KeptOut.stopped
  | apply KeptOut.ite

theorem of_execSvc {s0} (c : CoreId) (o : OpI) {s : State} (hk : Kept s0 s) : KeptR s0 (execSvc c o s) := by
  unfold execSvc
  with_reducible repeat' first
  | assumption
  | (intro)
  | apply State_runOp
  | apply of_opSvc
  | apply KeptR.next

theorem of_opBrk {s0} (o : OpI) {s : State} (c0 : CoreId) (hk : Kept s0 s) : KeptOut s0 (opBrk o s c0) := by
  unfold opBrk
  with_reducible repeat' first
  | assumption
  | (intro)
  | apply ite
  | apply State_trapNext
  | apply State_haltNow
  | apply State_fin
  | apply State_illegal
  | apply State_mapCore
  | apply KeptOut.done
  | apply KeptOut.trap
  | apply KeptOut.stopped
  | apply KeptOut.ite

theorem of_execBrk {s0} (c : CoreId) (o : OpI) {s : State} (hk : Kept s0 s) : KeptR s0 (execBrk c o s) := by
  unfold execBrk
  with_reducible repeat' first
  | assumption
  | (intro)
  | apply State_runOp
  | apply of_opBrk
  | apply KeptR.next

theorem State_returnFrom {s0} {s : State} (c : CoreId) (hk : Kept s0 s) : KeptOut s0 (State.returnFrom s c) := by
  unfold State.returnFrom
  with_reducible repeat' first
  | assumption
  | (intro)
  | apply ite
  | apply State_popWords
  | apply of_goTo
  | apply State_raiseTrap
  | apply State_mapCore
  | apply KeptOut.done
  | apply KeptOut.trap
  | apply KeptOut.stopped
  | apply KeptOut.ite

theorem of_opRete {s0} (o : OpA) {s : State} (c : CoreId) (hk : Kept s0 s) : KeptOut s0 (opRete o s c) := by
  unfold opRete
  with_reducible repeat' first
  | assumption
  | (intro)
  | apply ite
  | apply State_illegal
  | apply State_privTrap
  | apply State_interlock
  | apply State_returnFrom
  | apply KeptOut.done
  | apply KeptOut.trap
  | apply KeptOut.stopped
  | apply KeptOut.ite

theorem of_execRete {s0} (c : CoreId) (o : OpA) {s : State} (hk : Kept s0 s) : KeptR s0 (execRete c o s) := by
  unfold execRete
  with_reducible repeat' first
  | assumption
  | (intro)
  | apply State_runOp
  | apply of_opRete
  | apply KeptR.next

theorem of_opWfi {s0} (o : OpA) {s : State} (c : CoreId) (hk : Kept s0 s) : KeptOut s0 (opWfi o s c) := by
  unfold opWfi
  with_reducible repeat' first
  | assumption
  | apply ite
  | apply State_illegal
  | apply State_privTrap
  | apply State_fin
  | apply State_mapCore
  | apply KeptOut.done
  | apply KeptOut.trap
  | apply KeptOut.stopped
  | apply KeptOut.ite

theorem of_execWfi {s0} (c : CoreId) (o : OpA) {s : State} (hk : Kept s0 s) : KeptR s0 (execWfi c o s) := by
  unfold execWfi
  with_reducible repeat' first
  | assumption
  | (intro)
  | apply State_runOp
  | apply of_opWfi
  | apply KeptR.next

theorem of_opFence {s0} (o : OpA) {s : State} (c : CoreId) (hk : Kept s0 s) : KeptOut s0 (opFence o s c) := by
  unfold opFence
  with_reducible repeat' first
  | assumption
  | apply ite
  | apply State_illegal
  | apply State_fin
  | apply State_mapCore
  | apply KeptOut.done
  | apply KeptOut.trap
  | apply KeptOut.stopped
  | apply KeptOut.ite

theorem of_execFence {s0} (c : CoreId) (o : OpA) {s : State} (hk : Kept s0 s) : KeptR s0 (execFence c o s) := by
  unfold execFence
  with_reducible repeat' first
  | assumption
  | (intro)
  | apply State_runOp
  | apply of_opFence
  | apply KeptR.next

theorem of_opTime {s0} (o : OpA) (pair : Bool) (f : State → Nat × State) {xx3 : State} (xx4 : CoreId) (hk : Kept s0 xx3) (h_f : ∀ z0, Kept s0 z0 → Kept s0 (f z0).2) : KeptOut s0 (opTime o pair f xx3 xx4) := by
  unfold opTime
  with_reducible repeat' first
  | assumption
  | (intro)
  | apply ite
  | apply h_f
  | apply State_illegal
  | apply State_interlock
  | apply State_fin
  | apply State_mapCore
  | apply KeptOut.done
  | apply KeptOut.trap
  | apply KeptOut.stopped
  | apply KeptOut.ite

theorem of_opClass {s0} (o : OpA) (pair : Bool) (f : State → Nat → Nat) {xx3 : State} (xx4 : CoreId) (hk : Kept s0 xx3) : KeptOut s0 (opClass o pair f xx3 xx4) := by
  unfold opClass
  with_reducible repeat' first
  | assumption
  | (intro)
  | apply h_f
  | apply State_illegal
  | apply of_opTime
  | apply KeptOut.done
  | apply KeptOut.trap
  | apply KeptOut.stopped
  | refine snd (by assumption) ?_
  | refine snd2 (by assumption) ?_
  | refine fst (by assumption) ?_
  | refine KeptOut.ofDone (by assumption) ?_
  | refine KeptOut.ofTrap (by assumption) ?_
  | refine KeptOut.ofStop (by assumption) ?_
  | split

theorem State_coreTime {s0} {s : State} (hk : Kept s0 s) : Kept s0 (State.coreTime s).2 := by
  unfold State.coreTime
  with_reducible repeat' first
  | assumption
  | apply ite
  | apply State_draw
  | refine snd (by assumption) ?_
  | refine snd2 (by assumption) ?_
  | refine fst (by assumption) ?_
  | refine KeptOpt.get (by assumption) ?_
  | refine KeptO3 (by assumption) ?_
  | split

theorem of_opRdtime {s0} (o : OpA) {s : State} (c0 : CoreId) (hk : Kept s0 s) : KeptOut s0 (opRdtime o s c0) := by
  unfold opRdtime
  with_reducible repeat' first
  | assumption
  | (intro)
  | apply ite
  | apply State_coreTime
  | apply of_opTime
  | apply State_illegal
  | apply KeptOut.done
  | apply KeptOut.trap
  | apply KeptOut.stopped
  | apply KeptOut.ite

theorem of_execRdtime {s0} (c : CoreId) (o : OpA) {s : State} (hk : Kept s0 s) : KeptR s0 (execRdtime c o s) := by
  unfold execRdtime
  with_reducible repeat' first
  | assumption
  | (intro)
  | apply State_runOp
  | apply of_opRdtime
  | apply KeptR.next

theorem of_opRdbound {s0} (o : OpA) {s : State} (c : CoreId) (hk : Kept s0 s) : KeptOut s0 (opRdbound o s c) := by
  unfold opRdbound
  with_reducible repeat' first
  | assumption
  | apply of_opClass

theorem of_execRdbound {s0} (c : CoreId) (o : OpA) {s : State} (hk : Kept s0 s) : KeptR s0 (execRdbound c o s) := by
  unfold execRdbound
  with_reducible repeat' first
  | assumption
  | (intro)
  | apply State_runOp
  | apply of_opRdbound
  | apply KeptR.next

theorem of_opRdcyc {s0} (o : OpA) {s : State} (c : CoreId) (hk : Kept s0 s) : KeptOut s0 (opRdcyc o s c) := by
  unfold opRdcyc
  with_reducible repeat' first
  | assumption
  | apply of_opClass

theorem of_execRdcyc {s0} (c : CoreId) (o : OpA) {s : State} (hk : Kept s0 s) : KeptR s0 (execRdcyc c o s) := by
  unfold execRdcyc
  with_reducible repeat' first
  | assumption
  | (intro)
  | apply State_runOp
  | apply of_opRdcyc
  | apply KeptR.next

theorem of_opRdper {s0} (o : OpA) {s : State} (c : CoreId) (hk : Kept s0 s) : KeptOut s0 (opRdper o s c) := by
  unfold opRdper
  with_reducible repeat' first
  | assumption
  | apply of_opClass

theorem of_execRdper {s0} (c : CoreId) (o : OpA) {s : State} (hk : Kept s0 s) : KeptR s0 (execRdper c o s) := by
  unfold execRdper
  with_reducible repeat' first
  | assumption
  | (intro)
  | apply State_runOp
  | apply of_opRdper
  | apply KeptR.next

theorem of_opRdfull {s0} (o : OpA) {s : State} (c : CoreId) (hk : Kept s0 s) : KeptOut s0 (opRdfull o s c) := by
  unfold opRdfull
  with_reducible repeat' first
  | assumption
  | apply of_opClass

theorem of_execRdfull {s0} (c : CoreId) (o : OpA) {s : State} (hk : Kept s0 s) : KeptR s0 (execRdfull c o s) := by
  unfold execRdfull
  with_reducible repeat' first
  | assumption
  | (intro)
  | apply State_runOp
  | apply of_opRdfull
  | apply KeptR.next

theorem of_opRdcnt {s0} (o : OpA) {s : State} (c : CoreId) (hk : Kept s0 s) : KeptOut s0 (opRdcnt o s c) := by
  unfold opRdcnt
  with_reducible repeat' first
  | assumption
  | (intro)
  | apply ite
  | apply of_opTime
  | apply State_draw
  | apply State_illegal
  | apply KeptOut.done
  | apply KeptOut.trap
  | apply KeptOut.stopped
  | apply KeptOut.ite

theorem of_execRdcnt {s0} (c : CoreId) (o : OpA) {s : State} (hk : Kept s0 s) : KeptR s0 (execRdcnt c o s) := by
  unfold execRdcnt
  with_reducible repeat' first
  | assumption
  | (intro)
  | apply State_runOp
  | apply of_opRdcnt
  | apply KeptR.next

theorem of_execIllegalOpcode {s0} (c : CoreId) (w : W36) {s : State} (hk : Kept s0 s) : KeptR s0 (execIllegalOpcode c w s) := by
  unfold execIllegalOpcode
  with_reducible repeat' first
  | assumption
  | (intro)
  | apply ite
  | apply State_runOp
  | apply State_illegal
  | apply KeptR.next

theorem State_spoilDram {s0} {s : State} (as_ : List Nat) (hk : Kept s0 s) : Kept s0 (State.spoilDram s as_) := by
  unfold State.spoilDram
  with_reducible repeat' first
  | assumption
  | (intro)
  | apply ite
  | fail_if_no_progress refine upd ?_ ?_; rotate_left; exact rfl

theorem State_loadReturns {s0} {s : State} (c : CoreId) (unc : Bool) (hk : Kept s0 s) : Kept s0 (State.loadReturns s c unc) := by
  unfold State.loadReturns
  with_reducible repeat' first
  | assumption
  | (intro)
  | apply ite
  | apply State_spoilDram
  | apply State_take
  | apply State_landOne
  | apply State_pick
  | refine snd (by assumption) ?_
  | refine snd2 (by assumption) ?_
  | refine fst (by assumption) ?_
  | refine KeptOpt.get (by assumption) ?_
  | refine KeptO3 (by assumption) ?_
  | fail_if_no_progress refine upd ?_ ?_; rotate_left; exact rfl
  | split
  | dsimp only

theorem of_execLoadComplete {s0} (c : CoreId) (unc : Bool) {s : State} (hk : Kept s0 s) : KeptR s0 (execLoadComplete c unc s) := by
  unfold execLoadComplete
  with_reducible repeat' first
  | assumption
  | apply State_loadReturns
  | apply KeptR.next

theorem State_afterStore {s0} {s : State} (c : CoreId) (hk : Kept s0 s) : Kept s0 (State.afterStore s c) := by
  unfold State.afterStore
  with_reducible repeat' first
  | assumption
  | apply ite
  | apply State_blockEnd
  | split

theorem State_storeCompletes {s0} {s : State} (c : CoreId) (hk : Kept s0 s) : Kept s0 (State.storeCompletes s c) := by
  unfold State.storeCompletes
  with_reducible repeat' first
  | assumption
  | (intro)
  | apply State_drain
  | apply State_afterStore
  | refine KeptOpt.get (by assumption) ?_
  | refine KeptO3 (by assumption) ?_
  | apply KeptOpt.bind
  | apply KeptOpt.some
  | exact KeptOpt.none
  | split

theorem of_execStoreComplete {s0} (c : CoreId) {s : State} (hk : Kept s0 s) : KeptR s0 (execStoreComplete c s) := by
  unfold execStoreComplete
  with_reducible repeat' first
  | assumption
  | apply State_storeCompletes
  | apply KeptR.next

theorem of_execFenceDrained {s0} (c : CoreId) {s : State} (hk : Kept s0 s) : KeptR s0 (execFenceDrained c s) := by
  unfold execFenceDrained
  with_reducible repeat' first
  | assumption
  | (intro)
  | apply ite
  | apply State_drains
  | apply State_mapCore
  | apply KeptR.next
  | apply KeptR.ite
  | refine KeptOpt.get (by assumption) ?_
  | refine KeptO3 (by assumption) ?_
  | apply KeptOpt.bind
  | apply KeptOpt.some
  | exact KeptOpt.none
  | apply KeptOpt.ite
  | split

theorem State_tenderIssue {s0} {s : State} (i : Issue) (hk : Kept s0 s) : Kept s0 (State.tenderIssue s i) := by
  unfold State.tenderIssue
  with_reducible repeat' first
  | assumption
  | apply State_mapCore

theorem of_execWfiWake {s0} {s : State} (hk : Kept s0 s) : KeptR s0 (execWfiWake s) := by
  unfold execWfiWake
  with_reducible repeat' first
  | assumption
  | apply ite
  | apply State_tenderIssue
  | apply KeptR.next

theorem State_accept {s0} {s : State} (cause : Nat) (secure : Bool) (begun : State → State) (h_begun : ∀ t, Kept s0 t → Kept s0 (begun t)) (hk : Kept s0 s) : Kept s0 (State.accept s cause secure begun) := by
  unfold State.accept
  with_reducible repeat' first
  | assumption
  | (intro)
  | apply ite
  | apply State_take
  | apply State_tenderTrap
  | apply h_begun
  | refine snd (by assumption) ?_
  | refine snd2 (by assumption) ?_
  | refine fst (by assumption) ?_
  | refine KeptOpt.get (by assumption) ?_
  | refine KeptO3 (by assumption) ?_
  | fail_if_no_progress refine upd ?_ ?_; rotate_left; exact rfl
  | split

theorem of_execInterruptEntry {s0} (source : Fin 64) {s : State} (hk : Kept s0 s) : KeptR s0 (execInterruptEntry source s) := by
  unfold execInterruptEntry
  refine KeptR.next ?_
  split
  · exact ite (State_accept _ _ _ (fun _ h => h) hk) hk
  · exact hk

theorem of_execNmiEntry {s0} {s : State} (hk : Kept s0 s) : KeptR s0 (execNmiEntry s) := by
  unfold execNmiEntry
  with_reducible repeat' first
  | assumption
  | (intro)
  | apply ite
  | apply State_accept
  | apply KeptR.next
  | apply KeptR.ite
  | fail_if_no_progress refine upd ?_ ?_; rotate_left; exact rfl

theorem of_execLockstepMismatch {s0} {s : State} (hk : Kept s0 s) : KeptR s0 (execLockstepMismatch s) := by
  unfold execLockstepMismatch
  with_reducible repeat' first
  | assumption
  | apply ite
  | apply State_raise
  | apply State_mapCore
  | apply KeptR.next

theorem of_execBudgetExceeded {s0} (e : Fin 144) {s : State} (hk : Kept s0 s) : KeptR s0 (execBudgetExceeded e s) := by
  unfold execBudgetExceeded
  with_reducible repeat' first
  | assumption
  | apply ite
  | apply State_take
  | apply KeptR.next

theorem of_execCoreHaltTaken {s0} (c : CoreId) {s : State} (hk : Kept s0 s) : KeptR s0 (execCoreHaltTaken c s) := by
  unfold execCoreHaltTaken
  with_reducible repeat' first
  | assumption
  | apply ite
  | apply State_haltCore
  | apply KeptR.next

theorem State_hostRegister {s0} {s : State} (page : Nat) (off : Nat) (hk : Kept s0 s) : Kept s0 (State.hostRegister s page off) := by
  unfold State.hostRegister
  with_reducible repeat' first
  | assumption
  | apply ite
  | apply State_readReg
  | apply State_flueAsk
  | apply State_send

theorem State_hostAccess {s0} {s : State} (write : Bool) (page : Nat) (off : Nat) (size : Nat) (hk : Kept s0 s) : Kept s0 (State.hostAccess s write page off size) := by
  unfold State.hostAccess
  with_reducible repeat' first
  | assumption
  | apply ite
  | apply State_hostRegister
  | apply State_hostZeros
  | apply State_hostUnassigned
  | apply State_ownerDiscard
  | apply State_pciCapture
  | apply State_raise

theorem of_execHostAccessDiscard {s0} (write : Bool) (page : Nat) (off : Nat) (size : Nat) {s : State} (hk : Kept s0 s) : KeptR s0 (execHostAccessDiscard write page off size s) := by
  unfold execHostAccessDiscard
  with_reducible repeat' first
  | assumption
  | apply ite
  | apply State_hostAccess
  | apply State_send
  | apply KeptR.next

theorem State_takeDirectory {s0} {s : State} (p : Nat) (hk : Kept s0 s) : Kept s0 (State.takeDirectory s p) := by
  unfold State.takeDirectory
  with_reducible repeat' first
  | assumption
  | (intro)
  | apply State_setFields
  | apply State_setFld
  | apply State_setAshHead
  | apply foldl
  | fail_if_no_progress refine upd ?_ ?_; rotate_left; exact rfl

theorem State_dirErase {s0} {s : State} (hk : Kept s0 s) : Kept s0 (State.dirErase s) := by
  unfold State.dirErase
  with_reducible repeat' first
  | assumption
  | apply ite
  | fail_if_no_progress refine upd ?_ ?_; rotate_left; exact rfl

theorem State_findLog {s0} {s : State} (hk : Kept s0 s) : Kept s0 (State.findLog s) := by
  unfold State.findLog
  with_reducible repeat' first
  | assumption
  | (intro)
  | apply ite
  | apply State_setAshHead
  | apply State_setFields

theorem State_findSlot {s0} {s : State} (i : Nat) (hk : Kept s0 s) : Kept s0 (State.findSlot s i) := by
  unfold State.findSlot
  with_reducible repeat' first
  | assumption
  | apply ite
  | apply State_setSlot

theorem State_deliveredSlots {s0} {s : State} (f : KindlingFind) (hk : Kept s0 s) : Kept s0 (State.deliveredSlots s f) := by
  unfold State.deliveredSlots
  with_reducible repeat' first
  | assumption
  | (intro)
  | apply ite
  | apply State_setFld
  | apply State_showSlot
  | apply foldl

theorem State_startFails {s0} {s : State} (c : Nat) (code : Nat) (hk : Kept s0 s) : Kept s0 (State.startFails s c code) := by
  unfold State.startFails
  with_reducible repeat' first
  | assumption
  | apply ite
  | apply State_raise
  | apply State_downComponent
  | apply State_rlnDown

theorem State_startsWritten {s0} {s : State} (c : Nat) (hk : Kept s0 s) : Kept s0 (State.startsWritten s c) := by
  unfold State.startsWritten
  with_reducible repeat' first
  | assumption
  | apply State_raise
  | apply State_rlnStep
  | apply State_setSlotState
  | apply State_startComponent
  | apply State_advanceAtStart

theorem State_kindleComponent {s0} {s : State} (f : KindlingFind) (c : Nat) (hk : Kept s0 s) : Kept s0 (State.kindleComponent s f c) := by
  unfold State.kindleComponent
  with_reducible repeat' first
  | assumption
  | apply ite
  | apply State_startComponent
  | apply State_startFails
  | apply State_downComponent
  | apply State_setSlotState
  | apply State_startsWritten
  | split

theorem State_loadKnd {s0} {s : State} (hk : Kept s0 s) : Kept s0 (State.loadKnd s) := by
  unfold State.loadKnd
  with_reducible repeat' first
  | assumption
  | apply ite
  | apply State_setCore

theorem State_bootFails {s0} {s : State} (step : Nat) (hk : Kept s0 s) : Kept s0 (State.bootFails s step) := by
  unfold State.bootFails
  with_reducible repeat' first
  | assumption
  | apply State_douse
  | apply State_record
  | fail_if_no_progress refine upd ?_ ?_; rotate_left; exact rfl

theorem State_applyMap {s0} {s : State} (failed : List Nat) (repairs : List (Nat × Nat)) (hk : Kept s0 s) : Kept s0 (State.applyMap s failed repairs) := by
  unfold State.applyMap
  with_reducible repeat' first
  | assumption
  | (intro)
  | apply ite
  | apply State_setEngState
  | apply foldl
  | apply foldl1
  | apply foldl2
  | fail_if_no_progress refine upd ?_ ?_; rotate_left; exact rfl

theorem State_applyFind {s0} {s : State} (f : SweepFind) (hk : Kept s0 s) : Kept s0 (State.applyFind s f) := by
  unfold State.applyFind
  with_reducible repeat' first
  | assumption
  | (intro)
  | apply ite
  | apply State_applyMap
  | fail_if_no_progress refine upd ?_ ?_; rotate_left; exact rfl

theorem State_kindleSweep {s0} {s : State} (f : SweepFind) (hk : Kept s0 s) : Kept s0 (State.kindleSweep s f).2 := by
  unfold State.kindleSweep
  with_reducible repeat' first
  | assumption
  | (intro)
  | apply ite
  | apply State_applyFind
  | apply State_applyMap
  | apply State_zeroSecure
  | apply State_commitSweep
  | apply State_setFld
  | refine snd (by assumption) ?_
  | refine snd2 (by assumption) ?_
  | refine fst (by assumption) ?_
  | refine KeptOpt.get (by assumption) ?_
  | refine KeptO3 (by assumption) ?_
  | fail_if_no_progress refine upd ?_ ?_; rotate_left; exact rfl
  | split

theorem State_kindleFit {s0} {s : State} (f : KindlingFind) (hk : Kept s0 s) : Kept s0 (State.kindleFit s f) := by
  unfold State.kindleFit
  with_reducible repeat' first
  | assumption
  | apply ite
  | apply State_setFields
  | fail_if_no_progress refine upd ?_ ?_; rotate_left; exact rfl

theorem State_kindleDomains {s0} {s : State} (hk : Kept s0 s) : Kept s0 (State.kindleDomains s) := by
  unfold State.kindleDomains
  with_reducible repeat' first
  | assumption
  | (intro)
  | apply ite
  | apply State_setFld
  | apply foldl

theorem State_measureVbak {s0} {s : State} (mv : Nat) (hk : Kept s0 s) : Kept s0 (State.measureVbak s mv) := by
  unfold State.measureVbak
  with_reducible repeat' first
  | assumption
  | apply State_setFields

theorem State_kindleMantel {s0} {s : State} (f : KindlingFind) (hk : Kept s0 s) : Kept s0 (State.kindleMantel s f) := by
  unfold State.kindleMantel
  with_reducible repeat' first
  | assumption
  | (intro)
  | apply ite
  | apply State_deliveredSlots
  | apply State_findSlot
  | apply State_findLog
  | apply State_dirErase
  | apply State_takeDirectory
  | apply State_findRings
  | apply State_record
  | apply State_dirCommit
  | apply State_countWrap
  | apply State_setFld
  | apply foldl
  | apply foldl1
  | apply foldl2
  | refine snd (by assumption) ?_
  | refine snd2 (by assumption) ?_
  | refine fst (by assumption) ?_
  | refine KeptOpt.get (by assumption) ?_
  | refine KeptO3 (by assumption) ?_
  | fail_if_no_progress refine upd ?_ ?_; rotate_left; exact rfl
  | split

theorem State_applyParam {s0} {s : State} (seq : Nat) (e : Nat × Nat × Nat) (hk : Kept s0 s) : Kept s0 (State.applyParam s seq e) := by
  unfold State.applyParam
  with_reducible repeat' first
  | assumption
  | apply ite
  | apply State_regWrite
  | apply State_record

theorem State_groupOn {s0} {s : State} (g : Nat) (hk : Kept s0 s) : Kept s0 (State.groupOn s g) := by
  unfold State.groupOn
  with_reducible repeat' first
  | assumption
  | apply ite
  | apply State_setFld

theorem State_kindleParams {s0} {s : State} (hk : Kept s0 s) : Kept s0 (State.kindleParams s) := by
  unfold State.kindleParams
  with_reducible repeat' first
  | assumption
  | (intro)
  | apply ite
  | apply State_groupOn
  | apply State_applyParam
  | apply State_take
  | apply State_macsOut
  | apply foldl
  | apply foldl1
  | apply foldl2
  | refine snd (by assumption) ?_
  | refine snd2 (by assumption) ?_
  | refine fst (by assumption) ?_
  | refine KeptOpt.get (by assumption) ?_
  | refine KeptO3 (by assumption) ?_
  | fail_if_no_progress refine upd ?_ ?_; rotate_left; exact rfl
  | split

theorem State_placeProgram {s0} {s : State} (p : Program) (hk : Kept s0 s) : Kept s0 (State.placeProgram s p) := by
  unfold State.placeProgram
  with_reducible repeat' first
  | assumption
  | apply ite
  | apply State_writeArea
  | apply State_editVersions
  | apply State_loadCode
  | apply State_loadProgram
  | fail_if_no_progress refine upd ?_ ?_; rotate_left; exact rfl

theorem State_bankRefused {s0} {s : State} (r : Refuse) (hk : Kept s0 s) : Kept s0 (State.bankRefused s r) := by
  unfold State.bankRefused
  with_reducible repeat' first
  | assumption
  | apply State_record
  | apply State_setFld
  | fail_if_no_progress refine upd ?_ ?_; rotate_left; exact rfl

theorem State_kindlePackage {s0} {s : State} (hk : Kept s0 s) : Kept s0 (State.kindlePackage s) := by
  unfold State.kindlePackage
  with_reducible repeat' first
  | assumption
  | apply ite
  | apply State_placeProgram
  | apply State_bankRefused
  | split

theorem State_kindleRest {s0} {s : State} (f : KindlingFind) (hk : Kept s0 s) : Kept s0 (State.kindleRest s f) := by
  unfold State.kindleRest
  with_reducible repeat' first
  | assumption
  | (intro)
  | apply ite
  | apply State_kindlePackage
  | apply State_kindleParams
  | apply State_kindleFit
  | apply State_kindleComponent
  | apply State_douse
  | apply State_hobStart
  | apply State_assignEngines
  | apply foldl
  | apply foldl1
  | apply foldl2
  | fail_if_no_progress refine upd ?_ ?_; rotate_left; exact rfl

theorem State_kindleBoot {s0} {s : State} (f : KindlingFind) (hk : Kept s0 s) : Kept s0 (State.kindleBoot s f) := by
  unfold State.kindleBoot
  with_reducible repeat' first
  | assumption
  | (intro)
  | apply ite
  | apply State_kindleRest
  | apply State_kindleSweep
  | apply State_bootFails
  | apply State_loadKnd
  | apply State_kindleComponent
  | apply State_douse
  | apply State_setFld
  | refine snd (by assumption) ?_
  | refine snd2 (by assumption) ?_
  | refine fst (by assumption) ?_
  | refine KeptOpt.get (by assumption) ?_
  | refine KeptO3 (by assumption) ?_
  | fail_if_no_progress refine upd ?_ ?_; rotate_left; exact rfl
  | split
  | dsimp only

theorem State_kindle {s0} {s : State} (f : KindlingFind) (hk : Kept s0 s) : Kept s0 (State.kindle s f) := by
  unfold State.kindle
  with_reducible repeat' first
  | assumption
  | apply State_setMode
  | apply State_kindleBoot
  | apply State_kindleMantel
  | apply State_measureVbak
  | apply State_kindleDomains
  | fail_if_no_progress refine upd ?_ ?_; rotate_left; exact rfl

theorem of_execKindlingStart {s0} (f : KindlingFind) {s : State} (hk : Kept s0 s) : KeptR s0 (execKindlingStart f s) := by
  unfold execKindlingStart
  with_reducible repeat' first
  | assumption
  | apply ite
  | apply State_kindle
  | apply KeptR.next

theorem State_eraseTorn {s0} {s : State} (hk : Kept s0 s) : Kept s0 (State.eraseTorn s) := by
  unfold State.eraseTorn
  with_reducible repeat' first
  | assumption
  | (intro)
  | apply ite
  | apply State_setSlot
  | apply State_eraseBlock
  | apply foldl

theorem State_resumeImage {s0} {s : State} (hk : Kept s0 s) : Kept s0 (State.resumeImage s) := by
  unfold State.resumeImage
  with_reducible repeat' first
  | assumption
  | (intro)
  | apply State_freshPlanes
  | apply State_initWord
  | apply foldl

theorem State_resumeLoad {s0} {s : State} (hk : Kept s0 s) : Kept s0 (State.resumeLoad s) := by
  unfold State.resumeLoad
  with_reducible repeat' first
  | assumption
  | (intro)
  | apply State_setFld
  | apply State_assignEngines
  | apply State_setCls
  | apply State_kindlePackage
  | apply State_bankRefused
  | apply State_editVersions
  | apply State_loadCode
  | apply State_loadProgram
  | apply State_writeRuns
  | apply foldl
  | fail_if_no_progress refine upd ?_ ?_; rotate_left; exact rfl
  | split
  | dsimp only

theorem State_kindleStart {s0} {s : State} (hk : Kept s0 s) : Kept s0 (State.kindleStart s).1 := by
  unfold State.kindleStart
  with_reducible repeat' first
  | assumption
  | (intro)
  | apply ite
  | apply State_resumeImage
  | apply State_resume
  | apply State_startProgram
  | apply State_startKind
  | apply State_noteShort
  | apply State_raise
  | apply State_setFld
  | refine snd (by assumption) ?_
  | refine snd2 (by assumption) ?_
  | refine fst (by assumption) ?_
  | refine KeptOpt.get (by assumption) ?_
  | refine KeptO3 (by assumption) ?_
  | fail_if_no_progress refine upd ?_ ?_; rotate_left; exact rfl
  | split
  | dsimp only

theorem State_kindleTo {s0} {s : State} (held : Bool) (hk : Kept s0 s) : Kept s0 (State.kindleTo s held) := by
  unfold State.kindleTo
  with_reducible repeat' first
  | assumption
  | apply ite
  | apply State_setMode
  | apply State_setRoleState
  | apply State_grateUpdate
  | apply State_hobRoleChange
  | apply State_classStates
  | fail_if_no_progress refine upd ?_ ?_; rotate_left; exact rfl

theorem State_kindlingEnd {s0} {s : State} (hk : Kept s0 s) : Kept s0 (State.kindlingEnd s) := by
  unfold State.kindlingEnd
  with_reducible repeat' first
  | assumption
  | apply ite
  | apply State_eraseTorn
  | apply State_resumeLoad
  | apply State_douse
  | apply State_kindleStart
  | apply State_kindleTo
  | refine snd (by assumption) ?_
  | refine snd2 (by assumption) ?_
  | refine fst (by assumption) ?_
  | fail_if_no_progress refine upd ?_ ?_; rotate_left; exact rfl

theorem of_execKindlingEnd {s0} {s : State} (hk : Kept s0 s) : KeptR s0 (execKindlingEnd s) := by
  unfold execKindlingEnd
  with_reducible repeat' first
  | assumption
  | apply ite
  | apply State_kindlingEnd
  | apply KeptR.next

theorem State_answer {s0} {s : State} (a : Ack) (data : W36) (hk : Kept s0 s) : Kept s0 (State.answer s a data) := by
  unfold State.answer
  with_reducible repeat' first
  | assumption
  | apply State_send

theorem State_pokerNo {s0} {s : State} (hk : Kept s0 s) : Kept s0 (State.pokerNo s) := by
  unfold State.pokerNo
  with_reducible repeat' first
  | assumption
  | apply State_answer

theorem State_poker_ {s0} {s : State} (free : Bool) (k : State → State) (hk : Kept s0 s) (h_k : ∀ z0, Kept s0 z0 → Kept s0 (k z0)) : Kept s0 (State.poker_ s free k) := by
  unfold State.poker_
  with_reducible repeat' first
  | assumption
  | (intro)
  | apply ite
  | apply h_k
  | apply State_pokerNo
  | apply State_answer

theorem of_execPokerId {s0} {s : State} (hk : Kept s0 s) : KeptR s0 (execPokerId s) := by
  unfold execPokerId
  with_reducible repeat' first
  | assumption
  | (intro)
  | apply State_poker_
  | apply State_answer
  | apply KeptR.next

theorem of_execPokerSelect {s0} (core : Nat) {s : State} (hk : Kept s0 s) : KeptR s0 (execPokerSelect core s) := by
  unfold execPokerSelect
  with_reducible repeat' first
  | assumption
  | (intro)
  | apply ite
  | apply State_poker_
  | apply State_answer
  | apply State_pokerNo
  | apply KeptR.next
  | apply KeptR.ite
  | fail_if_no_progress refine upd ?_ ?_; rotate_left; exact rfl

theorem State_nextAddr {s0} {s : State} (c : CoreId) (hk : Kept s0 s) : Kept s0 (State.nextAddr s c) := by
  unfold State.nextAddr
  with_reducible repeat' first
  | assumption
  | apply State_mapCore

theorem State_pokerFault {s0} {s : State} (c : CoreId) (t : Trap) (hk : Kept s0 s) : Kept s0 (State.pokerFault s c t) := by
  unfold State.pokerFault
  with_reducible repeat' first
  | assumption
  | apply State_answer
  | apply State_mapCore

theorem State_asNormal {s0} {s : State} (c : CoreId) (hk : Kept s0 s) : Kept s0 (State.asNormal s c) := by
  unfold State.asNormal
  with_reducible repeat' first
  | assumption
  | apply ite
  | apply State_mapCore

theorem State_accessFault {s0} {s : State} (c : CoreId) (cause : Nat) (a : W36) (hk : Kept s0 s) : Kept s0 (State.accessFault s c cause a) := by
  unfold State.accessFault
  with_reducible repeat' first
  | assumption
  | apply State_pokerFault

theorem State_dataBreak {s0} {s : State} (c : CoreId) (kind : Nat) (a : W36) (hk : Kept s0 s) : Kept s0 (State.dataBreak s c kind a) := by
  unfold State.dataBreak
  with_reducible repeat' first
  | assumption
  | (intro)
  | apply ite
  | apply State_haltCore
  | apply State_setCore
  | refine snd (by assumption) ?_
  | refine snd2 (by assumption) ?_
  | refine fst (by assumption) ?_
  | refine KeptOpt.get (by assumption) ?_
  | refine KeptO3 (by assumption) ?_
  | fail_if_no_progress refine upd ?_ ?_; rotate_left; exact rfl
  | split

theorem State_dataLoad {s0} {s : State} (c : CoreId) (sp : Space) (a : W36) (hk : Kept s0 s) : Kept s0 (State.dataLoad s c sp a) := by
  unfold State.dataLoad
  with_reducible repeat' first
  | assumption
  | (intro)
  | apply ite
  | apply State_accessFault
  | apply State_asNormal
  | apply State_nextAddr
  | apply State_answer
  | apply State_loadWord
  | apply State_islandFails
  | apply State_loadBad
  | apply State_mapCore
  | refine snd (by assumption) ?_
  | refine snd2 (by assumption) ?_
  | refine fst (by assumption) ?_
  | refine KeptOpt.get (by assumption) ?_
  | refine KeptO3 (by assumption) ?_
  | fail_if_no_progress refine upd ?_ ?_; rotate_left; exact rfl
  | split

theorem State_pokerAsks {s0} {s : State} (c : CoreId) (a : W36) (n : Nat) (hk : Kept s0 s) : Kept s0 (State.pokerAsks s c a n) := by
  unfold State.pokerAsks
  with_reducible repeat' first
  | assumption
  | apply ite
  | apply State_flueAsk

theorem State_pokerSends {s0} {s : State} (c : CoreId) (a : W36) (v : W36) (hk : Kept s0 s) : Kept s0 (State.pokerSends s c a v) := by
  unfold State.pokerSends
  with_reducible repeat' first
  | assumption
  | apply ite
  | apply State_store
  | apply State_flueSend

theorem State_readData {s0} {s : State} (c : CoreId) (hk : Kept s0 s) : Kept s0 (State.readData s c) := by
  unfold State.readData
  with_reducible repeat' first
  | assumption
  | (intro)
  | apply ite
  | apply State_pokerAsks
  | apply State_dataLoad
  | apply State_dataBreak
  | apply State_accessFault
  | apply State_asNormal
  | apply State_nextAddr
  | apply State_answer
  | apply State_drainsUntil
  | apply State_noteWorldBy
  | apply State_setCore
  | refine snd (by assumption) ?_
  | refine snd2 (by assumption) ?_
  | refine fst (by assumption) ?_
  | refine KeptOpt.get (by assumption) ?_
  | refine KeptO3 (by assumption) ?_
  | fail_if_no_progress refine upd ?_ ?_; rotate_left; exact rfl
  | split
  | dsimp only

theorem State_dataStore {s0} {s : State} (c : CoreId) (sp : Space) (a : W36) (v : W36) (hk : Kept s0 s) : KeptOpt s0 (State.dataStore s c sp a v) := by
  unfold State.dataStore
  with_reducible repeat' first
  | assumption
  | (intro)
  | apply State_mapCore
  | apply State_engineStore
  | apply State_tenderWord
  | refine KeptOpt.get (by assumption) ?_
  | refine KeptO3 (by assumption) ?_
  | apply KeptOpt.bind
  | apply KeptOpt.some
  | exact KeptOpt.none
  | split

theorem State_writeData {s0} {s : State} (c : CoreId) (v : W36) (hk : Kept s0 s) : Kept s0 (State.writeData s c v) := by
  unfold State.writeData
  extract_lets a
  have h := fun (sp : Space) => KeptOpt.bind (State_drains c (s.at c).stores.length hk) fun t h =>
    State_dataStore c sp a v (State_pokerSends c a v (State_dataBreak c 2 a h))
  split
  · exact State_accessFault _ _ _ (State_nextAddr _ (State_setCore _ _ (State_noteWorldBy _ _ _ _ (State_asNormal _ hk))))
  · split
    · exact State_answer _ _ (State_nextAddr _ (h _ _ (by assumption)))
    · exact State_answer _ _ hk

theorem of_execPokerRead {s0} (n : BitVec 8) {s : State} (hk : Kept s0 s) : KeptR s0 (execPokerRead n s) := by
  unfold execPokerRead
  with_reducible repeat' first
  | assumption
  | (intro)
  | apply ite
  | apply State_poker_
  | apply State_pokerNo
  | apply State_answer
  | apply State_mapCore
  | apply State_readData
  | apply KeptR.next

theorem State_setCoreReg {s0} {s : State} (c : CoreId) (n : Nat) (w : W36) (hk : Kept s0 s) : Kept s0 (State.setCoreReg s c n w) := by
  unfold State.setCoreReg
  with_reducible repeat' first
  | assumption
  | apply ite
  | apply State_mapCore

theorem of_execPokerWrite {s0} (n : BitVec 8) (w : W36) {s : State} (hk : Kept s0 s) : KeptR s0 (execPokerWrite n w s) := by
  unfold execPokerWrite
  with_reducible repeat' first
  | assumption
  | (intro)
  | apply ite
  | apply State_poker_
  | apply State_pokerNo
  | apply State_writeData
  | apply State_answer
  | apply State_setCoreReg
  | apply KeptR.next

theorem of_execPokerHalt {s0} {s : State} (hk : Kept s0 s) : KeptR s0 (execPokerHalt s) := by
  unfold execPokerHalt
  with_reducible repeat' first
  | assumption
  | (intro)
  | apply ite
  | apply State_poker_
  | apply State_pokerNo
  | apply State_answer
  | apply State_mapCore
  | apply KeptR.next

theorem of_execPokerResume {s0} {s : State} (hk : Kept s0 s) : KeptR s0 (execPokerResume s) := by
  unfold execPokerResume
  with_reducible repeat' first
  | assumption
  | (intro)
  | apply ite
  | apply State_poker_
  | apply State_answer
  | apply State_refreshHalted
  | apply State_mapCore
  | apply State_pokerNo
  | apply KeptR.next

theorem State_injectOp {s0} {s : State} (c : CoreId) (w : W36) (op : Op) (hk : Kept s0 s) (h_op : ∀ z0 z1, Kept s0 z0 → KeptOut s0 (op z0 z1)) : Kept s0 (State.injectOp s c w op) := by
  unfold State.injectOp
  with_reducible repeat' first
  | assumption
  | (intro)
  | apply ite
  | apply h_op
  | apply State_mapCore
  | apply State_answer
  | apply State_pokerFault
  | apply KeptOut.done
  | apply KeptOut.trap
  | apply KeptOut.stopped
  | apply KeptOut.ite
  | refine KeptOut.ofDone (by assumption) ?_
  | refine KeptOut.ofTrap (by assumption) ?_
  | refine KeptOut.ofStop (by assumption) ?_
  | split

theorem of_sysOp (w : W36) (op : Op) (h : sysOp w = some op) : KeptOp op := by
  unfold sysOp at h
  split at h
  · cases h; exact fun _ _ c hk => of_opNop _ c hk
  · cases h; exact fun _ _ c hk => of_opSys _ c hk
  · cases h; exact fun _ _ c hk => of_opSysw _ c hk
  · cases h; exact fun _ _ c hk => of_opSvc _ c hk
  · cases h; exact fun _ _ c hk => of_opBrk _ c hk
  · cases h; exact fun _ _ c hk => of_opRete _ c hk
  · cases h; exact fun _ _ c hk => of_opWfi _ c hk
  · cases h; exact fun _ _ c hk => of_opFence _ c hk
  · cases h

theorem of_intOp (w : W36) (op : Op) (h : intOp w = some op) : KeptOp op := by
  unfold intOp at h
  split at h
  · cases h; exact fun _ _ c hk => of_opAdd _ c hk
  · cases h; exact fun _ _ c hk => of_opAddi _ c hk
  · cases h; exact fun _ _ c hk => of_opSub _ c hk
  · cases h; exact fun _ _ c hk => of_opAdds _ c hk
  · cases h; exact fun _ _ c hk => of_opSubs _ c hk
  · cases h; exact fun _ _ c hk => of_opMul _ c hk
  · cases h; split
    · exact fun _ _ c hk => of_opMulhu _ c hk
    · exact fun _ _ c hk => of_opMulh _ c hk
  · cases h; split
    · exact fun _ _ c hk => of_opDivu _ c hk
    · exact fun _ _ c hk => of_opDiv _ c hk
  · cases h; split
    · exact fun _ _ c hk => of_opRemu _ c hk
    · exact fun _ _ c hk => of_opRem _ c hk
  · cases h; exact fun _ _ c hk => of_opAnd _ c hk
  · cases h; exact fun _ _ c hk => of_opOr _ c hk
  · cases h; exact fun _ _ c hk => of_opXor _ c hk
  · cases h; exact fun _ _ c hk => of_opAndi _ c hk
  · cases h; exact fun _ _ c hk => of_opOri _ c hk
  · cases h; exact fun _ _ c hk => of_opXori _ c hk
  · cases h; exact fun _ _ c hk => of_opShl _ c hk
  · cases h; exact fun _ _ c hk => of_opShr _ c hk
  · cases h; exact fun _ _ c hk => of_opSar _ c hk
  · cases h; exact fun _ _ c hk => of_opMin _ c hk
  · cases h; exact fun _ _ c hk => of_opMax _ c hk
  · cases h; exact fun _ _ c hk => of_opAddp _ c hk
  · cases h; exact fun _ _ c hk => of_opSubp _ c hk
  · cases h; exact fun _ _ c hk => of_opSel _ c hk
  · cases h; exact fun _ _ c hk => of_opMov _ c hk
  · cases h; exact fun _ _ c hk => of_opAdda _ c hk
  · cases h; exact fun _ _ c hk => of_opAddar _ c hk
  · cases h; exact fun _ _ c hk => of_opSuba _ c hk
  · cases h; exact fun _ _ c hk => of_opMovp _ c hk
  · cases h; exact fun _ _ c hk => of_opShla _ c hk
  · cases h

theorem of_otherOp (w : W36) (op : Op) (h : otherOp w = some op) : KeptOp op := by
  unfold otherOp at h
  split at h
  · cases h; exact fun _ _ c hk => of_opCeq _ c hk
  · cases h; exact fun _ _ c hk => of_opCne _ c hk
  · cases h; exact fun _ _ c hk => of_opClt _ c hk
  · cases h; exact fun _ _ c hk => of_opCle _ c hk
  · cases h; exact fun _ _ c hk => of_opCltu _ c hk
  · cases h; exact fun _ _ c hk => of_opCleu _ c hk
  · cases h; exact fun _ _ c hk => of_opCeqi _ c hk
  · cases h; exact fun _ _ c hk => of_opClti _ c hk
  · cases h; exact fun _ _ c hk => of_opCgti _ c hk
  · cases h; exact fun _ _ c hk => of_opFceq _ c hk
  · cases h; exact fun _ _ c hk => of_opFclt _ c hk
  · cases h; exact fun _ _ c hk => of_opFcle _ c hk
  · cases h; exact fun _ _ c hk => of_opLdw _ c hk
  · cases h; exact fun _ _ c hk => of_opStw _ c hk
  · cases h; exact fun _ _ c hk => of_opLdp _ c hk
  · cases h; exact fun _ _ c hk => of_opStp _ c hk
  · cases h; exact fun _ _ c hk => of_opLdwx _ c hk
  · cases h; exact fun _ _ c hk => of_opStwx _ c hk
  · cases h; exact fun _ _ c hk => of_opLdb _ c hk
  · cases h; exact fun _ _ c hk => of_opLdbp _ c hk
  · cases h; exact fun _ _ c hk => of_opRedge _ c hk
  · cases h; exact fun _ _ c hk => of_opFedge _ c hk
  · cases h; exact fun _ _ c hk => of_opChgb _ c hk
  · cases h; exact fun _ _ c hk => of_opStb _ c hk
  · cases h; exact fun _ _ c hk => of_opSetb _ c hk
  · cases h; exact fun _ _ c hk => of_opClrb _ c hk
  · cases h; exact fun _ _ c hk => of_opLdwp _ c hk
  · cases h; exact fun _ _ c hk => of_opChgw _ c hk
  · cases h; exact fun _ _ c hk => of_opTstb _ c hk
  · cases h; exact fun _ _ c hk => of_opInsb _ c hk
  · cases h; exact fun _ _ c hk => of_opPopc _ c hk
  · cases h; exact fun _ _ c hk => of_opFfs _ c hk
  · cases h

theorem of_lateOp (w : W36) (op : Op) (h : lateOp w = some op) : KeptOp op := by
  unfold lateOp at h
  split at h
  · cases h; exact fun _ _ c hk => of_opFadd _ c hk
  · cases h; exact fun _ _ c hk => of_opFsub _ c hk
  · cases h; exact fun _ _ c hk => of_opFmul _ c hk
  · cases h; exact fun _ _ c hk => of_opFdiv _ c hk
  · cases h; exact fun _ _ c hk => of_opFsqrt _ c hk
  · cases h; exact fun _ _ c hk => of_opFmin _ c hk
  · cases h; exact fun _ _ c hk => of_opFmax _ c hk
  · cases h; exact fun _ _ c hk => of_opFabs _ c hk
  · cases h; exact fun _ _ c hk => of_opFneg _ c hk
  · cases h; exact fun _ _ c hk => of_opFcvtif _ c hk
  · cases h; exact fun _ _ c hk => of_opFcvtfi _ c hk
  · cases h; exact fun _ _ c hk => of_opJump _ c hk
  · cases h; exact fun _ _ c hk => of_opCall _ c hk
  · cases h; exact fun _ _ c hk => of_opBz _ c hk
  · cases h; exact fun _ _ c hk => of_opBnz _ c hk
  · cases h; exact fun _ _ c hk => of_opJr _ c hk
  · cases h; exact fun _ _ c hk => of_opCallr _ c hk
  · cases h; exact fun _ _ c hk => of_opRet _ c hk
  · cases h; exact fun _ _ c hk => of_opBend _ c hk
  · cases h; exact fun _ _ c hk => of_opQget _ c hk
  · cases h; exact fun _ _ c hk => of_opQset _ c hk
  · cases h; exact fun _ _ c hk => of_opQseti _ c hk
  · cases h; exact fun _ _ c hk => of_opQori _ c hk
  · cases h; exact fun _ _ c hk => of_opQclri _ c hk
  · cases h; exact fun _ _ c hk => of_opQmrg _ c hk
  · cases h; exact fun _ _ c hk => of_opQval _ c hk
  · cases h; exact fun _ _ c hk => of_opQgood _ c hk
  · cases h; exact fun _ _ c hk => of_opQsel _ c hk
  · cases h; exact fun _ _ c hk => of_opRdtime _ c hk
  · cases h; exact fun _ _ c hk => of_opRdbound _ c hk
  · cases h; exact fun _ _ c hk => of_opRdcyc _ c hk
  · cases h; exact fun _ _ c hk => of_opRdper _ c hk
  · cases h; exact fun _ _ c hk => of_opRdfull _ c hk
  · cases h; exact fun _ _ c hk => of_opRdcnt _ c hk
  · cases h

theorem of_wordOp (w : W36) (op : Op) (h : wordOp w = some op) : KeptOp op := by
  unfold wordOp at h
  split at h
  · cases h
  cases h
  cases h1 : sysOp w with
  | some o => exact of_sysOp w o h1
  | none => cases h2 : intOp w with
    | some o => exact of_intOp w o h2
    | none => cases h3 : otherOp w with
      | some o => exact of_otherOp w o h3
      | none => cases h4 : lateOp w with
        | some o => exact of_lateOp w o h4
        | none => exact fun _ _ c hk => State_illegal c hk

theorem of_execPokerInject {s0} (w : W36) {s : State} (hk : Kept s0 s) : KeptR s0 (execPokerInject w s) := by
  unfold execPokerInject
  with_reducible repeat' first
  | assumption
  | (intro)
  | apply ite
  | refine KeptOp.out (of_wordOp _ _ (by assumption)) ?_
  | apply State_poker_
  | apply State_pokerNo
  | apply State_answer
  | apply State_land
  | apply State_pokerFault
  | apply State_injectOp
  | apply KeptR.next
  | refine snd (by assumption) ?_
  | split

theorem State_freshChallenge {s0} {s : State} (hk : Kept s0 s) : Kept s0 (State.freshChallenge s) := by
  unfold State.freshChallenge
  with_reducible repeat' first
  | assumption
  | fail_if_no_progress refine upd ?_ ?_; rotate_left; exact rfl

theorem of_execPokerChallenge {s0} {s : State} (hk : Kept s0 s) : KeptR s0 (execPokerChallenge s) := by
  unfold execPokerChallenge
  with_reducible repeat' first
  | assumption
  | (intro)
  | apply ite
  | apply State_poker_
  | apply State_pokerNo
  | apply State_freshChallenge
  | apply State_answer
  | apply KeptR.next
  | apply KeptR.ite
  | fail_if_no_progress refine upd ?_ ?_; rotate_left; exact rfl

theorem State_authEnd {s0} {s : State} (good : Bool) (hk : Kept s0 s) : Kept s0 (State.authEnd s good) := by
  unfold State.authEnd
  with_reducible repeat' first
  | assumption
  | apply ite
  | apply State_setFld
  | apply State_record
  | apply State_raise
  | fail_if_no_progress refine upd ?_ ?_; rotate_left; exact rfl

theorem of_execPokerResponse {s0} (w : W36) {s : State} (hk : Kept s0 s) : KeptR s0 (execPokerResponse w s) := by
  unfold execPokerResponse
  with_reducible repeat' first
  | assumption
  | (intro)
  | apply ite
  | apply State_poker_
  | apply State_pokerNo
  | apply State_answer
  | apply State_authEnd
  | apply KeptR.next
  | apply KeptR.ite
  | fail_if_no_progress refine upd ?_ ?_; rotate_left; exact rfl

theorem of_execPokerDeauth {s0} {s : State} (hk : Kept s0 s) : KeptR s0 (execPokerDeauth s) := by
  unfold execPokerDeauth
  with_reducible repeat' first
  | assumption
  | (intro)
  | apply State_poker_
  | apply State_answer
  | apply State_setFld
  | apply KeptR.next
  | fail_if_no_progress refine upd ?_ ?_; rotate_left; exact rfl

theorem of_execPokerAuthLockoutEnd {s0} {s : State} (hk : Kept s0 s) : KeptR s0 (execPokerAuthLockoutEnd s) := by
  unfold execPokerAuthLockoutEnd
  with_reducible repeat' first
  | assumption
  | apply ite
  | apply KeptR.next
  | apply KeptR.ite
  | fail_if_no_progress refine upd ?_ ?_; rotate_left; exact rfl

theorem of_execPokerSandbox {s0} {s : State} (hk : Kept s0 s) : KeptR s0 (execPokerSandbox s) := by
  unfold execPokerSandbox
  with_reducible repeat' first
  | assumption
  | (intro)
  | apply ite
  | apply State_poker_
  | apply State_pokerNo
  | apply State_answer
  | apply KeptR.next
  | apply KeptR.ite
  | fail_if_no_progress refine upd ?_ ?_; rotate_left; exact rfl
  | split

theorem of_execPokerSandboxEnd {s0} {s : State} (hk : Kept s0 s) : KeptR s0 (execPokerSandboxEnd s) := by
  unfold execPokerSandboxEnd
  with_reducible repeat' first
  | assumption
  | (intro)
  | apply ite
  | apply State_poker_
  | apply State_pokerNo
  | apply State_setEngState
  | apply State_answer
  | apply State_setFld
  | apply State_refreshHalted
  | apply State_idleEngine
  | apply KeptR.next
  | apply KeptR.ite
  | fail_if_no_progress refine upd ?_ ?_; rotate_left; exact rfl
  | split

theorem State_uartAnswer {s0} {s : State} (cmd : Nat) (tag : Byte) (u : UartStatus) (payload : List Byte) (hk : Kept s0 s) : Kept s0 (State.uartAnswer s cmd tag u payload) := by
  unfold State.uartAnswer
  with_reducible repeat' first
  | assumption
  | apply ite
  | apply State_uartDiscard
  | apply State_send

theorem State_freeReply {s0} {s : State} (hk : Kept s0 s) : Kept s0 (State.freeReply s).2 := by
  unfold State.freeReply
  with_reducible repeat' first
  | assumption
  | apply State_draw
  | apply State_drawBytes

theorem State_uartReplied {s0} {s : State} (hk : Kept s0 s) : Kept s0 (State.uartReplied s) := by
  unfold State.uartReplied
  with_reducible repeat' first
  | assumption
  | (intro)
  | apply ite
  | apply State_freeReply
  | apply State_uartAnswer
  | refine snd (by assumption) ?_
  | refine snd2 (by assumption) ?_
  | refine fst (by assumption) ?_
  | refine KeptOpt.get (by assumption) ?_
  | refine KeptO3 (by assumption) ?_
  | fail_if_no_progress refine upd ?_ ?_; rotate_left; exact rfl
  | split

theorem State_uartServe {s0} {s : State} (cmd : Nat) (tag : Byte) (need : Nat) (zeros : List Byte) (k : State → State) (h_k : ∀ t, Kept s0 t → Kept s0 (k t)) (hk : Kept s0 s) : Kept s0 (State.uartServe s cmd tag need zeros k) := by
  unfold State.uartServe
  with_reducible repeat' first
  | assumption
  | apply ite
  | apply State_uartReplied
  | apply State_uartAnswer
  | apply h_k

theorem of_execIdent {s0} (tag : Byte) {s : State} (hk : Kept s0 s) : KeptR s0 (execIdent tag s) := by
  unfold execIdent
  with_reducible repeat' first
  | assumption
  | (intro)
  | apply State_uartServe
  | apply State_uartAnswer
  | apply KeptR.next

theorem of_execRegRead {s0} (tag : Byte) (page : Nat) (off : Nat) {s : State} (hk : Kept s0 s) : KeptR s0 (execRegRead tag page off s) := by
  unfold execRegRead
  with_reducible repeat' first
  | assumption
  | (intro)
  | apply ite
  | apply State_uartServe
  | apply State_uartAnswer
  | apply State_readReg
  | apply KeptR.next

theorem of_execRegWrite {s0} (tag : Byte) (page : Nat) (off : Nat) (v : W32) {s : State} (hk : Kept s0 s) : KeptR s0 (execRegWrite tag page off v s) := by
  unfold execRegWrite
  with_reducible repeat' first
  | assumption
  | (intro)
  | apply ite
  | apply State_uartServe
  | apply State_uartAnswer
  | apply State_regWrite
  | apply KeptR.next

theorem of_execImageRead {s0} (tag : Byte) (off : Nat) (count : Nat) {s : State} (hk : Kept s0 s) : KeptR s0 (execImageRead tag off count s) := by
  unfold execImageRead
  with_reducible repeat' first
  | assumption
  | (intro)
  | apply ite
  | apply State_uartServe
  | apply State_uartAnswer
  | apply State_hostSlotsFrom
  | apply KeptR.next

theorem of_execImageWrite {s0} (tag : Byte) (off : Nat) (slots : List (BitVec 64)) {s : State} (hk : Kept s0 s) : KeptR s0 (execImageWrite tag off slots s) := by
  unfold execImageWrite
  with_reducible repeat' first
  | assumption
  | (intro)
  | apply ite
  | apply State_uartServe
  | apply State_uartAnswer
  | apply State_hostStore
  | apply KeptR.next
  | apply KeptR.ite
  | apply foldl

theorem of_execUartBlock {s0} (tag : Byte) (b : Block) {s : State} (hk : Kept s0 s) : KeptR s0 (execUartBlock tag b s) := by
  unfold execUartBlock
  with_reducible repeat' first
  | assumption
  | (intro)
  | apply ite
  | apply State_uartServe
  | apply State_uartAnswer
  | apply State_deliverBlock
  | apply State_send
  | apply KeptR.next
  | apply KeptR.ite
  | refine snd (by assumption) ?_
  | refine snd2 (by assumption) ?_
  | refine fst (by assumption) ?_
  | refine KeptOpt.get (by assumption) ?_
  | refine KeptO3 (by assumption) ?_
  | fail_if_no_progress refine upd ?_ ?_; rotate_left; exact rfl

theorem of_execLogRead {s0} (tag : Byte) (off : Nat) (len : Nat) {s : State} (hk : Kept s0 s) : KeptR s0 (execLogRead tag off len s) := by
  unfold execLogRead
  with_reducible repeat' first
  | assumption
  | (intro)
  | apply ite
  | apply State_uartServe
  | apply State_uartAnswer
  | apply KeptR.next

theorem State_dropStale {s0} {s : State} (hk : Kept s0 s) : Kept s0 (State.dropStale s) := by
  unfold State.dropStale
  with_reducible repeat' first
  | assumption
  | (intro)
  | apply ite
  | apply State_setLink
  | apply foldl

theorem State_flueRespond {s0} {s : State} (node : Nat) (p : Packet) (hk : Kept s0 s) : Kept s0 (State.flueRespond s node p) := by
  unfold State.flueRespond
  with_reducible repeat' first
  | assumption
  | (intro)
  | apply ite
  | apply State_store
  | apply State_fluePost

theorem State_flueAnswered {s0} {s : State} (src : Nat) (hk : Kept s0 s) : Kept s0 (State.flueAnswered s src) := by
  unfold State.flueAnswered
  with_reducible repeat' first
  | assumption
  | (intro)
  | apply ite
  | apply State_flueIssue
  | refine snd (by assumption) ?_
  | refine snd2 (by assumption) ?_
  | refine fst (by assumption) ?_
  | refine KeptOpt.get (by assumption) ?_
  | refine KeptO3 (by assumption) ?_
  | fail_if_no_progress refine upd ?_ ?_; rotate_left; exact rfl
  | split
  | dsimp only

theorem State_flueReach {s0} {s : State} (i : Nat) (x : Sent) (hk : Kept s0 s) : Kept s0 (State.flueReach s i x) := by
  unfold State.flueReach
  with_reducible repeat' first
  | assumption
  | (intro)
  | apply ite
  | apply State_flueAnswered
  | apply State_flueRespond
  | apply State_setLink
  | refine snd (by assumption) ?_
  | refine snd2 (by assumption) ?_
  | refine fst (by assumption) ?_
  | refine KeptOpt.get (by assumption) ?_
  | refine KeptO3 (by assumption) ?_
  | fail_if_no_progress refine upd ?_ ?_; rotate_left; exact rfl
  | split

theorem State_flueConsume {s0} {s : State} (i : Nat) (hk : Kept s0 s) : Kept s0 (State.flueConsume s i) := by
  unfold State.flueConsume
  with_reducible repeat' first
  | assumption
  | (intro)
  | apply ite
  | apply State_flueReach
  | apply foldl

theorem State_grant {s0} {s : State} (arb : Nat) (g : Nat × Sent) (hk : Kept s0 s) : Kept s0 (State.grant s arb g) := by
  unfold State.grant
  with_reducible repeat' first
  | assumption
  | (intro)
  | apply ite
  | apply State_setLink
  | refine snd (by assumption) ?_
  | refine snd2 (by assumption) ?_
  | refine fst (by assumption) ?_
  | refine KeptOpt.get (by assumption) ?_
  | refine KeptO3 (by assumption) ?_
  | fail_if_no_progress refine upd ?_ ?_; rotate_left; exact rfl
  | split

theorem State_arbitrate {s0} {s : State} (arb : Nat) (is : List Nat) (hk : Kept s0 s) : Kept s0 (State.arbitrate s arb is) := by
  unfold State.arbitrate
  with_reducible repeat' first
  | assumption
  | (intro)
  | apply ite
  | apply State_grant
  | refine snd (by assumption) ?_
  | refine snd2 (by assumption) ?_
  | refine fst (by assumption) ?_
  | refine KeptOpt.get (by assumption) ?_
  | refine KeptO3 (by assumption) ?_
  | fail_if_no_progress refine upd ?_ ?_; rotate_left; exact rfl
  | split
  | dsimp only

theorem State_flueArrive {s0} {s : State} (i : Nat) (hk : Kept s0 s) : Kept s0 (State.flueArrive s i) := by
  unfold State.flueArrive
  with_reducible repeat' first
  | assumption
  | (intro)
  | apply ite
  | apply State_setLink
  | fail_if_no_progress refine upd ?_ ?_; rotate_left; exact rfl

theorem State_flueTick {s0} {s : State} (hk : Kept s0 s) : Kept s0 (State.flueTick s) := by
  unfold State.flueTick
  with_reducible repeat' first
  | assumption
  | (intro)
  | apply ite
  | apply State_flueArrive
  | apply State_arbitrate
  | apply State_flueConsume
  | apply State_dropStale
  | apply foldl
  | apply foldl1
  | apply foldl2
  | refine snd (by assumption) ?_
  | refine snd2 (by assumption) ?_
  | refine fst (by assumption) ?_
  | refine KeptOpt.get (by assumption) ?_
  | refine KeptO3 (by assumption) ?_
  | fail_if_no_progress refine upd ?_ ?_; rotate_left; exact rfl
  | split

theorem State_turnspitTick {s0} {s : State} (hk : Kept s0 s) : Kept s0 (State.turnspitTick s) := by
  unfold State.turnspitTick
  with_reducible repeat' first
  | assumption
  | apply ite
  | fail_if_no_progress refine upd ?_ ?_; rotate_left; exact rfl

theorem State_bellowsTick {s0} {s : State} (hk : Kept s0 s) : Kept s0 (State.bellowsTick s) := by
  unfold State.bellowsTick
  with_reducible repeat' first
  | assumption
  | fail_if_no_progress refine upd ?_ ?_; rotate_left; exact rfl

theorem State_tenderTick {s0} {s : State} (hk : Kept s0 s) : Kept s0 (State.tenderTick s) := by
  unfold State.tenderTick
  with_reducible repeat' first
  | assumption
  | apply ite
  | apply State_setCore

theorem State_guardTick {s0} {u : State} (hk : Kept s0 u) : Kept s0 (State.guardTick u) := by
  unfold State.guardTick
  with_reducible repeat' first
  | assumption
  | apply ite
  | apply State_guardLate
  | apply foldl
  | apply foldl1
  | apply foldl2
  | fail_if_no_progress refine upd ?_ ?_; rotate_left; exact rfl

theorem State_secondsTick {s0} {s : State} (hk : Kept s0 s) : Kept s0 (State.secondsTick s) := by
  unfold State.secondsTick
  with_reducible repeat' first
  | assumption
  | apply ite
  | apply State_countWrap
  | fail_if_no_progress refine upd ?_ ?_; rotate_left; exact rfl

theorem State_emberPeriod {s0} {s : State} (hk : Kept s0 s) : Kept s0 (State.emberPeriod s) := by
  unfold State.emberPeriod
  with_reducible repeat' first
  | assumption
  | (intro)
  | apply ite
  | refine snd (by assumption) ?_
  | refine snd2 (by assumption) ?_
  | refine fst (by assumption) ?_
  | refine KeptOpt.get (by assumption) ?_
  | refine KeptO3 (by assumption) ?_
  | fail_if_no_progress refine upd ?_ ?_; rotate_left; exact rfl

theorem State_emberTick {s0} {u : State} (hk : Kept s0 u) : Kept s0 (State.emberTick u) := by
  unfold State.emberTick
  with_reducible repeat' first
  | assumption
  | apply ite
  | apply State_emberPeriod
  | apply State_emberMatch
  | apply State_drawBit

theorem State_busTick {s0} {s : State} (hk : Kept s0 s) : Kept s0 (State.busTick s) := by
  unfold State.busTick
  with_reducible repeat' first
  | assumption
  | apply ite
  | apply State_hobDrain
  | apply foldl

theorem State_uartTick {s0} {s : State} (hk : Kept s0 s) : Kept s0 (State.uartTick s) := by
  unfold State.uartTick
  with_reducible repeat' first
  | assumption
  | apply ite
  | apply State_uartReplied
  | apply State_drawBit

theorem State_ownerTick {s0} {s : State} (hk : Kept s0 s) : Kept s0 (State.ownerTick s) := by
  unfold State.ownerTick
  with_reducible repeat' first
  | assumption
  | apply ite
  | fail_if_no_progress refine upd ?_ ?_; rotate_left; exact rfl

theorem State_tick {s0} {s : State} (hk : Kept s0 s) : Kept s0 (State.tick s) := by
  unfold State.tick
  with_reducible repeat' first
  | assumption
  | apply ite
  | apply State_ownerTick
  | apply State_uartTick
  | apply State_busTick
  | apply State_emberTick
  | apply State_secondsTick
  | apply State_guardTick
  | apply State_tenderTick
  | apply State_bellowsTick
  | apply State_turnspitTick
  | apply State_flueTick
  | apply State_copyTick
  | apply State_mantelStart
  | apply State_erairTick

end Sys2Proof.Machine.Kept
end

