-- ==== Sys2Proof/WellFormed.lean ====
section
/-! DEFINITION. Which commands are well formed: operands within the ranges that the spec's addresses, frames and numbers
give them. -/

namespace Sys2Proof

/-- A register address: page index 0x000-0x3FF, host byte offset a multiple of 4 within the page (R7, R479). -/
def wfReg (page off : Nat) : Bool := decide (page < 0x400) && decide (off < 0x1000) && decide (off % 4 = 0)

/-- An image granule index (R101). -/
def wfGranule (g : Nat) : Bool := decide (g < 294912)

/-- A Draught frame fits one record (R259, R263). -/
def wfFrame (f : List Byte) : Bool := decide (f.length ≤ 1176)

/-- A CAN FD payload (R309). -/
def wfCan (f : CanFrame) : Bool := decide (f.payload.length ≤ 64)

/-- A legacy station number (R265). -/
def wfLegacy (n : Nat) : Bool := decide (n < 65536)

/-- An information object address (R281). -/
def wfIoa (n : Nat) : Bool := decide (n < 0x1000000)

/-- A received APDU: send and receive numbers of 15 bits, addresses of 3 octets (R280). -/
def wfApdu (a : Apdu) : Bool :=
  match a with
  | .iFormat _ ns nr _ _ _ objs => decide (ns < 32768) && decide (nr < 32768) && objs.all fun o => wfIoa o.ioa
  | .sFormat nr => decide (nr < 32768)
  | _ => true

/-- A heartbeat payload has 14 words (R331). -/
def wfHeartbeat (ws : List W36) : Bool := decide (ws.length = 14)

/-- A record has its header and its CRC (R333). -/
def wfRecord (ws : List W36) : Bool := decide (9 ≤ ws.length)

/-- A witness datagram has 40 bytes (R356). -/
def wfWitness (bs : List Byte) : Bool := decide (bs.length = 40)

/-- A block as submitted (R486). -/
def wfBlock (b : Block) : Bool := decide (b.data.length ≤ 4096)

/-- A conserved balance names an existing part (R48). -/
def wfLedger (l : Ledger) : Bool :=
  match l with
  | .tokens _ tier => decide (tier < 256)
  | .segments st => decide (st < 77824)
  | _ => true

/-- The sub-code in x[0] that tells two instructions of one opcode apart (R147). -/
def wfSub (o : OpA) (b : Bool) : Bool := decide (o.x.toNat.testBit 0 = b)

/-- An unassigned opcode (R71, R139). -/
def wfUnassigned (w : W36) : Bool :=
  let op := w.toNat / 2 ^ 28
  decide (op = 0 ∨ (0x08 < op ∧ op < 0x10) ∨ op = 0x2F ∨ (0x3B < op ∧ op < 0x40) ∨ (0x45 < op ∧ op < 0x50) ∨
    (0x5D < op ∧ op < 0x70) ∨ (0x7A < op ∧ op < 0x80) ∨ (0x87 < op ∧ op < 0x90) ∨ (0x98 < op ∧ op < 0xA0) ∨ 0xA5 < op)

/-- The operands of a command lie within the ranges that the spec gives them. -/
def Instr.wf (i : Instr) : Bool :=
  match i with
  | .registerWrite _ page off _ => wfReg page off
  | .hostUnassignedAccess _ page off => wfReg page off
  | .hostAccessDiscard _ page off _ => decide (page < 0x400) && decide (off < 0x1000)
  | .mulh _ o => wfSub o false
  | .mulhu _ o => wfSub o true
  | .div _ o => wfSub o false
  | .divu _ o => wfSub o true
  | .rem _ o => wfSub o false
  | .remu _ o => wfSub o true
  | .illegalOpcode _ w => wfUnassigned w
  | .ownerWrite _ page _ => decide (page < 0x400)
  | .ledgerBreak l => wfLedger l
  | .hostImageRead off len => decide (off + len ≤ 0x10000000)
  | .hostImageWrite off data => decide (off + data.length ≤ 0x10000000)
  | .granuleCopyRequest g => wfGranule g
  | .copyCell g cur prev => wfGranule g && decide (cur.length = 32) && decide (prev.length = 32)
  | .dtlsRecord _ _ _ _ _ f => wfFrame f
  | .hobImageFrame _ f => wfCan f
  | .hobAckFrame _ f => wfCan f
  | .hobEventFrame _ f => wfCan f
  | .hobPeerFrame _ f => wfCan f
  | .hobStationWakeFrame _ f => wfCan f
  | .hobSleepVote _ f => wfCan f
  | .legacyApdu st a => wfLegacy st && wfApdu a
  | .legacyActcon st ioa _ => wfLegacy st && wfIoa ioa
  | .legacyNegHoldoffEnd st ioa => wfLegacy st && wfIoa ioa
  | .erairHeartbeat h => wfHeartbeat h
  | .erairRecord r => wfRecord r
  | .erairCellCrcError c => decide (c.words.length = 16)
  | .witnessProbe w => wfWitness w.bytes
  | .witnessAnswer w => wfWitness w.bytes
  | .witnessClaimNotice w => wfWitness w.bytes
  | .armMessage digest _ _ => decide (digest.length = 12)
  | .release cycles => decide (cycles.length = 3)
  | .mailboxDoorbell _ b _ => wfBlock b
  | .uartBlock _ b => wfBlock b
  | _ => true

end Sys2Proof
end

