-- ==== Sys2Proof/Tests/Slice0.lean ====
section
/-! SUPPORT. Tests: small states, for every statement the states and operands that meet all its hypotheses together, the checks
of WellFormed, and the spec's worked examples. -/

namespace Sys2Proof.Tests

open Sys2Proof.Machine

set_option maxRecDepth 20000
set_option linter.unusedVariables false

/-! Operands -/

def oA : OpA := ⟨3, 1, 2, 0⟩
def oA1 : OpA := ⟨3, 1, 2, 1⟩
def oAn : OpA := ⟨3, 1, 0, 0x1004⟩
def oAbad : OpA := ⟨3, 1, 2, 0x1004⟩
def oP : OpA := ⟨4, 6, 8, 0⟩
def oM : OpA := ⟨3, 1, 0, 0⟩
def oMp : OpA := ⟨4, 6, 0, 0⟩
def oT : OpA := ⟨4, 0, 0, 0⟩
def oZ : OpA := ⟨0, 0, 0, 0⟩
def oJr : OpA := ⟨0, 1, 0, 0⟩
def oI : OpI := ⟨3, 1, 0x100⟩
def oI4 : OpI := ⟨3, 1, 0xA⟩
def oIp : OpI := ⟨4, 1, 0x100⟩
def oS : OpI := ⟨3, 1, 0x100⟩
def oSp : OpI := ⟨4, 1, 0x100⟩
def oBr : OpI := ⟨0, 1, 0x100⟩
def oBrk : OpI := ⟨0, 0, 7⟩
def oSys : OpI := ⟨3, 0, 0x001⟩
def oSysw : OpI := ⟨0, 1, 0x004⟩
def oSyswD : OpI := ⟨1, 1, 0x004⟩
def oL : OpL := ⟨3, 0, 0, 9⟩
def oL9 : OpL := ⟨3, 1, 9, 9⟩
def oB : OpB := ⟨3, 1, 2, 5⟩
def oB0 : OpB := ⟨0, 1, 2, 5⟩
def oBw : OpB := ⟨3, 1, 0, 5⟩
def oBbad : OpB := ⟨3, 2, 2, 5⟩
def oJ : OpJ := ⟨9⟩

/-! The unit in Held, with DRAM, after the boot ROM -/

def desc0 : Desc := ⟨0, 0, true, false, false, false, 0, 0, 0, 0, 0, 5, 0, [], [(0, 1)], 0, []⟩
def prog0 : Program := { Program.empty with descs := [desc0], full := false, version := 1 }
def held : State :=
  { State.reset with fit := { State.reset.fit with chimney := true } }.setFields [(Reg.pwrStatusMode, modeHeld), (Reg.drmConfigCapacity, 1), (Reg.tenStatusRom, 0)]
def heldProg0 : State := { held with bellows := { held.bellows with active := some prog0 } }

/-! The Tender -/

def tend : State := held.mapCore .tender fun x => (x.setReg 1 0x3000).setReg 6 6
def tendDram : State := held.mapCore .tender fun x => x.setReg 1 0x400000000
def tendBad : State := held.mapCore .tender fun x => x.setReg 1 0x20000
def tendStk : State := held.mapCore .tender fun x => { x with secure := ⟨0x3000, 0x2F00, 0x3100⟩ }
def store1 : Store := ⟨0x400000000, [1], none, true, none⟩
def load1 : Load := ⟨0, [(3, 5)], 0x400000000, [0x400000000], false, false, 0⟩
def tendPosted : State := held.mapCore .tender fun x => { x with stores := [store1] }
def tendUser : State := held.mapCore .tender fun x => { x with psw := 0x182 }
def tendLoad : State := held.mapCore .tender fun x => { x with loads := [load1] }
def load2 : Load := { load1 with addr := 0x1000000, covers := [0x1000000], bad := true }
def tendLoadHearth : State := held.mapCore .tender fun x => { x with loads := [load2] }
def tendFence : State := held.mapCore .tender fun x => { x with stores := [store1], issue := .fenceWait }
def tendNmi : State :=
  { held.mapCore .tender fun x => { x with issue := .wfiWait } with fireguard := { held.fireguard with nmi := true } }
def tendIrq : State :=
  (held.mapCore .tender fun x => { x with psw := 0x187 }).setFields
    [(Reg.ownerWorld 1, 1), (Reg.pwrEventWoke, 1), (Reg.pwrEventEnableEnables, 0xFF)]
def authed (s : State) : State := { s with poker := { s.poker with auth := true } }
def tendBrk : State := authed (held.mapCore .tender fun x => x.setDbg 0x22 1)
def tendHalt : State := authed (held.mapCore .tender fun x => { x with haltReq := true })
def worldly : State := (held.setFld (Reg.ownerWorld 1) 1).setFld (Reg.ownerHostW 1) 0

/-! An engine that runs a block -/

def run0 : Running := ⟨⟨0, 0, 0, 0, none, false⟩, none, [(0, 1)], [], false⟩
def eng : State := heldProg0.mapCore (.engine 0) fun x =>
  { (x.setReg 1 0x1000000).setSys 0x012 0x1000 with issue := .running, run := some run0 }
def desc1 : Desc := { desc0 with budget := 5 }
def engBudget : State :=
  { eng with bellows := { eng.bellows with active := some { prog0 with descs := [desc1] }, ns := 1000 } }

/-! The image -/

def imageIdle : State := { held with hearth := { held.hearth with classMap := [(0, 0)] } }
def imageWritten : State := imageIdle.writeWord 5 1
def tendLsBad : State := tend.mapCore .tender fun x => { x with lsBad := [0x3000, 0x3100] }

/-! The Hearth, the cycle, the hardware and the edits -/

def withMode (s : State) (m : Nat) : State := s.setFld Reg.pwrStatusMode m
def withRole (s : State) (r : Nat) : State := s.setFld Reg.eraStatusRole r
def settling : State := held.setFldBit Reg.hrtStatusSettling 0 true
def scrubbing : State := held.setFld Reg.hrtControlScrub 1
def capturing : State := held.setFld Reg.hrtStatusCaptureBusy 1
def primary6 : State := withRole held 6
def primary : State := withMode heldProg0 modePrimary
def bound0 : Nat × Nat := (primary.arriving 0).getD (0, 0)
def phaseOf (p : Nat) (tiers : List TierRt) : State :=
  (primary.setFld (Reg.blwClStatusPhase 0) p).onCls 0 fun rt =>
    { rt with finished := false, number := some 0, tiers := tiers, inflight := [(0, 0)] }
def tier0 : TierRt := ⟨0, [0], [0], false⟩
def phase1 : State := phaseOf 1 []
def bound1 : Nat × Nat := (phase1.arriving 0).getD (0, 0)
def phase2 : State := phaseOf 2 [tier0]
def phase2e : State := phaseOf 2 []
def phase3 : State := phaseOf 3 []
def phase4 : State := phaseOf 4 []
def stalled : State := held.onCls 0 fun rt => { rt with stalledNow := true }
def spareLoading : State := held.setFld (Reg.fbxERoleState 0) 3
def chan1 : State := held.setChState 0 1
def mirrored : State := (chan1.setChState 1 1).setFld Reg.drmConfigMirror 1
def mapped0 : State := mirrored.setChState 0 2
def resilvering : State := mirrored.setChState 0 3
def editIn (n : Nat) (s : State) : State := s.setFld Reg.edtStatusState n
def edit1 : State := editIn 1 held
def edit2 : State := editIn 2 held
def heldStaged : State := editIn 3 { held with bellows := { held.bellows with shadow := some prog0 } }
def edit3 : State := (withRole heldStaged 5).setFld Reg.edtActCycleLoCycleLo 100
def rollable : State :=
  (withRole { held with bellows := { held.bellows with rollback := some prog0 } } 5).setFields
    [(Reg.edtActCycleLoCycleLo, 100), (Reg.edtStatusRollbackAvail, 1)]
def edit4 : State := editIn 4 held
def standbyStaged : State := withRole heldStaged 3
def standby4 : State := withRole edit4 3
def armWaiting : State :=
  { held with edit := { held.edit with partnerWait := true }, erair := { held.erair with armWait := some ([], 0, 5) } }
def periodic : State := held.setFld (Reg.blwClPeriodPeriod 0) 1000

def standbyAt : State := periodic

/-! Chimney -/

def station0 : StationDecl :=
  { kind := 1, num := 5, cls := 0, outMode := true, resend := false, events := true, outAck := false, ibBase := 0, ibCount := 0
    iwBase := 0, iwCount := 1, obBase := 0, obCount := 0, owBase := 1, owCount := 0, layoutHash := 0, periodMs := 10
    ageLimit := 0, ageWarn := 0, idHash := 9, ca := 0, orig := 0, points := [], addr := 0, tcpPort := 0, t1 := 0, t2 := 0
    t3 := 0, k := 0, w := 1, giS := 1, csMin := 1 }
def dDr : StationDecl := station0
def dLg : StationDecl := { station0 with kind := 2, num := 6 }
def dBus : StationDecl := { station0 with kind := 4, num := 7 }
def dHob : StationDecl := { station0 with kind := 4, num := 65536 }
def peer0 : Peer := ⟨1, 2⟩
def dg0 : Datagram := ⟨0, peer0, none, 47231, 100⟩
def hs0 : Handshake := ⟨dg0, true, true, false, true, true, 1, 8, true, [1, 2, 3]⟩
def hsBad : Handshake := { hs0 with authentic := false }
def hsNew : Handshake := { hs0 with cookieValid := false }
def frameOf (kind : Nat) (rest : List Byte) : List Byte :=
  [BitVec.ofNat 8 (16 + kind), 0, 0, 0, 5, 0, 0, 0, 0, 0, 0, 0, 0, 0, 0, 0, 0, 0, 0, 0, 0, 0, 0, 0] ++ rest
def bindFrame : List Byte := frameOf 1 [0, 1, 0, 1, 0, 0]
def intakeFrame : List Byte := frameOf 2 [0]
def ackFrame : List Byte := frameOf 4 [0]
def eventFrame : List Byte := frameOf 6 [0, 0, 0, 0, 0, 0, 0, 0, 0, 0, 8, 0, 0, 0, 0, 1]
def progSt : Program := { prog0 with stations := [dDr, dLg, dBus, dHob] }
def chmUp : State :=
  { heldProg0 with
    fit := { State.reset.fit with chimney := true, hob := true, grate := true, mantel := true }
    bellows := { held.bellows with active := some progSt }
    relining := { held.relining with running := [(1, true), (2, true), (3, true), (4, true), (5, true)] } }.setFields
    [(Reg.chmControlEnable, 1), (Reg.chmStatusCoresUp, 0xFF), (Reg.chmXControlMode 0, 1), (Reg.chmXControlStations 0, 1),
      (Reg.chmControlAcceptBind, 1), (Reg.hobControlEnable, 1), (Reg.eraStatusRole, 5), (Reg.chmEvqEntriesLog2, 8),
      (Reg.chmEvqBaseEvqBase, 0x4000)]
def sesWith (inbox : List (Nat × List Byte)) : Session :=
  { Session.none with phase := 3, identity := 9, cid := 8, station := some 5, inbox := inbox }
def chmSes : State := (chmUp.setSession 0 (sesWith [])).onStation 5 fun t => { t with session := some 0 }
def chmUnbound : State := chmUp.setSession 0 { sesWith [] with station := none }
def chmRate : State := { chmUp with handshakes := (0, 3000) }
def atSecond (n : Nat) (s : State) : State := { s with bellows := { s.bellows with ns := n * 1000000000 } }
def chmKeyed : State := atSecond 90000 chmSes
def chmIdle : State := atSecond 4000 chmSes
def sesOther : Session := { sesWith [] with identity := 8 }
def chmBindBad : State := chmSes.setSession 0 { sesOther with inbox := [(0, bindFrame)] }
def chmFrame (f : List Byte) : State := chmSes.setSession 0 (sesWith [(0, f)])
def chmBind : State := chmFrame bindFrame
def chmIntake : State := chmFrame intakeFrame
def chmAck : State := chmFrame ackFrame
def chmEvent : State := chmFrame eventFrame
def outStation (n : Nat) (s : State) : State := s.onStation n fun t => { t with outValid := true }
def chmOut : State := (withMode (outStation 7 (outStation 5 chmSes)) modePrimary).setFld (Reg.hobPStatusEffective 0) 1
def chmDropped : State := chmUp.onStation 5 fun t => { t with state := 2 }
def chmDisabled : State := chmUp.onStation 5 fun t => { t with state := 3 }
def chmAddr : State := { chmUp with addrTable := [(addrKey 0 0, [0, 0, 0, 0, 0x1000])] }
def dLgId : StationDecl := { dLg with idHash := identityOf [1, 2, 3] }
def lgIdOpen : State :=
  { chmUp with bellows := { chmUp.bellows with active := some { progSt with stations := [dDr, dLgId, dBus, dHob] } } }.onStation 6
    fun t => { t with legacy := 1, tls13 := true }
def lgIn (n : Nat) (f : StationRt → StationRt) : State := chmUp.onStation 6 fun t => f { t with legacy := n, tls13 := true }
def lgDown : State := lgIn 0 id
def lgRetry : State := lgIn 0 fun t => { t with retryS := 1 }
def lgOpen : State := lgIn 1 id
def lgStarted : State := lgIn 4 id
def lg12 : State := lgIn 4 fun t => { t with tls13 := false }
def lgCmd : State := lgIn 4 fun t => { t with pendingCmds := [(6, 0)] }
def lgInt : State := lgIn 4 fun t => { t with interrogating := true }
def lgTest : State := lgIn 4 fun t => { t with testOut := true, unsent := 1 }

/-- A packet on VC0 without data. -/
def packetA : Packet := ⟨⟨0, 0, .vc0, .load, 0⟩, payload []⟩

/-! Hob -/

def hobOn : State :=
  chmUp.setFields [(Reg.hobPStatusEffective 0, 1), (Reg.hobStatusSeqUp, 0xFFF)]
def hobIn (m : Nat) (f : HobPort → HobPort) : State :=
  (hobOn.setHobPort 0 (f HobPort.reset)).setFld (Reg.hobPStatusEffective 0) m
def canOf (ident : BitVec 11) (four six ten sixteen : Byte) : CanFrame :=
  ⟨ident, [0, 0, 0, 0, four, 0, six, 0, 0, 0, ten, 0, 0, 0, 0, 0, sixteen] ++ List.replicate 47 0xFF, false⟩
def canImage : CanFrame := ⟨0x100, [0, 0, 0, 0, 0, 0, 0x10, 0] ++ List.replicate 56 0, false⟩
def canLate : CanFrame := { canImage with late := true }
def canAck : CanFrame := canOf 0x101 0 0 0 0
def canEvent : CanFrame := canOf 0x102 0 0 0 0
def canPeer : CanFrame := canOf 0x000 0 0 0 0
def canWake : CanFrame := canOf 0x700 0x14 0 0 0
def canVote : CanFrame := canOf 0x700 0x11 0 0 0
def hobQuiet : State := hobIn 4 id
def hobAsking : State := hobIn 3 fun h => { h with asking := true }
def hobRefusing : State := hobAsking.onStation 65536 fun t => { t with state := 1 }
def txBuf (n : Nat) (backoff : Bool) : TxBuf := ⟨n, ⟨0, [], none, 0, false⟩, 0, backoff⟩
def hobSending : State := hobIn 1 fun h => { h with bufs := [(2, txBuf 2 false)] }
def hobBackoff : State := hobIn 1 fun h => { h with bufs := [(2, txBuf 1 true)] }
def hobMaster : State :=
  (hobOn.setFld (Reg.hobPControlTimeMaster 0) 1).onCls 0 fun rt => { rt with number := some 0, lastBound := some 0 }
def hobRef : State := hobIn 1 fun h => { h with bufs := [(0, txBuf 1 false)] }
def hobIsOff : State := hobOn.setFields [(Reg.hobPStatusErrState 0, 2), (Reg.hobPControlAutoRecover 0, 1)]
def hobWants : State := hobIn 1 fun h => { h with modeReq := some 2 }
def hobSleepy : State := hobOn.setFld (Reg.hobPControlSleepOk 0) 1
def hobAsleep : State := hobIn 5 id
def hobGroup0 : State := hobAsleep.setFldBit Reg.hobGroupStandbyStandby 0 true
def hobRestart : State := hobIn 5 fun h => { h with modeReq := some 1 }
def hobBanked : State := withMode hobOn 4

/-! The pair -/

def hb0 : Heartbeat := ⟨1, 2, false, false, 0, 0, 0, [0, 0, 0], 1, 0x100, 0, 0, 0, 0⟩
def rec0 : CycleRecord := ⟨0, none, false, 0, 0, [], [], [], []⟩
def out0 : Outstanding := ⟨0, 0, rec0⟩
def ver0 : VersionMsg :=
  ⟨0, 1, List.replicate 7 0xFFFF, [], (0, 1, 0), [(0, 0, true), (0, 0, true), (0, 0, true)], true, true, 0, [], false, true, 0⟩
def states0 : SyncStates := ⟨[], [[], [], []], [[], [], []], [], [], [false, false, false], 7⟩
def pairUp : State :=
  { chmUp with
    erair := { Erair.reset with up := true, partner := some hb0 } }.setFields
    [(Reg.eraControlEnable, 1), (Reg.eraStatusLanes, 0xF), (Reg.hobStatusTurnspit, 1), (Reg.eraStatusRole, 5), (Reg.pwrStatusMode, modePrimary)]
def onErair (s : State) (f : Erair → Erair) : State := { s with erair := f s.erair }
def pairPrimary : State := atSecond 1 pairUp
def pairUp2 : State := withRole pairUp 2
def pairDown : State := (onErair pairUp fun e => { e with up := false }).setFld Reg.eraStatusLanes 0
def pairStandby : State := (withRole pairUp 4).setFields [(Reg.eraControlLineEn, 1), (Reg.grtPairPartnerEn, 1)]
def pairSent : State := onErair pairUp fun e => { e with outstanding := [out0] }
def pairSync : State :=
  (onErair { pairUp with mantel := { pairUp.mantel with programmed := [(eraImage / 512, true)] } } fun e =>
    { e with versions := some ver0, syncAsked := true }).setFields
    [(Reg.rlnVerVersion 5, 0xFFFF), (Reg.eraStatusTimeOk, 1), (Reg.blwClControlLock 0, 1), (Reg.blwClControlLock 1, 1), (Reg.blwClControlLock 2, 1)]
def pairCopying : State := withRole pairUp 3
def copied (s : State) : State := s.setFld Reg.eraSyncProgressGranules 294912
def pairCopied : State := copied pairCopying
def pairSyncing : State := copied (withRole pairUp 6)
def pairListen : State := withRole pairUp 1
def pairTake : State := (withRole pairUp 4).setFld Reg.eraControlTakeoverEn 1
def pairSynced : State := (withRole pairUp 7).setFields [(Reg.blwClPeriodPeriod 0, 1000), (Reg.blwClPeriodPeriod 1, 5000),
  (Reg.blwClPeriodPeriod 2, 100000)]
def pairSwap : State := onErair pairUp fun e => { e with swap := some ⟨1, 0, 0, 0⟩ }
def pairSwap2 : State := onErair pairUp fun e => { e with swap := some ⟨2, 0, 0, 0⟩ }
def pairSwapBusy : State := (atSecond 5 pairSwap).setFld Reg.hobStatusTurnspit 0
def pairEdges : State := (onErair pairUp fun e => { e with edges := [2, 2] }).setFld Reg.grtPairPartnerEn 1
def pairAuto : State := pairUp.setFld Reg.eraControlAutoSync 1
def pairManual : State := pairUp.setFld Reg.eraControlAutoSync 0
def pairWitness : State :=
  pairDown.setFields [(Reg.eraControlWitnessEn, 1), (Reg.eraStatusWitnessKey, 1), (Reg.chmXControlWitness 0, 1)]
def dgWit : Datagram := { dg0 with udpPort := 47232 }
def witnessBytes (kind role : Nat) : List Byte :=
  witnessHead kind 1 role 0 0 0 ++ witnessTag 0 (witnessHead kind 1 role 0 0 0)
def witAt : State := pairWitness.countWrap (Reg.chmXRxFramesRxFrames 0)

/-- A datagram with the tag of its own head verifies. -/
theorem witness_good (kind role : Nat) (h : ∀ t, field (witnessHead kind 1 role 0 0 0 ++ t) 4 1 = kind) :
    witAt.witnessGood kind (witnessBytes kind role) = true := by
  have hl : (witnessHead kind 1 role 0 0 0).length = 24 := rfl
  have ht : ∀ x, (witnessTag 0 x).length = 16 := fun _ => rfl
  have hk : witAt.erair.key = 0 := by rfl
  have hm : ∀ t, field (witnessHead kind 1 role 0 0 0 ++ t) 0 4 = 0x4F435757 := fun _ => by simp [field, witnessHead, beBytes, beNat, List.range_succ]
  simp only [State.witnessGood, witnessBytes, Bool.and_eq_true, decide_eq_true_eq, List.length_append, hl, ht, hk, h, hm,
    List.drop_left' hl, List.take_left' hl]
  exact ⟨⟨⟨⟨⟨by decide, by decide⟩, trivial⟩, trivial⟩, trivial⟩, trivial⟩
theorem witness_good_1 : witAt.witnessGood 1 (witnessBytes 1 0) = true := witness_good 1 0 fun _ => rfl
theorem witness_good_2 : witAt.witnessGood 2 (witnessBytes 2 0) = true := witness_good 2 0 fun _ => rfl
theorem witness_good_25 : witAt.witnessGood 2 (witnessBytes 2 5) = true := witness_good 2 5 fun _ => rfl
theorem witness_good_3 : witAt.witnessGood 3 (witnessBytes 3 0) = true := witness_good 3 0 fun _ => rfl
def pairConfirm : State := onErair pairWitness fun e => { e with confirming := true, probes := 3 }
def pairNotices : State := onErair pairUp fun e => { e with notices := 1 }

/-! Turnspit, Grate, Mantel, Ashpit and the modes -/

def tspUp : State := hobOn.setFld Reg.hobStatusTurnspit 1
def tspTracking : State := tspUp.setFld (tspStateFld 0) 1
def ptp0 : PtpMessage := ⟨0, none, false⟩
def tspPtp : State := tspUp.setFld (Reg.chmXControlPtp 0) 1
def grateOn : State := chmUp
def grateIn : State := chmUp.setFields [(Reg.grtGConfigMode 0, 1), (Reg.grtControlEnable, 1)]
def grateOut : State := chmUp.setFldBit Reg.grtOutStateOutState 0 true
def grateFault : State :=
  (chmUp.setChannel 0 { Channel.reset with cmd := true }).setFldBit Reg.grtFaultFault 0 true
def grateRetrying : State := grateOut.setChannel 0 { Channel.reset with cmd := true, retry := true }
def part1 : Partition := ⟨0x20000, 0x40000, false, true⟩
def part11 : Partition := ⟨0x2000000, 0x4400000, true, true⟩
def onMantel (s : State) (f : Mantel → Mantel) : State := { s with mantel := f s.mantel }
def mntRead : State := held.setFields [(Reg.mntAddrAddr, 0x20000), (Reg.mntLenLen, 8), (Reg.mntBufLoBufLo, 0x3000)]
def mntStage : State := mntRead.setFld Reg.mntAddrAddr 0x2000000
def mntStaged : State := mntStage.setCommitBuf 11 ⟨0x200, [(0x2000000, 1)]⟩
def mntParam : State := mntRead
def mntRetain : State := held.setFld Reg.hrtStatusCaptureValid 1
def erase0 : MantelOp := ⟨5, 0x2000000, 8, 0, true, 1, 8, 0, false, []⟩
def mntErasing : State := onMantel held fun m => { m with op := some erase0 }
def mntDevOp : MantelOp := { erase0 with op := 8, addr := retainSlotBase 0 }
def mntDev : State := onMantel held fun m => { m with dev := [mntDevOp], held := [(1, 1)] }
def mntBackground : State := onMantel held fun m => { m with background := [5] }
def priv0 : PrivCommit := ⟨0, 0, [], 0⟩
def mntPriv : State := onMantel held fun m => { m with priv := [priv0] }
def ashFilled : State := held.setFld Reg.ashFillFill 64
def ashEmpty : State := held.setFld Reg.ashFillFill 0
def ashFlushing : State := ashFilled.setFld Reg.ashStatusFlushing 1
def ashClearing : State := onMantel (ashFilled.setFld Reg.ashStatusClearing 1) fun m => { m with background := [0x700] }
def running : State := primary.onCls 0 fun rt => { rt with finished := false }
def heldProg2 : State :=
  (List.range 128).foldl (fun s e => s.setFld (Reg.fbxERoleState e) 1) (heldProg0.setFld Reg.pwrControlRestart 2)
def heldProg : State := { heldProg2 with started := true }
def banked : State := (withMode held 4).setFields [(Reg.pwrStatusBankStage, 1), (Reg.pwrBankDeepMs, 5)]
def raking3 : State := { held with raking := some ⟨false, 3, false⟩ }
def coldStart : State := State.reset
def sweepNone : SweepFind := ⟨[], [], [], [], [], [], 0⟩
def find0 : KindlingFind := ⟨sweepNone, 2, 1, true, true, true, true, true, true, [true, true, true, true, true, true, true], 3000⟩
def kindled : State := { withMode held 1 with kindling := .full }

/-! Power, the Ember rail, the guards and the sweep -/

def pdCut : State := held.setFields [(Reg.pwrPdControlState 3, 1), (Reg.pwrPdControlReq 3, 1)]
def pdSwitching : State := held.setFields [(Reg.pwrPdControlState 3, 3), (Reg.pwrPdControlReq 3, 0)]
def pdSwitching2 : State := held.setFields [(Reg.pwrPdControlState 3, 3), (Reg.pwrPdControlReq 3, 2)]
def emberOnly : State := { withMode held 0 with pins := { held.pins with mainValid := false } }
def noClock : State := { held with pins := { held.pins with refclkOk := false } }
def expired : State := held.setFld Reg.fgdStatusExpired 1
def perstLow : State := { held with pins := { held.pins with perstN := false } }
def failing : State := held.setFld Reg.pwrStatusPf 1
def pfDone : State := onMantel failing fun m => { m with pf := 2 }
def emb : State := held
def embHalted : State := held.setFld Reg.embStatusHalted 1
def embAlarm : State := { held with ember := { held.ember with matched := true } }.setFields [(Reg.embControlAlarmEn, 1), (Reg.embStatusHalted, 0)]
def guarded : State :=
  { held with fireguard := { held.fireguard with elapsed := 1000000 } }.setFields
    [(Reg.fgdStatusSysOn, 1), (Reg.fgdSysConfigWmin, 1), (Reg.fgdSysConfigWmax, 20)]
def guardedLate : State := guarded.setFld Reg.fgdSysConfigWmax 10
def guardedCl : State :=
  { held with fireguard := { held.fireguard with since := [some (0, false), none, none] } }.setFldBit Reg.fgdStatusClOn 0 true
def sweeping : State := { held with sweepTest := some (2, 2) }
def sweeping1 : State := { held with sweepTest := some (1, 2) }
/-! Poker, the host, Relining and the fuses -/

def onPoker (s : State) (f : Poker → Poker) : State := { s with poker := f s.poker }
def onFuses (s : State) (f : Fuses → Fuses) : State := { s with fuses := f s.fuses }
def onRln (s : State) (f : Relining → Relining) : State := { s with relining := f s.relining }
def pkrHalted : State := authed (held.mapCore .tender fun x => { x with halted := true })
def pkrRunning : State := authed held
def pkrChallenge : State := onPoker (onFuses held fun f => { f with debugKey := some 0 }) fun p => { p with challenge := [7, 7, 7, 7, 7, 7, 7, 7] }
def pkrKeyed : State := onPoker pkrChallenge fun p => { p with chalRead := 8 }
def pkrChallenged : State := pkrKeyed
def pkrResponding : State := onPoker pkrKeyed fun p => { p with response := List.replicate 23 1 }
def pkrLockout : State := onPoker pkrKeyed fun p => { p with lockout := true }
def pkrSandbox : State :=
  (onPoker heldProg0 fun p => { p with sel := 0 }).setFields [(Reg.pkrSandboxBaseSbBase, 0x400), (Reg.fbxERoleState 0, 2)]
def pkrSandboxed : State := onPoker pkrSandbox fun p => { p with sandbox := some (0, 0, 0) }
def blockMsg : Block := ⟨3, 0, 8, BitVec.ofNat 32 (crc32c [1, 2, 3, 4, 5, 6, 7, 8]), [1, 2, 3, 4, 5, 6, 7, 8]⟩
def blockRln : Block := { blockMsg with kind := 2 }
def rlnReceiving : State := held.setFields [(Reg.rlnStatusState, 1), (Reg.rlnStageBaseStageBase, 0x4000)]
def mailBusy : State := held.setMailbox 0 ⟨1, 0, 1, blockMsg⟩
def mailWaiting : State := mailBusy
def mailOrdered : State := { mailBusy with mailOrder := [0] }
def linkUp : State := held.setFld Reg.pciStatusDlActive 1
def uartUp : State := chmUp.setFld Reg.tenSvcLevel 2
def uartWaiting : State := { uartUp with uartWait := some 7 }
def uartRln : State := uartUp.setFields [(Reg.rlnStatusState, 1), (Reg.rlnStageBaseStageBase, 0x4000)]
def reset0 : State := State.reset
def fused : State := onFuses held fun f => { f with slots := [(0, 1), (1, 1)] }
def fusing : State := onFuses held fun f => { f with op := some (1, 0, 0) }
def rlnChecking : State := held.setFld Reg.rlnStatusState 2
def rlnReady : State := onRln (held.setFld Reg.rlnStatusState 3) fun r => { r with comp := 1 }
def rlnWriting : State := onRln (held.setFld Reg.rlnStatusState 4) fun r => { r with comp := 1 }
def rlnRestarting : State := onRln rlnWriting fun r => { r with restarting := some 2 }
def noPwron : State := held.setFld Reg.embControlWakePwron 0
def verified : State := held.setFields ((List.range 7).map fun i => (Reg.rlnVerState i, 1))
def hostReads : State := held.setFld (Reg.ownerHostR 1) 1
def hostOut : State := held.setFld (Reg.ownerHostW 1) 0
def perstHigh : State := { held with pins := { held.pins with perstN := true } }

def heldSig : State := { held with rwlSet := Sparse.put held.rwlSet false (rwlKey 0x015 0x008) true }
def heldEcc : State := held.setFld Reg.hrtEventCorrected 1


/-! ## Witnesses: every statement's hypotheses are met together -/

theorem wit_StepTakesTheFrontCommand : ∃ (s : State), (s.pending = []) :=
  ⟨State.reset, by decide⟩

theorem wit_FlashStaysCanonical : ∃ (s : State) (t : State), (s.memOk = true) ∧ (step s = .next t) :=
  ⟨held, held.tick, by decide, rfl⟩

theorem wit_FusesAreNeverTakenBack : ∃ (f : Fuses) (s : State) (t : State), (Fuses.Later f s.fuses) ∧ (step s = .next t) :=
  ⟨State.reset.fuses, held, held.tick, Fuses.Later.refl _, rfl⟩

theorem wit_RegisterInstructionsChangeOnlyTheirDestinations : ∃ (i : Instr) (f : RegForm) (s : State), (regForm i = some f) ∧ (s.ready f.core f.len = true) ∧ (s.lands f.core f.srcs f.dests = true) ∧ (s.untraced f.core = true) :=
  ⟨.add .tender oA, ⟨.tender, 1, [oA.a, oA.b], [oA.d]⟩, tend, by decide⟩

theorem wit_StoresChangeOnlyTheirWords :
    (∃ (i : Instr) (f : StoreForm) (s : State), (storeForm i = some f) ∧ (s.ready f.core 1 = true) ∧ (s.lands f.core f.srcs [] = true) ∧ (s.storeGoes f .ls = true) ∧ (s.untraced f.core = true)) ∧
    (∃ (i : Instr) (f : StoreForm) (s : State) (sp : Space), (storeForm i = some f) ∧ (s.ready f.core 1 = true) ∧ (s.lands f.core f.srcs [] = true) ∧ (sp ≠ .ls) ∧ (s.storeGoes f sp = true) ∧ (s.untraced f.core = true) ∧ ((s.storeSeen f).stores.length < 4)) :=
  ⟨⟨.stw .tender oS, _, tend, rfl, by decide⟩,
    ⟨.stw .tender oI, _, tendDram, .dram, rfl, by decide⟩⟩

theorem wit_ImageWritesFollowThePseudocode :
    (∃ (s : State) (w : Nat), ((s.copyBad false w = false ∧ s.copyBad true w = false))) ∧
    (∃ (s : State) (w : Nat) (v : W36), ((s.copyBad false w = false ∧ s.copyBad true w = false)) ∧ (s.wordClass w < 3) ∧ (v = s.readCur w)) ∧
    (∃ (s : State) (w : Nat) (v : W36), ((s.copyBad false w = false ∧ s.copyBad true w = false)) ∧ (s.wordClass w < 3) ∧ (v ≠ s.readCur w) ∧ (s.written w = false) ∧ (s.par (s.wordClass w) < 2)) ∧
    (∃ (s : State) (w : Nat) (v : W36), ((s.copyBad false w = false ∧ s.copyBad true w = false)) ∧ (s.wordClass w < 3) ∧ (v ≠ s.readCur w) ∧ (s.written w = true) ∧ (s.par (s.wordClass w) < 2)) ∧
    (∃ (s : State) (w : Nat) (v : W36) (x : Nat), ((s.copyBad false w = false ∧ s.copyBad true w = false)) ∧ (s.wordClass w < 3) ∧ (x ≠ w)) ∧
    (∃ (s : State) (w : Nat) (v : W36) (k : Fin 3), ((s.copyBad false w = false ∧ s.copyBad true w = false)) ∧ (s.wordClass w < 3) ∧ (v ≠ s.readCur w) ∧ (s.par 0 < 2) ∧ (s.par 1 < 2) ∧ (s.par 2 < 2)) :=
  ⟨⟨imageIdle, 5, by decide⟩,
    ⟨imageIdle, 5, 0, by decide⟩,
    ⟨imageIdle, 5, 1, by decide⟩,
    ⟨imageWritten, 5, 2, by decide⟩,
    ⟨imageIdle, 5, 1, 6, by decide⟩,
    ⟨imageIdle, 5, 1, 1, by decide⟩⟩

theorem wit_SilentStoresChangeNothing :
    (∃ (s : State) (w : Nat), ((s.copyBad false w = false ∧ s.copyBad true w = false)) ∧ (s.wordClass w < 3)) ∧
    (∃ (s : State) (w : Nat) (ws : List W36), (∀ n, n < ws.length → s.copyBad false (w + n) = false ∧ s.copyBad true (w + n) = false ∧ s.wordClass (w + n) < 3 ∧ ws.getD n 0 = s.readCur (w + n))) ∧
    (∃ (s : State) (e : Nat) (a : Nat) (i : Option Nat) (w : Nat), (w = imageWord a) ∧ ((s.copyBad false w = false ∧ s.copyBad true w = false)) ∧ (s.wordClass w < 3) ∧ ((match (s.core e).run with | some r => r.sandbox | none => false) = false)) ∧
    (∃ (s : State) (w : Nat), ((s.copyBad false w = false ∧ s.copyBad true w = false)) ∧ (s.wordClass w < 3) ∧ ((s.readCur w).toNat.testBit 35 = false)) ∧
    (∃ (s : State) (w : Nat), ((s.copyBad false w = false ∧ s.copyBad true w = false)) ∧ (s.wordClass w < 3) ∧ (s.noIntake (s.wordClass w) = true)) :=
  ⟨⟨imageIdle, 5, by decide⟩,
    ⟨imageIdle, 5, [0, 0], by decide⟩,
    ⟨imageIdle, 0, 0x1000005, none, 5, by decide⟩,
    ⟨imageIdle, 5, by decide⟩,
    ⟨imageIdle, 5, by decide⟩⟩

theorem wit_RefusedAccessesChangeNothingElse :
    (∃ (s : State) (page : Nat) (off : Nat) (v : W32), (s.hostUp = true) ∧ ((s.mainUp = true ∧ pageAssigned page = true ∧ off ≠ 0x000 ∧ off ≠ 0x01C)) ∧ (s.bit (Reg.ownerHostW page) = false)) ∧
    (∃ (s : State) (page : Nat) (off : Nat) (v : W32), ((s.mainUp = true ∧ pageAssigned page = true ∧ off ≠ 0x000 ∧ off ≠ 0x01C)) ∧ (s.bit (Reg.ownerWorld page) = true)) ∧
    (∃ (s : State) (page : Nat) (off : Nat) (v : W32), ((s.mainUp = true ∧ pageAssigned page = true ∧ off ≠ 0x000 ∧ off ≠ 0x01C)) ∧ (s.bit (Reg.ownerHostW page) = false ∨ s.svcLevel ≠ 2)) ∧
    (∃ (s : State) (page : Nat) (off : Nat) (v : W32), (s.hostUp = true) ∧ (pageAssigned page = false) ∧ (page < 0x400)) ∧
    (∃ (s : State) (r : Requester) (page : Nat) (off : Nat) (v : W32), (s.mainUp = true) ∧ (pageAssigned page = false) ∧ (r = .tenderSecure ∨ r = .tenderNormal)) ∧
    (∃ (s : State) (r : Requester) (page : Nat) (v : W32), (s.mainUp = true) ∧ (pageAssigned page = true) ∧ (r ≠ .tenderSecure ∨ s.bit (Reg.ownerLock page) = true)) ∧
    (∃ (s : State) (c : CoreId) (a : W36), (isPage a.toNat = true) ∧ (pageAssigned (pageOf a.toNat) = false)) :=
  ⟨⟨worldly, 0x001, 0x020, 1, by decide⟩,
    ⟨worldly, 0x001, 0x020, 1, by decide⟩,
    ⟨worldly, 0x001, 0x020, 1, by decide⟩,
    ⟨held, 0x00A, 0x020, 1, by decide⟩,
    ⟨held, .tenderSecure, 0x00A, 0x020, 1, by decide⟩,
    ⟨held, .host, 0x001, 1, by decide⟩,
    ⟨held, .tender, 0x8002800, by decide⟩⟩

theorem wit_IntegerInstructionsComplete :
    (∃ (s : State) (c : CoreId) (o : OpA), (o.x = 0) ∧ (s.ready c 1 = true) ∧ (s.lands c [o.a, o.b] [o.d] = true)) ∧
    (∃ (s : State) (c : CoreId) (o : OpI), (s.ready c 1 = true) ∧ (s.lands c [o.a] [o.d] = true)) ∧
    (∃ (s : State) (c : CoreId) (o : OpA), (o.x = 1) ∧ (s.ready c 1 = true) ∧ (s.lands c [o.a, o.b] [o.d] = true)) ∧
    (∃ (s : State) (c : CoreId) (o : OpL), (o.a = 0) ∧ (o.imm = 0) ∧ (s.ready c 2 = true) ∧ (s.lands c [] [o.d] = true)) :=
  ⟨⟨tend, .tender, oA, by decide⟩,
    ⟨tend, .tender, oI, by decide⟩,
    ⟨tend, .tender, oA1, by decide⟩,
    ⟨tend, .tender, oL, by decide⟩⟩

theorem wit_SaturatingSumsClamp : ∃ (s : State) (c : CoreId) (o : OpA), (o.x = 0) ∧ (s.ready c 1 = true) ∧ (s.lands c [o.a, o.b] [o.d] = true) :=
  ⟨tend, .tender, oA, by decide⟩

theorem wit_ShiftAmountComesFromX12 :
    (∃ (s : State) (c : CoreId) (o : OpA), (o.x = 0) ∧ (s.ready c 1 = true) ∧ (s.lands c [o.a, o.b] [o.d] = true)) ∧
    (∃ (s : State) (c : CoreId) (o : OpA), (o.x.toNat / 32 = 128) ∧ (o.b = 0) ∧ (s.ready c 1 = true) ∧ (s.lands c [o.a] [o.d] = true)) ∧
    (∃ (c : CoreId) (o : OpA), (o.x ≠ 0) ∧ (¬(o.x.toNat / 32 = 128 ∧ o.b = 0))) :=
  ⟨⟨tend, .tender, oA, by decide⟩,
    ⟨tend, .tender, oAn, by decide⟩,
    ⟨.tender, oAbad, by decide⟩⟩

theorem wit_PairSumsAreSixtyFourBit :
    (∃ (s : State) (c : CoreId) (o : OpA), (o.x = 0) ∧ (o.d.toNat % 2 = 0) ∧ (o.a.toNat % 2 = 0) ∧ (o.b.toNat % 2 = 0) ∧ (s.ready c 1 = true) ∧ (s.lands c [o.a, o.a + 1, o.b, o.b + 1] [o.d, o.d + 1] = true)) ∧
    (∃ (c : CoreId) (o : OpA), (o.d.toNat % 2 = 1 ∨ o.a.toNat % 2 = 1 ∨ o.b.toNat % 2 = 1)) :=
  ⟨⟨tend, .tender, oP, by decide⟩,
    ⟨.tender, oA, by decide⟩⟩

theorem wit_SelReadsOnlyWhatItSelects : ∃ (s : State) (c : CoreId) (o : OpA), (o.x.toNat < 32) ∧ (s.ready c 1 = true) ∧ (s.lands c [BitVec.ofNat 5 o.x.toNat, o.a, o.b] [o.d] = true) :=
  ⟨tend, .tender, oA1, by decide⟩

theorem wit_AddressAndMoveInstructionsComplete :
    (∃ (s : State) (c : CoreId) (o : OpA), (o.b = 0) ∧ (o.x = 0) ∧ (s.ready c 1 = true) ∧ (s.lands c [o.a] [o.d] = true)) ∧
    (∃ (s : State) (c : CoreId) (o : OpI), (s.ready c 1 = true) ∧ (s.lands c [o.a] [o.d] = true)) ∧
    (∃ (s : State) (c : CoreId) (o : OpA), (o.x = 0) ∧ (s.ready c 1 = true) ∧ (s.lands c [o.a, o.b] [o.d] = true)) ∧
    (∃ (s : State) (c : CoreId) (o : OpL), (o.a = 0) ∧ (o.imm = 0) ∧ (s.ready c 2 = true) ∧ (s.lands c [] [o.d] = true)) ∧
    (∃ (s : State) (c : CoreId) (o : OpA), (o.b = 0) ∧ (o.x = 0) ∧ (o.d.toNat % 2 = 0) ∧ (o.a.toNat % 2 = 0) ∧ (s.ready c 1 = true) ∧ (s.lands c [o.a, o.a + 1] [o.d, o.d + 1] = true)) :=
  ⟨⟨tend, .tender, oM, by decide⟩,
    ⟨tend, .tender, oI, by decide⟩,
    ⟨tend, .tender, oA, by decide⟩,
    ⟨tend, .tender, oL, by decide⟩,
    ⟨tend, .tender, oMp, by decide⟩⟩

theorem wit_ComparesWriteOneOrZero :
    (∃ (s : State) (c : CoreId) (o : OpA), (o.x = 0) ∧ (s.ready c 1 = true) ∧ (s.lands c [o.a, o.b] [o.d] = true)) ∧
    (∃ (s : State) (c : CoreId) (o : OpI), (s.ready c 1 = true) ∧ (s.lands c [o.a] [o.d] = true)) :=
  ⟨⟨tend, .tender, oA, by decide⟩,
    ⟨tend, .tender, oI, by decide⟩⟩

theorem wit_FloatInstructionsComplete :
    (∃ (s : State) (c : CoreId) (o : OpA), (o.x = 0) ∧ (s.ready c 1 = true) ∧ (s.lands c [o.a, o.b] [o.d] = true)) ∧
    (∃ (s : State) (c : CoreId) (o : OpA), (o.b = 0) ∧ (o.x = 0) ∧ (s.ready c 1 = true) ∧ (s.lands c [o.a] [o.d] = true)) ∧
    (∃ (s : State) (c : CoreId) (o : OpA), (o.b = 0) ∧ (o.x.toNat < 2) ∧ (s.ready c 1 = true) ∧ (s.lands c [o.a] [o.d] = true)) :=
  ⟨⟨tend, .tender, oA, by decide⟩,
    ⟨tend, .tender, oM, by decide⟩,
    ⟨tend, .tender, oM, by decide⟩⟩

theorem wit_QualityAndBitInstructionsComplete :
    (∃ (s : State) (c : CoreId) (o : OpA), (o.b = 0) ∧ (o.x = 0) ∧ (s.ready c 1 = true) ∧ (s.lands c [o.a] [o.d] = true)) ∧
    (∃ (s : State) (c : CoreId) (o : OpA), (o.x = 0) ∧ (s.ready c 1 = true) ∧ (s.lands c [o.a, o.b] [o.d] = true)) ∧
    (∃ (s : State) (c : CoreId) (o : OpI), (o.imm.toNat < 16) ∧ (s.ready c 1 = true) ∧ (s.lands c [o.a] [o.d] = true)) ∧
    (∃ (s : State) (c : CoreId) (o : OpA), (isEngine c = true) ∧ (o.b = 0) ∧ (o.x.toNat < 32) ∧ (s.ready c 1 = true) ∧ (s.lands c [o.a] [o.d] = true)) ∧
    (∃ (s : State) (c : CoreId) (o : OpA), (isEngine c = true) ∧ (o.x.toNat < 32) ∧ (s.ready c 1 = true) ∧ (s.lands c [o.a, o.b] [o.d] = true)) ∧
    (∃ (s : State) (c : CoreId) (o : OpA), (isEngine c = true) ∧ (o.b = 0) ∧ (o.x = 0) ∧ (s.ready c 1 = true) ∧ (s.lands c [o.a] [o.d] = true)) :=
  ⟨⟨tend, .tender, oM, by decide⟩,
    ⟨tend, .tender, oA, by decide⟩,
    ⟨tend, .tender, oI4, by decide⟩,
    ⟨eng, .engine 0, oM, by decide⟩,
    ⟨eng, .engine 0, oA, by decide⟩,
    ⟨eng, .engine 0, oM, by decide⟩⟩

theorem wit_TimeInstructionsComplete :
    (∃ (s : State) (c : CoreId) (o : OpA), (s.ready c 1 = true) ∧ (s.lands c [] [o.d, o.d + 1] = true) ∧ (o.a = 0 ∧ o.b = 0 ∧ o.x = 0) ∧ (o.d.toNat % 2 = 0)) ∧
    (∃ (s : State) (c : CoreId) (o : OpA) (k : Nat), (s.ready c 1 = true) ∧ (s.lands c [] [o.d, o.d + 1] = true) ∧ (s.timeClass c o = some k) ∧ (o.d.toNat % 2 = 0)) ∧
    (∃ (s : State) (c : CoreId) (o : OpA) (k : Nat), (s.ready c 1 = true) ∧ (s.lands c [] [o.d] = true) ∧ (s.timeClass c o = some k)) ∧
    (∃ (s : State) (c : CoreId) (o : OpA), (s.ready c 1 = true) ∧ (s.lands c [] [o.d] = true) ∧ (o.a = 0 ∧ o.b = 0 ∧ o.x = 0)) :=
  ⟨⟨tend, .tender, oT, by decide⟩,
    ⟨tend, .tender, oT, 0, by decide⟩,
    ⟨tend, .tender, oT, 0, by decide⟩,
    ⟨tend, .tender, oT, by decide⟩⟩

theorem wit_UnusedFieldsRaiseIllegal :
    (∃ (c : CoreId) (o : OpA), (o.x ≠ 0)) ∧
    (∃ (c : CoreId) (o : OpA), (o.b ≠ 0 ∨ o.x ≠ 0)) ∧
    (∃ (c : CoreId) (o : OpA), (o.d ≠ 0 ∨ o.a ≠ 0 ∨ o.b ≠ 0 ∨ o.x ≠ 0)) ∧
    (∃ (c : CoreId) (o : OpI), (16 ≤ o.imm.toNat)) ∧
    (∃ (c : CoreId) (o : OpI), (o.d ≠ 0)) ∧
    (∃ (c : CoreId) (o : OpL), (o.a ≠ 0 ∨ o.imm ≠ 0)) ∧
    (∃ (s : State) (c : CoreId) (o : OpI), (s.ready c 1 = true) ∧ (o.d ≠ 0 ∨ 0x400 ≤ o.imm.toNat) ∧ (s.privileged c = true) ∧ ((s.at c).inSecure = true ∨ secureSys (o.imm.toNat % 0x400) = false)) ∧
    (∃ (s : State) (c : CoreId) (w : W36), (s.ready c 1 = true) ∧ (opAssigned (opcodeOf w) = false)) :=
  ⟨⟨.tender, oA1, by decide⟩,
    ⟨.tender, oA, by decide⟩,
    ⟨.tender, oA, by decide⟩,
    ⟨.tender, oI, by decide⟩,
    ⟨.tender, oI, by decide⟩,
    ⟨.tender, oL9, by decide⟩,
    ⟨tend, .tender, oSyswD, by decide⟩,
    ⟨tend, .tender, 0, by decide⟩⟩

theorem wit_LoadsComplete :
    (∃ (s : State) (c : CoreId) (o : OpI), (s.ready c 1 = true) ∧ (s.lands c [o.a] [o.d] = true) ∧ ((s.after c [o.a] [o.d]).loadSpace c (((s.after c [o.a] [o.d]).at c).eaI o) 1 = some .ls) ∧ (((s.after c [o.a] [o.d]).at c).unwatched 1 (((s.after c [o.a] [o.d]).at c).eaI o) 1 = true) ∧ (((s.after c [o.a] [o.d]).loadWords c .ls (((s.after c [o.a] [o.d]).at c).eaI o).toNat 1).2.1 = false)) ∧
    (∃ (s : State) (c : CoreId) (o : OpI), (s.ready c 1 = true) ∧ (s.lands c [o.a] [o.d] = true) ∧ ((s.after c [o.a] [o.d]).loadSpace c (((s.after c [o.a] [o.d]).at c).eaI o) 1 = some .ls) ∧ (((s.after c [o.a] [o.d]).at c).unwatched 1 (((s.after c [o.a] [o.d]).at c).eaI o) 1 = true) ∧ (((s.after c [o.a] [o.d]).loadWords c .ls (((s.after c [o.a] [o.d]).at c).eaI o).toNat 1).2.1 = true)) ∧
    (∃ (s : State) (c : CoreId) (o : OpI) (sp : Space) (X : State) (w : State), (s.ready c 1 = true) ∧ (s.lands c [o.a] [o.d] = true) ∧ (sp ≠ .ls) ∧ ((s.after c [o.a] [o.d]).loadSpace c (((s.after c [o.a] [o.d]).at c).eaI o) 1 = some sp) ∧ (((s.after c [o.a] [o.d]).at c).unwatched 1 (((s.after c [o.a] [o.d]).at c).eaI o) 1 = true) ∧ ((s.after c [o.a] [o.d]).settles c (Store.blocks sp (((s.after c [o.a] [o.d]).at c).eaI o).toNat 1) X) ∧ ((X.loadWords c sp (((s.after c [o.a] [o.d]).at c).eaI o).toNat 1).2.2.hasRoom c w)) ∧
    (∃ (s : State) (c : CoreId) (o : OpI), (s.ready c 1 = true) ∧ (s.lands c [o.a] [o.d, o.d + 1] = true) ∧ (o.d.toNat % 2 = 0) ∧ ((s.after c [o.a] [o.d, o.d + 1]).loadSpace c (((s.after c [o.a] [o.d, o.d + 1]).at c).eaI o) 2 = some .ls) ∧ (((s.after c [o.a] [o.d, o.d + 1]).at c).unwatched 1 (((s.after c [o.a] [o.d, o.d + 1]).at c).eaI o) 2 = true) ∧ (((s.after c [o.a] [o.d, o.d + 1]).loadWords c .ls (((s.after c [o.a] [o.d, o.d + 1]).at c).eaI o).toNat 2).2.1 = false)) ∧
    (∃ (s : State) (c : CoreId) (o : OpI), (s.ready c 1 = true) ∧ (s.lands c [o.a] [o.d, o.d + 1] = true) ∧ (o.d.toNat % 2 = 0) ∧ ((s.after c [o.a] [o.d, o.d + 1]).loadSpace c (((s.after c [o.a] [o.d, o.d + 1]).at c).eaI o) 2 = some .ls) ∧ (((s.after c [o.a] [o.d, o.d + 1]).at c).unwatched 1 (((s.after c [o.a] [o.d, o.d + 1]).at c).eaI o) 2 = true) ∧ (((s.after c [o.a] [o.d, o.d + 1]).loadWords c .ls (((s.after c [o.a] [o.d, o.d + 1]).at c).eaI o).toNat 2).2.1 = true)) ∧
    (∃ (s : State) (c : CoreId) (o : OpI) (sp : Space) (X : State) (w : State), (s.ready c 1 = true) ∧ (s.lands c [o.a] [o.d, o.d + 1] = true) ∧ (o.d.toNat % 2 = 0) ∧ (sp ≠ .ls) ∧ ((s.after c [o.a] [o.d, o.d + 1]).loadSpace c (((s.after c [o.a] [o.d, o.d + 1]).at c).eaI o) 2 = some sp) ∧ (((s.after c [o.a] [o.d, o.d + 1]).at c).unwatched 1 (((s.after c [o.a] [o.d, o.d + 1]).at c).eaI o) 2 = true) ∧ ((s.after c [o.a] [o.d, o.d + 1]).settles c (Store.blocks sp (((s.after c [o.a] [o.d, o.d + 1]).at c).eaI o).toNat 2) X) ∧ ((X.loadWords c sp (((s.after c [o.a] [o.d, o.d + 1]).at c).eaI o).toNat 2).2.2.hasRoom c w)) ∧
    (∃ (s : State) (c : CoreId) (o : OpA), (s.ready c 1 = true) ∧ (s.lands c [o.a, o.b] [o.d] = true) ∧ (o.x = 0) ∧ ((s.after c [o.a, o.b] [o.d]).loadSpace c (((s.after c [o.a, o.b] [o.d]).at c).eaX o) 1 = some .ls) ∧ (((s.after c [o.a, o.b] [o.d]).at c).unwatched 1 (((s.after c [o.a, o.b] [o.d]).at c).eaX o) 1 = true) ∧ (((s.after c [o.a, o.b] [o.d]).loadWords c .ls (((s.after c [o.a, o.b] [o.d]).at c).eaX o).toNat 1).2.1 = false)) ∧
    (∃ (s : State) (c : CoreId) (o : OpA), (s.ready c 1 = true) ∧ (s.lands c [o.a, o.b] [o.d] = true) ∧ (o.x = 0) ∧ ((s.after c [o.a, o.b] [o.d]).loadSpace c (((s.after c [o.a, o.b] [o.d]).at c).eaX o) 1 = some .ls) ∧ (((s.after c [o.a, o.b] [o.d]).at c).unwatched 1 (((s.after c [o.a, o.b] [o.d]).at c).eaX o) 1 = true) ∧ (((s.after c [o.a, o.b] [o.d]).loadWords c .ls (((s.after c [o.a, o.b] [o.d]).at c).eaX o).toNat 1).2.1 = true)) ∧
    (∃ (s : State) (c : CoreId) (o : OpA) (sp : Space) (X : State) (w : State), (s.ready c 1 = true) ∧ (s.lands c [o.a, o.b] [o.d] = true) ∧ (o.x = 0) ∧ (sp ≠ .ls) ∧ ((s.after c [o.a, o.b] [o.d]).loadSpace c (((s.after c [o.a, o.b] [o.d]).at c).eaX o) 1 = some sp) ∧ (((s.after c [o.a, o.b] [o.d]).at c).unwatched 1 (((s.after c [o.a, o.b] [o.d]).at c).eaX o) 1 = true) ∧ ((s.after c [o.a, o.b] [o.d]).settles c (Store.blocks sp (((s.after c [o.a, o.b] [o.d]).at c).eaX o).toNat 1) X) ∧ ((X.loadWords c sp (((s.after c [o.a, o.b] [o.d]).at c).eaX o).toNat 1).2.2.hasRoom c w)) ∧
    (∃ (s : State) (c : CoreId) (o : OpB) (X : State) (w : State), (s.ready c 1 = true) ∧ (s.lands c [o.base] [o.d] = true) ∧ (isEngine c = true) ∧ ((s.after c [o.base] [o.d]).viewOk c .word (((s.after c [o.base] [o.d]).at c).eaB o) = true) ∧ (((s.after c [o.base] [o.d]).at c).unwatched 1 (((s.after c [o.base] [o.d]).at c).eaB o) 1 = true) ∧ ((s.after c [o.base] [o.d]).settles c (fun st => st.has (((s.after c [o.base] [o.d]).at c).eaB o).toNat) X) ∧ (X.hasRoom c w)) ∧
    (∃ (s : State) (c : CoreId) (o : OpB) (X : State) (w : State), (s.ready c 1 = true) ∧ (s.lands c [o.base] [o.d] = true) ∧ (isEngine c = true) ∧ ((s.after c [o.base] [o.d]).viewOk c .prev (((s.after c [o.base] [o.d]).at c).eaB o) = true) ∧ (((s.after c [o.base] [o.d]).at c).unwatched 1 (((s.after c [o.base] [o.d]).at c).eaB o) 1 = true) ∧ ((s.after c [o.base] [o.d]).settles c (fun st => st.has (((s.after c [o.base] [o.d]).at c).eaB o).toNat) X) ∧ (X.hasRoom c w)) ∧
    (∃ (s : State) (c : CoreId) (o : OpB) (X : State) (w : State), (s.ready c 1 = true) ∧ (s.lands c [o.base] [o.d] = true) ∧ (isEngine c = true) ∧ ((s.after c [o.base] [o.d]).viewOk c .both (((s.after c [o.base] [o.d]).at c).eaB o) = true) ∧ (((s.after c [o.base] [o.d]).at c).unwatched 1 (((s.after c [o.base] [o.d]).at c).eaB o) 1 = true) ∧ ((s.after c [o.base] [o.d]).settles c (fun st => st.has (((s.after c [o.base] [o.d]).at c).eaB o).toNat) X) ∧ (X.hasRoom c w)) ∧
    (∃ (s : State) (c : CoreId) (o : OpB) (X : State) (w : State), (s.ready c 1 = true) ∧ (s.lands c [o.base] [o.d] = true) ∧ (isEngine c = true) ∧ ((s.after c [o.base] [o.d]).viewOk c .prev (((s.after c [o.base] [o.d]).at c).eaB o) = true) ∧ (((s.after c [o.base] [o.d]).at c).unwatched 1 (((s.after c [o.base] [o.d]).at c).eaB o) 1 = true) ∧ ((s.after c [o.base] [o.d]).settles c (fun st => st.has (((s.after c [o.base] [o.d]).at c).eaB o).toNat) X) ∧ (X.hasRoom c w) ∧ (o.bit = 0)) ∧
    (∃ (s : State) (c : CoreId) (o : OpB) (X : State) (w : State), (s.ready c 1 = true) ∧ (s.lands c [o.base] [o.d] = true) ∧ (isEngine c = true) ∧ ((s.after c [o.base] [o.d]).viewOk c .both (((s.after c [o.base] [o.d]).at c).eaB o) = true) ∧ (((s.after c [o.base] [o.d]).at c).unwatched 1 (((s.after c [o.base] [o.d]).at c).eaB o) 1 = true) ∧ ((s.after c [o.base] [o.d]).settles c (fun st => st.has (((s.after c [o.base] [o.d]).at c).eaB o).toNat) X) ∧ (X.hasRoom c w) ∧ (o.bit = 0)) ∧
    (∃ (c : CoreId) (o : OpI) (s : State), (s.ready c 1 = true) ∧ (s.lands c [o.a] [o.d] = true) ∧ (s.loadGoes ⟨c, [o.a], fun x => x.eaI o, [o.d], none⟩ .ls = true) ∧ (((s.after c [o.a] [o.d]).loadWords c .ls (((s.after c [o.a] [o.d]).at c).eaI o).toNat 1).2.1 = false)) ∧
    (∃ (c : CoreId) (o : OpI) (sp : Space) (s : State), (sp ≠ .ls) ∧ (s.ready c 1 = true) ∧ (s.lands c [o.a] [o.d] = true) ∧ (s.loadGoes ⟨c, [o.a], fun x => x.eaI o, [o.d], none⟩ sp = true) ∧ (((s.after c [o.a] [o.d]).at c).loads.length < 4)) ∧
    (∃ (c : CoreId) (o : OpI) (s : State), (o.d.toNat % 2 = 0) ∧ (s.ready c 1 = true) ∧ (s.lands c [o.a] [o.d, o.d + 1] = true) ∧ (s.loadGoes ⟨c, [o.a], fun x => x.eaI o, [o.d, o.d + 1], none⟩ .ls = true) ∧ (((s.after c [o.a] [o.d, o.d + 1]).loadWords c .ls (((s.after c [o.a] [o.d, o.d + 1]).at c).eaI o).toNat 2).2.1 = false)) ∧
    (∃ (c : CoreId) (o : OpI) (sp : Space) (s : State), (o.d.toNat % 2 = 0) ∧ (sp ≠ .ls) ∧ (s.ready c 1 = true) ∧ (s.lands c [o.a] [o.d, o.d + 1] = true) ∧ (s.loadGoes ⟨c, [o.a], fun x => x.eaI o, [o.d, o.d + 1], none⟩ sp = true) ∧ (((s.after c [o.a] [o.d, o.d + 1]).at c).loads.length < 4)) ∧
    (∃ (c : CoreId) (o : OpA) (s : State), (o.x = 0) ∧ (s.ready c 1 = true) ∧ (s.lands c [o.a, o.b] [o.d] = true) ∧ (s.loadGoes ⟨c, [o.a, o.b], fun x => x.eaX o, [o.d], none⟩ .ls = true) ∧ (((s.after c [o.a, o.b] [o.d]).loadWords c .ls (((s.after c [o.a, o.b] [o.d]).at c).eaX o).toNat 1).2.1 = false)) ∧
    (∃ (c : CoreId) (o : OpA) (sp : Space) (s : State), (o.x = 0) ∧ (sp ≠ .ls) ∧ (s.ready c 1 = true) ∧ (s.lands c [o.a, o.b] [o.d] = true) ∧ (s.loadGoes ⟨c, [o.a, o.b], fun x => x.eaX o, [o.d], none⟩ sp = true) ∧ (((s.after c [o.a, o.b] [o.d]).at c).loads.length < 4)) ∧
    (∃ (c : CoreId) (o : OpB) (sp : Space) (s : State), (isEngine c = true) ∧ (sp ≠ .ls) ∧ (s.ready c 1 = true) ∧ (s.lands c [o.base] [o.d] = true) ∧ (s.loadGoes ⟨c, [o.base], fun x => x.eaB o, [o.d], some .word⟩ sp = true) ∧ (((s.after c [o.base] [o.d]).at c).loads.length < 4)) ∧
    (∃ (c : CoreId) (o : OpB) (sp : Space) (s : State), (isEngine c = true) ∧ (sp ≠ .ls) ∧ (s.ready c 1 = true) ∧ (s.lands c [o.base] [o.d] = true) ∧ (s.loadGoes ⟨c, [o.base], fun x => x.eaB o, [o.d], some .prev⟩ sp = true) ∧ (((s.after c [o.base] [o.d]).at c).loads.length < 4)) ∧
    (∃ (c : CoreId) (o : OpB) (sp : Space) (s : State), (isEngine c = true) ∧ (sp ≠ .ls) ∧ (s.ready c 1 = true) ∧ (s.lands c [o.base] [o.d] = true) ∧ (s.loadGoes ⟨c, [o.base], fun x => x.eaB o, [o.d], some .both⟩ sp = true) ∧ (((s.after c [o.base] [o.d]).at c).loads.length < 4)) ∧
    (∃ (c : CoreId) (o : OpB) (sp : Space) (s : State), (isEngine c = true) ∧ (o.bit = 0) ∧ (sp ≠ .ls) ∧ (s.ready c 1 = true) ∧ (s.lands c [o.base] [o.d] = true) ∧ (s.loadGoes ⟨c, [o.base], fun x => x.eaB o, [o.d], some .prev⟩ sp = true) ∧ (((s.after c [o.base] [o.d]).at c).loads.length < 4)) ∧
    (∃ (c : CoreId) (o : OpB) (sp : Space) (s : State), (isEngine c = true) ∧ (o.bit = 0) ∧ (sp ≠ .ls) ∧ (s.ready c 1 = true) ∧ (s.lands c [o.base] [o.d] = true) ∧ (s.loadGoes ⟨c, [o.base], fun x => x.eaB o, [o.d], some .both⟩ sp = true) ∧ (((s.after c [o.base] [o.d]).at c).loads.length < 4)) :=
  ⟨⟨tend, .tender, oI, by decide⟩,
    ⟨tendLsBad, .tender, oI, by decide⟩,
    ⟨tendDram, .tender, oI, .dram, _, _, by decide, by decide, by decide, by decide, by decide, ⟨rfl, by decide⟩, rfl⟩,
    ⟨tend, .tender, oIp, by decide⟩,
    ⟨tendLsBad, .tender, oIp, by decide⟩,
    ⟨tendDram, .tender, oIp, .dram, _, _, by decide, by decide, by decide, by decide, by decide, by decide, ⟨rfl, by decide⟩, rfl⟩,
    ⟨tend, .tender, oA, by decide⟩,
    ⟨tendLsBad, .tender, oA, by decide⟩,
    ⟨tendDram, .tender, oA, .dram, _, _, by decide, by decide, by decide, by decide, by decide, by decide, ⟨rfl, by decide⟩, rfl⟩,
    ⟨eng, .engine 0, oB, _, _, by decide, by decide, by decide, by decide, by decide, ⟨rfl, by decide⟩, rfl⟩,
    ⟨eng, .engine 0, oB, _, _, by decide, by decide, by decide, by decide, by decide, ⟨rfl, by decide⟩, rfl⟩,
    ⟨eng, .engine 0, oB, _, _, by decide, by decide, by decide, by decide, by decide, ⟨rfl, by decide⟩, rfl⟩,
    ⟨eng, .engine 0, oBw, _, _, by decide, by decide, by decide, by decide, by decide, ⟨rfl, by decide⟩, rfl, by decide⟩,
    ⟨eng, .engine 0, oBw, _, _, by decide, by decide, by decide, by decide, by decide, ⟨rfl, by decide⟩, rfl, by decide⟩,
    ⟨.tender, oI, tend, by decide⟩,
    ⟨.tender, oI, .dram, tendDram, by decide⟩,
    ⟨.tender, oIp, tend, by decide⟩,
    ⟨.tender, oIp, .dram, tendDram, by decide⟩,
    ⟨.tender, oA, tend, by decide⟩,
    ⟨.tender, oA, .dram, tendDram, by decide⟩,
    ⟨.engine 0, oB, .hearth, eng, by decide⟩,
    ⟨.engine 0, oB, .hearth, eng, by decide⟩,
    ⟨.engine 0, oB, .hearth, eng, by decide⟩,
    ⟨.engine 0, oBw, .hearth, eng, by decide⟩,
    ⟨.engine 0, oBw, .hearth, eng, by decide⟩⟩

theorem wit_StoresComplete :
    (∃ (s : State) (c : CoreId) (o : OpI), (s.ready c 1 = true) ∧ (s.lands c [o.a, o.d] [] = true) ∧ ((s.after c [o.a, o.d] []).storeSpace c (((s.after c [o.a, o.d] []).at c).eaI o) 1 = some .ls) ∧ (((s.after c [o.a, o.d] []).at c).unwatched 2 (((s.after c [o.a, o.d] []).at c).eaI o) 1 = true)) ∧
    (∃ (s : State) (c : CoreId) (o : OpI) (sp : Space), (s.ready c 1 = true) ∧ (s.lands c [o.a, o.d] [] = true) ∧ (sp ≠ .ls) ∧ ((s.after c [o.a, o.d] []).storeSpace c (((s.after c [o.a, o.d] []).at c).eaI o) 1 = some sp) ∧ (((s.after c [o.a, o.d] []).at c).unwatched 2 (((s.after c [o.a, o.d] []).at c).eaI o) 1 = true) ∧ (((s.after c [o.a, o.d] []).at c).stores.length < 4)) ∧
    (∃ (s : State) (c : CoreId) (o : OpI), (s.ready c 1 = true) ∧ (s.lands c [o.a, o.d, o.d + 1] [] = true) ∧ (o.d.toNat % 2 = 0) ∧ ((s.after c [o.a, o.d, o.d + 1] []).storeSpace c (((s.after c [o.a, o.d, o.d + 1] []).at c).eaI o) 2 = some .ls) ∧ (((s.after c [o.a, o.d, o.d + 1] []).at c).unwatched 2 (((s.after c [o.a, o.d, o.d + 1] []).at c).eaI o) 2 = true)) ∧
    (∃ (s : State) (c : CoreId) (o : OpI) (sp : Space), (s.ready c 1 = true) ∧ (s.lands c [o.a, o.d, o.d + 1] [] = true) ∧ (o.d.toNat % 2 = 0) ∧ (sp ≠ .ls) ∧ ((s.after c [o.a, o.d, o.d + 1] []).storeSpace c (((s.after c [o.a, o.d, o.d + 1] []).at c).eaI o) 2 = some sp) ∧ (((s.after c [o.a, o.d, o.d + 1] []).at c).unwatched 2 (((s.after c [o.a, o.d, o.d + 1] []).at c).eaI o) 2 = true) ∧ (((s.after c [o.a, o.d, o.d + 1] []).at c).stores.length < 4)) ∧
    (∃ (s : State) (c : CoreId) (o : OpA), (s.ready c 1 = true) ∧ (s.lands c [o.a, o.b, o.d] [] = true) ∧ (o.x = 0) ∧ ((s.after c [o.a, o.b, o.d] []).storeSpace c (((s.after c [o.a, o.b, o.d] []).at c).eaX o) 1 = some .ls) ∧ (((s.after c [o.a, o.b, o.d] []).at c).unwatched 2 (((s.after c [o.a, o.b, o.d] []).at c).eaX o) 1 = true)) ∧
    (∃ (s : State) (c : CoreId) (o : OpA) (sp : Space), (s.ready c 1 = true) ∧ (s.lands c [o.a, o.b, o.d] [] = true) ∧ (o.x = 0) ∧ (sp ≠ .ls) ∧ ((s.after c [o.a, o.b, o.d] []).storeSpace c (((s.after c [o.a, o.b, o.d] []).at c).eaX o) 1 = some sp) ∧ (((s.after c [o.a, o.b, o.d] []).at c).unwatched 2 (((s.after c [o.a, o.b, o.d] []).at c).eaX o) 1 = true) ∧ (((s.after c [o.a, o.b, o.d] []).at c).stores.length < 4)) ∧
    (∃ (s : State) (c : CoreId) (o : OpB), (s.ready c 1 = true) ∧ (s.lands c [o.base, o.d] [] = true) ∧ (isEngine c = true) ∧ ((s.after c [o.base, o.d] []).storeSpace c (((s.after c [o.base, o.d] []).at c).eaB o) 1 = some .hearth) ∧ (((s.after c [o.base, o.d] []).at c).unwatched 2 (((s.after c [o.base, o.d] []).at c).eaB o) 1 = true) ∧ (((s.after c [o.base, o.d] []).at c).stores.length < 4)) ∧
    (∃ (s : State) (c : CoreId) (o : OpB), (s.ready c 1 = true) ∧ (s.lands c [o.base] [] = true) ∧ (isEngine c = true) ∧ (o.d = 0) ∧ ((s.after c [o.base] []).storeSpace c (((s.after c [o.base] []).at c).eaB o) 1 = some .hearth) ∧ (((s.after c [o.base] []).at c).unwatched 2 (((s.after c [o.base] []).at c).eaB o) 1 = true) ∧ (((s.after c [o.base] []).at c).stores.length < 4)) :=
  ⟨⟨tend, .tender, oS, by decide⟩,
    ⟨tendDram, .tender, oI, .dram, by decide⟩,
    ⟨tend, .tender, oSp, by decide⟩,
    ⟨tendDram, .tender, oIp, .dram, by decide⟩,
    ⟨tend, .tender, oA, by decide⟩,
    ⟨tendDram, .tender, oA, .dram, by decide⟩,
    ⟨eng, .engine 0, oB, by decide⟩,
    ⟨eng, .engine 0, oB0, by decide⟩⟩

theorem wit_AccessesThatAreNotAllowedFault :
    (∃ (s : State) (c : CoreId) (o : OpI), (s.ready c 1 = true) ∧ (s.lands c [o.a] [o.d] = true) ∧ ((s.after c [o.a] [o.d]).loadSpace c (((s.after c [o.a] [o.d]).at c).eaI o) 1 = none)) ∧
    (∃ (s : State) (c : CoreId) (o : OpI), (s.ready c 1 = true) ∧ (s.lands c [o.a] [o.d, o.d + 1] = true) ∧ (o.d.toNat % 2 = 0) ∧ ((s.after c [o.a] [o.d, o.d + 1]).loadSpace c (((s.after c [o.a] [o.d, o.d + 1]).at c).eaI o) 2 = none)) ∧
    (∃ (s : State) (c : CoreId) (o : OpA), (s.ready c 1 = true) ∧ (s.lands c [o.a, o.b] [o.d] = true) ∧ (o.x = 0) ∧ ((s.after c [o.a, o.b] [o.d]).loadSpace c (((s.after c [o.a, o.b] [o.d]).at c).eaX o) 1 = none)) ∧
    (∃ (s : State) (c : CoreId) (o : OpI), (s.ready c 1 = true) ∧ (s.lands c [o.a, o.d] [] = true) ∧ ((s.after c [o.a, o.d] []).storeSpace c (((s.after c [o.a, o.d] []).at c).eaI o) 1 = none)) ∧
    (∃ (s : State) (c : CoreId) (o : OpI), (s.ready c 1 = true) ∧ (s.lands c [o.a, o.d, o.d + 1] [] = true) ∧ (o.d.toNat % 2 = 0) ∧ ((s.after c [o.a, o.d, o.d + 1] []).storeSpace c (((s.after c [o.a, o.d, o.d + 1] []).at c).eaI o) 2 = none)) ∧
    (∃ (s : State) (c : CoreId) (o : OpA), (s.ready c 1 = true) ∧ (s.lands c [o.a, o.b, o.d] [] = true) ∧ (o.x = 0) ∧ ((s.after c [o.a, o.b, o.d] []).storeSpace c (((s.after c [o.a, o.b, o.d] []).at c).eaX o) 1 = none)) ∧
    (∃ (s : State) (c : CoreId) (o : OpB), (s.ready c 1 = true) ∧ (s.lands c [o.base, o.d] [] = true) ∧ (isEngine c = true) ∧ ((s.after c [o.base, o.d] []).storeSpace c (((s.after c [o.base, o.d] []).at c).eaB o) 1 ≠ some .hearth)) ∧
    (∃ (s : State) (c : CoreId) (o : OpB), (s.ready c 1 = true) ∧ (s.lands c [o.base] [o.d] = true) ∧ (isEngine c = true) ∧ ((s.after c [o.base] [o.d]).viewOk c .word (((s.after c [o.base] [o.d]).at c).eaB o) = false)) :=
  ⟨⟨tendBad, .tender, oI, by decide⟩,
    ⟨tendBad, .tender, oIp, by decide⟩,
    ⟨tendBad, .tender, oA, by decide⟩,
    ⟨tendBad, .tender, oI, by decide⟩,
    ⟨tendBad, .tender, oIp, by decide⟩,
    ⟨tendBad, .tender, oA, by decide⟩,
    ⟨eng, .engine 0, oBbad, by decide⟩,
    ⟨eng, .engine 0, oBbad, by decide⟩⟩

theorem wit_ControlTransfersComplete :
    (∃ (s : State) (c : CoreId) (o : OpA), (s.ready c 1 = true) ∧ (o.d = 0 ∧ o.a = 0 ∧ o.b = 0 ∧ o.x = 0)) ∧
    (∃ (s : State) (c : CoreId) (o : OpI), (s.ready c 1 = true) ∧ (s.lands c [o.a] [] = true) ∧ (o.d = 0)) ∧
    (∃ (s : State) (c : CoreId) (o : OpA), (s.ready c 1 = true) ∧ (s.lands c [o.a] [] = true) ∧ (o.d = 0) ∧ (o.b = 0) ∧ (o.x = 0)) ∧
    (∃ (s : State) (c : CoreId) (o : OpJ), (s.ready c 1 = true) ∧ (s.lands c [31] [31] = true) ∧ (((s.after c [31] [31]).at c).bank.stkLo.toNat + 3 ≤ (((s.after c [31] [31]).at c).see 31).toNat) ∧ ((((s.after c [31] [31]).at c).see 31).toNat ≤ ((s.after c [31] [31]).at c).bank.stkHi.toNat) ∧ (whole ((s.after c [31] [31]).lsWritable c) (((s.after c [31] [31]).at c).see 31 + BitVec.ofInt 36 (-1)) 1 = true) ∧ (((s.after c [31] [31]).at c).unwatched 2 (((s.after c [31] [31]).at c).see 31 + BitVec.ofInt 36 (-1)) 1 = true)) ∧
    (∃ (s : State) (c : CoreId) (o : OpA), (s.ready c 1 = true) ∧ (s.lands c [o.a, 31] [31] = true) ∧ (o.d = 0) ∧ (o.b = 0) ∧ (o.x = 0) ∧ (((s.after c [o.a, 31] [31]).at c).bank.stkLo.toNat + 3 ≤ (((s.after c [o.a, 31] [31]).at c).see 31).toNat) ∧ ((((s.after c [o.a, 31] [31]).at c).see 31).toNat ≤ ((s.after c [o.a, 31] [31]).at c).bank.stkHi.toNat) ∧ (whole ((s.after c [o.a, 31] [31]).lsWritable c) (((s.after c [o.a, 31] [31]).at c).see 31 + BitVec.ofInt 36 (-1)) 1 = true) ∧ (((s.after c [o.a, 31] [31]).at c).unwatched 2 (((s.after c [o.a, 31] [31]).at c).see 31 + BitVec.ofInt 36 (-1)) 1 = true)) ∧
    (∃ (s : State) (c : CoreId) (o : OpA), (s.ready c 1 = true) ∧ (s.lands c [31] [31] = true) ∧ (o.d = 0 ∧ o.a = 0 ∧ o.b = 0 ∧ o.x = 0) ∧ (((s.after c [31] [31]).at c).bank.stkLo.toNat + 2 ≤ (((s.after c [31] [31]).at c).see 31).toNat) ∧ ((((s.after c [31] [31]).at c).see 31).toNat + 1 ≤ ((s.after c [31] [31]).at c).bank.stkHi.toNat) ∧ ((s.after c [31] [31]).loadSpace c (((s.after c [31] [31]).at c).see 31) 1 = some .ls) ∧ (((List.range 1).any fun i => ((s.after c [31] [31]).at c).lsBad.contains ((((s.after c [31] [31]).at c).see 31).toNat + i)) = false) ∧ (((s.after c [31] [31]).at c).unwatched 1 (((s.after c [31] [31]).at c).see 31) 1 = true)) ∧
    (∃ (s : State) (c : CoreId) (o : OpA) (e : Fin 144), (s.ready c 1 = true) ∧ (c = .engine e) ∧ ((s.at c).loads = []) ∧ (o.d = 0 ∧ o.a = 0 ∧ o.b = 0 ∧ o.x = 0)) :=
  ⟨⟨tend, .tender, oZ, by decide⟩,
    ⟨tend, .tender, oBr, by decide⟩,
    ⟨tend, .tender, oJr, by decide⟩,
    ⟨tendStk, .tender, oJ, by decide⟩,
    ⟨tendStk, .tender, oJr, by decide⟩,
    ⟨tendStk, .tender, oZ, by decide⟩,
    ⟨eng, .engine 0, oZ, 0, by decide⟩⟩

theorem wit_JumpTargetsAreRelative : ∃ (c : CoreId) (o : OpJ) (s : State), (s.ready c 1 = true) :=
  ⟨.tender, oJ, tend, by decide⟩

theorem wit_StackChecksFault :
    (∃ (s : State) (c : CoreId) (o : OpJ), (s.ready c 1 = true) ∧ (s.lands c [31] [31] = true) ∧ (¬(((s.after c [31] [31]).at c).bank.stkLo.toNat + 3 ≤ (((s.after c [31] [31]).at c).see 31).toNat ∧ (((s.after c [31] [31]).at c).see 31).toNat ≤ ((s.after c [31] [31]).at c).bank.stkHi.toNat))) ∧
    (∃ (s : State) (c : CoreId) (o : OpA), (s.ready c 1 = true) ∧ (s.lands c [o.a, 31] [31] = true) ∧ (o.d = 0) ∧ (o.b = 0) ∧ (o.x = 0) ∧ (¬(((s.after c [o.a, 31] [31]).at c).bank.stkLo.toNat + 3 ≤ (((s.after c [o.a, 31] [31]).at c).see 31).toNat ∧ (((s.after c [o.a, 31] [31]).at c).see 31).toNat ≤ ((s.after c [o.a, 31] [31]).at c).bank.stkHi.toNat))) ∧
    (∃ (s : State) (c : CoreId) (o : OpA), (s.ready c 1 = true) ∧ (s.lands c [31] [31] = true) ∧ (o.d = 0 ∧ o.a = 0 ∧ o.b = 0 ∧ o.x = 0) ∧ (¬(((s.after c [31] [31]).at c).bank.stkLo.toNat + 2 ≤ (((s.after c [31] [31]).at c).see 31).toNat ∧ (((s.after c [31] [31]).at c).see 31).toNat + 1 ≤ ((s.after c [31] [31]).at c).bank.stkHi.toNat))) ∧
    (∃ (s : State) (c : CoreId) (o : OpA), (s.ready c 1 = true) ∧ (s.lands c [31] [31] = true) ∧ (o.d = 0 ∧ o.a = 0 ∧ o.b = 0 ∧ o.x = 0) ∧ (s.privileged c = true) ∧ (¬(((s.after c [31] [31]).at c).bank.stkLo.toNat ≤ (((s.after c [31] [31]).at c).see 31).toNat ∧ (((s.after c [31] [31]).at c).see 31).toNat + 2 ≤ ((s.after c [31] [31]).at c).bank.stkHi.toNat))) :=
  ⟨⟨tend, .tender, oJ, by decide⟩,
    ⟨tend, .tender, oJr, by decide⟩,
    ⟨tend, .tender, oZ, by decide⟩,
    ⟨tend, .tender, oZ, by decide⟩⟩

theorem wit_SystemInstructionsComplete :
    (∃ (s : State) (c : CoreId) (w : W36), (s.ready c 1 = true) ∧ (opAssigned (opcodeOf w) = false)) ∧
    (∃ (s : State) (c : CoreId) (o : OpI), (s.ready c 1 = true) ∧ (s.lands c [] [o.d] = true) ∧ (o.a = 0) ∧ (o.imm.toNat < 0x400)) ∧
    (∃ (s : State) (c : CoreId) (o : OpI), (s.ready c 1 = true) ∧ (s.lands c [o.a] [31] = true) ∧ (o.d = 0) ∧ (o.imm.toNat < 0x400) ∧ (s.privileged c = true) ∧ ((s.at c).inSecure = true ∨ secureSys o.imm.toNat = false) ∧ (((s.after c [o.a] [31]).sysWrite ((s.after c [o.a] [31]).at c) o.imm.toNat (((s.after c [o.a] [31]).at c).see o.a)).isSome = true)) ∧
    (∃ (s : State) (c : CoreId) (o : OpI), (s.ready c 1 = true) ∧ (c = .tender) ∧ (o.d = 0 ∧ o.a = 0 ∧ o.imm.toNat < 0x10000)) ∧
    (∃ (s : State) (c : CoreId) (o : OpI), (s.ready c 1 = true) ∧ (o.d = 0 ∧ o.a = 0 ∧ o.imm.toNat < 0x10000) ∧ (bitOf ((s.at c).dbgReg 0x22) 0 = false)) ∧
    (∃ (s : State) (c : CoreId) (o : OpI), (s.ready c 1 = true) ∧ (o.d = 0 ∧ o.a = 0 ∧ o.imm.toNat < 0x10000) ∧ (bitOf ((s.at c).dbgReg 0x22) 0 = true) ∧ (s.mayHalt c = true)) ∧
    (∃ (s : State) (c : CoreId) (o : OpA), (s.ready c 1 = true) ∧ (s.lands c [31] [31] = true) ∧ (o.d = 0 ∧ o.a = 0 ∧ o.b = 0 ∧ o.x = 0) ∧ (s.privileged c = true) ∧ (((s.after c [31] [31]).at c).bank.stkLo.toNat ≤ (((s.after c [31] [31]).at c).see 31).toNat) ∧ ((((s.after c [31] [31]).at c).see 31).toNat + 2 ≤ ((s.after c [31] [31]).at c).bank.stkHi.toNat) ∧ ((s.after c [31] [31]).loadSpace c (((s.after c [31] [31]).at c).see 31) 2 = some .ls) ∧ (((List.range 2).any fun i => ((s.after c [31] [31]).at c).lsBad.contains ((((s.after c [31] [31]).at c).see 31).toNat + i)) = false) ∧ (((s.after c [31] [31]).at c).unwatched 1 (((s.after c [31] [31]).at c).see 31) 2 = true)) ∧
    (∃ (s : State) (c : CoreId) (o : OpA), (s.ready c 1 = true) ∧ (o.d = 0 ∧ o.a = 0 ∧ o.b = 0 ∧ o.x = 0) ∧ (s.privileged c = true)) ∧
    (∃ (s : State) (c : CoreId) (o : OpA), (s.ready c 1 = true) ∧ (o.d = 0 ∧ o.a = 0 ∧ o.b = 0 ∧ o.x = 0) ∧ ((s.at c).stores = [])) ∧
    (∃ (s : State) (c : CoreId) (o : OpA), (s.ready c 1 = true) ∧ (o.d = 0 ∧ o.a = 0 ∧ o.b = 0 ∧ o.x = 0) ∧ ((s.at c).stores ≠ [])) :=
  ⟨⟨tend, .tender, 0, by decide⟩,
    ⟨tend, .tender, oSys, by decide⟩,
    ⟨tend, .tender, oSysw, by decide⟩,
    ⟨tend, .tender, oBrk, by decide⟩,
    ⟨tend, .tender, oBrk, by decide⟩,
    ⟨tendBrk, .tender, oBrk, by decide⟩,
    ⟨tendStk, .tender, oZ, by decide⟩,
    ⟨tend, .tender, oZ, by decide⟩,
    ⟨tend, .tender, oZ, by decide⟩,
    ⟨tendPosted, .tender, oZ, by decide⟩⟩

theorem wit_PrivilegedInstructionsTrapInUserMode :
    (∃ (s : State) (c : CoreId) (o : OpA), (s.ready c 1 = true) ∧ (o.d = 0 ∧ o.a = 0 ∧ o.b = 0 ∧ o.x = 0) ∧ (s.privileged c = false)) ∧
    (∃ (s : State) (c : CoreId) (o : OpI), (s.ready c 1 = true) ∧ (s.privileged c = false)) ∧
    (∃ (s : State) (c : CoreId) (o : OpI), (s.ready c 1 = true) ∧ (s.lands c [o.a] [31] = true) ∧ (o.d = 0) ∧ (o.imm.toNat = 0x004) ∧ (c = .tender) ∧ ((s.at c).priv = true)) ∧
    (∃ (s : State) (c : CoreId) (o : OpA), (s.ready c 1 = true) ∧ (s.lands c [31] [31] = true) ∧ (o.d = 0 ∧ o.a = 0 ∧ o.b = 0 ∧ o.x = 0) ∧ (c = .tender) ∧ ((s.at c).priv = true) ∧ (((s.after c [31] [31]).at c).reteOk (((s.after c [31] [31]).at c).see 31).toNat = true) ∧ ((s.after c [31] [31]).loadSpace c (((s.after c [31] [31]).at c).see 31) 2 = some .ls) ∧ (((List.range 2).any fun i => ((s.after c [31] [31]).at c).lsBad.contains ((((s.after c [31] [31]).at c).see 31).toNat + i)) = false) ∧ (((s.after c [31] [31]).at c).unwatched 1 (((s.after c [31] [31]).at c).see 31) 2 = true)) ∧
    (∃ (s : State) (c : CoreId) (o : OpI), (s.ready c 1 = true) ∧ (o.d = 0 ∧ o.a = 0 ∧ o.imm.toNat < 0x10000) ∧ (c = .tender) ∧ ((s.at c).priv = false ∨ (s.at c).priv = true) ∧ ((s.at c).inSecure = false ∨ (s.at c).inSecure = true)) :=
  ⟨⟨tendUser, .tender, oZ, by decide⟩,
    ⟨tendUser, .tender, oSysw, by decide⟩,
    ⟨tend, .tender, oSysw, by decide⟩,
    ⟨tendStk, .tender, oZ, by decide⟩,
    ⟨tendUser, .tender, oBrk, by decide⟩⟩

theorem wit_CoreEventsComplete :
    (∃ (s : State) (c : CoreId) (i : Nat) (t : State) (l : Load), (s.pick (s.loadNext (coreKey c)) = (some i, t)) ∧ ((t.at c).loads[i]? = some l) ∧ (l.bad = false)) ∧
    (∃ (s : State) (c : CoreId) (i : Nat) (t : State) (l : Load), (s.pick (s.loadNext (coreKey c)) = (some i, t)) ∧ ((t.at c).loads[i]? = some l) ∧ (l.age ≤ 5)) ∧
    (∃ (s : State) (c : CoreId) (i : Nat) (t : State) (l : Load), (s.pick (s.loadNext (coreKey c)) = (some i, t)) ∧ ((t.at c).loads[i]? = some l) ∧ (l.bad = true)) ∧
    (∃ (s : State) (c : CoreId) (t : State), ((s.storeNext (coreKey c)).isEmpty = false) ∧ (s.drain c = some t)) ∧
    (∃ (s : State) (c : CoreId) (t : State), ((s.at c).issue = .fenceWait) ∧ (s.drains c (s.at c).stores.length = some t) ∧ ((t.at c).issue = .fenceWait)) ∧
    (∃ (s : State), (s.tenderClock = true) ∧ ((s.at .tender).issue = .wfiWait) ∧ (s.irqFor (s.at .tender).inSecure ≠ 0 ∨ s.fireguard.nmi = true)) ∧
    (∃ (s : State) (source : Fin 64) (w : Bool), (s.sourceWorld source.val = some w) ∧ (s.atBoundary = true) ∧ ((s.at .tender).pswBit 2 = true) ∧ (s.sourcePending source.val = true) ∧ ((s.at .tender).issue = .running ∨ w = (s.at .tender).inSecure) ∧ ((s.at .tender).loads.all (fun l => !l.bad) = true)) ∧
    (∃ (s : State), (s.atBoundary = true) ∧ (s.fireguard.nmi = true) ∧ ((s.at .tender).pswBit 3 = false) ∧ ((s.at .tender).loads.all (fun l => !l.bad) = true)) ∧
    (∃ (s : State), (s.tenderClock = true) ∧ (s.tenderUp = true)) ∧
    (∃ (s : State) (e : Fin 144), (s.overBudget e = true) ∧ ((s.core e.val).halted = false) ∧ ((s.core e.val).issue = .running)) ∧
    (∃ (s : State) (c : CoreId), (s.mainUp = true) ∧ ((s.at c).haltReq = true) ∧ ((s.at c).halted = false) ∧ ((s.at c).between = true) ∧ (s.mayHalt c = true)) :=
  ⟨⟨tendLoad, .tender, 0, _, load1, rfl, rfl, by decide⟩,
    ⟨tendLoad, .tender, 0, _, load1, rfl, rfl, by decide⟩,
    ⟨tendLoadHearth, .tender, 0, _, load2, rfl, rfl, by decide⟩,
    ⟨tendPosted, .tender, (tendPosted.drain .tender).getD tendPosted, by decide⟩,
    ⟨tendFence, .tender, (tendFence.drains .tender 1).getD tendFence, by decide⟩,
    ⟨tendNmi, by decide⟩,
    ⟨tendIrq, 2, true, by decide⟩,
    ⟨tendNmi, by decide⟩,
    ⟨tend, by decide⟩,
    ⟨engBudget, 0, by decide⟩,
    ⟨tendHalt, .tender, by decide⟩⟩

theorem wit_HearthCommandsComplete :
    (∃ (s : State) (off : Nat) (len : Nat), (s.hostUp = true)) ∧
    (∃ (s : State) (off : Nat) (data : List Byte), (s.hostUp = true)) ∧
    (∃ (s : State) (k : Fin 3), (s.fldBit Reg.hrtStatusSettling k.val = true)) ∧
    (∃ (s : State) (found : Ecc), (s.mainUp = true) ∧ (s.bit Reg.hrtControlScrub = true)) ∧
    (∃ (s : State) (r : Requester) (v : W32), (s.mayWrite r 0x014 = true) ∧ (bitOf v.toNat 0 = true) ∧ (s.bit Reg.hrtStatusCaptureBusy = false)) ∧
    (∃ (s : State), (s.bit Reg.hrtStatusCaptureBusy = true) ∧ (s.endCapture.mantel.pf ≠ 1) ∧ (s.endCapture.raking = none) ∧ (s.endCapture.edit.captureDue = false)) ∧
    (∃ (s : State) (granule : Nat), (s.role = 6 ∨ s.role = 7) ∧ (granule < 294912)) :=
  ⟨⟨held, 0, 8, by decide⟩,
    ⟨held, 0, [1], by decide⟩,
    ⟨settling, 0, by decide⟩,
    ⟨scrubbing, .clean, by decide⟩,
    ⟨held, .tenderSecure, 1, by decide⟩,
    ⟨capturing, by decide⟩,
    ⟨primary6, 0, by decide⟩⟩

theorem wit_CycleCommandsComplete :
    (∃ (s : State) (k : Fin 3) (n : Nat × Nat), (s.cycles = true) ∧ (s.arriving k.val = some n)) ∧
    (∃ (s : State) (n : Nat × Nat), (s.cycles = true) ∧ (s.arriving 0 = some n) ∧ ((s.meetBoundary 0 n.1 n.2).1 = true) ∧ ((s.meetBoundary 0 n.1 n.2).2.due 1 0 n.2 = none) ∧ ((s.meetBoundary 0 n.1 n.2).2.due 2 0 n.2 = none)) ∧
    (∃ (s : State) (n : Nat × Nat), (s.cycles = true) ∧ (s.arriving 0 = some n) ∧ ((s.meetBoundary 0 n.1 n.2).1 = false) ∧ ((s.meetBoundary 0 n.1 n.2).2.due 1 0 n.2 = none) ∧ ((s.meetBoundary 0 n.1 n.2).2.due 2 0 n.2 = none)) ∧
    (∃ (s : State) (k : Fin 3), (s.cycles = false)) ∧
    (∃ (s : State) (k : Fin 3), (s.fld (Reg.blwClStatusPhase k.val) = 1)) ∧
    (∃ (s : State) (k : Fin 3) (t : TierRt), (s.fld (Reg.blwClStatusPhase k.val) = 2) ∧ ((s.cls k.val).openTier = none) ∧ ((s.cls k.val).nextTier = some t)) ∧
    (∃ (s : State) (k : Fin 3) (l : Fin 128) (t : Nat), ((s.cls k.val).inflight.find? (fun x => decide (x.2 = l.val)) = some (t, l.val))) ∧
    (∃ (s : State) (k : Fin 3), (s.fld (Reg.blwClStatusPhase k.val) = 2) ∧ ((s.cls k.val).tiersClosed = true)) ∧
    (∃ (s : State) (k : Fin 3), (s.fld (Reg.blwClStatusPhase k.val) = 3)) ∧
    (∃ (s : State) (k : Fin 3), (s.fld (Reg.blwClStatusPhase k.val) = 4)) :=
  ⟨⟨primary, 0, bound0, by decide⟩,
    ⟨primary, bound0, by decide⟩,
    ⟨phase1, bound1, by decide⟩,
    ⟨standbyAt, 0, by decide⟩,
    ⟨phase1, 0, by decide⟩,
    ⟨phase2, 0, tier0, by decide⟩,
    ⟨phase2, 0, 0, 0, by decide⟩,
    ⟨phase2e, 0, by decide⟩,
    ⟨phase3, 0, by decide⟩,
    ⟨phase4, 0, by decide⟩⟩

theorem wit_BellowsRegisterCommandsComplete :
    (∃ (s : State) (r : Requester) (k : Fin 3) (v : W32), (s.mayWrite r (0x010 + k.val) = true) ∧ (bitOf v.toNat 3 = true) ∧ ((s.cls k.val).stalledNow = true)) ∧
    (∃ (s : State) (r : Requester) (k : Fin 3) (v : W32), (s.mayWrite r (0x010 + k.val) = true)) ∧
    (∃ (s : State) (r : Requester) (k : Fin 3) (v : W32), (s.mayWrite r (0x010 + k.val) = true) ∧ (s.mode = modeHeld) ∧ (periodGood k.val (bitsOf v.toNat 0 26) = true) ∧ (s.fld (Reg.blwClPhaseOffsetPhaseOffset k.val) < bitsOf v.toNat 0 26)) ∧
    (∃ (s : State) (r : Requester) (k : Fin 3) (v : W32), (s.mayWrite r (0x010 + k.val) = true) ∧ (bitsOf v.toNat 0 26 < s.periodUs k.val)) ∧
    (∃ (s : State) (r : Requester) (block : BitVec 20) (d : Desc), (s.mayWrite r 0x013 = true) ∧ (s.desc block.toNat = some d)) :=
  ⟨⟨stalled, .tenderSecure, 0, 8, by decide⟩,
    ⟨held, .tenderSecure, 0, 1, by decide⟩,
    ⟨held, .tenderSecure, 0, 2000, by decide⟩,
    ⟨periodic, .tenderSecure, 0, 1, by decide⟩,
    ⟨heldProg0, .tenderSecure, 0, desc0, by decide⟩⟩

theorem wit_HardwareFailureCommandsComplete :
    (∃ (s : State) (r : Requester) (e : Fin 144) (v : W32) (credits : Fin 35), (s.mayWrite r (0x040 + e.val) = true) ∧ (bitOf v.toNat 0 = true)) ∧
    (∃ (s : State) (e : Fin 144), (s.engState e.val = 3)) ∧
    (∃ (s : State) (r : Requester) (n : Fin 16) (v : W32), (s.mayWrite r (0x020 + n.val) = true) ∧ (bitOf v.toNat 0 = true)) ∧
    (∃ (s : State) (r : Requester) (v : W32), (s.mayWrite r 0x130 = true) ∧ (bitsOf v.toNat 0 2 ≠ 0) ∧ (s.mayMapOut (bitsOf v.toNat 0 2) = true)) ∧
    (∃ (s : State) (r : Requester) (v : W32) (ch : Fin 2), (s.mayWrite r 0x130 = true) ∧ (bitsOf v.toNat 2 2 = 2 ^ ch.val) ∧ (s.bit Reg.drmConfigMirror = true) ∧ (s.chState ch.val = 2)) ∧
    (∃ (s : State) (ch : Fin 2), (s.chState ch.val = 3)) ∧
    (∃ (s : State) (ch : Fin 2), (s.chState ch.val ≠ 0) ∧ (s.chState ch.val ≠ 2) ∧ (s.mode ≠ modeEmber) ∧ (s.bit Reg.drmConfigMirror = false ∨ s.chState (1 - ch.val) ≠ 1)) ∧
    (∃ (s : State) (r : Requester) (x : Fin 40) (v : W32), (s.mayWrite r (0x101 + x.val) = true) ∧ (bitOf v.toNat 0 = true)) ∧
    (∃ (s : State) (r : Requester) (p : Fin 192) (v : W32), (s.mayWrite r (0x201 + p.val) = true) ∧ (bitOf v.toNat 0 = true)) ∧
    (∃ (s : State) (q : Fin 12), (s.hobUp = true) ∧ (s.fldBit Reg.hobStatusSeqUp q.val = true)) ∧
    (∃ (s : State) (q : Packet), (s.flueBalanced = true)) ∧
    (∃ (l : Link) (p : Packet), (l.balanced = true)) ∧
    (∃ (l : Link) (k : PacketKind) (a : W36) (n : Nat), (l.balanced = true)) ∧
    (∃ (l : Link) (m : Link) (p : Packet), (p.header.channel = .vc0) ∧ (l.launch p = some m)) :=
  ⟨⟨held, .tenderSecure, 0, 1, 7, by decide⟩,
    ⟨spareLoading, 0, by decide⟩,
    ⟨held, .tenderSecure, 0, 1, by decide⟩,
    ⟨mirrored, .tenderSecure, 1, by decide⟩,
    ⟨mapped0, .tenderSecure, 4, 0, by decide⟩,
    ⟨resilvering, 0, by decide⟩,
    ⟨chan1, 0, by decide⟩,
    ⟨held, .tenderSecure, 0, 1, by decide⟩,
    ⟨held, .tenderSecure, 0, 1, by decide⟩,
    ⟨hobOn, 0, by decide⟩,
    ⟨State.reset, packetA, by decide⟩,
    ⟨Link.reset, packetA, by decide⟩,
    ⟨Link.reset, .load, 0, 0, by decide⟩,
    ⟨Link.reset, Link.reset.request packetA, packetA, rfl, by decide⟩⟩

theorem wit_EditCommandsComplete :
    (∃ (s : State) (r : Requester), (s.mayWrite r 0x015 = true) ∧ (s.editState = 0 ∨ s.editState = 6)) ∧
    (∃ (s : State) (r : Requester), (s.mayWrite r 0x015 = true) ∧ (s.editState = 1)) ∧
    (∃ (s : State) (mantelOk : Bool), (s.editState = 2)) ∧
    (∃ (s : State) (r : Requester), (s.mayWrite r 0x015 = true) ∧ (s.editState = 1 ∨ s.editState = 3 ∨ s.editState = 6)) ∧
    (∃ (s : State) (r : Requester) (p : Program), (s.mayWrite r 0x015 = true) ∧ (s.bellows.shadow = some p) ∧ (s.editState = 3) ∧ (s.role ≥ 5) ∧ (p.full = false) ∧ (s.edit.partnerWait = false) ∧ (s.actClass ≠ 3) ∧ (s.tooNear = false)) ∧
    (∃ (s : State) (r : Requester) (p : Program), (s.mayWrite r 0x015 = true) ∧ (s.bellows.rollback = some p) ∧ (s.editState = 0) ∧ (s.role ≥ 5) ∧ (s.edit.partnerWait = false) ∧ (s.actClass ≠ 3) ∧ (s.bit Reg.edtStatusRollbackAvail = true) ∧ (s.rollbackAgrees = true) ∧ (s.tooNear = false)) ∧
    (∃ (s : State) (r : Requester) (p : Program), (s.mayWrite r 0x015 = true) ∧ (s.bellows.shadow = some p) ∧ (s.editState = 3) ∧ (s.mode = modeHeld)) ∧
    (∃ (s : State) (r : Requester), (s.mayWrite r 0x015 = true) ∧ (s.editState = 4)) ∧
    (∃ (s : State) (digest : List W32) (k : Fin 3) (cycle : Nat), (s.role = 3 ∨ s.role = 4) ∧ (s.armMatches digest = true)) ∧
    (∃ (s : State) (w : List W32 × Nat × Nat), (s.erair.armWait = some w) ∧ (s.edit.partnerWait = true)) ∧
    (∃ (s : State), (s.edit.partnerWait = true)) ∧
    (∃ (s : State), (s.role = 3 ∨ s.role = 4) ∧ (s.editState = 4)) :=
  ⟨⟨held, .tenderSecure, by decide⟩,
    ⟨edit1, .tenderSecure, by decide⟩,
    ⟨edit2, true, by decide⟩,
    ⟨edit1, .tenderSecure, by decide⟩,
    ⟨edit3, .tenderSecure, prog0, by decide⟩,
    ⟨rollable, .tenderSecure, prog0, by decide⟩,
    ⟨heldStaged, .tenderSecure, prog0, by decide⟩,
    ⟨edit4, .tenderSecure, by decide⟩,
    ⟨standbyStaged, [], 0, 0, by decide⟩,
    ⟨armWaiting, ([], 0, 5), by decide⟩,
    ⟨armWaiting, by decide⟩,
    ⟨standby4, by decide⟩⟩

theorem wit_DraughtCommandsComplete :
    (∃ (s : State) (i : Nat) (h : Handshake), (s.chmOn = true) ∧ (s.chmPortUp h.dg.port.val = true) ∧ (s.vlanTakes h.dg.port.val h.dg.vlan = true) ∧ (h.dg.size ≤ s.mtu h.dg.port.val) ∧ (s.hasRole h.dg.port.val .stations = true) ∧ (h.dg.udpPort.toNat = s.fld Reg.chmUdpPortPort) ∧ (((s.countWrap (Reg.chmXRxFramesRxFrames h.dg.port.val)).noteHandshake i h).rateExceeded = false ∨ h.cookieValid = true) ∧ (((s.countWrap (Reg.chmXRxFramesRxFrames h.dg.port.val)).noteHandshake i h).takesHandshake h = true)) ∧
    (∃ (s : State) (i : Nat) (h : Handshake), (s.chmOn = true) ∧ (s.chmPortUp h.dg.port.val = true) ∧ (s.vlanTakes h.dg.port.val h.dg.vlan = true) ∧ (h.dg.size ≤ s.mtu h.dg.port.val) ∧ (s.hasRole h.dg.port.val .stations = true) ∧ (h.dg.udpPort.toNat = s.fld Reg.chmUdpPortPort) ∧ (((s.countWrap (Reg.chmXRxFramesRxFrames h.dg.port.val)).noteHandshake i h).rateExceeded = false ∨ h.cookieValid = true) ∧ (((s.countWrap (Reg.chmXRxFramesRxFrames h.dg.port.val)).noteHandshake i h).takesHandshake h = false)) ∧
    (∃ (s : State) (i : Nat) (h : Handshake), (s.chmOn = true) ∧ (s.chmPortUp h.dg.port.val = true) ∧ (s.vlanTakes h.dg.port.val h.dg.vlan = true) ∧ (h.dg.size ≤ s.mtu h.dg.port.val) ∧ (s.hasRole h.dg.port.val .stations = true) ∧ (h.dg.udpPort.toNat = s.fld Reg.chmUdpPortPort) ∧ (((s.countWrap (Reg.chmXRxFramesRxFrames h.dg.port.val)).noteHandshake i h).rateExceeded = true) ∧ (h.cookieValid = false)) ∧
    (∃ (s : State) (i : Nat), (2 ≤ (s.session i).phase) ∧ ((s.session i).keyDue s.bellows.ns = true)) ∧
    (∃ (s : State) (i : Nat) (dg : Datagram) (seq : Nat) (authentic : Bool) (frame : List Byte), (s.chmOn = true) ∧ (s.chmPortUp dg.port.val = true) ∧ (s.vlanTakes dg.port.val dg.vlan = true) ∧ (dg.size ≤ s.mtu dg.port.val) ∧ (s.hasRole dg.port.val .stations = true) ∧ (dg.udpPort.toNat = s.fld Reg.chmUdpPortPort) ∧ (authentic = true) ∧ (2 ≤ (s.session i).phase) ∧ ((s.session i).fresh seq = true)) ∧
    (∃ (s : State) (i : Nat), ((s.session i).heardNs + s.fld Reg.chmSessionIdleSeconds * 1000000000 ≤ s.bellows.ns)) ∧
    (∃ (s : State) (i : Nat) (stamp : Nat) (f : List Byte) (x : Session) (d : StationDecl), ((s.session i).takeFrame 1 = some ((stamp, f), x)) ∧ (s.draughtDecl (field f 2 3) = some d) ∧ (((s.setSession i x).stationEpoch 4 (field f 2 3) (field f 12 4)).bindResult x (some d) f = 0)) ∧
    (∃ (s : State) (i : Nat) (stamp : Nat) (f : List Byte) (x : Session), ((s.session i).takeFrame 1 = some ((stamp, f), x)) ∧ (((s.setSession i x).stationEpoch 4 (field f 2 3) (field f 12 4)).bindResult x (s.draughtDecl (field f 2 3)) f ≠ 0)) ∧
    (∃ (s : State) (i : Nat) (d : StationDecl) (stamp : Nat) (f : List Byte) (x : Session), ((s.session i).takeFrame 2 = some ((stamp, f), x)) ∧ (x.station.bind s.draughtDecl = some d)) ∧
    (∃ (s : State) (i : Nat) (d : StationDecl) (stamp : Nat) (f : List Byte) (x : Session), ((s.session i).takeFrame 4 = some ((stamp, f), x)) ∧ (x.station.bind s.draughtDecl = some d)) ∧
    (∃ (s : State) (i : Nat) (d : StationDecl) (stamp : Nat) (f : List Byte) (x : Session), ((s.session i).takeFrame 6 = some ((stamp, f), x)) ∧ (x.station.bind s.draughtDecl = some d) ∧ (eventFrameGood d f = true) ∧ (((s.setSession i x).queueEvents d.num 0 (draughtEvents f)).1 = true)) ∧
    (∃ (s : State) (n : Nat) (d : StationDecl), (s.decl n = some d) ∧ (s.drives = true) ∧ (s.cannotSolve = false) ∧ (d.outMode = true) ∧ ((s.station n).outValid = true) ∧ (s.reached d = true) ∧ (d.kind = 1)) ∧
    (∃ (s : State) (n : Nat) (d : StationDecl), (s.decl n = some d) ∧ (s.drives = true) ∧ (s.cannotSolve = false) ∧ (d.outMode = true) ∧ ((s.station n).outValid = true) ∧ (s.reached d = true) ∧ (d.kind = 4)) ∧
    (∃ (s : State) (n : Nat) (d : StationDecl), (s.decl n = some d)) :=
  ⟨⟨chmUp, 0, hs0, by decide⟩,
    ⟨chmUp, 0, hsBad, by decide⟩,
    ⟨chmRate, 0, hsNew, by decide⟩,
    ⟨chmKeyed, 0, by decide⟩,
    ⟨chmSes, 0, dg0, 5, true, [], by decide⟩,
    ⟨chmIdle, 0, by decide⟩,
    ⟨chmBind, 0, 0, bindFrame, sesWith [], dDr, by decide⟩,
    ⟨chmBindBad, 0, 0, bindFrame, sesOther, by decide⟩,
    ⟨chmIntake, 0, dDr, 0, intakeFrame, sesWith [], by decide⟩,
    ⟨chmAck, 0, dDr, 0, ackFrame, sesWith [], by decide⟩,
    ⟨chmEvent, 0, dDr, 0, eventFrame, sesWith [], by decide⟩,
    ⟨chmOut, 5, dDr, by decide⟩,
    ⟨chmOut, 7, dBus, by decide⟩,
    ⟨chmOut, 5, dDr, by decide⟩⟩

theorem wit_StationPageCommandsComplete :
    (∃ (s : State) (r : Requester) (n : BitVec 17), (s.mayWrite r 0x140 = true)) ∧
    (∃ (s : State) (r : Requester) (n : BitVec 17) (d : StationDecl), (s.mayWrite r 0x140 = true) ∧ (s.decl (n.toNat) = some d) ∧ ((s.station d.num).state = 0 ∨ (s.station d.num).state = 1)) ∧
    (∃ (s : State) (r : Requester) (n : BitVec 17) (d : StationDecl), (s.mayWrite r 0x140 = true) ∧ (s.decl (n.toNat) = some d) ∧ ((s.station d.num).state = 2)) ∧
    (∃ (s : State) (r : Requester) (n : BitVec 17) (d : StationDecl), (s.mayWrite r 0x140 = true) ∧ (s.decl (n.toNat) = some d) ∧ ((s.station d.num).state = 3)) ∧
    (∃ (s : State) (r : Requester) (n : BitVec 17) (d : StationDecl), (s.mayWrite r 0x140 = true) ∧ (s.decl (n.toNat) = some d)) ∧
    (∃ (s : State) (r : Requester) (n : BitVec 17) (d : StationDecl), (s.mayWrite r 0x140 = true) ∧ (s.decl (n.toNat) = some d) ∧ (d.kind = 2) ∧ (s.drives = true) ∧ ((s.station d.num).legacy = 4)) ∧
    (∃ (s : State) (r : Requester) (n : BitVec 17) (d : StationDecl) (i : Nat), (s.mayWrite r 0x140 = true) ∧ (s.decl (n.toNat) = some d) ∧ (d.kind = 1) ∧ ((s.station d.num).session = some i)) ∧
    (∃ (s : State) (r : Requester) (n : BitVec 17) (d : StationDecl), (s.mayWrite r 0x140 = true) ∧ (s.decl (n.toNat) = some d) ∧ (d.kind = 1) ∧ ((s.station d.num).session = none)) ∧
    (∃ (s : State) (r : Requester) (n : BitVec 17) (d : StationDecl), (s.mayWrite r 0x140 = true) ∧ (s.decl (n.toNat) = some d) ∧ (d.kind = 2) ∧ ((s.station d.num).legacy ≠ 0)) :=
  ⟨⟨chmOut, .tenderSecure, 5, by decide⟩,
    ⟨chmOut, .tenderSecure, 5, dDr, by decide⟩,
    ⟨chmDropped, .tenderSecure, 5, dDr, by decide⟩,
    ⟨chmDisabled, .tenderSecure, 5, dDr, by decide⟩,
    ⟨chmOut, .tenderSecure, 5, dDr, by decide⟩,
    ⟨lgStarted, .tenderSecure, 6, dLg, by decide⟩,
    ⟨chmSes, .tenderSecure, 5, dDr, 0, by decide⟩,
    ⟨chmUnbound, .tenderSecure, 5, dDr, by decide⟩,
    ⟨lgStarted, .tenderSecure, 6, dLg, by decide⟩⟩

theorem wit_EthernetPortCommandsComplete :
    (∃ (s : State) (x : Fin 40) (vlan : Option (BitVec 12)) (addr : BitVec 128) (v6 : Bool), (s.chmPortUp x.val = true) ∧ (s.vlanTakes x.val vlan = true) ∧ (s.compUp 2 = true) ∧ (s.ownAddress x.val addr.toNat v6 = true)) ∧
    (∃ (s : State) (x : Fin 40) (vlan : Option (BitVec 12)) (addr : BitVec 128) (v6 : Bool), (s.chmPortUp x.val = true) ∧ (s.vlanTakes x.val vlan = false)) ∧
    (∃ (s : State) (x : Fin 40) (up : Bool) (speed : BitVec 2), (s.chmPortUp x.val = true) ∧ (s.bit (Reg.chmXStatusLink x.val) ≠ up) ∧ (up = true → modeSpeed (s.fld (Reg.chmXControlMode x.val)) speed.toNat = true)) ∧
    (∃ (s : State) (x : Fin 40), (s.chmPortUp x.val = true)) ∧
    (∃ (s : State) (x : Fin 40) (tag : Option (BitVec 12)), (s.chmPortUp x.val = true) ∧ (s.vlanTakes x.val tag = false)) ∧
    (∃ (s : State) (x : Fin 40) (size : Nat), (s.chmPortUp x.val = true) ∧ (s.mtu x.val < size)) ∧
    (∃ (s : State) (x : Fin 40) (role : EthRole), (s.chmPortUp x.val = true) ∧ (s.hasRole x.val role = false)) :=
  ⟨⟨chmAddr, 0, none, 0, false, by decide⟩,
    ⟨chmAddr, 0, some 9, 0, false, by decide⟩,
    ⟨chmUp, 0, true, 2, by decide⟩,
    ⟨chmUp, 0, by decide⟩,
    ⟨chmUp, 0, some 9, by decide⟩,
    ⟨chmUp, 0, 20000, by decide⟩,
    ⟨chmUp, 0, .host, by decide⟩⟩

theorem wit_LegacyCommandsComplete :
    (∃ (s : State) (n : Nat) (d : StationDecl), (s.legacyDecl n = some d) ∧ (s.chmOn = true) ∧ (s.chmCoreUp n = true) ∧ ((s.station n).legacy = 0) ∧ ((s.station n).retryS = 0) ∧ (s.role ≠ 0)) ∧
    (∃ (s : State) (n : Nat) (d : StationDecl), (s.legacyDecl n = some d) ∧ (s.chmOn = true) ∧ (s.chmCoreUp n = true) ∧ ((s.station n).legacy = 0) ∧ ((s.station n).retryS ≠ 0) ∧ (s.role ≠ 0)) ∧
    (∃ (s : State) (n : Nat) (v : Bool) (sup : Bool) (auth : Bool) (spki : List Byte) (d : StationDecl), (s.legacyDecl n = some d) ∧ ((s.station n).legacy = 1) ∧ (s.legacyUp n = true) ∧ (sup = true) ∧ (auth = true) ∧ (identityOf spki = d.idHash)) ∧
    (∃ (s : State) (n : Nat) (v : Bool) (sup : Bool) (auth : Bool) (spki : List Byte) (d : StationDecl), (s.legacyDecl n = some d) ∧ ((s.station n).legacy = 1) ∧ (s.legacyUp n = true) ∧ (sup = false ∨ auth = false ∨ identityOf spki ≠ d.idHash)) ∧
    (∃ (s : State) (d : StationDecl) (x : Fin 40), (s.openPort = some x.val)) ∧
    (∃ (s : State) (n : Nat) (d : StationDecl), (s.legacyDecl n = some d) ∧ ((s.station n).legacy ≠ 0)) ∧
    (∃ (s : State) (n : Nat) (d : StationDecl), (s.legacyDecl n = some d) ∧ ((s.station n).legacy = 1)) ∧
    (∃ (s : State) (n : Nat) (d : StationDecl), (s.legacyDecl n = some d) ∧ ((s.station n).connected = true) ∧ ((s.station n).tls13 = true)) ∧
    (∃ (s : State) (n : Nat) (d : StationDecl), (s.legacyDecl n = some d) ∧ ((s.station n).connected = true) ∧ ((s.station n).tls13 = false)) ∧
    (∃ (s : State) (n : Nat) (d : StationDecl) (octets : Nat) (sendSeq : Nat) (recvSeq : Nat) (typeId : Nat) (cause : Nat) (ca : Nat) (objects : List InfoObject), (s.legacyDecl n = some d) ∧ ((s.station n).connected = true) ∧ (s.legacyUp n = true) ∧ (sendSeq = (((s.countWrap (Reg.chmXRxFramesRxFrames (s.station n).via)).legacyHeard n).station d.num).recvSeq)) ∧
    (∃ (s : State) (n : Nat) (d : StationDecl) (recvSeq : Nat), (s.legacyDecl n = some d) ∧ ((s.station n).connected = true) ∧ (s.legacyUp n = true)) ∧
    (∃ (s : State) (n : Nat) (d : StationDecl), (s.legacyDecl n = some d) ∧ ((s.station n).connected = true) ∧ (s.legacyUp n = true)) ∧
    (∃ (s : State) (n : Nat) (ioa : Nat) (positive : Bool) (d : StationDecl) (c : Nat × W32), (s.legacyDecl n = some d) ∧ ((s.station n).pendingCmds.find? (fun c => decide (c.1 = ioa)) = some c) ∧ (positive = true)) ∧
    (∃ (s : State) (n : Nat) (d : StationDecl), (s.legacyDecl n = some d) ∧ ((s.station n).interrogating = true)) ∧
    (∃ (s : State) (n : Nat) (d : StationDecl), (s.legacyDecl n = some d) ∧ ((s.station n).connected = true)) ∧
    (∃ (s : State) (n : Nat) (d : StationDecl), (s.legacyDecl n = some d) ∧ ((s.station n).connected = true) ∧ ((s.station n).testOut = true ∨ (s.station n).unacked ≠ 0 ∨ (s.station n).uOut ≠ 0)) ∧
    (∃ (s : State) (n : Nat) (d : StationDecl), (s.legacyDecl n = some d) ∧ ((s.station n).connected = true) ∧ ((s.station n).unsent ≠ 0)) ∧
    (∃ (s : State) (n : Nat) (d : StationDecl), (s.legacyDecl n = some d) ∧ (d.giS ≠ 0) ∧ (s.drives = true) ∧ ((s.station n).legacy = 4)) ∧
    (∃ (s : State) (n : Nat) (d : StationDecl), (s.legacyDecl n = some d) ∧ (d.csMin ≠ 0) ∧ (s.drives = true) ∧ ((s.station n).legacy = 4)) :=
  ⟨⟨lgDown, 6, dLg, by decide⟩,
    ⟨lgRetry, 6, dLg, by decide⟩,
    ⟨lgIdOpen, 6, true, true, true, [1, 2, 3], dLgId, rfl, by decide, by decide, rfl, rfl, rfl⟩,
    ⟨lgOpen, 6, false, false, false, [], dLg, by decide, by decide, by decide, .inl rfl⟩,
    ⟨lgOpen, dLg, 0, by decide⟩,
    ⟨lgOpen, 6, dLg, by decide⟩,
    ⟨lgOpen, 6, dLg, by decide⟩,
    ⟨lgStarted, 6, dLg, by decide⟩,
    ⟨lg12, 6, dLg, by decide⟩,
    ⟨lgStarted, 6, dLg, 0, 0, 0, 0, 0, 0, [], by decide⟩,
    ⟨lgStarted, 6, dLg, 0, by decide⟩,
    ⟨lgStarted, 6, dLg, by decide⟩,
    ⟨lgCmd, 6, 6, true, dLg, (6, 0), by decide⟩,
    ⟨lgInt, 6, dLg, by decide⟩,
    ⟨lgStarted, 6, dLg, by decide⟩,
    ⟨lgTest, 6, dLg, by decide⟩,
    ⟨lgTest, 6, dLg, by decide⟩,
    ⟨lgStarted, 6, dLg, by decide⟩,
    ⟨lgStarted, 6, dLg, by decide⟩⟩

theorem wit_HobReceptionCompletes :
    (∃ (s : State) (p : Fin 192) (f : CanFrame) (d : StationDecl), (canDir f = 1) ∧ (canKind f = 0) ∧ (canCls f ≤ 2) ∧ (s.hobReceives p.val = true) ∧ (f.late = false) ∧ ((((s.countWrap (Reg.hobPRxFramesRxFrames p.val)).hobRxGood p.val).hobPort p.val).rx = []) ∧ (((s.countWrap (Reg.hobPRxFramesRxFrames p.val)).hobRxGood p.val).fldBit Reg.hobStatusSeqUp (p.val / 16) = true) ∧ (((((s.countWrap (Reg.hobPRxFramesRxFrames p.val)).hobRxGood p.val).hobFifo p.val f).setHobPort p.val { (((s.countWrap (Reg.hobPRxFramesRxFrames p.val)).hobRxGood p.val).hobFifo p.val f).hobPort p.val with rx := [] }).hobDefined p.val f = true) ∧ ((((((s.countWrap (Reg.hobPRxFramesRxFrames p.val)).hobRxGood p.val).hobFifo p.val f).setHobPort p.val { (((s.countWrap (Reg.hobPRxFramesRxFrames p.val)).hobRxGood p.val).hobFifo p.val f).hobPort p.val with rx := [] }).hobEpoch p.val f).hobEff p.val ≠ 4) ∧ ((((((s.countWrap (Reg.hobPRxFramesRxFrames p.val)).hobRxGood p.val).hobFifo p.val f).setHobPort p.val { (((s.countWrap (Reg.hobPRxFramesRxFrames p.val)).hobRxGood p.val).hobFifo p.val f).hobPort p.val with rx := [] }).hobEpoch p.val f).bit Reg.hobControlEnable = true) ∧ ((((((s.countWrap (Reg.hobPRxFramesRxFrames p.val)).hobRxGood p.val).hobFifo p.val f).setHobPort p.val { (((s.countWrap (Reg.hobPRxFramesRxFrames p.val)).hobRxGood p.val).hobFifo p.val f).hobPort p.val with rx := [] }).hobEpoch p.val f).hobDecl p.val f = some d) ∧ (f.payload.length = 64) ∧ (field f.payload 62 2 = d.layoutHash % 2 ^ 16) ∧ (field f.payload 6 1 / 16 = max 1 ((d.inCount + 11) / 12)) ∧ (field f.payload 6 1 % 16 < field f.payload 6 1 / 16)) ∧
    (∃ (s : State) (p : Fin 192) (f : CanFrame), (canDir f = 1) ∧ (canKind f = 0) ∧ (canCls f ≤ 2) ∧ (s.hobReceives p.val = true) ∧ (f.late = true)) ∧
    (∃ (s : State) (p : Fin 192) (f : CanFrame) (d : StationDecl), (canDir f = 1) ∧ (canKind f = 1) ∧ (canCls f ≤ 2) ∧ (s.hobReceives p.val = true) ∧ (f.late = false) ∧ ((((s.countWrap (Reg.hobPRxFramesRxFrames p.val)).hobRxGood p.val).hobPort p.val).rx = []) ∧ (((s.countWrap (Reg.hobPRxFramesRxFrames p.val)).hobRxGood p.val).fldBit Reg.hobStatusSeqUp (p.val / 16) = true) ∧ (((((s.countWrap (Reg.hobPRxFramesRxFrames p.val)).hobRxGood p.val).hobFifo p.val f).setHobPort p.val { (((s.countWrap (Reg.hobPRxFramesRxFrames p.val)).hobRxGood p.val).hobFifo p.val f).hobPort p.val with rx := [] }).hobDefined p.val f = true) ∧ ((((((s.countWrap (Reg.hobPRxFramesRxFrames p.val)).hobRxGood p.val).hobFifo p.val f).setHobPort p.val { (((s.countWrap (Reg.hobPRxFramesRxFrames p.val)).hobRxGood p.val).hobFifo p.val f).hobPort p.val with rx := [] }).hobEpoch p.val f).hobEff p.val ≠ 4) ∧ ((((((s.countWrap (Reg.hobPRxFramesRxFrames p.val)).hobRxGood p.val).hobFifo p.val f).setHobPort p.val { (((s.countWrap (Reg.hobPRxFramesRxFrames p.val)).hobRxGood p.val).hobFifo p.val f).hobPort p.val with rx := [] }).hobEpoch p.val f).bit Reg.hobControlEnable = true) ∧ ((((((s.countWrap (Reg.hobPRxFramesRxFrames p.val)).hobRxGood p.val).hobFifo p.val f).setHobPort p.val { (((s.countWrap (Reg.hobPRxFramesRxFrames p.val)).hobRxGood p.val).hobFifo p.val f).hobPort p.val with rx := [] }).hobEpoch p.val f).hobDecl p.val f = some d) ∧ (f.payload.length = 64) ∧ (field f.payload 10 1 = 0)) ∧
    (∃ (s : State) (p : Fin 192) (f : CanFrame) (d : StationDecl), (canDir f = 1) ∧ (canKind f = 2) ∧ (canCls f ≤ 2) ∧ (s.hobReceives p.val = true) ∧ (f.late = false) ∧ ((((s.countWrap (Reg.hobPRxFramesRxFrames p.val)).hobRxGood p.val).hobPort p.val).rx = []) ∧ (((s.countWrap (Reg.hobPRxFramesRxFrames p.val)).hobRxGood p.val).fldBit Reg.hobStatusSeqUp (p.val / 16) = true) ∧ (((((s.countWrap (Reg.hobPRxFramesRxFrames p.val)).hobRxGood p.val).hobFifo p.val f).setHobPort p.val { (((s.countWrap (Reg.hobPRxFramesRxFrames p.val)).hobRxGood p.val).hobFifo p.val f).hobPort p.val with rx := [] }).hobDefined p.val f = true) ∧ ((((((s.countWrap (Reg.hobPRxFramesRxFrames p.val)).hobRxGood p.val).hobFifo p.val f).setHobPort p.val { (((s.countWrap (Reg.hobPRxFramesRxFrames p.val)).hobRxGood p.val).hobFifo p.val f).hobPort p.val with rx := [] }).hobEpoch p.val f).hobEff p.val ≠ 4) ∧ ((((((s.countWrap (Reg.hobPRxFramesRxFrames p.val)).hobRxGood p.val).hobFifo p.val f).setHobPort p.val { (((s.countWrap (Reg.hobPRxFramesRxFrames p.val)).hobRxGood p.val).hobFifo p.val f).hobPort p.val with rx := [] }).hobEpoch p.val f).bit Reg.hobControlEnable = true) ∧ ((((((s.countWrap (Reg.hobPRxFramesRxFrames p.val)).hobRxGood p.val).hobFifo p.val f).setHobPort p.val { (((s.countWrap (Reg.hobPRxFramesRxFrames p.val)).hobRxGood p.val).hobFifo p.val f).hobPort p.val with rx := [] }).hobEpoch p.val f).hobDecl p.val f = some d) ∧ (f.payload.length = 64) ∧ (d.events = true) ∧ ((hobEvents f.payload).any (fun r => decide (d.inCount ≤ r.1)) = false) ∧ ((((((((s.countWrap (Reg.hobPRxFramesRxFrames p.val)).hobRxGood p.val).hobFifo p.val f).setHobPort p.val { (((s.countWrap (Reg.hobPRxFramesRxFrames p.val)).hobRxGood p.val).hobFifo p.val f).hobPort p.val with rx := [] }).hobEpoch p.val f).hobHeard d.num ((s.countWrap (Reg.hobPRxFramesRxFrames p.val)).hobRxGood p.val).now).queueEvents d.num 2 (hobEvents f.payload)).1 = true)) ∧
    (∃ (s : State) (p : Fin 192) (why : Foreign), (s.hobReceives p.val = true) ∧ (((s.countWrap (Reg.hobPRxFramesRxFrames p.val)).hobRxGood p.val).hobEff p.val ≠ 4)) ∧
    (∃ (s : State) (p : Fin 192) (f : CanFrame), (canDir f = 0) ∧ (s.hobReceives p.val = true) ∧ (f.late = false) ∧ ((((s.countWrap (Reg.hobPRxFramesRxFrames p.val)).hobRxGood p.val).hobPort p.val).rx = []) ∧ (((s.countWrap (Reg.hobPRxFramesRxFrames p.val)).hobRxGood p.val).fldBit Reg.hobStatusSeqUp (p.val / 16) = true) ∧ (((((s.countWrap (Reg.hobPRxFramesRxFrames p.val)).hobRxGood p.val).hobFifo p.val f).setHobPort p.val { (((s.countWrap (Reg.hobPRxFramesRxFrames p.val)).hobRxGood p.val).hobFifo p.val f).hobPort p.val with rx := [] }).hobDefined p.val f = true) ∧ ((((((s.countWrap (Reg.hobPRxFramesRxFrames p.val)).hobRxGood p.val).hobFifo p.val f).setHobPort p.val { (((s.countWrap (Reg.hobPRxFramesRxFrames p.val)).hobRxGood p.val).hobFifo p.val f).hobPort p.val with rx := [] }).hobEpoch p.val f).hobEff p.val ≠ 4) ∧ ((((((s.countWrap (Reg.hobPRxFramesRxFrames p.val)).hobRxGood p.val).hobFifo p.val f).setHobPort p.val { (((s.countWrap (Reg.hobPRxFramesRxFrames p.val)).hobRxGood p.val).hobFifo p.val f).hobPort p.val with rx := [] }).hobEpoch p.val f).bit Reg.hobControlEnable = true)) ∧
    (∃ (s : State) (p : Fin 192) (f : CanFrame), (canDir f = 1) ∧ (canCls f = 3) ∧ (canKind f = 0) ∧ (field f.payload 4 1 = 0x14) ∧ (s.hobReceives p.val = true) ∧ (f.late = false) ∧ ((((s.countWrap (Reg.hobPRxFramesRxFrames p.val)).hobRxGood p.val).hobPort p.val).rx = []) ∧ (((s.countWrap (Reg.hobPRxFramesRxFrames p.val)).hobRxGood p.val).fldBit Reg.hobStatusSeqUp (p.val / 16) = true) ∧ (((((s.countWrap (Reg.hobPRxFramesRxFrames p.val)).hobRxGood p.val).hobFifo p.val f).setHobPort p.val { (((s.countWrap (Reg.hobPRxFramesRxFrames p.val)).hobRxGood p.val).hobFifo p.val f).hobPort p.val with rx := [] }).hobDefined p.val f = true) ∧ ((((((s.countWrap (Reg.hobPRxFramesRxFrames p.val)).hobRxGood p.val).hobFifo p.val f).setHobPort p.val { (((s.countWrap (Reg.hobPRxFramesRxFrames p.val)).hobRxGood p.val).hobFifo p.val f).hobPort p.val with rx := [] }).hobEpoch p.val f).hobEff p.val = 4)) ∧
    (∃ (s : State) (p : Fin 192) (f : CanFrame), (canDir f = 1) ∧ (canCls f = 3) ∧ (field f.payload 4 1 = 0x11 ∨ field f.payload 4 1 = 0x12) ∧ (s.hobReceives p.val = true) ∧ (f.late = false) ∧ ((((s.countWrap (Reg.hobPRxFramesRxFrames p.val)).hobRxGood p.val).hobPort p.val).rx = []) ∧ (((s.countWrap (Reg.hobPRxFramesRxFrames p.val)).hobRxGood p.val).fldBit Reg.hobStatusSeqUp (p.val / 16) = true) ∧ (((((s.countWrap (Reg.hobPRxFramesRxFrames p.val)).hobRxGood p.val).hobFifo p.val f).setHobPort p.val { (((s.countWrap (Reg.hobPRxFramesRxFrames p.val)).hobRxGood p.val).hobFifo p.val f).hobPort p.val with rx := [] }).hobDefined p.val f = true) ∧ ((((((s.countWrap (Reg.hobPRxFramesRxFrames p.val)).hobRxGood p.val).hobFifo p.val f).setHobPort p.val { (((s.countWrap (Reg.hobPRxFramesRxFrames p.val)).hobRxGood p.val).hobFifo p.val f).hobPort p.val with rx := [] }).hobEpoch p.val f).hobEff p.val ≠ 4) ∧ ((((((s.countWrap (Reg.hobPRxFramesRxFrames p.val)).hobRxGood p.val).hobFifo p.val f).setHobPort p.val { (((s.countWrap (Reg.hobPRxFramesRxFrames p.val)).hobRxGood p.val).hobFifo p.val f).hobPort p.val with rx := [] }).hobEpoch p.val f).bit Reg.hobControlEnable = true)) :=
  ⟨⟨hobOn, 0, canImage, dHob, by decide⟩,
    ⟨hobOn, 0, canLate, by decide⟩,
    ⟨hobOn, 0, canAck, dHob, by decide⟩,
    ⟨hobOn, 0, canEvent, dHob, by decide⟩,
    ⟨hobOn, 0, .classical, by decide⟩,
    ⟨hobOn, 0, canPeer, by decide⟩,
    ⟨hobQuiet, 0, canWake, by decide⟩,
    ⟨hobAsking, 0, canVote, by decide⟩⟩

theorem wit_HobTransmissionCompletes :
    (∃ (s : State) (p : Fin 192) (b : Nat), ((s.hobPort p.val).onBus = some b)) ∧
    (∃ (s : State) (p : Fin 192) (b : Fin 32), (((s.hobPort p.val).buf b.val).backoff = true)) ∧
    (∃ (s : State) (r : Requester) (p : Fin 192) (v : W32), (s.mayWrite r (0x201 + p.val) = true) ∧ (bitOf v.toNat 5 = true) ∧ (((s.hobPort p.val).buf (v.toNat % 32)).state = 2)) ∧
    (∃ (s : State) (r : Requester) (p : Fin 192) (v : W32), (s.mayWrite r (0x201 + p.val) = true) ∧ (bitOf v.toNat 5 = true) ∧ (((s.hobPort p.val).buf (v.toNat % 32)).state = 1)) ∧
    (∃ (s : State) (p : Fin 192), (s.hobTimeMaster p.val = true)) ∧
    (∃ (s : State) (p : Fin 192) (cycle : Nat) (time : Nat), (s.hobTimeMaster p.val = true) ∧ (s.hobSetTime p.val = some (cycle, time)) ∧ (((s.hobPort p.val).buf 0).state ≠ 1)) ∧
    (∃ (s : State) (p : Fin 192), (((s.hobPort p.val).buf 0).state = 1)) ∧
    (∃ (s : State) (p : Fin 192), (s.hobReceives p.val = true)) ∧
    (∃ (s : State) (p : Fin 192), (s.fld (Reg.hobPStatusErrState p.val) = 2) ∧ (s.bit (Reg.hobPControlAutoRecover p.val) = true) ∧ (s.hobUp = true)) ∧
    (∃ (s : State) (p : Fin 192) (inc : Nat), (s.hobReceives p.val = true) ∧ (((s.setFld (Reg.hobPErrCountRec p.val) (Nat.min 255 (s.fld (Reg.hobPErrCountRec p.val) + inc))).hobErrState p.val).hobEff p.val ≠ 4)) :=
  ⟨⟨hobSending, 0, 2, by decide⟩,
    ⟨hobBackoff, 0, 2, by decide⟩,
    ⟨hobSending, .tenderSecure, 0, 0x22, by decide⟩,
    ⟨hobBackoff, .tenderSecure, 0, 0x22, by decide⟩,
    ⟨hobMaster, 0, by decide⟩,
    ⟨hobMaster, 0, 0, 0, by decide⟩,
    ⟨hobRef, 0, by decide⟩,
    ⟨hobOn, 0, by decide⟩,
    ⟨hobIsOff, 0, by decide⟩,
    ⟨hobOn, 0, 1, by decide⟩⟩

theorem wit_HobModesAndSleepComplete :
    (∃ (s : State) (r : Requester) (p : Fin 192) (v : W32), (s.mayWrite r (0x201 + p.val) = true)) ∧
    (∃ (s : State) (p : Fin 192) (m : Nat), ((s.hobPort p.val).modeReq = some m) ∧ ((s.hobPort p.val).onBus = none) ∧ (s.hobRestarting p.val = false)) ∧
    (∃ (s : State) (r : Requester) (p : Fin 192), (s.mayWrite r (0x201 + p.val) = true) ∧ (s.drives = true) ∧ (s.hobEff p.val = 1) ∧ (s.bit (Reg.hobPControlSleepOk p.val) = true)) ∧
    (∃ (s : State) (p : Fin 192), ((s.hobPort p.val).asking = true) ∧ (s.hobEff p.val = 3) ∧ (s.hobAllYes p.val = true)) ∧
    (∃ (s : State) (p : Fin 192), ((s.hobPort p.val).asking = true) ∧ (s.hobEff p.val = 3) ∧ (s.hobAllYes p.val = false)) ∧
    (∃ (s : State) (p : Fin 192), (s.hobEff p.val = 4)) ∧
    (∃ (s : State) (r : Requester) (p : Fin 192), (s.mayWrite r (0x201 + p.val) = true) ∧ (s.hobEff p.val = 5)) ∧
    (∃ (s : State) (p : Fin 192), (s.fldBit Reg.hobGroupStandbyStandby (p.val / 8) = false) ∧ (s.hobEff p.val = 5)) ∧
    (∃ (s : State) (p : Fin 192), (s.hobRestarting p.val = true)) ∧
    (∃ (s : State) (g : Fin 24), (s.mode = 4)) ∧
    (∃ (s : State) (g : Fin 24), (s.mode ≠ 4) ∧ (s.kindling ≠ .resume) ∧ (s.hobUp = true) ∧ (s.fldBit Reg.hobGroupStandbyStandby g.val = true)) :=
  ⟨⟨hobOn, .tenderSecure, 0, 0, by decide⟩,
    ⟨hobWants, 0, 2, by decide⟩,
    ⟨hobSleepy, .tenderSecure, 0, by decide⟩,
    ⟨hobAsking, 0, by decide⟩,
    ⟨hobRefusing, 0, by decide⟩,
    ⟨hobQuiet, 0, by decide⟩,
    ⟨hobAsleep, .tenderSecure, 0, by decide⟩,
    ⟨hobAsleep, 0, by decide⟩,
    ⟨hobRestart, 0, by decide⟩,
    ⟨hobBanked, 0, by decide⟩,
    ⟨hobGroup0, 0, by decide⟩⟩

theorem wit_ErairLinkCommandsComplete :
    (∃ (s : State), (s.role ≠ 0) ∧ (s.bit Reg.fgdStatusExpired = false)) ∧
    (∃ (s : State) (payload : List W36), (s.erairOn = true) ∧ (((((s.noteHeartbeat (heartbeatOf payload)).noteClash (heartbeatOf payload)).heartbeatEpochs (heartbeatOf payload)).heartbeatRole s.erair.partner (heartbeatOf payload)).bit Reg.eraControlAutoSync = false)) ∧
    (∃ (s : State) (payload : List W36), (s.erairOn = true) ∧ (((((s.noteHeartbeat (heartbeatOf payload)).noteClash (heartbeatOf payload)).heartbeatEpochs (heartbeatOf payload)).heartbeatRole s.erair.partner (heartbeatOf payload)).bit Reg.eraControlAutoSync = true)) ∧
    (∃ (s : State), (s.erair.up = true) ∧ (((((({ s with erair := { s.erair with up := false, cells := [] } } : State).setFields [(Reg.eraStatusPartner, 0), (Reg.eraStatusTimeOk, 0)]).count Reg.eraCountersLinkLosses).raise Reg.eraEventLinkLost).record 0x016 0x02 true [(((({ s with erair := { s.erair with up := false, cells := [] } } : State).setFields [(Reg.eraStatusPartner, 0), (Reg.eraStatusTimeOk, 0)]).count Reg.eraCountersLinkLosses).raise Reg.eraEventLinkLost).erair.lastHb]).role = 4) ∧ (((((({ s with erair := { s.erair with up := false, cells := [] } } : State).setFields [(Reg.eraStatusPartner, 0), (Reg.eraStatusTimeOk, 0)]).count Reg.eraCountersLinkLosses).raise Reg.eraEventLinkLost).record 0x016 0x02 true [(((({ s with erair := { s.erair with up := false, cells := [] } } : State).setFields [(Reg.eraStatusPartner, 0), (Reg.eraStatusTimeOk, 0)]).count Reg.eraCountersLinkLosses).raise Reg.eraEventLinkLost).erair.lastHb]).lineOn = true ∨ ((((({ s with erair := { s.erair with up := false, cells := [] } } : State).setFields [(Reg.eraStatusPartner, 0), (Reg.eraStatusTimeOk, 0)]).count Reg.eraCountersLinkLosses).raise Reg.eraEventLinkLost).record 0x016 0x02 true [(((({ s with erair := { s.erair with up := false, cells := [] } } : State).setFields [(Reg.eraStatusPartner, 0), (Reg.eraStatusTimeOk, 0)]).count Reg.eraCountersLinkLosses).raise Reg.eraEventLinkLost).erair.lastHb]).witnessOn = true)) ∧
    (∃ (s : State), (s.erair.up = true) ∧ (((((({ s with erair := { s.erair with up := false, cells := [] } } : State).setFields [(Reg.eraStatusPartner, 0), (Reg.eraStatusTimeOk, 0)]).count Reg.eraCountersLinkLosses).raise Reg.eraEventLinkLost).record 0x016 0x02 true [(((({ s with erair := { s.erair with up := false, cells := [] } } : State).setFields [(Reg.eraStatusPartner, 0), (Reg.eraStatusTimeOk, 0)]).count Reg.eraCountersLinkLosses).raise Reg.eraEventLinkLost).erair.lastHb]).role ≠ 4)) ∧
    (∃ (s : State) (roundTripNs : Nat) (partnerTime : Nat), (s.bit Reg.eraControlEnable = true) ∧ (s.compUp 5 = true) ∧ (s.domainOn 21 = true) ∧ (s.hostUp = true) ∧ (s.fld Reg.eraStatusLanes = 0)) ∧
    (∃ (s : State) (lanes : BitVec 4), (s.fit.chimney = true) ∧ (lanes = 0xF)) ∧
    (∃ (s : State) (lanes : BitVec 4), (s.fit.chimney = true) ∧ (maskCount lanes.toNat = 1 ∨ maskCount lanes.toNat = 2)) ∧
    (∃ (s : State) (l : Fin 4) (cell : List W36), (s.fit.chimney = true) ∧ (cellKept cell = false)) ∧
    (∃ (s : State) (words : List W36) (rec : CycleRecord), (s.erairOn = true) ∧ (recordIntact words = true) ∧ (recordOf words = some rec)) ∧
    (∃ (s : State) (words : List W36), (s.erairOn = true) ∧ (recordIntact words = false) ∧ (s.role = 3 ∨ s.role = 4)) ∧
    (∃ (s : State) (k : Fin 3) (cycle : W32) (applied : Bool) (o : Outstanding), (s.findOutstanding k.val cycle.toNat = some o) ∧ (applied = true)) ∧
    (∃ (s : State) (k : Fin 3) (cycle : W32) (applied : Bool) (o : Outstanding), (s.findOutstanding k.val cycle.toNat = some o) ∧ (applied = false)) ∧
    (∃ (s : State) (k : Fin 3) (cycle : W32) (o : Outstanding), (s.findOutstanding k.val cycle.toNat = some o)) ∧
    (∃ (s : State) (k : Fin 3), (s.outstandingOf k.val ≠ 0)) ∧
    (∃ (s : State), (s.bit Reg.eraStatusTimeOk = false)) :=
  ⟨⟨pairPrimary, by decide⟩,
    ⟨pairManual, heartbeatWords hb0, by decide⟩,
    ⟨pairAuto, heartbeatWords hb0, by decide⟩,
    ⟨pairStandby, by decide⟩,
    ⟨pairUp, by decide⟩,
    ⟨pairDown, 0, 0, by decide⟩,
    ⟨pairUp, 0xF, by decide⟩,
    ⟨pairUp, 0x6, by decide⟩,
    ⟨pairUp, 0, [], by decide⟩,
    ⟨pairUp, recordWords rec0, rec0, by decide⟩,
    ⟨pairStandby, [], by decide⟩,
    ⟨pairSent, 0, 0, true, out0, by decide⟩,
    ⟨pairSent, 0, 0, false, out0, by decide⟩,
    ⟨pairSent, 0, 0, out0, by decide⟩,
    ⟨pairSent, 0, by decide⟩,
    ⟨pairUp, by decide⟩⟩

theorem wit_PairSynchronisationCompletes :
    (∃ (s : State) (r : Requester), (s.mayWrite r 0x016 = true) ∧ (s.role = 2)) ∧
    (∃ (s : State) (r : Requester), (s.mayWrite r 0x016 = true)) ∧
    (∃ (s : State) (m : VersionMsg), (s.erairOn = true) ∧ ((({ s with erair := { s.erair with versions := some m } } : State).tellVersions).checkSync m = none)) ∧
    (∃ (s : State) (m : VersionMsg) (reason : Nat), (s.erairOn = true) ∧ ((({ s with erair := { s.erair with versions := some m } } : State).tellVersions).syncRoles = true) ∧ ((({ s with erair := { s.erair with versions := some m } } : State).tellVersions).syncRefusal m = some reason)) ∧
    (∃ (s : State) (m : VersionMsg), (s.erair.versions = some m) ∧ (s.erairOn = true) ∧ (s.erair.clash = false) ∧ (s.syncRoles = true) ∧ (s.syncWanted m = true) ∧ (s.syncRefusal m = none)) ∧
    (∃ (s : State) (granule : Nat) (current : List W36) (previous : List W36), (s.role = 3) ∧ (s.erairOn = true) ∧ (granule < 294912)) ∧
    (∃ (s : State) (granule : Nat) (current : List W36) (previous : List W36), (s.role = 4) ∧ (s.erairOn = true) ∧ (granule < 294912)) ∧
    (∃ (s : State) (x : SyncStates), (s.copyDone = true) ∧ (s.role = 6)) ∧
    (∃ (s : State) (x : SyncStates), (s.copyDone = true) ∧ (s.role = 3)) ∧
    (∃ (s : State), (s.role = 1) ∧ (s.erair.clash = false)) ∧
    (∃ (s : State), (s.mayTakeOver = true)) ∧
    (∃ (s : State) (cycles : List W32), (s.role = 4) ∧ (s.erair.clash = false)) ∧
    (∃ (s : State) (r : Requester), (s.mayWrite r 0x016 = true) ∧ (s.role = 7) ∧ (s.erair.swap = none) ∧ (s.nextBoundary s.shortestClass (s.now + 1000000) ≤ s.now + 1000000000)) ∧
    (∃ (s : State) (w : Swap), (s.erair.swap = some w) ∧ (w.phase = 1) ∧ (w.point ≤ s.now) ∧ (s.now < w.point + Config.tickNs) ∧ (s.othersFinished w.cls = true)) ∧
    (∃ (s : State) (w : Swap), (s.erair.swap = some w) ∧ (w.phase = 1) ∧ (w.point + Config.tickNs ≤ s.now) ∧ (w.latest < s.nextBoundary w.cls (s.now + 1))) ∧
    (∃ (s : State) (w : Swap), (s.erair.swap = some w) ∧ (w.phase = 2) ∧ (s.claimant = true) ∧ (s.outputsLeft = true ∨ w.point + s.periodUs w.cls * 500 ≤ s.now)) :=
  ⟨⟨pairUp2, .tenderSecure, by decide⟩,
    ⟨pairUp2, .tenderSecure, by decide⟩,
    ⟨pairSync, ver0, by decide⟩,
    ⟨pairUp, ver0, 1, by decide⟩,
    ⟨pairSync, ver0, by decide⟩,
    ⟨pairCopying, 0, [], [], by decide⟩,
    ⟨pairStandby, 0, [], [], by decide⟩,
    ⟨pairSyncing, states0, by decide⟩,
    ⟨pairCopied, states0, by decide⟩,
    ⟨pairListen, by decide⟩,
    ⟨pairTake, by decide⟩,
    ⟨pairTake, [], by decide⟩,
    ⟨pairSynced, .tenderSecure, by decide⟩,
    ⟨pairSwap, ⟨1, 0, 0, 0⟩, by decide⟩,
    ⟨pairSwapBusy, ⟨1, 0, 0, 0⟩, by decide⟩,
    ⟨pairSwap2, ⟨2, 0, 0, 0⟩, by decide⟩⟩

theorem wit_PartnerEvidenceCommandsComplete :
    (∃ (s : State), (s.role ≠ 0) ∧ (s.bit Reg.fgdStatusExpired = false) ∧ (s.pins.aliveNs + s.aliveInterval ≤ s.bellows.ns)) ∧
    (∃ (s : State) (intervalUs : Nat), (s.bit Reg.grtPairPartnerEn = true) ∧ (s.erair.confirming = false) ∧ (((edgePattern intervalUs :: s.erair.edges).take 3) = [2, 2, 2])) ∧
    (∃ (s : State), (s.bit Reg.grtPairPartnerEn = true)) ∧
    (∃ (s : State), (s.erair.up = false) ∧ (s.witnessOn = true) ∧ (s.claimant = true ∨ s.role = 4)) ∧
    (∃ (s : State) (dg : Datagram) (bs : List Byte), (s.chmPortUp dg.port.val = true) ∧ (s.vlanTakes dg.port.val dg.vlan = true) ∧ (dg.size ≤ s.mtu dg.port.val) ∧ (s.hasRole dg.port.val .witness = true) ∧ (dg.udpPort.toNat = s.fld Reg.eraWitnessPortPort) ∧ ((s.countWrap (Reg.chmXRxFramesRxFrames dg.port.val)).witnessGood 1 bs = true)) ∧
    (∃ (s : State) (dg : Datagram) (bs : List Byte), (s.chmPortUp dg.port.val = true) ∧ (s.vlanTakes dg.port.val dg.vlan = true) ∧ (dg.size ≤ s.mtu dg.port.val) ∧ (s.hasRole dg.port.val .witness = true) ∧ (dg.udpPort.toNat = s.fld Reg.eraWitnessPortPort) ∧ ((s.countWrap (Reg.chmXRxFramesRxFrames dg.port.val)).witnessGood 2 bs = true) ∧ (¬5 ≤ witnessRole bs)) ∧
    (∃ (s : State) (dg : Datagram) (bs : List Byte), (s.chmPortUp dg.port.val = true) ∧ (s.vlanTakes dg.port.val dg.vlan = true) ∧ (dg.size ≤ s.mtu dg.port.val) ∧ (s.hasRole dg.port.val .witness = true) ∧ (dg.udpPort.toNat = s.fld Reg.eraWitnessPortPort) ∧ ((s.countWrap (Reg.chmXRxFramesRxFrames dg.port.val)).witnessGood 2 bs = true) ∧ (5 ≤ witnessRole bs)) ∧
    (∃ (s : State) (dg : Datagram) (bs : List Byte), (s.chmPortUp dg.port.val = true) ∧ (s.vlanTakes dg.port.val dg.vlan = true) ∧ (dg.size ≤ s.mtu dg.port.val) ∧ (s.hasRole dg.port.val .witness = true) ∧ (dg.udpPort.toNat = s.fld Reg.eraWitnessPortPort) ∧ ((s.countWrap (Reg.chmXRxFramesRxFrames dg.port.val)).witnessGood 3 bs = true)) ∧
    (∃ (s : State), (s.erair.confirming = true) ∧ (s.witnessOn = true) ∧ (3 ≤ s.erair.probes) ∧ (s.erair.witResult = 0)) ∧
    (∃ (s : State), (s.claimant = true) ∧ (0 < s.erair.notices)) :=
  ⟨⟨pairPrimary, by decide⟩,
    ⟨pairEdges, 100, by decide⟩,
    ⟨pairEdges, by decide⟩,
    ⟨pairWitness, by decide⟩,
    ⟨pairWitness, dgWit, witnessBytes 1 0, by decide, by decide, by decide, by decide, by decide, witness_good_1⟩,
    ⟨pairWitness, dgWit, witnessBytes 2 0, by decide, by decide, by decide, by decide, by decide, witness_good_2, by decide⟩,
    ⟨pairWitness, dgWit, witnessBytes 2 5, by decide, by decide, by decide, by decide, by decide, witness_good_25, by decide⟩,
    ⟨pairWitness, dgWit, witnessBytes 3 0, by decide, by decide, by decide, by decide, by decide, witness_good_3⟩,
    ⟨pairConfirm, by decide⟩,
    ⟨pairNotices, by decide⟩⟩

theorem wit_TurnspitCommandsComplete :
    (∃ (s : State) (port : Fin 232), (s.turnspitOn = true)) ∧
    (∃ (s : State) (r : Requester) (d : Fin 2) (hi : W32), (s.mayWrite r 0x018 = true) ∧ (s.turnspitOn = true) ∧ (s.compUp 4 = true)) ∧
    (∃ (s : State) (r : Requester) (d : Fin 2) (hi : W32), (s.mayWrite r 0x018 = true) ∧ (s.turnspitOn = true)) ∧
    (∃ (s : State) (r : Requester) (v : W32), (s.mayWrite r 0x018 = true) ∧ (s.turnspitOn = true)) ∧
    (∃ (s : State) (d : Fin 2), (s.turnspitOn = true) ∧ (s.compUp 4 = true) ∧ (s.fld (tspStateFld d.val) = 1)) ∧
    (∃ (s : State), (s.turnspitOn = true) ∧ (s.turnspit.offset.natAbs ≤ s.fld Reg.tspBleedBleed)) ∧
    (∃ (s : State) (r : Requester), (s.mayRead r 0x018 = true) ∧ (s.turnspitOn = true)) ∧
    (∃ (s : State) (r : Requester) (d : Fin 2), (s.mayRead r 0x018 = true) ∧ (s.turnspitOn = true)) ∧
    (∃ (s : State) (x : Fin 40) (m : PtpMessage), (s.chmPortUp x.val = true) ∧ (m.sent = false) ∧ (s.bit (Reg.chmXControlPtp x.val) = true) ∧ (s.turnspitOn = true) ∧ (s.vlanTakes x.val m.vlan = true)) ∧
    (∃ (s : State) (x : Fin 40) (m : PtpMessage), (s.chmPortUp x.val = true) ∧ (m.sent = true) ∧ (s.bit (Reg.chmXControlPtp x.val) = true) ∧ (s.turnspitOn = true) ∧ (s.vlanTakes x.val m.vlan = true)) ∧
    (∃ (s : State) (x : Fin 40) (m : PtpMessage), (s.chmPortUp x.val = true) ∧ (m.sent = false) ∧ (s.vlanTakes x.val m.vlan = false)) :=
  ⟨⟨tspUp, 0, by decide⟩,
    ⟨tspUp, .tenderSecure, 0, 0, by decide⟩,
    ⟨tspUp, .tenderSecure, 0, 0, by decide⟩,
    ⟨tspUp, .tenderSecure, 0, by decide⟩,
    ⟨tspTracking, 0, by decide⟩,
    ⟨tspUp, by decide⟩,
    ⟨tspUp, .tenderSecure, by decide⟩,
    ⟨tspUp, .tenderSecure, 0, by decide⟩,
    ⟨tspPtp, 0, ptp0, by decide⟩,
    ⟨tspPtp, 0, { ptp0 with sent := true }, by decide⟩,
    ⟨tspPtp, 0, { ptp0 with vlan := some 9 }, by decide⟩⟩

theorem wit_GrateCommandsComplete :
    (∃ (s : State) (r : Requester) (n : Fin 16) (v : W32), (s.mayWrite r 0x019 = true) ∧ (s.isAliveOut n.val = false) ∧ (s.isPartnerAlive n.val = false) ∧ ((s.channel n.val).declared = false) ∧ (configGood v = true)) ∧
    (∃ (s : State) (r : Requester) (v : W32), (s.mayWrite r 0x019 = true) ∧ (Sparse.get s.rwlSet false pairLockKey = false) ∧ (s.pairGood v = true)) ∧
    (∃ (s : State) (n : Fin 16) (on : Bool), (s.fit.grate = true) ∧ (s.mainUp = true) ∧ (s.bit Reg.grtControlEnable = true ∨ s.isPartnerAlive n.val = true) ∧ (s.fld (Reg.grtGConfigMode n.val) = 1 ∨ s.fld (Reg.grtGConfigMode n.val) = 2)) ∧
    (∃ (s : State) (n : Fin 16), (s.fldBit Reg.grtOutStateOutState n.val = true)) ∧
    (∃ (s : State) (n : Fin 16), (s.fldBit Reg.grtFaultFault n.val = true) ∧ ((s.channel n.val).cmd = true)) ∧
    (∃ (s : State) (n : Fin 16), ((s.channel n.val).retry = true) ∧ (s.fldBit Reg.grtOutStateOutState n.val = true)) ∧
    (∃ (s : State) (mv : Nat), (s.fit.grate = true) ∧ (supplyState (s.fld Reg.grtStatusSupplyA) mv ≠ s.fld Reg.grtStatusSupplyA)) ∧
    (∃ (s : State) (mv : Nat), (s.fit.grate = true) ∧ (supplyState (s.fld Reg.grtStatusSupplyA) mv = s.fld Reg.grtStatusSupplyA)) :=
  ⟨⟨grateOn, .tenderSecure, 0, 0, by decide⟩,
    ⟨grateOn, .tenderSecure, 0, by decide⟩,
    ⟨grateIn, 0, true, by decide⟩,
    ⟨grateOut, 0, by decide⟩,
    ⟨grateFault, 0, by decide⟩,
    ⟨grateRetrying, 0, by decide⟩,
    ⟨grateOn, 24000, by decide⟩,
    ⟨grateOn, 5000, by decide⟩⟩

theorem wit_MantelAndAshpitCommandsComplete :
    (∃ (s : State) (found : Ecc) (p : Nat) (part : Partition), (s.mayWrite .tenderSecure 0x005 = true) ∧ (s.mantel.op = none) ∧ (s.fld Reg.mntLenLen ≠ 0) ∧ (s.fld Reg.mntLenLen ≤ 4096) ∧ (partitionOf (s.fld Reg.mntAddrAddr) (s.fld Reg.mntLenLen) = some (p, part)) ∧ (s.bufOk true (s.mantelCommand 1 true (eccCode found)).buf (s.fld Reg.mntAddrAddr) (s.fld Reg.mntLenLen) = true) ∧ (s.bankBusy (bankOf (s.fld Reg.mntAddrAddr)) = false)) ∧
    (∃ (s : State) (p : Nat) (part : Partition), (s.mayWrite .tenderSecure 0x005 = true) ∧ (s.mantel.op = none) ∧ (s.fld Reg.mntLenLen ≠ 0) ∧ (partitionOf (s.fld Reg.mntAddrAddr) (s.fld Reg.mntLenLen) = some (p, part)) ∧ (part.staged = true) ∧ (s.bufOk true (s.mantelCommand 2 true 0).buf (s.fld Reg.mntAddrAddr) (s.fld Reg.mntLenLen) = true) ∧ ((s.commitBuf p).bytes = []) ∧ ((s.fld Reg.mntAddrAddr + s.fld Reg.mntLenLen - 1) / 0x10000 = s.fld Reg.mntAddrAddr / 0x10000)) ∧
    (∃ (s : State) (p : Nat) (part : Partition), (s.mayWrite .tenderSecure 0x005 = true) ∧ (s.mantel.op = none) ∧ (partitionOf (s.fld Reg.mntAddrAddr) 1 = some (p, part)) ∧ (part.staged = true) ∧ ((s.commitBuf p).bytes ≠ []) ∧ ((s.commitBuf p).pages.all s.pageErased = true)) ∧
    (∃ (s : State) (p : Nat) (part : Partition), (s.mayWrite .tenderSecure 0x005 = true) ∧ (s.mantel.op = none) ∧ (partitionOf (s.fld Reg.mntAddrAddr) 1 = some (p, part)) ∧ (part.staged = true) ∧ ((s.commitBuf p).bytes ≠ [])) ∧
    (∃ (s : State) (p : Nat) (part : Partition), (s.mayWrite .tenderSecure 0x005 = true) ∧ (s.mantel.op = none) ∧ (partitionOf (s.fld Reg.mntAddrAddr) 1 = some (p, part)) ∧ (part.staged = true)) ∧
    (∃ (s : State), (s.mayWrite .tenderSecure 0x005 = true) ∧ (s.mantel.op = none) ∧ (8 ≤ s.fld Reg.mntLenLen) ∧ (s.fld Reg.mntLenLen ≤ 4080) ∧ (s.fld Reg.mntLenLen % 8 = 0) ∧ (s.bufOk true (s.mantelCommand 7 true 0).buf paramBase (s.fld Reg.mntLenLen) = true)) ∧
    (∃ (s : State), (s.mayWrite .tenderSecure 0x005 = true) ∧ (s.mantel.op = none) ∧ (s.bit Reg.hrtStatusCaptureValid = true) ∧ (s.freeSlot.isNone = false)) ∧
    (∃ (s : State) (o : MantelOp), ((s.mantelStart).opRunning = some o)) ∧
    (∃ (s : State) (o : MantelOp) (rest : List MantelOp), ((s.mantelStart).opRunning = none) ∧ ((s.mantelStart).devRunning = some (o, rest))) ∧
    (∃ (s : State) (block : Fin 2048), ((s.mantelStart).mayErase block.val = true) ∧ (inLog block.val = false)) ∧
    (∃ (s : State) (block : Fin 2048), ((s.mantelStart).mayErase block.val = true) ∧ (inLog block.val = true)) ∧
    (∃ (s : State) (c : PrivCommit), ((s.mantelStart).privRunning = some c)) ∧
    (∃ (s : State) (r : Requester), (s.mayWrite r 0x006 = true) ∧ (s.fld Reg.ashFillFill ≠ 0)) ∧
    (∃ (s : State) (r : Requester), (s.mayWrite r 0x006 = true) ∧ (s.fld Reg.ashFillFill = 0)) ∧
    (∃ (s : State), ((s.mantelStart).holder 7 = 3)) ∧
    (∃ (s : State), (s.mayWrite .tenderSecure 0x006 = true)) ∧
    (∃ (s : State), ((s.mantelStart).clearEnds = true)) :=
  ⟨⟨mntRead, .clean, 1, part1, by decide⟩,
    ⟨mntStage, 11, part11, by decide⟩,
    ⟨mntStaged, 11, part11, by decide⟩,
    ⟨mntStaged, 11, part11, by decide⟩,
    ⟨mntStaged, 11, part11, by decide⟩,
    ⟨mntParam, by decide⟩,
    ⟨mntRetain, by decide⟩,
    ⟨mntErasing, erase0, by decide⟩,
    ⟨mntDev, mntDevOp, [], by decide⟩,
    ⟨mntBackground, 5, by decide⟩,
    ⟨ashClearing, 0x700, by decide⟩,
    ⟨mntPriv, priv0, by decide⟩,
    ⟨ashFilled, .tenderSecure, by decide⟩,
    ⟨ashEmpty, .tenderSecure, by decide⟩,
    ⟨ashFlushing, by decide⟩,
    ⟨held, by decide⟩,
    ⟨ashClearing, by decide⟩⟩

theorem wit_ModeCommandsComplete :
    (∃ (s : State) (r : Requester), (s.mayWrite r 0x001 = true) ∧ (s.bit Reg.pwrStatusTransition = false) ∧ (s.mode = 2 ∨ s.mode = 3) ∧ (([0, 1, 2].all fun k => (s.cls k).finished) = true)) ∧
    (∃ (s : State) (r : Requester), (s.mayWrite r 0x001 = true) ∧ (s.bit Reg.pwrStatusTransition = false) ∧ (s.mode = 2 ∨ s.mode = 3) ∧ (([0, 1, 2].all fun k => (s.cls k).finished) = false)) ∧
    (∃ (s : State) (r : Requester) (p : Program), (s.mayWrite r 0x001 = true) ∧ (s.bit Reg.pwrStatusTransition = false) ∧ (s.mode = 5) ∧ (s.engineHalted = false) ∧ (s.bellows.active = some p) ∧ ((s.shortfallOf p).any id = false) ∧ (s.started = true)) ∧
    (∃ (s : State) (r : Requester) (p : Program) (t : State), (s.mayWrite r 0x001 = true) ∧ (s.bit Reg.pwrStatusTransition = false) ∧ (s.mode = 5) ∧ (s.engineHalted = false) ∧ (s.bellows.active = some p) ∧ ((s.shortfallOf p).any id = false) ∧ (s.started = false) ∧ ((s.noteShort (s.shortfallOf p)).startProgram = some t)) ∧
    (∃ (s : State) (r : Requester), (s.mayWrite r 0x001 = true) ∧ (s.bit Reg.pwrStatusTransition = false) ∧ (1 ≤ s.mode) ∧ (s.mode ≤ 7)) ∧
    (∃ (s : State) (r : Requester), (s.mayWrite r 0x001 = true) ∧ (s.bit Reg.pwrStatusTransition = false) ∧ (s.mode = 3 ∨ s.mode = 5) ∧ (s.engineHalted = false)) ∧
    (∃ (s : State) (r : Requester), (s.mayWrite r 0x001 = true) ∧ (s.bit Reg.pwrStatusTransition = false) ∧ (s.mode = 4) ∧ (s.fld Reg.pwrStatusBankStage = 1)) ∧
    (∃ (s : State) (r : Requester), (s.mayWrite r 0x001 = true) ∧ (s.bit Reg.pwrStatusTransition = false) ∧ (s.mode = 2 ∨ s.mode = 3 ∨ s.mode = 5) ∧ (s.engineHalted = false)) ∧
    (∃ (s : State), (s.mode = 4) ∧ (s.fld Reg.pwrStatusBankStage = 1) ∧ (s.fld Reg.pwrBankDeepMs ≠ 0)) ∧
    (∃ (s : State) (f : SweepFind) (k : Raking), (s.raking = some k) ∧ (k.phase = 3) ∧ (s.mantel.dev = [])) ∧
    (∃ (s : State) (f : KindlingFind), (s.mayKindle = true)) ∧
    (∃ (s : State), (s.mode = 1) ∧ (s.kindling ≠ .none)) :=
  ⟨⟨primary, .tenderSecure, by decide⟩,
    ⟨running, .tenderSecure, by decide⟩,
    ⟨heldProg, .tenderSecure, prog0, by decide⟩,
    ⟨heldProg2, .tenderSecure, prog0, (heldProg2.noteShort (heldProg2.shortfallOf prog0)).startProgram.get (by rfl), by decide, by decide, by decide, by decide, by decide, by decide, by decide, (Option.some_get _).symm⟩,
    ⟨held, .tenderSecure, by decide⟩,
    ⟨held, .tenderSecure, by decide⟩,
    ⟨banked, .tenderSecure, by decide⟩,
    ⟨held, .tenderSecure, by decide⟩,
    ⟨banked, by decide⟩,
    ⟨raking3, sweepNone, ⟨false, 3, false⟩, by decide⟩,
    ⟨coldStart, find0, by decide⟩,
    ⟨kindled, by decide⟩⟩

theorem wit_PowerDomainCommandsComplete :
    (∃ (s : State) (n : Fin 24) (v : W32), (s.mayWrite .tenderSecure 0x001 = true) ∧ (bitsOf v.toNat 0 2 = 0) ∧ (n.val < 22)) ∧
    (∃ (s : State) (n : Fin 24) (v : W32), (s.mayWrite .tenderSecure 0x001 = true) ∧ (bitsOf v.toNat 0 2 = 1 ∨ bitsOf v.toNat 0 2 = 2) ∧ (n.val < 22) ∧ (s.domainBusy n.val = false) ∧ (s.domainMode n.val = false)) ∧
    (∃ (s : State) (n : Fin 24) (own : Bool), (s.mayWrite .tenderSecure 0x001 = true)) ∧
    (∃ (s : State) (n : Fin 24), (s.fld (Reg.pwrPdControlState n.val) = 3) ∧ (s.fld (Reg.pwrPdControlReq n.val) = 0)) ∧
    (∃ (s : State) (n : Fin 24), (s.fld (Reg.pwrPdControlState n.val) = 3) ∧ (s.fld (Reg.pwrPdControlReq n.val) = 2)) :=
  ⟨⟨pdCut, 3, 0, by decide⟩,
    ⟨held, 3, 2, by decide⟩,
    ⟨held, 3, true, by decide⟩,
    ⟨pdSwitching, 3, by decide⟩,
    ⟨pdSwitching2, 3, by decide⟩⟩

theorem wit_SupplyResetAndWakeEventsComplete :
    (∃ (s : State), (s.pins.mainValid = true)) ∧
    (∃ (s : State), (s.pins.mainValid = false) ∧ (s.pins.resetN = true)) ∧
    (∃ (s : State), (s.mode ≠ 0)) ∧
    (∃ (s : State), (s.mode ≠ 0) ∧ (s.pins.refclkOk = true)) ∧
    (∃ (s : State), (s.pins.refclkOk = false)) ∧
    (∃ (s : State), (s.bit Reg.fgdStatusExpired = true)) ∧
    (∃ (s : State), ((s.wake 1 true).bit Reg.embControlWakePwron = false)) ∧
    (∃ (s : State), (s.pins.perstN = false)) ∧
    (∃ (s : State), (s.mainUp = true) ∧ (((s.setFld Reg.pwrStatusPf 1).raise Reg.pwrEventPowerFail).mantel.pf = 0)) ∧
    (∃ (s : State), (s.mainUp = true)) ∧
    (∃ (s : State), (s.bit Reg.pwrStatusPf = true)) ∧
    (∃ (s : State), (s.mantel.pf = 2) ∧ (s.pfCommitted = true)) :=
  ⟨⟨held, by decide⟩,
    ⟨emberOnly, by decide⟩,
    ⟨held, by decide⟩,
    ⟨held, by decide⟩,
    ⟨noClock, by decide⟩,
    ⟨expired, by decide⟩,
    ⟨noPwron, by decide⟩,
    ⟨perstLow, by decide⟩,
    ⟨held, by decide⟩,
    ⟨held, by decide⟩,
    ⟨failing, by decide⟩,
    ⟨pfDone, by decide⟩⟩

theorem wit_EmberCommandsComplete :
    (∃ (s : State) (r : Requester) (v : W32), (s.mayWrite r 0x003 = true) ∧ (s.ember.locked = false)) ∧
    (∃ (s : State) (r : Requester) (hi : W32), (s.mayWrite r 0x003 = true) ∧ (s.ember.locked = false) ∧ (s.bit Reg.embStatusHalted = true)) ∧
    (∃ (s : State) (r : Requester) (hi : W32), (s.mayWrite r 0x003 = true) ∧ (s.ember.locked = false)) ∧
    (∃ (s : State), (s.ember.matched = true)) ∧
    (∃ (s : State), (s.pins.mainValid = false)) ∧
    (∃ (s : State) (mv : Nat), (s.pins.mainValid = true)) ∧
    (∃ (s : State), (s.pins.mainValid = true)) :=
  ⟨⟨emb, .tenderSecure, 1, by decide⟩,
    ⟨embHalted, .tenderSecure, 1, by decide⟩,
    ⟨emb, .tenderSecure, 1, by decide⟩,
    ⟨embAlarm, by decide⟩,
    ⟨emberOnly, by decide⟩,
    ⟨emb, 3000, by decide⟩,
    ⟨emb, by decide⟩⟩

theorem wit_GuardAndSweepCommandsComplete :
    (∃ (s : State) (r : Requester) (v : W32), (s.mayWrite r 0x002 = true) ∧ (s.bit Reg.fgdStatusSysOn = false) ∧ (bitsOf v.toNat 16 16 ≠ 0) ∧ (bitsOf v.toNat 0 16 < bitsOf v.toNat 16 16)) ∧
    (∃ (s : State) (r : Requester) (k : Fin 3) (v : W32), (s.mayWrite r 0x002 = true) ∧ (s.fldBit Reg.fgdStatusClOn k.val = false) ∧ (2 ≤ bitsOf v.toNat 4 8)) ∧
    (∃ (s : State) (r : Requester) (v : W32), (s.mayWrite r 0x002 = true) ∧ (s.bit Reg.fgdStatusSysOn = true) ∧ (s.bit Reg.fgdStatusExpired = false) ∧ (v.toNat = 0xC3A5) ∧ (s.fld Reg.fgdSysConfigWmin * 100000 ≤ s.fireguard.elapsed) ∧ (s.fireguard.elapsed < s.fld Reg.fgdSysConfigWmax * 100000)) ∧
    (∃ (s : State), (s.guardCounts .system = true) ∧ (s.fld Reg.fgdSysConfigWmax * 100000 ≤ s.fireguard.elapsed)) ∧
    (∃ (s : State) (r : Requester) (v : W32), (s.mayWrite r 0x002 = true) ∧ (s.bit Reg.fgdStatusSysOn = true) ∧ (s.bit Reg.fgdStatusExpired = false) ∧ (s.fld Reg.fgdSysConfigWmax * 100000 ≤ s.fireguard.elapsed)) ∧
    (∃ (s : State) (k : Fin 3) (m : Nat × Bool), (s.guardCounts (.cls k) = true) ∧ (s.fireguard.since.getD k.val none = some m) ∧ (s.guardLimit k.val ≤ s.bellows.ns - m.1)) ∧
    (∃ (s : State) (r : Requester) (v : W32), (s.mayWrite r 0x004 = true) ∧ (bitOf v.toNat 12 = true) ∧ (s.fld (Reg.rlnVerState 6) = 1) ∧ (s.sweepTest = none) ∧ (bitsOf v.toNat 4 8 < sweepTargets (bitsOf v.toNat 0 4)) ∧ (s.outOfService (bitsOf v.toNat 0 4) (bitsOf v.toNat 4 8) = true)) ∧
    (∃ (s : State) (pass : Bool) (signature : W32) (kind : Nat) (i : Nat), (s.sweepTest = some (kind, i)) ∧ (kind ≠ 1)) ∧
    (∃ (s : State) (pass : Bool) (signature : W32) (i : Nat), (s.sweepTest = some (1, i))) :=
  ⟨⟨held, .tenderSecure, 0x20001, by decide⟩,
    ⟨held, .tenderSecure, 0, 0x21, by decide⟩,
    ⟨guarded, .tenderSecure, 0xC3A5, by decide⟩,
    ⟨guardedLate, by decide⟩,
    ⟨guardedLate, .tenderSecure, 0xC3A5, by decide⟩,
    ⟨guardedCl, 0, (0, false), by decide⟩,
    ⟨verified, .tenderSecure, 0x1001, by decide⟩,
    ⟨sweeping, true, 7, 2, 2, by decide⟩,
    ⟨sweeping1, true, 7, 2, by decide⟩⟩

theorem wit_PokerRequestsComplete :
    (∃ (s : State), ((s.mainUp = true ∧ s.bit Reg.pkrControlDisable = false ∧ (s.bit Reg.pkrControlAuthAll = false ∨ s.poker.auth = true)))) ∧
    (∃ (s : State) (core : Nat), ((s.mainUp = true ∧ s.bit Reg.pkrControlDisable = false ∧ (s.bit Reg.pkrControlAuthAll = false ∨ s.poker.auth = true))) ∧ ((selectable core).isSome = true)) ∧
    (∃ (s : State) (n : BitVec 8), ((s.mainUp = true ∧ s.bit Reg.pkrControlDisable = false ∧ (s.bit Reg.pkrControlAuthAll = false ∨ s.poker.auth = true))) ∧ (pokerReg n.toNat = true) ∧ (snapReg n.toNat = true ∨ (s.at s.selected).halted = true) ∧ (n.toNat ≠ 0x23) ∧ (n.toNat ≠ 0x41)) ∧
    (∃ (s : State), ((s.mainUp = true ∧ s.bit Reg.pkrControlDisable = false ∧ (s.bit Reg.pkrControlAuthAll = false ∨ s.poker.auth = true))) ∧ ((s.at s.selected).halted = true)) ∧
    (∃ (s : State) (n : BitVec 8) (w : W36), ((s.mainUp = true ∧ s.bit Reg.pkrControlDisable = false ∧ (s.bit Reg.pkrControlAuthAll = false ∨ s.poker.auth = true))) ∧ (pokerReg n.toNat = true) ∧ (snapReg n.toNat = false) ∧ ((s.at s.selected).halted = true) ∧ (breakReg n.toNat = false ∨ isEngine s.selected = false ∨ s.mayHalt s.selected = true) ∧ (n.toNat ≠ 0x41) ∧ (s.hidden = false ∨ 0x22 ≤ n.toNat)) ∧
    (∃ (s : State) (w : W36), ((s.mainUp = true ∧ s.bit Reg.pkrControlDisable = false ∧ (s.bit Reg.pkrControlAuthAll = false ∨ s.poker.auth = true))) ∧ ((s.at s.selected).halted = true)) ∧
    (∃ (s : State), ((s.mainUp = true ∧ s.bit Reg.pkrControlDisable = false ∧ (s.bit Reg.pkrControlAuthAll = false ∨ s.poker.auth = true))) ∧ (isEngine s.selected = false ∨ s.mayHalt s.selected = true) ∧ ((s.at s.selected).halted = false)) ∧
    (∃ (s : State) (w : W36), ((s.mainUp = true ∧ s.bit Reg.pkrControlDisable = false ∧ (s.bit Reg.pkrControlAuthAll = false ∨ s.poker.auth = true))) ∧ ((wordOp w).isSome = true) ∧ ((s.at s.selected).halted = true) ∧ (s.hidden = false) ∧ ((s.land s.selected (s.at s.selected).loads.length (s.at s.selected).loads).1.isNone = true)) ∧
    (∃ (s : State), ((s.mainUp = true ∧ s.bit Reg.pkrControlDisable = false)) ∧ (s.fuses.debugKey.isSome = true) ∧ (s.poker.lockout = false) ∧ (s.poker.chalRead < s.poker.challenge.length)) ∧
    (∃ (s : State), ((s.mainUp = true ∧ s.bit Reg.pkrControlDisable = false)) ∧ (s.fuses.debugKey.isSome = true) ∧ (s.poker.lockout = false) ∧ (s.poker.challenge.length ≤ s.poker.chalRead)) ∧
    (∃ (s : State) (w : W36), ((s.mainUp = true ∧ s.bit Reg.pkrControlDisable = false)) ∧ (s.poker.challenge ≠ []) ∧ (8 ≤ s.poker.chalRead) ∧ (s.poker.response.length < 23)) ∧
    (∃ (s : State) (w : W36), ((s.mainUp = true ∧ s.bit Reg.pkrControlDisable = false)) ∧ (s.poker.challenge ≠ []) ∧ (8 ≤ s.poker.chalRead) ∧ (23 ≤ s.poker.response.length)) ∧
    (∃ (s : State), (s.poker.lockout = true)) ∧
    (∃ (s : State) (e : Fin 144), ((s.mainUp = true ∧ s.bit Reg.pkrControlDisable = false ∧ (s.bit Reg.pkrControlAuthAll = false ∨ s.poker.auth = true))) ∧ (s.selected = .engine e) ∧ (s.sandboxRefused e.val ((s.core e.val).dbgReg 0x44) ((s.core e.val).dbgReg 0x45) = false)) ∧
    (∃ (s : State) (x : Nat × Nat × Nat), ((s.mainUp = true ∧ s.bit Reg.pkrControlDisable = false ∧ (s.bit Reg.pkrControlAuthAll = false ∨ s.poker.auth = true))) ∧ (s.poker.sandbox = some x)) :=
  ⟨⟨held, by decide⟩,
    ⟨held, 3, by decide⟩,
    ⟨pkrHalted, 0x20, by decide⟩,
    ⟨pkrHalted, by decide⟩,
    ⟨pkrHalted, 0x40, 1, by decide⟩,
    ⟨pkrHalted, 1, by decide⟩,
    ⟨pkrRunning, by decide⟩,
    ⟨pkrHalted, 0x010000000, by decide⟩,
    ⟨pkrChallenge, by decide⟩,
    ⟨pkrKeyed, by decide⟩,
    ⟨pkrChallenged, 1, by decide⟩,
    ⟨pkrResponding, 1, by decide⟩,
    ⟨pkrLockout, by decide⟩,
    ⟨pkrSandbox, 0, by decide⟩,
    ⟨pkrSandboxed, (0, 0, 0), by decide⟩⟩

theorem wit_HostInterfaceCommandsComplete :
    (∃ (s : State) (write : Bool) (page : Nat) (off : Nat), (s.hostUp = true) ∧ (pageAssigned page = false) ∧ (page < 0x400)) ∧
    (∃ (s : State) (write : Bool) (page : Nat) (off : Nat) (size : Nat), (s.hostUp = true) ∧ (barPage page = false) ∧ (size ≠ 4 ∨ off % 4 ≠ 0)) ∧
    (∃ (s : State) (write : Bool) (page : Nat) (off : Nat), (s.hostUp = true) ∧ (barPage page = false) ∧ (off % 4 = 0) ∧ (pageAssigned page = true) ∧ (s.hostForbidden write page off = true)) ∧
    (∃ (s : State) (page : Nat) (off : Nat), (s.hostUp = true) ∧ (barPage page = false) ∧ (off % 4 = 0) ∧ (pageAssigned page = true) ∧ (s.hostForbidden false page off = false)) ∧
    (∃ (s : State) (page : Nat) (off : Nat) (size : Nat), (s.hostUp = true) ∧ (barPage page = true)) ∧
    (∃ (s : State) (m : Fin 16) (b : Block) (tag : W32), (s.hostUp = true) ∧ ((s.mailbox m.val).state = 1)) ∧
    (∃ (s : State) (m : Fin 16) (b : Block) (tag : W32), (s.hostUp = true) ∧ ((s.mailbox m.val).state ≠ 1) ∧ (blockCheck b = 0) ∧ (3 ≤ b.kind)) ∧
    (∃ (s : State) (m : Fin 16) (b : Block) (tag : W32), (s.hostUp = true) ∧ ((s.mailbox m.val).state ≠ 1) ∧ (blockCheck b = 0) ∧ (b.kind < 3) ∧ ((s.deliverBlock b id).1 = 0)) ∧
    (∃ (s : State) (m : Fin 16) (rest : List Nat), (s.mailOrder = m.val :: rest)) ∧
    (∃ (s : State) (m : Fin 16) (data : List Byte), (s.mailWaits m.val = true)) ∧
    (∃ (s : State) (m : Fin 16), (s.hostUp = true) ∧ ((s.mailbox m.val).state ≠ 1)) ∧
    (∃ (s : State) (r : Requester) (v : W32), (s.mayWrite r 0x131 = true)) ∧
    (∃ (s : State) (speed : BitVec 3) (width : BitVec 3), (s.hostUp = true) ∧ (s.pins.perstN = true)) ∧
    (∃ (s : State), (s.bit Reg.pciStatusDlActive = true)) ∧
    (∃ (s : State), (s.pins.perstN = true)) :=
  ⟨⟨held, false, 0x00A, 0, by decide⟩,
    ⟨held, false, 0, 0, 8, by decide⟩,
    ⟨hostOut, true, 0x001, 4, by decide⟩,
    ⟨hostReads, 0x001, 4, by decide⟩,
    ⟨held, 0x400, 0x18, 4, by decide⟩,
    ⟨mailBusy, 0, blockMsg, 1, by decide⟩,
    ⟨held, 0, blockMsg, 1, by decide⟩,
    ⟨rlnReceiving, 0, blockRln, 1, by decide⟩,
    ⟨mailOrdered, 0, [], by decide⟩,
    ⟨mailWaiting, 0, [1], by decide⟩,
    ⟨held, 0, by decide⟩,
    ⟨held, .tenderSecure, 1, by decide⟩,
    ⟨perstHigh, 1, 1, by decide⟩,
    ⟨linkUp, by decide⟩,
    ⟨perstHigh, by decide⟩⟩

theorem wit_UartCommandsComplete :
    (∃ (s : State) (tag : Byte), ((s.uartServed = true ∧ 1 ≤ (s.uartReplied).svcLevel))) ∧
    (∃ (s : State) (tag : Byte) (page : Nat) (off : Nat), ((s.uartServed = true ∧ 1 ≤ (s.uartReplied).svcLevel)) ∧ (uartRegOk page off = true) ∧ ((s.uartReplied).hostForbidden false page off = false)) ∧
    (∃ (s : State) (tag : Byte) (page : Nat) (off : Nat) (v : W32), ((s.uartServed = true ∧ 2 ≤ (s.uartReplied).svcLevel)) ∧ (uartRegOk page off = true) ∧ ((s.uartReplied).hostForbidden true page off = false)) ∧
    (∃ (s : State) (tag : Byte) (off : Nat) (count : Nat), ((s.uartServed = true ∧ 1 ≤ (s.uartReplied).svcLevel)) ∧ (1 ≤ count) ∧ (count ≤ 64)) ∧
    (∃ (s : State) (tag : Byte) (off : Nat) (slots : List (BitVec 64)), ((s.uartServed = true ∧ 2 ≤ (s.uartReplied).svcLevel)) ∧ (1 ≤ slots.length) ∧ (slots.length ≤ 64)) ∧
    (∃ (s : State) (tag : Byte) (b : Block), ((s.uartServed = true ∧ 2 ≤ (s.uartReplied).svcLevel)) ∧ (b.data.length = b.length) ∧ (blockCheck b = 0) ∧ (3 ≤ b.kind)) ∧
    (∃ (s : State) (tag : Byte) (b : Block), ((s.uartServed = true ∧ 2 ≤ (s.uartReplied).svcLevel)) ∧ (b.data.length = b.length) ∧ (blockCheck b = 0) ∧ (b.kind < 3) ∧ (((s.uartReplied).deliverBlock b fun u => u.send (.uartMessage b.kind b.data)).1 = 0)) ∧
    (∃ (s : State) (tag : Byte) (off : Nat) (len : Nat), ((s.uartServed = true ∧ 1 ≤ (s.uartReplied).svcLevel)) ∧ (1 ≤ len) ∧ (len ≤ 4096) ∧ (off + len ≤ ashLogSize)) ∧
    (∃ (s : State), (s.uartWait = none)) ∧
    (∃ (s : State) (tag : Byte), (s.uartWait = some tag)) :=
  ⟨⟨uartUp, 7, by decide⟩,
    ⟨uartUp, 7, 0, 0, by decide⟩,
    ⟨uartUp, 7, 0, 0, 1, by decide⟩,
    ⟨uartUp, 7, 0, 1, by decide⟩,
    ⟨uartUp, 7, 0, [1], by decide⟩,
    ⟨uartUp, 7, blockMsg, by decide⟩,
    ⟨uartRln, 7, blockRln, by decide⟩,
    ⟨uartUp, 7, 0, 8, by decide⟩,
    ⟨uartUp, by decide⟩,
    ⟨uartWaiting, 7, by decide⟩⟩

theorem wit_SecurityCommandsComplete :
    (∃ (s : State) (page : Nat) (v : W32), (s.mainUp = true) ∧ (pageAssigned page = true) ∧ (s.pageOff page = false) ∧ (s.bit (Reg.ownerLock page) = false) ∧ (page ≠ 0x003 ∨ s.ember.locked = false)) ∧
    (∃ (s : State) (v : W32), (s.mayWrite .tenderSecure 0x009 = true) ∧ (bitsOf v.toNat 0 4 ≠ 0) ∧ (bitsOf v.toNat 0 4 ≤ 11) ∧ (Sparse.get s.rwlSet false ((0x009 * 0x1000 + 0x020) * 32) = false)) ∧
    (∃ (s : State) (limit : Bool) (v : W32), (s.mayWrite .tenderSecure 0x009 = true) ∧ ((s.setFld (if limit then Reg.secDramLimitLimit else Reg.secDramBaseBase) (bitsOf v.toNat 0 16)).tables.any (s.setFld (if limit then Reg.secDramLimitLimit else Reg.secDramBaseBase) (bitsOf v.toNat 0 16)).tableInRange = false)) ∧
    (∃ (s : State) (v : W32), (s.mayWrite .tenderSecure 0x000 = true) ∧ (bitOf v.toNat 0 = true) ∧ (s.romOn = true)) ∧
    (∃ (s : State) (arg : BitVec 7), (s.mayWrite .tenderSecure 0x009 = true) ∧ (s.fuses.op = none) ∧ (s.fuseRefused 1 arg.toNat 0 = false)) ∧
    (∃ (s : State) (arg : BitVec 7), (s.mayWrite .tenderSecure 0x009 = true) ∧ (s.fuses.op = none) ∧ (s.fuseRefused 2 arg.toNat 0 = false)) ∧
    (∃ (s : State), (s.mayWrite .tenderSecure 0x009 = true) ∧ (s.fuses.op = none) ∧ (s.fuseRefused 3 0 0 = false)) ∧
    (∃ (s : State) (arg : BitVec 7), (s.mayWrite .tenderSecure 0x009 = true) ∧ (s.fuses.op = none) ∧ (s.fuseRefused 4 arg.toNat 0 = false)) ∧
    (∃ (s : State) (arg : BitVec 7) (target : BitVec 7), (s.mayWrite .tenderSecure 0x009 = true) ∧ (s.fuses.op = none) ∧ (s.fuseRefused 5 arg.toNat target.toNat = false)) ∧
    (∃ (s : State) (o : Nat × Nat × Nat), (s.fuses.op = some o)) :=
  ⟨⟨held, 0x020, 1, by decide⟩,
    ⟨held, 3, by decide⟩,
    ⟨held, true, 1, by decide⟩,
    ⟨reset0, 1, by decide⟩,
    ⟨held, 0, by decide⟩,
    ⟨fused, 0, by decide⟩,
    ⟨fused, by decide⟩,
    ⟨held, 4, by decide⟩,
    ⟨held, 1, 1, by decide⟩,
    ⟨fusing, (1, 0, 0), by decide⟩⟩

theorem wit_ReliningCommandsComplete :
    (∃ (s : State) (r : Requester), (s.mayWrite r 0x007 = true) ∧ (s.hasDram = true) ∧ (s.fld Reg.rlnComponentComponent ≠ 7) ∧ (s.rlnState ≠ 2) ∧ (s.rlnState ≠ 4) ∧ (s.otherDown (s.fld Reg.rlnComponentComponent) = false)) ∧
    (∃ (s : State) (r : Requester), (s.mayWrite r 0x007 = true) ∧ (s.rlnState = 1 ∨ s.rlnState = 5)) ∧
    (∃ (s : State), (s.rlnState = 2)) ∧
    (∃ (s : State) (r : Requester), (s.mayWrite r 0x007 = true) ∧ (s.rlnMayNot = false)) ∧
    (∃ (s : State) (r : Requester), (s.mayWrite r 0x007 = true) ∧ (s.rlnState ≠ 4)) ∧
    (∃ (s : State) (m : Bool), (s.rlnState = 4) ∧ (s.relining.restarting = none) ∧ (s.mantel.pf = 0)) ∧
    (∃ (s : State) (comp : Fin 7), (s.relining.restarting = some comp.val)) ∧
    (∃ (s : State) (comp : Fin 7), (s.relining.restarting = some comp.val) ∧ (comp.val ≠ 6)) :=
  ⟨⟨verified, .tenderSecure, by decide⟩,
    ⟨rlnReceiving, .tenderSecure, by decide⟩,
    ⟨rlnChecking, by decide⟩,
    ⟨rlnReady, .tenderSecure, by decide⟩,
    ⟨held, .tenderSecure, by decide⟩,
    ⟨rlnWriting, true, by decide⟩,
    ⟨rlnRestarting, 2, by decide⟩,
    ⟨rlnRestarting, 2, by decide⟩⟩

theorem wit_RegisterWritesActOnceOpen :
    (∃ (s : State) (r : Requester) (page : Nat) (off : Nat) (v : W32), (s.mayWrite r page = true) ∧ (barPage page = false) ∧ (pageAssigned page = true) ∧ (off ≠ 0x000) ∧ (off ≠ 0x01C) ∧ (((s.hostCarries r page off v).writeOpLow r page off v).isNone = true) ∧ (((s.hostCarries r page off v).writeOpHigh r page off v).isNone = true) ∧ (((s.hostCarries r page off v).writeOpMany r page off v).isNone = true)) ∧
    (∃ (s : State) (r : Requester) (page : Nat) (v : W32), (s.mainUp = true) ∧ (barPage page = false) ∧ (pageAssigned page = true)) ∧
    (∃ (r : Requester) (f : Fld) (v : W32) (s : State), (f ∈ [Reg.pwrGrateWakeMask, Reg.mntAddrAddr, Reg.mntBufLoBufLo, Reg.rlnComponentComponent, Reg.blwBlockQueryBlock, Reg.edtActClassClass, Reg.edtActCycleLoCycleLo, Reg.edtActCycleHiCycleHi, Reg.eraWitnessPortPort, Reg.chmUdpPortPort, Reg.chmHandshakeRateRate, Reg.chmSessionIdleSeconds]) ∧ (s.mayWrite r f.page = true)) ∧
    (∃ (r : Requester) (f : Fld) (v : W32) (s : State), (f ∈ [Reg.tenEventEnableEnables, Reg.pwrEventEnableEnables, Reg.fgdEventEnableEnables, Reg.swpEventEnableEnables, Reg.mntEventEnableEnables, Reg.ashEventEnableEnables, Reg.rlnEventEnableEnables, Reg.pkrEventEnableEnables, Reg.secEventEnableEnables, Reg.blwEventEnableEnables, Reg.hrtEventEnableEnables, Reg.edtEventEnableEnables, Reg.eraEventEnableEnables, Reg.dmpEventEnableEnables, Reg.grtEventEnableEnables, Reg.chmEventEnableEnables, Reg.hobEventEnableEnables, Reg.pciEventEnableEnables]) ∧ (s.mayWrite r f.page = true)) ∧
    (∃ (s : State) (r : Requester) (v : W32), (s.mayWrite r 0x015 = true) ∧ (Sparse.get s.rwlSet false (rwlKey 0x015 0x008) = false)) ∧
    (∃ (s : State) (r : Requester) (v : W32), (s.mayWrite r 0x015 = true) ∧ (Sparse.get s.rwlSet false (rwlKey 0x015 0x008) = true)) ∧
    (∃ (r : Requester) (v : W32) (s : State), (s.mayWrite r 0x014 = true)) ∧
    (∃ (r : Requester) (page : Nat) (v : W32) (s : State), (r ≠ .host ∨ barPage page = false)) ∧
    (∃ (r : Requester) (v : W32) (s : State), (s.answers r = true)) :=
  ⟨⟨held, .tenderSecure, 0x001, 0x010, 1, by decide⟩,
    ⟨held, .tenderSecure, 0x001, 1, by decide⟩,
    ⟨.tenderSecure, Reg.chmUdpPortPort, 1, held, by decide⟩,
    ⟨.tenderSecure, Reg.hrtEventEnableEnables, 1, held, by decide⟩,
    ⟨held, .tenderSecure, 1, by decide⟩,
    ⟨heldSig, .tenderSecure, 1, by decide⟩,
    ⟨.tenderSecure, 1, heldEcc, by decide⟩,
    ⟨.tenderSecure, 0x020, 1, held, by decide⟩,
    ⟨.tenderSecure, 1, held, by decide⟩⟩

/-! ## Well-formedness: for each check an ill-formed term that it refuses -/

theorem test_wf_register : (Instr.registerWrite .host 0x400 0x008 0).wf = false ∧
    (Instr.registerWrite .host 0x014 0x1000 0).wf = false ∧ (Instr.registerWrite .host 0x014 0x009 0).wf = false ∧
    (Instr.hostUnassignedAccess true 0x400 0).wf = false ∧ (Instr.hostAccessDiscard true 0x014 0x1000 4).wf = false ∧
    (Instr.ownerWrite .host 0x400 0).wf = false ∧ (Instr.registerWrite .host 0x014 0x008 0).wf = true := by decide

theorem test_wf_sub_codes : (Instr.mulh .tender oA1).wf = false ∧ (Instr.mulhu .tender oA).wf = false ∧
    (Instr.div .tender oA1).wf = false ∧ (Instr.divu .tender oA).wf = false ∧ (Instr.rem .tender oA1).wf = false ∧
    (Instr.remu .tender oA).wf = false ∧ (Instr.mulhu .tender oA1).wf = true := by decide

theorem test_wf_illegal_opcode : (Instr.illegalOpcode .tender 0x100000000).wf = false ∧
    (Instr.illegalOpcode .tender 0xFF0000000).wf = true := by decide

theorem test_wf_ledger : (Instr.ledgerBreak (.tokens 0 256)).wf = false ∧
    (Instr.ledgerBreak (.segments 77824)).wf = false := by decide

theorem test_wf_window : (Instr.hostImageRead 0x10000000 1).wf = false ∧ (Instr.hostImageWrite 0xFFFFFFF [0, 0]).wf = false ∧
    (Instr.hostImageRead 0xFFFFFFF 1).wf = true := by decide

theorem test_wf_granule : (Instr.granuleCopyRequest 294912).wf = false ∧ (Instr.copyCell 294912 [] []).wf = false ∧
    (Instr.copyCell 0 [] (List.replicate 32 0)).wf = false ∧ (Instr.copyCell 0 (List.replicate 32 0) []).wf = false := by decide

theorem test_wf_draught : (Instr.dtlsRecord 0 0 dg0.head 0 true (List.replicate 1177 0)).wf = false := by decide

theorem test_wf_bus_frames : let f : CanFrame := ⟨0, List.replicate 65 0, false⟩
    (Instr.hobImageFrame 0 f).wf = false ∧ (Instr.hobAckFrame 0 f).wf = false ∧ (Instr.hobEventFrame 0 f).wf = false ∧
    (Instr.hobPeerFrame 0 f).wf = false ∧ (Instr.hobStationWakeFrame 0 f).wf = false ∧ (Instr.hobSleepVote 0 f).wf = false := by decide

theorem test_wf_legacy : (Instr.legacyApdu 65536 .testfrAct).wf = false ∧ (Instr.legacyApdu 1 (.sFormat 32768)).wf = false ∧
    (Instr.legacyApdu 1 (.iFormat 10 32768 0 1 3 1 [])).wf = false ∧ (Instr.legacyApdu 1 (.iFormat 10 0 32768 1 3 1 [])).wf = false ∧
    (Instr.legacyActcon 65536 1 true).wf = false ∧ (Instr.legacyActcon 1 0x1000000 true).wf = false ∧
    (Instr.legacyNegHoldoffEnd 65536 1).wf = false ∧ (Instr.legacyNegHoldoffEnd 1 0x1000000).wf = false := by decide

theorem test_wf_erair : (Instr.erairHeartbeat (List.replicate 13 0)).wf = false ∧ (Instr.erairRecord (List.replicate 8 0)).wf = false ∧
    (Instr.erairCellCrcError ⟨0, List.replicate 15 0⟩).wf = false := by decide

theorem test_wf_pair_messages : (Instr.witnessProbe ⟨dgWit, List.replicate 39 0⟩).wf = false ∧
    (Instr.witnessAnswer ⟨dgWit, List.replicate 41 0⟩).wf = false ∧ (Instr.witnessClaimNotice ⟨dgWit, []⟩).wf = false ∧
    (Instr.armMessage [0] 0 0).wf = false ∧ (Instr.release [0, 0]).wf = false := by decide

theorem test_wf_block : let b : Block := { blockMsg with data := List.replicate 4097 0 }
    (Instr.mailboxDoorbell 0 b 0).wf = false ∧ (Instr.uartBlock 0 b).wf = false := by decide

/-! ## The worked examples of the spec, and its tables -/

/-- The worked example after R55: a substitute and an aged temperature subtracted, then doubled. -/
theorem test_quality_example :
    qOf ((vSub (qw 700 0xC) (qw 500 9)).word [qw 700 0xC, qw 500 9]) = 0xD ∧
      (vMul (qw 200 0xD) (litQ 2)).word [qw 200 0xD, litQ 2] = qw 400 0xD := by decide

/-- The worked example after R175: the division by a flow of zero, and the held value selected. -/
theorem test_division_example :
    (vFdiv (litQ 0x44BB8000) (litQ 0)).word [litQ 0x44BB8000, litQ 0] = qw 0x7F800000 0 := by decide

/-- R175: division corners of the integer group. -/
theorem test_division_corners :
    (vDiv (litQ 0x80000000) (litQ 0xFFFFFFFF)).word [litQ 0x80000000, litQ 0xFFFFFFFF] = qw 0x7FFFFFFF 0 ∧
      (vRem (litQ 0x80000000) (litQ 0xFFFFFFFF)).word [litQ 0x80000000, litQ 0xFFFFFFFF] = qw 0 8 := by decide

/-- R147: MULH of the two most negative numbers is 2^30; MULHU of the two greatest is 0xFFFFFFFE. -/
theorem test_mulh : (vMulh (litQ 0x80000000) (litQ 0x80000000)).word [litQ 0] = litQ 0x40000000 ∧
    (vMulhu (litQ 0xFFFFFFFF) (litQ 0xFFFFFFFF)).word [litQ 0] = litQ 0xFFFFFFFE := by decide

/-- The worked example after R113: one window of two granules at granule 65,600. -/
theorem test_window_example :
    storeAllowed [(65600, 2)] 0x120083F 1 = true ∧ storeAllowed [(65600, 2)] 0x120083F 2 = false ∧
      storeAllowed [(65600, 2)] 0x1200800 1 = true ∧ storeAllowed [(65600, 2)] 0x12007FF 1 = false := by decide

/-- The worked example of R81 and R82: a pair store over the end of local store faults as a whole. -/
theorem test_pair_store_example :
    eng.storeSpace (.engine 0) 0xBFFF 1 = some .ls ∧ eng.storeSpace (.engine 0) 0xBFFF 2 = none := by decide

/-- The worked example "one word over five cycles": two writes in a cycle, the second in place. -/
theorem test_two_writes_in_a_cycle :
    let s := (imageIdle.writeWord 5 15).writeWord 5 16
    s.readCur 5 = 16 ∧ s.readPrev 5 = 0 ∧ s.hearth.selOf 5 = true ∧ s.written 5 = true := by decide

/-- The worked example of R135: word point 2,048 lies at BAR2 + 0x1004000. -/
theorem test_host_offset : curAddr (0x100000 + 2048) = hearthBase + 0x1004000 / 8 ∧
    slotBytes (qw 725 8) = [0xD5, 0x02, 0, 0, 8, 0, 0, 0] := by decide

/-- The worked example of R259: the payload that words 725 and 1, both good, open. -/
theorem test_pack_example : packWords [qw 725 8, qw 1 8] = [0x80, 0, 0, 0x2D, 0x58, 0, 0, 0, 1] ∧
    unpackWords [0x80, 0, 0, 0x2D, 0x58, 0, 0, 0, 1] 2 = [qw 725 8, qw 1 8] := by decide

/-- The example of R15: E036 and E044 are in K04. -/
theorem test_cluster_example : clusterOf 36 = 4 ∧ clusterOf 44 = 4 ∧ clusterOf 135 = 15 := by decide

/-- The example of R307: the input image of a Glow station at address 5, and its outputs. -/
theorem test_bus_identifier : hobIdent 1 1 5 0 = 0x314 ∧ hobIdent 1 0 5 0 = 0x214 := by decide

/-- The table gives no row bits: no word spells a command. -/
theorem test_no_word_decodes : decodeTableWord 32 0x12345678 = none := by decide

/-- A command at the front of the queue runs, and the next one waits. -/
theorem test_step_takes_the_front : step { held with pending := [.nop .tender oZ] } = exec (.nop .tender oZ) { held with pending := [] } := rfl

end Sys2Proof.Tests
end

namespace Sys2Proof.Machine

/-! What every command does: it answers a next state, and it keeps what `Kept` says -/

/-- What every command leaves behind, by the lemma of its own function, in the order of the dispatch. -/
theorem exec_keptR (c : Instr) (s : State) : KeptR s (exec c s) := by
  have hk := Kept.refl s
  cases c with
  | registerWrite r page off v => exact Kept.of_execRegisterWrite r page off v hk
  | hostUnassignedAccess write page off => exact Kept.of_execHostUnassignedAccess write page off hk
  | ledgerBreak l => exact Kept.of_execLedgerBreak l hk
  | engineFailure e credits => exact Kept.of_execEngineFailure e credits hk
  | fbxEngineMapout r e v credits => exact Kept.of_execFbxEngineMapout r e v credits hk
  | spareLoadDone e => exact Kept.of_execSpareLoadDone e hk
  | fbxClusterMapout r n v => exact Kept.of_execFbxClusterMapout r n v hk
  | clusterDomainFault n => exact Kept.of_execClusterDomainFault n hk
  | drmMapout r v => exact Kept.of_execDrmMapout r v hk
  | drmReturn r v => exact Kept.of_execDrmReturn r v hk
  | resilverDone ch => exact Kept.of_execResilverDone ch hk
  | dramChannelFault ch => exact Kept.of_execDramChannelFault ch hk
  | chmPortMapout r x v => exact Kept.of_execChmPortMapout r x v hk
  | hobPortMapout r p v => exact Kept.of_execHobPortMapout r p v hk
  | nop c o => exact Kept.of_execNop c o hk
  | sys c o => exact Kept.of_execSys c o hk
  | sysw c o => exact Kept.of_execSysw c o hk
  | svc c o => exact Kept.of_execSvc c o hk
  | brk c o => exact Kept.of_execBrk c o hk
  | rete c o => exact Kept.of_execRete c o hk
  | wfi c o => exact Kept.of_execWfi c o hk
  | wfiWake => exact Kept.of_execWfiWake hk
  | fence c o => exact Kept.of_execFence c o hk
  | fenceDrained c => exact Kept.of_execFenceDrained c hk
  | add c o => exact Kept.of_execAdd c o hk
  | addi c o => exact Kept.of_execAddi c o hk
  | sub c o => exact Kept.of_execSub c o hk
  | adds c o => exact Kept.of_execAdds c o hk
  | subs c o => exact Kept.of_execSubs c o hk
  | mul c o => exact Kept.of_execMul c o hk
  | mulh c o => exact Kept.of_execMulh c o hk
  | mulhu c o => exact Kept.of_execMulhu c o hk
  | div c o => exact Kept.of_execDiv c o hk
  | divu c o => exact Kept.of_execDivu c o hk
  | rem c o => exact Kept.of_execRem c o hk
  | remu c o => exact Kept.of_execRemu c o hk
  | and_ c o => exact Kept.of_execAnd c o hk
  | or_ c o => exact Kept.of_execOr c o hk
  | xor_ c o => exact Kept.of_execXor c o hk
  | andi c o => exact Kept.of_execAndi c o hk
  | ori c o => exact Kept.of_execOri c o hk
  | xori c o => exact Kept.of_execXori c o hk
  | shl c o => exact Kept.of_execShl c o hk
  | shr c o => exact Kept.of_execShr c o hk
  | sar c o => exact Kept.of_execSar c o hk
  | min c o => exact Kept.of_execMin c o hk
  | max c o => exact Kept.of_execMax c o hk
  | addp c o => exact Kept.of_execAddp c o hk
  | subp c o => exact Kept.of_execSubp c o hk
  | liq c o => exact Kept.of_execLiq c o hk
  | sel c o => exact Kept.of_execSel c o hk
  | mov c o => exact Kept.of_execMov c o hk
  | adda c o => exact Kept.of_execAdda c o hk
  | addar c o => exact Kept.of_execAddar c o hk
  | suba c o => exact Kept.of_execSuba c o hk
  | li c o => exact Kept.of_execLi c o hk
  | movp c o => exact Kept.of_execMovp c o hk
  | shla c o => exact Kept.of_execShla c o hk
  | ceq c o => exact Kept.of_execCeq c o hk
  | cne c o => exact Kept.of_execCne c o hk
  | clt c o => exact Kept.of_execClt c o hk
  | cle c o => exact Kept.of_execCle c o hk
  | cltu c o => exact Kept.of_execCltu c o hk
  | cleu c o => exact Kept.of_execCleu c o hk
  | ceqi c o => exact Kept.of_execCeqi c o hk
  | clti c o => exact Kept.of_execClti c o hk
  | cgti c o => exact Kept.of_execCgti c o hk
  | fceq c o => exact Kept.of_execFceq c o hk
  | fclt c o => exact Kept.of_execFclt c o hk
  | fcle c o => exact Kept.of_execFcle c o hk
  | ldw c o => exact Kept.of_execLdw c o hk
  | stw c o => exact Kept.of_execStw c o hk
  | ldp c o => exact Kept.of_execLdp c o hk
  | stp c o => exact Kept.of_execStp c o hk
  | ldwx c o => exact Kept.of_execLdwx c o hk
  | stwx c o => exact Kept.of_execStwx c o hk
  | ldb c o => exact Kept.of_execLdb c o hk
  | ldbp c o => exact Kept.of_execLdbp c o hk
  | redge c o => exact Kept.of_execRedge c o hk
  | fedge c o => exact Kept.of_execFedge c o hk
  | chgb c o => exact Kept.of_execChgb c o hk
  | stb c o => exact Kept.of_execStb c o hk
  | setb c o => exact Kept.of_execSetb c o hk
  | clrb c o => exact Kept.of_execClrb c o hk
  | ldwp c o => exact Kept.of_execLdwp c o hk
  | chgw c o => exact Kept.of_execChgw c o hk
  | tstb c o => exact Kept.of_execTstb c o hk
  | insb c o => exact Kept.of_execInsb c o hk
  | popc c o => exact Kept.of_execPopc c o hk
  | ffs c o => exact Kept.of_execFfs c o hk
  | fadd c o => exact Kept.of_execFadd c o hk
  | fsub c o => exact Kept.of_execFsub c o hk
  | fmul c o => exact Kept.of_execFmul c o hk
  | fdiv c o => exact Kept.of_execFdiv c o hk
  | fsqrt c o => exact Kept.of_execFsqrt c o hk
  | fmin c o => exact Kept.of_execFmin c o hk
  | fmax c o => exact Kept.of_execFmax c o hk
  | fabs c o => exact Kept.of_execFabs c o hk
  | fneg c o => exact Kept.of_execFneg c o hk
  | fcvtif c o => exact Kept.of_execFcvtif c o hk
  | fcvtfi c o => exact Kept.of_execFcvtfi c o hk
  | jump c o => exact Kept.of_execJump c o hk
  | call c o => exact Kept.of_execCall c o hk
  | bz c o => exact Kept.of_execBz c o hk
  | bnz c o => exact Kept.of_execBnz c o hk
  | jr c o => exact Kept.of_execJr c o hk
  | callr c o => exact Kept.of_execCallr c o hk
  | ret c o => exact Kept.of_execRet c o hk
  | bend c o => exact Kept.of_execBend c o hk
  | qget c o => exact Kept.of_execQget c o hk
  | qset c o => exact Kept.of_execQset c o hk
  | qseti c o => exact Kept.of_execQseti c o hk
  | qori c o => exact Kept.of_execQori c o hk
  | qclri c o => exact Kept.of_execQclri c o hk
  | qmrg c o => exact Kept.of_execQmrg c o hk
  | qval c o => exact Kept.of_execQval c o hk
  | qgood c o => exact Kept.of_execQgood c o hk
  | qsel c o => exact Kept.of_execQsel c o hk
  | rdtime c o => exact Kept.of_execRdtime c o hk
  | rdbound c o => exact Kept.of_execRdbound c o hk
  | rdcyc c o => exact Kept.of_execRdcyc c o hk
  | rdper c o => exact Kept.of_execRdper c o hk
  | rdfull c o => exact Kept.of_execRdfull c o hk
  | rdcnt c o => exact Kept.of_execRdcnt c o hk
  | loadComplete c unc => exact Kept.of_execLoadComplete c unc hk
  | storeComplete c => exact Kept.of_execStoreComplete c hk
  | lockstepMismatch => exact Kept.of_execLockstepMismatch hk
  | interruptEntry source => exact Kept.of_execInterruptEntry source hk
  | nmiEntry => exact Kept.of_execNmiEntry hk
  | budgetExceeded e => exact Kept.of_execBudgetExceeded e hk
  | hostImageRead off len => exact Kept.of_execHostImageRead off len hk
  | hostImageWrite off data => exact Kept.of_execHostImageWrite off data hk
  | settleEnd k => exact Kept.of_execSettleEnd k hk
  | scrubRead found => exact Kept.of_execScrubRead found hk
  | hrtRetainCapture r v => exact Kept.of_execHrtRetainCapture r v hk
  | retainCaptureEnd => exact Kept.of_execRetainCaptureEnd hk
  | classBoundary k => exact Kept.of_execClassBoundary k hk
  | intakeComplete k => exact Kept.of_execIntakeComplete k hk
  | tierOpen k => exact Kept.of_execTierOpen k hk
  | tierToken k l => exact Kept.of_execTierToken k l hk
  | solveEnd k => exact Kept.of_execSolveEnd k hk
  | outlayEnd k => exact Kept.of_execOutlayEnd k hk
  | mirrorHandover k => exact Kept.of_execMirrorHandover k hk
  | stallResume r k v => exact Kept.of_execStallResume r k v hk
  | blwPeriodWrite r k v => exact Kept.of_execBlwPeriodWrite r k v hk
  | blwPhaseOffsetWrite r k v => exact Kept.of_execBlwPhaseOffsetWrite r k v hk
  | blwLockWrite r k v => exact Kept.of_execBlwLockWrite r k v hk
  | blockEnable r block => exact Kept.of_execBlockEnable r block hk
  | blockDisable r block => exact Kept.of_execBlockDisable r block hk
  | enableAllInstances r block => exact Kept.of_execEnableAllInstances r block hk
  | beginLoad r => exact Kept.of_execBeginLoad r hk
  | verify r => exact Kept.of_execVerify r hk
  | verifyDone mantelOk => exact Kept.of_execVerifyDone mantelOk hk
  | arm r => exact Kept.of_execArm r hk
  | disarm r => exact Kept.of_execDisarm r hk
  | rollbackArm r => exact Kept.of_execRollbackArm r hk
  | activateNow r => exact Kept.of_execActivateNow r hk
  | editDiscard r => exact Kept.of_execEditDiscard r hk
  | armMessage digest k cycle => exact Kept.of_execArmMessage digest k cycle hk
  | armAcknowledge => exact Kept.of_execArmAcknowledge hk
  | armAckTimeout => exact Kept.of_execArmAckTimeout hk
  | disarmMessage => exact Kept.of_execDisarmMessage hk
  | dtlsHandshake session h => exact Kept.of_execDtlsHandshake session h hk
  | dtlsKeyUpdate session => exact Kept.of_execDtlsKeyUpdate session hk
  | dtlsRecord session port head seq authentic frame => exact Kept.of_execDtlsRecord session port head seq authentic frame hk
  | sessionIdleTimeout session => exact Kept.of_execSessionIdleTimeout session hk
  | draughtBind session => exact Kept.of_execDraughtBind session hk
  | draughtIntake session => exact Kept.of_execDraughtIntake session hk
  | draughtAck session => exact Kept.of_execDraughtAck session hk
  | draughtEvent session => exact Kept.of_execDraughtEvent session hk
  | outlayRepeat station => exact Kept.of_execOutlayRepeat station hk
  | holdRepeat station => exact Kept.of_execHoldRepeat station hk
  | stnSelect r station => exact Kept.of_execStnSelect r station hk
  | closeSession r station => exact Kept.of_execCloseSession r station hk
  | stationDisable r station => exact Kept.of_execStationDisable r station hk
  | stationEnable r station => exact Kept.of_execStationEnable r station hk
  | clearCounters r station => exact Kept.of_execClearCounters r station hk
  | interrogateNow r station => exact Kept.of_execInterrogateNow r station hk
  | arpRequest x vlan target => exact Kept.of_execArpRequest x vlan target hk
  | ethLinkChange x up speed => exact Kept.of_execEthLinkChange x up speed hk
  | legacyConnect station => exact Kept.of_execLegacyConnect station hk
  | legacyRetry station => exact Kept.of_execLegacyRetry station hk
  | legacyKeyRenewal station => exact Kept.of_execLegacyKeyRenewal station hk
  | legacyApdu station apdu => exact Kept.of_execLegacyApdu station apdu hk
  | legacyActcon station ioa positive => exact Kept.of_execLegacyActcon station ioa positive hk
  | legacyActterm station => exact Kept.of_execLegacyActterm station hk
  | legacyTestFrame station => exact Kept.of_execLegacyTestFrame station hk
  | legacyT1Timeout station => exact Kept.of_execLegacyT1Timeout station hk
  | legacyInterrogationTimer station => exact Kept.of_execLegacyInterrogationTimer station hk
  | legacyClockSyncTimer station => exact Kept.of_execLegacyClockSyncTimer station hk
  | legacyNegHoldoffEnd station ioa => exact Kept.of_execLegacyNegHoldoffEnd station ioa hk
  | hobModeWrite r p v => exact Kept.of_execHobModeWrite r p v hk
  | hobModeChange p => exact Kept.of_execHobModeChange p hk
  | hobImageFrame p f => exact Kept.of_execHobImageFrame p f hk
  | hobAckFrame p f => exact Kept.of_execHobAckFrame p f hk
  | hobEventFrame p f => exact Kept.of_execHobEventFrame p f hk
  | hobForeignFrame p why => exact Kept.of_execHobForeignFrame p why hk
  | hobPeerFrame p f => exact Kept.of_execHobPeerFrame p f hk
  | hobStationWakeFrame p f => exact Kept.of_execHobStationWakeFrame p f hk
  | hobSleepVote p f => exact Kept.of_execHobSleepVote p f hk
  | hobFrameSent p => exact Kept.of_execHobFrameSent p hk
  | hobTxFailed p how => exact Kept.of_execHobTxFailed p how hk
  | hobBackoffEnd p b => exact Kept.of_execHobBackoffEnd p b hk
  | hobTxCancel r p v => exact Kept.of_execHobTxCancel r p v hk
  | hobRefGuard p => exact Kept.of_execHobRefGuard p hk
  | hobReferenceLaunch p => exact Kept.of_execHobReferenceLaunch p hk
  | hobReferenceLost p => exact Kept.of_execHobReferenceLost p hk
  | hobBusOff p => exact Kept.of_execHobBusOff p hk
  | hobBusOffRecovery p => exact Kept.of_execHobBusOffRecovery p hk
  | hobSleepRequest r p => exact Kept.of_execHobSleepRequest r p hk
  | hobVoteEnd p => exact Kept.of_execHobVoteEnd p hk
  | hobQuietWindowEnd p => exact Kept.of_execHobQuietWindowEnd p hk
  | hobSleepWake r p => exact Kept.of_execHobSleepWake r p hk
  | hobGroupWake g => exact Kept.of_execHobGroupWake g hk
  | hobBusWake p => exact Kept.of_execHobBusWake p hk
  | hobPortRestarted p => exact Kept.of_execHobPortRestarted p hk
  | hobSequencerFault q => exact Kept.of_execHobSequencerFault q hk
  | heartbeatTimer => exact Kept.of_execHeartbeatTimer hk
  | erairHeartbeat payload => exact Kept.of_execErairHeartbeat payload hk
  | erairLoss => exact Kept.of_execErairLoss hk
  | erairLinkUp roundTripNs partnerTime => exact Kept.of_execErairLinkUp roundTripNs partnerTime hk
  | laneFailure l => exact Kept.of_execLaneFailure l hk
  | laneRetrainDone lanes => exact Kept.of_execLaneRetrainDone lanes hk
  | erairRecord words => exact Kept.of_execErairRecord words hk
  | erairAck k cycle applied => exact Kept.of_execErairAck k cycle applied hk
  | recordResendTimeout k cycle => exact Kept.of_execRecordResendTimeout k cycle hk
  | ackTimeout k => exact Kept.of_execAckTimeout k hk
  | timeOkTimeout => exact Kept.of_execTimeOkTimeout hk
  | eraSync r => exact Kept.of_execEraSync r hk
  | eraDesync r => exact Kept.of_execEraDesync r hk
  | eraSwap r => exact Kept.of_execEraSwap r hk
  | syncStart => exact Kept.of_execSyncStart hk
  | versionMessage m => exact Kept.of_execVersionMessage m hk
  | copyCell granule current previous => exact Kept.of_execCopyCell granule current previous hk
  | syncDone x => exact Kept.of_execSyncDone x hk
  | listenTimeout => exact Kept.of_execListenTimeout hk
  | handover => exact Kept.of_execHandover hk
  | aliveOutToggle => exact Kept.of_execAliveOutToggle hk
  | partnerAliveEdge intervalUs => exact Kept.of_execPartnerAliveEdge intervalUs hk
  | lineDead => exact Kept.of_execLineDead hk
  | witnessProbeTimer => exact Kept.of_execWitnessProbeTimer hk
  | witnessProbe w => exact Kept.of_execWitnessProbe w hk
  | witnessAnswer w => exact Kept.of_execWitnessAnswer w hk
  | witnessClaimNotice w => exact Kept.of_execWitnessClaimNotice w hk
  | witnessDead => exact Kept.of_execWitnessDead hk
  | claimNoticeTimer => exact Kept.of_execClaimNoticeTimer hk
  | swapPoint => exact Kept.of_execSwapPoint hk
  | swapDemote => exact Kept.of_execSwapDemote hk
  | release cycles => exact Kept.of_execRelease cycles hk
  | tspSample r d hi => exact Kept.of_execTspSample r d hi hk
  | tspAdjust r d hi => exact Kept.of_execTspAdjust r d hi hk
  | tspSelect r v => exact Kept.of_execTspSelect r v hk
  | tspHoldover d => exact Kept.of_execTspHoldover d hk
  | tspBleedEnd => exact Kept.of_execTspBleedEnd hk
  | tspSysRead r => exact Kept.of_execTspSysRead r hk
  | tspDomainRead r d => exact Kept.of_execTspDomainRead r d hk
  | timedLaunch port => exact Kept.of_execTimedLaunch port hk
  | grateConfigWrite r n v => exact Kept.of_execGrateConfigWrite r n v hk
  | gratePairWrite r v => exact Kept.of_execGratePairWrite r v hk
  | grateInputChange n on => exact Kept.of_execGrateInputChange n on hk
  | grateOverload n => exact Kept.of_execGrateOverload n hk
  | grateThermal n => exact Kept.of_execGrateThermal n hk
  | grateRetry n => exact Kept.of_execGrateRetry n hk
  | grateFaultClear n => exact Kept.of_execGrateFaultClear n hk
  | grateSupplyChange g mv => exact Kept.of_execGrateSupplyChange g mv hk
  | mantelRead r found => exact Kept.of_execMantelRead r found hk
  | stage r => exact Kept.of_execStage r hk
  | commit r => exact Kept.of_execCommit r hk
  | commitErase r => exact Kept.of_execCommitErase r hk
  | erase r => exact Kept.of_execErase r hk
  | mantelDiscard r => exact Kept.of_execMantelDiscard r hk
  | paramAppend r => exact Kept.of_execParamAppend r hk
  | retainCommit r => exact Kept.of_execRetainCommit r hk
  | mantelOpDone => exact Kept.of_execMantelOpDone (s := s) hk
  | backgroundErase block => exact Kept.of_execBackgroundErase block hk
  | privilegedCommitDone => exact Kept.of_execPrivilegedCommitDone (s := s) hk
  | ashFlush r => exact Kept.of_execAshFlush r hk
  | ashFlushDone => exact Kept.of_execAshFlushDone hk
  | ashClear r => exact Kept.of_execAshClear r hk
  | ashClearDone => exact Kept.of_execAshClearDone hk
  | pwrHold r => exact Kept.of_execPwrHold r hk
  | pwrRun r => exact Kept.of_execPwrRun r hk
  | pwrBank r => exact Kept.of_execPwrBank r hk
  | pwrRake r => exact Kept.of_execPwrRake r hk
  | pwrRakeOff r => exact Kept.of_execPwrRakeOff r hk
  | pwrWake r => exact Kept.of_execPwrWake r hk
  | pwrReset r => exact Kept.of_execPwrReset r hk
  | pdRequest r n v => exact Kept.of_execPdRequest r n v hk
  | pdSwitchDone n => exact Kept.of_execPdSwitchDone n hk
  | secOwnerWrite r n own => exact Kept.of_execSecOwnerWrite r n own hk
  | mainSupplyValid => exact Kept.of_execMainSupplyValid hk
  | brownOut => exact Kept.of_execBrownOut hk
  | resetPin => exact Kept.of_execResetPin hk
  | kindlingStart f => exact Kept.of_execKindlingStart f hk
  | kindlingEnd => exact Kept.of_execKindlingEnd hk
  | powerFail src => exact Kept.of_execPowerFail src hk
  | pfRecovered => exact Kept.of_execPfRecovered hk
  | pfCommitsDone => exact Kept.of_execPfCommitsDone hk
  | bankDeepStage => exact Kept.of_execBankDeepStage hk
  | wakePin => exact Kept.of_execWakePin hk
  | perstRise => exact Kept.of_execPerstRise hk
  | rakeEnd f => exact Kept.of_execRakeEnd f hk
  | emberAlarm => exact Kept.of_execEmberAlarm hk
  | emberHalt r v => exact Kept.of_execEmberHalt r v hk
  | emberTickSet r hi => exact Kept.of_execEmberTickSet r hi hk
  | emberAlarmSet r hi => exact Kept.of_execEmberAlarmSet r hi hk
  | oscFail => exact Kept.of_execOscFail hk
  | emberPor => exact Kept.of_execEmberPor hk
  | vbakMeasure mv => exact Kept.of_execVbakMeasure mv hk
  | emberUnlock => exact Kept.of_execEmberUnlock hk
  | clockLoss => exact Kept.of_execClockLoss hk
  | clockRestored => exact Kept.of_execClockRestored hk
  | fgdConfigWrite r g v => exact Kept.of_execFgdConfigWrite r g v hk
  | fgdService r v => exact Kept.of_execFgdService r v hk
  | guardExpiry g => exact Kept.of_execGuardExpiry g hk
  | hardTimerExpiry => exact Kept.of_execHardTimerExpiry hk
  | sweepRequest r v => exact Kept.of_execSweepRequest r v hk
  | sweepTestDone pass signature => exact Kept.of_execSweepTestDone pass signature hk
  | pokerId => exact Kept.of_execPokerId hk
  | pokerSelect core => exact Kept.of_execPokerSelect core hk
  | pokerRead n => exact Kept.of_execPokerRead n hk
  | pokerWrite n w => exact Kept.of_execPokerWrite n w hk
  | pokerHalt => exact Kept.of_execPokerHalt hk
  | coreHaltTaken c => exact Kept.of_execCoreHaltTaken c hk
  | pokerResume => exact Kept.of_execPokerResume hk
  | pokerInject w => exact Kept.of_execPokerInject w hk
  | pokerChallenge => exact Kept.of_execPokerChallenge hk
  | pokerResponse w => exact Kept.of_execPokerResponse w hk
  | pokerDeauth => exact Kept.of_execPokerDeauth hk
  | pokerAuthLockoutEnd => exact Kept.of_execPokerAuthLockoutEnd hk
  | pokerSandbox => exact Kept.of_execPokerSandbox hk
  | pokerSandboxEnd => exact Kept.of_execPokerSandboxEnd hk
  | mailboxDoorbell m b tag => exact Kept.of_execMailboxDoorbell m b tag hk
  | mailboxBlockDone m => exact Kept.of_execMailboxBlockDone m hk
  | mailboxReply m data => exact Kept.of_execMailboxReply m data hk
  | mailboxAck m => exact Kept.of_execMailboxAck m hk
  | pciSwInt r v => exact Kept.of_execPciSwInt r v hk
  | pciSwClear r v => exact Kept.of_execPciSwClear r v hk
  | pcieDlActive speed width => exact Kept.of_execPcieDlActive speed width hk
  | pcieLinkDown => exact Kept.of_execPcieLinkDown hk
  | ident tag => exact Kept.of_execIdent tag hk
  | regRead tag page off => exact Kept.of_execRegRead tag page off hk
  | regWrite tag page off v => exact Kept.of_execRegWrite tag page off v hk
  | imageRead tag off count => exact Kept.of_execImageRead tag off count hk
  | imageWrite tag off slots => exact Kept.of_execImageWrite tag off slots hk
  | uartBlock tag b => exact Kept.of_execUartBlock tag b hk
  | logRead tag off len => exact Kept.of_execLogRead tag off len hk
  | ownerWrite r page v => exact Kept.of_execOwnerWrite r page v hk
  | secLsSplitWrite r v => exact Kept.of_execSecLsSplitWrite r v hk
  | secDramRangeWrite r limit v => exact Kept.of_execSecDramRangeWrite r limit v hk
  | tenRomExit r v => exact Kept.of_execTenRomExit r v hk
  | programOemSlot r arg => exact Kept.of_execProgramOemSlot r arg hk
  | revokeOemSlot r arg => exact Kept.of_execRevokeOemSlot r arg hk
  | blowOemCosign r => exact Kept.of_execBlowOemCosign r hk
  | setDebugKey r arg => exact Kept.of_execSetDebugKey r arg hk
  | advanceAntiRollback r arg target => exact Kept.of_execAdvanceAntiRollback r arg target hk
  | fuseDone programmed => exact Kept.of_execFuseDone programmed hk
  | rlnBegin r => exact Kept.of_execRlnBegin r hk
  | rlnFinalize r => exact Kept.of_execRlnFinalize r hk
  | rlnCheckDone => exact Kept.of_execRlnCheckDone hk
  | rlnActivate r => exact Kept.of_execRlnActivate r hk
  | rlnAbort r => exact Kept.of_execRlnAbort r hk
  | rlnSlotWritten m => exact Kept.of_execRlnSlotWritten m hk
  | componentStarted comp => exact Kept.of_execComponentStarted comp hk
  | componentStartTimeout comp => exact Kept.of_execComponentStartTimeout comp hk
  | illegalOpcode c w => exact Kept.of_execIllegalOpcode c w hk
  | granuleCopyRequest granule => exact Kept.of_execGranuleCopyRequest granule hk
  | erairCellCrcError c => exact Kept.of_execErairCellCrcError c hk
  | hobBusError p inc => exact Kept.of_execHobBusError p inc hk
  | ptpEventMessage x message => exact Kept.of_execPtpEventMessage x message hk
  | ethFrameDiscard x why => exact Kept.of_execEthFrameDiscard x why hk
  | hostAccessDiscard write page off size => exact Kept.of_execHostAccessDiscard write page off size hk
  | perstFall => exact Kept.of_execPerstFall hk
  | legacyTlsHandshake station tls13 outcome => exact Kept.of_execLegacyTlsHandshake station tls13 outcome hk
  | legacyConnectionLost station => exact Kept.of_execLegacyConnectionLost station hk
  | legacyT0Timeout station => exact Kept.of_execLegacyT0Timeout station hk
  | legacyT2Timeout station => exact Kept.of_execLegacyT2Timeout station hk

/-- A command goes on to a next state: it neither faults nor is refused. -/
def Answers (r : Result) : Prop := ∃ t, r = .next t

theorem Answers.next (t : State) : Answers (.next t) := ⟨t, rfl⟩

theorem Answers.ite {c : Prop} [Decidable c] {a b : Result} (ha : Answers a) (hb : Answers b) :
    Answers (if c then a else b) := by
  split
  · exact ha
  · exact hb

/-- Every branch of every command's meaning ends in a next state: most meanings are one next state, some test once or twice,
the others branch on what they look up. -/
theorem exec_answers (c : Instr) (s : State) : Answers (exec c s) := by
  cases c
  case resilverDone | hostImageRead | hostImageWrite | settleEnd | scrubRead | intakeComplete | solveEnd | outlayEnd |
    mirrorHandover | armMessage | armAckTimeout | disarmMessage | hobImageFrame | hobAckFrame | hobEventFrame |
    hobForeignFrame | hobPeerFrame | hobStationWakeFrame | hobSleepVote | hobRefGuard | hobBusOff |
    hobBusOffRecovery | hobQuietWindowEnd | hobBusWake | hobPortRestarted | hobSequencerFault | heartbeatTimer |
    erairHeartbeat | erairLinkUp | erairRecord | ackTimeout | timeOkTimeout | listenTimeout | handover |
    aliveOutToggle | lineDead | witnessProbeTimer | witnessDead | claimNoticeTimer | release | grateInputChange |
    grateRetry | grateFaultClear | granuleCopyRequest | erairCellCrcError | dtlsKeyUpdate | hobBackoffEnd =>
    exact .ite (.next _) (.next _)
  case dramChannelFault | erairLoss | partnerAliveEdge | laneRetrainDone | grateSupplyChange | hobGroupWake =>
    exact .ite (.next _) (.ite (.next _) (.next _))
  case hobBusError | copyCell | hobVoteEnd =>
    exact .ite (.ite (.next _) (.next _)) (.next _)
  case syncDone => exact .ite (.next _) (.ite (.next _) (.ite (.next _) (.next _)))
  case tierOpen | verifyDone | versionMessage | tierToken | armAcknowledge | draughtBind | draughtIntake | draughtAck |
    draughtEvent | outlayRepeat | holdRepeat | legacyConnect | legacyRetry | legacyKeyRenewal | legacyApdu |
    legacyActcon | legacyActterm | legacyTestFrame | legacyT1Timeout | legacyInterrogationTimer |
    legacyClockSyncTimer | hobFrameSent | hobTxFailed | hobReferenceLaunch | hobReferenceLost | erairAck |
    recordResendTimeout | syncStart | swapPoint | swapDemote | legacyTlsHandshake | legacyConnectionLost |
    legacyT0Timeout | legacyT2Timeout =>
    dsimp only [exec, execTierOpen, execVerifyDone, execVersionMessage, execTierToken, execArmAcknowledge, execDraughtBind,
      execDraughtIntake, execDraughtAck, execDraughtEvent, execOutlayRepeat, execHoldRepeat, execLegacyConnect,
      execLegacyRetry, execLegacyKeyRenewal, execLegacyApdu, execLegacyActcon, execLegacyActterm,
      execLegacyTestFrame, execLegacyT1Timeout, execLegacyInterrogationTimer, execLegacyClockSyncTimer,
      execHobFrameSent, execHobTxFailed, execHobReferenceLaunch, execHobReferenceLost, execErairAck,
      execRecordResendTimeout, execSyncStart, execSwapPoint, execSwapDemote, execLegacyTlsHandshake,
      execLegacyConnectionLost, execLegacyT0Timeout, execLegacyT2Timeout]
    repeat' first
      | exact .next _
      | refine .ite ?_ ?_
      | split
  all_goals exact .next _

theorem exec_next_pending (c : Instr) (s : State) : ∃ t, exec c s = .next t ∧ t.pending = s.pending := by
  obtain ⟨t, ht⟩ := exec_answers c s
  exact ⟨t, ht, (exec_keptR c s t ht).pending⟩

/-- Settles O2: every branch of a meaning is a next state, and no operation of the model touches the queue. -/
theorem everyCommandAnswersANextState : Obligations.EveryCommandAnswersANextState := by
  unfold Obligations.EveryCommandAnswersANextState
  exact ⟨exec_next_pending, fun c rest s => exec_next_pending c { s with pending := rest }⟩

/-- Settles O1: a step is by definition its front command on the queue's rest, or a tick. -/
theorem stepTakesTheFrontCommand : Obligations.StepTakesTheFrontCommand := by
  unfold Obligations.StepTakesTheFrontCommand
  refine ⟨fun _ _ _ => rfl, fun s hs => ?_⟩
  unfold step
  rw [hs]

/-! Register writes: what carries them, who may make them, where they go -/

@[simp] theorem State.setLink_regs (s : State) (i : Nat) (l : Link) : (s.setLink i l).regs = s.regs := by
  unfold State.setLink; split <;> rfl

@[simp] theorem State.setLink_fit (s : State) (i : Nat) (l : Link) : (s.setLink i l).fit = s.fit := by
  unfold State.setLink; split <;> rfl

@[simp] theorem State.flueIssue_regs (s : State) (p : Packet) : (s.flueIssue p).regs = s.regs := by
  unfold State.flueIssue; dsimp only [State.fluePost]; repeat' split
  all_goals simp

@[simp] theorem State.flueIssue_fit (s : State) (p : Packet) : (s.flueIssue p).fit = s.fit := by
  unfold State.flueIssue; dsimp only [State.fluePost]; repeat' split
  all_goals simp

/-- What every step of a fold keeps, the fold keeps. -/
theorem foldl_keeps {α β γ : Type} (p : α → γ) (f : α → β → α) (h : ∀ a b, p (f a b) = p a) (l : List β) (a : α) :
    p (l.foldl f a) = p a :=
  (List.foldl_hom p (g₂ := fun c _ => c) fun a b => (h a b).symm).symm.trans (List.foldl_fixed l)

@[simp] theorem State.flueSend_regs (s : State) (src : Nat) (ch : Channel4) (k : PacketKind) (a : Nat) (ws : List W36) :
    (s.flueSend src ch k a ws).regs = s.regs :=
  foldl_keeps State.regs _ (fun _ _ => State.flueIssue_regs _ _) _ s

@[simp] theorem State.flueSend_fit (s : State) (src : Nat) (ch : Channel4) (k : PacketKind) (a : Nat) (ws : List W36) :
    (s.flueSend src ch k a ws).fit = s.fit :=
  foldl_keeps State.fit _ (fun _ _ => State.flueIssue_fit _ _) _ s

@[simp] theorem State.hostCarries_regs (s : State) (r : Requester) (page off : Nat) (v : W32) :
    (s.hostCarries r page off v).regs = s.regs := by
  unfold State.hostCarries; split <;> simp

@[simp] theorem State.hostCarries_fit (s : State) (r : Requester) (page off : Nat) (v : W32) :
    (s.hostCarries r page off v).fit = s.fit := by
  unfold State.hostCarries; split <;> simp

theorem State.hostCarries_inside (s : State) {r : Requester} (h : r ≠ .host) (page off : Nat) (v : W32) :
    s.hostCarries r page off v = s := if_neg h

@[simp] theorem State.fld_hostCarries (s : State) (r : Requester) (page off : Nat) (v : W32) (f : Fld) :
    (s.hostCarries r page off v).fld f = s.fld f := by simp [State.fld]

@[simp] theorem State.bit_hostCarries (s : State) (r : Requester) (page off : Nat) (v : W32) (f : Fld) :
    (s.hostCarries r page off v).bit f = s.bit f := by simp [State.bit]

/-- Whether registers answer `r`, and whether it may write a page, is in the registers and in what is fitted. -/
theorem State.access_congr {s t : State} (hr : t.regs = s.regs) (hf : t.fit = s.fit) (r : Requester) (page : Nat) :
    t.answers r = s.answers r ∧ t.mayWrite r page = s.mayWrite r page := by
  cases s; cases t; cases hr; cases hf
  exact ⟨rfl, rfl⟩

@[simp] theorem State.answers_hostCarries (s : State) (r q : Requester) (page off : Nat) (v : W32) :
    (s.hostCarries r page off v).answers q = s.answers q := (State.access_congr (by simp) (by simp) q 0).1

@[simp] theorem State.mayWrite_hostCarries (s : State) (r q : Requester) (page off p : Nat) (v : W32) :
    (s.hostCarries r page off v).mayWrite q p = s.mayWrite q p := (State.access_congr (by simp) (by simp) q p).2

/-- The pages of the map lie below those that name BAR4 and the configuration space (R480; log 153). -/
theorem barPage_of_pageAssigned {p : Nat} (h : pageAssigned p = true) : barPage p = false := by
  by_contra hb
  have hp : 0x400 ≤ p := by simp [barPage] at hb; omega
  have hn : pageTag p = none := by
    unfold pageTag
    repeat rw [if_neg (by omega)]
  simp [pageAssigned, hn] at h

theorem State.answers_of_mainUp {s : State} {r : Requester} (h : s.mainUp = true) (hr : r ≠ .host) :
    s.answers r = true := by simpa [State.answers, hr] using h

theorem State.answers_host_of_hostUp {s : State} (h : s.hostUp = true) : s.answers .host = true := h

/-- A write of an assigned page's register beside ID and OWNER goes through the access check (R10, R482). -/
theorem State.regWrite_assigned {s : State} {r : Requester} {page off : Nat} (ha : s.answers r = true)
    (hp : pageAssigned page = true) (h0 : off ≠ 0x000) (hO : off ≠ 0x01C) (v : W32) :
    s.regWrite r page off v =
      (s.hostCarries r page off v).writeAs r page off fun t => t.openWrite r page off v := by
  simp [State.regWrite, ha, barPage_of_pageAssigned hp, hp, h0, hO]

/-- A write of a page that the map does not assign (R12). -/
theorem State.regWrite_unassigned {s : State} {r : Requester} {page : Nat} (ha : s.answers r = true)
    (hb : r = .host → barPage page = false) (hp : pageAssigned page = false) (off : Nat) (v : W32) :
    s.regWrite r page off v = s.unassignedWrite r page off := by
  have hn : ¬(r = .host ∧ barPage page = true) := fun h => by simp [hb h.1] at h
  simp [State.regWrite, ha, hn, hp]

/-! Accesses that R482 refuses -/

theorem State.writeAs_host_refused {s : State} {page : Nat} (ha : s.answers .host = true)
    (h : s.bit (Reg.ownerHostW page) = false) (off : Nat) (k : State → State) :
    s.writeAs .host page off k = s.ownerDiscard page off := by simp [State.writeAs, ha, h]

theorem State.writeAs_normal_refused {s : State} {page : Nat} (ha : s.answers .tenderNormal = true)
    (h : s.bit (Reg.ownerWorld page) = true) (off : Nat) (k : State → State) :
    s.writeAs .tenderNormal page off k = s.worldFault 0x05 page off := by simp [State.writeAs, ha, h]

theorem State.writeAs_uart_refused {s : State} {page : Nat} (ha : s.answers .uart = true)
    (h : s.bit (Reg.ownerHostW page) = false ∨ s.svcLevel ≠ 2) (off : Nat) (k : State → State) :
    s.writeAs .uart page off k = s.uartDiscard := by
  have hn : ¬(s.bit (Reg.ownerHostW page) = true ∧ s.svcLevel = 2) := by
    rintro ⟨hw, hl⟩; simp [hw, hl] at h
  simp [State.writeAs, ha, hn]

/-- OWNER takes no write from outside the secure world, nor once it is locked (R481). -/
theorem State.ownerWrite_refused {s : State} {r : Requester} {page : Nat}
    (h : r ≠ .tenderSecure ∨ s.bit (Reg.ownerLock page) = true) (v : Nat) : s.ownerWrite r page v = s := by
  unfold State.ownerWrite
  exact if_pos (h.imp id .inl)

/-! Core accesses to a page that the map does not assign (R12, R81) -/

/-- A single word lies wholly where its address lies. -/
theorem whole_one (p : Nat → Bool) (a : W36) : whole p a 1 = p a.toNat := by
  have h := a.isLt
  simp [whole, List.range_one]; omega

theorem State.pageWordOk_unassigned (s : State) (secure load : Bool) {a : Nat} (h : pageAssigned (pageOf a) = false) :
    s.pageWordOk secure load a = false := by simp [State.pageWordOk, h]

/-- The register pages are no part of local store, of the Hearth or of DRAM (R81). -/
theorem isPage_elsewhere {a : Nat} (h : isPage a = true) :
    ¬a < lsSize ∧ isHearth a = false ∧ ∀ s : State, s.dramOk a = false := by
  obtain ⟨hlo, hhi⟩ : 0x8000000 ≤ a ∧ a < 0x8100000 := by simpa [isPage] using h
  refine ⟨by unfold lsSize; omega, by simp [isHearth]; omega, fun s => ?_⟩
  have hd : ¬dramBase ≤ a := by unfold dramBase; omega
  simp [State.dramOk, hd]

theorem State.loadSpace_unassigned (s : State) (c : CoreId) {a : W36} (hp : isPage a.toNat = true)
    (hu : pageAssigned (pageOf a.toNat) = false) : s.loadSpace c a 1 = none := by
  obtain ⟨hls, hh, hd⟩ := isPage_elsewhere hp
  cases c with
  | engine e =>
    simp [State.loadSpace, State.engineHearth, State.engineDram, oneRegion, whole_one, State.inWindow,
      State.pageWordOk_unassigned _ _ _ hu, hls, hh, hd]
  | tender =>
    simp [State.loadSpace, State.tenderLs, State.worldLs, State.worldDram, oneRegion, whole_one,
      State.pageWordOk_unassigned _ _ _ hu, hls, hh, hd]

theorem State.storeSpace_unassigned (s : State) (c : CoreId) {a : W36} (hp : isPage a.toNat = true)
    (hu : pageAssigned (pageOf a.toNat) = false) : s.storeSpace c a 1 = none := by
  obtain ⟨hls, hh, hd⟩ := isPage_elsewhere hp
  cases c with
  | engine e =>
    have hw : s.engineWindow e.val a 1 = false := by
      unfold State.engineWindow; split <;> simp [oneRegion, whole_one, hh]
    simp [State.storeSpace, State.lsWritable, whole_one, hw, hls]
  | tender =>
    simp [State.storeSpace, State.lsWritable, State.worldLs, State.worldDram, oneRegion, whole_one,
      State.pageWordOk_unassigned _ _ _ hu, hls, hh, hd]

/-- Settles O11: each refusal is a case of the access check, which no register's operation can pass. -/
theorem refusedAccessesChangeNothingElse : Obligations.RefusedAccessesChangeNothingElse := by
  unfold Obligations.RefusedAccessesChangeNothingElse
  refine ⟨fun s page off v hu h hw => ?_, fun s page off v h hw => ?_, fun s page off v h hw => ?_,
    fun s page off v hu hp hlt => ?_, fun s r page off v hm hp hr => ?_, fun s r page v hm hp hr => ?_,
    fun s c a hp hu => ⟨s.loadSpace_unassigned c hp hu, s.storeSpace_unassigned c hp hu⟩⟩
  · obtain ⟨-, hp, h0, hO⟩ := h
    have ha := State.answers_host_of_hostUp hu
    refine congrArg Host.Outcome.next ((State.regWrite_assigned ha hp h0 hO v).trans ?_)
    exact State.writeAs_host_refused (by simpa using ha) (by simpa using hw) _ _
  · obtain ⟨hm, hp, h0, hO⟩ := h
    have hn : Requester.tenderNormal ≠ .host := by decide
    have ha := State.answers_of_mainUp hm hn
    refine congrArg Host.Outcome.next ((State.regWrite_assigned ha hp h0 hO v).trans ?_)
    rw [State.hostCarries_inside s hn, State.writeAs_normal_refused ha hw]
  · obtain ⟨hm, hp, h0, hO⟩ := h
    have hn : Requester.uart ≠ .host := by decide
    have ha := State.answers_of_mainUp hm hn
    refine congrArg Host.Outcome.next ((State.regWrite_assigned ha hp h0 hO v).trans ?_)
    rw [State.hostCarries_inside s hn, State.writeAs_uart_refused ha hw]
  · have hb : barPage page = false := by simp [barPage]; omega
    exact congrArg Host.Outcome.next
      (State.regWrite_unassigned (State.answers_host_of_hostUp hu) (fun _ => hb) hp off v)
  · have hn : r ≠ .host := by rintro rfl; simp at hr
    refine congrArg Host.Outcome.next
      ((State.regWrite_unassigned (State.answers_of_mainUp hm hn) (absurd · hn) hp off v).trans ?_)
    obtain rfl | rfl := hr <;> rfl
  · refine congrArg Host.Outcome.next ?_
    simp [hp, State.ownerWrite_refused hr]

/-! Event bits: a write of 1 clears, and no field holds more than its width -/

/-- A message about an interrupt leaves every register field. -/
@[simp] theorem State.fld_recheck (s : State) (v : Nat) (f : Fld) : (s.recheck v).fld f = s.fld f := by
  unfold State.recheck State.message State.msixSend
  repeat' split
  all_goals rfl

theorem State.fld_recheckPage (s : State) (page : Nat) (f : Fld) : (s.recheckPage page).fld f = s.fld f := by
  unfold State.recheckPage
  split
  · exact State.fld_recheck _ _ _
  · rfl

theorem State.fld_writeField_w1c (s : State) (r : Requester) (fresh : Bool) (f : Fld) (word : Nat) :
    (s.writeField r fresh ⟨f, .w1c⟩ word).fld f = (s.fld f - (s.fld f &&& bitsOf word f.lo f.width)) % 2 ^ f.width :=
  State.fld_setFld_same _ _ _

/-- Writes of other write-1-to-clear fields leave a field. -/
theorem State.fld_writeFields_w1c_other {g : Fld} (r : Requester) (fresh : Bool) (word : Nat) :
    ∀ (l : List RegField) (s : State), (∀ rf ∈ l, rf.ty = .w1c ∧ g.key ≠ rf.fld.key) →
      (l.foldl (fun t rf => t.writeField r fresh rf word) s).fld g = s.fld g
  | [], _, _ => rfl
  | ⟨f, ty⟩ :: l, s, h => by
    obtain ⟨⟨rfl, hk⟩, hl⟩ := List.forall_mem_cons.mp h
    exact (State.fld_writeFields_w1c_other r fresh word l _ hl).trans (State.fld_setFld_other s _ hk)

theorem State.fld_foldl_clear_other {g : Fld} :
    ∀ (l : List RegField) (s : State), (∀ rf ∈ l, g.key ≠ rf.fld.key) →
      (l.foldl (fun t rf => t.setFld rf.fld 0) s).fld g = s.fld g
  | [], _, _ => rfl
  | _ :: l, s, h => by
    obtain ⟨hk, hl⟩ := List.forall_mem_cons.mp h
    exact (State.fld_foldl_clear_other l _ hl).trans (State.fld_setFld_other s _ hk)

theorem State.fld_clearCapture_other (s : State) {page : Nat} {g : Fld} (h : ∀ rf ∈ regFields page 0x018, g.key ≠ rf.fld.key) :
    (s.clearCapture page).fld g = s.fld g := by
  unfold State.clearCapture
  split
  · exact State.fld_foldl_clear_other _ s h
  · rfl

/-- The fields of HRT_EVENT: CORRECTED, and other write-1-to-clear bits (R138). -/
theorem regFields_hrtEvent : ∃ l, regFields 0x014 0x010 = ⟨Reg.hrtEventCorrected, .w1c⟩ :: l ∧
    ∀ rf ∈ l, rf.ty = .w1c ∧ Reg.hrtEventCorrected.key ≠ rf.fld.key := ⟨_, rfl, by decide⟩

/-- No field of HRT_EVENT locks. -/
theorem State.writeFields_hrtEvent (s : State) (r : Requester) (word : Nat) :
    s.writeFields r 0x014 0x010 word = (regFields 0x014 0x010).foldl (fun t f => t.writeField r false f word) s := by
  have hn : ((regFields 0x014 0x010).any fun f => decide (f.ty = .rwl)) = false := by decide
  have hf : s.rwlFresh r 0x014 0x010 = false := by simp [State.rwlFresh, hn]
  simp [State.writeFields, hf]

/-- A write of HRT_EVENT clears bits, then what was captured of them, and checks the interrupt again (R9, R10, R485). -/
theorem State.openWrite_hrtEvent (s : State) (r : Requester) (v : W32) :
    s.openWrite r 0x014 0x010 v = ((s.writeFields r 0x014 0x010 v.toNat).clearCapture 0x014).recheckPage 0x014 := rfl

/-- A write of HRT_EVENT leaves CORRECTED without the bits written as 1, and without what lies beyond its one bit (R10, R138). -/
theorem State.fld_regWrite_hrtEvent {s : State} {r : Requester} (h : s.mayWrite r 0x014 = true) (v : W32) :
    (s.regWrite r 0x014 0x010 v).fld Reg.hrtEventCorrected =
      (s.fld Reg.hrtEventCorrected - (s.fld Reg.hrtEventCorrected &&& bitsOf v.toNat 0 1)) % 2 := by
  have ha : s.answers r = true := by simp only [State.mayWrite, Bool.and_eq_true] at h; exact h.1.1
  have hc : ∀ rf ∈ regFields 0x014 0x018, Reg.hrtEventCorrected.key ≠ rf.fld.key := by decide
  obtain ⟨l, hl, ho⟩ := regFields_hrtEvent
  rw [State.regWrite_assigned ha (by decide) (by decide) (by decide), State.writeAs_mayWrite (by simpa using h),
    State.openWrite_hrtEvent, State.fld_recheckPage, State.fld_clearCapture_other _ hc, State.writeFields_hrtEvent, hl,
    List.foldl_cons, State.fld_writeFields_w1c_other _ _ _ _ _ ho, State.fld_writeField_w1c, State.fld_hostCarries]
  rfl

/-- Right after reset but for CORRECTED, a field of one bit, whose cell in the register file holds 2. -/
def wideCorrected : State := { State.reset with regs := [(Reg.hrtEventCorrected.key, 2)] }

/-- Refutes O60: over a register file in which the one-bit field CORRECTED of HRT_EVENT holds 2, a write of 0 leaves 0 in the
field, as every write drops what lies beyond the field's width, where the statement asks for 2. -/
theorem not_registerWritesActOnceOpen : ¬ Obligations.RegisterWritesActOnceOpen := by
  unfold Obligations.RegisterWritesActOnceOpen
  rintro ⟨-, -, -, -, -, -, h, -⟩
  have hm : wideCorrected.mayWrite .tenderSecure 0x014 = true := by decide
  have hw : wideCorrected.fld Reg.hrtEventCorrected = 2 := by decide
  obtain ⟨t, ht, he⟩ := h .tenderSecure 0 wideCorrected hm
  have hl := State.fld_regWrite_hrtEvent hm 0
  rw [show wideCorrected.regWrite .tenderSecure 0x014 0x010 0 = t from Host.Outcome.next.inj ht, he, hw] at hl
  exact absurd hl (by decide)

/-! Host accesses and mailboxes -/

/-- A block of kind 1 or 2 goes to the edit machine or to Relining, and no message to a world (R487). -/
theorem State.deliverBlock_of_package (s : State) {b : Block} (hk : b.kind < 3) (hc : blockCheck b = 0) (f g : State → State) :
    s.deliverBlock b f = s.deliverBlock b g := by
  have hk0 : ¬(b.kind = 0 ∨ 4 < b.kind) := fun h => by simp [blockCheck, h] at hc
  obtain h1 | h2 : b.kind = 1 ∨ b.kind = 2 := by omega
  · simp [State.deliverBlock, hc, h1]
  · simp [State.deliverBlock, hc, h2]

/-- A block of kind 3 or 4 is a message to a world, which its mailbox holds (R487). -/
theorem State.deliverBlock_of_message (s : State) {b : Block} (hk : 3 ≤ b.kind) (hc : blockCheck b = 0) (f : State → State) :
    s.deliverBlock b f = (0, f s) := by
  have h1 : b.kind ≠ 1 := by omega
  have h2 : b.kind ≠ 2 := by omega
  simp [State.deliverBlock, hc, h1, h2]

/-- Settles O56: each command's condition selects the branch that carries it out. -/
theorem hostInterfaceCommandsComplete : Obligations.HostInterfaceCommandsComplete := by
  unfold Obligations.HostInterfaceCommandsComplete
  refine ⟨fun s write page off hu hp hlt => ?_, fun s write page off size hu hb hs => ?_,
    fun s write page off hu hb ho hp hf => ?_, fun s page off hu hb ho hp hf => ?_, fun s page off size hu hb => ?_,
    fun s m b tag hu hs => ?_, fun s m b tag hu hs hc hk => ?_, fun s m b tag hu hs hc hk hd => ?_,
    fun s m rest ho => ?_, fun s m data hw => ?_, fun s m hu hs => ?_, fun s r v hw => ?_, fun s r v hw => ?_,
    fun s speed width hu hp => ?_, fun s hd => ?_, fun s hp => ?_⟩ <;> refine congrArg Host.Outcome.next ?_
  · simp [hu, hp, hlt, State.hostUnassigned]
  · simp [hu, hb, State.hostAccess, hs]
  · simp [hu, hb, State.hostAccess, ho, hp, hf]
  · simp [hu, hb, State.hostAccess, ho, hp, hf, State.hostRegister]
  · simp [hu, hb]
  · simp [hu, hs]
  · simp [hu, hs, hk, State.deliverBlock_of_message s hk hc]
  · simp [hu, hs, hk, State.deliverBlock_of_package s hk hc _ id, hd]
  · simp [ho, State.mailbox]
  · simp [hw]
  · simp [hu, hs]
  · exact State.writeAs_mayWrite hw _ _
  · exact State.writeAs_mayWrite hw _ _
  · simp [hu, hp]
  · exact if_pos hd
  · exact if_pos hp

end Sys2Proof.Machine

namespace Sys2Proof.Machine

/-! Loads that return, and what the Tender takes once its loads have landed -/

/-- A load that is correctable writes its registers (R73, R75). -/
theorem State.landOne_good (s : State) (c : CoreId) {l : Load} (h : l.bad = false) (rest : List Load) :
    s.landOne c l rest =
      (none, (s.mapCore c fun x => { x.answers .load l.addr with loads := rest }).mapCore c fun x => x.setRegs l.dests) := by
  simp [State.landOne, h]

/-- A load that is uncorrectable delivers nothing and raises its exception (R88, R132). -/
theorem State.landOne_bad (s : State) (c : CoreId) {l : Load} (h : l.bad = true) (rest : List Load) :
    s.landOne c l rest =
      (some l.trap, (s.mapCore c fun x => { x.answers .load l.addr with loads := rest }).loadBad c l) := by
  simp [State.landOne, h]

section
variable {s t : State} {c : CoreId} {i : Nat} {l : Load} (hp : s.pick (s.loadNext (coreKey c)) = (some i, t))
  (hl : (t.at c).loads[i]? = some l)
include hp hl

/-- The load picked writes its registers where its data is correctable (R73, R75). -/
theorem State.loadReturns_good {unc : Bool} (hb : l.bad = false) (h : l.spoiled unc = false) :
    s.loadReturns c unc =
      (t.mapCore c fun x => { x.answers .load l.addr with loads := (t.at c).loads.eraseIdx i }).mapCore c fun x =>
        x.setRegs l.dests := by
  simp only [State.loadReturns, hp, hl, h, hb, Bool.or_false, State.landOne_good]
  rfl

/-- The load picked raises UNCORRECTABLE where its data was uncorrectable when it was read (R75, R88). -/
theorem State.loadReturns_bad {unc : Bool} (hb : l.bad = true) (h : l.spoiled unc = false) :
    s.loadReturns c unc =
      ((t.mapCore c fun x => { x.answers .load l.addr with loads := (t.at c).loads.eraseIdx i }).loadBad c l).take c l.trap := by
  have he : { l with bad := true } = l := by rw [← hb]
  simp only [State.loadReturns, hp, hl, h, hb, Bool.or_false, State.landOne_bad, he]
  rfl

/-- The load picked lands as an uncorrectable one, and DRAM words that it read stay so (R87, R88). -/
theorem State.loadReturns_spoiled {unc : Bool} (h : l.spoiled unc = true) :
    s.loadReturns c unc =
      (((t.spoilDram (l.covers.filterMap (t.dramOf c))).mapCore c fun x =>
        { x.answers .load l.addr with loads := (t.at c).loads.eraseIdx i }).loadBad c { l with bad := true }).take c l.trap := by
  simp only [State.loadReturns, hp, hl, h, Bool.or_true, State.landOne_bad]
  rfl

end

/-- Once no outstanding load is uncorrectable, the Tender takes an interrupt or an NMI itself (R87, R89). -/
theorem State.accept_of_loads_good {s : State} (h : (s.at .tender).loads.all (fun l => !l.bad) = true) (cause : Nat) (secure : Bool)
    (begun : State → State) : s.accept cause secure begun =
      (begun s).tenderTrap ⟨cause, (s.at .tender).pc, (s.at .tender).pc, (s.at .tender).pc, false, false⟩ secure := by
  have hn : (s.at .tender).loads.find? (·.bad) = none := by simpa [List.find?_eq_none] using h
  simp [State.accept, hn]

/-- Settles O31: each event's condition selects the branch that carries it out. -/
theorem coreEventsComplete : Obligations.CoreEventsComplete := by
  unfold Obligations.CoreEventsComplete
  refine ⟨fun s c i t l hp hl hb => ?_, fun s c i t l hp hl ha => ?_, fun s c i t l hp hl hb => ?_, fun s c t hn hd => ?_,
    fun s c t hw hd ht => ?_, fun s hc hw hi => ?_, fun s source w hs hb hie hq hr hl => ?_, fun s hb hn ha hl => ?_,
    fun s hc hu => ?_, fun s e ho hh hr => ?_, fun s c hm hq hh hb hp => ?_⟩ <;> refine congrArg Host.Outcome.next ?_
  · exact State.loadReturns_good hp hl hb rfl
  · exact State.loadReturns_spoiled hp hl (by simp [Load.spoiled, ha])
  · exact State.loadReturns_bad hp hl hb rfl
  · simp [State.storeCompletes, hn, hd]
  · simp [hw, hd, ht]
  · exact if_pos (by simpa [hc, hw] using hi)
  · rw [hs]
    exact (if_pos (by simpa [hb, hie, hq] using hr)).trans (State.accept_of_loads_good hl _ _ _)
  · exact (if_pos (by simp [hb, hn, ha])).trans (State.accept_of_loads_good hl _ _ _)
  · exact if_pos (by simp [hc, hu])
  · exact if_pos (by simp [ho, hh, hr])
  · exact if_pos (by simp [hm, hq, hh, hb, hp])

/-! DRAM channels, and the balances of the Flue -/

/-- A map-out that R38 allows takes its channel out of service. -/
theorem State.mapOutChannels_allowed {s : State} {bits : Nat} (h0 : bits ≠ 0) (h : s.mayMapOut bits = true) :
    s.mapOutChannels bits = s.setChState (bits - 1) 2 := by
  simp [State.mapOutChannels, h0, h]

/-- The RETURN bit of a channel that is mapped out starts its resilvering while mirroring is on (R39). -/
theorem State.returnChannels_single {s : State} {ch : Fin 2} (hm : s.bit Reg.drmConfigMirror = true) (h : s.chState ch.val = 2) :
    s.returnChannels (2 ^ ch.val) = s.setChState ch.val 3 := by
  have hb : ∀ i, bitOf (2 ^ ch.val) i = decide (ch.val = i) := fun _ => Nat.testBit_two_pow
  simp only [State.returnChannels, List.foldl_cons, List.foldl_nil, hb]
  obtain hch | hch : ch.val = 0 ∨ ch.val = 1 := by omega
  · rw [hch] at h ⊢
    simp [hm, h]
  · rw [hch] at h ⊢
    simp [hm, h]

theorem State.flueBalanced_fluePost {s : State} (h : s.flueBalanced = true) (p : Packet) : (s.fluePost p).flueBalanced = true :=
  State.flueBalanced_setLink h (Link.balanced_request p (State.link_balanced h _))

/-- A source that takes a response slot within its number keeps the balances of R48. -/
theorem State.flueBalanced_awaited {s : State} (h : s.flueBalanced = true) (src : Nat) {n : Nat} (hn : n ≤ nodeSlots) :
    ({ s with flue := { s.flue with awaited := Sparse.put s.flue.awaited 0 src n } } : State).flueBalanced = true := by
  simp only [State.flueBalanced, Bool.and_eq_true] at h ⊢
  obtain ⟨hlinks, ha⟩ := h
  exact ⟨hlinks, Sparse.all_put ha (by simpa using hn)⟩

/-- A packet that waits for a response slot is on no link (R24). -/
theorem State.flueBalanced_blocked {s : State} (h : s.flueBalanced = true) (ps : List Packet) :
    ({ s with flue := { s.flue with blocked := ps } } : State).flueBalanced = true := h

theorem State.flueBalanced_flueIssue {s : State} (h : s.flueBalanced = true) (p : Packet) : (s.flueIssue p).flueBalanced = true := by
  unfold State.flueIssue
  dsimp only
  split
  · exact State.flueBalanced_fluePost h p
  · split
    · next hr => exact State.flueBalanced_fluePost (State.flueBalanced_awaited h _ hr.1) p
    · exact State.flueBalanced_blocked h _

/-- A VC0 packet takes all its credits from its own pool (R20). -/
theorem Link.launch_vc0 {l m : Link} {p : Packet} (hc : p.header.channel = .vc0) (h : l.launch p = some m) :
    p.size ≤ l.own .vc0 ∧ m.own .vc0 + p.size = l.own .vc0 ∧ m.shared = l.shared := by
  have hr : p.size - min p.size (l.own .vc0) = 0 := by
    by_contra hn
    simp [Link.launch, hc, hn] at h
  have hle : p.size ≤ l.own .vc0 := by omega
  obtain rfl : _ = m := by simpa [Link.launch, hc, hr] using h
  refine ⟨hle, ?_, rfl⟩
  show l.own .vc0 - min p.size (l.own .vc0) + p.size = l.own .vc0
  omega

/-- Settles O35: each failure's condition selects the branch that carries it out, and every operation on a link keeps its balance. -/
theorem hardwareFailureCommandsComplete : Obligations.HardwareFailureCommandsComplete := by
  unfold Obligations.HardwareFailureCommandsComplete
  refine ⟨fun _ _ _ => rfl, fun s r e v credits hw hv => ?_, fun _ _ _ => rfl, fun s r n v hw hv => ?_, fun _ _ => rfl,
    fun s r v hw h0 hm => ?_, fun s r v ch hw hb hm h2 => ?_, fun s ch h => if_pos h, fun s ch h0 h2 he hs => ?_,
    fun s r x v hw hv => ?_, fun s r p v hw hv => ?_, fun s q hu hq => if_pos (by simp [hu, hq]), fun _ _ => rfl, by decide,
    fun _ q h => State.flueBalanced_flueIssue h q, fun _ p h => Link.balanced_request p h,
    fun _ k a n h => ⟨Link.balanced_answered k a n h, Link.balanced_forget k h⟩, fun _ _ _ hc h => Link.launch_vc0 hc h⟩
  · exact congrArg Host.Outcome.next ((State.writeAs_mayWrite hw _ _).trans (if_pos hv))
  · exact congrArg Host.Outcome.next ((State.writeAs_mayWrite hw _ _).trans (if_pos hv))
  · exact congrArg Host.Outcome.next ((State.writeAs_mayWrite hw _ _).trans (State.mapOutChannels_allowed h0 hm))
  · refine congrArg Host.Outcome.next ((State.writeAs_mayWrite hw _ _).trans ?_)
    rw [hb]
    exact State.returnChannels_single hm h2
  · have hn : (s.bit Reg.drmConfigMirror && decide (s.chState (1 - ch.val) = 1)) = false := by
      obtain h | h := hs <;> simp [h]
    exact (if_neg (by simp [h0, h2, he])).trans (if_neg (by simp [hn]))
  · exact congrArg Host.Outcome.next ((State.writeAs_mayWrite hw _ _).trans (if_pos hv))
  · exact congrArg Host.Outcome.next ((State.writeAs_mayWrite hw _ _).trans (if_pos hv))

end Sys2Proof.Machine

namespace Sys2Proof.Machine

/-! Retirement -/

theorem Core.dbgReg_setDbg_other (x : Core) {n m : Nat} (v : Nat) (h : m ≠ n) : (x.setDbg n v).dbgReg m = x.dbgReg m := by
  simp [Core.setDbg, Core.dbgReg, Sparse.get_put_other _ _ _ _ h]

/-- The core `y` is `x` with other registers of Poker, and with the trace limit of `x` (R467). -/
def Core.Retraced (x y : Core) : Prop := (∃ d, y = { x with dbg := d }) ∧ y.dbgReg 0x25 = x.dbgReg 0x25

theorem Core.Retraced.setDbg {x y : Core} (h : x.Retraced y) {n : Nat} (hn : 0x25 ≠ n) (v : Nat) : x.Retraced (y.setDbg n v) := by
  obtain ⟨⟨d, rfl⟩, hl⟩ := h
  exact ⟨⟨_, rfl⟩, (Core.dbgReg_setDbg_other _ v hn).trans hl⟩

/-- The history of Poker shifted at some of its 7 places (R467). -/
theorem Core.retraced_shift (x : Core) : ∀ (l : List Nat) (y : Core), (∀ i ∈ l, i < 7) → x.Retraced y →
    x.Retraced (l.foldl (fun y i => y.setDbg (0x2F - i) (y.dbgReg (0x2E - i))) y)
  | [], _, _, hy => hy
  | i :: l, y, hl, hy => by
    obtain ⟨hi, hl⟩ := List.forall_mem_cons.mp hl
    exact Core.retraced_shift x l _ hl (hy.setDbg (by omega) _)

theorem Core.retraced_trace (x : Core) (pc : W36) : x.Retraced (x.trace pc) :=
  (((Core.retraced_shift x _ x (by simp) ⟨⟨_, rfl⟩, rfl⟩).setDbg (by decide) _).setDbg (by decide) _).setDbg (by decide) _

/-- A retired core is the core as it was but for its pc, its load-delay slot, its loads' ages and Poker's trace (R467). -/
theorem Core.retired_eq (x : Core) (pc next : W36) (slot : Option (List (Reg × W36))) : ∃ d, x.retired pc next slot =
    { x with
      dbg := d, pc := next, slot := slot.getD [], afterLoad := slot.isSome
      loads := x.loads.map fun l => { l with age := l.age + 1 } } ∧ (x.retired pc next slot).dbgReg 0x25 = x.dbgReg 0x25 := by
  obtain ⟨⟨d, hd⟩, hl⟩ := x.retraced_trace pc
  unfold Core.retired
  rw [hd] at hl ⊢
  exact ⟨d, rfl, hl⟩

@[simp] theorem Core.retired_reg (x : Core) (pc next : W36) (slot : Option (List (Reg × W36))) (q : Reg) :
    (x.retired pc next slot).reg q = x.reg q := by
  obtain ⟨d, h, -⟩ := x.retired_eq pc next slot; rw [h]; rfl

@[simp] theorem Core.retired_psw (x : Core) (pc next : W36) (slot : Option (List (Reg × W36))) :
    (x.retired pc next slot).psw = x.psw := by
  obtain ⟨d, h, -⟩ := x.retired_eq pc next slot; rw [h]

@[simp] theorem Core.retired_sys (x : Core) (pc next : W36) (slot : Option (List (Reg × W36))) :
    (x.retired pc next slot).sys = x.sys := by
  obtain ⟨d, h, -⟩ := x.retired_eq pc next slot; rw [h]

@[simp] theorem Core.retired_ls (x : Core) (pc next : W36) (slot : Option (List (Reg × W36))) :
    (x.retired pc next slot).ls = x.ls := by
  obtain ⟨d, h, -⟩ := x.retired_eq pc next slot; rw [h]

@[simp] theorem Core.retired_stores (x : Core) (pc next : W36) (slot : Option (List (Reg × W36))) :
    (x.retired pc next slot).stores = x.stores := by
  obtain ⟨d, h, -⟩ := x.retired_eq pc next slot; rw [h]

@[simp] theorem Core.retired_link (x : Core) (pc next : W36) (slot : Option (List (Reg × W36))) :
    (x.retired pc next slot).link = x.link := by
  obtain ⟨d, h, -⟩ := x.retired_eq pc next slot; rw [h]

/-- With no trace limit set, an instruction that retires does nothing else (R467). -/
theorem State.retire_untraced {u : State} {c : CoreId} (h : (u.at c).dbgReg 0x25 = 0) (pc next : W36)
    (slot : Option (List (Reg × W36))) : u.retire c pc next slot = u.mapCore c fun x => x.retired pc next slot := by
  obtain ⟨d, -, hl⟩ := (u.at c).retired_eq pc next slot
  simp [State.retire, State.traceLimit, hl, h]

/-! What the fetch and the loads that land before an instruction leave alone -/

theorem State.sameBut_refl (s : State) (c : CoreId) : s.sameBut s c := ⟨fun _ _ => rfl, rfl⟩

theorem State.sameBut_mapCore (s : State) (c : CoreId) (f : Core → Core) : s.sameBut (s.mapCore c f) c :=
  ⟨fun _ hk => State.core_mapCore_other s c f hk, rfl⟩

theorem State.sameBut_trans {s t u : State} {c : CoreId} (h : s.sameBut t c) (k : t.sameBut u c) : s.sameBut u c := by
  obtain ⟨hc, hs⟩ := h
  obtain ⟨kc, kt⟩ := k
  exact ⟨fun n hn => (kc n hn).trans (hc n hn), (congrArg (fun v : State => { v with cores := s.cores }) kt).trans hs⟩

/-- The core `y` is `x` in what no register instruction writes: the PSW and the system registers, local store, the posted stores, and
the trace limit of Poker (R56, R467). -/
structure Core.Framed (x y : Core) : Prop where
  system : x.sameSystem y
  ls : y.ls = x.ls
  stores : y.stores = x.stores
  limit : y.dbgReg 0x25 = x.dbgReg 0x25

/-- From `s` to `t` nothing changes but core `c`, and that within its frame. -/
structure State.Framed (s t : State) (c : CoreId) : Prop where
  others : s.sameBut t c
  core : (s.at c).Framed (t.at c)

theorem State.Framed.refl (s : State) (c : CoreId) : s.Framed s c := ⟨s.sameBut_refl c, ⟨⟨rfl, rfl⟩, rfl, rfl, rfl⟩⟩

theorem Core.Framed.trans {x y z : Core} (h : x.Framed y) (k : y.Framed z) : x.Framed z :=
  ⟨⟨k.system.1.trans h.system.1, k.system.2.trans h.system.2⟩, k.ls.trans h.ls, k.stores.trans h.stores, k.limit.trans h.limit⟩

theorem State.Framed.trans {s t u : State} {c : CoreId} (h : s.Framed t c) (k : t.Framed u c) : s.Framed u c :=
  ⟨State.sameBut_trans h.others k.others, h.core.trans k.core⟩

theorem State.Framed.mapCore {s : State} {c : CoreId} {f : Core → Core} (h : (s.at c).Framed (f (s.at c))) :
    s.Framed (s.mapCore c f) c :=
  ⟨s.sameBut_mapCore c f, by rwa [State.at_mapCore]⟩

theorem Core.setReg_changes (x : Core) (r : Reg) (v : W36) :
    ∃ w m n, x.setReg r v = { x with w := w, secure := m, normal := n } := by
  unfold Core.setReg Core.setBank
  repeat' split
  all_goals exact ⟨_, _, _, rfl⟩

/-- A register write touches the general registers and their banks alone (R56, R57). -/
theorem Core.setRegs_changes : ∀ (ws : List (Reg × W36)) (x : Core),
    ∃ w m n, x.setRegs ws = { x with w := w, secure := m, normal := n }
  | [], x => ⟨x.w, x.secure, x.normal, rfl⟩
  | p :: ws, x => by
    obtain ⟨w, m, n, h⟩ := x.setReg_changes p.1 p.2
    obtain ⟨w', m', n', h'⟩ := Core.setRegs_changes ws (x.setReg p.1 p.2)
    exact ⟨w', m', n', h'.trans (by rw [h])⟩

theorem Core.framed_setRegs (x : Core) (ws : List (Reg × W36)) : x.Framed (x.setRegs ws) := by
  obtain ⟨w, m, n, h⟩ := Core.setRegs_changes ws x
  rw [h]
  exact ⟨⟨rfl, rfl⟩, rfl, rfl, rfl⟩

theorem State.framed_fetched (s : State) (c : CoreId) : s.Framed (s.fetched c) c := by
  unfold State.fetched
  split
  · exact .refl s c
  · exact .mapCore ⟨⟨rfl, rfl⟩, rfl, rfl, rfl⟩

/-- Loads that land without an exception change registers, outstanding loads and the link, of the one core (R72, R75). -/
theorem State.framed_land (c : CoreId) : ∀ (n : Nat) (ls : List Load) (s u : State), s.land c n ls = (none, u) → s.Framed u c
  | 0, ls, s, u, h => by
    rw [State.land_none] at h
    cases h
    exact .refl s c
  | n + 1, [], s, u, h => by
    cases h
    exact .refl s c
  | n + 1, l :: rest, s, u, h => by
    by_cases hb : l.bad = true
    · simp [State.land, State.landOne_bad s c hb] at h
    · simp only [State.land, State.landOne_good s c (Bool.eq_false_iff.mpr hb)] at h
      refine .trans (.mapCore ?_) (.trans (.mapCore (Core.framed_setRegs _ _)) (State.framed_land c n rest _ u h))
      exact ⟨⟨rfl, rfl⟩, rfl, rfl, rfl⟩

/-- Up to the action of an instruction, its fetch and the loads that it waits for keep the core's frame. -/
theorem State.framed_after {s : State} {c : CoreId} {srcs dests : List Reg} (h : s.lands c srcs dests = true) :
    s.Framed (s.after c srcs dests) c :=
  (s.framed_fetched c).trans (State.framed_land c _ _ _ _ (State.waited_of_lands h))

/-- An instruction whose action waits for loads does the rest of it once they have landed. -/
theorem exec_interlock {i : Instr} {s : State} {c : CoreId} {len : Nat} {op : Op} {srcs dests : List Reg} {k : State → Out}
    (hi : exec i s = .next (s.runOp c len op)) (ho : op (s.fetched c) c = (s.fetched c).interlock c srcs dests k)
    (hr : s.ready c len = true) (hl : s.lands c srcs dests = true) :
    exec i s = .next ((k (s.after c srcs dests)).state c (s.at c).pc) := by
  rw [hi, State.runOp_ready hr, ho, State.interlock_lands hl]

/-! Register instructions -/

/-- The instruction `i` computes registers from registers, in the shape `f`, and writes none but the destinations of `f`. -/
def RegWrites (i : Instr) (f : RegForm) : Prop :=
  ∃ g : Core → List (Reg × W36), (∀ x, ∀ p ∈ g x, p.1 ∈ f.dests) ∧ Computes i f.core f.len f.srcs f.dests g

section
variable {i : Instr} {c : CoreId} {len : Nat} {op : Op} {srcs dests : List Reg} (hi : ∀ s, exec i s = .next (s.runOp c len op))
include hi

theorem computes_of_op {g : Core → List (Reg × W36)} (ho : ∀ s, op s c = s.compute c len srcs dests g) :
    Computes i c len srcs dests g := by
  intro s hr hl
  rw [hi, State.runOp_ready hr, ho, State.compute_lands hl]

theorem regWrites_one {d : Reg} {v : Core → W36} (ho : ∀ s, op s c = s.compute c len srcs [d] fun x => [(d, v x)]) :
    RegWrites i ⟨c, len, srcs, [d]⟩ :=
  ⟨_, by simp, computes_of_op hi ho⟩

theorem regWrites_two {d e : Reg} {v w : Core → W36}
    (ho : ∀ s, op s c = s.compute c len srcs [d, e] fun x => [(d, v x), (e, w x)]) : RegWrites i ⟨c, len, srcs, [d, e]⟩ :=
  ⟨_, by simp, computes_of_op hi ho⟩

end

/-- A form under a condition is that form, and the condition holds. -/
theorem of_guard {α : Type} {p : Prop} [Decidable p] {f g : α} (h : (if p then some f else none) = some g) : p ∧ f = g := by
  simpa using h

/-- A shift amount in a register, x = 0 (R148). -/
theorem shiftOk_register {o : OpA} (h : o.x = 0) : shiftOk o = true ∧ shiftSrcs o = [o.a, o.b] := by
  simp [shiftOk, shiftSrcs, shiftLit, h, bitsOf]

/-- A shift amount in x[4:0], x[12] = 1 and x[11:5] = 0 (R148). -/
theorem shiftOk_literal {o : OpA} (h : o.x.toNat / 32 = 128) (hb : o.b = 0) : shiftOk o = true ∧ shiftSrcs o = [o.a] := by
  have ht : o.x.toNat.testBit 12 = true := by simp [Nat.testBit, Nat.shiftRight_eq_div_pow]; omega
  have hz : bitsOf o.x.toNat 5 7 = 0 := by simp [bitsOf]; omega
  simp [shiftOk, shiftSrcs, shiftLit, ht, hz, hb]

/-- An allowed shift computes from the registers that its amount names. -/
theorem regWrites_shift {i : Instr} {c : CoreId} {f : W36 → W36 → Computed} {o : OpA} {srcs : List Reg}
    (hi : ∀ s, exec i s = .next (s.runOp c 1 (opShift f o))) (h : shiftOk o = true ∧ shiftSrcs o = srcs) :
    RegWrites i ⟨c, 1, srcs, [o.d]⟩ := by
  obtain ⟨hok, rfl⟩ := h
  exact regWrites_one hi fun _ => if_neg (by simp [hok])

theorem regWrites_shla {c : CoreId} {o : OpA} {srcs : List Reg} (h : shiftOk o = true ∧ shiftSrcs o = srcs) :
    RegWrites (.shla c o) ⟨c, 1, srcs, [o.d]⟩ := by
  obtain ⟨hok, rfl⟩ := h
  exact regWrites_one (fun _ => rfl) fun _ => if_neg (by simp [hok])

/-- A form that chooses between two operand encodings is one of them. -/
theorem of_two_guards {p q : Prop} [Decidable p] [Decidable q] {f g k : RegForm}
    (h : (if p then some f else if q then some g else none) = some k) : (p ∧ f = k) ∨ (q ∧ g = k) := by
  split at h
  · next hp => exact .inl ⟨hp, by simpa using h⟩
  · exact .inr (of_guard h)

theorem even_iff {r : Reg} : even r = true ↔ r.toNat % 2 = 0 := decide_eq_true_iff

/-- Every register instruction computes, in the shape that `regForm` gives it (R147-R153, R159, R163, R171). -/
theorem regForm_writes {i : Instr} {f : RegForm} (h : regForm i = some f) : RegWrites i f := by
  cases i with
  | add c o | sub c o | mul c o | and_ c o | or_ c o | xor_ c o | min c o | max c o | adds c o | subs c o | addar c o
  | suba c o | ceq c o | cne c o | clt c o | cle c o | cltu c o | cleu c o | fceq c o | fclt c o | fcle c o | fadd c o
  | fsub c o | fmul c o | fdiv c o | fmin c o | fmax c o | qset c o | qmrg c o | qsel c o =>
    obtain ⟨hx, rfl⟩ := of_guard h
    exact regWrites_one (fun _ => rfl) fun _ => if_neg (not_not_intro hx)
  | mulh c o | div c o | rem c o | mulhu c o | divu c o | remu c o =>
    obtain ⟨hx, rfl⟩ := of_guard h
    exact regWrites_one (fun _ => rfl) fun _ => if_neg (not_not_intro (by rw [hx]; rfl))
  | addi c o | andi c o | ori c o | xori c o | adda c o | ceqi c o | clti c o | cgti c o =>
    cases h
    exact regWrites_one (fun _ => rfl) fun _ => rfl
  | liq c o | li c o =>
    obtain ⟨⟨ha, hm⟩, rfl⟩ := of_guard h
    exact regWrites_one (fun _ => rfl) fun _ => if_neg (by simp [ha, hm])
  | shl c o | shr c o | sar c o =>
    obtain ⟨hx, rfl⟩ | ⟨⟨hx, hb⟩, rfl⟩ := of_two_guards h
    · exact regWrites_shift (fun _ => rfl) (shiftOk_register hx)
    · exact regWrites_shift (fun _ => rfl) (shiftOk_literal hx hb)
  | shla c o =>
    obtain ⟨hx, rfl⟩ | ⟨⟨hx, hb⟩, rfl⟩ := of_two_guards h
    · exact regWrites_shla (shiftOk_register hx)
    · exact regWrites_shla (shiftOk_literal hx hb)
  | addp c o | subp c o =>
    obtain ⟨⟨hx, hd, ha, hb⟩, rfl⟩ := of_guard h
    exact regWrites_two (fun _ => rfl) fun _ => if_neg (by simp [hx, even_iff, hd, ha, hb])
  | sel c o =>
    obtain ⟨hx, rfl⟩ := of_guard h
    exact regWrites_one (fun _ => rfl) fun _ => if_neg (by omega)
  | mov c o | fsqrt c o | fabs c o | fneg c o | fcvtif c o | qget c o | qval c o | qgood c o =>
    obtain ⟨⟨hb, hx⟩, rfl⟩ := of_guard h
    exact regWrites_one (fun _ => rfl) fun _ => if_neg (by simp [hb, hx])
  | movp c o =>
    obtain ⟨⟨hb, hx, hd, ha⟩, rfl⟩ := of_guard h
    exact regWrites_two (fun _ => rfl) fun _ => if_neg (by simp [hb, hx, even_iff, hd, ha])
  | fcvtfi c o =>
    obtain ⟨⟨hb, hx⟩, rfl⟩ := of_guard h
    exact regWrites_one (fun _ => rfl) fun _ => if_neg (by simp [hb]; omega)
  | qseti c o | qori c o | qclri c o =>
    obtain ⟨hm, rfl⟩ := of_guard h
    exact regWrites_one (fun _ => rfl) fun _ => if_neg (by omega)
  | tstb c o =>
    obtain ⟨⟨he, hb, hx⟩, rfl⟩ := of_guard h
    exact regWrites_one (fun _ => rfl) fun _ => (if_neg (not_not_intro hb)).trans ((if_pos he).trans (if_neg (by omega)))
  | insb c o =>
    obtain ⟨⟨he, hx⟩, rfl⟩ := of_guard h
    exact regWrites_one (fun _ => rfl) fun _ => (if_pos he).trans (if_neg (by omega))
  | popc c o | ffs c o =>
    obtain ⟨⟨he, hb, hx⟩, rfl⟩ := of_guard h
    exact regWrites_one (fun _ => rfl) fun _ => (if_pos he).trans (if_neg (by simp [hb, hx]))
  | _ => cases h

/-- What the instruction at the pc of `s` leaves when it takes its core's state from `u` and no trace limit is set. -/
theorem State.went_untraced {s u : State} {c : CoreId} (h : (u.at c).dbgReg 0x25 = 0) (next : W36) :
    s.went u c next = u.mapCore c fun x => x.retired (s.at c).pc next none := State.retire_untraced h _ _ _

/-- Settles O7: a register instruction computes in the shape of its form, and retirement, the loads that land and the fetch stay
within its core's frame. -/
theorem registerInstructionsChangeOnlyTheirDestinations : Obligations.RegisterInstructionsChangeOnlyTheirDestinations := by
  intro i f s hf hr hl hu
  obtain ⟨g, hg, hc⟩ := regForm_writes hf
  have hu : (s.at f.core).dbgReg 0x25 = 0 := by simpa [State.untraced] using hu
  have ha := State.framed_after hl
  have hw : s.Framed ((s.after f.core f.srcs f.dests).mapCore f.core fun x => x.setRegs (g (s.seenBy f))) f.core :=
    ha.trans (.mapCore (Core.framed_setRegs _ _))
  refine ⟨_, (hc s hr hl).trans (congrArg _ (State.went_untraced (hw.core.limit.trans hu) _)), fun q hq => ?_, rfl,
    ?_, ?_, ?_, State.sameBut_trans hw.others (State.sameBut_mapCore _ _ _)⟩
  · have hd : ∀ p ∈ g (s.seenBy f), p.1 ≠ q := fun p hp he => hq (he ▸ hg _ p hp)
    rw [State.at_mapCore, Core.retired_reg, State.at_mapCore]
    exact Core.reg_setRegs_other _ _ hd
  · simpa [Core.sameSystem] using hw.core.system
  · simpa using hw.core.ls
  · simpa using hw.core.stores

/-! Stores -/

/-- What a store instruction comes to once its loads have landed: a store of whole words, or a point write of one word (R154, R160). -/
theorem storeForm_stores {i : Instr} {f : StoreForm} {s : State} (h : storeForm i = some f) (hr : s.ready f.core 1 = true)
    (hl : s.lands f.core f.srcs [] = true) :
    (f.point = none ∧ exec i s = .next (((s.after f.core f.srcs []).store f.core (f.addr (s.storeSeen f))
      (f.words (s.storeSeen f))).state f.core (s.at f.core).pc)) ∨
    (∃ b w, f.point = some b ∧ f.words (s.storeSeen f) = [w] ∧
      exec i s = .next (((s.after f.core f.srcs []).pointStore f.core (f.addr (s.storeSeen f)) b w).state f.core (s.at f.core).pc)) := by
  cases i with
  | stw c o =>
    cases h
    exact .inl ⟨rfl, (exec_interlock rfl rfl hr hl).trans rfl⟩
  | stp c o =>
    obtain ⟨hd, rfl⟩ := of_guard h
    exact .inl ⟨rfl, (exec_interlock rfl (if_neg (by simp [even_iff, hd])) hr hl).trans rfl⟩
  | stwx c o =>
    obtain ⟨hx, rfl⟩ := of_guard h
    exact .inl ⟨rfl, (exec_interlock rfl (if_neg (not_not_intro hx)) hr hl).trans rfl⟩
  | stb c o =>
    obtain ⟨he, rfl⟩ := of_guard h
    exact .inr ⟨_, _, rfl, rfl, (exec_interlock rfl (if_neg (by simp [he])) hr hl).trans rfl⟩
  | setb c o | clrb c o =>
    obtain ⟨⟨he, hd⟩, rfl⟩ := of_guard h
    exact .inr ⟨_, _, rfl, rfl, (exec_interlock rfl ((if_neg (not_not_intro hd)).trans (if_neg (by simp [he]))) hr hl).trans rfl⟩
  | _ => cases h

/-- A run of writes leaves every key outside it alone. -/
theorem Sparse.get_putMany_other {α : Type} [DecidableEq α] (d : α) {j : Nat} : ∀ (vs : List α) (m : Sparse α) (k : Nat),
    j < k ∨ k + vs.length ≤ j → Sparse.get (Sparse.putMany m d k vs) d j = Sparse.get m d j
  | [], _, _, _ => rfl
  | v :: vs, m, k, h => by
    simp only [List.length_cons] at h
    exact (Sparse.get_putMany_other d vs _ (k + 1) (by omega)).trans (Sparse.get_put_other m d d v (by omega))

/-- A run of writes reads as the values written. -/
theorem Sparse.get_putMany_within {α : Type} [DecidableEq α] (d : α) : ∀ (vs : List α) (m : Sparse α) (k : Nat) {n : Nat},
    n < vs.length → Sparse.get (Sparse.putMany m d k vs) d (k + n) = vs.getD n d
  | v :: vs, m, k, 0, _ => (Sparse.get_putMany_other d vs _ (k + 1) (by omega)).trans (Sparse.get_put_same m d k v)
  | v :: vs, m, k, n + 1, h => by
    have ht := Sparse.get_putMany_within d vs (Sparse.put m d k v) (k + 1) (Nat.lt_of_succ_lt_succ h)
    rwa [Nat.add_assoc, Nat.add_comm 1 n] at ht

theorem State.storeGoes_iff {s : State} {f : StoreForm} {sp : Space} : s.storeGoes f sp = true ↔
    (s.after f.core f.srcs []).storeSpace f.core (f.addr (s.storeSeen f)) (f.words (s.storeSeen f)).length = some sp ∧
      (s.storeSeen f).unwatched 2 (f.addr (s.storeSeen f)) (f.words (s.storeSeen f)).length = true ∧
      (f.point = none ∨ sp = .hearth) := by
  simp [State.storeGoes, and_assoc]

section
variable {i : Instr} {f : StoreForm} {s : State} {sp : Space} (h : storeForm i = some f) (hr : s.ready f.core 1 = true)
  (hl : s.lands f.core f.srcs [] = true)
include h hr hl

/-- A store that goes to local store writes its words there (R78). -/
theorem storeForm_ls (hg : s.storeGoes f .ls = true) : ∃ next, exec i s = .next (s.went
    ((s.after f.core f.srcs []).mapCore f.core fun x => x.storeLs (f.addr (s.storeSeen f)).toNat (f.words (s.storeSeen f)))
    f.core next) := by
  obtain ⟨hsp, hw, hp⟩ := State.storeGoes_iff.mp hg
  obtain ⟨-, he⟩ | ⟨b, w, hb, -, -⟩ := storeForm_stores h hr hl
  · rw [State.store_ls hsp hw] at he
    exact ⟨_, he⟩
  · simp [hb] at hp

/-- A store that goes elsewhere, and finds room in the buffer, is posted (R78, R160). -/
theorem storeForm_posted (hs : sp ≠ .ls) (hg : s.storeGoes f sp = true) (hn : (s.storeSeen f).stores.length < 4) :
    ∃ next, exec i s = .next (s.went
      (posted (s.after f.core f.srcs []) f.core (f.addr (s.storeSeen f)) (f.words (s.storeSeen f)) f.point) f.core next) := by
  obtain ⟨hsp, hw, hp⟩ := State.storeGoes_iff.mp hg
  have ht := State.takesStore_room hn
  obtain ⟨hb, he⟩ | ⟨b, w, hb, hws, he⟩ := storeForm_stores h hr hl
  · rw [State.store_far hs hsp hw, State.post_room ht] at he
    exact ⟨_, hb ▸ he⟩
  · obtain rfl : sp = .hearth := by simpa [hb] using hp
    rw [hws] at hsp hw ⊢
    rw [State.pointStore_room hsp hw ht] at he
    exact ⟨_, hb ▸ he⟩

end

@[simp] theorem Core.storeLs_reg (x : Core) (a : Nat) (vs : List W36) (q : Reg) : (x.storeLs a vs).reg q = x.reg q := rfl
@[simp] theorem Core.storeLs_psw (x : Core) (a : Nat) (vs : List W36) : (x.storeLs a vs).psw = x.psw := rfl
@[simp] theorem Core.storeLs_sys (x : Core) (a : Nat) (vs : List W36) : (x.storeLs a vs).sys = x.sys := rfl
@[simp] theorem Core.storeLs_stores (x : Core) (a : Nat) (vs : List W36) : (x.storeLs a vs).stores = x.stores := rfl

@[simp] theorem Core.storeLs_dbgReg (x : Core) (a : Nat) (vs : List W36) (n : Nat) : (x.storeLs a vs).dbgReg n = x.dbgReg n := rfl

section
variable (x : Core) (key : Nat) (a : W36) (vs : List W36) (p : Option (BitVec 5))

@[simp] theorem Core.posts_reg (q : Reg) : (x.posts key a vs p).reg q = x.reg q := rfl
@[simp] theorem Core.posts_psw : (x.posts key a vs p).psw = x.psw := rfl
@[simp] theorem Core.posts_sys : (x.posts key a vs p).sys = x.sys := rfl
@[simp] theorem Core.posts_ls : (x.posts key a vs p).ls = x.ls := rfl
@[simp] theorem Core.posts_dbgReg (n : Nat) : (x.posts key a vs p).dbgReg n = x.dbgReg n := rfl

end

@[simp] theorem Core.retired_lsWord (x : Core) (pc next : W36) (slot : Option (List (Reg × W36))) (a : Nat) :
    (x.retired pc next slot).lsWord a = x.lsWord a := by simp [Core.lsWord]

theorem Core.Framed.lsWord {x y : Core} (h : x.Framed y) (a : Nat) : y.lsWord a = x.lsWord a := by simp [Core.lsWord, h.ls]

theorem Core.lsWord_storeLs_other (x : Core) {a b : Nat} {vs : List W36} (h : b < a ∨ a + vs.length ≤ b) :
    (x.storeLs a vs).lsWord b = x.lsWord b := Sparse.get_putMany_other 0 vs x.ls a h

theorem Core.lsWord_storeLs_within (x : Core) (a : Nat) {vs : List W36} {n : Nat} (h : n < vs.length) :
    (x.storeLs a vs).lsWord (a + n) = vs.getD n 0 := Sparse.get_putMany_within 0 vs x.ls a h

/-- Settles O8: a store's action writes local store, or joins the posted stores; the fetch, the loads that land and retirement stay
within the core's frame. -/
theorem storesChangeOnlyTheirWords : Obligations.StoresChangeOnlyTheirWords := by
  constructor
  · intro i f s h hr hl hg hu
    have ha := State.framed_after hl
    have hu : ((s.after f.core f.srcs []).at f.core).dbgReg 0x25 = 0 := ha.core.limit.trans (by simpa [State.untraced] using hu)
    obtain ⟨next, he⟩ := storeForm_ls h hr hl hg
    rw [State.went_untraced (by simpa using hu)] at he
    refine ⟨_, he, fun a hn => ?_, fun n hn => ?_, fun q => ?_, ?_, ?_,
      State.sameBut_trans (State.sameBut_trans ha.others (State.sameBut_mapCore _ _ _)) (State.sameBut_mapCore _ _ _)⟩
    · simpa using (Core.lsWord_storeLs_other _ hn).trans (ha.core.lsWord a)
    · simpa using Core.lsWord_storeLs_within _ _ hn
    · simp [State.storeSeen]
    · simpa using ha.core.stores
    · simpa [Core.sameSystem] using ha.core.system
  · intro i f s sp h hr hl hs hg hu hn
    have ha := State.framed_after hl
    have hu : ((s.after f.core f.srcs []).at f.core).dbgReg 0x25 = 0 := ha.core.limit.trans (by simpa [State.untraced] using hu)
    obtain ⟨next, he⟩ := storeForm_posted h hr hl hs hg hn
    rw [State.went_untraced (by simpa [posted] using hu)] at he
    refine ⟨_, he, ?_, ?_, fun q => ?_, ?_,
      State.sameBut_trans (State.sameBut_trans ha.others (State.sameBut_mapCore _ _ _)) (State.sameBut_mapCore _ _ _)⟩
    · simpa [posted] using ha.core.ls
    · simp only [posted, State.at_mapCore, Core.retired_stores]
      rfl
    · simp [posted, State.storeSeen]
    · simpa [posted, Core.sameSystem] using ha.core.system

/-! Stack checks -/

theorem Core.callOk_iff {x : Core} {sp : Nat} : x.callOk sp = true ↔ x.bank.stkLo.toNat + 3 ≤ sp ∧ sp ≤ x.bank.stkHi.toNat := by
  simp [Core.callOk]

theorem Core.retOk_iff {x : Core} {sp : Nat} : x.retOk sp = true ↔ x.bank.stkLo.toNat + 2 ≤ sp ∧ sp + 1 ≤ x.bank.stkHi.toNat := by
  simp [Core.retOk]

theorem Core.reteOk_iff {x : Core} {sp : Nat} : x.reteOk sp = true ↔ x.bank.stkLo.toNat ≤ sp ∧ sp + 2 ≤ x.bank.stkHi.toNat := by
  simp [Core.reteOk]

section
variable {u : State} {c : CoreId}

/-- A call that the stack window does not hold raises STACK_OVERFLOW (R84). -/
theorem State.callTo_overflow (h : (u.at c).callOk ((u.at c).see 31).toNat ≠ true) (target : W36) :
    u.callTo c target = u.raiseTrap c 0x06 ((u.at c).see 31 + BitVec.ofInt 36 (-1)) := if_pos (by simpa using h)

/-- A return that the stack window does not hold raises STACK_UNDERFLOW (R84). -/
theorem State.popReturn_underflow (h : (u.at c).retOk ((u.at c).see 31).toNat ≠ true) :
    u.popReturn c = u.raiseTrap c 0x07 ((u.at c).see 31) := if_pos (by simpa using h)

/-- A return from an exception that the stack window does not hold raises STACK_UNDERFLOW (R84). -/
theorem State.returnFrom_underflow (h : (u.at c).reteOk ((u.at c).see 31).toNat ≠ true) :
    u.returnFrom c = u.raiseTrap c 0x07 ((u.at c).see 31) := if_pos (by simpa using h)

end

/-- What an exception of the instruction at the pc leaves behind. -/
theorem State.raiseTrap_state (u : State) (c : CoreId) (cause : Nat) (faddr pc : W36) :
    (u.raiseTrap c cause faddr).state c pc = u.trapped c cause (u.at c).pc faddr := rfl

theorem zeroA_iff {o : OpA} : zeroA o = true ↔ o.d = 0 ∧ o.a = 0 ∧ o.b = 0 ∧ o.x = 0 := by simp [zeroA]

@[simp] theorem State.fetched_privileged (s : State) (c : CoreId) : (s.fetched c).privileged c = s.privileged c := by
  simp [State.privileged, Core.priv, Core.pswBit]

@[simp] theorem State.fetched_inSecure (s : State) (c : CoreId) : ((s.fetched c).at c).inSecure = (s.at c).inSecure := by
  simp [Core.inSecure, Core.pswBit]

/-- Settles O28: each check stands before the push or pop, once the loads that may write w31 have landed. -/
theorem stackChecksFault : Obligations.StackChecksFault := by
  refine ⟨fun s c o hr hl hs => ?_, fun s c o hr hl hd hb hx hs => ?_, fun s c o hr hl hz hs => ?_,
    fun s c o hr hl hz hp hs => ?_⟩
  · rw [exec_interlock rfl rfl hr hl, State.callTo_overflow (mt Core.callOk_iff.mp hs), State.raiseTrap_state]
  · rw [exec_interlock rfl (if_neg (by simp [hd, hb, hx])) hr hl, State.callTo_overflow (mt Core.callOk_iff.mp hs),
      State.raiseTrap_state]
  · rw [exec_interlock rfl (if_neg (by simp [zeroA_iff.mpr hz])) hr hl, State.popReturn_underflow (mt Core.retOk_iff.mp hs),
      State.raiseTrap_state]
  · rw [exec_interlock rfl ((if_neg (by simp [zeroA_iff.mpr hz])).trans (if_neg (by simp [hp]))) hr hl,
      State.returnFrom_underflow (mt Core.reteOk_iff.mp hs), State.raiseTrap_state]

/-! Privilege and the system instructions -/

/-- An instruction that issues and completes at once, with its core's pc where it was. -/
theorem State.fin_state {s u : State} {c : CoreId} (h : (u.at c).pc = (s.at c).pc) (len : Nat) :
    (u.fin c len).state c (s.at c).pc = s.went u c (wordAt (s.at c).pc len) := by
  simp only [State.fin, Out.state, State.went, h]

theorem State.privTrap_state (s : State) (c : CoreId) : ((s.fetched c).privTrap c).state c (s.at c).pc =
    (s.fetched c).trapped c 0x02 (s.at c).pc (s.at c).pc := by
  rw [State.privTrap, State.raiseTrap_state, State.fetched_pc_at]

theorem State.illegal_state (s : State) (c : CoreId) : ((s.fetched c).illegal c).state c (s.at c).pc =
    (s.fetched c).trapped c 0x01 (s.at c).pc (s.at c).pc := by
  rw [State.illegal, State.raiseTrap_state, State.fetched_pc_at]

theorem State.trapNext_state (s : State) (c : CoreId) (cause : Nat) : ((s.fetched c).trapNext c cause).state c (s.at c).pc =
    (s.fetched c).trapped c cause (wordAt (s.at c).pc 1) (s.at c).pc := by
  simp [State.trapNext, Out.state, State.trapped]

/-- An instruction that issues comes to what its action comes to on the fetched state. -/
theorem exec_ready {i : Instr} {s : State} {c : CoreId} {len : Nat} {op : Op} {u : Out}
    (hi : exec i s = .next (s.runOp c len op)) (hr : s.ready c len = true) (ho : op (s.fetched c) c = u) :
    exec i s = .next (u.state c (s.at c).pc) := by
  rw [hi, State.runOp_ready hr, ho]

/-- A word of no assigned opcode raises ILLEGAL (R71). -/
theorem exec_illegalOpcode {s : State} {c : CoreId} {w : W36} (hr : s.ready c 1 = true) (hw : opAssigned (opcodeOf w) = false) :
    exec (.illegalOpcode c w) s = .next ((s.fetched c).trapped c 0x01 (s.at c).pc (s.at c).pc) := by
  rw [exec_ready (op := fun t d => t.illegal d) (congrArg _ (if_neg (by simp [hw]))) hr rfl, State.illegal_state]

theorem callNumOk_iff {o : OpI} : callNumOk o = true ↔ o.d = 0 ∧ o.a = 0 ∧ o.imm.toNat < 0x10000 := decide_eq_true_iff

/-- SVC on the Tender takes its exception, whatever PRIV and WORLD are (R96, R143). -/
theorem exec_svc_tender {s : State} {c : CoreId} {o : OpI} (hr : s.ready c 1 = true) (hc : c = .tender)
    (hz : o.d = 0 ∧ o.a = 0 ∧ o.imm.toNat < 0x10000) :
    exec (.svc c o) s = .next ((s.fetched c).trapped c 0x0C (wordAt (s.at c).pc 1) (s.at c).pc) := by
  subst hc
  rw [exec_ready (u := (s.fetched .tender).trapNext .tender 0x0C) rfl hr (if_neg (by simp [isEngine, callNumOk_iff.mpr hz])),
    State.trapNext_state]

@[simp] theorem Core.setPswBit_pc (x : Core) (i : Nat) (b : Bool) : (x.setPswBit i b).pc = x.pc := rfl
@[simp] theorem Core.setSys_pc (x : Core) (n : Nat) (v : W36) : (x.setSys n v).pc = x.pc := rfl

/-- A write of a system register leaves the pc (R62). -/
theorem State.sysWrite_pc {t : State} {x y : Core} {n : Nat} {v : W36} (h : t.sysWrite x n v = some y) : y.pc = x.pc := by
  unfold State.sysWrite at h
  repeat' split at h
  all_goals cases h
  all_goals simp

/-- SYSW's check of privilege lets a privileged core write a register of its world (R62, R144). -/
theorem State.sysw_allowed {s : State} {c : CoreId} {o : OpI} (hp : s.privileged c = true)
    (hs : (s.at c).inSecure = true ∨ secureSys (o.imm.toNat % 0x400) = false) :
    ¬(!(s.fetched c).privileged c || (!((s.fetched c).at c).inSecure && secureSys (sysNum o % 0x400))) = true := by
  obtain hs | hs := hs <;> simp [hp, hs, sysNum]

/-- SYSW in privilege, with its unused fields zero, writes the register where the write is allowed (R61, R62, R144). -/
theorem exec_sysw_written {s : State} {c : CoreId} {o : OpI} {x : Core} (hr : s.ready c 1 = true)
    (hl : s.lands c [o.a] [31] = true) (hd : o.d = 0) (hm : o.imm.toNat < 0x400) (hp : s.privileged c = true)
    (hs : (s.at c).inSecure = true ∨ secureSys o.imm.toNat = false)
    (hx : (s.after c [o.a] [31]).sysWrite ((s.after c [o.a] [31]).at c) o.imm.toNat (((s.after c [o.a] [31]).at c).see o.a) = some x) :
    exec (.sysw c o) s = .next (s.went ((s.after c [o.a] [31]).setCore (coreKey c) x) c (wordAt (s.at c).pc 1)) := by
  have h2 : ¬(o.d ≠ 0 ∨ 0x400 ≤ sysNum o) := by simp [hd, sysNum, hm]
  have hpc : x.pc = (s.at c).pc := (State.sysWrite_pc hx).trans (State.after_pc hl)
  rw [exec_interlock rfl ((if_neg (State.sysw_allowed hp (by rwa [Nat.mod_eq_of_lt hm]))).trans (if_neg h2)) hr hl]
  simp only [sysNum, hx]
  rw [State.fin_state (by simp [State.at, hpc])]

/-- A pop from local store that nothing stops. -/
theorem State.popWords_ls {u : State} {c : CoreId} {a : W36} {n : Nat} (hs : u.loadSpace c a n = some .ls)
    (hb : ((List.range n).any fun i => (u.at c).lsBad.contains (a.toNat + i)) = false) (hw : (u.at c).unwatched 1 a n = true)
    (k : State → Out) : u.popWords c a n k = k u :=
  (if_neg (not_not_intro hs)).trans ((State.watch_unwatched hw _).trans (if_neg (by rw [hb]; exact Bool.false_ne_true)))

/-- RETE in privilege pops the PSW and the pc (R85). -/
theorem exec_rete_returns {s : State} {c : CoreId} {o : OpA} (hr : s.ready c 1 = true) (hl : s.lands c [31] [31] = true)
    (hz : o.d = 0 ∧ o.a = 0 ∧ o.b = 0 ∧ o.x = 0) (hp : s.privileged c = true)
    (hk : ((s.after c [31] [31]).at c).reteOk (((s.after c [31] [31]).at c).see 31).toNat = true)
    (hs : (s.after c [31] [31]).loadSpace c (((s.after c [31] [31]).at c).see 31) 2 = some .ls)
    (hb : ((List.range 2).any fun i => ((s.after c [31] [31]).at c).lsBad.contains
      ((((s.after c [31] [31]).at c).see 31).toNat + i)) = false)
    (hw : ((s.after c [31] [31]).at c).unwatched 1 (((s.after c [31] [31]).at c).see 31) 2 = true) :
    exec (.rete c o) s = .next (s.went ((s.after c [31] [31]).mapCore c fun x =>
      { x.setReg 31 (wordAt (((s.after c [31] [31]).at c).see 31) 2) with
        psw := frameView ((s.after c [31] [31]).lsRead (coreKey c) (((s.after c [31] [31]).at c).see 31).toNat) }) c
      ((s.after c [31] [31]).lsRead (coreKey c) ((((s.after c [31] [31]).at c).see 31).toNat + 1))) := by
  rw [exec_interlock rfl ((if_neg (by simp [zeroA_iff.mpr hz])).trans (if_neg (by simp [hp]))) hr hl]
  unfold State.returnFrom
  simp only [hk, State.popWords_ls hs hb hw]
  rfl

/-- SYSW to the PSW writes PRIV and IE (R61). -/
theorem State.sysWrite_psw (t : State) (x : Core) (v : W36) :
    t.sysWrite x 0x004 v = some ((x.setPswBit 0 (v.toNat.testBit 0)).setPswBit 2 (v.toNat.testBit 2)) := rfl

theorem State.privileged_tender {s : State} {c : CoreId} (hc : c = .tender) (h : (s.at c).priv = true) : s.privileged c = true := by
  subst hc
  simpa [State.privileged, isEngine] using h

/-- Settles O30: privilege stands before the loads that RETE and SYSW wait for, and SVC asks for none. -/
theorem privilegedInstructionsTrapInUserMode : Obligations.PrivilegedInstructionsTrapInUserMode := by
  refine ⟨fun s c o hr hz hp => ?_, fun s c o hr hp => ?_, fun s c o hr hl hd hm hc hp => ?_,
    fun s c o hr hl hz hc hp => exec_rete_returns hr hl hz (State.privileged_tender hc hp),
    fun s c o hr hz hc _ _ => exec_svc_tender hr hc hz⟩
  · rw [exec_ready (u := (s.fetched c).privTrap c) rfl hr ((if_neg (by simp [zeroA_iff.mpr hz])).trans (if_pos (by simp [hp]))),
      State.privTrap_state]
  · rw [exec_ready (u := (s.fetched c).privTrap c) rfl hr (if_pos (by simp [hp])), State.privTrap_state]
  · refine exec_sysw_written hr hl hd (by omega) (State.privileged_tender hc hp) (.inr (by rw [hm]; rfl)) ?_
    rw [hm, State.sysWrite_psw]

/-! Halts by BRK -/

@[simp] theorem State.message_cores (s : State) (v : Nat) : (s.message v).cores = s.cores := by
  unfold State.message
  split <;> rfl

/-- An event that is set changes no core (R483, R485). -/
@[simp] theorem State.raise_cores (s : State) (f : Fld) : (s.raise f).cores = s.cores := by
  unfold State.raise State.raiseBit State.becamePending
  split
  · split
    · exact State.message_cores _ _
    · rfl
  · rfl

/-- A core that halts for Poker keeps its pc (R464). -/
@[simp] theorem State.haltCore_pc (s : State) (c : CoreId) (cause : Nat) : ((s.haltCore (coreKey c) cause).at c).pc = (s.at c).pc := by
  simp [State.haltCore, State.at, State.core, State.setFld]

/-- Whether Poker may halt a core hangs on its world or sandbox, the mode and the authentication (R468, R469). -/
theorem State.mayHalt_congr {s u : State} {c : CoreId} (hr : (u.at c).run = (s.at c).run) (hp : (u.at c).psw = (s.at c).psw)
    (hg : u.regs = s.regs) (hk : u.poker = s.poker) : u.mayHalt c = s.mayHalt c := by
  have hm : u.mode = s.mode := congrArg (fun m => Sparse.get m _ _) hg
  cases c with
  | engine e =>
    have hs : u.inSandbox e.val = s.inSandbox e.val := by
      unfold State.inSandbox
      rw [show (u.core e.val).run = (s.core e.val).run from hr]
    simp [State.mayHalt, hm, hs]
  | tender => simp [State.mayHalt, hk, Core.inSecure, Core.pswBit, hp]

@[simp] theorem State.fetched_mayHalt (s : State) (c : CoreId) : (s.fetched c).mayHalt c = s.mayHalt c :=
  State.mayHalt_congr (by simp) (by simp) (by simp) (by simp)

theorem State.mayHalt_mapCore (s : State) (c : CoreId) (f : Core → Core) (hr : (f (s.at c)).run = (s.at c).run)
    (hp : (f (s.at c)).psw = (s.at c).psw) : (s.mapCore c f).mayHalt c = s.mayHalt c :=
  State.mayHalt_congr (by simpa using hr) (by simpa using hp) rfl rfl

/-- A halt that Poker may have is taken at once (R469). -/
theorem State.haltNow_allowed {u : State} {c : CoreId} (h : u.mayHalt c = true) (cause : Nat) :
    u.haltNow c cause = u.haltCore (coreKey c) cause := if_pos h

/-- An instruction whose action completes with nothing to wait for. -/
theorem exec_fin {i : Instr} {s u : State} {c : CoreId} {len : Nat} {op : Op} (hi : exec i s = .next (s.runOp c len op))
    (hr : s.ready c len = true) (ho : op (s.fetched c) c = u.fin c len) (hpc : (u.at c).pc = (s.at c).pc) :
    exec i s = .next (s.went u c (wordAt (s.at c).pc len)) := by
  rw [exec_ready hi hr ho, State.fin_state hpc]

@[simp] theorem State.fetched_dbgReg (s : State) (c : CoreId) (n : Nat) : ((s.fetched c).at c).dbgReg n = (s.at c).dbgReg n := by
  simp [Core.dbgReg]

/-- BRK with BRK_HALT set halts a core that Poker may halt, and retires (R145, R467). -/
theorem exec_brk_halts {s : State} {c : CoreId} {o : OpI} (hr : s.ready c 1 = true)
    (hz : o.d = 0 ∧ o.a = 0 ∧ o.imm.toNat < 0x10000) (hb : bitOf ((s.at c).dbgReg 0x22) 0 = true) (hm : s.mayHalt c = true) :
    exec (.brk c o) s = .next (s.went (((s.fetched c).mapCore c fun x => { x with brkNum := o.imm.toNat }).haltCore (coreKey c) 5)
      c (wordAt (s.at c).pc 1)) := by
  have hn : ((s.fetched c).mapCore c fun x => { x with brkNum := o.imm.toNat }).mayHalt c = true :=
    (State.mayHalt_mapCore _ c _ rfl rfl).trans ((State.fetched_mayHalt s c).trans hm)
  refine exec_fin rfl hr ?_ (by simp)
  rw [← State.haltNow_allowed hn]
  exact (if_neg (by simp [callNumOk_iff.mpr hz])).trans (if_pos (by simp [hb, hm]))

/-- SYS reads a system register into its destination (R62, R143). -/
theorem exec_sys_reads {s : State} {c : CoreId} {o : OpI} (hr : s.ready c 1 = true) (hl : s.lands c [] [o.d] = true)
    (ha : o.a = 0) (hm : o.imm.toNat < 0x400) :
    exec (.sys c o) s = .next (s.wrote (s.after c [] [o.d]) c 1 [(o.d, (s.after c [] [o.d]).sysRead c o.imm.toNat)]) := by
  rw [exec_interlock rfl (if_neg (by simp [ha, sysNum, hm])) hr hl, State.fin_state (by simp [State.after_pc hl])]
  rfl

/-- Settles O29: each instruction's condition selects the branch of its action. -/
theorem systemInstructionsComplete : Obligations.SystemInstructionsComplete := by
  refine ⟨fun s c w hr hw => ?_, fun s c o hr hl ha hm => exec_sys_reads hr hl ha hm, fun s c o hr hl hd hm hp hs hx => ?_,
    fun s c o hr hc hz => exec_svc_tender hr hc hz, fun s c o hr hz hb => ?_, fun s c o hr hz hb hm => exec_brk_halts hr hz hb hm,
    fun s c o hr hl hz hp hlo hhi => exec_rete_returns hr hl hz hp (Core.reteOk_iff.mpr ⟨hlo, hhi⟩),
    fun s c o hr hz hp => ?_, fun s c o hr hz hs => ?_, fun s c o hr hz hs => ?_⟩
  · rw [exec_illegalOpcode hr hw]
    simp [State.trapped]
  · obtain ⟨x, hx⟩ := Option.isSome_iff_exists.mp hx
    rw [hx]
    exact exec_sysw_written hr hl hd hm hp hs hx
  · rw [exec_ready (u := (s.fetched c).trapNext c 0x0B) rfl hr
      ((if_neg (by simp [callNumOk_iff.mpr hz])).trans (if_neg (by simp [hb]))), State.trapNext_state]
  · exact exec_fin rfl hr ((if_neg (by simp [zeroA_iff.mpr hz])).trans (if_neg (by simp [hp]))) (by simp)
  · exact exec_fin rfl hr ((if_neg (by simp [zeroA_iff.mpr hz])).trans (if_pos (by simp [hs]))) (by simp)
  · exact exec_fin rfl hr ((if_neg (by simp [zeroA_iff.mpr hz])).trans (if_neg (by simp [hs]))) (by simp)

/-! Accesses that are not allowed -/

section
variable {u : State} {c : CoreId} {a : W36} {n : Nat}

/-- A load whose words no region permits (R81, R82, R482). -/
theorem State.load_denied {ds : List Reg} (hn : ds.length = n) (h : u.loadSpace c a n = none) (pc : W36) :
    (u.load c a ds).state c pc = (u.noteWorld c a n).trapped c 0x04 ((u.noteWorld c a n).at c).pc a := by
  subst hn
  simp only [State.load, h]
  rfl

/-- A store whose words no region permits (R81, R82, R482). -/
theorem State.store_denied {vs : List W36} (hn : vs.length = n) (h : u.storeSpace c a n = none) (pc : W36) :
    (u.store c a vs).state c pc = (u.noteWorld c a n).trapped c 0x05 ((u.noteWorld c a n).at c).pc a := by
  subst hn
  simp only [State.store, h]
  rfl

/-- A point write outside the write windows of the Hearth (R82, R158). -/
theorem State.pointStore_denied {b : BitVec 5} {v : W36} (h : u.storeSpace c a 1 ≠ some .hearth) (pc : W36) :
    (u.pointStore c a b v).state c pc = (u.noteWorld c a 1).trapped c 0x05 ((u.noteWorld c a 1).at c).pc a := by
  rw [State.pointStore, if_pos h]
  rfl

/-- A read of format B at an address that its view does not allow (R82, R158). -/
theorem State.imageLoad_denied {k : View} {d : Reg} {f : W36 → W36 → W36} (h : u.viewOk c k a = false) (pc : W36) :
    (u.imageLoad c k a d f).state c pc = (u.noteWorld c a 1).trapped c 0x04 ((u.noteWorld c a 1).at c).pc a := by
  rw [State.imageLoad, if_pos (by simp [h])]
  rfl

end

/-- Settles O25: each access is judged before anything else of it happens, once its loads have landed. -/
theorem accessesThatAreNotAllowedFault : Obligations.AccessesThatAreNotAllowedFault := by
  refine ⟨fun s c o hr hl h => ?_, fun s c o hr hl he h => ?_, fun s c o hr hl hx h => ?_, fun s c o hr hl h => ?_,
    fun s c o hr hl he h => ?_, fun s c o hr hl hx h => ?_, fun s c o hr hl he h => ?_, fun s c o hr hl he h => ?_⟩
  · rw [exec_interlock rfl rfl hr hl, State.load_denied (n := 1) rfl h]
  · rw [exec_interlock rfl (if_neg (by simp [even_iff, he])) hr hl, State.load_denied (n := 2) rfl h]
  · rw [exec_interlock rfl (if_neg (not_not_intro hx)) hr hl, State.load_denied (n := 1) rfl h]
  · rw [exec_interlock rfl rfl hr hl, State.store_denied (n := 1) rfl h]
  · rw [exec_interlock rfl (if_neg (by simp [even_iff, he])) hr hl, State.store_denied (n := 2) rfl h]
  · rw [exec_interlock rfl (if_neg (not_not_intro hx)) hr hl, State.store_denied (n := 1) rfl h]
  · rw [exec_interlock rfl (if_neg (by simp [he])) hr hl, State.pointStore_denied h]
  · rw [exec_interlock rfl (if_neg (by simp [he])) hr hl, State.imageLoad_denied h]

/-! Unused fields -/

theorem traps_of_illegal {i : Instr} {c : CoreId} {len : Nat} {op : Op} (hi : ∀ s, exec i s = .next (s.runOp c len op))
    (ho : ∀ s, op s c = s.illegal c) : Traps i c len 0x01 := by
  intro s hr
  rw [exec_ready (hi s) hr (ho _), State.illegal_state]

/-- An action of engines alone that is ILLEGAL there is ILLEGAL everywhere (R97). -/
theorem engineOnly_illegal {k : Op} {s : State} {c : CoreId} (h : k s c = s.illegal c) : engineOnly k s c = s.illegal c := by
  unfold engineOnly
  split
  · exact h
  · rfl

theorem zeroA_false {o : OpA} (h : o.d ≠ 0 ∨ o.a ≠ 0 ∨ o.b ≠ 0 ∨ o.x ≠ 0) : zeroA o = false := by
  rw [Bool.eq_false_iff, Ne, zeroA_iff]
  tauto

theorem callNumOk_false {o : OpI} (h : o.d ≠ 0) : callNumOk o = false := decide_eq_false fun hz => h hz.1

/-- An action that is ILLEGAL whether or not its unused fields are zero. -/
theorem traps_either {i : Instr} {c : CoreId} {p : Prop} [Decidable p] {k : Op}
    (hi : ∀ s, exec i s = .next (s.runOp c 1 fun s c => if p then s.illegal c else k s c)) (hk : ∀ s, k s c = s.illegal c) :
    Traps i c 1 0x01 :=
  traps_of_illegal hi fun s => ite_eq_left_iff.mpr fun _ => hk s

/-- BEND with a field that is not zero is ILLEGAL, on the Tender as on an engine (R97, R170). -/
theorem opBend_illegal {o : OpA} (h : zeroA o = false) (s : State) (c : CoreId) : opBend o s c = s.illegal c := by
  cases c with
  | tender => rfl
  | engine e => exact if_pos (by simp [h])

/-- Settles O22: each action looks at its unused fields first, SYSW after privilege (R144). -/
theorem unusedFieldsRaiseIllegal : Obligations.UnusedFieldsRaiseIllegal := by
  refine ⟨fun c o h => ?_, fun c o h => ?_, fun c o h => ?_, fun c o h => ?_, fun c o h => ?_, fun c o h => ?_, fun c o h => ?_,
    fun o p => ?_, fun e o => ?_, fun s c o hr h hp hs => ?_, fun s c w hr hw => ?_⟩
  · refine ⟨?_, ?_, ?_, ?_, ?_, ?_, ?_, ?_, ?_, ?_, traps_of_illegal (fun _ => rfl) fun _ => if_pos (.inl h),
      traps_of_illegal (fun _ => rfl) fun _ => if_pos (.inl h)⟩ <;>
      exact traps_of_illegal (fun _ => rfl) fun _ => if_pos h
  · and_intros <;> exact traps_of_illegal (fun _ => rfl) fun _ => if_pos h
  · refine ⟨?_, traps_of_illegal (fun _ => rfl) fun _ => if_pos (h.imp_right .inl), ?_, ?_, ?_, ?_, ?_, ?_, ?_,
      traps_of_illegal (fun _ => rfl) fun _ => engineOnly_illegal (if_pos h),
      traps_of_illegal (fun _ => rfl) fun _ => engineOnly_illegal (if_pos h),
      traps_of_illegal (fun _ => rfl) fun _ => if_pos (.inr h), traps_of_illegal (fun _ => rfl) fun _ => if_pos (.inr h)⟩ <;>
      exact traps_of_illegal (fun _ => rfl) fun _ => if_pos h
  · have hz := zeroA_false h
    refine ⟨traps_of_illegal (fun _ => rfl) fun _ => if_neg (by simp [hz]), ?_,
      traps_of_illegal (fun _ => rfl) fun s => opBend_illegal hz s c, ?_, ?_, ?_⟩ <;>
      exact traps_of_illegal (fun _ => rfl) fun _ => if_pos (by simp [hz])
  · and_intros <;> exact traps_of_illegal (fun _ => rfl) fun _ => if_pos h
  · have hn := callNumOk_false h
    exact ⟨traps_of_illegal (fun _ => rfl) fun _ => if_pos h, traps_of_illegal (fun _ => rfl) fun _ => if_pos h,
      traps_of_illegal (fun _ => rfl) fun _ => if_pos (by simp [hn]),
      traps_of_illegal (fun _ => rfl) fun _ => if_pos (by simp [hn])⟩
  · and_intros <;> exact traps_of_illegal (fun _ => rfl) fun _ => if_pos h
  · refine ⟨?_, ?_, ?_, ?_, ?_, ?_, traps_either (fun _ => rfl) fun _ => rfl, traps_either (fun _ => rfl) fun _ => rfl,
      traps_either (fun _ => rfl) fun _ => rfl, traps_either (fun _ => rfl) fun _ => rfl, traps_either (fun _ => rfl) fun _ => rfl,
      ?_, ?_, ?_, ?_⟩ <;>
      exact traps_of_illegal (fun _ => rfl) fun _ => rfl
  · exact traps_of_illegal (fun _ => rfl) fun _ => rfl
  · rw [exec_ready rfl hr ((if_neg (State.sysw_allowed hp hs)).trans (if_pos h)), State.illegal_state]
  · exact exec_illegalOpcode hr hw

/-! J from DRAM -/

/-- J completes in the fetched state, whose core's link has carried the fetch where the pc is beyond local store (R19, R168). -/
theorem exec_jump {s : State} {c : CoreId} {o : OpJ} (hr : s.ready c 1 = true) :
    exec (.jump c o) s = .next (s.went (s.fetched c) c ((s.fetched c).targetJ c o)) :=
  exec_ready (u := goTo (s.fetched c) ((s.fetched c).targetJ c o)) rfl hr rfl

theorem State.went_link {s u : State} {c : CoreId} (h : (u.at c).dbgReg 0x25 = 0) (next : W36) :
    ((s.went u c next).at c).link = (u.at c).link := by
  rw [State.went_untraced h, State.at_mapCore, Core.retired_link]

/-- Held, with DRAM, and engine 0 in a block of Blaze that runs from DRAM. -/
def engineInDram : State :=
  (State.reset.setFields [(Reg.pwrStatusMode, modeHeld), (Reg.drmConfigCapacity, 1)]).mapCore (.engine 0) fun x =>
    { (x.setSys 0x014 0x400000000).setSys 0x015 0x400001000 with
      pc := 0x400000000, psw := 0, issue := .running, run := some ⟨⟨0, 0, 0, 0, none, false⟩, none, [(0, 1)], [], false⟩ }

/-- Engine 0 with three STPs to its write window posted: their packets of 3 flits ask for 9 of the 8 credits of VC0, so the
third waits (R20, R21). -/
def engineCrowded : State :=
  posted (posted (posted engineInDram (.engine 0) 0x1000000 [1, 1] none) (.engine 0) 0x1000002 [1, 1] none) (.engine 0)
    0x1000004 [1, 1] none

theorem engineCrowded_ready : engineCrowded.ready (.engine 0) 1 = true := by decide

/-- The fetch goes over the link behind the third store, which therefore waits no more (R19, R21, R23). -/
theorem engineCrowded_fetched :
    (engineCrowded.at (.engine 0)).link.waiting.length = 1 ∧ ((engineCrowded.fetched (.engine 0)).at (.engine 0)).link.waiting = [] := by
  decide

/-- Refutes O27: J fetched from DRAM also moves packets on its core's link, where the statement lets only the pc and what
retirement notes change. The counterexample is an engine whose third posted store waits for credits: the fetch behind it comes once the
store has been launched. -/
theorem not_jumpTargetsAreRelative : ¬ Obligations.JumpTargetsAreRelative := by
  rintro ⟨h, -, -⟩
  obtain ⟨hone, hnone⟩ := engineCrowded_fetched
  have hu : (engineCrowded.at (.engine 0)).dbgReg 0x25 = 0 := by decide
  have he := Host.Outcome.next.inj ((h (.engine 0) ⟨0⟩ engineCrowded engineCrowded_ready).symm.trans (exec_jump engineCrowded_ready))
  have hl := congrArg (fun t : State => (t.at (.engine 0)).link.waiting) he
  simp only [State.went_link hu, State.went_link ((State.fetched_dbgReg _ _ _).trans hu), hnone] at hl
  simp [hl] at hone

end Sys2Proof.Machine

namespace Sys2Proof.Machine

/-! Image words: the copies, the select bits and the planes of the Hearth, each read after each write (R104, R114) -/

theorem testBit_add_two_pow {v i : Nat} (j : Nat) (h : v.testBit i = false) :
    (v + 2 ^ i).testBit j = (decide (i = j) || v.testBit j) := by
  induction i generalizing v j with
  | zero =>
    have hv : v % 2 = 0 := by simpa [Nat.testBit_zero] using h
    cases j with
    | zero => simp [Nat.testBit_zero, show (v + 1) % 2 = 1 by omega]
    | succ j => simp [Nat.testBit_succ, show (v + 1) / 2 = v / 2 by omega]
  | succ i ih =>
    have hp : 2 ^ (i + 1) = 2 * 2 ^ i := Nat.pow_succ'
    cases j with
    | zero => simp [Nat.testBit_zero, hp, Nat.add_mod]
    | succ j =>
      rw [Nat.testBit_succ] at h ⊢
      rw [Nat.testBit_succ, show (v + 2 ^ (i + 1)) / 2 = v / 2 + 2 ^ i by omega, ih j h]
      simp

theorem bitOf_withBit_true (v i j : Nat) : bitOf (withBit v i true) j = (decide (i = j) || bitOf v j) := by
  unfold bitOf withBit
  cases hv : v.testBit i with
  | false => simpa using testBit_add_two_pow j hv
  | true =>
    by_cases hj : i = j
    · subst hj; simp [hv]
    · simp [hj]

section
variable (h : Hearth)

theorem Hearth.copy_setCopy (x y : Bool) (w u : Nat) (v : W36) :
    (h.setCopy x w v).copy y u = if y = x ∧ u = w then v else h.copy y u := by
  by_cases hu : u = w
  · subst hu
    cases x <;> cases y <;> simp [Hearth.setCopy, Hearth.copy]
  · cases x <;> cases y <;> simp [Hearth.setCopy, Hearth.copy, Sparse.get_put_other, hu]

@[simp] theorem Hearth.selOf_setCopy (x : Bool) (w u : Nat) (v : W36) : (h.setCopy x w v).selOf u = h.selOf u := by
  cases x <;> rfl

@[simp] theorem Hearth.maskPlane_setCopy (x : Bool) (w : Nat) (v : W36) (k p : Nat) :
    (h.setCopy x w v).maskPlane k p = h.maskPlane k p := by
  cases x <;> rfl

@[simp] theorem Hearth.bad_setCopy (x : Bool) (w : Nat) (v : W36) : (h.setCopy x w v).bad = h.bad := by
  cases x <;> rfl

@[simp] theorem Hearth.classMap_setCopy (x : Bool) (w : Nat) (v : W36) : (h.setCopy x w v).classMap = h.classMap := by
  cases x <;> rfl

theorem Hearth.selOf_setSel (w u : Nat) (x : Bool) : (h.setSel w x).selOf u = if u = w then x else h.selOf u := by
  by_cases hu : u = w
  · subst hu; simp [Hearth.setSel, Hearth.selOf]
  · simp [Hearth.setSel, Hearth.selOf, Sparse.get_put_other, hu]

@[simp] theorem Hearth.copy_setSel (w u : Nat) (x y : Bool) : (h.setSel w x).copy y u = h.copy y u := rfl
@[simp] theorem Hearth.maskPlane_setSel (w : Nat) (x : Bool) (k p : Nat) : (h.setSel w x).maskPlane k p = h.maskPlane k p := rfl
@[simp] theorem Hearth.bad_setSel (w : Nat) (x : Bool) : (h.setSel w x).bad = h.bad := rfl
@[simp] theorem Hearth.classMap_setSel (w : Nat) (x : Bool) : (h.setSel w x).classMap = h.classMap := rfl

/-- A mask plane just written reads as written, whatever the class and the parity. -/
@[simp] theorem Hearth.maskPlane_setMaskPlane_same (k p : Nat) (m : Sparse Nat) : (h.setMaskPlane k p m).maskPlane k p = m := by
  obtain _ | _ | k := k <;> obtain _ | p := p <;> rfl

/-- After one mask plane is written, each of the six is either the plane written or as it was. -/
theorem Hearth.maskPlane_setMaskPlane (k p k' p' : Nat) (m : Sparse Nat) :
    ((h.setMaskPlane k p m).maskPlane k' p' = m ∧ h.maskPlane k' p' = h.maskPlane k p) ∨
      (h.setMaskPlane k p m).maskPlane k' p' = h.maskPlane k' p' := by
  obtain _ | _ | k := k <;> obtain _ | p := p <;> obtain _ | _ | k' := k' <;> obtain _ | p' := p' <;>
    simp [Hearth.setMaskPlane, Hearth.maskPlane]

@[simp] theorem Hearth.copy_setMaskPlane (k p : Nat) (m : Sparse Nat) (x : Bool) (w : Nat) :
    (h.setMaskPlane k p m).copy x w = h.copy x w := by
  unfold Hearth.setMaskPlane; split <;> rfl

@[simp] theorem Hearth.selOf_setMaskPlane (k p : Nat) (m : Sparse Nat) (w : Nat) :
    (h.setMaskPlane k p m).selOf w = h.selOf w := by
  unfold Hearth.setMaskPlane; split <;> rfl

@[simp] theorem Hearth.bad_setMaskPlane (k p : Nat) (m : Sparse Nat) : (h.setMaskPlane k p m).bad = h.bad := by
  unfold Hearth.setMaskPlane; split <;> rfl

@[simp] theorem Hearth.classMap_setMaskPlane (k p : Nat) (m : Sparse Nat) : (h.setMaskPlane k p m).classMap = h.classMap := by
  unfold Hearth.setMaskPlane; split <;> rfl

/-- A stir plane just written reads as written, whatever the class and the parity. -/
@[simp] theorem Hearth.stirPlane_setStirPlane_same (k p : Nat) (m : Plane) : (h.setStirPlane k p m).stirPlane k p = m := by
  obtain _ | _ | k := k <;> obtain _ | p := p <;> rfl

/-- After one stir plane is written, each of the six is either the plane written or as it was. -/
theorem Hearth.stirPlane_setStirPlane (k p k' p' : Nat) (m : Plane) :
    ((h.setStirPlane k p m).stirPlane k' p' = m) ∨ (h.setStirPlane k p m).stirPlane k' p' = h.stirPlane k' p' := by
  obtain _ | _ | k := k <;> obtain _ | p := p <;> obtain _ | _ | k' := k' <;> obtain _ | p' := p' <;>
    simp [Hearth.setStirPlane, Hearth.stirPlane]

@[simp] theorem Hearth.copy_setStirPlane (k p : Nat) (m : Plane) (x : Bool) (w : Nat) :
    (h.setStirPlane k p m).copy x w = h.copy x w := by
  unfold Hearth.setStirPlane; split <;> rfl

@[simp] theorem Hearth.selOf_setStirPlane (k p : Nat) (m : Plane) (w : Nat) : (h.setStirPlane k p m).selOf w = h.selOf w := by
  unfold Hearth.setStirPlane; split <;> rfl

@[simp] theorem Hearth.maskPlane_setStirPlane (k p : Nat) (m : Plane) (k' p' : Nat) :
    (h.setStirPlane k p m).maskPlane k' p' = h.maskPlane k' p' := by
  unfold Hearth.setStirPlane; split <;> rfl

@[simp] theorem Hearth.bad_setStirPlane (k p : Nat) (m : Plane) : (h.setStirPlane k p m).bad = h.bad := by
  unfold Hearth.setStirPlane; split <;> rfl

@[simp] theorem Hearth.classMap_setStirPlane (k p : Nat) (m : Plane) : (h.setStirPlane k p m).classMap = h.classMap := by
  unfold Hearth.setStirPlane; split <;> rfl

end

/-- The bit of a granule just set reads as set. -/
@[simp] theorem Plane.at_setAt (p : Plane) (j : Nat) : (p.setAt j).at j = true := by simp [Plane.at, Plane.setAt]

/-! Marking a word as written (R104) -/

/-- The bit of word `w` in mask plane m[k][p]. -/
def Hearth.maskBit (h : Hearth) (k p w : Nat) : Bool := bitOf (Sparse.get (h.maskPlane k p) 0 (w / 32)) (w % 32)

/-- The Hearth with the bit of word `w` set in mask plane m[k][p]. -/
def Hearth.mark (h : Hearth) (k p w : Nat) : Hearth :=
  h.setMaskPlane k p (Sparse.put (h.maskPlane k p) 0 (w / 32)
    (withBit (Sparse.get (h.maskPlane k p) 0 (w / 32)) (w % 32) true))

theorem Hearth.maskBit_mark_same (h : Hearth) (k p w : Nat) : (h.mark k p w).maskBit k p w = true := by
  simp [Hearth.mark, Hearth.maskBit, bitOf_withBit_true]

/-- Marking a word leaves the bits of every other word in every plane alone. -/
theorem Hearth.maskBit_mark_other (h : Hearth) (k p k' p' : Nat) {w u : Nat} (hu : u ≠ w) :
    (h.mark k p w).maskBit k' p' u = h.maskBit k' p' u := by
  unfold Hearth.mark Hearth.maskBit
  obtain ⟨hm, he⟩ | hm := h.maskPlane_setMaskPlane k p k' p' (Sparse.put (h.maskPlane k p) 0 (w / 32)
    (withBit (Sparse.get (h.maskPlane k p) 0 (w / 32)) (w % 32) true))
  · rw [hm, he]
    by_cases hj : u / 32 = w / 32
    · have hi : w % 32 ≠ u % 32 := by omega
      simp [hj, bitOf_withBit_true, hi]
    · rw [Sparse.get_put_other _ _ _ _ hj]
  · rw [hm]

/-! Stirring (R115) -/

/-- The Hearth with the bit of granule `j` set in stir plane s[k][p]. -/
def Hearth.stir (h : Hearth) (k p j : Nat) : Hearth := h.setStirPlane k p ((h.stirPlane k p).setAt j)

theorem State.stirGranule_hearth (s : State) (j : Nat) :
    (s.stirGranule j).hearth = ((s.hearth.stir 0 (s.par 0) j).stir 1 (s.par 1) j).stir 2 (s.par 2) j := rfl

theorem Hearth.at_stir_same (h : Hearth) (k p j : Nat) : ((h.stir k p j).stirPlane k p).at j = true := by simp [Hearth.stir]

/-- Stirring a granule in one plane leaves it stirred wherever it was. -/
theorem Hearth.at_stir_of_at {h : Hearth} {k' p' j : Nat} (k p : Nat) (hs : (h.stirPlane k' p').at j = true) :
    ((h.stir k p j).stirPlane k' p').at j = true := by
  obtain he | he := h.stirPlane_setStirPlane k p k' p' ((h.stirPlane k p).setAt j) <;> simp [Hearth.stir, he, hs]

/-- A granule stirred is stirred in the current maps of all three classes. -/
theorem State.at_stirGranule (s : State) (k : Fin 3) (j : Nat) :
    ((s.stirGranule j).hearth.stirPlane k.val (s.par k.val)).at j = true := by
  rw [State.stirGranule_hearth]
  match k with
  | 0 => exact Hearth.at_stir_of_at _ _ (Hearth.at_stir_of_at _ _ (Hearth.at_stir_same _ _ _ _))
  | 1 => exact Hearth.at_stir_of_at _ _ (Hearth.at_stir_same _ _ _ _)
  | 2 => exact Hearth.at_stir_same _ _ _ _

section
variable (s : State) (j : Nat)

@[simp] theorem State.stirGranule_regs : (s.stirGranule j).regs = s.regs := rfl

@[simp] theorem State.stirGranule_copy (x : Bool) (w : Nat) : (s.stirGranule j).hearth.copy x w = s.hearth.copy x w := by
  simp [State.stirGranule_hearth, Hearth.stir]

@[simp] theorem State.stirGranule_selOf (w : Nat) : (s.stirGranule j).hearth.selOf w = s.hearth.selOf w := by
  simp [State.stirGranule_hearth, Hearth.stir]

@[simp] theorem State.stirGranule_maskPlane (k p : Nat) : (s.stirGranule j).hearth.maskPlane k p = s.hearth.maskPlane k p := by
  simp [State.stirGranule_hearth, Hearth.stir]

@[simp] theorem State.stirGranule_bad : (s.stirGranule j).hearth.bad = s.hearth.bad := by
  simp [State.stirGranule_hearth, Hearth.stir]

@[simp] theorem State.stirGranule_classMap : (s.stirGranule j).hearth.classMap = s.hearth.classMap := by
  simp [State.stirGranule_hearth, Hearth.stir]

end

/-! A store that is not silent: the word marked, its selected copy written, its granule stirred (R105) -/

/-- The state in which word `w` is marked written and its other copy selected, unless it was marked already. -/
def State.markWord (s : State) (w : Nat) : State :=
  if s.written w then s
  else s.onHearth fun h => (h.setSel w (!h.selOf w)).mark (s.wordClass w) (s.par (s.wordClass w)) w

/-- The copy that a store to word `w` writes: the selected one where the word is written already, else the other one. -/
def State.storeSel (s : State) (w : Nat) : Bool := if s.written w then s.hearth.selOf w else !s.hearth.selOf w

theorem State.storeWord_eq (s : State) (w : Nat) (v : W36) :
    s.storeWord w v = ((s.markWord w).onHearth fun h => h.setCopy (h.selOf w) w v).stirGranule (w / 32) := rfl

theorem State.written_eq (s : State) (w : Nat) :
    s.written w = (decide (s.wordClass w ≠ 3) && s.hearth.maskBit (s.wordClass w) (s.par (s.wordClass w)) w) := rfl

section
variable (s : State) (w u : Nat)

@[simp] theorem State.regs_markWord : (s.markWord w).regs = s.regs := by
  unfold State.markWord; split <;> rfl

@[simp] theorem State.bad_markWord : (s.markWord w).hearth.bad = s.hearth.bad := by
  unfold State.markWord; split <;> simp [State.onHearth, Hearth.mark]

@[simp] theorem State.classMap_markWord : (s.markWord w).hearth.classMap = s.hearth.classMap := by
  unfold State.markWord; split <;> simp [State.onHearth, Hearth.mark]

@[simp] theorem State.copy_markWord (x : Bool) : (s.markWord w).hearth.copy x u = s.hearth.copy x u := by
  unfold State.markWord; split <;> simp [State.onHearth, Hearth.mark]

theorem State.selOf_markWord : (s.markWord w).hearth.selOf u = if u = w then s.storeSel w else s.hearth.selOf u := by
  unfold State.markWord State.storeSel
  split <;> simp [State.onHearth, Hearth.mark, Hearth.selOf_setSel]
  rintro rfl
  rfl

@[simp] theorem State.wordClass_markWord : (s.markWord w).wordClass u = s.wordClass u := by
  simp [State.wordClass, State.granClass]

@[simp] theorem State.par_markWord (k : Nat) : (s.markWord w).par k = s.par k := by simp [State.par, State.fld]

variable {w}

theorem State.written_markWord_same (hk : s.wordClass w ≠ 3) : (s.markWord w).written w = true := by
  cases hw : s.written w with
  | true => simp [State.markWord, hw]
  | false =>
    rw [State.written_eq, State.wordClass_markWord, State.par_markWord]
    simp [State.markWord, hw, hk, State.onHearth, Hearth.maskBit_mark_same]

variable {u}

theorem State.written_markWord_other (hu : u ≠ w) : (s.markWord w).written u = s.written u := by
  rw [State.written_eq, State.written_eq s, State.wordClass_markWord, State.par_markWord]
  unfold State.markWord
  split
  · rfl
  · simp only [State.onHearth, Hearth.maskBit_mark_other _ _ _ _ _ hu]
    rfl

end

section
variable (s : State) (w u : Nat) (v : W36)

@[simp] theorem State.wordClass_storeWord : (s.storeWord w v).wordClass u = s.wordClass u := by
  simp [State.storeWord_eq, State.wordClass, State.granClass, State.onHearth]

@[simp] theorem State.par_storeWord (k : Nat) : (s.storeWord w v).par k = s.par k := by
  simp [State.storeWord_eq, State.par, State.fld]

@[simp] theorem State.copyBad_storeWord (x : Bool) : (s.storeWord w v).copyBad x u = s.copyBad x u := by
  simp [State.storeWord_eq, State.copyBad, State.onHearth]

theorem State.selOf_storeWord :
    (s.storeWord w v).hearth.selOf u = if u = w then s.storeSel w else s.hearth.selOf u := by
  simp [State.storeWord_eq, State.onHearth, State.selOf_markWord]

theorem State.copy_storeWord (x : Bool) :
    (s.storeWord w v).hearth.copy x u = if x = s.storeSel w ∧ u = w then v else s.hearth.copy x u := by
  simp [State.storeWord_eq, State.onHearth, State.selOf_markWord, Hearth.copy_setCopy]

/-- Writing a copy and stirring leave the mask planes as marking the word left them. -/
theorem State.written_storeWord : (s.storeWord w v).written u = (s.markWord w).written u := by
  rw [State.written_eq, State.written_eq (s.markWord w), State.wordClass_storeWord, State.par_storeWord,
    State.wordClass_markWord, State.par_markWord]
  simp [State.storeWord_eq, State.onHearth, Hearth.maskBit]

/-- A store leaves both copies of every other word, and the other copy of its own word, alone. -/
theorem State.copyValue_storeWord_other {x : Bool} (h : ¬(x = s.storeSel w ∧ u = w)) :
    (s.storeWord w v).copyValue x u = s.copyValue x u := by
  simp [State.copyValue, State.copy_storeWord, h]

variable {w u}

theorem State.readCur_storeWord_same (h : s.copyBad (s.storeSel w) w = false) : (s.storeWord w v).readCur w = v := by
  simp [State.readCur, State.copyValue, State.selOf_storeWord, State.copy_storeWord, h]

theorem State.written_storeWord_same (hk : s.wordClass w ≠ 3) : (s.storeWord w v).written w = true :=
  (s.written_storeWord w w v).trans (s.written_markWord_same hk)

theorem State.readPrev_storeWord_same (hk : s.wordClass w ≠ 3) :
    (s.storeWord w v).readPrev w = s.copyValue (!s.storeSel w) w := by
  rw [State.readPrev, State.prevSel, if_pos (s.written_storeWord_same v hk), State.selOf_storeWord, if_pos rfl]
  exact State.copyValue_storeWord_other _ _ _ _ (by simp)

theorem State.readCur_storeWord_other (hu : u ≠ w) : (s.storeWord w v).readCur u = s.readCur u := by
  rw [State.readCur, State.selOf_storeWord, if_neg hu]
  exact State.copyValue_storeWord_other _ _ _ _ (by simp [hu])

theorem State.written_storeWord_other (hu : u ≠ w) : (s.storeWord w v).written u = s.written u :=
  (s.written_storeWord w u v).trans (s.written_markWord_other hu)

theorem State.readPrev_storeWord_other (hu : u ≠ w) : (s.storeWord w v).readPrev u = s.readPrev u := by
  rw [State.readPrev, State.prevSel, State.written_storeWord_other _ _ hu, State.selOf_storeWord, if_neg hu]
  exact State.copyValue_storeWord_other _ _ _ _ (by simp [hu])

/-- A store that is not silent stirs its granule in the current maps of all three classes. -/
theorem State.at_storeWord (k : Fin 3) :
    ((s.storeWord w v).hearth.stirPlane k.val (s.par k.val)).at (w / 32) = true := by
  rw [State.storeWord_eq, ← State.par_markWord s w]
  exact State.at_stirGranule _ k _

end

/-! Writes of an assigned word neither of whose copies fails its check (R105, R106) -/

section
variable {s : State} {w : Nat} (hc : s.copyBad false w = false ∧ s.copyBad true w = false) (hk : s.wordClass w < 3)
include hc

theorem State.copyBad_of_clean (x : Bool) : s.copyBad x w = false := by
  cases x
  · exact hc.1
  · exact hc.2

theorem State.copyValue_of_clean (x : Bool) : s.copyValue x w = s.hearth.copy x w := by
  simp [State.copyValue, State.copyBad_of_clean hc]

include hk

/-- A write of the value that the word holds is silent. -/
theorem State.writeWord_silent : s.writeWord w (s.readCur w) = s := by
  simp [State.writeWord, hc, hk.ne]

/-- A write of another value is a store. -/
theorem State.writeWord_store {v : W36} (hv : v ≠ s.readCur w) : s.writeWord w v = s.storeWord w v := by
  simp [State.writeWord, hc, hk.ne, hv]

/-- After a write of another value the copy stored into is the current value and selected, the other copy is the previous value,
and the word counts as written. -/
theorem State.writeWord_stored {v : W36} (hv : v ≠ s.readCur w) :
    (s.writeWord w v).readCur w = v ∧ (s.writeWord w v).readPrev w = s.copyValue (!s.storeSel w) w ∧
      (s.writeWord w v).written w = true ∧ (s.writeWord w v).hearth.selOf w = s.storeSel w := by
  rw [State.writeWord_store hc hk hv]
  exact ⟨s.readCur_storeWord_same v (State.copyBad_of_clean hc _), s.readPrev_storeWord_same v hk.ne,
    s.written_storeWord_same v hk.ne, by rw [State.selOf_storeWord, if_pos rfl]⟩

end

/-- Settles O9: a write of the current value is silent, and any other is a store, which marks the word, writes the copy that it
then selects and stirs the granule. -/
theorem imageWritesFollowThePseudocode : Obligations.ImageWritesFollowThePseudocode := by
  unfold Obligations.ImageWritesFollowThePseudocode
  refine ⟨fun s w hc => ?_, fun s w v hc hk hv => ?_, fun s w v hc hk hv hw _ => ?_, fun s w v hc hk hv hw _ => ?_,
    fun s w v x hc hk hx => ?_, fun s w v k hc hk hv _ _ _ => ?_⟩
  · refine ⟨State.copyValue_of_clean hc _, ?_⟩
    rw [State.readPrev, State.copyValue_of_clean hc, State.prevSel]
    split <;> rfl
  · rw [hv]
    exact State.writeWord_silent hc hk
  · have hs : s.storeSel w = !s.hearth.selOf w := by simp [State.storeSel, hw]
    obtain ⟨hcur, hprev, hwritten, hsel⟩ := State.writeWord_stored hc hk hv
    rw [hs, Bool.not_not] at hprev
    exact ⟨hcur, hprev, hwritten, hsel.trans hs⟩
  · have hs : s.storeSel w = s.hearth.selOf w := by simp [State.storeSel, hw]
    obtain ⟨hcur, hprev, hwritten, hsel⟩ := State.writeWord_stored hc hk hv
    have hold : s.readPrev w = s.copyValue (!s.storeSel w) w := by rw [State.readPrev, State.prevSel, if_pos hw, hs]
    exact ⟨hcur, hprev.trans hold.symm, hwritten, hsel.trans hs⟩
  · by_cases hv : v = s.readCur w
    · rw [hv, State.writeWord_silent hc hk]
      exact ⟨rfl, rfl, rfl⟩
    · rw [State.writeWord_store hc hk hv]
      exact ⟨s.readCur_storeWord_other v hx, s.readPrev_storeWord_other v hx, s.written_storeWord_other v hx⟩
  · rw [State.writeWord_store hc hk hv]
    exact s.at_storeWord v k

/-! Silent stores, whoever writes (R106) -/

/-- A word whose V is clear is its own poisoned value (R125). -/
theorem clearV_of_clear {v : W36} (h : v.toNat.testBit 35 = false) : BitVec.ofNat 36 (withBit v.toNat 35 false) = v := by
  simp [withBit, h]

/-- Words written with the values that they hold change nothing. -/
theorem State.writeWords_silent {s : State} (ws : List W36) (w : Nat)
    (h : ∀ n, n < ws.length → s.copyBad false (w + n) = false ∧ s.copyBad true (w + n) = false ∧ s.wordClass (w + n) < 3 ∧
      ws.getD n 0 = s.readCur (w + n)) : s.writeWords w ws = s := by
  induction ws generalizing w with
  | nil => rfl
  | cons v rest ih =>
    obtain ⟨hA, hB, hk, hv⟩ := h 0 (by simp)
    obtain rfl : v = s.readCur w := hv
    have hs : s.writeWord w (s.readCur w) = s := State.writeWord_silent ⟨hA, hB⟩ hk
    rw [State.writeWords, hs]
    refine ih (w + 1) fun n hn => ?_
    rw [show w + 1 + n = w + (n + 1) by omega]
    exact h (n + 1) (Nat.succ_lt_succ hn)

/-- A store of an engine outside a sandbox of the value that the word holds is a plain write, audited or not (R204). -/
theorem State.engineStore_current {s : State} {e : Nat} (h : s.inSandbox e = false) (a : Nat) (i : Option Nat) :
    s.engineStore e a i (s.readCur (imageWord a)) = s.writeWord (imageWord a) (s.readCur (imageWord a)) := by
  cases hr : (s.core e).run with
  | none => simp [State.engineStore, hr]
  | some r =>
    have hb : r.sandbox = false := by simpa [State.inSandbox, hr] using h
    simp [State.engineStore, hr, hb]

/-- Settles O10: each writer comes to the one write of the word's current value, which is silent. -/
theorem silentStoresChangeNothing : Obligations.SilentStoresChangeNothing := by
  unfold Obligations.SilentStoresChangeNothing
  refine ⟨fun s w hc hk => State.writeWord_silent hc hk, fun s w ws h => State.writeWords_silent ws w h,
    fun s e a i w hw hc hk hs => ?_, fun s w hc hk hv => ?_, fun s w hc hk hn => ?_⟩
  · subst hw
    exact (State.engineStore_current hs a i).trans (State.writeWord_silent hc hk)
  · rw [State.poisonWord, clearV_of_clear hv]
    exact State.writeWord_silent hc hk
  · rw [State.injectWrite, if_pos hn]
    exact State.writeWord_silent hc hk

/-! The commands of the Hearth (R108, R127, R132, R136 to R138) -/

/-- A capture's end for which neither a power failure, nor Raking, nor an edit waits only ends the capture (R127). -/
theorem execRetainCaptureEnd_unasked {s : State} (hb : s.bit Reg.hrtStatusCaptureBusy = true)
    (hp : s.endCapture.mantel.pf ≠ 1) (hr : s.endCapture.raking = none) (he : s.endCapture.edit.captureDue = false) :
    execRetainCaptureEnd s = .next { s.endCapture with edit := { s.endCapture.edit with captureDue := false } } := by
  simp [execRetainCaptureEnd, hb, hp, hr, he]

/-- Settles O32: each command's condition selects the branch that carries it out. -/
theorem hearthCommandsComplete : Obligations.HearthCommandsComplete := by
  unfold Obligations.HearthCommandsComplete
  refine ⟨fun s off len hu => if_pos hu, fun s off data hu => if_pos hu, fun s k hs => if_pos hs,
    fun s found hm hs => if_pos (by simp [hm, hs]), fun s r v hw hv hb => ?_,
    fun s hb hp hr he => execRetainCaptureEnd_unasked hb hp hr he, fun s granule hr hg => if_pos ⟨hr, hg⟩⟩
  exact congrArg Host.Outcome.next ((State.writeAs_mayWrite hw _ _).trans (if_pos (by simp [hv, hb])))

end Sys2Proof.Machine

namespace Sys2Proof.Machine

/-! The words that register instructions write (R51, R53, R54, R142, R148 to R151) -/

theorem Computed.word_good (v : Nat) (ws : List W36) : (good v).word ws = qw v (mergeWs ws) := rfl

theorem bit01_decide (p : Prop) [Decidable p] : bit01 (decide p) = if p then 1 else 0 := by simp [bit01]

/-- A compare writes 1 or 0 (R54, R153). -/
theorem Computed.word_truth (p : Prop) [Decidable p] (ws : List W36) :
    (truth (decide p)).word ws = qw (if p then 1 else 0) (mergeWs ws) := by rw [truth, word_good, bit01_decide]

theorem qOf_lt (w : W36) : qOf w < 16 := by
  have := w.isLt
  unfold qOf
  omega

/-- The quality of a literal is neutral in a merge (R51). -/
theorem mergeQ_lit_left {q : Nat} (h : q < 16) : mergeQ 8 q = q :=
  (by decide : ∀ q : Fin 16, mergeQ 8 q = q) ⟨q, h⟩

theorem mergeWs_pair (a b : W36) : mergeWs [a, b] = mergeQ (qOf a) (qOf b) := by
  simp [mergeWs, mergeQ_lit_left (qOf_lt a)]

/-- A clamped result of two words has V clear, another has their merged quality (R151). -/
theorem Computed.word_clamp (v : Int) (a b : W36) : (clamp v).word [a, b] = saturated v (mergeQ (qOf a) (qOf b)) := by
  rw [← mergeWs_pair]
  unfold clamp saturated
  split
  · rfl
  · split <;> rfl

/-- The value of a literal shift amount is the amount (R148). -/
theorem val_litQ_amount (n : Nat) : val (litQ (n % 32)) % 32 = n % 32 := by
  simp only [val, litQ, qw, qLit, BitVec.toNat_ofNat]
  omega

/-- The halves of a pair are those of its 64 bits (R150). -/
theorem pairWrite_mod (d : Reg) (v q : Nat) : pairWrite d (v % 2 ^ 64) q = pairWrite d v q := by
  have hlo : v % 2 ^ 64 % 2 ^ 32 = v % 2 ^ 32 := by omega
  have hhi : v % 2 ^ 64 / 2 ^ 32 % 2 ^ 32 = v / 2 ^ 32 % 2 ^ 32 := by omega
  simp only [pairWrite, qw, hlo, hhi]

/-! Register instructions, one lemma for each operand form -/

theorem Computes.congr {i : Instr} {c : CoreId} {len : Nat} {srcs dests : List Reg} {f g : Core → List (Reg × W36)}
    (h : Computes i c len srcs dests f) (hf : ∀ x, f x = g x) : Computes i c len srcs dests g := funext hf ▸ h

section
variable {i : Instr} {c : CoreId} {o : OpA}

/-- Two quality words (R147). -/
theorem computes_opQ2 (f : W36 → W36 → Computed) (hi : ∀ s, exec i s = .next (s.runOp c 1 (opQ2 f o))) (hx : o.x = 0) :
    Computes i c 1 [o.a, o.b] [o.d] fun x => [(o.d, (f (x.seeQ o.a) (x.seeQ o.b)).word [x.seeQ o.a, x.seeQ o.b])] :=
  computes_of_op hi fun _ => if_neg (not_not_intro hx)

/-- Two quality words and the sub-code x (R147). -/
theorem computes_opQ2x (sub : Nat) (f : W36 → W36 → Computed) (hi : ∀ s, exec i s = .next (s.runOp c 1 (opQ2x sub f o)))
    (hx : o.x.toNat = sub) :
    Computes i c 1 [o.a, o.b] [o.d] fun x => [(o.d, (f (x.seeQ o.a) (x.seeQ o.b)).word [x.seeQ o.a, x.seeQ o.b])] :=
  computes_of_op hi fun _ => if_neg (not_not_intro hx)

/-- A compare of two quality words (R153). -/
theorem computes_compare (p : W36 → W36 → Prop) [∀ a b, Decidable (p a b)]
    (hi : ∀ s, exec i s = .next (s.runOp c 1 (opQ2 (fun a b => truth (decide (p a b))) o))) (hx : o.x = 0) :
    Computes i c 1 [o.a, o.b] [o.d] fun x =>
      [(o.d, qw (if p (x.seeQ o.a) (x.seeQ o.b) then 1 else 0) (mergeWs [x.seeQ o.a, x.seeQ o.b]))] :=
  (computes_opQ2 _ hi hx).congr fun x => by rw [Computed.word_truth]

/-- One quality word (R147, R163). -/
theorem computes_opQ1 (f : W36 → Computed) (hi : ∀ s, exec i s = .next (s.runOp c 1 (opQ1 f o))) (hb : o.b = 0)
    (hx : o.x = 0) : Computes i c 1 [o.a] [o.d] fun x => [(o.d, (f (x.seeQ o.a)).word [x.seeQ o.a])] :=
  computes_of_op hi fun _ => if_neg (by simp [hb, hx])

/-- Two quality words that give a whole word (R171). -/
theorem computes_opW2 (f : W36 → W36 → W36) (hi : ∀ s, exec i s = .next (s.runOp c 1 (opW2 f o))) (hx : o.x = 0) :
    Computes i c 1 [o.a, o.b] [o.d] fun x => [(o.d, f (x.seeQ o.a) (x.seeQ o.b))] :=
  computes_of_op hi fun _ => if_neg (not_not_intro hx)

/-- One quality word that gives a whole word (R171). -/
theorem computes_opW1 (f : W36 → W36) (hi : ∀ s, exec i s = .next (s.runOp c 1 (opW1 f o))) (hb : o.b = 0) (hx : o.x = 0) :
    Computes i c 1 [o.a] [o.d] fun x => [(o.d, f (x.seeQ o.a))] :=
  computes_of_op hi fun _ => if_neg (by simp [hb, hx])

/-- Two plain words (R152). -/
theorem computes_opP2 (f : W36 → W36 → W36) (hi : ∀ s, exec i s = .next (s.runOp c 1 (opP2 f o))) (hx : o.x = 0) :
    Computes i c 1 [o.a, o.b] [o.d] fun x => [(o.d, f (x.see o.a) (x.see o.b))] :=
  computes_of_op hi fun _ => if_neg (not_not_intro hx)

/-- Two pairs (R150). -/
theorem computes_opPair (f : Nat → Nat → Nat) (hi : ∀ s, exec i s = .next (s.runOp c 1 (opPair f o))) (hx : o.x = 0)
    (hd : o.d.toNat % 2 = 0) (ha : o.a.toNat % 2 = 0) (hb : o.b.toNat % 2 = 0) :
    Computes i c 1 [o.a, o.a + 1, o.b, o.b + 1] [o.d, o.d + 1] fun x =>
      pairWrite o.d (f (pairOf x o.a) (pairOf x o.b) % 2 ^ 64)
        (mergeWs [x.seeQ o.a, x.seeQ (o.a + 1), x.seeQ o.b, x.seeQ (o.b + 1)]) := by
  simp only [pairWrite_mod]
  exact computes_of_op hi fun _ => if_neg (by simp [hx, even_iff, hd, ha, hb])

/-- An odd register of a pair operation is ILLEGAL (R150). -/
theorem traps_opPair {f : Nat → Nat → Nat} (hi : ∀ s, exec i s = .next (s.runOp c 1 (opPair f o)))
    (h : o.d.toNat % 2 = 1 ∨ o.a.toNat % 2 = 1 ∨ o.b.toNat % 2 = 1) : Traps i c 1 0x01 :=
  traps_of_illegal hi fun _ => if_pos (by simp [even, h])

/-- x[12] of a format A word (R148). -/
theorem testBit_twelve (x : BitVec 13) : x.toNat.testBit 12 = decide (4096 ≤ x.toNat) := by
  have hlt := x.isLt
  rw [Nat.testBit_eq_decide_div_mod_eq, decide_eq_decide]
  omega

theorem Core.amount_register (x : Core) (h : o.x = 0) : x.amount o = x.seeQ o.b := if_neg (by simp [shiftLit, h])

theorem Core.amount_literal (x : Core) (h : o.x.toNat / 32 = 128) : x.amount o = litQ (o.x.toNat % 32) :=
  if_pos (by rw [shiftLit, testBit_twelve, decide_eq_true_eq]; omega)

/-- The encodings of a shift amount (R148). -/
theorem shiftOk_iff : shiftOk o = true ↔ o.x = 0 ∨ (o.x.toNat / 32 = 128 ∧ o.b = 0) := by
  have hlt := o.x.isLt
  have hx : o.x = 0 ↔ o.x.toNat = 0 := BitVec.toNat_inj.symm
  rw [shiftOk, testBit_twelve, hx]
  by_cases h : 4096 ≤ o.x.toNat
  · have hb : bitsOf o.x.toNat 5 7 = 0 ↔ o.x.toNat / 32 = 128 := by unfold bitsOf; omega
    have h0 : o.x.toNat ≠ 0 := by omega
    simp [h, hb, h0, and_comm]
  · have hb : bitsOf o.x.toNat 0 12 = 0 ↔ o.x.toNat = 0 := by unfold bitsOf; omega
    have h128 : o.x.toNat / 32 ≠ 128 := by omega
    simp [h, hb, h128]

section
variable (g : Core → W36 → W36)
  (hi : ∀ s, exec i s = .next (s.runOp c 1 fun s c =>
    if !shiftOk o then s.illegal c else s.compute c 1 (shiftSrcs o) [o.d] fun x => [(o.d, g x (x.amount o))]))
include hi

/-- A shift by a register, where `g` gives the word from the core and the amount (R148). -/
theorem computes_shift_register (hx : o.x = 0) : Computes i c 1 [o.a, o.b] [o.d] fun x => [(o.d, g x (x.seeQ o.b))] := by
  obtain ⟨hok, hs⟩ := shiftOk_register hx
  exact hs ▸ (computes_of_op hi fun _ => if_neg (by simp [hok])).congr fun x => by rw [x.amount_register hx]

/-- A shift by a literal, where `g` gives the word from the core and the amount (R148). -/
theorem computes_shift_literal (hx : o.x.toNat / 32 = 128) (hb : o.b = 0) :
    Computes i c 1 [o.a] [o.d] fun x => [(o.d, g x (litQ (o.x.toNat % 32)))] := by
  obtain ⟨hok, hs⟩ := shiftOk_literal hx hb
  exact hs ▸ (computes_of_op hi fun _ => if_neg (by simp [hok])).congr fun x => by rw [x.amount_literal hx]

/-- A shift whose amount is encoded in no other way is ILLEGAL (R148). -/
theorem traps_shift (hx : o.x ≠ 0) (hn : ¬(o.x.toNat / 32 = 128 ∧ o.b = 0)) : Traps i c 1 0x01 :=
  traps_of_illegal hi fun _ => if_pos (by simpa using mt shiftOk_iff.mp (not_or.mpr ⟨hx, hn⟩))

end

end

/-- A quality word and a literal (R68, R147). -/
theorem computes_opQI {i : Instr} {c : CoreId} {o : OpI} (f : W36 → W36 → Computed)
    (hi : ∀ s, exec i s = .next (s.runOp c 1 (opQI f o))) :
    Computes i c 1 [o.a] [o.d] fun x => [(o.d, (f (x.seeQ o.a) (immQ o.imm)).word [x.seeQ o.a, immQ o.imm])] :=
  computes_of_op hi fun _ => rfl

/-- A compare of a quality word and a literal (R153). -/
theorem computes_compareI {i : Instr} {c : CoreId} {o : OpI} (p : W36 → W36 → Prop) [∀ a b, Decidable (p a b)]
    (hi : ∀ s, exec i s = .next (s.runOp c 1 (opQI (fun a b => truth (decide (p a b))) o))) :
    Computes i c 1 [o.a] [o.d] fun x =>
      [(o.d, qw (if p (x.seeQ o.a) (immQ o.imm) then 1 else 0) (mergeWs [x.seeQ o.a, immQ o.imm]))] :=
  (computes_opQI _ hi).congr fun x => by rw [Computed.word_truth]

/-- A quality word and an immediate of four bits (R171). -/
theorem computes_opWI {i : Instr} {c : CoreId} {o : OpI} (f : W36 → Nat → W36)
    (hi : ∀ s, exec i s = .next (s.runOp c 1 (opWI f o))) (hm : o.imm.toNat < 16) :
    Computes i c 1 [o.a] [o.d] fun x => [(o.d, f (x.seeQ o.a) o.imm.toNat)] :=
  computes_of_op hi fun _ => if_neg (by omega)

/-- A literal of format L (R70). -/
theorem computes_opLit {i : Instr} {c : CoreId} {o : OpL} (f : W36 → W36)
    (hi : ∀ s, exec i s = .next (s.runOp c 2 (opLit f o))) (ha : o.a = 0) (hm : o.imm = 0) :
    Computes i c 2 [] [o.d] fun _ => [(o.d, f o.lit)] :=
  computes_of_op hi fun _ => if_neg (by simp [ha, hm])

/-- Settles O13: the sum and the difference are clamped on the way to the register. -/
theorem saturatingSumsClamp : Obligations.SaturatingSumsClamp := by
  refine ⟨fun c o hx => ?_, fun c o hx => ?_⟩
  · exact (computes_opQ2 vAdds (fun _ => rfl) hx).congr fun x => by rw [vAdds, Computed.word_clamp]
  · exact (computes_opQ2 vSubs (fun _ => rfl) hx).congr fun x => by rw [vSubs, Computed.word_clamp]

/-- The word of a quality shift of register `r` by an amount (R147, R148). -/
def shiftWord (f : W36 → W36 → Computed) (r : Reg) (x : Core) (b : W36) : W36 := (f (x.seeQ r) b).word [x.seeQ r, b]

/-- The word of SHLA of register `r` by an amount (R148, R152). -/
def shlaWord (r : Reg) (x : Core) (b : W36) : W36 := x.see r <<< (val b % 32)

/-- Settles O14: the encodings of an amount are two, and any other is ILLEGAL before anything is read. -/
theorem shiftAmountComesFromX12 : Obligations.ShiftAmountComesFromX12 := by
  refine ⟨fun c o hx => computes_shift_register (shiftWord vShl o.a) (fun _ => rfl) hx, fun c o hx hb => ?_,
    fun c o hx => computes_shift_register (shiftWord vShr o.a) (fun _ => rfl) hx, fun c o hx hb => ?_,
    fun c o hx => computes_shift_register (shiftWord vSar o.a) (fun _ => rfl) hx, fun c o hx hb => ?_,
    fun c o hx => computes_shift_register (shlaWord o.a) (fun _ => rfl) hx, fun c o hx hb => ?_, fun c o hx hn => ?_⟩
  · exact (computes_shift_literal (shiftWord vShl o.a) (fun _ => rfl) hx hb).congr fun x => by
      rw [shiftWord, vShl, val_litQ_amount, Computed.word_good]
  · exact (computes_shift_literal (shiftWord vShr o.a) (fun _ => rfl) hx hb).congr fun x => by
      rw [shiftWord, vShr, val_litQ_amount, Computed.word_good]
  · exact (computes_shift_literal (shiftWord vSar o.a) (fun _ => rfl) hx hb).congr fun x => by
      rw [shiftWord, vSar, val_litQ_amount, Computed.word_good]
  · exact (computes_shift_literal (shlaWord o.a) (fun _ => rfl) hx hb).congr fun x => by rw [shlaWord, val_litQ_amount]
  · exact ⟨traps_shift (shiftWord vShl o.a) (fun _ => rfl) hx hn, traps_shift (shiftWord vShr o.a) (fun _ => rfl) hx hn,
      traps_shift (shiftWord vSar o.a) (fun _ => rfl) hx hn, traps_shift (shlaWord o.a) (fun _ => rfl) hx hn⟩

/-- FEAT1 reports PAIR64 on an engine and on the Tender (R62, R150). -/
theorem State.sysRead_feat1_pair64 (s : State) (c : CoreId) : (s.sysRead c 0x001).toNat.testBit 1 = true := by
  unfold State.sysRead
  cases c <;> simp [isEngine, Nat.testBit]

/-- Settles O15: both halves of a pair come from one sum, and an odd register is ILLEGAL. -/
theorem pairSumsAreSixtyFourBit : Obligations.PairSumsAreSixtyFourBit :=
  ⟨fun _ _ hx hd ha hb => computes_opPair (fun p q => p + q) (fun _ => rfl) hx hd ha hb,
    fun _ _ hx hd ha hb => computes_opPair (fun p q => p + 2 ^ 64 - q) (fun _ => rfl) hx hd ha hb,
    fun _ _ h => ⟨traps_opPair (fun _ => rfl) h, traps_opPair (fun _ => rfl) h⟩, fun c s => s.sysRead_feat1_pair64 c⟩

/-- Settles O16: the selected register is the only operand that the word and its quality are made of. -/
theorem selReadsOnlyWhatItSelects : Obligations.SelReadsOnlyWhatItSelects := by
  intro c o hx
  refine (computes_of_op (fun _ => rfl) fun _ => if_neg (by omega)).congr fun x => ?_
  unfold Core.selected
  split <;> simp only [Computed.word_good, mergeWs_pair]

/-- Settles O12: each value is that of the table, and the quality that of the operand form. -/
theorem integerInstructionsComplete : Obligations.IntegerInstructionsComplete := by
  have sub0 {o : OpA} (hx : o.x = 0) : o.x.toNat = 0 := by rw [hx]; rfl
  have sub1 {o : OpA} (hx : o.x = 1) : o.x.toNat = 1 := by rw [hx]; rfl
  exact ⟨fun _ _ hx => computes_opQ2 vAdd (fun _ => rfl) hx,
    fun _ _ => computes_opQI vAdd fun _ => rfl,
    fun _ _ hx => computes_opQ2 vSub (fun _ => rfl) hx,
    fun _ _ hx => computes_opQ2 vMul (fun _ => rfl) hx,
    fun _ _ hx => computes_opQ2x 0 vMulh (fun _ => rfl) (sub0 hx),
    fun _ _ hx => computes_opQ2x 1 vMulhu (fun _ => rfl) (sub1 hx),
    fun _ _ hx => computes_opQ2x 0 vDiv (fun _ => rfl) (sub0 hx),
    fun _ _ hx => computes_opQ2x 1 vDivu (fun _ => rfl) (sub1 hx),
    fun _ _ hx => computes_opQ2x 0 vRem (fun _ => rfl) (sub0 hx),
    fun _ _ hx => computes_opQ2x 1 vRemu (fun _ => rfl) (sub1 hx),
    fun _ _ hx => computes_opQ2 vAnd (fun _ => rfl) hx,
    fun _ _ hx => computes_opQ2 vOr (fun _ => rfl) hx,
    fun _ _ hx => computes_opQ2 vXor (fun _ => rfl) hx,
    fun _ _ => computes_opQI vAnd fun _ => rfl,
    fun _ _ => computes_opQI vOr fun _ => rfl,
    fun _ _ => computes_opQI vXor fun _ => rfl,
    fun _ _ hx => computes_opQ2 vMin (fun _ => rfl) hx,
    fun _ _ hx => computes_opQ2 vMax (fun _ => rfl) hx,
    fun _ _ ha hm => computes_opLit (fun w => litQ (val w)) (fun _ => rfl) ha hm⟩

/-- Settles O17: plain words, all 36 bits. -/
theorem addressAndMoveInstructionsComplete : Obligations.AddressAndMoveInstructionsComplete :=
  ⟨fun _ _ hb hx => computes_of_op (fun _ => rfl) fun _ => if_neg (by simp [hb, hx]),
    fun _ _ => computes_of_op (fun _ => rfl) fun _ => rfl,
    fun _ _ hx => computes_opP2 (fun a b => a + b) (fun _ => rfl) hx,
    fun _ _ hx => computes_opP2 (fun a b => a - b) (fun _ => rfl) hx,
    fun _ _ ha hm => computes_opLit (fun w => w) (fun _ => rfl) ha hm,
    fun _ _ hb hx hd ha => computes_of_op (fun _ => rfl) fun _ => if_neg (by simp [hb, hx, even_iff, hd, ha])⟩

/-- Settles O18: each compare is the truth value of its relation. -/
theorem comparesWriteOneOrZero : Obligations.ComparesWriteOneOrZero :=
  ⟨fun _ _ hx => computes_compare (fun a b => val a = val b) (fun _ => rfl) hx,
    fun _ _ hx => computes_compare (fun a b => val a ≠ val b) (fun _ => rfl) hx,
    fun _ _ hx => computes_compare (fun a b => sval a < sval b) (fun _ => rfl) hx,
    fun _ _ hx => computes_compare (fun a b => sval a ≤ sval b) (fun _ => rfl) hx,
    fun _ _ hx => computes_compare (fun a b => val a < val b) (fun _ => rfl) hx,
    fun _ _ hx => computes_compare (fun a b => val a ≤ val b) (fun _ => rfl) hx,
    fun _ _ => computes_compareI (fun a b => val a = val b) fun _ => rfl,
    fun _ _ => computes_compareI (fun a b => sval a < sval b) fun _ => rfl,
    fun _ _ => computes_compareI (fun a b => sval b < sval a) fun _ => rfl,
    fun _ _ hx => computes_opQ2 vFceq (fun _ => rfl) hx,
    fun _ _ hx => computes_opQ2 vFclt (fun _ => rfl) hx,
    fun _ _ hx => computes_opQ2 vFcle (fun _ => rfl) hx⟩

/-- FCVTFI's x[0] where x is 0 or 1 (R163). -/
theorem testBit_zero_of_lt_two {x : BitVec 13} (h : x.toNat < 2) : x.toNat.testBit 0 = decide (x = 1) := by
  have hx : x = 1 ↔ x.toNat = 1 := BitVec.toNat_inj.symm
  rw [Nat.testBit_zero, decide_eq_decide, hx]
  omega

/-- Settles O19: each value is the model's float operation on the operands. -/
theorem floatInstructionsComplete : Obligations.FloatInstructionsComplete := by
  refine ⟨fun _ _ hx => computes_opQ2 vFadd (fun _ => rfl) hx,
    fun _ _ hx => computes_opQ2 vFsub (fun _ => rfl) hx,
    fun _ _ hx => computes_opQ2 vFmul (fun _ => rfl) hx,
    fun _ _ hx => computes_opQ2 vFdiv (fun _ => rfl) hx,
    fun _ _ hb hx => computes_opQ1 vFsqrt (fun _ => rfl) hb hx,
    fun _ _ hx => computes_opQ2 vFmin (fun _ => rfl) hx,
    fun _ _ hx => computes_opQ2 vFmax (fun _ => rfl) hx,
    fun _ _ hb hx => computes_opQ1 vFabs (fun _ => rfl) hb hx,
    fun _ _ hb hx => computes_opQ1 vFneg (fun _ => rfl) hb hx,
    fun _ _ hb hx => computes_opQ1 vFcvtif (fun _ => rfl) hb hx, fun c o hb hx => ?_⟩
  exact (computes_of_op (fun _ => rfl) fun _ => if_neg (by simp [hb]; omega)).congr fun x => by
    rw [testBit_zero_of_lt_two hx]

/-- On an engine, an instruction of the image and bit group does what its action says (R97). -/
theorem computes_engineOnly {i : Instr} {c : CoreId} {len : Nat} {k : Op} {srcs dests : List Reg}
    {g : Core → List (Reg × W36)} (hi : ∀ s, exec i s = .next (s.runOp c len (engineOnly k))) (he : isEngine c = true)
    (hk : ∀ s, k s c = s.compute c len srcs dests g) : Computes i c len srcs dests g :=
  computes_of_op hi fun s => (if_pos he).trans (hk s)

/-- Settles O20: the words are those of the tables, on an engine for the bit instructions. -/
theorem qualityAndBitInstructionsComplete : Obligations.QualityAndBitInstructionsComplete := by
  refine ⟨fun _ _ hb hx => computes_opW1 (fun a => litQ (qOf a)) (fun _ => rfl) hb hx,
    fun _ _ hx => computes_opW2 (fun a b => qw (val a) (val b)) (fun _ => rfl) hx,
    fun _ _ hm => computes_opWI (fun a i => qw (val a) i) (fun _ => rfl) hm,
    fun _ _ hm => computes_opWI (fun a i => qw (val a) (qOf a ||| i)) (fun _ => rfl) hm,
    fun _ _ hm => computes_opWI (fun a i => qw (val a) (qOf a &&& (15 - i))) (fun _ => rfl) hm,
    fun _ _ hx => computes_opW2 (fun a b => qw (val a) (mergeQ (qOf a) (qOf b))) (fun _ => rfl) hx,
    fun _ _ hb hx => computes_opW1 (fun a => litQ (bit01 (qV (qOf a)))) (fun _ => rfl) hb hx, fun _ o hb hx => ?_,
    fun _ _ hx => computes_opW2 (fun a b => if qV (qOf a) then a else b) (fun _ => rfl) hx, fun _ _ he hb hx => ?_,
    fun _ _ he hx => computes_engineOnly (fun _ => rfl) he fun _ => if_neg (by omega),
    fun _ _ he hb hx => computes_engineOnly (fun _ => rfl) he fun _ => if_neg (by simp [hb, hx]),
    fun _ _ he hb hx => computes_engineOnly (fun _ => rfl) he fun _ => if_neg (by simp [hb, hx])⟩
  · exact (computes_opW1 (fun a => litQ (bit01 (decide (qOf a = qLit)))) (fun _ => rfl) hb hx).congr fun x => by
      rw [bit01_decide]
      rfl
  · exact computes_of_op (fun _ => rfl) fun _ => (if_neg (not_not_intro hb)).trans ((if_pos he).trans (if_neg (by omega)))

end Sys2Proof.Machine

namespace Sys2Proof.Machine

/-! Time and cycle instructions (R172, R173) -/

section
variable {i : Instr} {s : State} {c : CoreId} {o : OpA} {op : Op} {f : State → Nat × State}
  (hi : exec i s = .next (s.runOp c 1 op)) (hr : s.ready c 1 = true)
  (hf : ∀ u : State, ((f u).2.at c).pc = (u.at c).pc)
include hi hr hf

/-- A value of the group in a pair of registers. -/
theorem exec_time_pair (ho : op (s.fetched c) c = opTime o true f (s.fetched c) c)
    (hl : s.lands c [] [o.d, o.d + 1] = true) (hd : o.d.toNat % 2 = 0) :
    exec i s = .next (s.wrote (f (s.after c [] [o.d, o.d + 1])).2 c 1
      [(o.d, qw (f (s.after c [] [o.d, o.d + 1])).1 8), (o.d + 1, qw ((f (s.after c [] [o.d, o.d + 1])).1 / 2 ^ 32) 8)]) := by
  have he : ¬(true && !even o.d) = true := by simp [even_iff, hd]
  rw [exec_interlock hi (ho.trans (if_neg he)) hr hl]
  exact congrArg Host.Outcome.next (State.fin_state (by
    rw [State.at_mapCore, Core.setRegs_pc, hf]
    exact State.after_pc hl) 1)

/-- A value of the group in one register. -/
theorem exec_time_word (ho : op (s.fetched c) c = opTime o false f (s.fetched c) c) (hl : s.lands c [] [o.d] = true) :
    exec i s = .next (s.wrote (f (s.after c [] [o.d])).2 c 1 [(o.d, qw (f (s.after c [] [o.d])).1 8)]) := by
  have he : ¬(false && !even o.d) = true := by simp
  rw [exec_interlock hi (ho.trans (if_neg he)) hr hl]
  exact congrArg Host.Outcome.next (State.fin_state (by
    rw [State.at_mapCore, Core.setRegs_pc, hf]
    exact State.after_pc hl) 1)

end

/-- A form with a class reads the value of the class that x, or PSW.CLASS, names (R172). -/
theorem opClass_fetched {s : State} {c : CoreId} {o : OpA} {k : Nat} (h : s.timeClass c o = some k) (pair : Bool)
    (f : State → Nat → Nat) : opClass o pair f (s.fetched c) c = opTime o pair (fun t => (f t k, t)) (s.fetched c) c := by
  have hk : (s.fetched c).timeClass c o = some k := by rw [← h]; simp [State.timeClass]
  rw [opClass, hk]

theorem timePlain_iff {o : OpA} : timePlain o = true ↔ o.a = 0 ∧ o.b = 0 ∧ o.x = 0 := decide_eq_true_iff

theorem State.coreTime_eq (s : State) : s.coreTime = if s.turnspitOn then
    (s.now - Config.freeNat s.freeCtr % 5, { s with freeCtr := s.freeCtr + 1 }) else (s.now, s) := rfl

/-- A read of the core's copy of system time touches no core. -/
theorem State.coreTime_at (s : State) (c : CoreId) : s.coreTime.2.at c = s.at c := by
  rw [State.coreTime_eq]
  split <;> rfl

/-- The core's copy lags system time by at most 4 ns (R173). -/
theorem State.coreTime_lag (s : State) : s.coreTime.1 ≤ s.now ∧ s.now ≤ s.coreTime.1 + 4 := by
  have hlag : Config.freeNat s.freeCtr % 5 < 5 := Nat.mod_lt _ (by decide)
  rw [State.coreTime_eq]
  split
  · dsimp only
    omega
  · exact ⟨Nat.le_refl _, Nat.le_add_right _ _⟩

/-- Settles O21: each form reads its value once the loads to its registers have landed. -/
theorem timeInstructionsComplete : Obligations.TimeInstructionsComplete := by
  refine ⟨fun s c o hr hl hz hd => ?_, fun s c o k hr hl hk hd => ?_, fun s c o k hr hl hk hd => ?_,
    fun s c o k hr hl hk => ?_, fun s c o k hr hl hk => ?_, State.coreTime_lag, fun s c o hr hl hz => ?_⟩
  · exact exec_time_pair (f := State.coreTime) rfl hr (fun u => by rw [u.coreTime_at]) (if_pos (timePlain_iff.mpr hz)) hl hd
  · exact exec_time_pair (f := fun t => (t.boundTime k, t)) rfl hr (fun _ => rfl) (opClass_fetched hk true State.boundTime) hl hd
  · exact exec_time_pair (f := fun t => (t.cycle k, t)) rfl hr (fun _ => rfl) (opClass_fetched hk true State.cycle) hl hd
  · exact exec_time_word (f := fun t => (t.periodUs k, t)) rfl hr (fun _ => rfl) (opClass_fetched hk false State.periodUs) hl
  · exact exec_time_word (f := fun t => (t.fld (Reg.blwClStatusFull k), t)) rfl hr (fun _ => rfl)
      (opClass_fetched hk false fun s k => s.fld (Reg.blwClStatusFull k)) hl
  · exact exec_time_word (f := fun t => (t.coreCycles c, t)) rfl hr (fun _ => rfl) (if_pos (timePlain_iff.mpr hz)) hl

@[simp] theorem Core.storeLs_pc (x : Core) (a : Nat) (vs : List W36) : (x.storeLs a vs).pc = x.pc := rfl

@[simp] theorem Core.posts_pc (x : Core) (key : Nat) (a : W36) (vs : List W36) (p : Option (BitVec 5)) :
    (x.posts key a vs p).pc = x.pc := rfl

/-! Stores, with the instruction that follows (R78, R154, R160) -/

section
variable {s u : State} {c : CoreId} {a : W36} (hpc : (u.at c).pc = (s.at c).pc)
include hpc

theorem State.store_ls_state {vs : List W36} (hs : u.storeSpace c a vs.length = some .ls)
    (hw : (u.at c).unwatched 2 a vs.length = true) : (u.store c a vs).state c (s.at c).pc =
      s.went (u.mapCore c fun x => x.storeLs a.toNat vs) c (wordAt (s.at c).pc 1) := by
  rw [State.store_ls hs hw, State.fin_state]
  simpa using hpc

theorem State.posted_state (vs : List W36) (p : Option (BitVec 5)) : ((posted u c a vs p).fin c 1).state c (s.at c).pc =
    s.went (posted u c a vs p) c (wordAt (s.at c).pc 1) := by
  rw [State.fin_state]
  simpa [posted] using hpc

theorem State.store_far_state {vs : List W36} {sp : Space} (hsp : sp ≠ .ls) (hs : u.storeSpace c a vs.length = some sp)
    (hw : (u.at c).unwatched 2 a vs.length = true) (hn : (u.at c).stores.length < 4) :
    (u.store c a vs).state c (s.at c).pc = s.went (posted u c a vs none) c (wordAt (s.at c).pc 1) := by
  rw [State.store_far hsp hs hw, State.post_room (State.takesStore_room hn), State.posted_state hpc]

theorem State.pointStore_state (b : BitVec 5) (v : W36) (hs : u.storeSpace c a 1 = some .hearth)
    (hw : (u.at c).unwatched 2 a 1 = true) (hn : (u.at c).stores.length < 4) :
    (u.pointStore c a b v).state c (s.at c).pc = s.went (posted u c a [v] (some b)) c (wordAt (s.at c).pc 1) := by
  rw [State.pointStore_room hs hw (State.takesStore_room hn), State.posted_state hpc]

end

/-- Settles O24: each store is a store of its words, or a point write, at its address. -/
theorem storesComplete : Obligations.StoresComplete := by
  refine ⟨fun s c o hr hl hs hw => ?_, fun s c o sp hr hl hsp hs hw hn => ?_, fun s c o hr hl hd hs hw => ?_,
    fun s c o sp hr hl hd hsp hs hw hn => ?_, fun s c o hr hl hx hs hw => ?_, fun s c o sp hr hl hx hsp hs hw hn => ?_,
    fun s c o hr hl he hs hw hn => ?_, fun s c o hr hl he hd hs hw hn => ?_, fun s c o hr hl he hd hs hw hn => ?_⟩
  · rw [exec_interlock rfl rfl hr hl]
    exact congrArg _ (State.store_ls_state (State.after_pc hl) hs hw)
  · rw [exec_interlock rfl rfl hr hl]
    exact congrArg _ (State.store_far_state (State.after_pc hl) hsp hs hw hn)
  · rw [exec_interlock rfl (if_neg (by simp [even_iff, hd])) hr hl]
    exact congrArg _ (State.store_ls_state (State.after_pc hl) hs hw)
  · rw [exec_interlock rfl (if_neg (by simp [even_iff, hd])) hr hl]
    exact congrArg _ (State.store_far_state (State.after_pc hl) hsp hs hw hn)
  · rw [exec_interlock rfl (if_neg (not_not_intro hx)) hr hl]
    exact congrArg _ (State.store_ls_state (State.after_pc hl) hs hw)
  · rw [exec_interlock rfl (if_neg (not_not_intro hx)) hr hl]
    exact congrArg _ (State.store_far_state (State.after_pc hl) hsp hs hw hn)
  · rw [exec_interlock rfl (if_neg (by simp [he])) hr hl]
    exact congrArg _ (State.pointStore_state (State.after_pc hl) _ _ hs hw hn)
  · rw [exec_interlock rfl ((if_neg (not_not_intro hd)).trans (if_neg (by simp [he]))) hr hl]
    exact congrArg _ (State.pointStore_state (State.after_pc hl) _ _ hs hw hn)
  · rw [exec_interlock rfl ((if_neg (not_not_intro hd)).trans (if_neg (by simp [he]))) hr hl]
    exact congrArg _ (State.pointStore_state (State.after_pc hl) _ _ hs hw hn)

/-! Control transfers (R85, R168, R170) -/

/-- A transfer goes to its address. -/
theorem goTo_state (s u : State) (c : CoreId) (a : W36) : (goTo u a).state c (s.at c).pc = s.went u c a := rfl

/-- A branch goes to the displaced instruction or to the next, as `t` says of the value that it tests (R168). -/
theorem exec_branch {i : Instr} {s : State} {c : CoreId} {o : OpI} {t : Nat → Bool}
    (hi : exec i s = .next (s.runOp c 1 (opBranch t o))) (hr : s.ready c 1 = true) (hl : s.lands c [o.a] [] = true)
    (hd : o.d = 0) : exec i s = .next (if t (val (((s.after c [o.a] []).at c).see o.a)) then
      s.went (s.after c [o.a] []) c ((s.after c [o.a] []).relative c (signed 18 o.imm.toNat))
    else s.went (s.after c [o.a] []) c (wordAt (s.at c).pc 1)) := by
  rw [exec_interlock hi (if_neg (not_not_intro hd)) hr hl]
  split
  · rw [goTo_state]
  · rw [State.fin_state (State.after_pc hl)]

/-- The state with a return address pushed (R85). -/
def State.pushed (u : State) (c : CoreId) : State :=
  u.mapCore c fun x => (x.setLs ((u.at c).see 31 + BitVec.ofInt 36 (-1)).toNat (wordAt x.pc 1)).setReg 31
    ((u.at c).see 31 + BitVec.ofInt 36 (-1))

section
variable {u : State} {c : CoreId}

/-- A call whose push is allowed pushes, and goes to its target (R84, R85). -/
theorem State.callTo_pushes (hlo : (u.at c).bank.stkLo.toNat + 3 ≤ ((u.at c).see 31).toNat)
    (hhi : ((u.at c).see 31).toNat ≤ (u.at c).bank.stkHi.toNat)
    (hp : whole (u.lsWritable c) ((u.at c).see 31 + BitVec.ofInt 36 (-1)) 1 = true)
    (hw : (u.at c).unwatched 2 ((u.at c).see 31 + BitVec.ofInt 36 (-1)) 1 = true) (target : W36) :
    u.callTo c target = goTo (u.pushed c) target := by
  unfold State.callTo
  simp only [Core.callOk_iff.mpr ⟨hlo, hhi⟩, hp, State.watch_unwatched hw]
  rfl

/-- A return whose pop is allowed pops its address (R84, R85). -/
theorem State.popReturn_pops (hlo : (u.at c).bank.stkLo.toNat + 2 ≤ ((u.at c).see 31).toNat)
    (hhi : ((u.at c).see 31).toNat + 1 ≤ (u.at c).bank.stkHi.toNat) (hs : u.loadSpace c ((u.at c).see 31) 1 = some .ls)
    (hb : ((List.range 1).any fun i => (u.at c).lsBad.contains (((u.at c).see 31).toNat + i)) = false)
    (hw : (u.at c).unwatched 1 ((u.at c).see 31) 1 = true) :
    u.popReturn c = goTo (u.mapCore c fun x => x.setReg 31 (wordAt ((u.at c).see 31) 1))
      (u.lsRead (coreKey c) ((u.at c).see 31).toNat) := by
  unfold State.popReturn
  simp only [Core.retOk_iff.mpr ⟨hlo, hhi⟩, State.popWords_ls hs hb hw]
  rfl

end

/-- BEND with no load outstanding ends what its engine runs (R170). -/
theorem opBend_ends {s : State} {e : Fin 144} {o : OpA} (hz : zeroA o = true) (hl : (s.at (.engine e)).loads = []) :
    opBend o s (.engine e) = goTo (s.endBlock e.val) ((s.endBlock e.val).at (.engine e)).pc := by
  simp [opBend, hz, hl, State.land]

/-- Settles O26: each transfer, once the loads that it waits for have landed, passes its checks and goes. -/
theorem controlTransfersComplete : Obligations.ControlTransfersComplete := by
  refine ⟨fun s c o hr hz => exec_fin rfl hr (if_pos (zeroA_iff.mpr hz)) (by simp), fun s c o hr hl hd => ?_,
    fun s c o hr hl hd => ?_, fun s c o hr hl hd hb hx => ?_, fun s c o hr hl hlo hhi hp hw => ?_,
    fun s c o hr hl hd hb hx hlo hhi hp hw => ?_, fun s c o hr hl hz hlo hhi hs hb hw => ?_, fun s c o e hr hc hl hz => ?_⟩
  · simpa using exec_branch (i := .bz c o) rfl hr hl hd
  · simpa using exec_branch (i := .bnz c o) rfl hr hl hd
  · rw [exec_interlock rfl (if_neg (by simp [hd, hb, hx])) hr hl, goTo_state]
  · rw [exec_interlock rfl rfl hr hl, State.callTo_pushes hlo hhi hp hw, goTo_state]
    rfl
  · rw [exec_interlock rfl (if_neg (by simp [hd, hb, hx])) hr hl, State.callTo_pushes hlo hhi hp hw, goTo_state]
    rfl
  · rw [exec_interlock rfl (if_neg (by simp [zeroA_iff.mpr hz])) hr hl, State.popReturn_pops hlo hhi hs hb hw, goTo_state]
  · subst hc
    rw [exec_ready rfl hr (opBend_ends (zeroA_iff.mpr hz) (by simp [hl])), goTo_state]

end Sys2Proof.Machine

namespace Sys2Proof.Machine

/-! What a load's reads leave alone -/

@[simp] theorem State.tspReadSys_at (s : State) (c : CoreId) : s.tspReadSys.2.at c = s.at c := rfl

@[simp] theorem State.tspReadDomain_at (s : State) (d : Nat) (c : CoreId) : (s.tspReadDomain d).2.at c = s.at c := by
  unfold State.tspReadDomain
  dsimp only
  split <;> rfl

/-- A register read latches counters at most: it touches no core (R378). -/
theorem State.readReg_at (s : State) (secure : Bool) (page off : Nat) (c : CoreId) :
    (s.readReg secure page off).2.at c = s.at c := by
  unfold State.readReg
  generalize s.regWord secure page off = v
  split
  · rfl
  · split
    · rfl
    · dsimp only
      split
      · rfl
      · split
        · exact s.tspReadSys_at c
        · split
          · exact s.tspReadDomain_at 0 c
          · split
            · exact s.tspReadDomain_at 1 c
            · rfl

theorem State.loadWord_at (s : State) (c : CoreId) (sp : Space) (a : Nat) : (s.loadWord c sp a).2.2.at c = s.at c := by
  have h := s.readReg_at (!isEngine c && (s.at c).inSecure) (pageOf a) (offOf a) c
  unfold State.loadWord
  generalize s.readReg (!isEngine c && (s.at c).inSecure) (pageOf a) (offOf a) = p at *
  obtain ⟨v, t⟩ := p
  split
  · rfl
  · cases sp with
    | page => exact h
    | ls | hearth | dram => rfl

theorem State.loadWords_succ (s : State) (c : CoreId) (sp : Space) (a n : Nat) : s.loadWords c sp a (n + 1) =
    ((s.loadWord c sp a).1 :: ((s.loadWord c sp a).2.2.loadWords c sp (a + 1) n).1,
      (s.loadWord c sp a).2.1 || ((s.loadWord c sp a).2.2.loadWords c sp (a + 1) n).2.1,
      ((s.loadWord c sp a).2.2.loadWords c sp (a + 1) n).2.2) := rfl

/-- What a load finds changes no core. -/
theorem State.loadWords_at (c : CoreId) (sp : Space) : ∀ (n a : Nat) (s : State), (s.loadWords c sp a n).2.2.at c = s.at c
  | 0, _, _ => rfl
  | n + 1, a, s => by
    rw [State.loadWords_succ]
    exact (State.loadWords_at c sp n (a + 1) _).trans (s.loadWord_at c sp a)

theorem State.loadWords_length (c : CoreId) (sp : Space) : ∀ (n a : Nat) (s : State), (s.loadWords c sp a n).1.length = n
  | 0, _, _ => rfl
  | n + 1, a, s => by rw [State.loadWords_succ, List.length_cons, State.loadWords_length c sp n]

/-! What retirement leaves alone, whether or not it halts the core -/

/-- The core `y` is `x` but for its halt. -/
def Core.HaltsAs (x y : Core) : Prop :=
  ∃ h r k n, y = { x with halted := h, haltReq := r, haltCause := k, haltUnread := n }

section
variable {x y : Core} (h : x.HaltsAs y)
include h

theorem Core.HaltsAs.pc : y.pc = x.pc := by obtain ⟨_, _, _, _, rfl⟩ := h; rfl
theorem Core.HaltsAs.loads : y.loads = x.loads := by obtain ⟨_, _, _, _, rfl⟩ := h; rfl
theorem Core.HaltsAs.reg (q : Reg) : y.reg q = x.reg q := by obtain ⟨_, _, _, _, rfl⟩ := h; rfl

end

theorem Core.haltsAs_refl (x : Core) : x.HaltsAs x := ⟨_, _, _, _, rfl⟩

theorem State.at_haltCore (s : State) (c : CoreId) (cause : Nat) : (s.at c).HaltsAs ((s.haltCore (coreKey c) cause).at c) :=
  ⟨true, false, cause, true, by simp [State.haltCore, State.at, State.core, State.setFld, State.setCore, Sparse.get_put_same]⟩

theorem State.at_haltNow (s : State) (c : CoreId) (cause : Nat) : (s.at c).HaltsAs ((s.haltNow c cause).at c) := by
  unfold State.haltNow
  split
  · exact s.at_haltCore c cause
  · split
    · exact Core.haltsAs_refl _
    · exact ⟨_, _, _, _, State.at_mapCore _ _ _⟩

theorem State.at_traceLimit (s : State) (c : CoreId) : (s.at c).HaltsAs ((s.traceLimit c).at c) := by
  unfold State.traceLimit
  dsimp only
  split
  · exact s.at_haltNow c 6
  · exact Core.haltsAs_refl _

/-- A retired core is retired, and halted where the trace limit says so (R467). -/
theorem State.at_retire (s : State) (c : CoreId) (pc next : W36) (slot : Option (List (Reg × W36))) :
    ((s.at c).retired pc next slot).HaltsAs ((s.retire c pc next slot).at c) := by
  have h := State.at_traceLimit (s.mapCore c fun x => x.retired pc next slot) c
  rwa [State.at_mapCore] at h

section
variable (s : State) (c : CoreId) (pc next : W36) (slot : Option (List (Reg × W36)))

theorem State.retire_pc : ((s.retire c pc next slot).at c).pc = next := (s.at_retire c pc next slot).pc

theorem State.retire_reg (q : Reg) : ((s.retire c pc next slot).at c).reg q = (s.at c).reg q :=
  ((s.at_retire c pc next slot).reg q).trans (Core.retired_reg _ _ _ _ q)

theorem State.retire_loads :
    ((s.retire c pc next slot).at c).loads = (s.at c).loads.map fun l => { l with age := l.age + 1 } :=
  (s.at_retire c pc next slot).loads

end

/-! Loads from local store (R73, R74) -/

/-- Registers written together read as the words written. -/
theorem Core.reg_setRegs_zip (ds : List Reg) : ∀ (vs : List W36) (x : Core) (i : Nat), ds.Nodup → ds.length = vs.length →
    i < ds.length → ds.getD i 0 ≠ 0 → (x.setRegs (ds.zip vs)).reg (ds.getD i 0) = vs.getD i 0 := by
  induction ds with
  | nil => intro vs x i _ _ hi; simp at hi
  | cons d ds ih =>
    intro vs x i hn hl hi hd
    obtain ⟨hnot, hn⟩ := List.nodup_cons.mp hn
    cases vs with
    | nil => simp at hl
    | cons v vs =>
      cases i with
      | zero =>
        have hne : ∀ p ∈ ds.zip vs, p.1 ≠ d := fun p hp he => hnot (he ▸ (List.of_mem_zip hp).1)
        exact (Core.reg_setRegs_other _ (x.setReg d v) hne).trans (Core.reg_setReg_same x v hd)
      | succ i => exact ih vs (x.setReg d v) i hn (Nat.succ.inj hl) (Nat.lt_of_succ_lt_succ hi) hd

section
variable {s u w : State} {c : CoreId}

/-- A load that delivers at once leaves its words in its registers, and the others as they are. -/
theorem State.gotLoad_delivers {ds : List Reg} {vs : List W36} (hw : w.at c = u.at c) (hn : ds.Nodup)
    (hlen : ds.length = vs.length) :
    ((s.gotLoad w c (ds.zip vs)).at c).pc = wordAt (u.at c).pc 1 ∧
      (∀ i, i < ds.length → ds.getD i 0 ≠ 0 → ((s.gotLoad w c (ds.zip vs)).at c).reg (ds.getD i 0) = vs.getD i 0) ∧
      ∀ q, q ∉ ds → ((s.gotLoad w c (ds.zip vs)).at c).reg q = (u.at c).reg q := by
  unfold State.gotLoad
  simp only [State.retire_pc, State.retire_reg, State.at_mapCore, hw]
  exact ⟨trivial, fun i hi hd => Core.reg_setRegs_zip ds vs _ i hn hlen hi hd,
    fun q hq => Core.reg_setRegs_other _ _ fun p hp he => hq (he ▸ (List.of_mem_zip hp).1)⟩

/-! Loads from elsewhere (R75, R78, R162) -/

theorem State.outstand_state {l : Load} (h : u.hasRoom c w) : (u.outstand c l).state c (s.at c).pc = s.awaits w c l := by
  rw [State.outstand_room h]
  rfl

/-- Where no posted store of the core is in the way, none completes first. -/
theorem State.settles_none {p : Store → Bool} (h : (u.at c).stores.any p = false) : u.settles c p u :=
  ⟨State.drainsUntil_none h _, by simp [sameSpot]⟩

/-- An instruction that leaves a load outstanding has it as the last one, and writes no register. -/
theorem exec_awaits_last {i : Instr} {l : Load} {a : W36} {ds : List Reg} (hi : exec i s = .next (s.awaits w c l))
    (hw : w.at c = u.at c) (hpc : (u.at c).pc = (s.at c).pc) (ha : l.addr = a) (hd : l.dests.map (·.1) = ds) :
    ∃ t l, exec i s = .next t ∧ (t.at c).pc = wordAt (s.at c).pc 1 ∧ (t.at c).loads.getLast? = some l ∧ l.addr = a ∧
      l.dests.map (·.1) = ds ∧ ∀ q, (t.at c).reg q = (u.at c).reg q := by
  refine ⟨_, { l with age := l.age + 1 }, hi, ?_, ?_, ha, hd, fun q => ?_⟩
  · rw [State.awaits, State.retire_pc, hw, hpc]
  · simp [State.awaits, State.retire_loads, Core.awaits]
  · rw [State.awaits, State.retire_reg, State.at_mapCore, hw]
    rfl

end

/-- A plain load's form names a space that the load may go to, with nothing in its way (R78, R81). -/
theorem State.loadGoes_plain {s : State} {c : CoreId} {srcs ds : List Reg} {ea : Core → W36} {sp : Space}
    (h : s.loadGoes ⟨c, srcs, ea, ds, none⟩ sp = true) :
    (s.after c srcs ds).loadSpace c (ea ((s.after c srcs ds).at c)) ds.length = some sp ∧
      ((s.after c srcs ds).at c).unwatched 1 (ea ((s.after c srcs ds).at c)) ds.length = true ∧
      ((s.after c srcs ds).at c).stores.any (Store.blocks sp (ea ((s.after c srcs ds).at c)).toNat ds.length) = false := by
  simp only [State.loadGoes, State.loadSeen, Bool.and_eq_true, Bool.not_eq_true', and_assoc] at h
  exact h.imp_left of_decide_eq_true

/-- A read of format B names an address that its view allows, with no store to it in its way (R158, R162). -/
theorem State.loadGoes_view {s : State} {c : CoreId} {srcs ds : List Reg} {ea : Core → W36} {sp : Space} {k : View}
    (h : s.loadGoes ⟨c, srcs, ea, ds, some k⟩ sp = true) :
    ((s.after c srcs ds).at c).unwatched 1 (ea ((s.after c srcs ds).at c)) ds.length = true ∧
      (s.after c srcs ds).viewOk c k (ea ((s.after c srcs ds).at c)) = true ∧
      ((s.after c srcs ds).at c).stores.any (fun st => st.has (ea ((s.after c srcs ds).at c)).toNat) = false := by
  simp only [State.loadGoes, State.loadSeen, Bool.and_eq_true, Bool.not_eq_true', and_assoc] at h
  exact h.2

section
variable {i : Instr} {s : State} {c : CoreId} {op : Op} (hi : exec i s = .next (s.runOp c 1 op)) (hr : s.ready c 1 = true)
include hi hr

section
variable {srcs ds : List Reg} {ea : Core → W36}
  (ho : op (s.fetched c) c = (s.fetched c).interlock c srcs ds fun t => t.load c (ea (t.at c)) ds)
  (hl : s.lands c srcs ds = true)
include ho hl

section
variable {n : Nat} (hn : ds.length = n)
  (hw : ((s.after c srcs ds).at c).unwatched 1 (ea ((s.after c srcs ds).at c)) n = true)
include hn hw

section
variable (hs : (s.after c srcs ds).loadSpace c (ea ((s.after c srcs ds).at c)) n = some .ls)
include hs

/-- A plain load from local store delivers its words (R73). -/
theorem exec_load_got (hb : ((s.after c srcs ds).loadWords c .ls (ea ((s.after c srcs ds).at c)).toNat n).2.1 = false) :
    exec i s = .next (s.gotLoad ((s.after c srcs ds).loadWords c .ls (ea ((s.after c srcs ds).at c)).toNat n).2.2 c
      (ds.zip ((s.after c srcs ds).loadWords c .ls (ea ((s.after c srcs ds).at c)).toNat n).1)) := by
  subst hn
  rw [exec_interlock hi ho hr hl, State.load_ls hs hw, hb]
  rfl

/-- A plain load of a word of local store that fails its check raises UNCORRECTABLE (R88). -/
theorem exec_load_bad (hb : ((s.after c srcs ds).loadWords c .ls (ea ((s.after c srcs ds).at c)).toNat n).2.1 = true) :
    exec i s = .next (((s.after c srcs ds).loadWords c .ls (ea ((s.after c srcs ds).at c)).toNat n).2.2.take c
      ((((s.after c srcs ds).loadWords c .ls (ea ((s.after c srcs ds).at c)).toNat n).2.2.at c).loadAt
        (ea ((s.after c srcs ds).at c)) [(ea ((s.after c srcs ds).at c)).toNat] [] true).trap) := by
  subst hn
  rw [exec_interlock hi ho hr hl, State.load_ls hs hw, hb]
  rfl

end

/-- A plain load from elsewhere becomes outstanding (R75, R78). -/
theorem exec_load_awaits {sp : Space} {v w : State} (hsp : sp ≠ .ls)
    (hs : (s.after c srcs ds).loadSpace c (ea ((s.after c srcs ds).at c)) n = some sp)
    (hv : (s.after c srcs ds).settles c (Store.blocks sp (ea ((s.after c srcs ds).at c)).toNat n) v)
    (hm : (v.loadWords c sp (ea ((s.after c srcs ds).at c)).toNat n).2.2.hasRoom c w) :
    exec i s = .next (s.awaits w c (((v.loadWords c sp (ea ((s.after c srcs ds).at c)).toNat n).2.2.at c).loadAt
      (ea ((s.after c srcs ds).at c)) ((List.range n).map ((ea ((s.after c srcs ds).at c)).toNat + ·))
      (ds.zip (v.loadWords c sp (ea ((s.after c srcs ds).at c)).toNat n).1)
      (v.loadWords c sp (ea ((s.after c srcs ds).at c)).toNat n).2.1)) := by
  subst hn
  rw [exec_interlock hi ho hr hl, State.load_far hsp hs hw hv, State.outstand_state hm]

end

/-- A plain load from local store, by its form (R73). -/
theorem exec_load_delivers {n : Nat} (hn : ds.length = n) (hd : ds.Nodup) (hg : s.loadGoes ⟨c, srcs, ea, ds, none⟩ .ls = true)
    (hb : ((s.after c srcs ds).loadWords c .ls (ea ((s.after c srcs ds).at c)).toNat n).2.1 = false) :
    ∃ t, exec i s = .next t ∧ (t.at c).pc = wordAt (s.at c).pc 1 ∧
      (∀ i, i < n → ds.getD i 0 ≠ 0 → (t.at c).reg (ds.getD i 0) =
        ((s.after c srcs ds).loadWords c .ls (ea ((s.after c srcs ds).at c)).toNat n).1.getD i 0) ∧
      ∀ q, q ∉ ds → (t.at c).reg q = ((s.after c srcs ds).at c).reg q := by
  subst hn
  obtain ⟨hs, hw, -⟩ := State.loadGoes_plain hg
  refine ⟨_, exec_load_got hi hr ho hl rfl hw hs hb, ?_⟩
  rw [← State.after_pc hl]
  exact State.gotLoad_delivers (State.loadWords_at c .ls _ _ _) hd (State.loadWords_length c .ls _ _ _).symm

/-- A plain load from elsewhere, by its form (R75). -/
theorem exec_load_outstanding {sp : Space} (hsp : sp ≠ .ls) (hg : s.loadGoes ⟨c, srcs, ea, ds, none⟩ sp = true)
    (hm : ((s.after c srcs ds).at c).loads.length < 4) :
    ∃ t l, exec i s = .next t ∧ (t.at c).pc = wordAt (s.at c).pc 1 ∧ (t.at c).loads.getLast? = some l ∧
      l.addr = ea ((s.after c srcs ds).at c) ∧ l.dests.map (·.1) = ds ∧
      ∀ q, (t.at c).reg q = ((s.after c srcs ds).at c).reg q := by
  obtain ⟨hs, hw, hb⟩ := State.loadGoes_plain hg
  have hat := State.loadWords_at c sp ds.length (ea ((s.after c srcs ds).at c)).toNat (s.after c srcs ds)
  exact exec_awaits_last
    (exec_load_awaits hi hr ho hl rfl hw hsp hs (State.settles_none hb) (State.hasRoom_few (by rwa [hat]))) hat
    (State.after_pc hl) rfl (List.map_fst_zip (State.loadWords_length c sp _ _ _).ge)

end

/-! Reads of format B (R158, R159, R162) -/

section
variable {o : OpB} {k : View} {f : W36 → W36 → W36} (ho : op (s.fetched c) c = opView k f o (s.fetched c) c)
  (hl : s.lands c [o.base] [o.d] = true) (he : isEngine c = true)
include ho hl he

/-- A read of format B is outstanding with the word that it makes of what its view reads. -/
theorem exec_view {v w : State} {a : W36} {r : W36} (ha : a = ((s.after c [o.base] [o.d]).at c).eaB o)
    (hk : (s.after c [o.base] [o.d]).viewOk c k a = true) (hw : ((s.after c [o.base] [o.d]).at c).unwatched 1 a 1 = true)
    (hv : (s.after c [o.base] [o.d]).settles c (fun st => st.has a.toNat) v) (hm : v.hasRoom c w)
    (hf : f (v.hearthLoad c a.toNat) (if k = .word then 0 else v.hearthLoad c (prevAddr a.toNat)) = r) :
    exec i s = .next (s.awaits w c ((v.at c).loadAt a (View.covers k a.toNat) [(o.d, r)] (v.viewBad c k a))) := by
  subst ha
  rw [exec_interlock hi (ho.trans (if_neg (by simp [he]))) hr hl, State.imageLoad_view hk hw hv, State.outstand_state hm, hf]

/-- A read of format B, by its form. -/
theorem exec_view_outstanding {sp : Space} (hg : s.loadGoes ⟨c, [o.base], fun x => x.eaB o, [o.d], some k⟩ sp = true)
    (hm : ((s.after c [o.base] [o.d]).at c).loads.length < 4) :
    ∃ t l, exec i s = .next t ∧ (t.at c).pc = wordAt (s.at c).pc 1 ∧ (t.at c).loads.getLast? = some l ∧
      l.addr = ((s.after c [o.base] [o.d]).at c).eaB o ∧ l.dests.map (·.1) = [o.d] ∧
      ∀ q, (t.at c).reg q = ((s.after c [o.base] [o.d]).at c).reg q := by
  obtain ⟨hw, hk, hb⟩ := State.loadGoes_view hg
  exact exec_awaits_last (exec_view hi hr ho hl he rfl hk hw (State.settles_none hb) (State.hasRoom_few hm) rfl) rfl
    (State.after_pc hl) rfl rfl

end

end

theorem nodup_pair (d : Reg) : [d, d + 1].Nodup := by simp

/-- LDP with an even register loads into the pair (R154). -/
theorem opLdp_even {o : OpI} (h : o.d.toNat % 2 = 0) (s : State) (c : CoreId) :
    opLdp o s c = s.interlock c [o.a] [o.d, o.d + 1] fun t => t.load c ((t.at c).eaI o) [o.d, o.d + 1] :=
  if_neg (by simp [even_iff, h])

/-- LDWX with its unused field zero loads at the sum of its registers (R154). -/
theorem opLdwx_plain {o : OpA} (h : o.x = 0) (s : State) (c : CoreId) :
    opLdwx o s c = s.interlock c [o.a, o.b] [o.d] fun t => t.load c ((t.at c).eaX o) [o.d] := if_neg (not_not_intro h)

/-- Settles O23: each load is a load of its words, or a read of its view, at its address; the last clauses say it by form. -/
theorem loadsComplete : Obligations.LoadsComplete := by
  refine ⟨fun s c o hr hl hs hw hb => exec_load_got (ea := fun x => x.eaI o) rfl hr rfl hl rfl hw hs hb,
    fun s c o hr hl hs hw hb => exec_load_bad (ea := fun x => x.eaI o) rfl hr rfl hl rfl hw hs hb,
    fun s c o sp X w hr hl hsp hs hw hv hm => exec_load_awaits (ea := fun x => x.eaI o) rfl hr rfl hl rfl hw hsp hs hv hm,
    fun s c o hr hl hd hs hw hb => exec_load_got (ea := fun x => x.eaI o) rfl hr (opLdp_even hd _ c) hl rfl hw hs hb,
    fun s c o hr hl hd hs hw hb => exec_load_bad (ea := fun x => x.eaI o) rfl hr (opLdp_even hd _ c) hl rfl hw hs hb,
    fun s c o sp X w hr hl hd hsp hs hw hv hm =>
      exec_load_awaits (ea := fun x => x.eaI o) rfl hr (opLdp_even hd _ c) hl rfl hw hsp hs hv hm,
    fun s c o hr hl hx hs hw hb => exec_load_got (ea := fun x => x.eaX o) rfl hr (opLdwx_plain hx _ c) hl rfl hw hs hb,
    fun s c o hr hl hx hs hw hb => exec_load_bad (ea := fun x => x.eaX o) rfl hr (opLdwx_plain hx _ c) hl rfl hw hs hb,
    fun s c o sp X w hr hl hx hsp hs hw hv hm =>
      exec_load_awaits (ea := fun x => x.eaX o) rfl hr (opLdwx_plain hx _ c) hl rfl hw hsp hs hv hm,
    fun s c o X w hr hl he hk hw hv hm => exec_view rfl hr rfl hl he rfl hk hw hv hm rfl,
    fun s c o X w hr hl he hk hw hv hm => exec_view rfl hr rfl hl he rfl hk hw hv hm rfl,
    fun s c o X w hr hl he hk hw hv hm => exec_view rfl hr rfl hl he rfl hk hw hv hm ?_,
    fun s c o X w hr hl he hk hw hv hm => exec_view rfl hr rfl hl he rfl hk hw hv hm ?_,
    fun s c o X w hr hl he hk hw hv hm => exec_view rfl hr rfl hl he rfl hk hw hv hm ?_,
    fun s c o X w hr hl he hk hw hv hm h0 => exec_view rfl hr (if_neg (not_not_intro h0)) hl he rfl hk hw hv hm rfl,
    fun s c o X w hr hl he hk hw hv hm h0 => exec_view rfl hr (if_neg (not_not_intro h0)) hl he rfl hk hw hv hm ?_,
    fun c o s hr hl hg hb => exec_load_delivers (ea := fun x => x.eaI o) rfl hr rfl hl rfl (by simp) hg hb,
    fun c o sp s hsp hr hl hg hn => exec_load_outstanding (ea := fun x => x.eaI o) rfl hr rfl hl hsp hg hn,
    fun c o s hd hr hl hg hb =>
      exec_load_delivers (ea := fun x => x.eaI o) rfl hr (opLdp_even hd _ c) hl rfl (nodup_pair o.d) hg hb,
    fun c o sp s hd hsp hr hl hg hn => exec_load_outstanding (ea := fun x => x.eaI o) rfl hr (opLdp_even hd _ c) hl hsp hg hn,
    fun c o s hx hr hl hg hb => exec_load_delivers (ea := fun x => x.eaX o) rfl hr (opLdwx_plain hx _ c) hl rfl (by simp) hg hb,
    fun c o sp s hx hsp hr hl hg hn => exec_load_outstanding (ea := fun x => x.eaX o) rfl hr (opLdwx_plain hx _ c) hl hsp hg hn,
    fun c o sp s he _ hr hl hg hn => exec_view_outstanding rfl hr rfl hl he hg hn,
    fun c o sp s he _ hr hl hg hn => exec_view_outstanding rfl hr rfl hl he hg hn,
    fun c o sp s he _ hr hl hg hn => exec_view_outstanding rfl hr rfl hl he hg hn,
    fun c o sp s he _ hr hl hg hn => exec_view_outstanding rfl hr rfl hl he hg hn,
    fun c o sp s he _ hr hl hg hn => exec_view_outstanding rfl hr rfl hl he hg hn,
    fun c o sp s he h0 _ hr hl hg hn => exec_view_outstanding rfl hr (if_neg (not_not_intro h0)) hl he hg hn,
    fun c o sp s he h0 _ hr hl hg hn => exec_view_outstanding rfl hr (if_neg (not_not_intro h0)) hl he hg hn⟩
  · simp [bothResult, pointOf, bit01]
  · simp [bothResult, pointOf, bit01]
  · simp [bothResult, pointOf, bit01]
  · simp [bothResult, bit01]

end Sys2Proof.Machine

namespace Sys2Proof.Machine

/-! Boundaries that fall together (R182, R184) -/

/-- A class whose boundary has come is due at it, wherever the others' fall. -/
theorem State.due_self {s : State} {k : Nat} {n : Nat × Nat} (h : s.arriving k = some n) (b : Nat) : s.due k k b = some n := by
  simp [State.due, h]

theorem State.flips_cons_due {s : State} {j k b : Nat} {n : Nat × Nat} (h : s.due j k b = some n) (rest : List Nat) :
    s.flips (j :: rest) k b =
      (if (s.meetBoundary j n.1 n.2).1 then j :: ((s.meetBoundary j n.1 n.2).2.flips rest k b).1
        else ((s.meetBoundary j n.1 n.2).2.flips rest k b).1,
      ((s.meetBoundary j n.1 n.2).2.flips rest k b).2) := by
  simp only [State.flips, h]

theorem State.flips_cons_idle {s : State} {j k b : Nat} (h : s.due j k b = none) (rest : List Nat) :
    s.flips (j :: rest) k b = s.flips rest k b := by
  simp only [State.flips, h]

/-- Where neither class 1 nor class 2 falls due with it, the boundary of class 0 is met alone. -/
theorem State.flips_alone {s : State} {n : Nat × Nat} (h : s.arriving 0 = some n)
    (h1 : (s.meetBoundary 0 n.1 n.2).2.due 1 0 n.2 = none) (h2 : (s.meetBoundary 0 n.1 n.2).2.due 2 0 n.2 = none) :
    s.flips [0, 1, 2] 0 n.2 =
      (if (s.meetBoundary 0 n.1 n.2).1 then [0] else [], (s.meetBoundary 0 n.1 n.2).2) := by
  rw [State.flips_cons_due (State.due_self h n.2), State.flips_cons_idle h1, State.flips_cons_idle h2]
  rfl

/-- On a unit that runs cycles, the flips of the boundaries that fall together come before the Intake of each. -/
theorem State.boundary_arriving {s : State} {k : Nat} {n : Nat × Nat} (hc : s.cycles = true) (h : s.arriving k = some n) :
    s.boundary k = (s.flips [0, 1, 2] k n.2).1.foldl (fun u j => u.openIntake j n.2) (s.flips [0, 1, 2] k n.2).2 := by
  simp [State.boundary, hc, h]

/-- Class 0 alone at its boundary opens its Intake where it flipped, and does no more where its cycle has overrun (R206). -/
theorem State.boundary_alone {s : State} {n : Nat × Nat} (hc : s.cycles = true) (h : s.arriving 0 = some n)
    (h1 : (s.meetBoundary 0 n.1 n.2).2.due 1 0 n.2 = none) (h2 : (s.meetBoundary 0 n.1 n.2).2.due 2 0 n.2 = none) :
    s.boundary 0 = if (s.meetBoundary 0 n.1 n.2).1 then (s.meetBoundary 0 n.1 n.2).2.openIntake 0 n.2
      else (s.meetBoundary 0 n.1 n.2).2 := by
  rw [State.boundary_arriving hc h, State.flips_alone h h1 h2]
  cases (s.meetBoundary 0 n.1 n.2).1 with
  | true => simp only [if_true, List.foldl_cons, List.foldl_nil]
  | false => simp only [Bool.false_eq_true, if_false, List.foldl_nil]

/-- Settles O33: a boundary is its flips and then its Intakes, and each phase's condition selects the branch that ends it. -/
theorem cycleCommandsComplete : Obligations.CycleCommandsComplete := by
  unfold Obligations.CycleCommandsComplete
  refine ⟨fun s k n hc h => congrArg Host.Outcome.next (State.boundary_arriving hc h), fun s n hc h hf h1 h2 => ?flips,
    fun s n hc h hf h1 h2 => ?overruns, fun s k hc => congrArg Host.Outcome.next (if_pos (by simp [hc])), fun _ _ _ _ => rfl,
    fun s k hp => if_pos hp, fun s k t hp ho ht => ?tierOpens, fun s k l t hf => ?tokenArrives,
    fun s k hp hc => if_pos (by simp [hp, hc]), fun s k hp => if_pos hp, fun s k hp => if_pos hp⟩
  case flips => exact congrArg Host.Outcome.next ((State.boundary_alone hc h h1 h2).trans (if_pos hf))
  case overruns => exact congrArg Host.Outcome.next ((State.boundary_alone hc h h1 h2).trans (if_neg (by simp [hf])))
  case tierOpens =>
    show execTierOpen k s = _
    simp [execTierOpen, hp, ho, ht]
  case tokenArrives =>
    show execTierToken k l s = _
    simp only [execTierToken, hf]

/-! Writes of the Bellows pages (R177, R178, R220) -/

/-- In Held a period of the class's range, above the phase offset, is taken, and the boundaries start anew (R177, R178). -/
theorem State.blwPeriod_taken {s : State} {k v : Nat} (hm : s.mode = modeHeld) (hg : periodGood k (bitsOf v 0 26) = true)
    (ho : s.fld (Reg.blwClPhaseOffsetPhaseOffset k) < bitsOf v 0 26) : s.blwPeriod k v =
      (s.setFld (Reg.blwClPeriodPeriod k) (bitsOf v 0 26)).onCls k fun rt => { rt with jump := true } :=
  if_pos ⟨hm, hg, ho⟩

/-- A phase offset below the period is taken (R178). -/
theorem State.blwOffset_taken {s : State} {k v : Nat} (h : bitsOf v 0 26 < s.periodUs k) :
    s.blwOffset k v = s.setFld (Reg.blwClPhaseOffsetPhaseOffset k) (bitsOf v 0 26) := if_pos h

/-- A command that names a block of the program acts on its descriptor (R220). -/
theorem State.onBlock_known {s : State} {b : Nat} {d : Desc} (h : s.desc b = some d) (f : Desc → State → State) :
    s.onBlock b f = f d s := by
  simp only [State.onBlock, h]

/-- Settles O34: the open page lets each write act, and its operand selects the branch that carries it out. -/
theorem bellowsRegisterCommandsComplete : Obligations.BellowsRegisterCommandsComplete := by
  unfold Obligations.BellowsRegisterCommandsComplete
  refine ⟨fun s r k v hw _ _ => ?_, fun s r k v hw => ?_, fun s r k v hw hm hg ho => ?_, fun s r k v hw ho => ?_,
    fun s r b d hw hd => ?_, fun s r b d hw hd => ?_, fun s r b d hw hd => ?_⟩ <;>
    refine congrArg Host.Outcome.next ((State.writeAs_mayWrite hw _ _).trans ?_)
  · rfl
  · rfl
  · exact State.blwPeriod_taken hm hg ho
  · exact State.blwOffset_taken ho
  · exact State.onBlock_known hd _
  · exact State.onBlock_known hd _
  · exact State.onBlock_known hd _

end Sys2Proof.Machine

namespace Sys2Proof.Machine

/-! Commands of the edit page, each in the state that takes it (R231, R236, R241, R245) -/

/-- A write of EDT_COMMAND by a requester that may write the page acts (R246, R482). -/
theorem State.edtCommand_mayWrite {s : State} {r : Requester} (h : s.mayWrite r 0x015 = true) (k : State → State) :
    s.edtCommand r k = k s := State.writeAs_mayWrite h 0x020 k

/-- A STAGED EDIT is armed at a cycle far enough ahead, or its arming asks the partner (R236, R242). -/
theorem State.armCommand_accepted {s : State} {p : Program} (hp : s.bellows.shadow = some p) (he : s.editState = 3)
    (hr : s.role ≥ 5) (hf : p.full = false) (hw : s.edit.partnerWait = false) (hk : s.actClass ≠ 3)
    (hn : s.tooNear = false) : s.armCommand = s.armOrAsk p.digest := by
  have hs : ¬(s.editState ≠ 3 ∨ s.role < 5 ∨ p.full ∨ s.edit.partnerWait ∨ s.actClass = 3) := by
    simp [he, hf, hw, hk, hr]
  simp only [State.armCommand, hp, if_neg hs, hn, Bool.false_eq_true, if_false]

/-- A rollback that is available, and that the partner shares, is armed from IDLE under the rules of ARM (R245, R344). -/
theorem State.rollbackCommand_accepted {s : State} {p : Program} (hp : s.bellows.rollback = some p)
    (he : s.editState = 0) (hr : s.role ≥ 5) (hw : s.edit.partnerWait = false) (hk : s.actClass ≠ 3)
    (ha : s.bit Reg.edtStatusRollbackAvail = true) (hg : s.rollbackAgrees = true) (hn : s.tooNear = false) :
    s.rollbackCommand = s.armOrAsk p.digest := by
  have hs : ¬(s.editState ≠ 0 ∨ s.role < 5 ∨ s.edit.partnerWait ∨ s.actClass = 3) := by simp [he, hw, hk, hr]
  simp only [State.rollbackCommand, hp, if_neg hs, ha, hg, hn, Bool.not_true, Bool.false_eq_true, if_false]

/-- In Held a STAGED package switches at once, a FULL one by starting its program (R221, R241). -/
theorem State.activateNow_accepted {s : State} {p : Program} (hp : s.bellows.shadow = some p) (he : s.editState = 3)
    (hm : s.mode = modeHeld) :
    s.activateNow = if p.full = true then s.dropAsk.activateFull p else s.dropAsk.switchAll := by
  have hs : ¬(s.editState ≠ 3 ∨ s.mode ≠ modeHeld) := by simp [he, hm]
  simp only [State.activateNow, hp, if_neg hs]

/-- A package that fails a check is REFUSED, for the first check that it fails (R232, R234). -/
theorem execVerifyDone_refused {s : State} {f : Refuse} (he : s.editState = 2)
    (hv : s.verifyPackage s.stagedWords = some f) (mantelOk : Bool) :
    execVerifyDone mantelOk s = .next (s.refusePackage f) := by
  simp only [execVerifyDone, if_pos he, hv]

/-- A package that passes the checks is STAGED, or REFUSED where its commit to the program bank fails (R232, R234). -/
theorem execVerifyDone_passed {s : State} (he : s.editState = 2) (hv : s.verifyPackage s.stagedWords = none)
    (mantelOk : Bool) : execVerifyDone mantelOk s =
      .next (if mantelOk = true then s.stageProgram s.stagedWords else s.refusePackage ⟨0x12, 0xFF, 0⟩) := by
  simp only [execVerifyDone, if_pos he, hv]
  cases mantelOk <;> rfl

/-- The acknowledge that an arming waits for arms its class and cycle (R242). -/
theorem execArmAcknowledge_waited {s : State} {w : List W32 × Nat × Nat} (ha : s.erair.armWait = some w)
    (hw : s.edit.partnerWait = true) : execArmAcknowledge s = .next (s.armSwitch w.2.1 w.2.2) := by
  simp only [execArmAcknowledge, ha, if_pos hw]

/-- Settles O36: the open page lets each command act, and the state of the edit, or of the pair, selects the branch that
carries it out. -/
theorem editCommandsComplete : Obligations.EditCommandsComplete := by
  unfold Obligations.EditCommandsComplete
  refine ⟨fun s r hw he => ?begins, fun s r hw he => ?verifies, fun s mantelOk he => ?verified,
    fun s r hw he => ?discards, fun s r p hw hp he hr hf hq hk hn => ?arms,
    fun s r p hw hp he hr hq hk ha hg hn => ?armsRollback, fun s r p hw hp he hm => ?activates, fun s r hw he => ?disarms,
    fun s digest k cycle hr hm => if_pos ⟨hr, hm⟩, fun s w ha hq => execArmAcknowledge_waited ha hq, fun s hq => if_pos hq,
    fun s hr he => if_pos ⟨hr, he⟩⟩
  case verified =>
    cases hv : s.verifyPackage s.stagedWords with
    | some f => exact execVerifyDone_refused he hv mantelOk
    | none => exact execVerifyDone_passed he hv mantelOk
  all_goals refine congrArg Host.Outcome.next ((State.edtCommand_mayWrite hw _).trans ?_)
  case begins => exact if_pos he
  case verifies => exact if_pos he
  case discards => exact if_pos he
  case arms => exact State.armCommand_accepted hp he hr hf hq hk hn
  case armsRollback => exact State.rollbackCommand_accepted hp he hr hq hk ha hg hn
  case activates => exact State.activateNow_accepted hp he hm
  case disarms => exact if_pos he

end Sys2Proof.Machine

namespace Sys2Proof.Machine

/-! Datagrams and handshakes (R250, R251) -/

/-- A datagram that its port's VLANs, MTU and role let in, sent to CHM_UDP_PORT, is counted and taken (R249-R251). -/
theorem State.receive_taken {s : State} {d : Datagram} (hon : s.chmOn = true) (hup : s.chmPortUp d.port.val = true)
    (hv : s.vlanTakes d.port.val d.vlan = true) (hm : d.size ≤ s.mtu d.port.val) (hr : s.hasRole d.port.val .stations = true)
    (hp : d.udpPort.toNat = s.fld Reg.chmUdpPortPort) (k : State → State) :
    s.receive d k = k (s.countWrap (Reg.chmXRxFramesRxFrames d.port.val)) := by
  simp [State.receive, hon, hup, hv, hm, hr, hp]

/-- A handshake within the rate, or with its cookie, fails where the device cannot take it; else it opens a session at its
slot and is answered (R251). -/
theorem State.handshake_admitted {s : State} {h : Handshake} (hr : s.rateExceeded = false ∨ h.cookieValid = true) (i : Nat) :
    s.handshake i h = if !s.takesHandshake h then s.handshakeFail i h
      else (((s.closeSessionAt i).setSession i (s.newSession h)).sendDtls i h.dg.port.val
        (if h.finished then 3 else 2)).refreshSessions :=
  if_neg (by rcases hr with hr | hr <;> simp [hr])

/-- Above CHM_HANDSHAKE_RATE a handshake without its cookie is asked for one (R251). -/
theorem State.handshake_asks_cookie {s : State} {h : Handshake} (hr : s.rateExceeded = true) (hc : h.cookieValid = false)
    (i : Nat) : s.handshake i h = s.sendDtls i h.dg.port.val 1 := if_pos (by simp [hr, hc])

/-! Frames of sessions (R252-R254, R261-R263) -/

/-- A frame that waits on the session of a bound station is taken with the station's declaration. -/
theorem State.boundFrame_bound {s : State} {i kind : Nat} {f : Nat × List Byte} {x : Session} {d : StationDecl}
    (hf : (s.session i).takeFrame kind = some (f, x)) (hd : x.station.bind s.draughtDecl = some d) :
    s.boundFrame i kind = some (d, f, s.setSession i x) := by
  simp only [State.boundFrame, hf, hd]

section
variable {s : State} {i stamp : Nat} {f : List Byte} {x : Session} (hf : (s.session i).takeFrame 1 = some ((stamp, f), x))
include hf

/-- A BIND with result 0 of a declared station binds the session, is answered, and is followed by HOLD where one is due
(R254, R261, R274). -/
theorem execDraughtBind_accepted {d : StationDecl} (hd : s.draughtDecl (field f 2 3) = some d)
    (hr : ((s.setSession i x).stationEpoch 4 (field f 2 3) (field f 12 4)).bindResult x (some d) f = 0) :
    execDraughtBind i s = .next
      (((((s.setSession i x).stationEpoch 4 (field f 2 3) (field f 12 4)).bindSession i (field f 2 3)).answerBind i
        (field f 2 3) 0 (some d)).sendHold d) := by
  simp only [execDraughtBind, hf, hd, if_pos hr]

/-- A BIND with another result is answered with it, and recorded (R261). -/
theorem execDraughtBind_refused {t : State} (ht : (s.setSession i x).stationEpoch 4 (field f 2 3) (field f 12 4) = t)
    (hr : t.bindResult x (s.draughtDecl (field f 2 3)) f ≠ 0) :
    execDraughtBind i s = .next
      ((t.answerBind i (field f 2 3) (t.bindResult x (s.draughtDecl (field f 2 3)) f) (s.draughtDecl (field f 2 3))).chmRaise
        (field f 2 3) 1 Reg.chmEventBindRefused) := by
  simp only [execDraughtBind, hf, ht, if_neg hr]

end

section
variable {s : State} {i stamp : Nat} {d : StationDecl} {f : List Byte} {x : Session}

/-- An INTAKE frame of a bound station has its effect under the station's epoch (R268, R276). -/
theorem execDraughtIntake_bound (hf : (s.session i).takeFrame 2 = some ((stamp, f), x))
    (hd : x.station.bind s.draughtDecl = some d) : execDraughtIntake i s =
      .next (((s.setSession i x).stationEpoch 4 d.num (field f 12 4)).intakeFrame d stamp f) := by
  simp only [execDraughtIntake, State.boundFrame_bound hf hd]

/-- An ACK frame of a bound station acknowledges an output image where it is of kind 3 (R262, R276). -/
theorem execDraughtAck_bound (hf : (s.session i).takeFrame 4 = some ((stamp, f), x))
    (hd : x.station.bind s.draughtDecl = some d) : execDraughtAck i s =
      .next (if field f 28 1 = 3 then
          ((s.setSession i x).stationEpoch 4 d.num (field f 12 4)).onStation d.num fun r => { r with outAck := field f 24 4 }
        else (s.setSession i x).stationEpoch 4 d.num (field f 12 4)) := by
  simp only [execDraughtAck, State.boundFrame_bound hf hd, apply_ite Host.Outcome.next]

/-- The records of a good EVENT frame of a bound station, once queued, are acknowledged (R262, R263). -/
theorem execDraughtEvent_queued (hf : (s.session i).takeFrame 6 = some ((stamp, f), x))
    (hd : x.station.bind s.draughtDecl = some d) (hg : eventFrameGood d f = true)
    (hq : ((s.setSession i x).queueEvents d.num 0 (draughtEvents f)).1 = true) : execDraughtEvent i s =
      .next (((s.setSession i x).queueEvents d.num 0 (draughtEvents f)).2.sendAck d 6 (field f 8 4)) := by
  simp only [execDraughtEvent, State.boundFrame_bound hf hd, if_pos hg, if_pos hq]

end

/-! Repeats (R273, R274, R313) -/

section
variable {s : State} {n : Nat} {d : StationDecl} (hd : s.decl n = some d)
include hd

/-- The released image of an OUT_MODE 1 station that is reached is sent again, by the kind of the station (R273, R313). -/
theorem execOutlayRepeat_released (hs : s.drives = true) (hc : s.cannotSolve = false) (ho : d.outMode = true)
    (hv : (s.station n).outValid = true) (hr : s.reached d = true) : execOutlayRepeat n s =
      if d.kind = 1 then .next (s.sendOutlayFrames d (s.station n).outSeq (s.station n).out)
      else if d.kind = 4 then
        .next (s.sendBusFrames d (s.hobImageFrames d (s.station n).outSeq (s.station n).out) false)
      else .next s := by
  simp only [execOutlayRepeat, hd, hs, hc, ho, hv, hr, Bool.not_false, Bool.and_self, if_true]

theorem execHoldRepeat_declared : execHoldRepeat n s = .next (s.sendHold d) := by
  simp only [execHoldRepeat, hd]

end

/-- Settles O37: each frame that is taken meets the condition of one branch, which carries it out (that a key update starts
the records of both directions anew is log 71). -/
theorem draughtCommandsComplete : Obligations.DraughtCommandsComplete := by
  unfold Obligations.DraughtCommandsComplete
  refine ⟨fun s i h hon hup hv hm hr hp hrate ht => ?opens, fun s i h hon hup hv hm hr hp hrate ht => ?fails,
    fun s i h hon hup hv hm hr hp hrate hc => ?asksCookie, fun s i hp hk => if_pos (by simp [hp, hk]),
    fun s i dg seq authentic f hon hup hv hm hr hp ha hx hf => ?record, fun s i hi => ?idles,
    fun s i stamp f x d hf hd hr => execDraughtBind_accepted hf hd hr,
    fun s i stamp f x hf hr => execDraughtBind_refused hf rfl hr,
    fun s i d stamp f x hf hd => execDraughtIntake_bound hf hd, fun s i d stamp f x hf hd => execDraughtAck_bound hf hd,
    fun s i d stamp f x hf hd hg hq => execDraughtEvent_queued hf hd hg hq,
    fun s n d hd hs hc ho hv hr hk => (execOutlayRepeat_released hd hs hc ho hv hr).trans (if_pos hk),
    fun s n d hd hs hc ho hv hr hk => (execOutlayRepeat_released hd hs hc ho hv hr).trans ?busRepeat,
    fun s n d hd => execHoldRepeat_declared hd⟩
  case opens =>
    exact congrArg Host.Outcome.next
      ((State.receive_taken hon hup hv hm hr hp _).trans ((State.handshake_admitted hrate i).trans (if_neg (by simp [ht]))))
  case fails =>
    exact congrArg Host.Outcome.next
      ((State.receive_taken hon hup hv hm hr hp _).trans ((State.handshake_admitted hrate i).trans (if_pos (by simp [ht]))))
  case asksCookie =>
    exact congrArg Host.Outcome.next
      ((State.receive_taken hon hup hv hm hr hp _).trans (State.handshake_asks_cookie hrate hc i))
  case record =>
    have hpass : (authentic && decide (2 ≤ (s.session i).phase) && (s.session i).fresh seq) = true := by simp [ha, hx, hf]
    exact congrArg Host.Outcome.next ((State.receive_taken (d := dg) hon hup hv hm hr hp _).trans (if_pos hpass))
  case idles => exact congrArg Host.Outcome.next (if_pos (decide_eq_true hi))
  case busRepeat => rw [if_neg (by omega), if_pos hk]

/-! Commands of the station page (R288) -/

/-- A station command of a requester that may write the page acts on the station that it names (R288). -/
theorem State.stnCommand_declared {s : State} {r : Requester} {n : Nat} {d : StationDecl} (hw : s.mayWrite r 0x140 = true)
    (hd : s.decl n = some d) (op : Nat) (k : StationDecl → State → State) : s.stnCommand r n op k = k d s := by
  rw [State.stnCommand, State.writeAs_mayWrite hw]
  simp only [hd]

theorem State.interrogateAgain_started {s : State} {n : Nat} (hs : s.drives = true) (hl : (s.station n).legacy = 4) :
    s.interrogateAgain n = s.legacySendI n 8 0 20 := if_pos (by simp [hs, hl])

/-- Settles O38: the open page lets each command act on its station, whose state or kind selects the branch that carries it
out. -/
theorem stationPageCommandsComplete : Obligations.StationPageCommandsComplete := by
  unfold Obligations.StationPageCommandsComplete
  refine ⟨fun s r n hw => congrArg Host.Outcome.next (State.writeAs_mayWrite hw _ _), fun s r n d hw hd hs => ?disablesUndropped,
    fun s r n d hw hd hs => ?disablesDropped, fun s r n d hw hd hs => ?enables, fun s r n d hw hd => ?clears,
    fun s r n d hw hd hk hs hl => ?interrogates, fun s r n d i hw hd hk hi => ?closesBound,
    fun s r n d hw hd hk hi => ?closesUnbound, fun s r n d hw hd hk hl => ?closesLegacy⟩ <;>
    refine congrArg Host.Outcome.next ((State.stnCommand_declared hw hd _ _).trans ?_)
  case disablesUndropped =>
    rcases hs with hs | hs <;> simp only [hs] <;> rfl
  case disablesDropped =>
    simp only [hs]
    rfl
  case enables => exact if_pos hs
  case clears => rfl
  case interrogates => exact (if_pos hk).trans (State.interrogateAgain_started hs hl)
  case closesBound => simp only [if_pos hk, hi]
  case closesUnbound => simp only [if_pos hk, hi]
  case closesLegacy =>
    simp only [hk, decide_true, Bool.true_and, decide_eq_true hl, if_true]
    rfl

/-! Frames and links of Ethernet ports (R248-R250, R287) -/

/-- Settles O39: the port is up, and what comes to it selects the branch that carries it out (that RX_DROPS counts each
discard is log 68). -/
theorem ethernetPortCommandsComplete : Obligations.EthernetPortCommandsComplete := by
  unfold Obligations.EthernetPortCommandsComplete
  refine ⟨fun s x vlan addr v6 hup hv hc ho => ?answers, fun s x vlan addr v6 hup hv => ?barred,
    fun s x up speed hup hl hm => ?linkChanges, fun s x hup => ?badFcs, fun s x hup => ?overflow, fun s x hup => ?fragment,
    fun s x tag hup hv => ?vlan, fun s x size hup hm => ?tooLong, fun s x role hup hr => ?wrongRole⟩ <;>
    refine congrArg Host.Outcome.next ?_
  case answers => simp [hup, hv, hc, ho]
  case barred => simp [hup, hv]
  case linkChanges =>
    have hgood : up = false ∨ (s.chmPortUp x.val && modeSpeed (s.fld (Reg.chmXControlMode x.val)) speed.toNat) = true := by
      cases up with
      | false => exact .inl rfl
      | true => exact .inr (by simp [hup, hm])
    exact (if_neg hl).trans (if_pos hgood)
  case badFcs => exact if_pos (by simp [hup, State.discards])
  case overflow => exact if_pos (by simp [hup, State.discards])
  case fragment => exact if_pos (by simp [hup, State.discards])
  case vlan => exact if_pos (by simp [hup, State.discards, hv])
  case tooLong => exact if_pos (by simp [hup, State.discards, hm])
  case wrongRole => exact if_pos (by simp [hup, State.discards, hr])

/-! Legacy connections (R278-R280) -/

section
variable {s : State} {n : Nat} {d : StationDecl} (hd : s.legacyDecl n = some d)
include hd

/-- A connection that is down with no retry awaited opens (R278). -/
theorem execLegacyConnect_due (hon : s.chmOn = true) (hc : s.chmCoreUp n = true) (hl : (s.station n).legacy = 0)
    (ht : (s.station n).retryS = 0) (hr : s.role ≠ 0) : execLegacyConnect n s = .next (s.legacyOpenTcp d) := by
  simp [execLegacyConnect, hd, hon, hc, hl, ht, hr]

/-- A connection that is down opens again when its retry is due (R278). -/
theorem execLegacyRetry_due (hon : s.chmOn = true) (hc : s.chmCoreUp n = true) (hl : (s.station n).legacy = 0)
    (ht : (s.station n).retryS ≠ 0) (hr : s.role ≠ 0) : execLegacyRetry n s = .next (s.legacyOpenTcp d) := by
  simp [execLegacyRetry, hd, hon, hc, hl, ht, hr]

/-- The end of a handshake on an open connection: stopped under the declared identity, and STARTDT from a unit that drives;
failed under any other (R252, R278, R279). -/
theorem execLegacyTlsHandshake_open (hl : (s.station n).legacy = 1) (hu : s.legacyUp n = true) (tls13 : Bool) (o : TlsOutcome) {u : State}
    (ht : (s.onStation n fun t => { t with legacy := 3, tls13 := tls13, retryS := 0, port := t.via }).refreshSessions = u) :
    execLegacyTlsHandshake n tls13 o s = .next
      (if o.supported && o.authentic && decide (identityOf o.spki = d.idHash) then if u.drives then u.legacyStart n else u
      else (s.legacyClose d).chmRaise n 0 Reg.chmEventHandshakeFail) := by
  have hopen : ¬((s.station n).legacy ≠ 1 ∨ s.legacyUp n = false) := by simp [hl, hu]
  simp only [execLegacyTlsHandshake, hd, if_neg hopen, ht, apply_ite Host.Outcome.next]

theorem execLegacyConnectionLost_declared : execLegacyConnectionLost n s =
    if (s.station n).legacy = 0 then .next s else .next (s.legacyLost d) := by
  simp only [execLegacyConnectionLost, hd]

theorem execLegacyT0Timeout_declared : execLegacyT0Timeout n s =
    if (s.station n).legacy = 1 then .next (s.legacyClose d) else .next s := by
  simp only [execLegacyT0Timeout, hd]

/-- The keys of a connection are renewed under TLS 1.3; under TLS 1.2 it closes and opens again (R278). -/
theorem execLegacyKeyRenewal_connected (hc : (s.station n).connected = true) : execLegacyKeyRenewal n s =
    if (s.station n).tls13 then .next (s.legacySend n 12 0 0)
    else .next (((s.legacySend n 2 0 0).onStation n fun t => { t.freshLink with legacy := 0 }).legacyOpenTcp d).refreshSessions := by
  simp only [execLegacyKeyRenewal, hd, if_pos hc]

/-- An APDU on a connection that is up is counted and heard before it is taken (R280, R283). -/
theorem execLegacyApdu_heard (hc : (s.station n).connected = true) (hu : s.legacyUp n = true) (apdu : Apdu) :
    execLegacyApdu n apdu s =
      .next (((s.countWrap (Reg.chmXRxFramesRxFrames (s.station n).via)).legacyHeard n).takeApdu d apdu) := by
  simp only [execLegacyApdu, hd, hc, hu, Bool.and_self, if_true]

/-- A positive confirmation settles its command: the value sent is the confirmed one (R284). -/
theorem execLegacyActcon_positive {ioa : Nat} {c : Nat × W32}
    (hf : (s.station n).pendingCmds.find? (fun c => decide (c.1 = ioa)) = some c) : execLegacyActcon n ioa true s =
      .next ((s.legacyHeard n).onStation n fun u => { u with
        pendingCmds := (s.station n).pendingCmds.filter (fun c => decide (c.1 ≠ ioa))
        confirmed := Sparse.insert (Sparse.erase u.confirmed ioa) ioa c.2 }) := by
  simp only [execLegacyActcon, hd, hf, if_true]

theorem execLegacyActterm_declared : execLegacyActterm n s =
    if (s.station n).interrogating then
      .next ((s.legacyHeard n).onStation n fun t => { t with
        interrogating := false, confirmed := if d.resend then [] else s.outputValues d })
    else .next s := by
  simp only [execLegacyActterm, hd]

theorem execLegacyTestFrame_declared : execLegacyTestFrame n s =
    if (s.station n).connected then .next ((s.onStation n fun t => { t with testOut := true }).legacySend n 5 0 0)
    else .next s := by
  simp only [execLegacyTestFrame, hd]

theorem execLegacyT1Timeout_declared : execLegacyT1Timeout n s =
    if (s.station n).connected &&
        ((s.station n).testOut || decide ((s.station n).unacked ≠ 0) || decide ((s.station n).uOut ≠ 0)) then
      .next (s.legacyClose d)
    else .next s := by
  simp only [execLegacyT1Timeout, hd]

theorem execLegacyT2Timeout_declared : execLegacyT2Timeout n s =
    if (s.station n).connected && decide ((s.station n).unsent ≠ 0) then
      .next ((s.onStation n fun t => { t with unsent := 0 }).legacySend n 7 0 0)
    else .next s := by
  simp only [execLegacyT2Timeout, hd]

theorem execLegacyInterrogationTimer_declared : execLegacyInterrogationTimer n s =
    if d.giS ≠ 0 then .next (s.interrogateAgain n) else .next s := by
  simp only [execLegacyInterrogationTimer, hd]

theorem execLegacyClockSyncTimer_declared : execLegacyClockSyncTimer n s =
    if d.csMin ≠ 0 && s.drives && decide ((s.station n).legacy = 4) then
      .next (s.legacySendI n 9 0 (s.now - s.fld Reg.tspUtcOffsetSeconds * 1000000000))
    else .next s := by
  simp only [execLegacyClockSyncTimer, hd]

end

/-- A connection opens over the lowest port that carries station traffic (R278, log 72). -/
theorem State.legacyOpenTcp_openPort {s : State} {x : Nat} (hx : s.openPort = some x) (d : StationDecl) :
    s.legacyOpenTcp d = (s.onStation d.num fun t => { t.freshLink with legacy := 1, via := x }).sendEth x
      (.tcpOpen d.num (s.route x ⟨BitVec.ofNat 128 d.addr, BitVec.ofNat 16 d.tcpPort⟩)) := by
  simp only [State.legacyOpenTcp, hx]

/-- Settles O40: the station is declared legacy, and the state of its connection selects the branch that carries the command
out. -/
theorem legacyCommandsComplete : Obligations.LegacyCommandsComplete := by
  unfold Obligations.LegacyCommandsComplete
  refine ⟨fun s n d hd hon hc hl ht hr => execLegacyConnect_due hd hon hc hl ht hr,
    fun s n d hd hon hc hl ht hr => execLegacyRetry_due hd hon hc hl ht hr,
    fun s n v sup auth spki d hd hl hu hs ha hi => ?shakesHands, fun s n v sup auth spki d hd hl hu hbad => ?failsHandshake,
    fun s d x hx => State.legacyOpenTcp_openPort hx d,
    fun s n d hd hl => (execLegacyConnectionLost_declared hd).trans (if_neg hl),
    fun s n d hd hl => (execLegacyT0Timeout_declared hd).trans (if_pos hl),
    fun s n d hd hc ht => (execLegacyKeyRenewal_connected hd hc).trans (if_pos ht),
    fun s n d hd hc ht => (execLegacyKeyRenewal_connected hd hc).trans (if_neg (by simp [ht])),
    fun s n d octets sendSeq recvSeq typeId cause ca objects hd hc hu hseq => ?inSequence,
    fun s n d recvSeq hd hc hu => execLegacyApdu_heard hd hc hu _, fun s n d hd hc hu => execLegacyApdu_heard hd hc hu _,
    fun s n d hd hc hu => execLegacyApdu_heard hd hc hu _, fun s n d hd hc hu => execLegacyApdu_heard hd hc hu _,
    fun s n d hd hc hu => execLegacyApdu_heard hd hc hu _, fun s n ioa positive d c hd hf hp => ?confirms,
    fun s n d hd hi => (execLegacyActterm_declared hd).trans (if_pos hi),
    fun s n d hd hc => (execLegacyTestFrame_declared hd).trans (if_pos hc), fun s n d hd hc hw => ?unanswered,
    fun s n d hd hc hw => (execLegacyT2Timeout_declared hd).trans (if_pos (by simp [hc, hw])),
    fun s n d hd hg hs hl => (execLegacyInterrogationTimer_declared hd).trans ?interrogates,
    fun s n d hd hc hs hl => (execLegacyClockSyncTimer_declared hd).trans (if_pos (by simp [hc, hs, hl])),
    fun s n ioa => rfl⟩
  case shakesHands =>
    exact (execLegacyTlsHandshake_open hd hl hu v _ rfl).trans (congrArg Host.Outcome.next (if_pos (by simp [hs, ha, hi])))
  case failsHandshake =>
    have hb : ¬(sup && auth && decide (identityOf spki = d.idHash)) = true := by
      rcases hbad with hb | hb | hb <;> simp [hb]
    exact (execLegacyTlsHandshake_open hd hl hu v _ rfl).trans (congrArg Host.Outcome.next (if_neg hb))
  case inSequence =>
    exact (execLegacyApdu_heard hd hc hu _).trans (congrArg Host.Outcome.next (if_neg (not_not_intro hseq)))
  case confirms =>
    subst hp
    exact execLegacyActcon_positive hd hf
  case unanswered => exact (execLegacyT1Timeout_declared hd).trans (if_pos (by simpa [hc, or_assoc] using hw))
  case interrogates => rw [if_pos hg, State.interrogateAgain_started hs hl]

end Sys2Proof.Machine

namespace Sys2Proof.Machine

/-! Received frames of a Hob port (R296, R303) -/

@[simp] theorem State.hobPort_setHobPort_same (s : State) (p : Nat) (h : HobPort) : (s.setHobPort p h).hobPort p = h :=
  Sparse.get_put_same _ _ _ _

/-- A frame that finds the RX FIFO empty waits there alone, with its stamp (R303). -/
theorem State.hobFifo_empty {s : State} {p : Nat} (hq : (s.hobPort p).rx = []) (f : CanFrame) :
    s.hobFifo p f = s.setHobPort p { s.hobPort p with rx := [(s.now, f)] } := by
  simp [State.hobFifo, hq]

/-- A running sequencer takes the only frame of the FIFO, and the bus is idle after it (R303). -/
theorem State.hobDrain_single {s : State} {p stamp : Nat} {f : CanFrame} (hup : s.fldBit Reg.hobStatusSeqUp (p / 16) = true)
    (hq : (s.hobPort p).rx = [(stamp, f)]) :
    s.hobDrain p = ((s.setHobPort p { s.hobPort p with rx := [] }).hobTake p stamp f).hobPump p := by
  simp only [State.hobDrain, if_pos hup, hq, List.foldl_cons, List.foldl_nil]

section
variable {s : State} {p : Nat} {f : CanFrame} (hr : s.hobReceives p = true)
include hr

/-- A frame that a sequencer is late for waits in the FIFO (R303, log 77). -/
theorem State.hobReceive_late (hl : f.late = true) :
    s.hobReceive p f = ((s.countWrap (Reg.hobPRxFramesRxFrames p)).hobRxGood p).hobFifo p f := by
  simp only [State.hobReceive, if_pos hr, if_pos hl]

/-- A frame that finds the FIFO empty and its sequencer running and in time is taken from the FIFO at once (R303). -/
theorem State.hobReceive_taken {t : State} (ht : (s.countWrap (Reg.hobPRxFramesRxFrames p)).hobRxGood p = t)
    (hl : f.late = false) (hq : (t.hobPort p).rx = []) (hup : t.fldBit Reg.hobStatusSeqUp (p / 16) = true) :
    s.hobReceive p f =
      (((t.hobFifo p f).setHobPort p { (t.hobFifo p f).hobPort p with rx := [] }).hobTake p t.now f).hobPump p := by
  have hfifo := State.hobFifo_empty hq f
  have hup' : (t.hobFifo p f).fldBit Reg.hobStatusSeqUp (p / 16) = true := by rw [hfifo]; exact hup
  have hrx : ((t.hobFifo p f).hobPort p).rx = [(t.now, f)] := by simp [hfifo]
  simp only [State.hobReceive, if_pos hr, ht, hl, Bool.false_eq_true, if_false]
  exact State.hobDrain_single hup' hrx

end

/-! Frames of the profile, outside and in the quiet window (R307, R314, R320) -/

section
variable {s : State} {p stamp : Nat} {f : CanFrame} (hdef : s.hobDefined p f = true)
include hdef

/-- A wake frame of a station in the quiet window cancels the sleep (R320). -/
theorem State.hobTake_wake (hd : canDir f = 1) (hc : canCls f = 3) (hw : field f.payload 4 1 = 0x14)
    (he : (s.hobEpoch p f).hobEff p = 4) : s.hobTake p stamp f = (s.hobEpoch p f).hobCancelSleep p := by
  simp [State.hobTake, hdef, hd, hc, hw, he]

section
variable (he : (s.hobEpoch p f).hobEff p ≠ 4) (hen : (s.hobEpoch p f).bit Reg.hobControlEnable = true)
include he hen

/-- A frame of another unit is followed (R314, R322). -/
theorem State.hobTake_peer (hd : canDir f = 0) : s.hobTake p stamp f = (s.hobEpoch p f).hobFollow p f := by
  simp [State.hobTake, hdef, he, hen, hd]

/-- A bus-control frame of a station is its vote (R319). -/
theorem State.hobTake_control (hd : canDir f = 1) (hc : canCls f = 3) :
    s.hobTake p stamp f = (s.hobEpoch p f).hobStationControl p stamp f := by
  simp [State.hobTake, hdef, he, hen, hd, hc]

/-- A frame of a declared station is taken by its kind (R307). -/
theorem State.hobTake_station {d : StationDecl} (hd : canDir f = 1) (hc : canCls f ≤ 2)
    (hdecl : (s.hobEpoch p f).hobDecl p f = some d) :
    s.hobTake p stamp f =
      if canKind f = 0 then (s.hobEpoch p f).hobImage d stamp f
      else if canKind f = 1 then (s.hobEpoch p f).hobAck d stamp f
      else (s.hobEpoch p f).hobEvent d stamp f := by
  have hc3 : canCls f ≠ 3 := by omega
  simp only [State.hobTake, hdef, he, hen, hd, hc3, hdecl, Bool.not_true, Bool.false_eq_true, if_false, one_ne_zero]
  match canKind f with
  | 0 => rfl
  | 1 => rfl
  | _ + 2 => rfl

end

end

/-! What a station's frame does (R310-R312) -/

section
variable {s : State} {d : StationDecl} {stamp : Nat} {f : CanFrame} (hl : f.payload.length = 64)
include hl

/-- An image frame of the declared layout and of the segments that the image has joins the assembly (R310, R317). -/
theorem State.hobImage_whole (hh : field f.payload 62 2 = d.layoutHash % 2 ^ 16)
    (hn : field f.payload 6 1 / 16 = max 1 ((d.inCount + 11) / 12))
    (hi : field f.payload 6 1 % 16 < field f.payload 6 1 / 16) :
    s.hobImage d stamp f = (s.hobHeard d.num stamp).assemble d stamp
      ⟨field f.payload 4 2, field f.payload 6 1 % 16, field f.payload 6 1 / 16,
        unpackWords (f.payload.drop 8) (min 12 (d.inCount - 12 * (field f.payload 6 1 % 16))),
        (field f.payload 7 1).testBit 1⟩ := by
  have hwhole : ¬(field f.payload 6 1 / 16 ≠ max 1 ((d.inCount + 11) / 12) ∨
      field f.payload 6 1 / 16 ≤ field f.payload 6 1 % 16) :=
    not_or.mpr ⟨not_not_intro hn, Nat.not_le.mpr hi⟩
  exact (if_neg (not_not_intro hl)).trans ((if_neg (not_not_intro hh)).trans (if_neg hwhole))

/-- An acknowledge of kind 0 is of an output image (R311). -/
theorem State.hobAck_image (hk : field f.payload 10 1 = 0) : s.hobAck d stamp f =
    (s.hobHeard d.num stamp).onStation d.num fun t => { t with outAck := field f.payload 8 2 } :=
  (if_neg (not_not_intro hl)).trans (if_pos hk)

/-- An event frame of words that the image has, once queued whole, is acknowledged (R263, R312). -/
theorem State.hobEvent_queued (hd : d.events = true)
    (hw : (hobEvents f.payload).any (fun r => decide (d.inCount ≤ r.1)) = false) {t : State}
    (hq : (s.hobHeard d.num stamp).queueEvents d.num 2 (hobEvents f.payload) = (true, t)) :
    s.hobEvent d stamp f = t.hobQueue d.hobPort [t.hobAckFrame d (field f.payload 4 2) 2] := by
  simp [State.hobEvent, hl, hd, hw, hq]

end

/-- Settles O41: the port receives and its sequencer takes the frame, whose kind then selects what is done with it (that a frame
whose sequencer is late waits in the FIFO is log 77). -/
theorem hobReceptionCompletes : Obligations.HobReceptionCompletes := by
  unfold Obligations.HobReceptionCompletes
  refine ⟨fun s p f d hd hk hc hr hl hq hup hdef he hen hdecl hlen hh hn hi => (if_pos ⟨hd, hk, hc⟩).trans ?image,
    fun s p f hd hk hc hr hl => (if_pos ⟨hd, hk, hc⟩).trans (congrArg Host.Outcome.next (State.hobReceive_late hr hl)),
    fun s p f d hd hk hc hr hl hq hup hdef he hen hdecl hlen hz => (if_pos ⟨hd, hk, hc⟩).trans ?ack,
    fun s p f d hd hk hc hr hl hq hup hdef he hen hdecl hlen hev hw hok => (if_pos ⟨hd, hk, hc⟩).trans ?event,
    fun s p why hr he => (if_pos hr).trans ?foreign,
    fun s p f hd hr hl hq hup hdef he hen => (if_pos hd).trans ?peer,
    fun s p f hd hc hk hw hr hl hq hup hdef he => (if_pos ⟨hd, hc, hw⟩).trans ?wake,
    fun s p f hd hc hv hr hl hq hup hdef he hen => (if_pos ⟨hd, hc, hv⟩).trans ?vote⟩
  case foreign => simp only [if_neg he]
  all_goals
    refine congrArg Host.Outcome.next
      ((State.hobReceive_taken hr rfl hl hq hup).trans (congrArg (State.hobPump · p.val) ?_))
  case image =>
    exact (State.hobTake_station hdef he hen hd hc hdecl).trans ((if_pos hk).trans (State.hobImage_whole hlen hh hn hi))
  case ack =>
    exact (State.hobTake_station hdef he hen hd hc hdecl).trans
      ((if_neg (by simp [hk])).trans ((if_pos hk).trans (State.hobAck_image hlen hz)))
  case event =>
    exact (State.hobTake_station hdef he hen hd hc hdecl).trans
      ((if_neg (by simp [hk])).trans ((if_neg (by simp [hk])).trans (State.hobEvent_queued hlen hev hw (Prod.ext hok rfl))))
  case peer => exact State.hobTake_peer hdef he hen hd
  case wake => exact State.hobTake_wake hdef hd hc hw he
  case vote => exact State.hobTake_control hdef he hen hd hc

/-! What a port transmits (R298-R301) -/

section
variable {s : State} {p : Fin 192} {b : Nat} (hb : (s.hobPort p.val).onBus = some b)
include hb

/-- A frame sent frees its buffer, settles a latched cancel as SENT, and leaves the bus to the next frame (R298, R301). -/
theorem execHobFrameSent_onBus {x : TxBuf} (hx : (s.hobPort p.val).buf b = x) {t u : State}
    (ht : ((s.setHobPort p.val ((s.hobPort p.val).setBuf b TxBuf.free)).countWrap (Reg.hobPTxFramesTxFrames p.val)).hobTxGood
      p.val = t)
    (hu : (if x.cancel ≠ 0 then t.hobResult p.val b 1 x.cancel else t) = u) :
    execHobFrameSent p s = .next
      (((u.send (.can p.val x.frame.ident (u.hobBrs p.val) x.frame.payload)).hobControlSent p.val x.frame).hobPump p.val) := by
  simp only [execHobFrameSent, hb, hx, ht, hu]

theorem execHobTxFailed_arbitrationLost :
    execHobTxFailed p .arbitrationLost s = .next (s.hobAttemptEnds p.val b false false) := by
  simp only [execHobTxFailed, hb]

/-- A bit error after arbitration counts as a collision and as a transmit error (R297, R300). -/
theorem execHobTxFailed_bitErrorAfterArbitration : execHobTxFailed p .bitErrorAfterArbitration s = .next
    ((((s.hobAttemptEnds p.val b true true).count (Reg.hobPCountersCollisions p.val)).hobPRaise p.val 8
      (Reg.hobPEventCollision p.val)).hobTxError p.val) := by
  simp only [execHobTxFailed, hb]

theorem execHobTxFailed_otherError :
    execHobTxFailed p .otherError s = .next ((s.hobAttemptEnds p.val b true false).hobTxError p.val) := by
  simp only [execHobTxFailed, hb]

end

section
variable {s : State} {p b : Nat} (who : Nat)

/-- A cancel of the frame on the bus is latched, and its result awaited (R301). -/
theorem State.hobCancel_onBus (hb : ((s.hobPort p).buf b).state = 2) : s.hobCancel p b who =
    (s.setHobPort p ((s.hobPort p).setBuf b { (s.hobPort p).buf b with cancel := who })).hobResult p b 0 who := by
  simp only [State.hobCancel, hb]

/-- A cancel of a pending frame frees its buffer (R301). -/
theorem State.hobCancel_pending (hb : ((s.hobPort p).buf b).state = 1) : s.hobCancel p b who =
    (s.setHobPort p ((s.hobPort p).setBuf b TxBuf.free)).hobResult p b 2 who := by
  simp only [State.hobCancel, hb]

end

/-- A cancel requested in TX_CANCEL by a requester that may write the page (R301). -/
theorem execHobTxCancel_requested {s : State} {r : Requester} {p : Fin 192} {v : W32}
    (hw : s.mayWrite r (0x201 + p.val) = true) (hv : bitOf v.toNat 5 = true) :
    execHobTxCancel r p v s = .next ((s.hobCancel p.val (v.toNat % 32) 1).hobPump p.val) :=
  congrArg Host.Outcome.next ((State.writeAs_mayWrite hw _ _).trans (if_pos hv))

/-! References (R304-R306) -/

/-- The reference that is due is released with its set time, where none waits from before (R304, R305). -/
theorem execHobReferenceLaunch_due {s : State} {p : Fin 192} {cycle time : Nat} (hm : s.hobTimeMaster p.val = true)
    (ht : s.hobSetTime p.val = some (cycle, time)) (hb : ((s.hobPort p.val).buf 0).state ≠ 1) {t : State}
    (hs : s.setHobPort p.val { s.hobPort p.val with launchAt := some time } = t) :
    execHobReferenceLaunch p s = .next (t.hobReference p.val time (t.hobReferenceFrame cycle time)) := by
  simp only [execHobReferenceLaunch, hm, ht, if_neg hb, hs]

/-- A reference that waits is given up (R306). -/
theorem execHobReferenceLost_pending {s : State} {p : Fin 192} (hb : ((s.hobPort p.val).buf 0).state = 1) :
    execHobReferenceLost p s = .next ((s.hobLoseReference p.val).hobPump p.val) := by
  simp only [execHobReferenceLost, hb]

/-- A bus error outside the quiet window only counts (R297, R320). -/
theorem execHobBusError_counted {s : State} {p : Fin 192} {inc : Nat} (hr : s.hobReceives p.val = true) {t : State}
    (ht : (s.setFld (Reg.hobPErrCountRec p.val) (min 255 (s.fld (Reg.hobPErrCountRec p.val) + inc))).hobErrState p.val = t)
    (he : t.hobEff p.val ≠ 4) : execHobBusError p inc s = .next t := by
  simp only [execHobBusError, if_pos hr, ht, if_neg he]

/-- Settles O42: the buffer named, its state, or the state of the port selects the branch that carries the command out (how the
error counters step is log 19). -/
theorem hobTransmissionCompletes : Obligations.HobTransmissionCompletes := by
  unfold Obligations.HobTransmissionCompletes
  exact ⟨fun s p b hb => execHobFrameSent_onBus hb rfl rfl rfl, fun s p b hb => execHobTxFailed_arbitrationLost hb,
    fun s p b hb => execHobTxFailed_bitErrorAfterArbitration hb, fun s p b hb => execHobTxFailed_otherError hb,
    fun s p b hb => if_pos hb,
    fun s r p v hw hv hb => (execHobTxCancel_requested hw hv).trans
      (congrArg (fun t => Host.Outcome.next (State.hobPump t p.val)) (State.hobCancel_onBus 1 hb)),
    fun s r p v hw hv hb => (execHobTxCancel_requested hw hv).trans
      (congrArg (fun t => Host.Outcome.next (State.hobPump t p.val)) (State.hobCancel_pending 1 hb)),
    fun s p hm => if_pos hm, fun s p cycle time hm ht hb => execHobReferenceLaunch_due hm ht hb rfl,
    fun s p hb => execHobReferenceLost_pending hb, fun s p hr => if_pos hr, fun s p he ha hu => if_pos ⟨he, ha, hu⟩,
    fun s p inc hr he => execHobBusError_counted hr rfl he⟩

/-! Modes and sleep of a port (R293, R319, R322) -/

/-- A requested mode is taken on an idle bus, where the port does not restart (R293, R322). -/
theorem State.hobApplyMode_idle {s : State} {p m : Nat} (hm : (s.hobPort p).modeReq = some m)
    (hb : (s.hobPort p).onBus = none) (hr : s.hobRestarting p = false) : s.hobApplyMode p = s.hobEnter p m := by
  simp [State.hobApplyMode, hm, hb, hr]

theorem State.hobStartRestart_banked {s : State} {p : Nat} (he : s.hobEff p = 5) :
    s.hobStartRestart p = (s.setHobPort p { s.hobPort p with modeReq := some 1 }).hobGroup (p / 8) := if_pos he

section
variable {s : State} {p : Fin 192} (ha : (s.hobPort p.val).asking = true) (he : s.hobEff p.val = 3)
include ha he

/-- Votes that are all YES confirm the sleep (R319). -/
theorem execHobVoteEnd_confirms (hy : s.hobAllYes p.val = true) : execHobVoteEnd p s = .next
    ((s.setHobPort p.val { s.hobPort p.val with asking := false, confirming := true }).hobControl p.val 2) := by
  simp only [execHobVoteEnd, ha, he, hy, decide_true, Bool.and_self, if_true]

/-- A vote that is missing or NO aborts the sleep (R319). -/
theorem execHobVoteEnd_aborts (hy : s.hobAllYes p.val = false) : execHobVoteEnd p s = .next
    ((((s.setHobPort p.val { s.hobPort p.val with asking := false, aborting := true }).setHobEff p.val 1).hobPRaise p.val 5
      (Reg.hobPEventSleepCancelled p.val)).hobControl p.val 3) := by
  simp only [execHobVoteEnd, ha, he, hy, decide_true, Bool.and_self, Bool.false_eq_true, if_true, if_false]

end

/-- Settles O43: the open page, or the state of the port, selects the branch that carries the command out. -/
theorem hobModesAndSleepComplete : Obligations.HobModesAndSleepComplete := by
  unfold Obligations.HobModesAndSleepComplete
  refine ⟨fun s r p v hw => congrArg Host.Outcome.next (State.writeAs_mayWrite hw _ _), fun s p m hm hb hr => ?changesMode,
    fun s r p hw hd he ho => ?asksForVotes, fun s p ha he hy => execHobVoteEnd_confirms ha he hy,
    fun s p ha he hy => execHobVoteEnd_aborts ha he hy, fun s p he => if_pos he, fun s r p hw he => ?softwareWakes,
    fun s p hg he => ?busWakes, fun s p hr => if_pos hr, fun s g hm => if_pos (.inl hm), fun s g hm hk hu hg => ?groupWakes⟩
  case changesMode =>
    exact congrArg (fun t => Host.Outcome.next (State.hobFirstHolds t s p.val)) (State.hobApplyMode_idle hm hb hr)
  case asksForVotes =>
    exact congrArg Host.Outcome.next ((State.writeAs_mayWrite hw _ _).trans (if_pos (by simp [hd, he, ho])))
  case softwareWakes =>
    exact congrArg Host.Outcome.next ((State.writeAs_mayWrite hw _ _).trans (State.hobStartRestart_banked he))
  case busWakes =>
    exact (if_neg (by simp [hg])).trans (congrArg Host.Outcome.next (State.hobStartRestart_banked he))
  case groupWakes =>
    have hnot : ¬(s.mode = modeBanked ∨ s.kindling = .resume) := not_or.mpr ⟨hm, hk⟩
    have hstands : (s.hobUp && s.fldBit Reg.hobGroupStandbyStandby g.val) = true := by rw [hu, hg]; rfl
    exact (if_neg hnot).trans (if_pos hstands)

end Sys2Proof.Machine

namespace Sys2Proof.Machine

/-! Heartbeats and losses of the link (R331, R332, R341) -/

/-- A heartbeat taken over a link that is on: under AUTO_SYNC the versions go out before the rollback version (R342, R344,
log 148). -/
theorem execErairHeartbeat_on {s t : State} {payload : List W36} (hon : s.erairOn = true)
    (ht : (((s.noteHeartbeat (heartbeatOf payload)).noteClash (heartbeatOf payload)).heartbeatEpochs
      (heartbeatOf payload)).heartbeatRole s.erair.partner (heartbeatOf payload) = t) :
    execErairHeartbeat payload s =
      .next (if t.bit Reg.eraControlAutoSync = true then t.tellVersions else t).tellRollback := by
  simp only [execErairHeartbeat, if_pos hon, ht]

/-- What a loss leaves before the unit acts on it: no link, no waiting cells (log 133), the count, the event and the record with the
last heartbeat (R332). -/
def State.noteLoss (s : State) : State :=
  let t := ((({ s with erair := { s.erair with up := false, cells := [] } } : State).setFields
    [(Reg.eraStatusPartner, 0), (Reg.eraStatusTimeOk, 0)]).count Reg.eraCountersLinkLosses).raise Reg.eraEventLinkLost
  t.record 0x016 0x02 true [t.erair.lastHb]

/-- A loss starts the confirmation of a synchronized Standby with a line or a witness, and else desynchronizes (R341, R357). -/
theorem execErairLoss_up {s : State} (hup : s.erair.up = true) : execErairLoss s =
    if (decide (s.noteLoss.role = 4) && (s.noteLoss.lineOn || s.noteLoss.witnessOn)) = true then .next s.noteLoss.startConfirm
    else .next (s.noteLoss.desync 1) := if_neg (by simp [hup])

/-- A link without lanes comes up on all four (R329). -/
theorem execErairLinkUp_laneless {s : State} (he : s.bit Reg.eraControlEnable = true) (hc : s.compUp 5 = true)
    (hd : s.domainOn 21 = true) (hh : s.hostUp = true) (hl : s.fld Reg.eraStatusLanes = 0) (roundTripNs partnerTime : Nat) :
    execErairLinkUp roundTripNs partnerTime s = .next
      (((({ s with erair := { s.erair with
          up := true, roundTrip := roundTripNs, cells := [], told := [], versions := none } } : State).setFields
        ([(Reg.eraStatusLanes, 0xF)] ++ (List.range 4).map fun l => (Reg.eraLErrorsUp l, 1))).setOffset partnerTime).raise
          Reg.eraEventLinkUp) := by
  have hon : (s.bit Reg.eraControlEnable && s.compUp 5 && s.domainOn 21 && s.hostUp) = true := by simp [he, hc, hd, hh]
  exact (if_pos hon).trans (congrArg (fun t : State => Host.Outcome.next ((t.setOffset partnerTime).raise Reg.eraEventLinkUp))
    (if_pos hl))

/-- A retrained link runs on the lanes named, and fewer than four of them are an event (R329). -/
theorem execLaneRetrainDone_fit {s : State} {lanes : BitVec 4} (hf : s.fit.chimney = true)
    (hn : maskCount lanes.toNat = 1 ∨ maskCount lanes.toNat = 2 ∨ maskCount lanes.toNat = 4) {t : State}
    (ht : s.setFields ([(Reg.eraStatusLanes, lanes.toNat)] ++
      (List.range 4).map fun l => (Reg.eraLErrorsUp l, bitsOf lanes.toNat l 1)) = t) :
    execLaneRetrainDone lanes s =
      if maskCount lanes.toNat = 4 then .next t else .next (t.raise Reg.eraEventLaneDegraded) := by
  have hruns : ¬(maskCount lanes.toNat = 0 ∨ maskCount lanes.toNat = 3 ∨ s.fit.chimney = false) := by
    simp only [hf, Bool.true_eq_false, or_false]
    omega
  subst ht
  exact if_neg hruns

/-! Records and their acknowledgement (R336-R339) -/

theorem State.takeWords_intact {s : State} {words : List W36} {rec : CycleRecord} (hi : recordIntact words = true)
    (hr : recordOf words = some rec) : s.takeWords words = s.takeRecord rec := by
  simp only [State.takeWords, hi, hr]

/-- A record that is not intact is answered with a NAK by a unit that applies records (R336). -/
theorem State.takeWords_broken {s : State} {words : List W36} (hi : recordIntact words = false) (hr : s.role = 3 ∨ s.role = 4) :
    s.takeWords words = s.erairSend (.ack (bitsOf (words.getD 0 0).toNat 0 2) (low32 (words.getD 1 0)) 2) := by
  simp only [State.takeWords, hi]
  exact if_pos hr

section
variable {s : State} {k : Fin 3} {cycle : W32} {o : Outstanding} (ho : s.findOutstanding k.val cycle.toNat = some o)
include ho

/-- An acknowledged record is done, and its outputs leave (R338, R339). -/
theorem execErairAck_applied : execErairAck k cycle true s = .next
    ((((s.acknowledged o).setFld (Reg.eraClAppliedCycle k.val) cycle.toNat).releaseCycle k.val cycle.toNat).rakeCheck) := by
  simp only [execErairAck, ho, if_true]

/-- A NAK brings the record again (R337). -/
theorem execErairAck_refused : execErairAck k cycle false s = .next (s.resend o) := by
  simp only [execErairAck, ho, Bool.false_eq_true, if_false]

theorem execRecordResendTimeout_outstanding : execRecordResendTimeout k cycle s = .next (s.resend o) := by
  simp only [execRecordResendTimeout, ho]

end

/-- Settles O44: the state of the link, or of what comes over it, selects the branch that carries the command out (that a heartbeat
is answered by telling the rollback version is log 148, and that waiting cells are lost at a loss is log 133). -/
theorem erairLinkCommandsComplete : Obligations.ErairLinkCommandsComplete := by
  unfold Obligations.ErairLinkCommandsComplete
  refine ⟨fun s hr he => if_pos (by simp [hr, he]), fun s payload hon ha => ?manual, fun s payload hon ha => ?automatic,
    fun s hup hr hp => (execErairLoss_up hup).trans (if_pos ?confirms),
    fun s hup hr => (execErairLoss_up hup).trans (if_neg ?desynchronizes),
    fun s roundTripNs partnerTime he hc hd hh hl => execErairLinkUp_laneless he hc hd hh hl roundTripNs partnerTime,
    fun _ _ => rfl, fun s lanes hf hl => ?allLanes, fun s lanes hf hn => ?fewerLanes,
    fun s l cell hf hk => if_neg (by simp [hf, hk]),
    fun s words rec hon hi hr => (if_pos hon).trans (congrArg Host.Outcome.next (State.takeWords_intact hi hr)),
    fun s words hon hi hr => (if_pos hon).trans (congrArg Host.Outcome.next (State.takeWords_broken hi hr)),
    fun s k cycle applied o ho ha => ha ▸ execErairAck_applied ho,
    fun s k cycle applied o ho ha => ha ▸ execErairAck_refused ho,
    fun s k cycle o ho => execRecordResendTimeout_outstanding ho, fun s k ho => if_neg ho, fun s ht => if_neg (by simp [ht])⟩
  case manual =>
    exact (execErairHeartbeat_on hon rfl).trans
      (congrArg (fun t => Host.Outcome.next (State.tellRollback t)) (if_neg (by simp [ha])))
  case automatic =>
    exact (execErairHeartbeat_on hon rfl).trans
      (congrArg (fun t => Host.Outcome.next (State.tellRollback t)) (if_pos ha))
  case confirms => exact Bool.and_eq_true_iff.mpr ⟨decide_eq_true hr, Bool.or_eq_true_iff.mpr hp⟩
  case desynchronizes => exact fun h => hr (of_decide_eq_true (Bool.and_eq_true_iff.mp h).1)
  case allLanes =>
    have h4 : maskCount lanes.toNat = 4 := by rw [hl]; decide
    exact (execLaneRetrainDone_fit hf (.inr (.inr h4)) rfl).trans (if_pos h4)
  case fewerLanes => exact (execLaneRetrainDone_fit hf (hn.imp_right .inl) rfl).trans (if_neg (by omega))

/-! Versions, the copy and its end (R342, R343) -/

section
variable {s t : State} {m : VersionMsg} (hon : s.erairOn = true)
  (ht : ({ s with erair := { s.erair with versions := some m } } : State).tellVersions = t)
include hon ht

/-- Versions that pass the check, or between units that are paired, lift an earlier refusal (R342). -/
theorem execVersionMessage_agreed (hc : t.checkSync m = none) :
    execVersionMessage m s = .next { t with erair := { t.erair with refused := none } } := by
  simp only [execVersionMessage, hon, ht, hc, Bool.not_true, Bool.false_eq_true, if_false]

/-- Versions of a partner with which synchronization could start are refused for the first reason of R342. -/
theorem execVersionMessage_refused {reason : Nat} (hs : t.syncRoles = true) (hr : t.syncRefusal m = some reason) :
    execVersionMessage m s = .next (t.refuseSync m reason) := by
  have hc : t.checkSync m = some reason := (if_pos hs).trans hr
  simp only [execVersionMessage, hon, ht, hc, Bool.not_true, Bool.false_eq_true, if_false]

end

/-- A synchronization that is asked for, between roles and versions that allow it, starts (R342, R343). -/
theorem execSyncStart_wanted {s : State} {m : VersionMsg} (hv : s.erair.versions = some m) (hon : s.erairOn = true)
    (hc : s.erair.clash = false) (hs : s.syncRoles = true) (hw : s.syncWanted m = true) (hr : s.syncRefusal m = none) :
    execSyncStart s = .next (s.startSync m) := by
  simp only [execSyncStart, hv, hon, hc, hs, hw, hr, Bool.not_false, Bool.and_self, if_true]

/-- A granule that a synchronizing or synchronized Standby receives is stored, and counts while the copy runs (R343). -/
theorem execCopyCell_stored {s : State} {granule : Nat} {current previous : List W36} (hr : s.role = 3 ∨ s.role = 4)
    (hon : s.erairOn = true) (hg : granule < 294912) : execCopyCell granule current previous s =
      if s.role = 3 then .next ((s.storeGranule granule current previous).markCopied granule)
      else .next (s.storeGranule granule current previous) := if_pos ⟨hr, hon, hg⟩

/-- Once every granule is copied each unit of the pair takes its synchronized role (R343). -/
theorem execSyncDone_copied {s : State} (hd : s.copyDone = true) (x : SyncStates) : execSyncDone x s =
    if s.role = 6 then .next (s.closeCopy.synced 7) else if s.role = 3 then .next ((s.loadStates x).synced 4)
    else .next s := if_neg (by simp [hd])

/-! The planned swap (R364) -/

section
variable {s : State} {w : Swap} (hw : s.erair.swap = some w)
include hw

/-- At T_S, with the other classes finished, the last outputs leave (R364). -/
theorem execSwapPoint_reached (hp : w.phase = 1) (hfrom : w.point ≤ s.now) (hto : s.now < w.point + Config.tickNs)
    (ho : s.othersFinished w.cls = true) : execSwapPoint s = .next
      ([0, 1, 2].foldl (fun t k => t.launchOutputs k t.now)
        { s with erair := { s.erair with swap := some { w with phase := 2 } } }) := by
  have hdue : ¬(w.phase ≠ 1 ∨ s.now < w.point) := by omega
  simp only [execSwapPoint, hw, if_neg hdue, if_pos (And.intro hto ho)]

/-- A boundary that passed without the swap moves T_S on, as far as the limit allows (R364, log 122). -/
theorem execSwapPoint_passed (hp : w.phase = 1) (hpast : w.point + Config.tickNs ≤ s.now) :
    execSwapPoint s = .next (s.moveSwap w) := by
  have hdue : ¬(w.phase ≠ 1 ∨ s.now < w.point) := by omega
  have hlate : ¬(s.now < w.point + Config.tickNs ∧ s.othersFinished w.cls = true) := fun h => by omega
  simp only [execSwapPoint, hw, if_neg hdue, if_neg hlate]

/-- Once the outputs have left, or half the shortest period has passed, the old Primary demotes and releases (R351, R364). -/
theorem execSwapDemote_due (hp : w.phase = 2) (hc : s.claimant = true) (he : s.swapEnds w = true) {t : State}
    (ht : (s.demoteAs 0 (s.fld Reg.dmpEpochEpoch)).erairSend
      (.message 5 ([0, 1, 2].map fun k => s.fld (Reg.blwClCycleLoCycleLo k))) = t) :
    execSwapDemote s = .next { t with erair := { t.erair with postSwap := true } } := by
  simp only [execSwapDemote, hw, if_pos (And.intro hp (And.intro hc he)), ht]

end

/-- A synchronized Primary without a swap takes the earliest boundary a millisecond ahead as T_S, where it falls within a second
(R364, log 122). -/
theorem execEraSwap_planned {s : State} {r : Requester} {point : Nat} (hm : s.mayWrite r 0x016 = true) (hr : s.role = 7)
    (hw : s.erair.swap = none) (hp : s.nextBoundary s.shortestClass (s.now + 1000000) = point)
    (hb : point ≤ s.now + 1000000000) : execEraSwap r s =
      .next { s with erair := { s.erair with swap := some ⟨1, s.shortestClass, point, s.now + 1000000000⟩ } } := by
  have hfree : (decide (s.role = 7) && s.erair.swap.isNone) = true := by simp [hr, hw]
  subst hp
  exact congrArg Host.Outcome.next ((State.writeAs_mayWrite hm _ _).trans
    ((if_pos hfree).trans (if_neg (Nat.not_lt.mpr hb))))

/-- Settles O45: the open page, the role or the state of the synchronization or swap selects the branch that carries the command out
(how T_S is chosen, moves on and is refused is log 122). -/
theorem pairSynchronisationCompletes : Obligations.PairSynchronisationCompletes := by
  unfold Obligations.PairSynchronisationCompletes
  refine ⟨fun s r hm hr => ?asks, fun s r hm => congrArg Host.Outcome.next (State.writeAs_mayWrite hm _ _),
    fun s m hon hc => execVersionMessage_agreed hon rfl hc, fun s m reason hon hs hr => execVersionMessage_refused hon rfl hs hr,
    fun s m hv hon hc hs hw hr => execSyncStart_wanted hv hon hc hs hw hr,
    fun s granule current previous hr hon hg => (execCopyCell_stored (.inl hr) hon hg).trans (if_pos hr),
    fun s granule current previous hr hon hg => (execCopyCell_stored (.inr hr) hon hg).trans (if_neg (by omega)),
    fun s x hd hr => (execSyncDone_copied hd x).trans (if_pos hr),
    fun s x hd hr => (execSyncDone_copied hd x).trans ((if_neg (by omega)).trans (if_pos hr)),
    fun s hr hc => if_pos ⟨hr, hc⟩, fun s ht => if_pos ht, fun s cycles hr hc => if_pos ⟨hr, hc⟩,
    fun s r hm hr hw hb => execEraSwap_planned hm hr hw rfl hb,
    fun s w hw hp hfrom hto ho => execSwapPoint_reached hw hp hfrom hto ho,
    fun s w hw hp hpast hlimit => (execSwapPoint_passed hw hp hpast).trans (congrArg Host.Outcome.next (if_pos hlimit)),
    fun s w hw hp hc he => execSwapDemote_due hw hp hc ?ends rfl⟩
  case asks => exact congrArg Host.Outcome.next ((State.writeAs_mayWrite hm _ _).trans (if_pos hr))
  case ends => exact Bool.or_eq_true_iff.mpr (he.imp_right decide_eq_true)

/-! The alive line and the witness (R355-R357) -/

/-- Three edges of the follower pattern make the line's state a follower's (R355). -/
theorem execPartnerAliveEdge_follower {s : State} {intervalUs : Nat} (hen : s.bit Reg.grtPairPartnerEn = true)
    (hc : s.erair.confirming = false) (he : (edgePattern intervalUs :: s.erair.edges).take 3 = [2, 2, 2]) :
    execPartnerAliveEdge intervalUs s =
      .next (({ s with erair := { s.erair with edges := [2, 2, 2] } } : State).setFld Reg.eraStatusLine 2) := by
  simp [execPartnerAliveEdge, hen, he, hc]

/-- A good witness datagram on a port that takes it is counted, its epoch is seen, and its kind then acts (R249, R350, R356). -/
theorem State.receiveWitness_good {s : State} {dg : Datagram} {bs : List Byte} {kind : Nat}
    (hup : s.chmPortUp dg.port.val = true) (hv : s.vlanTakes dg.port.val dg.vlan = true) (hm : dg.size ≤ s.mtu dg.port.val)
    (hr : s.hasRole dg.port.val .witness = true) (hp : dg.udpPort.toNat = s.fld Reg.eraWitnessPortPort)
    (hg : (s.countWrap (Reg.chmXRxFramesRxFrames dg.port.val)).witnessGood kind bs = true) (k : State → State) :
    s.receiveWitness dg kind bs k = k ((s.countWrap (Reg.chmXRxFramesRxFrames dg.port.val)).witnessSeen bs) := by
  have htakes : (s.vlanTakes dg.port.val dg.vlan && decide (dg.size ≤ s.mtu dg.port.val) && s.hasRole dg.port.val .witness &&
      decide (dg.udpPort.toNat = s.fld Reg.eraWitnessPortPort)) = true := by simp [hv, hm, hr, hp]
  exact (if_pos hup).trans ((if_pos htakes).trans (if_pos hg))

/-- An answer of a unit that holds no claim is only a sign of life (R357). -/
theorem State.witnessAlive_follower {bs : List Byte} (h : ¬5 ≤ witnessRole bs) (s : State) :
    s.witnessAlive bs = ({ s with erair := { s.erair with witResult := 2 } } : State).confirm := by
  simp only [State.witnessAlive, if_neg h]

/-- An answer of a claimant is also evidence of its claim (R346). -/
theorem State.witnessAlive_claimant {bs : List Byte} (h : 5 ≤ witnessRole bs) (s : State) : s.witnessAlive bs =
    ({ s.evidence with erair := { s.evidence.erair with witResult := 2 } } : State).confirm := by
  simp only [State.witnessAlive, if_pos h]

/-- Settles O46: the unit's role, the state of the line, or the datagram taken selects the branch that carries the command out. -/
theorem partnerEvidenceCommandsComplete : Obligations.PartnerEvidenceCommandsComplete := by
  unfold Obligations.PartnerEvidenceCommandsComplete
  exact ⟨fun s hr hx hd => if_pos (by simp [State.aliveDue, hr, hx, hd]),
    fun s intervalUs hen hc he => execPartnerAliveEdge_follower hen hc he, fun s hen => if_neg (by simp [hen]),
    fun s hdown hw hr => if_pos (by rcases hr with hr | hr <;> simp [hdown, hw, hr]),
    fun s dg bs hup hv hm hr hp hg => congrArg Host.Outcome.next (State.receiveWitness_good hup hv hm hr hp hg _),
    fun s dg bs hup hv hm hr hp hg hf => congrArg Host.Outcome.next
      ((State.receiveWitness_good hup hv hm hr hp hg _).trans (State.witnessAlive_follower hf _)),
    fun s dg bs hup hv hm hr hp hg hc => congrArg Host.Outcome.next
      ((State.receiveWitness_good hup hv hm hr hp hg _).trans (State.witnessAlive_claimant hc _)),
    fun s dg bs hup hv hm hr hp hg => congrArg Host.Outcome.next (State.receiveWitness_good hup hv hm hr hp hg id),
    fun s hc hw hn ha => if_pos (by simp [hc, hw, hn, ha]), fun s hc hn => if_pos (by simp [hc, hn])⟩

end Sys2Proof.Machine

namespace Sys2Proof.Machine

/-! Turnspit's registers (R370, R371, R375, R378) -/

section
variable {s : State} {r : Requester} (hon : s.turnspitOn = true)
include hon

/-- A write of the open page reaches Turnspit while it runs. -/
theorem State.tspWrite_on (hw : s.mayWrite r 0x018 = true) (off : Nat) (k : State → State) : s.tspWrite r off k = k s :=
  (State.writeAs_mayWrite hw off _).trans (if_pos hon)

/-- A read of the open page is answered by Turnspit while it runs. -/
theorem State.tspRead_on (hr : s.mayRead r 0x018 = true) (off : Nat) (k : State → W32 × State) :
    s.tspRead r off k = (k s).2.readAnswer r (k s).1 := by
  rw [State.tspRead, State.readAs_mayRead hr, if_pos hon]

end

/-! PTP event messages (R249, R250, R379) -/

theorem State.fld_countWrap_other (s : State) {f g : Fld} (h : g.key ≠ f.key) : (s.countWrap f).fld g = s.fld g :=
  State.fld_setFld_other s _ h

theorem State.bit_countWrap_other (s : State) {f g : Fld} (h : g.key ≠ f.key) : (s.countWrap f).bit g = s.bit g :=
  congrArg (fun v => decide (v ≠ 0)) (s.fld_countWrap_other h)

/-! Counting a received frame touches one register word: what decides about the message reads the same before and after. -/

section
variable (s : State) (x : Nat)

@[simp] theorem State.bit_chmXControlPtp_countWrap_rxFrames :
    (s.countWrap (Reg.chmXRxFramesRxFrames x)).bit (Reg.chmXControlPtp x) = s.bit (Reg.chmXControlPtp x) :=
  s.bit_countWrap_other (by simp only [Fld.key, Reg.chmXControlPtp, Reg.chmXRxFramesRxFrames]; omega)

@[simp] theorem State.turnspitOn_countWrap_rxFrames : (s.countWrap (Reg.chmXRxFramesRxFrames x)).turnspitOn = s.turnspitOn := by
  have hfit : Reg.hobStatusTurnspit.key ≠ (Reg.chmXRxFramesRxFrames x).key := by
    simp only [Fld.key, Reg.hobStatusTurnspit, Reg.chmXRxFramesRxFrames]; omega
  have hpower : (Reg.pwrPdControlState 19).key ≠ (Reg.chmXRxFramesRxFrames x).key := by
    simp only [Fld.key, Reg.pwrPdControlState, Reg.chmXRxFramesRxFrames]; omega
  simp only [State.turnspitOn, State.domainOn, s.bit_countWrap_other hfit, s.fld_countWrap_other hpower]

@[simp] theorem State.vlanTakes_countWrap_rxFrames (tag : Option (BitVec 12)) :
    (s.countWrap (Reg.chmXRxFramesRxFrames x)).vlanTakes x tag = s.vlanTakes x tag := by
  have hvalid (v : Nat) : (Reg.chmXVlanValid x v).key ≠ (Reg.chmXRxFramesRxFrames x).key := by
    simp only [Fld.key, Reg.chmXVlanValid, Reg.chmXRxFramesRxFrames]; omega
  have hvid (v : Nat) (hv : v < 8) : (Reg.chmXVlanVid x v).key ≠ (Reg.chmXRxFramesRxFrames x).key := by
    simp only [Fld.key, Reg.chmXVlanVid, Reg.chmXRxFramesRxFrames]; omega
  cases tag with
  | none => simp only [State.vlanTakes, s.bit_countWrap_other (hvalid _)]
  | some t =>
    rw [Bool.eq_iff_iff]
    simp only [State.vlanTakes, List.any_eq_true]
    refine exists_congr fun v => and_congr_right fun hv => ?_
    rw [s.bit_countWrap_other (hvalid v), s.fld_countWrap_other (hvid v (List.mem_range.mp hv))]

end

section
variable {s : State} {x : Fin 40} {m : PtpMessage} (hup : s.chmPortUp x.val = true)
include hup

/-- A received message at a port that is up is counted, then stamped or dropped as the port's role, Turnspit and the message's VLAN
say (R249, R250). -/
theorem execPtpEventMessage_received (hm : m.sent = false) : execPtpEventMessage x m s = .next
    (if s.bit (Reg.chmXControlPtp x.val) && s.turnspitOn && s.vlanTakes x.val m.vlan
      then (s.countWrap (Reg.chmXRxFramesRxFrames x.val)).ptpStamp x.val m
      else (s.countWrap (Reg.chmXRxFramesRxFrames x.val)).rxDrop x.val) := by
  simp [execPtpEventMessage, hup, hm]

/-- A message that the stack sends leaves by a port that is up (R379). -/
theorem execPtpEventMessage_sent (hm : m.sent = true) : execPtpEventMessage x m s = .next (s.ptpSend x.val m) := by
  simp [execPtpEventMessage, hup, hm]

end

/-- Settles O47: Turnspit runs, and the open page, the domain's state, or the port that the message uses selects the branch that
carries the command out (that a message which its VLAN bars counts in RX_DROPS is log 68). -/
theorem turnspitCommandsComplete : Obligations.TurnspitCommandsComplete := by
  unfold Obligations.TurnspitCommandsComplete
  refine ⟨fun s port hon => congrArg Host.Outcome.next (if_pos hon),
    fun s r d hi hw hon hc => congrArg Host.Outcome.next ((State.tspWrite_on hon hw _ _).trans (if_pos hc)),
    fun s r d hi hw hon => congrArg Host.Outcome.next (State.tspWrite_on hon hw _ _),
    fun s r v hw hon => congrArg Host.Outcome.next (State.tspWrite_on hon hw _ _),
    fun s d hon hc ht => congrArg Host.Outcome.next (if_pos ⟨hon, hc, ht⟩),
    fun s hon ho => congrArg Host.Outcome.next (if_pos ⟨hon, ho⟩),
    fun s r hr hon => congrArg Host.Outcome.next (State.tspRead_on hon hr _ _),
    fun s r d hr hon => congrArg Host.Outcome.next (State.tspRead_on hon hr _ _),
    fun s x m hup hm hp hon hv => ?received, fun s x m hup hm hp hon hv => ?sent, fun s x m hup hm hv => ?barred⟩
  case received =>
    exact (execPtpEventMessage_received hup hm).trans (congrArg Host.Outcome.next (if_pos (by simp [hp, hon, hv])))
  case sent => exact (execPtpEventMessage_sent hup hm).trans (congrArg Host.Outcome.next (if_pos (by simp [hp, hon, hv])))
  case barred => exact (execPtpEventMessage_received hup hm).trans (congrArg Host.Outcome.next (if_neg (by simp [hv])))

end Sys2Proof.Machine

namespace Sys2Proof.Machine

/-! The invariants of a run: the canonical flash and the fuses (R398, R498, R500) -/

/-- A step, a tick or a command, leaves what `Kept` says, but that a command leaves the queue. -/
theorem step_kept {s t : State} (h : step s = .next t) :
    Fuses.Later s.fuses t.fuses ∧ (s.memOk = true → t.memOk = true) := by
  unfold step at h
  split at h
  case h_1 =>
    obtain rfl := Host.Outcome.next.inj h
    have hk := Kept.State_tick (Kept.refl s)
    exact ⟨hk.fuses, hk.flash⟩
  case h_2 c rest hp =>
    have hk := exec_keptR c { s with pending := rest } t h
    exact ⟨hk.fuses, hk.flash⟩

/-- Settles O5: a tick and every command keep the canonical form. -/
theorem flashStaysCanonical : Obligations.FlashStaysCanonical := by
  unfold Obligations.FlashStaysCanonical
  intro s t hs h
  obtain ⟨-, hflash⟩ := step_kept h
  exact hflash hs

/-- Settles O6: a step leaves later fuses, and later than these is later than what they are later than. -/
theorem fusesAreNeverTakenBack : Obligations.FusesAreNeverTakenBack := by
  unfold Obligations.FusesAreNeverTakenBack
  intro f s t hf h
  obtain ⟨hfuses, -⟩ := step_kept h
  exact hf.trans hfuses

/-- Settles O4: an erased flash lists no byte, and fuses are not earlier than themselves. -/
theorem resetMeetsTheInvariants : Obligations.ResetMeetsTheInvariants := by
  unfold Obligations.ResetMeetsTheInvariants
  exact ⟨rfl, Fuses.Later.refl _⟩

end Sys2Proof.Machine

namespace Sys2Proof.Machine

/-! Grate (R386, R387, R392 to R394) -/

/-- An output that is on turns off in protection: its fault stands, a retry is over, and the event is captured (R392). -/
theorem State.grateProtect_on {s : State} {n : Nat} (hon : s.fldBit Reg.grtOutStateOutState n = true) (i : Nat) (f : Fld) :
    s.grateProtect n i f = ((((s.setChannel n { s.channel n with retry := false }).setFldBit Reg.grtFaultFault n true).setFldBit
      Reg.grtOutStateOutState n false).grtCapture n (i + 1)).raise f := if_pos hon

/-- A voltage of supply A is recorded; where it changes the supply's state, that is captured and every switch follows (R393). -/
theorem execGrateSupplyChange_a {s : State} (hf : s.fit.grate = true) (mv : Nat) {u : State} {new : Nat}
    (hu : s.setFld Reg.grtSupplyAMvMv (min mv 65535) = u) (hn : supplyState (s.fld Reg.grtStatusSupplyA) mv = new) :
    execGrateSupplyChange 0 mv s = if new = s.fld Reg.grtStatusSupplyA then .next u
      else .next ((((u.setFld Reg.grtStatusSupplyA new).grtCapture 0 1).raise Reg.grtEventSupplyA).grateUpdate) := by
  subst hu hn
  exact if_neg (by simp [hf])

/-- Settles O48: the open page, the state of the output, or the supply's voltage selects the branch that carries the command out (the
channel that a supply's event captures is log 134). -/
theorem grateCommandsComplete : Obligations.GrateCommandsComplete := by
  unfold Obligations.GrateCommandsComplete
  refine ⟨fun s r n v hw ho hp hd hg => congrArg Host.Outcome.next ((State.writeAs_mayWrite hw _ _).trans ?config),
    fun s r v hw hl hg => congrArg Host.Outcome.next ((State.writeAs_mayWrite hw _ _).trans ?pair),
    fun s n on hf hu he hm => if_pos ?inService, fun s n hon => congrArg Host.Outcome.next (State.grateProtect_on hon _ _),
    fun s n hon => congrArg Host.Outcome.next (State.grateProtect_on hon _ _), fun s n hf hc => if_pos (by simp [hf, hc]),
    fun s n hr hon => if_pos (by simp [hr, hon]),
    fun s mv hf hn => (execGrateSupplyChange_a hf mv rfl rfl).trans (if_neg hn),
    fun s mv hf hn => (execGrateSupplyChange_a hf mv rfl rfl).trans (if_pos hn)⟩
  case config => exact (if_neg (by simp [ho, hp])).trans ((if_neg (by simp [hd])).trans (if_pos hg))
  case pair => exact (if_neg (by simp [hl])).trans (if_pos hg)
  case inService => simp [hf, hu, he, hm]

end Sys2Proof.Machine

namespace Sys2Proof.Machine

/-! Mantel commands (R401 to R408, R412, R413) -/

/-- A command that finds none in progress is carried out, for the world that issues it (R402, log 35). -/
theorem State.mntCommand_free {s : State} {r : Requester} (hw : s.mayWrite r 0x005 = true) (ho : s.mantel.op = none)
    (k : Bool → State → State) : s.mntCommand r k = k (decide (r = .tenderSecure)) s :=
  (State.writeAs_mayWrite hw _ _).trans (if_neg (by simp [ho]))

/-- The secure world stages, commits and erases in the partitions that take it (R401). -/
theorem State.stagePart_staged {s : State} {n p : Nat} {part : Partition}
    (hp : partitionOf (s.fld Reg.mntAddrAddr) n = some (p, part)) (hs : part.staged = true) (k : Nat → State → State) :
    s.stagePart true n k = k p s := by
  simp only [State.stagePart, hp, hs, Bool.and_self, if_true]

/-- Bytes of one block, staged into an empty buffer, open that block (R405). -/
theorem State.stageOp_empty {s : State} {p : Nat} {part : Partition} {o : MantelOp} (ho : s.mantelCommand 2 true 0 = o)
    (hl : o.len ≠ 0) (hp : partitionOf (s.fld Reg.mntAddrAddr) o.len = some (p, part)) (hs : part.staged = true)
    (hb : s.bufOk true o.buf o.addr o.len = true) (he : (s.commitBuf p).bytes = [])
    (h1 : (o.addr + o.len - 1) / 0x10000 = o.addr / 0x10000) : s.stageOp true =
      (s.setCommitBuf p ⟨o.addr / 0x10000, stageBytes [] o.addr (s.getBytes o.buf o.addr o.len)⟩).mntEnd 0 := by
  subst ho
  rw [State.stageOp, if_neg hl, State.stagePart_staged hp hs]
  simp [hb, he, h1]

/-- A READ of bytes that the issuer may read, of a bank without an operation, is carried out at once (R404, R407). -/
theorem State.mantelReadOp_idle {s : State} {found p : Nat} {part : Partition} {o : MantelOp}
    (ho : s.mantelCommand 1 true found = o) (h0 : o.len ≠ 0) (hl : o.len ≤ 4096) (hp : partitionOf o.addr o.len = some (p, part))
    (hb : s.bufOk true o.buf o.addr o.len = true) (hi : s.bankBusy (bankOf o.addr) = false) :
    s.mantelReadOp true found = s.readNow o p := by
  subst ho
  have hlen : ¬((s.mantelCommand 1 true found).len = 0 ∨ 4096 < (s.mantelCommand 1 true found).len) := by omega
  simp only [State.mantelReadOp, if_neg hlen, hp]
  simp [hb, hi]

/-- Settles O49: the free command interface, the partition and its buffer, or what a bank has hold of selects the branch that carries
the command out (the checks of a command and the order of its ends are logs 35 and 36). -/
theorem mantelAndAshpitCommandsComplete : Obligations.MantelAndAshpitCommandsComplete := by
  unfold Obligations.MantelAndAshpitCommandsComplete
  refine ⟨fun s found p part hw ho h0 hl hp hb hi => congrArg Host.Outcome.next ((State.mntCommand_free hw ho _).trans ?read),
    fun s p part hw ho h0 hp hs hb he h1 => congrArg Host.Outcome.next ((State.mntCommand_free hw ho _).trans ?stage),
    fun s p part hw ho hp hs he hg => congrArg Host.Outcome.next ((State.mntCommand_free hw ho _).trans ?commit),
    fun s p part hw ho hp hs he => congrArg Host.Outcome.next ((State.mntCommand_free hw ho _).trans ?commitErase),
    fun s p part hw ho hp hs => congrArg Host.Outcome.next ((State.mntCommand_free hw ho _).trans ?erase),
    fun s p part hw ho hp hs => congrArg Host.Outcome.next ((State.mntCommand_free hw ho _).trans ?discard),
    fun s hw ho h8 hl hm hb => congrArg Host.Outcome.next ((State.mntCommand_free hw ho _).trans ?paramAppend),
    fun s hw ho hv hf => congrArg Host.Outcome.next ((State.mntCommand_free hw ho _).trans ?retainCommit),
    fun s o ho => congrArg Host.Outcome.next ?opDone, fun s o rest ho hd => congrArg Host.Outcome.next ?devDone,
    fun s block hm hn => congrArg Host.Outcome.next ((if_pos hm).trans ?erased),
    fun s block hm hl => congrArg Host.Outcome.next ((if_pos hm).trans ?logErased),
    fun s c hc => congrArg Host.Outcome.next ?privDone,
    fun s r hw h0 => congrArg Host.Outcome.next ((State.writeAs_mayWrite hw _ _).trans (if_neg h0)),
    fun s r hw h0 => congrArg Host.Outcome.next ((State.writeAs_mayWrite hw _ _).trans (if_pos h0)),
    fun s hh => congrArg Host.Outcome.next (if_pos hh),
    fun s hw => congrArg Host.Outcome.next (State.writeSecure_mayWrite hw _ _), fun s hc => congrArg Host.Outcome.next (if_pos hc)⟩
  case read => exact State.mantelReadOp_idle rfl h0 hl hp hb hi
  case stage => exact State.stageOp_empty (o := s.mantelCommand 2 true 0) rfl h0 hp hs hb he h1
  case commit =>
    exact (State.stagePart_staged hp hs _).trans ((if_neg (by simp [he])).trans (if_pos hg))
  case commitErase => exact (State.stagePart_staged hp hs _).trans (if_neg (by simp [he]))
  case erase => exact State.stagePart_staged hp hs _
  case discard => exact State.stagePart_staged hp hs _
  case paramAppend =>
    have hlen : ¬(s.fld Reg.mntLenLen < 8 ∨ 4080 < s.fld Reg.mntLenLen ∨ s.fld Reg.mntLenLen % 8 ≠ 0) := by omega
    exact (if_neg hlen).trans ((if_neg (by simp)).trans (if_neg (ne_true_of_eq_false (congrArg not hb))))
  case retainCommit => exact (if_neg (by simp [hv])).trans (if_neg (by simp [hf]))
  case opDone => simp only [ho, State.endOp]
  case devDone => simp only [ho, hd, State.endDev]
  case erased => exact congrArg (fun t => State.readHeld (State.mantelStart t)) (if_neg (by simp [hn]))
  case logErased => exact congrArg (fun t => State.readHeld (State.mantelStart t)) (if_pos hl)
  case privDone => simp only [hc, State.endPriv]

end Sys2Proof.Machine

namespace Sys2Proof.Machine

/-! Mode commands (R427 to R429, R442 to R444, R468) -/

/-- A command of PWR_COMMAND in a mode that allows it, outside a transition and with no engine halted where R468 asks it, is carried
out (R428). -/
theorem State.pwrCommand_allowed {s : State} {r : Requester} {op : Nat} {modes : List Nat} (hw : s.mayWrite r 0x001 = true)
    (ht : s.bit Reg.pwrStatusTransition = false) (hm : s.mode ∈ modes) (hh : s.engineHalted = false ∨ op < 2 ∨ 5 < op)
    (k : State → State) : s.pwrCommand r op modes k = k s := by
  refine (State.writeAs_mayWrite hw _ _).trans ((if_neg (by simp [ht])).trans ((if_neg (by simp [hm])).trans (if_neg ?_)))
  rcases hh with hh | hh
  · simp [hh]
  · simp only [Bool.and_eq_true, decide_eq_true_eq]
    omega

theorem State.message_started (s : State) (v : Nat) : (s.message v).started = s.started := by
  unfold State.message
  split <;> rfl

theorem State.raise_started (s : State) (f : Fld) : (s.raise f).started = s.started := by
  unfold State.raise State.raiseBit State.becamePending
  split
  · split
    · exact State.message_started _ _
    · rfl
  · rfl

theorem State.setFields_started (s : State) (fs : List (Fld × Nat)) : (s.setFields fs).started = s.started :=
  foldl_keeps State.started (fun (t : State) (p : Fld × Nat) => t.setFld p.1 p.2) (fun _ _ => rfl) fs s

/-- A shortfall is noted in registers and an event, whether or not the program has started (R44, R220). -/
theorem State.noteShort_started (s : State) (short : List Bool) : (s.noteShort short).started = s.started := by
  unfold State.noteShort
  split
  · exact (State.raise_started _ _).trans (State.setFields_started _ _)
  · exact State.setFields_started _ _

section
variable {s : State} {r : Requester} {p : Program} (hp : s.bellows.active = some p) (hn : (s.shortfallOf p).any id = false)
include hp hn

/-- A program that was started runs on (R427). -/
theorem State.run_started (hs : s.started = true) : s.run r = (s.noteShort (s.shortfallOf p)).leaveHeld := by
  simp [State.run, hp, hn, State.noteShort_started, hs]

/-- A program that was not started yet starts, in the way that RESTART allows (R435). -/
theorem State.run_fresh (hs : s.started = false) {t : State} (ht : (s.noteShort (s.shortfallOf p)).startProgram = some t) :
    s.run r = t.leaveHeld := by
  simp [State.run, hp, hn, State.noteShort_started, hs, ht]

end

/-- Raking's Sweep ends once no retain commit of the device is left (R429). -/
theorem execRakeEnd_swept {s : State} {k : Raking} (hk : s.raking = some k) (hp : k.phase = 3) (hd : s.mantel.dev = [])
    (f : SweepFind) : execRakeEnd f s = .next (s.rakeDone k f) := by
  simp [execRakeEnd, hk, hp, hd]

/-- Settles O50: the open page and the mode let each command act, and the running cycles, the program or the stage selects the branch
that carries it out (that HOLD waits in TRANSITION and RAKE enters Raking at once is log 124). -/
theorem modeCommandsComplete : Obligations.ModeCommandsComplete := by
  unfold Obligations.ModeCommandsComplete
  refine ⟨fun s r hw ht hm hf => congrArg Host.Outcome.next
      ((State.pwrCommand_allowed hw ht ?hold (.inr (by omega)) _).trans (if_pos hf)),
    fun s r hw ht hm hf => congrArg Host.Outcome.next
      ((State.pwrCommand_allowed hw ht ?holdLater (.inr (by omega)) _).trans (if_neg (ne_true_of_eq_false hf))),
    fun s r p hw ht hm hh hp hn hs => congrArg Host.Outcome.next
      ((State.pwrCommand_allowed hw ht ?runsOn (.inl hh) _).trans (State.run_started hp hn hs)),
    fun s r p t hw ht hm hh hp hn hs hst => congrArg Host.Outcome.next
      ((State.pwrCommand_allowed hw ht ?starts (.inl hh) _).trans (State.run_fresh hp hn hs hst)),
    fun s r hw ht h1 h7 => congrArg Host.Outcome.next (State.pwrCommand_allowed hw ht ?reset (.inr (by omega)) _),
    fun s r hw ht hm hh => congrArg Host.Outcome.next (State.pwrCommand_allowed hw ht ?bank (.inl hh) _),
    fun s r hw ht hm hst => congrArg Host.Outcome.next
      ((State.pwrCommand_allowed hw ht ?wake (.inr (by omega)) _).trans (if_pos hst)),
    fun s r hw ht hm hh => congrArg Host.Outcome.next (State.pwrCommand_allowed hw ht ?rake (.inl hh) _),
    fun s r hw ht hm hh => congrArg Host.Outcome.next (State.pwrCommand_allowed hw ht ?rakeOff (.inl hh) _),
    fun s hm hst hd => congrArg Host.Outcome.next (if_pos ⟨hm, hst, hd⟩),
    fun s f k hk hp hd => execRakeEnd_swept hk hp hd f, fun s f hk => congrArg Host.Outcome.next (if_pos hk),
    fun s hm hk => congrArg Host.Outcome.next (if_pos ⟨hm, hk⟩)⟩
  case reset =>
    simp only [List.mem_cons, List.not_mem_nil, or_false]
    omega
  case bank => simp [hm.symm, modeStandby, modeHeld]
  all_goals simp [hm, modePrimary, modeStandby, modeBanked, modeHeld]

/-! Power domains (R430 to R432, R495) -/

section
variable {s : State} {n v : Nat}

/-- A domain that a request names is turned on at any time (R431). -/
theorem State.pdRequest_on (r : Requester) (hv : v = 0) (hn : n < 22) : s.pdRequest r n v = s.pdOn n := by
  have hin : ¬22 ≤ n := by omega
  simp [State.pdRequest, hv, hin]

/-- The secure world gates or cuts a domain whose contents are not in use and that the mode does not keep (R430, R431). -/
theorem State.pdRequest_off (hv : v = 1 ∨ v = 2) (hn : n < 22) (hb : s.domainBusy n = false) (hm : s.domainMode n = false) :
    s.pdRequest .tenderSecure n v = s.pdOff n v := by
  have hin : ¬22 ≤ n := by omega
  rcases hv with rfl | rfl <;> simp [State.pdRequest, hin, hb, hm]

/-- A switching that ends brings up a domain that is requested on (R432). -/
theorem State.pdSwitched_on (h : s.fld (Reg.pwrPdControlReq n) = 0) : s.pdSwitched n = s.domainUp n := by
  simp only [State.pdSwitched, h]

/-- A switching that ends cuts a domain that is requested off (R432). -/
theorem State.pdSwitched_cut (h : s.fld (Reg.pwrPdControlReq n) = 2) : s.pdSwitched n = s.cutDomain n := by
  simp only [State.pdSwitched, h]

end

/-- Settles O51: the request's code, or the state that was asked for, selects the branch, and SEC_OWNER is the secure world's. -/
theorem powerDomainCommandsComplete : Obligations.PowerDomainCommandsComplete := by
  unfold Obligations.PowerDomainCommandsComplete
  refine ⟨fun s n v hw hv hn => congrArg Host.Outcome.next ((State.writeAs_mayWrite hw _ _).trans ?on),
    fun s n v hw hv hn hb hm => congrArg Host.Outcome.next ((State.writeAs_mayWrite hw _ _).trans ?off),
    fun s n own hw => congrArg Host.Outcome.next (State.writeAs_mayWrite hw _ _),
    fun s n hs hr => congrArg Host.Outcome.next ((if_pos hs).trans (State.pdSwitched_on hr)),
    fun s n hs hr => congrArg Host.Outcome.next ((if_pos hs).trans (State.pdSwitched_cut hr))⟩
  case on =>
    rw [State.pdRequest_on _ hv hn]
    rfl
  case off =>
    rw [State.pdRequest_off hv hn hb hm]
    rfl

/-! Supplies, clocks, pins and power-fail (R415, R427, R438 to R441, R444, R457, R459, R502, R524, R525) -/

/-- The unit enters Kindling as its supply becomes valid, unless RESET_N holds it (R427, R524). -/
theorem execMainSupplyValid_released {s : State} (hv : s.pins.mainValid = false) (hr : s.pins.resetN = true) :
    execMainSupplyValid s = .next
      (({ s with pins := { s.pins with mainValid := true }, ember := { s.ember with onVbak := false } } : State).setFld
        Reg.pwrStatusMode 1) := by
  simp [execMainSupplyValid, hv, hr]

/-- RESET_N resets a unit that has its supply (R427, R525). -/
theorem execResetPin_supplied {s t : State} (hm : s.mode ≠ 0) (ht : s.resetUnit Reg.pwrResetCauseResetN = t) :
    execResetPin s = .next { t with pins := { t.pins with resetN := false } } := by
  have hreset : (if s.mode = modeEmber then s else s.resetUnit Reg.pwrResetCauseResetN) = t := (if_neg hm).trans ht
  simp only [execResetPin, hreset]

/-- A power-fail while none is under way starts its steps (R415, R438). -/
theorem State.powerFail_first {s : State} {source : Nat} (h : ((s.setFld Reg.pwrStatusPf 1).raise Reg.pwrEventPowerFail).mantel.pf = 0) :
    s.powerFail source = ((s.setFld Reg.pwrStatusPf 1).raise Reg.pwrEventPowerFail).startPf source := if_pos h

/-- Settles O52: the pins, the mode or the power-fail sequence selects the branch that carries the event out. -/
theorem supplyResetAndWakeEventsComplete : Obligations.SupplyResetAndWakeEventsComplete := by
  unfold Obligations.SupplyResetAndWakeEventsComplete
  refine ⟨fun s hv => congrArg Host.Outcome.next (if_pos hv), fun s hv hr => execMainSupplyValid_released hv hr,
    fun s hm => execResetPin_supplied hm rfl, fun s hm hc => congrArg Host.Outcome.next (if_neg ?clocked),
    fun s hc => congrArg Host.Outcome.next (if_neg (ne_true_of_eq_false hc)), fun s he => congrArg Host.Outcome.next (if_pos he),
    fun s hw => congrArg Host.Outcome.next (if_neg (ne_true_of_eq_false hw)),
    fun s hp => congrArg Host.Outcome.next (if_neg (ne_true_of_eq_false hp)),
    fun s hu hp => congrArg Host.Outcome.next ((if_neg ?up).trans (State.powerFail_first hp)),
    fun s hu => congrArg Host.Outcome.next (if_neg ?upPin), fun s hp => congrArg Host.Outcome.next (if_pos hp),
    fun s hp hc => congrArg Host.Outcome.next (if_pos ⟨hp, hc⟩)⟩
  case clocked => simp [hm, hc, modeEmber]
  case up => simp [hu]
  case upPin => simp [hu]

/-! Ember (R445, R447 to R449) -/

/-- A write of an Ember register acts while the interface is not locked out (R445). -/
theorem State.embWrite_unlocked {s : State} {r : Requester} (hw : s.mayWrite r 0x003 = true) (hl : s.ember.locked = false)
    (off : Nat) (k : State → State) : s.embWrite r off k = k s :=
  (State.writeAs_mayWrite hw _ _).trans (if_neg (ne_true_of_eq_false hl))

/-- Settles O53: the unlocked interface, the halted counter or the supply selects the branch that carries the command out. -/
theorem emberCommandsComplete : Obligations.EmberCommandsComplete := by
  unfold Obligations.EmberCommandsComplete
  exact ⟨fun s r v hw hl => congrArg Host.Outcome.next (State.embWrite_unlocked hw hl _ _),
    fun s r hi hw hl hh => congrArg Host.Outcome.next ((State.embWrite_unlocked hw hl _ _).trans (if_pos hh)),
    fun s r hi hw hl => congrArg Host.Outcome.next (State.embWrite_unlocked hw hl _ _),
    fun s hm => congrArg Host.Outcome.next (if_pos hm), fun _ => rfl,
    fun s hv => congrArg Host.Outcome.next (if_neg (ne_true_of_eq_false hv)), fun s mv hv => congrArg Host.Outcome.next (if_pos hv),
    fun s hv => congrArg Host.Outcome.next (if_pos hv)⟩

end Sys2Proof.Machine

namespace Sys2Proof.Machine

/-! Fireguard and Sweep (R454 to R457, R460, R461) -/

/-- A service of the system guard while it is on and has not expired is judged against WMAX first (R455). -/
theorem State.fgdService_on {s : State} (hon : s.bit Reg.fgdStatusSysOn = true) (hx : s.bit Reg.fgdStatusExpired = false) (v : Nat) :
    s.fgdService v =
      if s.guardReached .system = true then s.guardExpires 1 false
      else if v = 0xC3A5 ∧ s.fld Reg.fgdSysConfigWmin * 100000 ≤ s.fireguard.elapsed then
        { s with fireguard := { s.fireguard with elapsed := 0 } }
      else s.guardExpires 1 true := if_neg (by simp [hon, hx])

theorem State.guardReached_system (s : State) :
    s.guardReached .system = decide (s.fld Reg.fgdSysConfigWmax * 100000 ≤ s.fireguard.elapsed) := rfl

/-- A class guard's time runs from where its interval began (R456). -/
theorem State.guardReached_cls {s : State} {k : Fin 3} {m : Nat × Bool} (hm : s.fireguard.since.getD k.val none = some m) :
    s.guardReached (.cls k) = decide (s.guardLimit k.val ≤ s.bellows.ns - m.1) := by
  simp only [State.guardReached, hm]

/-- A request for a test that nothing bars is accepted (R460). -/
theorem State.swpRequest_accepted {s : State} {v kind i : Nat} (hk : bitsOf v 0 4 = kind) (hi : bitsOf v 4 8 = i)
    (hs : bitOf v 12 = true) (hc : s.fld (Reg.rlnVerState 6) = 1) (hn : s.sweepTest = none) (ht : i < sweepTargets kind)
    (ho : s.outOfService kind i = true) : s.swpRequest v =
      ({ s with sweepTest := some (kind, i) }.flueSend nodeSweep .vc3 .dispatch (sweepNode kind i) []).setFields
        [(Reg.swpStatusBusy, 1), (Reg.swpResultDone, 0), (Reg.swpResultPass, 0), (Reg.swpResultAborted, 0),
          (Reg.swpResultKind, kind), (Reg.swpResultIndex, i)] := by
  subst hk hi
  have hin : ¬sweepTargets (bitsOf v 0 4) ≤ bitsOf v 4 8 := by omega
  simp [State.swpRequest, hs, hc, hn, hin, ho]

/-- What the end of a requested test leaves in the registers: the verdict, the signature and the events (R461). -/
def State.testEnded (s : State) (pass : Bool) (signature : W32) : State :=
  let t := ({ s with sweepTest := none }.setFields [(Reg.swpStatusBusy, 0), (Reg.swpResultDone, 1),
    (Reg.swpResultPass, bit01 pass), (Reg.swpSignatureSignature, signature.toNat)]).raise Reg.swpEventDone
  if pass = true then t else t.raise Reg.swpEventFail

/-- A test ends with its verdict, and an engine tested also loses its local store (R461). -/
theorem execSweepTestDone_running {s : State} {kind i : Nat} (ht : s.sweepTest = some (kind, i)) (pass : Bool) (signature : W32) :
    execSweepTestDone pass signature s = .next
      (if kind = 1 then (s.testEnded pass signature).engineTested i pass else s.testEnded pass signature) := by
  simp only [execSweepTestDone, State.testEnded, ht]

/-- Settles O54: the guard's state, the time elapsed, or the test's target selects the branch that carries the command out (the moment
of an expiry is log 152). -/
theorem guardAndSweepCommandsComplete : Obligations.GuardAndSweepCommandsComplete := by
  unfold Obligations.GuardAndSweepCommandsComplete
  refine ⟨fun s r v hw hf h0 hlt => congrArg Host.Outcome.next ((State.writeAs_mayWrite hw _ _).trans
      ((if_neg (ne_true_of_eq_false hf)).trans (if_neg ?window))),
    fun s r k v hw hf h2 => congrArg Host.Outcome.next ((State.writeAs_mayWrite hw _ _).trans
      ((if_neg (ne_true_of_eq_false hf)).trans (if_neg (Nat.not_lt.mpr h2)))),
    fun s r v hw hon hx hv hmin hmax => congrArg Host.Outcome.next ((State.writeAs_mayWrite hw _ _).trans
      ((State.fgdService_on hon hx _).trans ((if_neg ?early).trans (if_pos ⟨hv, hmin⟩)))),
    fun s hc hr => congrArg Host.Outcome.next (if_pos ?systemLate),
    fun s r v hw hon hx hr => congrArg Host.Outcome.next ((State.writeAs_mayWrite hw _ _).trans
      ((State.fgdService_on hon hx _).trans (if_pos (decide_eq_true hr)))),
    fun s k m hc hm hr => congrArg Host.Outcome.next (if_pos ?classLate),
    fun s r v hw hs hc hn ht ho => congrArg Host.Outcome.next ((State.writeAs_mayWrite hw _ _).trans
      (State.swpRequest_accepted rfl rfl hs hc hn ht ho)),
    fun s pass signature kind i ht hk => (execSweepTestDone_running ht _ _).trans (congrArg Host.Outcome.next (if_neg hk)),
    fun s pass signature i ht => execSweepTestDone_running ht _ _⟩
  case window => omega
  case early => simpa [State.guardReached_system] using hmax
  case systemLate => simp [hc, State.guardReached_system, hr]
  case classLate => simp [hc, State.guardReached_cls hm, hr]

end Sys2Proof.Machine

namespace Sys2Proof.Machine

/-! Poker (R465 to R472, R476) -/

section
variable {s : State} (h : s.mainUp = true ∧ s.bit Reg.pkrControlDisable = false ∧
  (s.bit Reg.pkrControlAuthAll = false ∨ s.poker.auth = true))
include h

/-- A register that the table names, and that may be read now, is read (R467). -/
theorem execPokerRead_named {n : BitVec 8} (hn : pokerReg n.toNat = true)
    (hr : snapReg n.toNat = true ∨ (s.at s.selected).halted = true) : execPokerRead n s = .next
      (if n.toNat = 0x23 then
        (s.mapCore s.selected fun x => { x with haltUnread := false }).answer .ok (s.coreReg s.selected 0x23)
      else if n.toNat = 0x41 then s.readData s.selected
      else s.answer .ok (if s.hidden = true then 0 else s.coreReg s.selected n.toNat)) := by
  have hread : ¬(!pokerReg n.toNat || !(snapReg n.toNat || (s.at s.selected).halted)) = true := by
    rcases hr with hr | hr <;> simp [hn, hr]
  exact congrArg Host.Outcome.next ((State.poker_open h _ _).trans (if_neg hread))

/-- A register of a halted core that is not read only is written, a breakpoint of an engine where Poker may halt it (R467, R468). -/
theorem execPokerWrite_named {n : BitVec 8} (hn : pokerReg n.toNat = true) (hs : snapReg n.toNat = false)
    (hh : (s.at s.selected).halted = true)
    (hb : breakReg n.toNat = false ∨ isEngine s.selected = false ∨ s.mayHalt s.selected = true) (w : W36) :
    execPokerWrite n w s = .next
      (if n.toNat = 0x41 then s.writeData s.selected w
      else if (s.hidden && decide (n.toNat < 0x22)) = true then s.answer .auth 0
      else (s.setCoreReg s.selected n.toNat w).answer .ok 0) := by
  have hbreak : ¬(breakReg n.toNat && isEngine s.selected && !s.mayHalt s.selected) = true := by
    rcases hb with hb | hb | hb <;> simp [hb]
  exact congrArg Host.Outcome.next ((State.poker_open h _ _).trans ((if_neg (by simp [hn, hs, hh])).trans (if_neg hbreak)))

/-- A core that Poker may halt, and that is not halted yet, is asked to halt (R468, R469). -/
theorem execPokerHalt_running (hm : isEngine s.selected = false ∨ s.mayHalt s.selected = true)
    (hh : (s.at s.selected).halted = false) : execPokerHalt s =
      .next ((s.mapCore s.selected fun x => { x with haltReq := true, haltCause := 0 }).answer .ok 0) := by
  have hmay : ¬(isEngine s.selected && !s.mayHalt s.selected) = true := by
    rcases hm with hm | hm <;> simp [hm]
  exact congrArg Host.Outcome.next
    ((State.poker_open h _ _).trans ((if_neg hmay).trans (if_neg (ne_true_of_eq_false hh))))

/-- An instruction of one word is injected on a halted core once the core's pending loads have landed (R470). -/
theorem execPokerInject_landed {w : W36} {op : Op} (ho : wordOp w = some op) (hh : (s.at s.selected).halted = true)
    (hn : s.hidden = false) {u : State}
    (hl : s.land s.selected (s.at s.selected).loads.length (s.at s.selected).loads = (none, u)) :
    execPokerInject w s = .next (u.injectOp s.selected w op) := by
  rw [execPokerInject, State.poker_open h]
  simp only [ho, hh, hn, hl, Bool.not_true, Bool.false_eq_true, if_false]

/-- The snapshot of a sandbox that nothing bars is due (R472). -/
theorem execPokerSandbox_taken {e : Fin 144} (he : s.selected = .engine e)
    (hr : s.sandboxRefused e.val ((s.core e.val).dbgReg 0x44) ((s.core e.val).dbgReg 0x45) = false) :
    execPokerSandbox s = .next ({ s with poker := { s.poker with
      sandbox := some (e.val, (s.core e.val).dbgReg 0x44, (s.core e.val).dbgReg 0x45), snapDue := true } }.answer .ok 0) := by
  rw [execPokerSandbox, State.poker_open h]
  simp only [he, hr, Bool.false_eq_true, if_false]

/-- The engine of a sandbox that ends is idle, and a spare again (R466). -/
theorem execPokerSandboxEnd_running {x : Nat × Nat × Nat} (hx : s.poker.sandbox = some x) {u : State}
    (hu : ((if s.engState x.1 = 5 then s.setEngState x.1 2 else s).idleEngine x.1).refreshHalted = u) :
    execPokerSandboxEnd s = .next
      (({ u with poker := { u.poker with sandbox := none, snapDue := false } }.setFld Reg.pkrStatusSandbox 0).answer .ok 0) := by
  subst hu
  rw [execPokerSandboxEnd, State.poker_open h]
  simp only [hx]
  rfl

end

section
variable {s : State} (h : s.mainUp = true ∧ s.bit Reg.pkrControlDisable = false)
include h

/-- A challenge goes on, or past its last word begins anew, while a debug key is set and no lockout lasts (R471, log 96). -/
theorem execPokerChallenge_served (hk : s.fuses.debugKey.isSome = true) (hl : s.poker.lockout = false) {u : State}
    (hu : (if s.poker.chalRead < s.poker.challenge.length then s else s.freshChallenge) = u) : execPokerChallenge s = .next
      ({ u with poker := { u.poker with chalRead := u.poker.chalRead + 1 } }.answer .ok
        (BitVec.ofNat 36 (u.poker.challenge.getD u.poker.chalRead 0).toNat)) := by
  subst hu
  have hn : s.fuses.debugKey.isNone = false := by simpa using hk
  rw [execPokerChallenge, State.poker_free h]
  simp [hn, hl]

/-- A word of the response to a challenge that was read whole joins the others, and the last one is judged (R471, log 96). -/
theorem execPokerResponse_challenged (hc : s.poker.challenge ≠ []) (h8 : 8 ≤ s.poker.chalRead) {w : W36} {sig : List W32}
    (hs : s.poker.response ++ [BitVec.ofNat 32 w.toNat] = sig) : execPokerResponse w s = .next
      (if sig.length < 24 then { s with poker := { s.poker with response := sig } }.answer .ok 0
      else (s.authEnd (s.responseOk sig)).answer .ok 0) := by
  subst hs
  have hread : ¬(s.poker.challenge = [] ∨ s.poker.chalRead < 8) := by simp [hc, h8]
  exact congrArg Host.Outcome.next ((State.poker_free h _).trans (if_neg hread))

end

/-- Settles O55: the request is served, and the register, the selected core or the challenge selects the branch that carries it out
(how a challenge is read and answered is log 96, and what is hidden without authentication log 97). -/
theorem pokerRequestsComplete : Obligations.PokerRequestsComplete := by
  unfold Obligations.PokerRequestsComplete
  refine ⟨fun s h => congrArg Host.Outcome.next (State.poker_open h _ _),
    fun s core h hs => congrArg Host.Outcome.next ((State.poker_open h _ _).trans (if_pos hs)),
    fun s n h hn hr h23 h41 => (execPokerRead_named h hn hr).trans
      (congrArg Host.Outcome.next ((if_neg h23).trans (if_neg h41))),
    fun s h => (execPokerRead_named h (by decide) (.inl (by decide))).trans (congrArg Host.Outcome.next (if_pos (by decide))),
    fun s h hh => (execPokerRead_named h (by decide) (.inr hh)).trans
      (congrArg Host.Outcome.next ((if_neg (by decide)).trans (if_pos (by decide)))),
    fun s n w h hn hs hh hb h41 hv => (execPokerWrite_named h hn hs hh hb w).trans
      (congrArg Host.Outcome.next ((if_neg h41).trans (if_neg ?visible))),
    fun s w h hh => (execPokerWrite_named h (by decide) (by decide) hh (.inl (by decide)) w).trans
      (congrArg Host.Outcome.next (if_pos (by decide))),
    fun s h hm hh => execPokerHalt_running h hm hh,
    fun s h hh => congrArg Host.Outcome.next ((State.poker_open h _ _).trans (if_pos hh)),
    fun s w h ho hh hn hl => ?inject, fun s h hk hl hc => execPokerChallenge_served h hk hl (if_pos hc),
    fun s h hk hl hc => execPokerChallenge_served h hk hl (if_neg (Nat.not_lt.mpr hc)),
    fun s w h hc h8 hlen => (execPokerResponse_challenged h hc h8 rfl).trans (congrArg Host.Outcome.next (if_pos ?incomplete)),
    fun s w h hc h8 hlen => (execPokerResponse_challenged h hc h8 rfl).trans (congrArg Host.Outcome.next (if_neg ?complete)),
    fun s h => congrArg Host.Outcome.next (State.poker_open h _ _), fun s hl => congrArg Host.Outcome.next (if_pos hl),
    fun s e h he hr => execPokerSandbox_taken h he hr, fun s x h hx => execPokerSandboxEnd_running h hx rfl⟩
  case visible =>
    simp only [Bool.and_eq_true, decide_eq_true_eq, not_and, Nat.not_lt]
    intro hhid
    simpa [hhid] using hv
  case inject =>
    obtain ⟨op, hop⟩ := Option.isSome_iff_exists.mp ho
    rw [hop]
    exact execPokerInject_landed h hop hh hn (Prod.ext (Option.isNone_iff_eq_none.mp hl) rfl)
  case incomplete =>
    rw [List.length_append, List.length_singleton]
    omega
  case complete =>
    rw [List.length_append, List.length_singleton]
    omega

end Sys2Proof.Machine

namespace Sys2Proof.Machine

/-! The service UART (R489 to R492) -/

/-- A request whose level is granted is served once a message that waits has been answered (R489, R490, R492). -/
theorem State.uartServe_granted {s : State} {need : Nat} (h : s.uartServed = true ∧ need ≤ s.uartReplied.svcLevel)
    (cmd : Nat) (tag : Byte) (zeros : List Byte) (k : State → State) :
    s.uartServe cmd tag need zeros k = k s.uartReplied := by
  obtain ⟨hs, hl⟩ := h
  exact (if_neg (by simp [hs])).trans (if_neg (Nat.not_lt.mpr hl))

/-- Settles O57: the level lets each command be served, and its operands select the branch that answers OK (that a message's free reply
comes before the next command is log 41). -/
theorem uartCommandsComplete : Obligations.UartCommandsComplete := by
  unfold Obligations.UartCommandsComplete
  refine ⟨fun s tag h => congrArg Host.Outcome.next (State.uartServe_granted h _ _ _ _),
    fun s tag page off h ho hf => congrArg Host.Outcome.next ((State.uartServe_granted h _ _ _ _).trans ?regRead),
    fun s tag page off v h ho hf => congrArg Host.Outcome.next ((State.uartServe_granted h _ _ _ _).trans ?regWrite),
    fun s tag off count h h1 h64 => congrArg Host.Outcome.next ((State.uartServe_granted h _ _ _ _).trans (if_neg (by omega))),
    fun s tag off slots h h1 h64 => congrArg Host.Outcome.next ((State.uartServe_granted h _ _ _ _).trans (if_neg (by omega))),
    fun s tag b h hl hc hk => congrArg Host.Outcome.next ((State.uartServe_granted h _ _ _ _).trans
      ((if_neg (not_not_intro hl)).trans ?message)),
    fun s tag b h hl hc hk hd => congrArg Host.Outcome.next ((State.uartServe_granted h _ _ _ _).trans
      ((if_neg (not_not_intro hl)).trans ?package)),
    fun s tag off len h h1 hlen hlog => congrArg Host.Outcome.next ((State.uartServe_granted h _ _ _ _).trans (if_neg (by omega))),
    fun s hw => ?idle, fun s tag hw => ?waiting⟩
  case regRead => exact (if_neg (by simp [ho])).trans (if_neg (ne_true_of_eq_false hf))
  case regWrite => exact (if_neg (by simp [ho])).trans (if_neg (ne_true_of_eq_false hf))
  case message => simp [State.deliverBlock_of_message _ hk hc, hk]
  case package => simp [hd, Nat.not_le.mpr hk]
  case idle => simp only [State.uartReplied, hw]
  case waiting => simp only [State.uartReplied, hw]

/-! OWNER, the secure partition and range, the ROM exit and the fuses (R481, R493, R494, R496, R500) -/

/-- OWNER of a page that is not locked takes the secure world's write, but for Ember's while it is locked out (R445, R481). -/
theorem State.ownerWrite_secure {s : State} {page : Nat} (hl : s.bit (Reg.ownerLock page) = false)
    (he : page ≠ 0x003 ∨ s.ember.locked = false) (v : Nat) : s.ownerWrite .tenderSecure page v =
      s.setFields [(Reg.ownerWorld page, bitsOf v 0 1), (Reg.ownerHostR page, bitsOf v 1 1), (Reg.ownerHostW page, bitsOf v 2 1),
        (Reg.ownerLock page, bitsOf v 3 1)] := by
  refine if_neg ?_
  rcases he with he | he <;> simp [hl, he]

/-- A fuse command that nothing refuses begins while none runs (R500). -/
theorem State.fuseCommand_begins {s : State} {op arg target : Nat} (hw : s.mayWrite .tenderSecure 0x009 = true)
    (hn : s.fuses.op = none) (hr : s.fuseRefused op arg target = false) :
    s.fuseCommand .tenderSecure op arg target = s.fuseBegin op arg target :=
  (State.writeSecure_mayWrite hw _ _).trans ((if_neg (by simp [hn])).trans (if_neg (ne_true_of_eq_false hr)))

/-- The fuse command that runs ends with what it programmed, or as failed (R500). -/
theorem execFuseDone_running {s : State} {o : Nat × Nat × Nat} (ho : s.fuses.op = some o) (programmed : Bool) :
    execFuseDone programmed s = .next
      (if programmed = true then { s with fuses := s.fuses.program o.1 o.2.1 o.2.2 }.fuseEnd o.1 o.2.1 0
      else s.fuseEnd o.1 o.2.1 2) := by
  simp only [execFuseDone, ho]

/-- Settles O58: the secure world may write the page, and the lock, the table in the way, the overlay or the fuses select the branch
that carries the command out (the entry of the ROM exit is log 111). -/
theorem securityCommandsComplete : Obligations.SecurityCommandsComplete := by
  unfold Obligations.SecurityCommandsComplete
  refine ⟨fun s page v hu ha hp hl he => congrArg Host.Outcome.next ((if_neg ?answers).trans
      ((if_neg (by simp [ha])).trans ((if_neg (ne_true_of_eq_false hp)).trans (State.ownerWrite_secure hl he _)))),
    fun s v hw h0 h11 hk => congrArg Host.Outcome.next ((State.writeSecure_mayWrite hw _ _).trans
      ((if_neg (by omega)).trans (if_neg (ne_true_of_eq_false hk)))),
    fun s limit v hw ht => congrArg Host.Outcome.next ((State.writeSecure_mayWrite hw _ _).trans
      (if_neg (ne_true_of_eq_false ht))),
    fun s v hw hb ho => congrArg Host.Outcome.next ((State.writeSecure_mayWrite hw _ _).trans (if_neg (by simp [hb, ho]))),
    fun s arg hw hn hr => congrArg Host.Outcome.next (State.fuseCommand_begins hw hn hr),
    fun s arg hw hn hr => congrArg Host.Outcome.next (State.fuseCommand_begins hw hn hr),
    fun s hw hn hr => congrArg Host.Outcome.next (State.fuseCommand_begins hw hn hr),
    fun s arg hw hn hr => congrArg Host.Outcome.next (State.fuseCommand_begins hw hn hr),
    fun s arg target hw hn hr => congrArg Host.Outcome.next (State.fuseCommand_begins hw hn hr),
    fun s o ho => execFuseDone_running ho true, fun s o ho => execFuseDone_running ho false⟩
  case answers => simp [State.answers_of_mainUp hu]

/-! Relining (R511 to R514) -/

/-- BEGIN is accepted for a component of the table, with DRAM, while no image is checked or activated and no other component is down
(R511, R512, log 104). -/
theorem State.rlnBeginOp_accepted {s : State} {c : Nat} (hc : s.fld Reg.rlnComponentComponent = c) (hd : s.hasDram = true)
    (h7 : c ≠ 7) (h2 : s.rlnState ≠ 2) (h4 : s.rlnState ≠ 4) (ho : s.otherDown c = false) : s.rlnBeginOp = s.rlnBegin c := by
  subst hc
  simp [State.rlnBeginOp, hd, h7, h2, h4, ho]

/-- Settles O59: the open page, the state of the machine, or the component that restarts selects the branch that carries the command out
(that ABORT acts in CHECKING, BEGIN is barred for component 7 and ACTIVATE erases the slot whole is log 104). -/
theorem reliningCommandsComplete : Obligations.ReliningCommandsComplete := by
  unfold Obligations.ReliningCommandsComplete
  exact ⟨fun s r hw hd h7 h2 h4 ho => congrArg Host.Outcome.next ((State.writeAs_mayWrite hw _ _).trans
      (State.rlnBeginOp_accepted rfl hd h7 h2 h4 ho)),
    fun s r hw hs => congrArg Host.Outcome.next ((State.writeAs_mayWrite hw _ _).trans (if_pos hs)),
    fun s hs => congrArg Host.Outcome.next (if_pos hs),
    fun s r hw hm => congrArg Host.Outcome.next ((State.writeAs_mayWrite hw _ _).trans (if_neg (ne_true_of_eq_false hm))),
    fun s r hw h4 => congrArg Host.Outcome.next ((State.writeAs_mayWrite hw _ _).trans (if_neg h4)),
    fun s m hs hr hp => congrArg Host.Outcome.next (if_pos ⟨hs, hr, hp⟩),
    fun s comp hr => congrArg Host.Outcome.next (if_pos hr),
    fun s comp hr h6 => congrArg Host.Outcome.next (if_pos ⟨hr, h6⟩)⟩

end Sys2Proof.Machine
